-- ==== Sys2Proof/Word.lean ====
section
/-! DEFINITION. The word types of the block: bytes, 32-bit registers and 64-bit addresses and times (R5, R260). -/

namespace Sys2Proof

/-- One byte (R5). -/
abbrev Byte := BitVec 8

/-- One 32-bit register (R260). -/
abbrev Word := BitVec 32

/-- A 64-bit address, time or counter (R5). -/
abbrev DWord := BitVec 64

/-- A 64-byte descriptor, byte 0 in its lowest bits (R5). -/
abbrev Desc := BitVec 512

end Sys2Proof
end

