-- ==== Sys2Proof/Config.lean ====
section
/-! DEFINITION. What one implementation fixes and what the spec leaves open: the free values.
Every constant here has no body, so no proof can see its value. A draw of a free value is numbered by the
counter `State.draws` (log entry 3). -/

namespace Sys2Proof.Config

/-- A value of 64 bits that the spec leaves open, by the number of the draw (log entry 3). -/
opaque freeWord : Nat → DWord

/-- A byte that the spec leaves undefined, by the number of the draw (log entry 3). -/
opaque freeByte : Nat → Byte

/-- The Signet's and the cipher engine's random generator: draw n (R238, R316, R347; log entry 14). -/
opaque random : Nat → DWord

/-- The unspecified sum of a SAT accumulator (R64), by draw; log entry 16. -/
opaque satSum : Nat → Int

/-- The hash that spreads slow-path frames over the cores of a wing set (R193); log entry 17. -/
opaque slowHash : Nat → Nat

/-- The device's ECDSA signature of a signed response, by transport and the number of the leaf that signs it beside it (R343); log entry 15. -/
opaque ecdsaSig : Nat → Nat → List Byte

/-- The device's LMS signature with a leaf (R343); log entry 15. -/
opaque lmsSig : Nat → List Byte

/-- Trace points that a firmware image defines for a core (R332): point, name and number of arguments; log entry 19. -/
opaque tracePoints : List Byte → Nat → List (Nat × List Byte × Nat)

/-- Message identifier of the firmware log's warning that no edge of PPS_IN arrives (R377); the spec states none (log entry 19). -/
opaque ppsWarning : Nat

/-- This device's identity public key, 97 bytes as R315 lays it out (R336); log entry 15. -/
opaque identityKey : List Byte

/-- The certificate chain of slot 0 (R337); log entry 15. -/
opaque certChain : List Byte

/-- Digest of the boot ROM (Table 15-1, MR0); log entry 15. -/
opaque romDigest : BitVec 384

/-- Boot ROM version (Table 15-5, reset entry ROM); log entry 12. -/
opaque romVersion : BitVec 8

/-- The value that the stream gives a register whose Reset column says Stream, by the bytes of the section (of the image, for a
block outside the halls) and the register's address: the section's encoding is Stairwell's and is not described (R26; log entry 18). -/
opaque streamReg : List Byte → Nat → Word

/-- What firmware reads from a firmware image (R326, R328): version in bits [31:0] as DEV_FW_VER shows it, lowest driver version in
[47:32] and highest in [63:48]; the image's layout is not in the spec (log entry 19). -/
opaque fwInfo : List Byte → DWord

/-- The bytes of a capsule's body section behind its header, by TYPE and what it carries, whose layout is not described (R315; log entry 21). -/
opaque sectionBytes {α : Type} : Nat → α → List Byte

/-- The 96 bytes of the device's ECDSA signature over a capsule, by the number of the draw (R315; log entry 15). -/
opaque capsuleSig : Nat → List Byte → Vector Byte 96

/-- Bytes that the memory of an egress queue, 16·port + queue, holds (R203); the spec states no size (log entry 41). -/
opaque txRoom : Nat → Nat

/-- Bytes of a flight control message of a kind behind its placement header; its layout is not described (log entry 42). -/
opaque ctlLen : Nat → Nat

/-- Payload bytes of a full FLIGHT_WRITE packet: 1,024, 2,048 or 4,096 by this number modulo 3; the spec states no MTU for the connections of flights
(log entry 42). -/
opaque flightMtu : Nat

/-- UDP source port of a flight's connection, as SPORT_BASE, in units of 16 above 0xC000 and modulo 1,024, by FLIGHT_ID and device; the spec states none
(log entry 42). -/
opaque flightSport : Nat → Nat → Nat

/-- First PSN of a flight's connection, by FLIGHT_ID and device; the spec states none (log entry 42). -/
opaque flightPsn : Nat → Nat → Nat

/-- Handle of the tier object that holds a capture ring's buffers (R198); the spec does not say where it is named (log entry 43). -/
opaque captureObject : Nat → Nat

/-- XTS key of a namespace, by the number of the draw (R215); log entry 15. -/
opaque xtsKey : Nat → List Byte

/-- Valid entries of a port's translation cache, by port and draw, modulo 8,193 (R288); log entry 141. -/
opaque atsValid : Nat → Nat → Nat

/-- CAP of a controller in the bits that the spec states no value for (R211, R213); log entry 49. -/
opaque nvmeCap : Nat

/-- Identify data of a CNS for a controller and an NSID where the spec states no value (R213); log entry 49. -/
opaque identify : Nat → Nat → Nat → List Byte

/-- Bytes of a log page from what the spec says that it holds (R213, R218); the pages' layouts are not in the spec; log entry 49. -/
opaque logPage : Nat → List (List Nat) → List Byte

/-- Value of a feature at a controller reset where the spec states none (R213), by Feature Identifier; log entry 49. -/
opaque featureReset : Nat → Nat

/-- Controller identifier of a controller (R214); log entry 49. -/
opaque cntlid : Nat → Nat

/-- Whether a completion with a status has Do Not Retry set (R221); log entry 49. -/
opaque doNotRetry : Nat → Bool

/-- SPROG of a record whose TOTAL is 0 (R231): the formula has no value there; log entry 53. -/
opaque emptyProgress : Nat

/-- Secure Erase Settings with which a format resumes from its record, which does not hold them (R231, R233), by draw; log entry 53. -/
opaque resumedSes : Nat → Nat

/-- What an initial-tree entry of the table section writes into the classifier's areas: area, first unit and bytes; the spec does not give
the entry's layout (log entry 55). -/
opaque initialTrees : List Byte → List (Nat × Nat × List Byte)

end Sys2Proof.Config
end

