-- ==== Sys2Proof/Machine/Types.lean ====
section
/-! DEFINITION. The named kinds and records that commands and state are made of. -/

namespace Sys2Proof.Machine

/-- Access types of register fields (R7, Table 00-4); `resv` is a reserved field (R6). -/
inductive Acc | rw | ro | wo | rwb | sqc | prw | srw | resv
  deriving DecidableEq, Repr

/-- A field of a register: the register's own BAR0 address and its highest and lowest bit. -/
structure Fld where
  reg : Nat
  hi : Nat
  lo : Nat
  deriving DecidableEq, Repr

/-- One field of a register row: its bits, access type, reset value, and whether the Reset column says Stream (R8). -/
structure FieldRow where
  hi : Nat
  lo : Nat
  acc : Acc
  rst : Nat
  stream : Bool
  deriving DecidableEq, Repr

/-- One row of a register map: the own BAR0 address of instance 0, how many instances stand at what stride,
and whether a selector register chooses among banks of it. -/
structure RegRow where
  addr : Nat
  count : Nat
  stride : Nat
  banked : Bool
  fields : List FieldRow
  deriving DecidableEq, Repr

/-- The masters of BAR0 (R262, Table 11-2). -/
inductive Master
  | pf0 (port : Fin 4)
  | stewardMachine
  | stewardOther
  | signet
  deriving DecidableEq, Repr

/-- Violation kinds of DEV_VIOL_LAST (Table 11-2). -/
inductive Viol | privRW | signetRW | partialWrite | unmapped | portBound
  deriving DecidableEq, Repr

/-- Device states (R364, Table 16-7). -/
inductive DevState | off | standby | boot | limited | ready | shedding | fatal
  deriving DecidableEq, Repr

/-- Slice states (Table 13-2). -/
inductive SliceState | free | bound | active | frozen | faulted | resetting
  deriving DecidableEq, Repr

/-- FAULT_CAUSE of a slice entry (Table 13-1). -/
inductive FaultCause | none | lease | unload | portLost | ringAccess | cqFull
  deriving DecidableEq, Repr

/-- Phases of an STR command (Table 02-11). -/
inductive StrPhase | idle | fetch | verify | shadow | quiesce | switch | resume | done
  deriving DecidableEq, Repr

/-- STR command opcodes (Table 02-12) and the start-up load of R32. -/
inductive StrOp | restream | loadFull | writeSlot | cancel | verifyOnly
  deriving DecidableEq, Repr

/-- The functions of a link (R276): PF0 of a port, and PF1 of half 0 or half 1. -/
inductive Func
  | pf0 (port : Fin 4)
  | pf1 (port : Fin 4) (half : Fin 2)
  deriving DecidableEq, Repr

/-- PF0's interrupt method (R284). -/
inductive IrqMethod | none | intx | msix
  deriving DecidableEq, Repr

/-- Time state (R101, Table 05-17). -/
inductive TimeState | acquiring | locked | holdover | unlocked
  deriving DecidableEq, Repr

/-- The byte spaces that the block reads and writes (log entry 6). `pf0 p` is host memory as PF0 of port p addresses it
(R263), `host l pasid` host memory under a PASID of link l, counted as 2·port + half, `accel a` the window of accelerator
position a, `tier h` the bytes of the tier object with handle h, copy 0, and `tierCopy h` copy 1, `flight k b` buffer b of
flight slot k, `treeArea a` tree area a of the classifier (R194). -/
inductive Space
  | pf0 (port : Nat)
  | host (link pasid : Nat)
  | accel (pos : Nat)
  | tier (handle : Nat)
  | tierCopy (handle : Nat)
  | flight (slot buffer : Nat)
  | treeArea (area : Nat)
  deriving DecidableEq, Repr

/-- A completion record's contents (R9, Table 00-8): RESULT and ENGINE as 64-bit numbers. -/
structure Rec where
  tag : Nat
  status : Nat
  source : Nat
  slice : Nat
  newel : Nat
  result : Nat
  engine : Nat
  /-- The descriptor asked for the ring's interrupt message (INTR). -/
  intr : Bool
  deriving DecidableEq, Repr

/-- A stage-1 image in a NOR device (R338 to R340): whether both of its signatures verify, its version number, its bytes and its
key manifest. -/
structure Stage1 where
  valid : Bool
  svn : Nat
  image : List Byte
  manifest : List Byte
  deriving DecidableEq, Repr

/-- A host access that fails, by the rows of Table 12-6, with what it belongs to: an operation by its number, a descriptor or storage
command as it is fetched and run (its stream table, image, buffer or data), a QP, a controller and its command, a slice, a ring, or the
block whose image is fetched. -/
inductive HostAccess
  | gallery (op : Nat)
  | flightStep (slot step : Nat)
  | rteLocal (op : Nat)
  | rteResponder (qpn : Nat)
  | nvme (ctrl queue cid : Nat)
  | placement (op : Nat)
  | slice (slice : Nat)
  | pf0Ring (ring : Nat)
  | fetched (ring : Nat) (d : Desc)
  | nvmeFetched (ctrl queue : Nat) (d : Desc)
  | clasp (op : Nat)
  | errRecord
  | strImage
  | treeLoad
  | cvuJob
  | logCopy
  deriving DecidableEq, Repr

/-- Where an uncorrectable word lies (Table 18-2). -/
inductive UeLoc
  | page (handle page copy : Nat)
  | flightBuffer (slot step : Nat)
  | galBuffer (op : Nat)
  | qpStore (qpn : Nat)
  | xtsKey (ctrl queue cid : Nat)
  | keyTable (index : Nat)
  | saTable (index : Nat)
  | flightStore (slot : Nat)
  | treeArea (unit : Nat)
  | stewardL2 (core : Nat)
  | cachedContext (port : Nat)
  | gallery (cluster : Nat)
  | sharedCache
  | sram (block : Nat)
  deriving DecidableEq, Repr

/-- What the device sends to the outside: interrupts, PCIe messages, AER reports, packets and frames. -/
inductive Out
  /-- MSI-X message of PF0 of a port (R285). -/
  | msix (port vector addr data : Nat)
  /-- Message of a slice entry: address and data (R287). -/
  | sliceMsg (slice entry addr data : Nat)
  | assertIntA (port : Nat)
  | deassertIntA (port : Nat)
  /-- AER report on PF0 of a port: 1 corrected internal, 2 uncorrectable internal (Table 18-5). -/
  | aerInternal (port kind : Nat)
  /-- AER report on a function, of a PCIe error seen by it: 1 Completion Timeout, 2 Unexpected Completion, 3 Poisoned TLP,
  4 Unsupported Request, 5 Completer Abort. -/
  | aerPcie (fn : Func) (kind : Nat)
  /-- Invalidate Completion of a port for a request number (R290). -/
  | invalDone (port req : Nat)
  /-- A network packet or message: destination, kind and its fields in the order its chapter gives them. -/
  | net (dest kind : Nat) (fields : List Nat)
  /-- A frame transmitted on a network port, without its FCS. -/
  | frame (port : Nat) (bytes : List Byte)
  /-- The network message that follows is protected on its port by MACsec under an SA with a number (R245). -/
  | secured (port sa pn : Nat)
  /-- A zero-length read on a link (2·port + half) for a QP (R134). -/
  | pushRead (link qpn : Nat)
  /-- A message sent on a channel, with its kind and fields: channel p the DOE mailbox of port p, 4 MCTP over I3C, 5 JTAG_TDO. -/
  | msg (channel kind : Nat) (fields : List Nat)
  /-- Data of a host read of the aperture: port, aperture offset and bytes (R174). -/
  | readData (port addr : Nat) (bytes : List Byte)
  /-- A command to a backend store (R220): its number, endpoint, kind (0 read, 1 write, 2 Write Zeroes with deallocate, 3 write of a 4-byte
  pattern), backend NSID, first LBA and blocks, and the bytes that it writes. -/
  | backend (id ep kind nsid lba blocks : Nat) (bytes : List Byte)
  /-- A pin driven: 0 STBY_OK, 1 MOD_PWRGD, 2 PPS_OUT, with its level. -/
  | pin (pin level : Nat)
  deriving DecidableEq, Repr

/-- A ring context (Table 13-4): bytes 0 to 31 as committed by RING_BIND, and the runtime bytes.
`st`: 0 unbound, 1 bound, 2 latched, 3 held by a Clasp WAIT, 4 stopped. -/
structure Ring where
  cfg : BitVec 256
  pi : Nat
  fi : Nat
  ci : Nat
  st : Nat
  counter : Nat
  deriving DecidableEq, Repr

/-- A slice table entry (Table 13-1): configuration bytes 0 to 63 and runtime state, with the cancel registers of
Table 13-3, the draw that gave its restore nonce (R316) and the target block of its SAVE (R315). -/
structure Slice where
  cfg : BitVec 512
  state : SliceState
  cause : FaultCause
  saved : Bool
  freezing : Bool
  energyLast : Nat
  deferrals : Nat
  dbReject : Nat
  stateNewel : Nat
  nonceDraw : Nat
  target : List Byte
  /-- The capsule that SAVE wrote since the slice last became FROZEN (R315). -/
  capsule : List Byte
  cancelTag : Nat
  cancelSeq : Nat
  cancelResult : Nat
  deriving DecidableEq, Repr

/-- A running SLC command that waits for its end (R274, R310, R313): opcode, slice, and the port of PF0 that wrote it (R263). -/
structure SlcCmd where
  op : Nat
  slice : Nat
  port : Nat
  deriving DecidableEq, Repr

/-- One fetched operation of a ring (R80, R148): its order number, ring, owner (a slice, or 0x8000 plus a port), source
engine byte, tag and descriptor; whether it has passed its commit point; its record once it has ended. -/
structure Op where
  id : Nat
  ring : Nat
  owner : Nat
  src : Nat
  tag : Nat
  desc : Desc
  /-- Completion ring that takes the record. -/
  cq : Nat
  /-- INTR of the descriptor. -/
  intr : Bool
  committed : Bool
  /-- The Coffer deferred part of its work (R357). -/
  deferred : Bool
  done : Option Rec
  deriving DecidableEq, Repr

/-- A message-table entry of a slice (R287) or an MSI-X vector of PF0 (R285). -/
structure MsgEntry where
  addr : Nat
  data : Nat
  mask : Bool
  pending : Bool
  deriving DecidableEq, Repr

/-- The device state proper (R364) and the reasons shown with it. -/
structure Dev where
  st : DevState
  shed : Nat
  limitedCause : Nat
  fatalReason : Nat
  /-- A stream runs (R32). -/
  stream : Bool
  /-- Firmware runs, with its version (R339). -/
  firmware : Bool
  /-- Step 9 of R32 is waiting for lane groups and backends (R366). -/
  envWait : Bool
  deriving DecidableEq, Repr

/-- The power sequencer and the Coffer (R350 to R363). Charges are counted in picojoules. -/
structure Pwr where
  /-- Voltage samples, newest first, in units of 10 mV, at most 100 (R360). -/
  samples : List Nat
  /-- Lowest sample of the running epoch and of the last one, in units of 10 mV. -/
  lowNow : Nat
  lowLast : Nat
  /-- Energy measured in the running epoch, in nanojoules (R354). -/
  measured : Nat
  /-- Device allowance A of the running epoch, in picojoules (R357). -/
  allowance : Nat
  devCharge : Nat
  engCharge : List (Nat × Nat)
  sliceCharge : List (Nat × Nat)
  /-- Controllers' charges against their own reservations (R358). -/
  ctrlCharge : List (Nat × Nat)
  /-- Charges against the unreserved part of the storage budget (R358). -/
  unreserved : Nat
  /-- Engines that have offered a unit in the epoch (R357): 0 to 3 by PWR_ENG number, 4 placement. -/
  offered : List Nat
  /-- Engines and slices with a unit refused in the epoch, which waits for the next one (R357). -/
  refused : List (Nat × Option Nat)
  /-- Gallery clocks are halved until the end of the epoch (R359). -/
  clamped : Bool
  /-- Energy table of Table 16-3 in force, and the one that replaces it at the next epoch boundary (R355). -/
  table : List Byte
  nextTable : Option (List Byte)
  /-- The stage-5 save is under way (R361). -/
  saving : Bool
  /-- PWR_CAP.W as the Coffer uses it, in W, and the epoch energy of the running epoch in µJ (R357, R359). -/
  cap : Nat
  energy : Nat
  deriving DecidableEq, Repr

/-- One link's request state (R290, R293): quarantined tags with the Newel time until which each is, invalidations outstanding, and its
port's pins. -/
structure Link where
  quarantined : List (Nat × Nat)
  /-- Invalidations outstanding: function and request number (R290). -/
  invals : List (Func × Nat)
  /-- PERST# is asserted on the port, REFCLK runs. -/
  perst : Bool
  refclk : Bool
  /-- The link has not trained since PERST# was last deasserted, so its training is checked as at start-up (R298). -/
  fresh : Bool
  deriving DecidableEq, Repr

/-- Configuration-space bits of one function that have no HST field (R277 to R291). -/
structure FnCfg where
  msixEnable : Bool
  intDisable : Bool
  funcMask : Bool
  d3hot : Bool
  l0pEnable : Bool
  l1Enable : Bool
  deriving DecidableEq, Repr

/-- One bank of a hall: SECTION_VER, STATE_LAYOUT and the section body (R23, R26). -/
structure HallBank where
  ver : Nat
  layout : Nat
  body : List Byte
  deriving DecidableEq, Repr

/-- The structure-stream loader (chapter 02): the running STR command and what the stream defines. -/
structure Str where
  /-- The running command, with FORCE_CLEAR and the port of PF0 that serves it (R263). -/
  cmd : Option (StrOp × Bool × Nat)
  /-- The staged image. -/
  image : List Byte
  /-- Halls still to process, the first of them current (R37). -/
  halls : List Nat
  /-- A hall of the command has switched, or a table entry has loaded (R39, Table 15-1). -/
  touched : Bool
  /-- RESULT code of the first table entry of the command that was refused, or 0 (R40). -/
  refused : Nat
  /-- Table entries still to load: type and payload (R37). -/
  tables : List (Nat × List Byte)
  /-- Sections in bank 0 and bank 1 of each hall. -/
  banks0 : List (Nat × HallBank)
  banks1 : List (Nat × HallBank)
  /-- The selected environment entry (Table 02-4), empty while none is selected. -/
  env : List Byte
  /-- Table-section payloads in force, by entry type (Table 02-5). -/
  tabs : List (Nat × List Byte)
  /-- Images in the two stream slots of NOR (R32). -/
  slotA : List Byte
  slotB : List Byte
  /-- ENV_MISMATCH records made (R35), and the parts kept disabled: accelerator positions, PTP, backend endpoints (R17). -/
  records : Nat
  accelOff : List Nat
  /-- Links, as 2·port + half, and lane groups that a mismatch keeps disabled, whatever they train to later (R17). -/
  portOff : List Nat
  groupOff : List Nat
  /-- Oscillator time at which the hall under way began to quiesce (R40). -/
  quiesceAt : Nat
  /-- The first of `tables`, a curve or an energy table, waits for its boundary (Table 02-5). -/
  tabWait : Bool
  ptpOff : Bool
  beOff : List Nat
  deriving DecidableEq, Repr

/-- Newel time and PTP (R99 to R102): nanoseconds, 16-bit fraction, the residue below the fraction in units of
10^-3 of it, the nanoseconds that the H11 oscillator has counted, which no STEP moves and on which every interval runs (R99), the run count
of good measurements and the time state; whether a master has been heard, the grandmaster's 1PPS warning, and the timestamp of the last
edge of PPS_IN (R377). -/
structure Time where
  ns : Nat
  up : Nat
  frac : Nat
  residue : Nat
  run : Nat
  st : TimeState
  heard : Bool
  ppsWarned : Bool
  ppsAt : Option Nat
  /-- Newel time of the last PTP event message on each port, under 2·port received and 2·port + 1 sent (R100). -/
  stamps : List (Nat × Nat)
  deriving DecidableEq, Repr

/-- What the device waits for under a time limit of its own (R99): the comparison of a block's seal (R270), a port's lease (R311), FREEZE_WAIT (R313), a
full completion ring (R309), an operation that waits (R156, R173, R183, R203), a packet in the miss buffer by its QP and PSN, and a QP's context fetch
(R145, R146), the SACK, the path's recovery and probe and the RNR wait of a QP (R131, R137, R138, R140), a core that runs or restarts (R321, R322), Sync
messages, HOLDOVER and the first master of PTP (R101), step 9 of start-up (R366), a heat decay boundary (R166) and a telemetry period (R335). -/
inductive Timer
  | seal (block : Nat) | lease (port : Nat) | freeze | ring (ring : Nat) | op (id : Nat) | miss (qpn psn : Nat) | context (qpn : Nat)
  | sack (qpn : Nat) | recovery (qpn path : Nat) | probe (qpn path : Nat) | rnr (qpn : Nat) | core (core : Nat) | sync | holdover | ptpStart
  | envCheck | decay | telemetry
  deriving DecidableEq, Repr

/-- Flight states (Table 05-8); numbers as FLT_SLOT_k.STATE shows them. -/
inductive FlightState | loaded | armed | running | stalled | landed | aborted | cancelled
  deriving DecidableEq, Repr

/-- Abort reasons (Table 05-12). -/
inductive AbortReason | peerLost | peerMismatch | lateAbort | hostLost | stepFault | migrated | shed | cancel
  deriving DecidableEq, Repr

/-- A step of a run: not started, running (whether past its commit point), or complete. -/
inductive StepState | waiting | running (committed : Bool) | complete | stopped
  deriving DecidableEq, Repr

/-- A flight control message that waits for its acknowledgement (R113, R122), whatever becomes of its flight: the slot that sent it, its flight
and epoch, the slice, port and frame bytes with which it goes out, the target device, message number, kind (1 abort broadcast, 2 arrival report) and
fields; the LANDING step of a report; and for a broadcast the oscillator time of the target's last progress and the PEER_TIMEOUT in ns. -/
structure Ctl where
  slot : Nat
  id : Nat
  epoch : Nat
  slice : Nat
  port : Nat
  len : Nat
  dest : Nat
  num : Nat
  kind : Nat
  fields : List Nat
  step : Nat
  since : Nat
  timeout : Nat
  deriving DecidableEq, Repr

/-- A loaded flight (chapter 05): its image and the progress of its run. -/
structure Flight where
  slice : Nat
  id : Nat
  image : List Byte
  st : FlightState
  /-- A freeze holds the flight at its next landing, and it is held (R124). -/
  holdAsked : Bool
  held : Bool
  epoch : Nat
  /-- Oscillator time at which Newel time reaches the epoch, or will with no STEP before (R99, R121). -/
  epochUp : Nat
  /-- HBM frames of the buffers of SPACE 1 (R171, R181). -/
  frames : List Nat
  /-- Bindings of ARM: buffer, tier handle or none for host memory, address (R109). -/
  binds : List (Nat × Option Nat × Nat)
  /-- Number of the ARM operation of the run. -/
  armOp : Nat
  lateLog : Nat
  lateLogLen : Nat
  lateLogNs : Nat
  /-- Records written into the lateness log. -/
  logged : Nat
  /-- Steps that have started (R111). -/
  steps : List (Nat × StepState)
  cvtFlags : Nat
  lateCause : Nat
  maxLate : Nat
  lateSteps : Nat
  /-- Doorbells counted in this run, by position, and accelerator counters captured at ARM (R109, R111). -/
  doorbells : List (Nat × Nat)
  counters : List (Nat × Nat)
  /-- The condition met last by a step that waits: step, Newel time, cause, and whether its engine was busy then (R114). -/
  blame : List (Nat × Nat × Nat × Bool)
  /-- SENDs with units of 64 KiB that have not been sent: step, how many, and MSG_SEQ (R115, R129). -/
  txLeft : List (Nat × Nat × Nat)
  /-- Data placed in this run: device, buffer, first byte, length, and whether it is visible (R107, R112). -/
  placed : List (Nat × Nat × Nat × Nat × Bool)
  /-- Arrivals known: landing set and rank, once for each landing (R113); messages already counted: device and number. -/
  arrived : List (Nat × Nat)
  seen : List (Nat × Nat)
  /-- Oscillator time of the last progress from each device (R121). -/
  progress : List (Nat × Nat)
  /-- Connections to devices: next PSN, and messages sent (R129, R130). -/
  conns : List (Nat × Nat × Nat)
  relayed : Bool
  /-- An abort or cancel has ended the run, and its completion waits for the steps that run to their end: status and origin (R120). -/
  ending : Option (Nat × Nat)
  anyDeferred : Bool
  anySaturated : Bool
  lastStatus : Nat
  lastOrigin : Nat
  deriving DecidableEq, Repr

end Sys2Proof.Machine
end

