-- ==== Sys2Proof/Machine/Bits.lean ====
section
/-! DEFINITION. Bit fields of numbers, byte order (R5), and sparse tables kept in rising order of their keys. -/

namespace Sys2Proof.Machine

/-- Bits hi down to lo of a number. -/
def bits (x hi lo : Nat) : Nat := x / 2 ^ lo % 2 ^ (hi + 1 - lo)

/-- Bit i of a number, as a truth value. -/
def bitAt (x i : Nat) : Bool := x / 2 ^ i % 2 == 1

/-- A truth value as 0 or 1. -/
def b2n (b : Bool) : Nat := if b then 1 else 0

/-- A number with bits hi down to lo replaced by v. -/
def setBits (x hi lo v : Nat) : Nat :=
  x / 2 ^ (hi + 1) * 2 ^ (hi + 1) + v % 2 ^ (hi + 1 - lo) * 2 ^ lo + x % 2 ^ lo

/-- The n bytes of a number, least significant first (R5). -/
def leBytes : Nat → Nat → List Byte
  | 0, _ => []
  | n + 1, x => BitVec.ofNat 8 x :: leBytes n (x / 256)

/-- The number that a byte string spells, least significant byte first (R5). -/
def leNat : List Byte → Nat
  | [] => 0
  | b :: bs => b.toNat + 256 * leNat bs

/-- The number that a byte string spells, most significant byte first. -/
def beNat (bs : List Byte) : Nat := leNat bs.reverse

/-- n bytes of a number, most significant first. -/
def beBytes (n x : Nat) : List Byte := (leBytes n x).reverse

/-- n bytes of a string from an offset; bytes beyond its end read 0. -/
def cut (bs : List Byte) (off n : Nat) : List Byte :=
  let t := (bs.drop off).take n
  t ++ List.replicate (n - t.length) 0

/-- The little-endian number in n bytes at an offset of a string (R5). -/
def fieldAt (bs : List Byte) (off n : Nat) : Nat := leNat (cut bs off n)

/-- Byte field of a 64-byte descriptor: n bytes at an offset (R5). -/
def Desc.field (d : Desc) (off n : Nat) : Nat := bits d.toNat (8 * (off + n) - 1) (8 * off)

/-- Bits hi down to lo of a descriptor. -/
def Desc.bits (d : Desc) (hi lo : Nat) : Nat := Machine.bits d.toNat hi lo

/-- Outside the given bit ranges, high bit first, a descriptor is zero (R6). -/
def Desc.only (d : Desc) (l : List (Nat × Nat)) : Bool := l.foldl (fun n f => setBits n f.1 f.2 0) d.toNat == 0

/-- A list put in order by insertion; entries of equal rank keep their order. -/
def insertBy {α : Type} (before : α → α → Bool) (x : α) : List α → List α
  | [] => [x]
  | y :: ys => if before x y then x :: y :: ys else y :: insertBy before x ys

/-- A list sorted by a strict order; entries of equal rank keep their order. -/
def sortBy {α : Type} (before : α → α → Bool) (l : List α) : List α := l.foldl (fun acc x => insertBy before x acc) []

/-- Every byte of the list is zero: a reserved field as R6 asks. -/
def allZero (bs : List Byte) : Bool := bs.all (· == 0)

/-- Two's-complement reading of an n-bit number. -/
def toSigned (n x : Nat) : Int := if x < 2 ^ (n - 1) then (x : Int) else (x : Int) - (2 ^ n : Nat)

/-- Two's-complement number of n bits of an integer. -/
def ofSigned (n : Nat) (x : Int) : Nat := (x % ((2 ^ n : Nat) : Int)).toNat

/-- The smallest multiple of m not below x. -/
def roundUp (x m : Nat) : Nat := (x + m - 1) / m * m

/-- Integer quotient rounded up. -/
def ceilDiv (x m : Nat) : Nat := (x + m - 1) / m

/-- Powers of two. -/
def isPow2 (n : Nat) : Bool := n != 0 && 2 ^ Nat.log2 n == n

/-- What a sparse table holds under a key. -/
def look {α : Type} : List (Nat × α) → Nat → Option α
  | [], _ => none
  | (k, v) :: t, j => if k = j then some v else look t j

/-- A sparse table with one key set: the entry replaces an old one, or stands before the first greater key. -/
def put {α : Type} : List (Nat × α) → Nat → α → List (Nat × α)
  | [], j, v => [(j, v)]
  | (k, w) :: t, j, v =>
    if k = j then (j, v) :: t else if j < k then (j, v) :: (k, w) :: t else (k, w) :: put t j v

/-- A sparse table without one key. -/
def drop {α : Type} (t : List (Nat × α)) (j : Nat) : List (Nat × α) := t.filter (fun e => e.1 != j)

/-- What a sparse table holds under a key, or a default. -/
def lookD {α : Type} (t : List (Nat × α)) (j : Nat) (d : α) : α := (look t j).getD d

/-- A number among those that `ok` admits, at or behind a start, cyclically from `lo` over `n` of them; `none` where none of `k` is free. -/
def pickFree (lo n k start : Nat) (ok : Nat → Bool) : Option Nat := ((List.range k).map fun j => lo + (start + j) % n).find? ok

end Sys2Proof.Machine
end

