-- ==== Sys2Proof/Machine/Mem.lean ====
section
/-! DEFINITION. Byte memory: one list of cells over all the byte spaces, in one canonical form: addresses strictly rising and
no cell equal to what an unlisted address reads as. An unlisted byte reads 0: what a tier page without a frame reads (R163); for
every other space it is a choice (log entry 5). -/

namespace Sys2Proof.Machine

/-- The byte memory (log entry 5). -/
abbrev Mem := List Host.Cell

/-- What an unlisted address reads as (R163; log entry 5). -/
def Mem.blank : Byte := 0

/-- The canonical form: addresses strictly rise and no cell holds the blank byte. -/
def Mem.wf : Mem → Bool
  | [] => true
  | (a, b) :: t => b != Mem.blank && t.all (fun c => a < c.1) && Mem.wf t

/-- The byte at an address. -/
def Mem.get : Mem → Nat → Byte
  | [], _ => Mem.blank
  | (k, v) :: t, a => if k = a then v else Mem.get t a

/-- A cell put in its place, replacing an old one. -/
def Mem.insert : Mem → Nat → Byte → Mem
  | [], a, b => [(a, b)]
  | (k, v) :: t, a, b => if k = a then (a, b) :: t else if a < k then (a, b) :: (k, v) :: t else (k, v) :: Mem.insert t a b

/-- Memory with one byte written; writing the blank byte removes the cell. -/
def Mem.set (m : Mem) (a : Nat) (b : Byte) : Mem :=
  if b = Mem.blank then m.filter (fun c => c.1 != a) else Mem.insert m a b

/-- n bytes from an address. -/
def Mem.read (m : Mem) (a : Nat) : Nat → List Byte
  | 0 => []
  | n + 1 => m.get a :: Mem.read m (a + 1) n

/-- A byte string written from an address. -/
def Mem.write (m : Mem) (a : Nat) : List Byte → Mem
  | [] => m
  | b :: bs => Mem.write (m.set a b) (a + 1) bs

/-- Memory with n bytes from an address blank. -/
def Mem.clear (m : Mem) (a n : Nat) : Mem := m.filter fun c => c.1 < a || a + n ≤ c.1

/-- Memory whose n bytes from b become a copy of the n bytes from a. -/
def Mem.copy (m : Mem) (a b n : Nat) : Mem :=
  (m.filter fun c => a ≤ c.1 && c.1 < a + n).foldl (fun m c => m.set (c.1 - a + b) c.2) (m.clear b n)

/-- Memory whose n bytes from b are those of the n bytes from a; nothing changes where these are the same bytes. -/
def Mem.carry (m : Mem) (a b n : Nat) : Mem := if a = b then m else m.copy a b n

/-- The cells of n bytes from an address, by distance from it. -/
def Mem.cells (m : Mem) (a n : Nat) : List (Nat × Byte) := (m.filter fun c => a ≤ c.1 && c.1 < a + n).map fun c => (c.1 - a, c.2)

/-- The number of a byte space, distinct for distinct spaces with parameters below 2^40. -/
def Space.num : Space → Nat
  | .pf0 h => h
  | .host h p => 1 * 2 ^ 80 + h * 2 ^ 40 + p
  | .accel a => 2 * 2 ^ 80 + a
  | .tier h => 3 * 2 ^ 80 + h
  | .tierCopy h => 4 * 2 ^ 80 + h
  | .flight k b => 5 * 2 ^ 80 + k * 2 ^ 40 + b
  | .treeArea a => 6 * 2 ^ 80 + a

/-- The memories outside the device, of the hosts and the accelerators: no reset of the device changes them. -/
def Mem.outside (m : Mem) : Mem := m.filter fun c => c.1 < (Space.tier 0).num * 2 ^ 64

/-- The cell address of a byte of a space: addresses of a space are 64 bits wide (R5). -/
def Space.at (sp : Space) (a : Nat) : Nat := sp.num * 2 ^ 64 + a % 2 ^ 64

end Sys2Proof.Machine
end

