-- ==== Sys2Proof/Machine/Numeric.lean ====
section
/-! DEFINITION. Number formats, exact values, the single rounding, MX blocks, the stochastic-rounding generator,
and the exact accumulators (chapter 03, R46 to R67). -/

namespace Sys2Proof.Machine

/-- Element formats (Table 03-1). -/
inductive Fmt | fp32 | bf16 | fp16 | e4m3 | e5m2 | mxfp8 | mxe3m2 | mxe2m3 | mxfp4 | int8 | int32
  deriving DecidableEq, Repr

/-- The format of a code; codes 0xB to 0xF name none (R46). -/
def Fmt.ofCode : Nat → Option Fmt
  | 0 => some .fp32 | 1 => some .bf16 | 2 => some .fp16 | 3 => some .e4m3 | 4 => some .e5m2 | 5 => some .mxfp8
  | 6 => some .mxe3m2 | 7 => some .mxe2m3 | 8 => some .mxfp4 | 9 => some .int8 | 10 => some .int32
  | _ => none

/-- The code of a format (Table 03-1). -/
def Fmt.code : Fmt → Nat
  | .fp32 => 0 | .bf16 => 1 | .fp16 => 2 | .e4m3 => 3 | .e5m2 => 4 | .mxfp8 => 5
  | .mxe3m2 => 6 | .mxe2m3 => 7 | .mxfp4 => 8 | .int8 => 9 | .int32 => 10

/-- Element bits (Table 03-1). -/
def Fmt.bits : Fmt → Nat
  | .fp32 | .int32 => 32
  | .bf16 | .fp16 => 16
  | .e4m3 | .e5m2 | .mxfp8 | .int8 => 8
  | .mxe3m2 | .mxe2m3 => 6
  | .mxfp4 => 4

/-- The Microscaling formats (Table 03-1). -/
def Fmt.isMx : Fmt → Bool
  | .mxfp8 | .mxe3m2 | .mxe2m3 | .mxfp4 => true
  | _ => false

/-- The integer formats (R51). -/
def Fmt.isInt : Fmt → Bool
  | .int8 | .int32 => true
  | _ => false

/-- Mantissa bits of a floating-point element (Table 03-3). -/
def Fmt.mant : Fmt → Nat
  | .fp32 => 23 | .bf16 => 7 | .fp16 => 10 | .e4m3 | .mxfp8 => 3 | .e5m2 => 2
  | .mxe3m2 => 2 | .mxe2m3 => 3 | .mxfp4 => 1 | .int8 | .int32 => 0

/-- Exponent bits (Table 03-3). -/
def Fmt.expBits : Fmt → Nat
  | .fp32 | .bf16 => 8 | .fp16 | .e5m2 => 5 | .e4m3 | .mxfp8 => 4
  | .mxe3m2 => 3 | .mxe2m3 | .mxfp4 => 2 | .int8 | .int32 => 0

/-- Exponent bias (Table 03-3). -/
def Fmt.bias : Fmt → Nat
  | .fp32 | .bf16 => 127 | .fp16 | .e5m2 => 15 | .e4m3 | .mxfp8 => 7
  | .mxe3m2 => 3 | .mxe2m3 | .mxfp4 => 1 | .int8 | .int32 => 0

/-- The format has infinities and the IEEE NaN patterns (Table 03-3). -/
def Fmt.hasInf : Fmt → Bool
  | .fp32 | .bf16 | .fp16 | .e5m2 => true
  | _ => false

/-- Exponent of the leading bit of the largest finite value (R58, Table 03-3). -/
def Fmt.emax : Fmt → Int
  | .fp32 | .bf16 => 127 | .fp16 | .e5m2 => 15 | .e4m3 | .mxfp8 => 8 | .mxe3m2 => 4 | .mxe2m3 | .mxfp4 => 2
  | .int8 | .int32 => 0

/-- The largest finite magnitude in units of 2^(emax - mant) (Table 03-3): E4M3 ends at 448. -/
def Fmt.qmax (f : Fmt) : Nat :=
  match f with
  | .e4m3 | .mxfp8 => 14
  | f => 2 ^ (f.mant + 1) - 1

/-- Exponent of the smallest normal (Table 03-3). -/
def Fmt.emin (f : Fmt) : Int := 1 - (f.bias : Int)

/-- An exact value (R54): a NaN (made from infinities of both signs, or received), an infinity, or
a sign, magnitude and power of two; a zero keeps its sign. -/
inductive Val
  | nan (invalid : Bool)
  | inf (neg : Bool)
  | num (neg : Bool) (mag : Nat) (exp : Int)
  deriving DecidableEq, Repr

/-- Rounding modes (Table 03-2). -/
inductive RMode | nearest | zero | stochastic
  deriving DecidableEq, Repr

/-- Mode of a ROUND field; 0b11 is invalid (R47). -/
def RMode.ofCode : Nat → Option RMode
  | 0 => some .nearest | 1 => some .zero | 2 => some .stochastic
  | _ => none

/-- A conversion control byte (Table 03-2): format, mode, and E4M3_OVF. -/
structure Ctrl where
  fmt : Fmt
  mode : RMode
  ovf : Bool
  deriving DecidableEq, Repr

/-- The conversion control byte of a number; none where R46 and R47 call it invalid. -/
def Ctrl.ofByte (b : Nat) : Option Ctrl :=
  if bitAt b 7 then none
  else match Fmt.ofCode (Machine.bits b 3 0), RMode.ofCode (Machine.bits b 5 4) with
    | some f, some m => some ⟨f, m, bitAt b 6⟩
    | _, _ => none

/-- The exact value of a floating-point element's bits (R48). -/
def fpVal (f : Fmt) (x : Nat) : Val :=
  let m := f.mant
  let e := f.expBits
  let neg := bitAt x (m + e)
  let ef := Machine.bits x (m + e - 1) m
  let mf := x % 2 ^ m
  if f.hasInf && ef == 2 ^ e - 1 then (if mf = 0 then .inf neg else .nan false)
  else if (f == .e4m3 || f == .mxfp8) && ef == 2 ^ e - 1 && mf == 2 ^ m - 1 then .nan false
  else if ef = 0 then .num neg mf (f.emin - m)
  else .num neg (2 ^ m + mf) ((ef : Int) - f.bias - m)

/-- The exact value of an element that is no MX element (R48, R51). -/
def elemVal (f : Fmt) (x : Nat) : Val :=
  if f.isInt then
    let v := toSigned f.bits x
    .num (v < 0) v.natAbs 0
  else fpVal f x

/-- The exact value of an MX element under its block's scale byte (R49). -/
def mxVal (f : Fmt) (scale x : Nat) : Val :=
  if scale = 255 then .nan false
  else match fpVal f x with
    | .num n m e => .num n m (e + scale - 127)
    | v => v

/-- A magnitude m * 2^exp as a multiple of 2^lsb, rounded (R55): the multiple, and whether the rest was nonzero. -/
def roundMultiple (m : Nat) (exp lsb : Int) (mode : RMode) (rnd : Nat) : Nat × Bool :=
  if lsb ≤ exp then (m * 2 ^ (exp - lsb).toNat, false)
  else
    let w := 2 ^ (lsb - exp).toNat
    let q := m / w
    let rem := m % w
    let up := match mode with
      | .nearest => w < 2 * rem || (2 * rem == w && q % 2 == 1)
      | .zero => false
      | .stochastic => 65536 ≤ rem * 65536 / w + rnd
    (if up then q + 1 else q, rem != 0)

/-- Conversion flags (Table 03-7). -/
def flagNV : Nat := 1
def flagNANIN : Nat := 2
def flagOF : Nat := 4
def flagUF : Nat := 8
def flagNX : Nat := 16
def flagSAT : Nat := 32

/-- Canonical NaN (Table 03-3, R52); the integer formats give 0. -/
def nanOf : Fmt → Nat
  | .fp32 => 0x7FC00000 | .bf16 => 0x7FC0 | .fp16 => 0x7E00 | .e4m3 | .mxfp8 => 0x7F | .e5m2 => 0x7E
  | .mxe3m2 | .mxe2m3 | .mxfp4 | .int8 | .int32 => 0

/-- The sign bit of a format at its place. -/
def signBit (f : Fmt) (neg : Bool) : Nat := if neg then 2 ^ (f.mant + f.expBits) else 0

/-- Infinity of a format that has one (Table 03-3). -/
def infOf (f : Fmt) (neg : Bool) : Nat := signBit f neg + (2 ^ f.expBits - 1) * 2 ^ f.mant

/-- Bits of a magnitude q * 2^lsb within the format's range (R66, encode). -/
def encodeFp (f : Fmt) (neg : Bool) (q : Nat) (lsb : Int) : Nat :=
  let m := f.mant
  let (q, lsb) := if q = 2 ^ (m + 1) then (2 ^ m, lsb + 1) else (q, lsb)
  signBit f neg + (if q < 2 ^ m then q else ((lsb + m + f.bias).toNat * 2 ^ m + (q - 2 ^ m)))

/-- Largest finite value of a format with a sign (Table 03-3). -/
def maxOf (f : Fmt) (neg : Bool) : Nat := encodeFp f neg f.qmax (f.emax - f.mant)

/-- The format's limit of one sign for an integer format (R51). -/
def intLimit (f : Fmt) (neg : Bool) : Nat := if neg then 2 ^ (f.bits - 1) else 2 ^ (f.bits - 1) - 1

/-- q * 2^lsb exceeds the largest finite value (R56). -/
def exceedsMax (f : Fmt) (q : Nat) (lsb : Int) : Bool :=
  let l := f.emax - f.mant
  let k := min lsb l
  f.qmax * 2 ^ (l - k).toNat < q * 2 ^ (lsb - k).toNat

/-- Overflow result (R56). -/
def overflowOf (f : Fmt) (neg : Bool) (mode : RMode) (ovf : Bool) : Nat :=
  if f == .e4m3 then (if ovf then nanOf f else maxOf f neg)
  else if f.hasInf && mode != .zero then infOf f neg
  else maxOf f neg

/-- The single rounding of R66 of an exact value: bits and conversion flags (R67). An MX element format saturates (R58). -/
def roundOnce (v : Val) (f : Fmt) (mode : RMode) (ovf : Bool) (rnd : Nat) : Nat × Nat :=
  match v with
  | .nan invalid =>
    let fl := if invalid then flagNV else flagNANIN
    (nanOf f, if f.isInt && !invalid then fl + flagNV else fl)
  | .inf neg =>
    if f.isInt then (intLimit f neg, flagOF)
    else if f == .e4m3 then (if ovf then nanOf f else maxOf f neg, flagOF)
    else if f.hasInf then (infOf f neg, 0)
    else (maxOf f neg, flagOF)
  | .num neg m exp =>
    if f.isInt then
      let (q, nx) := roundMultiple m exp 0 mode rnd
      let lim := if neg then 2 ^ (f.bits - 1) else 2 ^ (f.bits - 1) - 1
      let fl := if nx then flagNX else 0
      if lim < q then (intLimit f neg, fl + flagOF)
      else (ofSigned f.bits (if neg then -(q : Int) else (q : Int)), fl)
    else if m = 0 then (signBit f neg, 0)
    else
      let e := (Nat.log2 m : Int) + exp
      let lsb := max e f.emin - f.mant
      let (q, nx) := roundMultiple m exp lsb mode rnd
      let fl := if nx then flagNX else 0
      if exceedsMax f q lsb then (if f.isMx then maxOf f neg else overflowOf f neg mode ovf, fl + flagOF)
      else
        let uf := nx && q < 2 ^ f.mant
        (encodeFp f neg q lsb, fl + if uf then flagUF else 0)

/-- The stochastic-rounding generator (R59): 16 bits of draw d for a key. -/
def srBits (flight step index d : Nat) : Nat :=
  let z : BitVec 64 := BitVec.ofNat 64 (flight % 2 ^ 16 * 2 ^ 48 + step % 2 ^ 16 * 2 ^ 32 + index % 2 ^ 32)
  let z := z + 0x9E3779B97F4A7C15
  let z := (z ^^^ (z >>> 30)) * 0xBF58476D1CE4E5B9
  let z := (z ^^^ (z >>> 27)) * 0x94D049BB133111EB
  let z := z ^^^ (z >>> 31)
  Machine.bits z.toNat (16 * d + 15) (16 * d)

/-- A conversion (R54) of one element that is not MX on either side: equal codes keep the bits but for NaN. -/
def convertBits (src : Fmt) (x : Nat) (c : Ctrl) (rnd : Nat) : Nat × Nat :=
  let v := elemVal src x
  if src = c.fmt then
    match v with
    | .nan _ => (nanOf src, flagNANIN)
    | _ => (x, 0)
  else roundOnce v c.fmt c.mode c.ovf rnd

/-- |v| as magnitude and exponent, for a value known finite. -/
def Val.mag : Val → Nat × Int
  | .num _ m e => (m, e)
  | _ => (0, 0)

/-- The sign of a value. -/
def Val.neg : Val → Bool
  | .num n _ _ => n
  | .inf n => n
  | .nan _ => false

/-- NaN or infinite. -/
def Val.special : Val → Bool
  | .num _ _ _ => false
  | _ => true

def Val.isNan : Val → Bool
  | .nan _ => true
  | _ => false

/-- floor(log2 |v|) of nonzero values, the greatest over a list (R58). -/
def maxLog (vs : List Val) : Option Int :=
  vs.foldl (fun acc v =>
    let (m, e) := v.mag
    if m = 0 then acc
    else
      let l := (Nat.log2 m : Int) + e
      match acc with
      | none => some l
      | some a => some (max a l)) none

/-- MX encoding of one block (R58): scale byte, element bits, flags. `rnd i` is element i's draw. -/
def encodeMx (vs : List Val) (f : Fmt) (mode : RMode) (rnd : Nat → Nat) : Nat × List Nat × Nat :=
  if vs.any Val.special then
    (255, vs.map (fun _ => 0), (if vs.contains (.nan true) then flagNV else 0) + (if vs.contains (.nan false) then flagNANIN else 0) +
      (if vs.any (fun v => v.special && !v.isNan) then flagOF else 0))
  else match maxLog vs with
    | none => (127, vs.map (fun v => signBit f v.neg), 0)
    | some l =>
      let x := min (max (l - f.emax) (-127)) 127
      let rs := vs.zipIdx.map (fun (v, i) =>
        match v with
        | .num n m e => roundOnce (.num n m (e - x)) f mode false (rnd i)
        | v => roundOnce v f mode false (rnd i))
      ((x + 127).toNat, rs.map (·.1), rs.foldl (fun a r => a ||| r.2) 0)

/-- An exact accumulator (R62, R63): the sum in units of the variant's grid and the flags of Table 03-5. -/
structure Accu where
  sum : Int
  nan : Bool
  pinf : Bool
  ninf : Bool
  sat : Bool
  seen : Bool
  nonnegz : Bool
  deriving DecidableEq, Repr

/-- An accumulator that has received nothing. -/
def Accu.empty : Accu := ⟨0, false, false, false, false, false, false⟩

/-- The exchange format uses the 64-bit variant (R61). -/
def Fmt.small : Fmt → Bool
  | .e4m3 | .e5m2 | .int8 => true
  | _ => false

/-- Weight exponent of grid unit 1 for an exchange format (R62, R63). -/
def Fmt.grid : Fmt → Int
  | .int8 => 0 | .e4m3 => -9 | .e5m2 => -16
  | _ => -149

/-- A sum lies in its variant's range (R64). -/
def accInRange (f : Fmt) (x : Int) : Bool :=
  if f.small then -(2 ^ 64 : Int) ≤ x && x < 2 ^ 64 else x.natAbs < 2 ^ 309

/-- An addend in the exchange format, as its bits, as an accumulator (R65). -/
def accOf (f : Fmt) (x : Nat) : Accu :=
  match elemVal f x with
  | .nan _ => { Accu.empty with nan := true, seen := true, nonnegz := true }
  | .inf n => { Accu.empty with pinf := !n, ninf := n, seen := true, nonnegz := true }
  | .num n m e =>
    let u := m * 2 ^ (e - f.grid).toNat
    { Accu.empty with sum := if n then -(u : Int) else u, seen := true, nonnegz := !(n && m == 0) }

/-- Merging two accumulators (R65); a sum outside the variant's range sets SAT (R64), which stays set. Records merge in the order of the stream
table, so a partial sum that a later record would bring back into range has set SAT (log entry 127). -/
def Accu.merge (f : Fmt) (a b : Accu) : Accu :=
  { sum := a.sum + b.sum, nan := a.nan || b.nan, pinf := a.pinf || b.pinf, ninf := a.ninf || b.ninf,
    sat := a.sat || b.sat || !accInRange f (a.sum + b.sum), seen := a.seen || b.seen, nonnegz := a.nonnegz || b.nonnegz }

/-- The exact value that an accumulator holds, for rounding out (R66). -/
def Accu.val (f : Fmt) (a : Accu) : Val :=
  if a.nan then .nan false
  else if a.pinf && a.ninf then .nan true
  else if a.pinf || a.ninf then .inf a.ninf
  else if a.sum = 0 then .num (a.seen && !a.nonnegz) 0 0
  else .num (a.sum < 0) a.sum.natAbs f.grid

/-- Rounding out an accumulator of exchange format x into control c (R66, R64). -/
def Accu.out (x : Fmt) (a : Accu) (c : Ctrl) (rnd : Nat) : Nat × Nat :=
  if a.sat then (nanOf c.fmt, flagSAT) else roundOnce (a.val x) c.fmt c.mode c.ovf rnd

/-- Addend counts merge and saturate at 2^33 - 1 (R64). -/
def addCount (a b : Nat) : Nat := min (a + b) (2 ^ 33 - 1)

/-- A record of an accumulator group (R62, R63, R76); a SAT record's sum is the free value `free` (R64, log entry 16). -/
def Accu.bytes (f : Fmt) (a : Accu) (free : Int) : List Byte :=
  let s := if a.sat then free else a.sum
  if f.small then
    let u := ofSigned 65 s
    leBytes 8 (u % 2 ^ 64) ++ leBytes 8 (b2n a.nonnegz * 2 + b2n a.seen * 4 + b2n a.sat * 8 + b2n a.ninf * 16 + b2n a.pinf * 32
      + b2n a.nan * 64 + u / 2 ^ 64 * 128)
  else leBytes 40 (b2n a.nonnegz * 2 ^ 4 + b2n a.seen * 2 ^ 5 + b2n a.sat * 2 ^ 6 + b2n a.ninf * 2 ^ 7 + b2n a.pinf * 2 ^ 8
      + b2n a.nan * 2 ^ 9 + s.natAbs % 2 ^ 309 * 2 ^ 10 + b2n (s < 0) * 2 ^ 319)

/-- Bytes of one record (R76). -/
def recordBytes (f : Fmt) : Nat := if f.small then 16 else 40

/-- Reading a record back (R76): reserved bits are ignored. -/
def Accu.ofBytes (f : Fmt) (bs : List Byte) : Accu :=
  if f.small then
    let u := fieldAt bs 0 8
    let t := fieldAt bs 8 1
    { sum := toSigned 65 (u + b2n (bitAt t 7) * 2 ^ 64), nan := bitAt t 6, pinf := bitAt t 5, ninf := bitAt t 4, sat := bitAt t 3,
      seen := bitAt t 2, nonnegz := bitAt t 1 }
  else
    let u := fieldAt bs 0 40
    let m := Machine.bits u 318 10
    { sum := if bitAt u 319 then -(m : Int) else m, nan := bitAt u 9, pinf := bitAt u 8, ninf := bitAt u 7, sat := bitAt u 6,
      seen := bitAt u 5, nonnegz := bitAt u 4 }

/-- A value converted into an exchange format and accumulated (R61, R65): the new accumulator and the flags. -/
def accAdd (x : Fmt) (a : Accu) (v : Val) (c : Ctrl) (rnd : Nat) : Accu × Nat :=
  let (b, fl) := roundOnce v x c.mode c.ovf rnd
  (a.merge x (accOf x b), fl)

end Sys2Proof.Machine
end

