-- ==== Sys2Proof/Machine/EngineTypes.lean ====
section
/-! DEFINITION. The records that the engines keep in the state: the Gallery, the RTE, placement, the packet path, storage, the
cipher engine, the stewards, the Signet and the module's own connectors. -/

namespace Sys2Proof.Machine

/-- A program slot of the Gallery (R91): state 0 FREE, 1 LOADING, 2 CURRENT, 3 RETIRING. -/
structure ProgSlot where
  st : Nat
  owner : Nat
  image : List Byte
  deriving DecidableEq, Repr

/-- A resolved stream of a Gallery command or step (Table 04-5; for a flight buffer, Table 05-3): DIR, KIND, format,
the space, addresses of its elements and scales, and the end of what it may touch. -/
structure Strm where
  dir : Nat
  kind : Nat
  fmt : Fmt
  space : Space
  addr : Nat
  scaleSpace : Space
  scale : Nat
  /-- Records of each of several consecutive groups, or 0 for one group, and the distance of their first bytes (R106). -/
  per : Nat
  gap : Nat
  deriving DecidableEq, Repr

/-- A Gallery command or flight step under way (R92, R106): what it computes, and its chunks. -/
structure GalCmd where
  /-- Number of the ring operation, or 0 for a flight step. -/
  op : Nat
  /-- Flight slot and step, for a flight step. -/
  step : Option (Nat × Nat)
  slice : Nat
  /-- OPCODE 1 REDUCE, 2 CONVERT, 3 PROGRAM. -/
  kind : Nat
  count : Nat
  inCtrl : Nat
  outCtrl : Nat
  /-- Flight ID, step number and base index of the stochastic-rounding key (R60). -/
  key : Nat × Nat × Nat
  streams : List Strm
  scalars : List Nat
  /-- Where s24 to s31 are written back (SCALAR_WB): space and address. -/
  writeBack : Option (Space × Nat)
  /-- Program slot and image, for a PROGRAM. -/
  slot : Nat
  image : List Byte
  mask : Nat
  /-- Scheduled start of a flight step (R92). -/
  start : Nat
  /-- First element not handed out. -/
  next : Nat
  /-- Chunks running: cluster, first element, length. -/
  chunks : List (Nat × Nat × Nat)
  /-- Ranges of elements done: first, length. -/
  ranges : List (Nat × Nat)
  flags : Nat
  clusters : Nat
  addends : Nat
  accs : List Accu
  cnts : List Nat
  deferred : Bool
  /-- Epoch and first element of the chunk that GAL_CNT_DEFER counted last (R95). -/
  counted : Option (Nat × Nat)
  /-- A fault or an end stopped hand-out: its status (R82). -/
  fault : Option Nat
  deriving DecidableEq, Repr

/-- How a flight step ended on the Gallery: slot, step, status, conversion flags and deferral. -/
structure StepEnd where
  slot : Nat
  step : Nat
  status : Nat
  flags : Nat
  deferred : Bool
  deriving DecidableEq, Repr

/-- The Gallery's own state: commands under way in dispatch order, operations held by FENCE, operations whose dispatch waits for a group's header
in T4 (R69, R173), ended flight steps that the sequencer has
not seen, program slots by number, and the round-robin place over slices. -/
structure Gal where
  cmds : List GalCmd
  held : List Nat
  heads : List Nat
  ended : List StepEnd
  slots : List (Nat × ProgSlot)
  turn : Nat
  turnLeft : Nat
  deriving DecidableEq, Repr

/-- Packets of the RTE (Table 06-3, and the RoCEv2 operations of Table 06-1): data, and SACK or acknowledgement, NAK and CNP. -/
inductive PktOp
  | write | writeImm | send | sendImm | readReq | readResp | fetchAdd | cmpSwap | atomicResp
  | ack | nak | cnp
  /-- An opcode that R130 drops. -/
  | unknown
  deriving DecidableEq, Repr

/-- What a NAK says (R138, R143, R150): a status in sprayed mode, or a syndrome in RoCEv2 mode; RNR with the timer in ns. -/
inductive NakKind
  | status (code : Nat)
  | remoteAccess
  | invalidRequest
  | sequence
  | rnr (code : Nat)
  deriving DecidableEq, Repr

/-- A received packet (R127, R129): the headers' fields and the payload (`rdmaOf` reads them from a frame). In RoCEv2 mode the first packet of a message carries the
address, key and length, and the other fields of the placement header stand as its headers give them. A SACK has its edge in `argA`, a
NAK the refused PSN in `psn`, a CNP its path in `path`. -/
structure Pkt where
  port : Nat
  sprayed : Bool
  qpn : Nat
  op : PktOp
  psn : Nat
  path : Nat
  ce : Bool
  icrcOk : Bool
  vaddr : Nat
  key : Nat
  msgOffset : Nat
  msgLen : Nat
  fence : Bool
  first : Bool
  last : Bool
  solicited : Bool
  imm : Nat
  /-- READ_REQ: destination offset; atomics: addend or swap value; ATOMIC_RESP: the original value. -/
  argA : Nat
  /-- READ_REQ: local key; CMP_SWAP: compare value. -/
  argB : Nat
  /-- SACK: PSNs that its bitmap reports placed. -/
  placed : List Nat
  nak : Option NakKind
  payload : List Byte
  /-- The frame carries an 802.1Q tag. -/
  tagged : Bool := false
  deriving DecidableEq, Repr

/-- One path of a QP (R131, R140): rate in Mb/s, the earliest time of its next packet in ps, consecutive timeouts, SUSPECT, whether it may
carry its probe, and the probe. -/
structure Path where
  rate : Nat
  free : Nat
  timeouts : Nat
  suspect : Bool
  probe : Bool
  probePsn : Option Nat
  deriving DecidableEq, Repr

/-- A packet to send, or sent and not yet passed by the reported edge (R138). -/
structure SentPkt where
  /-- Given when the packet is sent. -/
  psn : Nat
  op : PktOp
  /-- Operation that holds it, or 0 for a response. -/
  work : Nat
  last : Bool
  /-- PSNs that it takes: 1, or those of the whole response for a RoCEv2 READ. -/
  span : Nat
  /-- Response: PSN of the request. -/
  req : Nat
  fields : List Nat
  payload : List Byte
  /-- Order number and path of the first and of the last transmission, and its Newel time. -/
  order0 : Nat
  path0 : Nat
  order : Nat
  path : Nat
  sentAt : Nat
  /-- Sent more than once; timeouts in all, and since the reported edge last changed. -/
  again : Bool
  timeouts : Nat
  tries : Nat
  /-- Reported placed. -/
  placed : Bool
  deriving DecidableEq, Repr

/-- A send work request under way (R150): operation, opcode, whether its first packet has been sent, first PSN, packets and length,
response packets placed, whether the response is visible, and an atomic's result that cannot be written yet. -/
structure SendWork where
  op : Nat
  opcode : Nat
  sent : Bool
  psn : Nat
  packets : Nat
  len : Nat
  got : Nat
  respDone : Bool
  /-- Original value of an atomic that waits for the page of its result location (R173). -/
  result : Option Nat
  deriving DecidableEq, Repr

/-- A placed packet at or above the visible-PSN edge (R132, R133). -/
structure InPkt where
  pkt : Pkt
  /-- Links that its data went to, as 2·port + half (R134). -/
  links : List Nat
  /-- Operation of the receive work request that a SEND claimed. -/
  recv : Option Nat
  deriving DecidableEq, Repr

/-- A QP (R127, R152, Table 06-11): attribute block and transport state. -/
structure Qp where
  slice : Nat
  /-- 0 RESET, 1 INIT, 2 RTR, 3 RTS, 4 SQD, 5 ERROR. -/
  st : Nat
  attr : List Byte
  resident : Bool
  fetching : Bool
  lastUse : Nat
  /-- Next send PSN, messages and SENDs sent. -/
  nextPsn : Nat
  msgSeq : Nat
  sendSeq : Nat
  /-- Latest edge reported to the sender (R137). -/
  edge : Nat
  work : List SendWork
  /-- Packets not sent yet, and packets sent, in PSN order. -/
  queue : List SentPkt
  unacked : List SentPkt
  order : Nat
  paths : List Path
  /-- SRTT and RTO in ns. -/
  srtt : Nat
  rto : Nat
  rnrTries : Nat
  waitRnr : Bool
  /-- Bytes of the admitted unit of 64 KiB that are left (R115). -/
  credit : Nat
  /-- Visible-PSN edge V, and what is placed at or above it (the arrival bitmap, R132). -/
  v : Nat
  arrived : List InPkt
  unreported : Nat
  lastPath : Nat
  /-- Receive work requests posted and not consumed, oldest first; those claimed by SENDs, by send sequence number; SENDs consumed. -/
  recvs : List Nat
  claims : List (Nat × Nat)
  recvSeq : Nat
  /-- Links with writes not yet pushed by a zero-length read, and reads under way (R134). -/
  pushLinks : List Nat
  pushing : List Nat
  /-- NAK that the responder answers after a failed check (R143). -/
  nak : Option NakKind
  /-- Kept atomic results: PSN of the request and original value (R151). -/
  kept : List (Nat × Nat)
  /-- The message that arrives in RoCEv2 mode: region offset, key, bytes placed and length. -/
  roce : Nat × Nat × Nat × Nat
  /-- MODIFY operations to SQD that wait, each with the work requests that had started (Table 06-12). -/
  sqdOps : List (Nat × List Nat)
  /-- Request messages that the responder has taken whole: the MSN of the RoCEv2 specification (R127). -/
  msn : Nat
  /-- Newel time of the last CNP sent per path (R139). -/
  cnpSent : List (Nat × Nat)
  deriving DecidableEq, Repr

/-- Send ring of a QP (Table 06-11). -/
def Qp.sq (q : Qp) : Nat := fieldAt q.attr 8 2

/-- Receive ring. -/
def Qp.rq (q : Qp) : Nat := fieldAt q.attr 10 2

/-- Completion ring of the send ring. -/
def Qp.scq (q : Qp) : Nat := fieldAt q.attr 12 2

/-- Completion ring of the receive ring. -/
def Qp.rcq (q : Qp) : Nat := fieldAt q.attr 14 2

/-- A memory key entry by index (R141): state 1 valid, 2 REVOKING; space 0 tier object, 1 host memory, 2 accelerator window. -/
structure Key where
  tag : Nat
  st : Nat
  slice : Nat
  space : Nat
  handle : Nat
  pos : Nat
  base : Nat
  len : Nat
  rights : Nat
  cached : Bool
  fetching : Bool
  /-- DEREG_MR operation waiting for the drain (R144). -/
  deregOp : Option Nat
  deriving DecidableEq, Repr

/-- Why a packet waits in a miss buffer (R146). -/
inductive MissWhy | context | key (index : Nat) | fence
  deriving DecidableEq, Repr

/-- The RTE's own state: QPs by number, keys by index, tags last used, miss buffers in order of arrival, and a clock of uses. -/
structure Rte where
  qps : List (Nat × Qp)
  keys : List (Nat × Key)
  tags : List (Nat × Nat)
  miss : List (Pkt × MissWhy)
  useClock : Nat
  deriving DecidableEq, Repr

/-- A pending Clasp WAIT (R155): operation, ring, slice, source, completion ring or accelerator position, and threshold. -/
structure Clasp where
  op : Nat
  ring : Nat
  slice : Nat
  source : Nat
  target : Nat
  threshold : Nat
  deriving DecidableEq, Repr

/-- A firmware command under way (R327, R328): opcode, slot, wings still to process, the port of PF0 that wrote it, and the image. -/
structure FwCmd where
  op : Nat
  slot : Nat
  wings : List Nat
  port : Nat
  image : List Byte
  deriving DecidableEq, Repr

/-- A log copy under way (R333): wing, first sequence number, count, address and the port of PF0 that started it. -/
structure LogCopy where
  wing : Nat
  start : Nat
  count : Nat
  addr : Nat
  port : Nat
  deriving DecidableEq, Repr

/-- What the TELEMETRY service gathers for its next block (R335, Tables 14-7 and 14-8). -/
structure Tel where
  epochFirst : Nat
  epochs : Nat
  skipped : Nat
  vMin : Nat
  vSum : Nat
  vCount : Nat
  /-- Measured energy and charges in picojoules: input, engines by number, slices by number. -/
  energy : Nat
  eng : List (Nat × Nat)
  slice : List (Nat × Nat)
  shed : Nat
  defer : Nat
  clamps : Nat
  errors : Nat
  sliceDefer : List (Nat × Nat)
  sliceErr : List (Nat × Nat)
  /-- Slices that were ACTIVE or FROZEN at the start of the period or have become so since. -/
  live : List Nat
  deriving DecidableEq, Repr

/-- The steward complex (chapter 14): the firmware slots in NOR, the image that each wing runs, running commands, crash times by
core, log rings and what telemetry gathers. -/
structure Stw where
  slotA : List Byte
  slotB : List Byte
  fw : Option FwCmd
  copy : Option LogCopy
  /-- Core and Newel time of each crash, newest first (R324). -/
  crashes : List (Nat × Nat)
  /-- Log records by wing, newest first (R331). -/
  logs : List (Nat × List (List Byte))
  /-- Trace records not written since the last record, by wing (R332). -/
  lost : List (Nat × Nat)
  tel : Tel
  deriving DecidableEq, Repr

/-- SPDM connection state of one transport (R342): the requests answered so far, and the leaf of the kept LMS signature (R343). -/
structure Spdm where
  version : Bool
  caps : Bool
  algs : Bool
  lms : Option Nat
  deriving DecidableEq, Repr

/-- The Signet (chapter 15). -/
structure Sig where
  /-- Measurement registers MR0 to MR15, by number (R341). -/
  mr : List (Nat × BitVec 384)
  /-- The Locket key in NOR (R346). -/
  lkey : Option (List Byte)
  /-- Number of the random draw that gave the debug nonce (R347). -/
  nonceDraw : Nat
  /-- End of the reserved block of leaves as NOR records it, and the next leaf to sign (R344). -/
  lmsEnd : Nat
  lmsNext : Nat
  /-- Stage-1 image that runs, and the SVN it carries. -/
  stage1Svn : Nat
  spdm : List (Nat × Spdm)
  deriving DecidableEq, Repr

/-- The module's low-speed signals and its I3C endpoint (chapter 17). -/
structure Mio where
  modPwrgd : Bool
  stbyOk : Bool
  ppsOut : Bool
  /-- The internal hold of the ports after MOD_PWRGD runs (R372). -/
  portHold : Bool
  /-- I3C dynamic address and MCTP endpoint ID (R374). -/
  dynAddr : Option Nat
  eid : Nat
  /-- JTAG_TRST# holds the TAP in reset, and the TAP's instruction (R378). -/
  tapReset : Bool
  tapIr : Nat
  /-- Last reported state of each PLDM sensor: 0 normal, 1 warning, 2 trip; for sensors 9 and 10 the value (R375). -/
  sensors : List (Nat × Nat)
  deriving DecidableEq, Repr

/-- A copy of a page (R175, R177): as it should be, readable but behind the other copy, or lost with its frame; the last two wait for repair. -/
inductive CopySt | intact | stale | failed
  deriving DecidableEq, Repr

/-- A page of a tier object (R163 to R180): tier and frame of copy 0 and of copy 1, heat, the Newel time of its last move under the
curve, LOST, the write generations, and what has become of its copies. -/
structure TPage where
  loc : Option (Nat × Nat)
  rep : Option (Nat × Nat)
  heat : Nat
  moved : Option Nat
  lost : Bool
  gen0 : Nat
  gen1 : Nat
  c0 : CopySt
  c1 : CopySt
  deriving DecidableEq, Repr

/-- A tier object by index (R162, R165, R175): tag, slice, pages, class, hints, copies and REPLICA_TIER, quarantine, and the pages that
have been written or read. -/
structure TObj where
  tag : Nat
  slice : Nat
  pages : Nat
  cls : Nat
  ceil : Nat
  floor : Nat
  pin : Bool
  start : Nat
  copies : Nat
  repTier : Nat
  discord : Bool
  page : List (Nat × TPage)
  deriving DecidableEq, Repr

/-- A registered pool (Table 07-7), by 16·slice + identifier. -/
structure Pool where
  tier : Nat
  backend : Nat
  id : Nat
  base : Nat
  pages : Nat
  rkey : Nat
  deriving DecidableEq, Repr

/-- A move under way (R169): object and page, copy, kind of R168 (5 for a demand fetch), source and destination frames, whether it has
switched and drains, and whether the curve asked for it. -/
structure Move where
  obj : Nat
  page : Nat
  copy : Nat
  kind : Nat
  src : Option (Nat × Nat)
  dst : Nat × Nat
  draining : Bool
  deriving DecidableEq, Repr

/-- A page of the BAR4 aperture of a port (R174): aperture page, object, page in it, and rights. -/
structure ApMap where
  port : Nat
  ap : Nat
  obj : Nat
  page : Nat
  read : Bool
  write : Bool
  deriving DecidableEq, Repr

/-- Why a fetched placement command has not ended: FENCE, a pause of a hall (Table 02-8), a page in T3 or T4 (R173), or WAIT_SETTLED (R183). -/
inductive PlcWait | fence | pause | fetch | settle
  deriving DecidableEq, Repr

/-- A host access of the aperture that waits for a page (R173): its number, port, offset, the bytes of a write, and the length of a read. -/
structure BarWait where
  id : Nat
  port : Nat
  off : Nat
  data : Option (List Byte)
  len : Nat
  deriving DecidableEq, Repr

/-- Placement (chapter 07). -/
structure Plc where
  /-- Objects by index, and the tag last used at each index (R162). -/
  objs : List (Nat × TObj)
  tags : List (Nat × Nat)
  pools : List (Nat × Pool)
  moves : List Move
  /-- Candidates of the curve in order: object, page and target tier (R167). -/
  cands : List (Nat × Nat × Nat)
  maps : List ApMap
  /-- Commands that wait, by operation, oldest first. -/
  waits : List (Nat × PlcWait)
  /-- Demand fetches that could not begin: object and page, and whether the Coffer has refused them in this epoch (R173). -/
  fetches : List (Nat × Nat × Bool)
  /-- Host accesses of the aperture that wait, oldest first (R173). -/
  bars : List BarWait
  /-- T1 pages reserved for QP backing stores, by slice (R301). -/
  stores : List (Nat × Nat)
  retiring : List Nat
  /-- The retired-frame list in NOR (R179). -/
  retired : List Nat
  /-- Frames past the threshold that a full list leaves in service (R179). -/
  kept : List Nat
  /-- Correctable errors of a frame by 10-minute interval (R179). -/
  ce : List (Nat × List (Nat × Nat))
  /-- The running evacuation: channel and RETRAIN (R181). -/
  evac : Option (Nat × Bool)
  deriving DecidableEq, Repr

/-- A token bucket as it stood at a time of the oscillator, in ns (R199, R205). Tokens are in units of 1/125 of 2^-10 byte, in which RATE / 8,000
bytes per ns is a whole number of units, so that a refill judged often loses nothing. -/
structure Bucket where
  tokens : Int
  at' : Nat
  deriving DecidableEq, Repr

/-- A frame, or a message of the RTE or of a flight, in an egress queue (R203): its SEND_FRAME operation or 0, the slice or 0xFFFF for the
device's own traffic and PF0's, the length of a message in frame bytes, the bytes of a frame without FCS, the SA of SA_EN, and the
message. -/
structure TxFrame where
  op : Nat
  owner : Nat
  len : Nat
  data : List Byte
  sa : Option Nat
  out : Option Out
  deriving DecidableEq, Repr

/-- A received frame on its way (R188, R198): port, bytes without FCS, the RDMA packet that it carries if it carries one, and whether it has
been decrypted or has come through the slow path. -/
structure RxFrame where
  port : Nat
  bytes : List Byte
  pkt : Option Pkt
  decrypted : Bool
  slow : Bool
  /-- A reassembled datagram (R193). -/
  whole : Bool
  /-- Length as it was received, FCS included (R199, R206); of a datagram that of its fragments together (log entry 138). -/
  len : Nat
  deriving DecidableEq, Repr

/-- A merged action (R196, R197): DISP, TARGET, MIRROR, METER, RW_OP and RW_ARG, SA, and the RULE_ID. -/
structure Act where
  disp : Nat
  target : Nat
  mirror : Bool
  meter : Option Nat
  rwOp : Nat
  rwArg : Nat
  sa : Option Nat
  rule : Nat
  deriving DecidableEq, Repr

/-- What waits in a holding buffer of the cipher engine (R247): a received frame, one that its action has decrypted, or a frame to send
with its queue. -/
inductive HoldItem
  | rx (f : RxFrame)
  | esp (f : RxFrame) (a : Act)
  | tx (queue : Nat) (f : TxFrame)
  deriving DecidableEq, Repr

/-- A reassembly (R193): wing, port, what identifies the datagram, when it began, the bytes ahead of the first fragment's payload, its next
header, the length once known, and the pieces by offset. -/
structure Reasm where
  wing : Nat
  port : Nat
  id : List Byte
  start : Nat
  decrypted : Bool
  /-- What stands ahead of the first fragment's payload, and where its IP header begins in it. -/
  head : Option (Nat × List Byte)
  total : Option Nat
  pieces : List (Nat × List Byte)
  /-- Lengths of the fragments as received, together. -/
  len : Nat
  deriving DecidableEq, Repr

/-- A tree load under way (R207): area, first unit, bytes, source address, and the port of PF0 that serves it. -/
structure TLoad where
  area : Nat
  unit : Nat
  len : Nat
  src : Nat
  port : Nat
  deriving DecidableEq, Repr

/-- What the MAC ingress buffers keep for a paused hall (Table 02-8): frames, and packets for the RTE. -/
inductive Ingress
  | frame (f : RxFrame)
  | pkt (p : Pkt)
  deriving DecidableEq, Repr

/-- Packet path (chapter 08). -/
structure Pp where
  /-- Trees have been committed, and switch at the next frame start (R207). -/
  commit : Bool
  /-- The tree writes that were pending at that commit (R207). -/
  trees : List (Nat × Word × Word)
  tload : Option TLoad
  /-- Buckets that are not full: meters, queue shapers by 16·port + queue, slice shapers. -/
  meters : List (Nat × Bucket)
  queueB : List (Nat × Bucket)
  sliceB : List (Nat × Bucket)
  /-- Egress queues by 16·port + queue, oldest first; the owner served last; deficits. -/
  queues : List (Nat × List TxFrame)
  lastOwner : List (Nat × Nat)
  deficit : List (Nat × Nat)
  /-- Place of the deficit round-robin of each port: queue, and whether its turn has begun. -/
  turn : List (Nat × (Nat × Bool))
  /-- SEND_FRAME operations that wait, oldest first; true for queue memory, false for the Coffer. -/
  txWait : List (Nat × Bool)
  /-- Bytes left of the admitted unit of 64 KiB, by owner; bytes of received frames not yet charged, by owner. -/
  credit : List (Nat × Nat)
  rxDebt : List (Nat × Nat)
  /-- Slow-path queues by wing, oldest first, and reassemblies, oldest first. -/
  slow : List (Nat × List RxFrame)
  reasm : List Reasm
  ingress : List Ingress
  /-- Frames dropped beyond the buffers, by lane group (Table 02-8). -/
  ingressDrops : List (Nat × Nat)
  deriving DecidableEq, Repr

/-- Part of a namespace (R214): extent, first block in it, and blocks. -/
structure NvSeg where
  ext : Nat
  off : Nat
  n : Nat
  deriving DecidableEq, Repr

/-- A namespace (R214, R215, R218): its blocks in the pool, whether it is attached, the draw that gave its XTS key, and a pending deferred
error. -/
structure Ns where
  segs : List NvSeg
  attached : Bool
  key : Nat
  pend : Bool
  deriving DecidableEq, Repr

/-- A block in the HBM cache (R215 to R218): namespace and LBA, data, guard CRC, whether it is dirty, FAILED, or being destaged, its version,
and its last use. -/
structure NvBlk where
  ns : Nat
  lba : Nat
  data : List Byte
  guard : Nat
  dirty : Bool
  failed : Bool
  busy : Bool
  ver : Nat
  used : Nat
  deriving DecidableEq, Repr

/-- What a backend command serves: an I/O command, destage, a deleted namespace, or a sanitize or format. -/
inductive BeUse
  | cmd (queue cid : Nat)
  | destage
  | free
  | op
  deriving DecidableEq, Repr

/-- Kinds of backend commands. -/
inductive BeKind | read | write | zero | pattern
  deriving DecidableEq, Repr

/-- A backend command in flight (R220): number, controller, endpoint, backend NSID, first LBA, blocks, kind, namespace and its first LBA,
use, bytes written as the backend sees them and as the host gave them, tries made, time of the last one, whether a read may fill the cache,
and the versions of the blocks that it destages. -/
structure BeCmd where
  id : Nat
  ctrl : Nat
  ep : Nat
  nsid : Nat
  lba : Nat
  n : Nat
  kind : BeKind
  ns : Nat
  nlba : Nat
  use : BeUse
  wire : List Byte
  data : List Byte
  tries : Nat
  at' : Nat
  fill : Bool
  vers : List Nat
  deriving DecidableEq, Repr

/-- Why a fetched storage command has not ended: exit latency (R228), the Coffer (R357), cache space (R217), or backend commands. -/
inductive NvPhase | exit | energy | space | run
  deriving DecidableEq, Repr

/-- A fetched storage command: queue, CID and entry, phase, units not yet admitted, whether it has passed its commit point (Table 09-5), blocks
read so far, dirty blocks that a Flush waits for (namespace, LBA, version), its first failure, and when it began to wait for space. -/
structure NvCmd where
  queue : Nat
  cid : Nat
  sqe : Desc
  phase : NvPhase
  units : Nat
  committed : Bool
  got : List (Nat × List Byte)
  flush : List (Nat × Nat × Nat)
  fail : Nat
  at' : Nat
  deriving DecidableEq, Repr

/-- A submission queue: ring, completion queue, and the CID of the Delete that waits for it (R225). -/
structure NvSq where
  ring : Nat
  cq : Nat
  closing : Option Nat
  deriving DecidableEq, Repr

/-- The persistent operation record (Table 09-7). -/
structure NvRec where
  seq : Nat
  op : Nat
  state : Nat
  passes : Nat
  pass : Nat
  keysSet : Bool
  oipbp : Bool
  pattern : Nat
  nsid : Nat
  progress : Nat
  total : Nat
  slice : Nat
  deriving DecidableEq, Repr

/-- A sanitize or format as it runs (R230 to R233): whether it runs now, blocks finished in the pass, since when the backend is unavailable, when
the record was last written, SES of a format, and the CID of the Format command. -/
structure NvOp where
  active : Bool
  progress : Nat
  down : Option Nat
  recAt : Nat
  ses : Nat
  fmt : Option Nat
  deriving DecidableEq, Repr

/-- A record of log page 0xC0 (R218): NSID, first LBA, blocks, the backend's status, Newel time. -/
structure NvDefer where
  nsid : Nat
  lba : Nat
  n : Nat
  status : Nat
  newel : Nat
  deriving DecidableEq, Repr

/-- An emulated NVMe controller (R211): its properties, queues, commands, namespaces, cache, logs, features and power state. -/
structure NvCtrl where
  cc : Nat
  aqa : Nat
  asq : Nat
  acq : Nat
  rdy : Bool
  en : Bool
  sqs : List (Nat × NvSq)
  /-- Completion queues by number, with their rings. -/
  cqs : List (Nat × Nat)
  /-- Completion entries that wait for room, by completion queue, oldest first: the entry without its phase bit. -/
  wait : List (Nat × List Nat)
  cmds : List NvCmd
  nss : List (Nat × Ns)
  cache : List NvBlk
  clock : Nat
  deferred : List NvDefer
  lost : Nat
  errors : List (List Nat)
  /-- Features that Set Features has set, by identifier and selector (Table 09-2), and the APST table. -/
  feats : List (Nat × Nat)
  apst : List Byte
  /-- CIDs of the Asynchronous Event Requests outstanding; events that wait (type, information, log page); types masked until their page
  is read. -/
  aers : List Nat
  events : List (Nat × Nat × Nat)
  masked : List (Nat × Nat)
  /-- Power state, the one that it enters, and the one whose exit latency runs (R227, R228); since when it is idle. -/
  ps : Nat
  entering : Option Nat
  exiting : Option Nat
  idleAt : Nat
  rec' : NvRec
  run : NvOp
  deriving DecidableEq, Repr

/-- Storage (chapter 09): controllers by slice, backend commands in flight, the number of the next, and the record copies in NOR 0 by 2·controller
+ copy (R230). -/
structure Nvs where
  ctrls : List (Nat × NvCtrl)
  be : List BeCmd
  next : Nat
  nor : List (Nat × List Byte)
  /-- Since when the 50 V stage pauses sanitize and format passes (R232), and what the module sensor last showed, in kelvin (R213). -/
  paused : Option Nat
  temp : Nat
  deriving DecidableEq, Repr

/-- A security association (R240): its entry with KEY, the next number or the highest accepted one, numbers accepted in the window,
state (1 ACTIVE, 2 EXHAUSTED, 3 REMOVING), and whether the SA cache holds it, with its last use. -/
structure Sa where
  entry : List Byte
  pn : Nat
  seen : List Nat
  st : Nat
  cached : Bool
  lastUse : Nat
  deriving DecidableEq, Repr

/-- A CVU job under way (R254): context, source, length, and the port of PF0 that serves it. -/
structure CvuJob where
  ctx : Nat
  src : Nat
  len : Nat
  port : Nat
  deriving DecidableEq, Repr

/-- Cipher engine and check-value units (chapter 10): SAs by index, the REMOVE command that waits, holding buffers by 2·port + direction (0
receive), the SAs that they wait for, a clock of uses, the noise source's health, and the CVU job. -/
structure Cip where
  sas : List (Nat × Sa)
  removeCmd : Option Nat
  hold : List (Nat × List HoldItem)
  useClock : Nat
  rngFault : Bool
  job : Option CvuJob
  deriving DecidableEq, Repr

/-- An error record (Table 18-3) that waits for RESUME of H0: Newel time of detection, class, block, slice, code, status, location, and whether
ERR_INJECT made it. -/
structure ErrRec where
  newel : Nat
  cls : Nat
  block : Nat
  slice : Nat
  code : Nat
  status : Nat
  loc : Nat
  inj : Bool
  deriving DecidableEq, Repr

/-- What a Locket capsule carries once the Signet has opened it (Table 13-7); the layout inside its sections is not described, so RESTORE
takes the contents as an operand (log entry 21). -/
structure Capsule where
  /-- Entry bytes 8 to 63. -/
  entry : List Byte
  rings : List (Nat × Ring)
  qps : List (Nat × Qp)
  keys : List (Nat × Key)
  /-- Tier objects by index, pools by identifier, and the data of pages: index, offset and bytes. -/
  objs : List (Nat × TObj)
  pools : List (Nat × Pool)
  tier : List (Nat × Nat × List Byte)
  /-- Loaded images by FLIGHT_ID, and SLICE_FROZEN records of flights ended MIGRATED. -/
  flights : List (Nat × List Byte)
  kept : List (Nat × Rec)
  /-- CURRENT programs: image bytes. -/
  progs : List (List Byte)
  /-- Held completion records with their ring. -/
  held : List (Nat × Rec)
  /-- The storage controller, its window registers by own address, and ESP SAs by index. -/
  ctrl : Option NvCtrl
  nvsRegs : List (Nat × Nat)
  sas : List (Nat × Sa)
  deriving DecidableEq, Repr

end Sys2Proof.Machine
end

