-- ==== Sys2Proof/Syntax.lean ====
section
/-! DEFINITION. The commands of the block: one constructor per row of spec/opcode_table.json, with the row's operands. A master is who
writes the register; a ring command carries the descriptor that the device fetched; a result that comes from outside the block
(a signature, a sensor, a trained width) is an operand.
The runtime limits how many constructors with operands code can build, so the constructors stand in the order of the table but for three groups
at the end: storage administration, SPDM and module management commands, timers that run out, and the commands without operands. -/

namespace Sys2Proof

open Machine

/-- The commands (spec/opcode_table.json). -/
inductive Instr
  /-- START_THRESHOLD: The input has stayed at or above 50.0 V for 100 ms, so the device enters BOOT and powers domain groups 1 to 5 in order. (R351) -/
  | startThreshold (straps : Fin 16)
  /-- STAGE1_VERIFY: The boot ROM reconstructs the PUF secret and verifies stage 1 from NOR 0 and then NOR 1, extending MR0 to MR2. (R338) -/
  | stage1Verify (puf : Bool) (nor0 nor1 : Stage1)
  /-- FIRMWARE_RELEASE: Stage 1 verifies the firmware image of the STW_FW_BOOT slot and releases the wings, extending MR3 to MR6. (R338) -/
  | firmwareRelease (ok : Bool)
  /-- STREAM_LOAD: Management firmware loads the structure stream from NOR through steps 1 to 10 and enters READY or LIMITED. (R32) -/
  | streamLoad (sigA sigB : Bool) (accel : BitVec 8)
  /-- LOAD_FULL: PF0 loads a full stream from host memory while no stream is running. (R32) -/
  | loadFull (m : Master)
  /-- WRITE_SLOT: A full stream is fetched, checked and written into the NOR slot that STR_BOOT_SLOT does not name, and then read back. (R34) -/
  | writeSlot (m : Master)
  /-- RESTREAM: A restream command starts the FETCH of a partial stream into the staging area. (R37) -/
  | restream (m : Master) (forceClear : Bool)
  /-- VERIFY_ONLY: An image is fetched and verified, and the result posted, with no bank, slot or register changed. (R38) -/
  | verifyOnly (m : Master) (forceClear : Bool)
  /-- STR_CANCEL: A CANCEL of the running STR command ends it with CANCELLED before the current hall's SWITCH, and otherwise answers ALREADY_DONE. (R39) -/
  | strCancel (m : Master)
  /-- STR_SIGNATURES_VERIFIED: The Signet returns its verification of both signatures, and VERIFY either refuses the image or starts SHADOW for the first hall. (R28) -/
  | strSignaturesVerified (ok : Bool) (accel : BitVec 8)
  /-- HALL_QUIESCED: The hall reaches its quiesced condition, so the bank is switched, Stream registers are loaded and held work resumes. (R37) -/
  | hallQuiesced (accel : BitVec 8)
  /-- STR_BOOT_SLOT_WRITE: A write to STR_BOOT_SLOT selects a valid slot and is ignored for an invalid one. (R34) -/
  | strBootSlotWrite (m : Master) (slot : Fin 2)
  /-- REGISTER_WRITE: A BAR0 write to a register that has no row of its own takes effect according to its access type. (R7) -/
  | registerWrite (m : Master) (off : BitVec 26) (data : Word) (be : BitVec 4) (stores : List (DWord × Byte))
  /-- SQC_WRITE: A sequence-clear write clears the status only when its [31:24] equals the current SEQ. (R265) -/
  | sqcWrite (m : Master) (off : BitVec 26) (data : Word)
  /-- BUFFERED_APPLY: The pending RWB writes of an APPLY_STATUS group apply together at the block's boundary. (R266) -/
  | bufferedApply (block : Fin 19) (bit : Fin 32)
  /-- NEWEL_LO_READ: A read of FLT_NEWEL_LO latches FLT_NEWEL_HI and FLT_NEWEL_FRAC for that master. (R261) -/
  | newelLoRead (m : Master)
  /-- COUNTER_LO_READ: A read of the _LO half of a 64-bit counter latches its _HI half for that master. (R261) -/
  | counterLoRead (m : Master) (off : BitVec 26)
  /-- SEAL_RECOMPUTE: A block's seal is recomputed on its 1 ms tick or after a sealed change, and is compared with SEAL_REF. (R269) -/
  | sealRecompute (block : Fin 19)
  /-- SEAL_REF_WRITE: A write to SEAL_REF commits the reference and ends the block's suspension of comparison. (R270) -/
  | sealRefWrite (m : Master) (block : Fin 19) (data : Word)
  /-- DEV_DRV_HELLO_WRITE: A write to DEV_DRV_HELLO_p clears ANSWERED, and a write of 0 stops the lease as an orderly unload. (R330) -/
  | devDrvHelloWrite (m : Master) (port : Fin 4) (major minor : Byte)
  /-- HELLO_JUDGE: Firmware judges the driver version against DEV_DRV_WINDOW, sets RESULT and ANSWERED and updates the LIMITED state. (R330) -/
  | helloJudge (port : Fin 4)
  /-- LEASE_RENEW: A RENEW starts or restarts the port's lease timer at DEV_LEASE_LIMIT_p. (R311) -/
  | leaseRenew (m : Master) (port : Fin 4)
  /-- ERROR_EVENT: A detected error event is classified, counted, recorded in the error ring and signalled. (R380) -/
  | errorEvent (code block slice status loc : Nat)
  /-- ERR_INJECT: An injected event produces its record, counter, status bit and interrupt, and nothing else. (R273) -/
  | errInject (m : Master) (cls : Fin 4) (block : Fin 32) (slice : Fin 256)
  /-- ERR_RING_ENABLE: Setting ERR_RING_CTRL.EN enables the error ring and sets PROD and CONS to 0. (R273) -/
  | errRingEnable (m : Master) (mask : Fin 16) (port : Fin 4) (vector : Fin 2048)
  /-- FATAL_FAULT: A fatal fault writes ERR_FATAL and a class 3 record, sends AER and switches off PD18 to PD35. (R388) -/
  | fatalFault (reason item block : Nat)
  /-- DATA_UNCORRECTABLE: A word with an uncorrectable error is handled according to its location in Table 18-2. (R381) -/
  | dataUncorrectable (loc : UeLoc)
  /-- HBM_CORRECTABLE_ERROR: An HBM word corrected by either code counts toward its frame's retirement. (R382) -/
  | hbmCorrectableError (frame : Nat)
  /-- PATROL_PASS: The HBM controllers patrol-read every frame once each HBM_PATROL period and write corrected words back. (R382) -/
  | patrolPass (corrected : List Nat)
  /-- REDUCE: A Gallery REDUCE command is dispatched, checked and divided into chunks. (R77) -/
  | reduce (ring : BitVec 16) (d : Desc)
  /-- CONVERT: A Gallery CONVERT command is dispatched, checked and divided into chunks. (R78) -/
  | convert (ring : BitVec 16) (d : Desc)
  /-- PROGRAM: A Gallery PROGRAM command binds its program version and is divided into chunks of rows. (R83) -/
  | program (ring : BitVec 16) (d : Desc)
  /-- LOAD_PROGRAM: A program image is checked and loaded into a free slot, which becomes CURRENT. (R91) -/
  | loadProgram (ring : BitVec 16) (d : Desc)
  /-- UNLOAD_PROGRAM: The slice's CURRENT slot of a PROG_ID becomes RETIRING. (R91) -/
  | unloadProgram (ring : BitVec 16) (d : Desc)
  /-- CHUNK_TAKE: A free cluster takes its next chunk under flight priority, weighted round-robin and Coffer admission. (R92) -/
  | chunkTake (cluster : Fin 16)
  /-- CHUNK_DONE: A chunk finishes, and after the last chunk accumulators are merged, the tail runs and the completion is written. (R82) -/
  | chunkDone (cluster : Fin 16)
  /-- GAL_STREAM_FAULT: A stream access fails, so chunk hand-out stops and the command completes with the fault's status. (R82) -/
  | galStreamFault (cluster : Fin 16)
  /-- GAL_CANCEL: GAL_CANCEL_CTRL.GO resolves a Gallery cancel by slice and tag. (R96) -/
  | galCancel (m : Master) (slice : BitVec 16)
  /-- LOAD: A flight LOAD fetches and checks an image and allocates its buffers. (R108) -/
  | load (ring : BitVec 16) (d : Desc)
  /-- ARM: ARM binds a flight's buffers, sets its epoch, captures accelerator counters and makes the flight ARMED. (R109) -/
  | arm (ring : BitVec 16) (d : Desc)
  /-- UNLOAD: UNLOAD frees a flight's buffers and releases its program slots. (R110) -/
  | unload (ring : BitVec 16) (d : Desc)
  /-- FLIGHT_EPOCH_REACHED: Newel time reaches the flight epoch and the flight becomes RUNNING. (R116) -/
  | flightEpochReached (slot : Fin 64)
  /-- STEP_SEND: A due and ready SEND step starts a sprayed RDMA write to its peer device. (R106) -/
  | stepSend (slot : Fin 64) (step t : Nat)
  /-- STEP_RECV: A due and ready RECV step starts, and waits for its peer's data to be placed and visible. (R106) -/
  | stepRecv (slot : Fin 64) (step t : Nat)
  /-- STEP_REDUCE: A due and ready REDUCE step is issued to the Gallery. (R106) -/
  | stepReduce (slot : Fin 64) (step t : Nat)
  /-- STEP_CONVERT: A due and ready CONVERT step is issued to the Gallery. (R106) -/
  | stepConvert (slot : Fin 64) (step t : Nat)
  /-- STEP_PROGRAM: A due and ready PROGRAM step is issued to the Gallery. (R106) -/
  | stepProgram (slot : Fin 64) (step t : Nat)
  /-- STEP_COPY: A due and ready COPY step starts its bit-for-bit copy. (R106) -/
  | stepCopy (slot : Fin 64) (step t : Nat)
  /-- STEP_LANDING: A due and ready LANDING step sends its arrival report to every other member device. (R113) -/
  | stepLanding (slot : Fin 64) (step t : Nat)
  /-- STEP_SIGNAL_ACCEL: A due and ready SIGNAL-ACCEL step issues the completion-signal writes of its positions. (R106) -/
  | stepSignalAccel (slot : Fin 64) (step t : Nat)
  /-- STEP_COMPLETE: A flight step completes and, after the last step, the flight is LANDED and its completion written. (R106) -/
  | stepComplete (slot : Fin 64) (step : Nat)
  /-- LATE_LIMIT_EXPIRY: A step has been due longer than LATE_LIMIT, so the flight enters STALLED. (R115) -/
  | lateLimitExpiry (slot : Fin 64) (step : Nat)
  /-- LATE_ABORT_EXPIRY: A step has been due longer than LATE_ABORT, so the flight ends with LATE_ABORT and broadcasts an abort. (R115) -/
  | lateAbortExpiry (slot : Fin 64) (step : Nat)
  /-- KEEPALIVE_RECEIVED: A received keepalive counts as progress, or aborts the flight with PEER_MISMATCH if its MAP_CRC differs. (R121) -/
  | keepaliveReceived (id : BitVec 16) (device : Nat) (mapCrc : Word)
  /-- PEER_TIMEOUT: PEER_TIMEOUT passes with no progress from a rank, so it is declared lost and the flight aborts with PEER_LOST. (R121) -/
  | peerTimeout (slot : Fin 64) (device : Nat)
  /-- ABORT_BROADCAST_RECEIVED: A received abort broadcast is relayed once and ends the run, unless the run has completed every step. (R122) -/
  | abortBroadcastReceived (id : BitVec 16) (epoch : DWord) (src num : Nat) (reason : AbortReason) (origin : BitVec 16)
  /-- ARRIVAL_REPORT_RECEIVED: A landing arrival report makes arrival known for its ranks and may complete the landing. (R113) -/
  | arrivalReportReceived (id : BitVec 16) (epoch : DWord) (src num set : Nat) (ranks : List Nat)
  /-- CONTROL_ACK_RECEIVED: An acknowledgement of a flight control message ends that message's repetition. (R113) -/
  | controlAckReceived (id : BitVec 16) (src num : Nat)
  /-- FLIGHT_WRITE_RECEIVED: Flight data is placed into its buffer, or dropped and counted when its epoch differs from the local run's. (R112) -/
  | flightWriteReceived (id : BitVec 16) (src : Nat) (buf : BitVec 12) (off epoch : DWord) (payload : List Byte) (edge : Bool)
  /-- FLIGHT_DOORBELL: A write to a flight doorbell word counts one doorbell from that position, or is ignored outside ACCEL_GRANT. (R111) -/
  | flightDoorbell (port : Fin 4) (half : Fin 2) (slice : Fin 256) (pos : Fin 8)
  /-- FLT_CANCEL: FLT_CANCEL_CTRL.GO resolves a flight cancel by slice and tag. (R119) -/
  | fltCancel (m : Master) (slice : BitVec 16)
  /-- NEWEL_STEP: A STEP adds a signed offset to Newel time, or is refused when negative with a flight active or out of range. (R102) -/
  | newelStep (m : Master)
  /-- NEWEL_ADJ_WRITE: A write to FLT_NEWEL_ADJ changes the rate of Newel time, or is refused from PF0 while PTP owns it. (R102) -/
  | newelAdjWrite (m : Master) (data : Word)
  /-- PTP_SYNC_RECEIVED: A Sync message gives one offset measurement that updates the run count and the time state. (R101) -/
  | ptpSyncReceived (off : Int)
  /-- PPS_IN_EDGE: A valid rising edge on PPS_IN is timestamped and used to align Newel time. (R377) -/
  | ppsInEdge (low high : Nat)
  /-- PPS_OUT_EDGE: At each whole second of Newel time PPS_OUT rises for 100 ms while LOCKED or HOLDOVER. (R377) -/
  | ppsOutEdge (high : Bool)
  /-- PACKET_RECEIVE: An RDMA packet is checked and placed, its arrival bit is set and the visible-PSN edge advances. (R132) -/
  | packetReceive (p : Pkt)
  /-- SACK_RECEIVED: A SACK updates the sender's edge, SRTT and RTO, completes WQEs and triggers retransmission of holes. (R138) -/
  | sackReceived (p : Pkt)
  /-- NAK_RECEIVED: A NAK completes the requester's WQE with the status it carries and moves the QP to ERROR, or triggers a go-back. (R143) -/
  | nakReceived (p : Pkt)
  /-- CNP_RECEIVED: A CNP reduces the rate of the path that it names. (R140) -/
  | cnpReceived (p : Pkt)
  /-- RECOVERY_TIMER_EXPIRY: RECOVERY_US passes with no CNP, so the path's rate rises by STEP. (R140) -/
  | recoveryTimerExpiry (qpn : BitVec 24) (path : Nat)
  /-- SUSPECT_PROBE_TIMER: After 1 ms a SUSPECT path carries one probe packet. (R131) -/
  | suspectProbeTimer (qpn : BitVec 24) (path : Nat)
  /-- PUSH_READ_DONE: A zero-length read on another host port completes, so V may pass the message or its completion be written. (R134) -/
  | pushReadDone (qpn : BitVec 24) (link : Nat)
  /-- CONTEXT_FETCH_DONE: A QP context fetch ends and the packets, doorbells and completions that waited for it proceed. (R145) -/
  | contextFetchDone (qpn : BitVec 24)
  /-- KEY_FETCH_DONE: An absent key is fetched and the packets waiting in the miss buffer are checked. (R146) -/
  | keyFetchDone (index : BitVec 24)
  /-- CONTEXT_FETCH_FAULT: A context fetch fails, so the QP's waiting packets are dropped and the QP enters ERROR with CTX_FAULT. (R146) -/
  | contextFetchFault (qpn : BitVec 24)
  /-- SEND: A SEND WQE starts transmission of a message. (R147) -/
  | send (ring : BitVec 16) (d : Desc)
  /-- SEND_IMM: A SEND_IMM WQE starts transmission of a message with immediate data. (R147) -/
  | sendImm (ring : BitVec 16) (d : Desc)
  /-- WRITE: A WRITE WQE starts an RDMA write. (R147) -/
  | write (ring : BitVec 16) (d : Desc)
  /-- WRITE_IMM: A WRITE_IMM WQE starts an RDMA write with immediate data. (R147) -/
  | writeImm (ring : BitVec 16) (d : Desc)
  /-- READ: A READ WQE sends an RDMA read request. (R147) -/
  | read (ring : BitVec 16) (d : Desc)
  /-- FETCH_ADD: A FETCH_ADD WQE sends a 64-bit fetch-and-add. (R151) -/
  | fetchAdd (ring : BitVec 16) (d : Desc)
  /-- CMP_SWAP: A CMP_SWAP WQE sends a 64-bit compare-and-swap. (R151) -/
  | cmpSwap (ring : BitVec 16) (d : Desc)
  /-- RECV: A RECV WQE is posted to the receive ring for SENDs to consume in send-sequence order. (R150) -/
  | recv (ring : BitVec 16) (d : Desc)
  /-- CREATE_QP: CREATE_QP assigns a QPN in RESET, or completes with QUOTA. (R152) -/
  | createQp (ring : BitVec 16) (d : Desc)
  /-- MODIFY_QP: MODIFY_QP moves a QP through an allowed transition of Table 06-12. (R153) -/
  | modifyQp (ring : BitVec 16) (d : Desc)
  /-- QUERY_QP: QUERY_QP writes the QP's attribute block back to host memory. (R152) -/
  | queryQp (ring : BitVec 16) (d : Desc)
  /-- DESTROY_QP: DESTROY_QP frees the QPN of a QP in RESET or ERROR. (R153) -/
  | destroyQp (ring : BitVec 16) (d : Desc)
  /-- REG_MR: REG_MR allocates a key index and tag for a region with its rights. (R141) -/
  | regMr (ring : BitVec 16) (d : Desc)
  /-- DEREG_MR: DEREG_MR puts the key in REVOKING at the revocation point and starts its drain. (R144) -/
  | deregMr (ring : BitVec 16) (d : Desc)
  /-- REVOKE_DRAIN_DONE: The last use checked before the revocation point ends, so the key is freed and DEREG_MR completes. (R144) -/
  | revokeDrainDone (index : BitVec 24)
  /-- RTE_CANCEL: RTE_CANCEL_CTRL.GO resolves an RTE cancel by slice and tag. (R157) -/
  | rteCancel (m : Master) (slice : BitVec 16)
  /-- CLASP_WAIT: A Clasp WAIT holds its ring until the named counter reaches THRESHOLD. (R155) -/
  | claspWait (ring : BitVec 16) (d : Desc)
  /-- CLASP_POLL: Every 1 µs an accelerator's counter is read for a pending SOURCE 1 WAIT, and a failed read ends it with CLASP_FAULT. (R155) -/
  | claspPoll (op : Nat) (ok : Bool)
  /-- ALLOC: ALLOC creates a tier object and reserves its pages. (R164) -/
  | alloc (ring : BitVec 16) (d : Desc)
  /-- FREE: FREE ends an object's aperture mappings and frees the object. (R182) -/
  | free (ring : BitVec 16) (d : Desc)
  /-- HINT: HINT replaces an object's hints and reservations. (R165) -/
  | hint (ring : BitVec 16) (d : Desc)
  /-- GET: GET copies object bytes to host memory. (R182) -/
  | get (ring : BitVec 16) (d : Desc)
  /-- PUT: PUT copies host bytes into an object. (R182) -/
  | put (ring : BitVec 16) (d : Desc)
  /-- MAP: MAP fetches any T4 pages of a range and maps it into the BAR4 aperture. (R174) -/
  | map (ring : BitVec 16) (d : Desc)
  /-- UNMAP: UNMAP removes an aperture range after the accesses in flight have finished. (R182) -/
  | unmap (ring : BitVec 16) (d : Desc)
  /-- POOL_ADD: POOL_ADD registers a T2, T3 or T4 pool for the slice. (R161) -/
  | poolAdd (ring : BitVec 16) (d : Desc)
  /-- POOL_REMOVE: POOL_REMOVE moves every page out of a pool and then removes it. (R182) -/
  | poolRemove (ring : BitVec 16) (d : Desc)
  /-- SET_COPIES: SET_COPIES adds or removes copy 1 of an object. (R175) -/
  | setCopies (ring : BitVec 16) (d : Desc)
  /-- RESOLVE: RESOLVE rewrites the other copy from the named one and ends the quarantine. (R178) -/
  | resolve (ring : BitVec 16) (d : Desc)
  /-- QUERY: QUERY reports the object's pages per tier. (R184) -/
  | query (ring : BitVec 16) (d : Desc)
  /-- SETTLE_DONE: Every page satisfies the new setting, so a WAIT_SETTLED HINT or SET_COPIES completes. (R183) -/
  | settleDone (op : Nat)
  /-- PLC_CANCEL: PLC_CANCEL_CTRL.GO resolves a placement cancel by slice and tag. (R183) -/
  | plcCancel (m : Master) (slice : BitVec 16)
  /-- PAGE_COPY_DONE: The last block is copied and the page map switches to the destination. (R169) -/
  | pageCopyDone (handle : Word) (page : Nat)
  /-- MOVE_DRAIN_DONE: Accesses translated before the switch finish and the source frame is freed. (R169) -/
  | moveDrainDone (handle : Word) (page : Nat)
  /-- MOVE_FAIL: A destination access fails during the copy, so the move is abandoned and counted. (R170) -/
  | moveFail (handle : Word) (page : Nat)
  /-- REPLICA_COMPARE: Two copies of a page are compared by period or after an uncorrectable read, and are repaired, quarantined or lost. (R177) -/
  | replicaCompare (handle : Word) (page : Nat) (ok0 ok1 : Bool) (rot : List (Bool × BitVec 21 × Byte))
  /-- EVAC: PLC_EVAC.GO takes a pseudo-channel out of service and moves its pages away. (R181) -/
  | evac (m : Master) (pc : Fin 128) (retrain : Bool)
  /-- EVAC_RELEASE: PLC_EVAC.RELEASE returns a pseudo-channel to the pool. (R181) -/
  | evacRelease (m : Master) (pc : Fin 128)
  /-- PC_RETRAIN_DONE: A pseudo-channel retraining ends, with a failure left out of service as RETRAIN_FAIL. (R181) -/
  | pcRetrainDone (pc : Fin 128) (ok : Bool)
  /-- BAR4_ACCESS: A host read or write reaches the BAR4 aperture and is served from the mapped page or counted as a miss. (R174) -/
  | bar4Access (port : Fin 4) (off : BitVec 36) (data : Option (List Byte)) (len : Nat)
  /-- FRAME_RECEIVE: A received frame is parsed, classified, policed, decrypted, rewritten and delivered by its action. (R198) -/
  | frameReceive (port : Fin 16) (bytes : List Byte) (pkt : Option Pkt)
  /-- SLOWPATH_FRAME: Firmware on a slow-path wing walks, reassembles and classifies a queued frame. (R193) -/
  | slowpathFrame (wing : Fin 4)
  /-- SEND_FRAME: A SEND_FRAME descriptor queues a frame for transmission on its port and queue. (R200) -/
  | sendFrame (ring : BitVec 16) (d : Desc)
  /-- POST_BUFFER: A POST_BUFFER descriptor posts a receive buffer. (R200) -/
  | postBuffer (ring : BitVec 16) (d : Desc)
  /-- EGRESS_SELECT: At each frame boundary of a port the scheduler picks and starts the next eligible frame. (R204) -/
  | egressSelect (port : Fin 16)
  /-- TREE_COMMIT: PKT_TREE_COMMIT.GO commits pending tree writes, or is refused. (R207) -/
  | treeCommit (m : Master)
  /-- TREE_LOAD: PKT_TLOAD_CTRL.GO starts a tree load into an area by PF0 DMA, or is refused with IN_USE. (R207) -/
  | treeLoad (m : Master)
  /-- TXS_CANCEL: TXS_CANCEL_CTRL.GO resolves a frame-descriptor cancel by slice and tag. (R202) -/
  | txsCancel (m : Master) (slice : BitVec 16)
  /-- NVME_SQ_DOORBELL: A write of an NVMe submission queue tail doorbell makes new commands available for fetch. (R211) -/
  | nvmeSqDoorbell (port : Fin 4) (half : Fin 2) (slice : Fin 256) (queue tail : BitVec 16) (stores : List (DWord × Byte))
  /-- NVME_CQ_DOORBELL: A write of an NVMe completion queue head doorbell frees completion entries. (R211) -/
  | nvmeCqDoorbell (port : Fin 4) (half : Fin 2) (slice : Fin 256) (queue head : BitVec 16)
  /-- CONTROLLER_ENABLE: CC.EN set to 1 enables the emulated controller. (R211) -/
  | controllerEnable (port : Fin 4) (half : Fin 2) (slice : Fin 256) (cc aqa : Word) (asq acq : DWord)
  /-- CONTROLLER_RESET: A CC.EN 1-to-0 transition, NVM Subsystem Reset or slice reset stops fetching and posts no completion. (R226) -/
  | controllerReset (port : Fin 4) (half : Fin 2) (slice : Fin 256)
  /-- CONTROLLER_RESET_DONE: In-flight transfers and backend commands end, so CSTS.RDY becomes 0. (R226) -/
  | controllerResetDone (slice : Fin 256)
  /-- NVME_READ: An NVMe Read is served from the HBM cache or from the backend. (R216) -/
  | nvmeRead (slice : Fin 256) (queue : BitVec 16) (cmd : Desc)
  /-- NVME_WRITE: An NVMe Write is placed in the cache or sent to the backend according to the mode. (R217) -/
  | nvmeWrite (slice : Fin 256) (queue : BitVec 16) (cmd : Desc)
  /-- NVME_FLUSH: Flush completes when earlier completed writes are durable, or with a pending deferred error. (R223) -/
  | nvmeFlush (slice : Fin 256) (queue : BitVec 16) (cmd : Desc)
  /-- NVME_COMPARE: Compare compares data with the namespace's blocks. (R213) -/
  | nvmeCompare (slice : Fin 256) (queue : BitVec 16) (cmd : Desc)
  /-- WRITE_ZEROES: Write Zeroes makes blocks read as zeros. (R215) -/
  | writeZeroes (slice : Fin 256) (queue : BitVec 16) (cmd : Desc)
  /-- DATASET_MANAGEMENT: Dataset Management deallocates blocks, which then read as zeros. (R213) -/
  | datasetManagement (slice : Fin 256) (queue : BitVec 16) (cmd : Desc)
  /-- DESTAGE: The device destages dirty cache blocks to the backend in LBA order. (R217) -/
  | destage (slice : Fin 256) (count : Nat)
  /-- BACKEND_RESPONSE: A backend command answers and its result is mapped to the host command or the destage. (R220) -/
  | backendResponse (id : Nat) (status : BitVec 11) (data : List Byte)
  /-- BACKEND_CONNECTION_LOST: A backend endpoint connection is lost and the device starts reconnecting. (R220) -/
  | backendConnectionLost (endpoint : Fin 16)
  /-- BACKEND_RECONNECTED: A backend endpoint is connected again. (R220) -/
  | backendReconnected (endpoint : Fin 16)
  /-- EXLAT_DONE: The exit latency of an abandoned power-state entry passes and the waiting commands start. (R228) -/
  | exlatDone (slice : Fin 256)
  /-- SANITIZE_CHECKPOINT: Every CKPT_S seconds the persistent operation record is written. (R230) -/
  | sanitizeCheckpoint (slice : Fin 256)
  /-- SANITIZE_PASS_DONE: A sanitize or format pass ends, the record is written and the operation goes on or completes. (R230) -/
  | sanitizePassDone (slice : Fin 256)
  /-- OPERATION_RESUME: A running sanitize or format record resumes once the storage service runs and the slice is BOUND or ACTIVE. (R231) -/
  | operationResume (slice : Fin 256)
  /-- SA_INSTALL: INSTALL writes an SA entry into a free index. (R241) -/
  | saInstall (m : Master)
  /-- SA_REMOVE: REMOVE enters an SA in REMOVING at a frame boundary. (R241) -/
  | saRemove (m : Master)
  /-- SA_REMOVE_DRAIN_DONE: Frames using a REMOVING SA finish, so the entry becomes free. (R241) -/
  | saRemoveDrainDone (index : BitVec 16)
  /-- SA_QUERY: QUERY copies the SA entry into the window with KEY as zero. (R241) -/
  | saQuery (m : Master)
  /-- SA_FETCH_DONE: A missing ESP SA is fetched and unwrapped and the held frames proceed. (R247) -/
  | saFetchDone (index : BitVec 16)
  /-- CVU_JOB: CVU_JOB_CTRL.GO feeds host bytes into a CRC context, or is refused with BUSY. (R254) -/
  | cvuJob (m : Master) (ctx : Fin 16) (start : Bool)
  /-- READ_ENTRY: READ_ENTRY copies a slice table entry into the SLC_ENTRY window. (R301) -/
  | readEntry (m : Master)
  /-- WRITE_ENTRY: WRITE_ENTRY commits words 0 to 15 of the window into the slice entry. (R302) -/
  | writeEntry (m : Master)
  /-- BIND: BIND takes a FREE slice to BOUND after its binding checks. (R302) -/
  | bind (m : Master)
  /-- UNBIND: UNBIND resets a BOUND slice with KEEP_TIER clear and makes it FREE. (R304) -/
  | unbind (m : Master)
  /-- SLICE_RESET: RESET puts a slice in RESETTING and applies the effects of Table 13-5. (R310) -/
  | sliceReset (m : Master)
  /-- SLICE_RESET_DONE: Every effect of the slice reset completes and the slice becomes BOUND. (R310) -/
  | sliceResetDone (slice : Fin 256)
  /-- SLICE_ACTIVATE: A BOUND slice becomes ACTIVE once all its conditions hold, and latched doorbells are acted on. (R304) -/
  | sliceActivate (slice : Fin 256)
  /-- FREEZE: FREEZE stops new work of an ACTIVE slice and waits for every engine's operation boundary. (R313) -/
  | freeze (m : Master)
  /-- THAW: THAW returns a FROZEN slice with SAVED clear to ACTIVE and writes held completions. (R304) -/
  | thaw (m : Master)
  /-- SAVE: SAVE ends held flights with MIGRATED, writes a Locket capsule bound to one target and sets SAVED. (R315) -/
  | save (m : Master)
  /-- RESTORE: RESTORE checks a capsule, draws a new restore nonce and makes the slice FROZEN with the restored state. (R316) -/
  | restore (m : Master) (authOk reachable : Bool) (content : Capsule)
  /-- RING_READ: RING_READ copies a ring context, runtime bytes included, into the window. (R308) -/
  | ringRead (m : Master)
  /-- RING_BIND: RING_BIND commits the ring window into a free ring after its checks. (R308) -/
  | ringBind (m : Master)
  /-- RING_UNBIND: RING_UNBIND unbinds a ring and ends its fetched operations without completion. (R308) -/
  | ringUnbind (m : Master)
  /-- DOORBELL: A slice DOORBELL write advances a ring's producer or consumer index, or is rejected and counted. (R307) -/
  | doorbell (port : Fin 4) (half : Fin 2) (slice : Fin 256) (ring index : BitVec 16) (stores : List (DWord × Byte))
  /-- SLICE_CANCEL: A CANCEL_GO write in a slice page resolves a cancel through the named engine. (R306) -/
  | sliceCancel (port : Fin 4) (half : Fin 2) (slice : Fin 256) (tag : Word) (engine : Byte)
  /-- CORE_CRASH: A core crash resets only that core, holds its rings and starts its restart. (R322) -/
  | coreCrash (core : Fin 32) (cause : Fin 5)
  /-- CORE_RESTART_DONE: The core rebuilds its state, executes journalled commands again and acts on latched doorbells. (R322) -/
  | coreRestartDone (core : Fin 32)
  /-- CORE_RESTART: STW_CORE_CTRL RESTART restarts a running core without counting a crash. (R324) -/
  | coreRestart (m : Master) (core : Fin 32)
  /-- CORE_RELEASE: STW_CORE_CTRL RELEASE restarts a held core and returns its share of objects. (R324) -/
  | coreRelease (m : Master) (core : Fin 32)
  /-- WRITE_FW: WRITE_FW fetches, verifies and writes a firmware image into a slot. (R327) -/
  | writeFw (m : Master) (slot : Fin 2) (sigOk : Bool)
  /-- ACTIVATE: ACTIVATE checks an image and starts DRAIN on the first named wing. (R328) -/
  | activate (m : Master) (slot : Fin 2) (wings : Fin 16) (sigOk : Bool)
  /-- STW_FW_BOOT_WRITE: A write to STW_FW_BOOT selects a valid boot slot and is ignored for an invalid one. (R327) -/
  | stwFwBootWrite (m : Master) (slot : Fin 2)
  /-- LOG_COPY: STW_LOG_CTRL.GO copies log records of a wing's ring to PF0 memory. (R333) -/
  | logCopy (m : Master) (wing : Fin 4) (count : BitVec 16)
  /-- TELEMETRY_PERIOD: At the end of each PERIOD_MS a telemetry block is written to the PF0 ring, or is lost and counted. (R335) -/
  | telemetryPeriod (die hbm0 hbm1 hbm2 hbm3 : Byte)
  /-- SVN_COMMIT: SIG_SVN_COMMIT raises the stored SVN to that of the running stage 1 when higher. (R340) -/
  | svnCommit (m : Master)
  /-- LKEY_INSTALL: INSTALL unwraps a Locket key blob and stores the key in NOR. (R346) -/
  | lkeyInstall (m : Master) (key : Option (List Byte)) (norOk : Bool)
  /-- LKEY_ERASE: ERASE removes the Locket key. (R346) -/
  | lkeyErase (m : Master) (norOk : Bool)
  /-- DEBUG_UNLOCK: SIG_DBG_CMD fetches and judges a debug token, consuming the nonce and unlocking JTAG when accepted. (R347) -/
  | debugUnlock (m : Master) (sigOk : Bool)
  /-- COFFER_SAMPLE: At 10 kHz input voltage and current are sampled and checked for clamp and shedding thresholds. (R354) -/
  | cofferSample (mv ma : Nat)
  /-- PWR_RESET_COLD: PWR_RESET_CMD with KIND cold performs a cold reset. (R365) -/
  | pwrResetCold (m : Master)
  /-- PWR_RESET_WARM: PWR_RESET_CMD with KIND warm performs a warm reset to BOOT without switching domains off. (R365) -/
  | pwrResetWarm (m : Master)
  /-- PWR_SHED_WRITE: A write to the shedding thresholds is applied, or refused whole with CFG_REFUSED. (R360) -/
  | pwrShedWrite (m : Master) (reg : Fin 3) (hi lo : Nat)
  /-- SENSOR_THRESHOLD_CROSSING: A PLDM sensor crosses a threshold or changes state, sending a PlatformEventMessage, and a temperature trip enters FATAL. (R375) -/
  | sensorThresholdCrossing (sensor : Fin 11) (level : Nat)
  /-- PF1_FLR: An FLR of PF1 stops its requests, resets every slice of the port and resets its configuration. (R295) -/
  | pf1Flr (port : Fin 4) (half : Fin 2)
  /-- PF0_FLR: An FLR of PF0 masks MSI-X, unbinds PF0 rings, clears the error ring enable and clears DEV_DRV_HELLO_p. (R295) -/
  | pf0Flr (port : Fin 4)
  /-- FLR_DONE: An FLR completes when outstanding requests complete or 90 ms pass. (R295) -/
  | flrDone (fn : Func) (late : List Nat)
  /-- HOT_RESET: A Hot Reset on a link performs an FLR of every function of the link. (R296) -/
  | hotReset (port : Fin 4) (half : Fin 2)
  /-- LINK_LOST: A link is lost, so its DMA stops, its slices fault and a device-degraded event is reported. (R297) -/
  | linkLost (port : Fin 4) (half : Fin 2) (tags : List (Func × Nat))
  /-- PERST_ASSERT: PERST# assertion loses both halves of the port and resets its logic. (R296) -/
  | perstAssert (port : Fin 4)
  /-- PERST_DEASSERT: PERST# deassertion on a lost port with stable REFCLK trains it again and re-checks its environment. (R298) -/
  | perstDeassert (port : Fin 4)
  /-- REFCLK_LOSS: REFCLK_p stops while PERST#_p is deasserted, and the link is treated as lost. (R371) -/
  | refclkLoss (port : Fin 4)
  /-- BUS_MASTER_DISABLE: Clearing Bus Master Enable stops new requests and completes affected operations with MASTER_DISABLED. (R294) -/
  | busMasterDisable (fn : Func) (late : Nat)
  /-- BUS_MASTER_ENABLE: Setting Bus Master Enable writes held completion records in ring order and sends pending interrupts. (R294) -/
  | busMasterEnable (fn : Func) (ats : Bool) (enc : BitVec 4) (l0p l1 : Bool)
  /-- COMPLETION_TIMEOUT: A non-posted request times out, fails its access and has its tag quarantined. (R292) -/
  | completionTimeout (fn : Func) (tag : Nat) (access : HostAccess) (addr : DWord)
  /-- HOST_ACCESS_FAIL: A failed host access takes the outcome of Table 12-6 and reports its event. (R289) -/
  | hostAccessFail (access : HostAccess) (addr : DWord)
  /-- UNEXPECTED_COMPLETION: A completion with no outstanding request is discarded, counted and reported. (R293) -/
  | unexpectedCompletion (fn : Func) (tag : Nat)
  /-- TAG_QUARANTINE_EXPIRY: A quarantined tag returns to the free tags after twice the timeout. (R293) -/
  | tagQuarantineExpiry (port : Fin 4) (half : Fin 2) (tag : Nat)
  /-- INVALIDATE_REQUEST: An ATS Invalidate Request stops new use of matching translations and removes them. (R290) -/
  | invalidateRequest (fn : Func) (req : Nat)
  /-- INVALIDATE_COMPLETE: Every request that used the translations finishes and the Invalidate Completion is sent. (R290) -/
  | invalidateComplete (fn : Func) (req : Nat)
  /-- D3HOT_ENTRY: A function entering D3hot acts as Bus Master Enable and Memory Space Enable cleared. (R291) -/
  | d3hotEntry (fn : Func)
  /-- INTERRUPT_METHOD_CHANGE: A change of MSI-X Enable or Interrupt Disable changes PF0's interrupt method and keeps pending bits. (R284) -/
  | interruptMethodChange (port : Fin 4) (msixEnable intDisable funcMask : Bool)
  /-- MSIX_UNMASK: Unmasking a pending MSI-X vector sends its single message. (R285) -/
  | msixUnmask (port : Fin 4) (vector : Fin 2048) (addr : DWord) (data : Word) (mask : Bool)
  /-- SLICE_MESSAGE_UNMASK: Unmasking a pending slice message entry sends its message. (R287) -/
  | sliceMessageUnmask (slice : Fin 256) (entry : Fin 64) (addr : DWord) (data : Word) (mask : Bool)
  /-- HST_INTX_ACK: A write to HST_INTX_ACK clears a vector's pending bit and deasserts INTA when none remain. (R286) -/
  | hstIntxAck (m : Master) (port : Fin 4) (vector : Fin 2048)
  /-- LANE_LOST: A network lane loses signal or lock and its ports run narrower or the group is disabled. (R386) -/
  | laneLost (lane : Fin 32)
  /-- ETH_RETRAIN: ETH_RETRAIN.GO retrains one lane group, or is refused with BUSY or DEVICE_STATE. (R391) -/
  | ethRetrain (m : Master) (group : Fin 4)
  /-- ETH_RETRAIN_DONE: A lane-group retrain ends, applying pending configuration and posting OK or BELOW_MIN. (R387) -/
  | ethRetrainDone (working : BitVec 8)
  /-- ACCEL_COUNTER_RISE: For a profile with DOORBELL 1, the rise of an accelerator's completion counter past its value at ARM counts as one doorbell from that position for ACCEL_WAIT. (R111) -/
  | accelCounterRise (pos : Fin 8) (value : DWord)
  /-- LINK_TRAINED: A PCIe link finishes training, and its width and rate are compared with the environment entry, raising ENV_MISMATCH or enabling the port and its accelerators. (R275) -/
  | linkTrained (port : Fin 4) (half : Fin 2) (width rate : Nat) (flit : Bool) (accel : BitVec 8)
  /-- LANE_GROUP_UP: A network lane group finishes its start-up training and is compared with its stated mode, raising ENV_MISMATCH when it is narrower. (R366) -/
  | laneGroupUp (group : Fin 4) (working : BitVec 8)
  /-- D0_RETURN: A function returns from D3hot to D0, keeping all state, so its Bus Master Enable and Memory Space Enable take effect again and the held completions and interrupts go out. (R291) -/
  | d0Return (fn : Func)
  /-- STREAM_SLOT_WRITTEN: The NOR write of a WRITE_SLOT image completes and is read back and checked, making the slot valid and posting DONE. (R34) -/
  | streamSlotWritten (ok : Bool)
  /-- FW_SLOT_WRITTEN: The NOR write of a WRITE_FW image completes and is read back and checked, making the firmware slot valid and ending the command. (R327) -/
  | fwSlotWritten (ok : Bool)
  /-- CREATE_IO_SQ: Create I/O Submission Queue takes a ring from the pool for a new queue. (R211) -/
  | createIoSq (slice : Fin 256) (cmd : Desc)
  /-- CREATE_IO_CQ: Create I/O Completion Queue takes a ring from the pool for a new queue. (R211) -/
  | createIoCq (slice : Fin 256) (cmd : Desc)
  /-- DELETE_IO_SQ: Delete I/O Submission Queue stops fetching and aborts the queue's uncommitted commands. (R225) -/
  | deleteIoSq (slice : Fin 256) (cmd : Desc)
  /-- DELETE_IO_CQ: Delete I/O Completion Queue removes a completion queue. (R211) -/
  | deleteIoCq (slice : Fin 256) (cmd : Desc)
  /-- GET_LOG_PAGE: Get Log Page returns a supported log page. (R213) -/
  | getLogPage (slice : Fin 256) (cmd : Desc)
  /-- IDENTIFY: Identify returns controller or namespace data. (R213) -/
  | identify (slice : Fin 256) (cmd : Desc)
  /-- NVME_ABORT: Abort completes with Dword 0 bit 0 set and aborts nothing. (R224) -/
  | nvmeAbort (slice : Fin 256) (cmd : Desc)
  /-- SET_FEATURES: Set Features changes a supported feature, including APST and power state. (R213) -/
  | setFeatures (slice : Fin 256) (cmd : Desc)
  /-- GET_FEATURES: Get Features returns a supported feature. (R213) -/
  | getFeatures (slice : Fin 256) (cmd : Desc)
  /-- ASYNC_EVENT_REQUEST: An Asynchronous Event Request is held until an event completes it. (R213) -/
  | asyncEventRequest (slice : Fin 256) (cmd : Desc)
  /-- NS_CREATE: Namespace Management Create takes blocks from the capacity pool and makes a new XTS key. (R214) -/
  | nsCreate (slice : Fin 256) (cmd : Desc)
  /-- NS_DELETE: Namespace Management Delete returns blocks to the pool and deallocates them on the backend. (R214) -/
  | nsDelete (slice : Fin 256) (cmd : Desc)
  /-- NAMESPACE_ATTACHMENT: Namespace Attachment attaches a namespace to its own controller. (R214) -/
  | namespaceAttachment (slice : Fin 256) (cmd : Desc)
  /-- FORMAT_NVM: Format NVM starts a persistent format with the given Secure Erase Settings. (R233) -/
  | formatNvm (slice : Fin 256) (cmd : Desc)
  /-- SANITIZE_CRYPTO_ERASE: Sanitize crypto erase discards the cache and replaces every namespace key. (R229) -/
  | sanitizeCryptoErase (slice : Fin 256) (cmd : Desc)
  /-- SANITIZE_BLOCK_ERASE: Sanitize block erase replaces every key and deallocates every allocated range. (R229) -/
  | sanitizeBlockErase (slice : Fin 256) (cmd : Desc)
  /-- SANITIZE_OVERWRITE: Sanitize overwrite writes OVRPAT over every allocated block OWPASS times. (R229) -/
  | sanitizeOverwrite (slice : Fin 256) (cmd : Desc)
  /-- SANITIZE_EXIT_FAILURE: Sanitize Exit Failure Mode leaves sanitize failure mode. (R229) -/
  | sanitizeExitFailure (slice : Fin 256) (cmd : Desc)
  /-- GET_VERSION: An SPDM GET_VERSION request is answered. (R342) -/
  | getVersion (t : Fin 5)
  /-- GET_CAPABILITIES: An SPDM GET_CAPABILITIES request is answered. (R342) -/
  | getCapabilities (t : Fin 5)
  /-- NEGOTIATE_ALGORITHMS: An SPDM NEGOTIATE_ALGORITHMS request is answered. (R342) -/
  | negotiateAlgorithms (t : Fin 5) (ok : Bool)
  /-- GET_DIGESTS: An SPDM GET_DIGESTS request is answered. (R342) -/
  | getDigests (t : Fin 5)
  /-- GET_CERTIFICATE: An SPDM GET_CERTIFICATE request returns part of the slot 0 chain. (R342) -/
  | getCertificate (t : Fin 5) (slot : Fin 8) (off len : Nat)
  /-- CHALLENGE: An SPDM CHALLENGE is answered with ECDSA and LMS signatures. (R343) -/
  | challenge (t : Fin 5) (slot : Fin 8) (norOk : Bool)
  /-- GET_MEASUREMENTS: An SPDM GET_MEASUREMENTS request returns MR0 to MR11, signed when asked. (R342) -/
  | getMeasurements (t : Fin 5) (index : Nat) (sign norOk : Bool)
  /-- GET_LMS_SIG: The vendor GET_LMS_SIG request returns the kept LMS signature and its leaf index. (R343) -/
  | getLmsSig (t : Fin 5)
  /-- SPDM_UNSUPPORTED_REQUEST: Any other SPDM request receives ERROR with UnsupportedRequest. (R342) -/
  | spdmUnsupportedRequest (t : Fin 5) (code : Nat)
  /-- JTAG_INSTRUCTION: A JTAG instruction is executed, limited to IDCODE and BYPASS while locked. (R378) -/
  | jtagInstruction (ir : Byte)
  /-- JTAG_TRST: JTAG_TRST# held low holds the TAP in reset. (R378) -/
  | jtagTrst (low : Bool)
  /-- MCTP_CONTROL: An MCTP control message is answered by the I3C endpoint. (R374) -/
  | mctpControl (cmd arg : Byte)
  /-- PLDM_REQUEST: A PLDM request is answered by the sequencer in STANDBY or by wing 0 firmware. (R375) -/
  | pldmRequest (type cmd arg : Byte)
  /-- SETDASA: SETDASA assigns a dynamic address from static address 0x3A. (R374) -/
  | setdasa (addr : BitVec 7)
  /-- ENTDAA: ENTDAA assigns a dynamic address by dynamic address assignment. (R374) -/
  | entdaa (addr : BitVec 7)
  /-- SEAL_HOLD_EXPIRY: DEV_SEAL_CFG.HOLD_MS passes after a sealed change, so seal comparison of the block resumes. (R270) -/
  | sealHoldExpiry (block : Fin 19)
  /-- LEASE_EXPIRY: The lease timer runs out, so every ACTIVE and FROZEN slice of the port is FAULTED with cause LEASE. (R311) -/
  | leaseExpiry (port : Fin 4)
  /-- KEEPALIVE_TIMER: Every PEER_TIMEOUT/8 an active flight sends a keepalive to every device in its table. (R121) -/
  | keepaliveTimer (slot : Fin 64)
  /-- ABORT_REPEAT_TIMER: Every 1 ms an unacknowledged abort broadcast is sent again. (R122) -/
  | abortRepeatTimer (slot : Fin 64)
  /-- REPORT_REPEAT_TIMER: Every 1 ms an unacknowledged arrival report is sent again. (R113) -/
  | reportRepeatTimer (slot : Fin 64)
  /-- SACK_INTERVAL_EXPIRY: RTE_SACK.INTERVAL_NS passes after an unreported placement, so a SACK is sent. (R137) -/
  | sackIntervalExpiry (qpn : BitVec 24)
  /-- RTO_EXPIRY: A PSN's retransmission timer expires, so the PSN is retransmitted and the path rate drops, or the QP errors on retry exhaustion. (R138) -/
  | rtoExpiry (qpn psn : BitVec 24)
  /-- RNR_TIMER_EXPIRY: After an RNR NAK the peer's RNR timer expires and the RoCEv2 request is retried. (R138) -/
  | rnrTimerExpiry (qpn : BitVec 24)
  /-- MISS_HOLD_TIMEOUT: A packet waits in the miss buffer longer than RTE_HOLD.LIMIT_US and is dropped and counted. (R146) -/
  | missHoldTimeout (port : Fin 16)
  /-- CTX_PIN_WAIT_TIMEOUT: A fetch has waited RTE_HOLD.LIMIT_US with every context pinned, so a context pinned only by unacknowledged packets is written back and evicted. (R145) -/
  | ctxPinWaitTimeout (qpn : BitVec 24)
  /-- CLASP_TIMEOUT: TIMEOUT_MS passes with the WAIT pending, so it completes with CLASP_TIMEOUT. (R156) -/
  | claspTimeout (op : Nat)
  /-- SETTLE_TIMEOUT: SETTLE_MS passes, so the command completes with SETTLE_TIMEOUT and the setting stays in force. (R183) -/
  | settleTimeout (op : Nat)
  /-- FETCH_WAIT_TIMEOUT: An access waits for T3 or T4 longer than PLC_FETCH_WAIT.MS and completes with POOL_FAULT or STREAM_FAULT. (R173) -/
  | fetchWaitTimeout (op : Nat)
  /-- REASM_TIMEOUT: A datagram still incomplete after PKT_SLOW.REASM_MS is discarded and counted. (R193) -/
  | reasmTimeout (wing : Fin 4)
  /-- TX_STALLED_TIMEOUT: A SEND_FRAME waits 100 ms for queue memory and completes with TX_STALLED. (R203) -/
  | txStalledTimeout (op : Nat)
  /-- BACKEND_TIMEOUT: A backend command reaches TIMEOUT_MS and is tried again or ends unavailable. (R220) -/
  | backendTimeout (id : Nat)
  /-- CACHE_SPACE_TIMEOUT: A write waits for cache space beyond TIMEOUT_MS and completes with BACKEND_UNAVAILABLE. (R217) -/
  | cacheSpaceTimeout (slice : Fin 256) (queue cid : BitVec 16)
  /-- APST_IDLE_EXPIRY: A controller stays idle for the next state's idle time and moves down one power state. (R227) -/
  | apstIdleExpiry (slice : Fin 256)
  /-- SANITIZE_FAIL_TIMEOUT: The backend stays unavailable for FAIL_S seconds, so the sanitize ends failed. (R232) -/
  | sanitizeFailTimeout (slice : Fin 256)
  /-- COMPLETION_RING_FULL_TIMEOUT: A completion record waits 1,000 ms for ring space, so the slice becomes FAULTED with CQ_FULL. (R309) -/
  | completionRingFullTimeout (ring : BitVec 16)
  /-- WATCHDOG_EXPIRY: A core's watchdog expires and counts as a crash. (R321) -/
  | watchdogExpiry (core : Fin 32)
  /-- CORE_RESTART_TIMEOUT: A core that has not finished restarting within 250 ms has crashed again. (R322) -/
  | coreRestartTimeout (core : Fin 32)
  /-- L0P_IDLE_EXPIRY: No TLP crosses the link for L0P_IDLE_US and the link narrows to 2 lanes. (R291) -/
  | l0pIdleExpiry (port : Fin 4) (half : Fin 2)
  /-- L1_IDLE_EXPIRY: The link is idle for L1_IDLE_US and requests L1 unless held by a flight. (R291) -/
  | l1IdleExpiry (port : Fin 4) (half : Fin 2)
  /-- INPUT_STANDBY_UP: The input reaches 36.0 V and the standby domain starts, so the device goes from OFF to STANDBY. (R351) -/
  | inputStandbyUp
  /-- INPUT_STANDBY_DOWN: The input falls below 36.0 V, the standby domain stops, STBY_OK is driven low and the device goes to OFF. (R351) -/
  | inputStandbyDown
  /-- ISLANDS_LOCKED: Every clock island has locked, so MOD_PWRGD is asserted and the internal PERST hold of each port begins. (R366) -/
  | islandsLocked
  /-- PORT_RESET_HOLD_END: The internal port reset hold ends 100 ms after MOD_PWRGD, and an earlier PERST# deassertion takes effect. (R372) -/
  | portResetHoldEnd
  /-- STR_FETCH_DONE: The image fetch ends, the header and version checks of VERIFY run and the signatures go to the Signet. (R37) -/
  | strFetchDone
  /-- SHADOW_WRITTEN: The hall's shadow bank is written and QUIESCE begins. (R37) -/
  | shadowWritten
  /-- QUIESCE_TIMEOUT: STR_QUIESCE_WAIT expires, so the command ends with QUIESCE_TIMEOUT and the hall resumes on its old bank. (R40) -/
  | quiesceTimeout
  /-- TABLE_ENTRY_LOAD: A table-section entry is loaded into its engine at its natural boundary. (R37) -/
  | tableEntryLoad
  /-- SYNC_SILENCE_EXPIRY: 1 s passes with no Sync while LOCKED, so the device enters HOLDOVER. (R101) -/
  | syncSilenceExpiry
  /-- HOLDOVER_EXPIRY: HOLDOVER lasts longer than FLT_CONFIG.HOLDOVER_MS, so the time state becomes UNLOCKED. (R101) -/
  | holdoverExpiry
  /-- PTP_START_TIMEOUT: No PTP master is heard within START_TIMEOUT in a slave role, so ENV_MISMATCH is raised. (R101) -/
  | ptpStartTimeout
  /-- PPS_IN_ABSENT: 2 s pass with no PPS_IN edge, so Newel time runs on at its last rate and a warning is logged. (R377) -/
  | ppsInAbsent
  /-- HEAT_DECAY_BOUNDARY: Every 16 ms heat counters decay and target tiers are computed, making move candidates. (R167) -/
  | heatDecayBoundary
  /-- PAGE_MOVE_START: The engine starts the next admitted move in priority order, allocating a destination frame and copying blocks. (R168) -/
  | pageMoveStart
  /-- EVAC_DONE: An evacuation ends with OK or NO_SPACE and, with RETRAIN set, starts retraining. (R181) -/
  | evacDone
  /-- TREE_LOAD_DONE: A tree load ends and posts its result. (R207) -/
  | treeLoadDone
  /-- RNG_HEALTH_FAIL: A noise-source health test fails, so countermeasures stop and a device-degraded event is reported. (R238) -/
  | rngHealthFail
  /-- CVU_JOB_DONE: A CVU job ends and posts its result. (R254) -/
  | cvuJobDone
  /-- FREEZE_BOUNDARIES_REACHED: Every engine reaches the slice's operation boundary, so the slice becomes FROZEN. (R313) -/
  | freezeBoundariesReached
  /-- FREEZE_WAIT_TIMEOUT: FREEZE_WAIT passes first, so FREEZE completes with FREEZE_BUSY and engines resume. (R313) -/
  | freezeWaitTimeout
  /-- WING_DRAIN_DONE: A wing's drain ends or reaches 50 ms, so its SLOT is switched and its cores load the new image. (R328) -/
  | wingDrainDone
  /-- WING_LOAD_DONE: A wing's cores run the new image, latched doorbells are acted on and the next wing starts. (R328) -/
  | wingLoadDone
  /-- STAGE5_SAVE_DONE: The orderly save of persistent records at stage 5 completes and SAVE_DONE is set. (R361) -/
  | stage5SaveDone
  /-- EPOCH_BOUNDARY: Every 1 ms the Coffer computes the effective cap and allowance and starts new admission ledgers. (R357) -/
  | epochBoundary
  /-- BROWNOUT: The comparator trips at 42.0 V, switches off every switched domain and records BROWNOUT. (R362) -/
  | brownout
  /-- OVERVOLTAGE_TRIP: Input above 61.0 V for 100 µs switches off every switched domain and records OVERVOLT. (R351) -/
  | overvoltageTrip
  /-- ENV_CHECK_TIMEOUT: Step 9 of the stream load has waited 10 s, so every lane group or backend endpoint still unanswered raises ENV_MISMATCH and the device goes on to READY or LIMITED. (R366) -/
  | envCheckTimeout
  /-- LOG_COPY_DONE: A log copy ends, STW_LOG_FIRST, STW_LOG_COPIED and STW_LOG_RESULT are set and ACTIVE clears. (R333) -/
  | logCopyDone
  deriving DecidableEq, Repr

end Sys2Proof
end

