-- ==== Sys2Proof/Decode.lean ====
section
/-! DEFINITION. The command that a word of the opcode table spells. No row of spec/opcode_table.json gives any bits, because the block
takes register writes, descriptors and events, which have no common encoding: no word spells a command (log entry 2). -/

namespace Sys2Proof

/-- The command spelled by a word of the opcode table: none, since no row gives bits. -/
def decodeTableWord (_nbits _w : Nat) : Option Instr := none

end Sys2Proof
end

