-- ==== Sys2Proof/Machine/Aes.lean ====
section
/-! DEFINITION. The block cipher of the cipher engine and its two modes: AES with 128- and 256-bit keys (FIPS 197), GCM with 96-bit nonces (RFC 4106
and IEEE 802.1AE name it; R243, R245) and XTS with 4,096-byte data units (IEEE 1619; R215, R248). The spec names the standards; what they say is
PRESUMED (log entry 139). -/

namespace Sys2Proof.Machine

/-! ### The field of the S-box -/

/-- Multiplication by x. -/
def aesX (a : Byte) : Byte := (a <<< 1) ^^^ (if a.msb then 0x1B else 0)

/-- Product in the field of AES. -/
def aesMul (a b : Byte) : Byte := (List.range 8).foldl (fun p i => (aesX p) ^^^ (if b.getLsbD (7 - i) then a else 0)) 0

/-- Inverse in the field; 0 stays 0. -/
def aesInv (a : Byte) : Byte := ((List.range 7).foldl (fun (e : Byte × Byte) _ => let q := aesMul e.1 e.1; (q, aesMul e.2 q)) (a, 1)).2

/-- S-box. -/
def aesSbox (a : Byte) : Byte :=
  let b := aesInv a
  b ^^^ b.rotateLeft 1 ^^^ b.rotateLeft 2 ^^^ b.rotateLeft 3 ^^^ b.rotateLeft 4 ^^^ 0x63

/-- Inverse S-box. -/
def aesSboxInv (a : Byte) : Byte := aesInv (a.rotateLeft 1 ^^^ a.rotateLeft 3 ^^^ a.rotateLeft 6 ^^^ 0x05)

/-! ### Rounds -/

/-- Exclusive or of two strings. -/
def xorBytes (a b : List Byte) : List Byte := a.zipWith (· ^^^ ·) b

/-- The bytes of a state at other places: byte i is taken from place f i. -/
def aesPerm (f : Nat → Nat) (b : List Byte) : List Byte := (List.range 16).map fun i => b.getD (f i) 0

/-- Rows turn left, row r by r places. -/
def aesShift (b : List Byte) : List Byte := aesPerm (fun i => (i + 4 * (i % 4)) % 16) b

/-- Rows turn right. -/
def aesShiftInv (b : List Byte) : List Byte := aesPerm (fun i => (i + 12 * (i % 4)) % 16) b

/-- Each column times a circulant matrix, given by its first row. -/
def aesMix (row : List Byte) (b : List Byte) : List Byte :=
  (List.range 16).map fun i => (List.range 4).foldl (fun p k => p ^^^ aesMul (row.getD ((k + 4 - i % 4) % 4) 0) (b.getD (i / 4 * 4 + k) 0)) 0

/-- Words of the key schedule of a key of nk words, by count. -/
def aesWords (key : List Byte) (nk : Nat) : Nat → List (List Byte)
  | 0 => []
  | n + 1 =>
    let w := aesWords key nk n
    if n < nk then w ++ [cut key (4 * n) 4]
    else
      let t := w.getD (n - 1) []
      let t :=
        if n % nk = 0 then xorBytes ((t.drop 1 ++ t.take 1).map aesSbox) [(List.range (n / nk - 1)).foldl (fun c _ => aesX c) 1, 0, 0, 0]
        else if 6 < nk ∧ n % nk = 4 then t.map aesSbox
        else t
      w ++ [xorBytes (w.getD (n - nk) []) t]

/-- Round keys of a key of 16 or 32 bytes. -/
def aesKeys (key : List Byte) : List (List Byte) :=
  let nk := key.length / 4
  let w := aesWords key nk (4 * (nk + 7))
  (List.range (nk + 7)).map fun r => (w.drop (4 * r)).take 4 |>.flatten

/-- Encryption of a block under round keys. -/
def aesEnc : List (List Byte) → List Byte → List Byte
  | [], b => b
  | k0 :: ks, b =>
    let mid := ks.dropLast.foldl (fun b k => xorBytes (aesMix [2, 3, 1, 1] (aesShift (b.map aesSbox))) k) (xorBytes b k0)
    xorBytes (aesShift (mid.map aesSbox)) (ks.getLastD [])

/-- Decryption of a block under round keys. -/
def aesDec : List (List Byte) → List Byte → List Byte
  | [], b => b
  | k0 :: ks, b =>
    let mid := ks.dropLast.reverse.foldl (fun b k => aesMix [14, 11, 13, 9] (xorBytes (aesShiftInv b |>.map aesSboxInv) k)) (xorBytes b (ks.getLastD []))
    xorBytes ((aesShiftInv mid).map aesSboxInv) k0

/-- 16-byte blocks of a string, the last one as long as it is. -/
def blocks16 (bs : List Byte) : List (List Byte) := (List.range (ceilDiv bs.length 16)).map fun j => (bs.drop (16 * j)).take 16

/-! ### GCM -/

/-- Product in the field of GHASH, whose first bit is the most significant. -/
def ghashMul (x y : BitVec 128) : BitVec 128 :=
  ((List.range 128).foldl (fun (e : BitVec 128 × BitVec 128) i =>
    (if x.getLsbD (127 - i) then e.1 ^^^ e.2 else e.1, (e.2 >>> 1) ^^^ (if e.2.getLsbD 0 then 0xE1#128 <<< 120 else 0))) (0, y)).1

/-- GHASH of a string of whole blocks. -/
def ghash (h : BitVec 128) (bs : List Byte) : BitVec 128 :=
  (blocks16 bs).foldl (fun y b => ghashMul (y ^^^ BitVec.ofNat 128 (beNat (cut b 0 16))) h) 0

/-- A string filled up to whole blocks with zeros. -/
def pad16 (bs : List Byte) : List Byte := cut bs 0 (roundUp bs.length 16)

/-- Keystream applied to a string from counter value 2 on. -/
def gcmCtr (ks : List (List Byte)) (nonce bs : List Byte) : List Byte :=
  (blocks16 bs).zipIdx.flatMap fun e => xorBytes e.1 (aesEnc ks (nonce ++ beBytes 4 (e.2 + 2)))

/-- ICV over additional data and ciphertext. -/
def gcmTag (ks : List (List Byte)) (nonce aad ct : List Byte) : List Byte :=
  let h := BitVec.ofNat 128 (beNat (aesEnc ks (List.replicate 16 0)))
  let s := ghash h (pad16 aad ++ pad16 ct ++ beBytes 8 (8 * aad.length) ++ beBytes 8 (8 * ct.length))
  xorBytes (beBytes 16 s.toNat) (aesEnc ks (nonce ++ beBytes 4 1))

/-- AES-GCM encryption (R243, R245): key, nonce, additional data and plaintext to ciphertext and 16-byte ICV. -/
def gcmSeal (key nonce aad pt : List Byte) : List Byte :=
  let ks := aesKeys key
  let ct := gcmCtr ks nonce pt
  ct ++ gcmTag ks nonce aad ct

/-- AES-GCM decryption (R244): the plaintext, or none where the ICV does not verify. -/
def gcmOpen (key nonce aad bs : List Byte) : Option (List Byte) :=
  let ks := aesKeys key
  let ct := bs.take (bs.length - 16)
  if gcmTag ks nonce aad ct = bs.drop (bs.length - 16) then some (gcmCtr ks nonce ct) else none

/-! ### XTS -/

/-- A tweak times x, as a little-endian number. -/
def xtsNext (t : List Byte) : List Byte :=
  let v := leNat t
  leBytes 16 (2 * v % 2 ^ 128 ^^^ (if v < 2 ^ 127 then 0 else 0x87))

/-- A data unit under a key of 64 bytes with a tweak (R215: the LBA as a 128-bit little-endian number), `f` on each block under the first half. -/
def xtsUnit (f : List (List Byte) → List Byte → List Byte) (key : List Byte) (lba : Nat) (bs : List Byte) : List Byte :=
  let k1 := aesKeys (cut key 0 32)
  ((blocks16 bs).foldl (fun (e : List Byte × List (List Byte)) b => (xtsNext e.1, xorBytes (f k1 (xorBytes b e.1)) e.1 :: e.2))
    (aesEnc (aesKeys (cut key 32 32)) (leBytes 16 lba), [])).2.reverse.flatten

/-- XTS-AES-256 encryption of a block (R215, R248). -/
def xtsSeal (key : List Byte) (lba : Nat) (bs : List Byte) : List Byte := xtsUnit aesEnc key lba bs

/-- XTS-AES-256 decryption of a block (R215, R248). -/
def xtsOpen (key : List Byte) (lba : Nat) (bs : List Byte) : List Byte := xtsUnit aesDec key lba bs

end Sys2Proof.Machine
end

