-- ==== Sys2Proof/Machine/RegMap.lean ====
section
/-! DEFINITION. The register map of BAR0: the address of every register (namespace `R`), every named field
(namespace `F`) and the rows that give each field its access type and reset value, block by block as the
register tables of the spec list them (R258, R7, R8 and the rule named at each block). -/

namespace Sys2Proof.Machine

namespace R

def DEV_SEAL : Nat := 0x3F0
def DEV_SEAL_REF : Nat := 0x3F4
def SIG_SEAL : Nat := 0x103F0
def SIG_SEAL_REF : Nat := 0x103F4
def PWR_SEAL : Nat := 0x203F0
def PWR_SEAL_REF : Nat := 0x203F4
def HST_SEAL : Nat := 0x403F0
def HST_SEAL_REF : Nat := 0x403F4
def SLC_SEAL : Nat := 0x503F0
def SLC_SEAL_REF : Nat := 0x503F4
def STW_SEAL : Nat := 0x603F0
def STW_SEAL_REF : Nat := 0x603F4
def ERR_SEAL : Nat := 0x703F0
def ERR_SEAL_REF : Nat := 0x703F4
def GAL_SEAL : Nat := 0x1003F0
def GAL_SEAL_REF : Nat := 0x1003F4
def FLT_SEAL : Nat := 0x1103F0
def FLT_SEAL_REF : Nat := 0x1103F4
def RTE_SEAL : Nat := 0x1203F0
def RTE_SEAL_REF : Nat := 0x1203F4
def PLC_SEAL : Nat := 0x1303F0
def PLC_SEAL_REF : Nat := 0x1303F4
def PKT_SEAL : Nat := 0x1403F0
def PKT_SEAL_REF : Nat := 0x1403F4
def TXS_SEAL : Nat := 0x1503F0
def TXS_SEAL_REF : Nat := 0x1503F4
def NVS_SEAL : Nat := 0x1603F0
def NVS_SEAL_REF : Nat := 0x1603F4
def CIP_SEAL : Nat := 0x1703F0
def CIP_SEAL_REF : Nat := 0x1703F4
def CVU_SEAL : Nat := 0x1803F0
def CVU_SEAL_REF : Nat := 0x1803F4
def HBM_SEAL : Nat := 0x1903F0
def HBM_SEAL_REF : Nat := 0x1903F4
def ETH_SEAL : Nat := 0x1A03F0
def ETH_SEAL_REF : Nat := 0x1A03F4
def STR_STATUS : Nat := 0x30000
def STR_CMD : Nat := 0x30004
def STR_SRC_LO : Nat := 0x30008
def STR_SRC_HI : Nat := 0x3000C
def STR_SRC_LEN : Nat := 0x30010
def STR_QUIESCE_WAIT : Nat := 0x30014
def STR_BOOT_SLOT : Nat := 0x30018
def STR_BASE_ID (i : Nat) : Nat := 0x30020 + 4 * i
def STR_STREAM_VER : Nat := 0x30030
def STR_FW_MIN : Nat := 0x30034
def STR_HALL (i : Nat) : Nat := 0x30040 + 4 * i
def STR_ENV_ENTRY : Nat := 0x30080
def STR_ENV_MISMATCH : Nat := 0x30084
def STR_ENV_REC (i : Nat) : Nat := 0x30100 + 4 * i
def GAL_STATUS : Nat := 0x100000
def GAL_CLUSTER_EN : Nat := 0x100004
def GAL_FLIGHT_RESERVE : Nat := 0x100008
def GAL_APPLY_STATUS : Nat := 0x10000C
def GAL_CANCEL_TAG : Nat := 0x100010
def GAL_CANCEL_CTRL : Nat := 0x100014
def GAL_CANCEL_RESULT : Nat := 0x100018
def GAL_CLUSTER (i : Nat) : Nat := 0x100040 + 4 * i
def GAL_PROG_ID (i : Nat) : Nat := 0x100080 + 8 * i
def GAL_PROG_STATE (i : Nat) : Nat := 0x100084 + 8 * i
def GAL_CNT_ADD_LO : Nat := 0x100100
def GAL_CNT_ADD_HI : Nat := 0x100104
def GAL_CNT_CMD : Nat := 0x100108
def GAL_CNT_DEFER : Nat := 0x10010C
def GAL_CNT_FAULT : Nat := 0x100110
def GAL_WEIGHT (i : Nat) : Nat := 0x100200 + 4 * i
def FLT_STATUS : Nat := 0x110000
def FLT_APPLY_STATUS : Nat := 0x110004
def FLT_CONFIG : Nat := 0x110008
def FLT_CANCEL_TAG : Nat := 0x110010
def FLT_CANCEL_CTRL : Nat := 0x110014
def FLT_CANCEL_RESULT : Nat := 0x110018
def FLT_NEWEL_LO : Nat := 0x110020
def FLT_NEWEL_HI : Nat := 0x110024
def FLT_NEWEL_FRAC : Nat := 0x110028
def FLT_NEWEL_ADJ : Nat := 0x11002C
def FLT_NEWEL_STEP_LO : Nat := 0x110030
def FLT_NEWEL_STEP_HI : Nat := 0x110034
def FLT_NEWEL_CTRL : Nat := 0x110038
def FLT_PTP_STATUS : Nat := 0x110040
def FLT_PTP_OFFSET : Nat := 0x110044
def FLT_SEL : Nat := 0x110080
def FLT_EPOCH_LO : Nat := 0x110084
def FLT_EPOCH_HI : Nat := 0x110088
def FLT_PROGRESS : Nat := 0x11008C
def FLT_LATE_MAX : Nat := 0x110090
def FLT_LATE_STEPS : Nat := 0x110094
def FLT_LAST : Nat := 0x110098
def FLT_SLOT (i : Nat) : Nat := 0x110100 + 4 * i
def FLT_CNT_STEP_LO : Nat := 0x110200
def FLT_CNT_STEP_HI : Nat := 0x110204
def FLT_CNT_ABORT_TX : Nat := 0x110208
def FLT_CNT_ABORT_RX : Nat := 0x11020C
def FLT_CNT_DROP : Nat := 0x110210
def FLT_CNT_REFUSED : Nat := 0x110214
def RTE_STATUS : Nat := 0x120000
def RTE_APPLY_STATUS : Nat := 0x120004
def RTE_RTO : Nat := 0x120008
def RTE_SACK : Nat := 0x12000C
def RTE_HOLD : Nat := 0x120010
def RTE_CANCEL_TAG : Nat := 0x120020
def RTE_CANCEL_CTRL : Nat := 0x120024
def RTE_CANCEL_RESULT : Nat := 0x120028
def RTE_MISS (i : Nat) : Nat := 0x120040 + 4 * i
def RTE_CTX_CACHE : Nat := 0x120080
def RTE_CC_DEC (i : Nat) : Nat := 0x120100 + 16 * i
def RTE_CC_REC (i : Nat) : Nat := 0x120104 + 16 * i
def RTE_CC_STEP (i : Nat) : Nat := 0x120108 + 16 * i
def RTE_CC_LIMITS (i : Nat) : Nat := 0x12010C + 16 * i
def RTE_CNT_TX_LO : Nat := 0x120200
def RTE_CNT_TX_HI : Nat := 0x120204
def RTE_CNT_RX_LO : Nat := 0x120208
def RTE_CNT_RX_HI : Nat := 0x12020C
def RTE_CNT_RETX : Nat := 0x120210
def RTE_CNT_MISS : Nat := 0x120214
def RTE_CNT_MISS_DROP : Nat := 0x120218
def RTE_CNT_HOLD_DROP : Nat := 0x12021C
def RTE_CNT_RX_DROP : Nat := 0x120220
def RTE_CNT_NAK : Nat := 0x120224
def RTE_CNT_CNP_TX : Nat := 0x120228
def RTE_CNT_CNP_RX : Nat := 0x12022C
def PLC_STATUS : Nat := 0x130000
def PLC_APPLY_STATUS : Nat := 0x130004
def PLC_DECAY : Nat := 0x130008
def PLC_ENERGY : Nat := 0x13000C
def PLC_RETIRE : Nat := 0x130010
def PLC_SCRUB : Nat := 0x130014
def PLC_FETCH_WAIT : Nat := 0x130018
def PLC_CANCEL_TAG : Nat := 0x130020
def PLC_CANCEL_CTRL : Nat := 0x130024
def PLC_CANCEL_RESULT : Nat := 0x130028
def PLC_EVAC : Nat := 0x130030
def PLC_EVAC_STATUS : Nat := 0x130034
def PLC_POOL_T0_TOTAL : Nat := 0x130040
def PLC_POOL_T0_FREE : Nat := 0x130044
def PLC_POOL_T1_TOTAL : Nat := 0x130048
def PLC_POOL_T1_FREE : Nat := 0x13004C
def PLC_RETIRED : Nat := 0x130050
def PLC_CNT_MOVE_LO : Nat := 0x130200
def PLC_CNT_MOVE_HI : Nat := 0x130204
def PLC_CNT_DEFER : Nat := 0x130208
def PLC_CNT_FETCH_DROP : Nat := 0x13020C
def PLC_CNT_MOVE_FAIL : Nat := 0x130210
def PLC_CNT_REPAIR : Nat := 0x130214
def PLC_CNT_DISCORD : Nat := 0x130218
def PLC_CNT_APERTURE_MISS : Nat := 0x13021C
def HBM_STATUS : Nat := 0x190000
def HBM_APPLY_STATUS : Nat := 0x190004
def HBM_PATROL : Nat := 0x190008
def HBM_STACK (i : Nat) : Nat := 0x190010 + 4 * i
def HBM_PC (i : Nat) : Nat := 0x190100 + 4 * i
def HBM_CNT_CE_LO : Nat := 0x190300
def HBM_CNT_CE_HI : Nat := 0x190304
def HBM_CNT_UE : Nat := 0x190308
def HBM_CNT_PATROL : Nat := 0x19030C
def HBM_CNT_WRITEBACK : Nat := 0x190310
def PKT_STATUS : Nat := 0x140000
def PKT_APPLY_STATUS : Nat := 0x140004
def PKT_DEPTH : Nat := 0x140008
def PKT_SLOW : Nat := 0x14000C
def PKT_AREA_SIZE (i : Nat) : Nat := 0x140010 + 4 * i
def PKT_TREE_COMMIT : Nat := 0x140018
def PKT_MIRROR : Nat := 0x14001C
def PKT_TREE_BASE (i : Nat) : Nat := 0x140040 + 16 * i
def PKT_TREE_SIZE (i : Nat) : Nat := 0x140044 + 16 * i
def PKT_TREE_CFG (i : Nat) : Nat := 0x140048 + 16 * i
def PKT_TREE_PORTS (i : Nat) : Nat := 0x14004C + 16 * i
def PKT_DEFAULT_LO (i : Nat) : Nat := 0x140100 + 8 * i
def PKT_DEFAULT_HI (i : Nat) : Nat := 0x140104 + 8 * i
def PKT_METER_SEL : Nat := 0x140180
def PKT_METER_RATE : Nat := 0x140184
def PKT_METER_BURST : Nat := 0x140188
def PKT_METER_PASS : Nat := 0x14018C
def PKT_METER_DROP : Nat := 0x140190
def PKT_TLOAD_SRC_LO : Nat := 0x1401A0
def PKT_TLOAD_SRC_HI : Nat := 0x1401A4
def PKT_TLOAD_LEN : Nat := 0x1401A8
def PKT_TLOAD_DST : Nat := 0x1401AC
def PKT_TLOAD_CTRL : Nat := 0x1401B0
def PKT_TLOAD_STATUS : Nat := 0x1401B4
def PKT_CNT_RX_LO : Nat := 0x140200
def PKT_CNT_RX_HI : Nat := 0x140204
def PKT_CNT_SLOW : Nat := 0x140208
def PKT_CNT_SLOW_DROP : Nat := 0x14020C
def PKT_CNT_REASM_DROP : Nat := 0x140210
def PKT_CNT_NOBUF : Nat := 0x140214
def PKT_CNT_ACTION_DROP : Nat := 0x140218
def PKT_CNT_TREE_FAULT : Nat := 0x14021C
def PKT_CNT_POLICE_DROP : Nat := 0x140220
def PKT_CNT_MIRROR_DROP : Nat := 0x140224
def PKT_CNT_SHED_DROP : Nat := 0x140228
def TXS_STATUS : Nat := 0x150000
def TXS_APPLY_STATUS : Nat := 0x150004
def TXS_CONFIG : Nat := 0x150008
def TXS_CANCEL_TAG : Nat := 0x150010
def TXS_CANCEL_CTRL : Nat := 0x150014
def TXS_CANCEL_RESULT : Nat := 0x150018
def TXS_DSCP_MAP (i : Nat) : Nat := 0x150040 + 4 * i
def TXS_QSEL : Nat := 0x150080
def TXS_Q_RATE : Nat := 0x150084
def TXS_Q_BURST : Nat := 0x150088
def TXS_Q_QUANTUM : Nat := 0x15008C
def TXS_Q_STATE : Nat := 0x150090
def TXS_SSEL : Nat := 0x1500A0
def TXS_S_RATE : Nat := 0x1500A4
def TXS_S_BURST : Nat := 0x1500A8
def TXS_CNT_FRAMES_LO : Nat := 0x150200
def TXS_CNT_FRAMES_HI : Nat := 0x150204
def TXS_CNT_BYTES_LO : Nat := 0x150208
def TXS_CNT_BYTES_HI : Nat := 0x15020C
def TXS_CNT_DEFER : Nat := 0x150210
def TXS_CNT_INVALID : Nat := 0x150214
def NVS_STATUS : Nat := 0x160000
def NVS_APPLY_STATUS : Nat := 0x160004
def NVS_BACKEND_CFG : Nat := 0x160008
def NVS_SANITIZE_CFG : Nat := 0x16000C
def NVS_PS_IDLE (i : Nat) : Nat := 0x160010 + 4 * i
def NVS_CSEL : Nat := 0x160020
def NVS_C_CFG : Nat := 0x160024
def NVS_C_STATE : Nat := 0x160028
def NVS_C_DIRTY : Nat := 0x16002C
def NVS_C_DEFER : Nat := 0x160030
def NVS_C_REC : Nat := 0x160034
def NVS_EXT_CFG (i : Nat) : Nat := 0x160040 + 32 * i
def NVS_EXT_NSID (i : Nat) : Nat := 0x160044 + 32 * i
def NVS_EXT_LBA_LO (i : Nat) : Nat := 0x160048 + 32 * i
def NVS_EXT_LBA_HI (i : Nat) : Nat := 0x16004C + 32 * i
def NVS_EXT_BLOCKS_LO (i : Nat) : Nat := 0x160050 + 32 * i
def NVS_EXT_BLOCKS_HI (i : Nat) : Nat := 0x160054 + 32 * i
def NVS_BE (i : Nat) : Nat := 0x160180 + 4 * i
def NVS_CNT_CMD_LO : Nat := 0x160200
def NVS_CNT_CMD_HI : Nat := 0x160204
def NVS_CNT_READ_HIT : Nat := 0x160208
def NVS_CNT_READ_MISS : Nat := 0x16020C
def NVS_CNT_DESTAGE_LO : Nat := 0x160210
def NVS_CNT_DESTAGE_HI : Nat := 0x160214
def NVS_CNT_DEFERRED : Nat := 0x160218
def NVS_CNT_BE_TIMEOUT : Nat := 0x16021C
def NVS_CNT_REC_WRITE : Nat := 0x160220
def CIP_STATUS : Nat := 0x170000
def CIP_APPLY_STATUS : Nat := 0x170004
def CIP_SA_SEL : Nat := 0x170010
def CIP_SA_CMD : Nat := 0x170014
def CIP_SA_RESULT : Nat := 0x170018
def CIP_SA_DATA (i : Nat) : Nat := 0x170080 + 4 * i
def CIP_MACSEC (i : Nat) : Nat := 0x170100 + 4 * i
def CIP_CNT_BLOCKS_LO : Nat := 0x170200
def CIP_CNT_BLOCKS_HI : Nat := 0x170204
def CIP_CNT_XTS_LO : Nat := 0x170208
def CIP_CNT_XTS_HI : Nat := 0x17020C
def CIP_CNT_RX_AUTH : Nat := 0x170210
def CIP_CNT_RX_REPLAY : Nat := 0x170214
def CIP_CNT_RX_NOSA : Nat := 0x170218
def CIP_CNT_RX_UNPROT : Nat := 0x17021C
def CIP_CNT_TX_EXHAUST : Nat := 0x170220
def CIP_CNT_MISS_DROP : Nat := 0x170224
def CVU_STATUS : Nat := 0x180000
def CVU_JOB_SRC_LO : Nat := 0x180010
def CVU_JOB_SRC_HI : Nat := 0x180014
def CVU_JOB_LEN : Nat := 0x180018
def CVU_JOB_CTRL : Nat := 0x18001C
def CVU_JOB_STATUS : Nat := 0x180020
def CVU_CTX_CFG (i : Nat) : Nat := 0x180100 + 32 * i
def CVU_CTX_PREFIX (i : Nat) : Nat := 0x180104 + 32 * i
def CVU_CTX_VALUE_LO (i : Nat) : Nat := 0x180108 + 32 * i
def CVU_CTX_VALUE_HI (i : Nat) : Nat := 0x18010C + 32 * i
def CVU_CTX_RESULT_LO (i : Nat) : Nat := 0x180110 + 32 * i
def CVU_CTX_RESULT_HI (i : Nat) : Nat := 0x180114 + 32 * i
def CVU_CNT_BYTES_LO : Nat := 0x180300
def CVU_CNT_BYTES_HI : Nat := 0x180304
def DEV_ID : Nat := 0x0
def DEV_REV : Nat := 0x4
def DEV_STATE : Nat := 0x8
def DEV_FW_VER : Nat := 0xC
def DEV_DRV_HELLO (i : Nat) : Nat := 0x10 + 4 * i
def DEV_LEASE (i : Nat) : Nat := 0x20 + 4 * i
def DEV_LEASE_LIMIT (i : Nat) : Nat := 0x30 + 4 * i
def DEV_PRIV_PORTS : Nat := 0x40
def DEV_SEAL_CFG : Nat := 0x44
def DEV_SEAL_HOLD : Nat := 0x48
def DEV_SEAL_SUMMARY : Nat := 0x4C
def DEV_VIOL_LAST : Nat := 0x50
def DEV_CNT_PRIV : Nat := 0x54
def DEV_CNT_UNMAPPED : Nat := 0x58
def DEV_CNT_PARTIAL : Nat := 0x5C
def DEV_SRAM_STAGE : Nat := 0x60
def DEV_DRV_WINDOW : Nat := 0x64
def DEV_SRAM (i : Nat) : Nat := 0x80 + 4 * i
def ERR_STATUS : Nat := 0x70000
def ERR_RING_BASE_LO : Nat := 0x70008
def ERR_RING_BASE_HI : Nat := 0x7000C
def ERR_RING_SIZE : Nat := 0x70010
def ERR_RING_PROD : Nat := 0x70014
def ERR_RING_CONS : Nat := 0x70018
def ERR_RING_CTRL : Nat := 0x7001C
def ERR_FATAL : Nat := 0x70020
def ERR_INJECT : Nat := 0x70024
def ERR_CNT (i : Nat) : Nat := 0x70040 + 4 * i
def ERR_CNT_LOST : Nat := 0x70050
def SLC_STATUS : Nat := 0x50000
def SLC_SEL : Nat := 0x50010
def SLC_CMD : Nat := 0x50014
def SLC_CMD_ADDR_LO : Nat := 0x50018
def SLC_CMD_ADDR_HI : Nat := 0x5001C
def SLC_CMD_RESULT : Nat := 0x50020
def SLC_RSEL : Nat := 0x50024
def SLC_RING_FREE : Nat := 0x50028
def SLC_RING_LOW : Nat := 0x5002C
def SLC_RESTORE_NONCE_LO : Nat := 0x50030
def SLC_RESTORE_NONCE_HI : Nat := 0x50034
def SLC_STATE (i : Nat) : Nat := 0x50080 + 4 * i
def SLC_ENTRY (i : Nat) : Nat := 0x50100 + 4 * i
def SLC_RING (i : Nat) : Nat := 0x50200 + 4 * i
def SLC_CNT_DOORBELL_LO : Nat := 0x50300
def SLC_CNT_DOORBELL_HI : Nat := 0x50304
def SLC_CNT_CLASP_WAIT : Nat := 0x50308
def SLC_CNT_CLASP_TIMEOUT : Nat := 0x5030C
def SLC_CNT_BUSY : Nat := 0x50310
def HST_STATUS : Nat := 0x40000
def HST_APPLY_STATUS : Nat := 0x40004
def HST_LINK (i : Nat) : Nat := 0x40010 + 4 * i
def HST_FUNC (i : Nat) : Nat := 0x40020 + 4 * i
def HST_LPM (i : Nat) : Nat := 0x40030 + 4 * i
def HST_CTO (i : Nat) : Nat := 0x40040 + 4 * i
def HST_ATS (i : Nat) : Nat := 0x40050 + 4 * i
def HST_INTX_SEL : Nat := 0x40060
def HST_INTX_SUM0 : Nat := 0x40064
def HST_INTX_SUM1 : Nat := 0x40068
def HST_INTX_PEND : Nat := 0x4006C
def HST_INTX_ACK : Nat := 0x40070
def HST_CNT_CTO (i : Nat) : Nat := 0x40100 + 16 * i
def HST_CNT_UNEXP (i : Nat) : Nat := 0x40104 + 16 * i
def HST_CNT_DISCARD (i : Nat) : Nat := 0x40108 + 16 * i
def HST_CNT_INVAL (i : Nat) : Nat := 0x4010C + 16 * i
def STW_STATUS : Nat := 0x60000
def STW_APPLY_STATUS : Nat := 0x60004
def STW_FW_CMD : Nat := 0x60008
def STW_FW_RESULT : Nat := 0x6000C
def STW_FW_SRC_LO : Nat := 0x60010
def STW_FW_SRC_HI : Nat := 0x60014
def STW_FW_LEN : Nat := 0x60018
def STW_FW_BOOT : Nat := 0x6001C
def STW_WING_VER (i : Nat) : Nat := 0x60020 + 8 * i
def STW_WING_STATE (i : Nat) : Nat := 0x60024 + 8 * i
def STW_CORE (i : Nat) : Nat := 0x60080 + 4 * i
def STW_WDOG (i : Nat) : Nat := 0x60100 + 4 * i
def STW_CORE_CTRL : Nat := 0x60180
def STW_TRACE_EN (i : Nat) : Nat := 0x60200 + 4 * i
def STW_LOG_CTRL : Nat := 0x60240
def STW_LOG_ADDR_LO : Nat := 0x60244
def STW_LOG_ADDR_HI : Nat := 0x60248
def STW_LOG_START : Nat := 0x6024C
def STW_LOG_RESULT : Nat := 0x60250
def STW_LOG_FIRST : Nat := 0x60254
def STW_LOG_COPIED : Nat := 0x60258
def STW_LOG_HEAD (i : Nat) : Nat := 0x60260 + 8 * i
def STW_LOG_SIZE (i : Nat) : Nat := 0x60264 + 8 * i
def STW_TEL_CTRL : Nat := 0x60280
def STW_CNT_RESTART : Nat := 0x60300
def STW_CNT_REEXEC : Nat := 0x60304
def STW_CNT_DUP_CPL : Nat := 0x60308
def STW_CNT_TRACE_SHED : Nat := 0x6030C
def STW_CNT_TEL_DROP : Nat := 0x60310
def SIG_STATUS : Nat := 0x10000
def SIG_BOOT_INFO : Nat := 0x10004
def SIG_SVN : Nat := 0x10008
def SIG_SVN_COMMIT : Nat := 0x1000C
def SIG_CFG : Nat := 0x10010
def SIG_LMS_USED : Nat := 0x10014
def SIG_MR_SEL : Nat := 0x10020
def SIG_MR_DATA (i : Nat) : Nat := 0x10024 + 4 * i
def SIG_MR_COUNT : Nat := 0x10054
def SIG_LKEY_CMD : Nat := 0x10060
def SIG_LKEY_RESULT : Nat := 0x10064
def SIG_LKEY_ID_LO : Nat := 0x10068
def SIG_LKEY_ID_HI : Nat := 0x1006C
def SIG_DBG_NONCE_LO : Nat := 0x10070
def SIG_DBG_NONCE_HI : Nat := 0x10074
def SIG_DBG_CMD : Nat := 0x10078
def SIG_DBG_RESULT : Nat := 0x1007C
def SIG_DBG_SRC_LO : Nat := 0x10080
def SIG_DBG_SRC_HI : Nat := 0x10084
def SIG_LKEY_BLOB (i : Nat) : Nat := 0x10100 + 4 * i
def PWR_STATUS : Nat := 0x20000
def PWR_APPLY_STATUS : Nat := 0x20004
def PWR_STATE : Nat := 0x20008
def PWR_CAP : Nat := 0x2000C
def PWR_ILIM : Nat := 0x20010
def PWR_SHED_A : Nat := 0x20014
def PWR_SHED_B : Nat := 0x20018
def PWR_SHED_C : Nat := 0x2001C
def PWR_RESERVE : Nat := 0x20020
def PWR_INPUT : Nat := 0x20024
def PWR_EPOCH : Nat := 0x20028
def PWR_EPOCH_COUNT : Nat := 0x2002C
def PWR_DOM_ON_LO : Nat := 0x20030
def PWR_DOM_ON_HI : Nat := 0x20034
def PWR_RESET_CMD : Nat := 0x20038
def PWR_LAST_RESET : Nat := 0x2003C
def PWR_EVENT : Nat := 0x20040
def PWR_ENG_BUDGET (i : Nat) : Nat := 0x20080 + 8 * i
def PWR_ENG_LAST (i : Nat) : Nat := 0x20084 + 8 * i
def PWR_CNT_DEFER : Nat := 0x20200
def PWR_CNT_CLAMP : Nat := 0x20204
def PWR_CNT_OVERRUN : Nat := 0x20208
def PWR_CNT_BROWNOUT : Nat := 0x2020C
def ETH_STATUS : Nat := 0x1A0000
def ETH_APPLY_STATUS : Nat := 0x1A0004
def ETH_RETRAIN : Nat := 0x1A0008
def ETH_RETRAIN_STATUS : Nat := 0x1A000C
def ETH_GROUP_STATE (i : Nat) : Nat := 0x1A0010 + 4 * i
def ETH_GROUP_CFG (i : Nat) : Nat := 0x1A0020 + 4 * i
def ETH_LANE (i : Nat) : Nat := 0x1A0040 + 4 * i
def ETH_CNT_FEC_CORR_LO (i : Nat) : Nat := 0x1A0100 + 16 * i
def ETH_CNT_FEC_CORR_HI (i : Nat) : Nat := 0x1A0104 + 16 * i
def ETH_CNT_FEC_UNCORR (i : Nat) : Nat := 0x1A0108 + 16 * i
def ETH_CNT_FCS (i : Nat) : Nat := 0x1A010C + 16 * i
def ETH_CNT_LANE_LOST : Nat := 0x1A0200
def ETH_CNT_RETRAIN : Nat := 0x1A0204

end R

namespace F

def DEV_SEAL_CRC : Fld := ⟨R.DEV_SEAL, 31, 0⟩
def DEV_SEAL_REF_CRC : Fld := ⟨R.DEV_SEAL_REF, 31, 0⟩
def SIG_SEAL_CRC : Fld := ⟨R.SIG_SEAL, 31, 0⟩
def SIG_SEAL_REF_CRC : Fld := ⟨R.SIG_SEAL_REF, 31, 0⟩
def PWR_SEAL_CRC : Fld := ⟨R.PWR_SEAL, 31, 0⟩
def PWR_SEAL_REF_CRC : Fld := ⟨R.PWR_SEAL_REF, 31, 0⟩
def HST_SEAL_CRC : Fld := ⟨R.HST_SEAL, 31, 0⟩
def HST_SEAL_REF_CRC : Fld := ⟨R.HST_SEAL_REF, 31, 0⟩
def SLC_SEAL_CRC : Fld := ⟨R.SLC_SEAL, 31, 0⟩
def SLC_SEAL_REF_CRC : Fld := ⟨R.SLC_SEAL_REF, 31, 0⟩
def STW_SEAL_CRC : Fld := ⟨R.STW_SEAL, 31, 0⟩
def STW_SEAL_REF_CRC : Fld := ⟨R.STW_SEAL_REF, 31, 0⟩
def ERR_SEAL_CRC : Fld := ⟨R.ERR_SEAL, 31, 0⟩
def ERR_SEAL_REF_CRC : Fld := ⟨R.ERR_SEAL_REF, 31, 0⟩
def GAL_SEAL_CRC : Fld := ⟨R.GAL_SEAL, 31, 0⟩
def GAL_SEAL_REF_CRC : Fld := ⟨R.GAL_SEAL_REF, 31, 0⟩
def FLT_SEAL_CRC : Fld := ⟨R.FLT_SEAL, 31, 0⟩
def FLT_SEAL_REF_CRC : Fld := ⟨R.FLT_SEAL_REF, 31, 0⟩
def RTE_SEAL_CRC : Fld := ⟨R.RTE_SEAL, 31, 0⟩
def RTE_SEAL_REF_CRC : Fld := ⟨R.RTE_SEAL_REF, 31, 0⟩
def PLC_SEAL_CRC : Fld := ⟨R.PLC_SEAL, 31, 0⟩
def PLC_SEAL_REF_CRC : Fld := ⟨R.PLC_SEAL_REF, 31, 0⟩
def PKT_SEAL_CRC : Fld := ⟨R.PKT_SEAL, 31, 0⟩
def PKT_SEAL_REF_CRC : Fld := ⟨R.PKT_SEAL_REF, 31, 0⟩
def TXS_SEAL_CRC : Fld := ⟨R.TXS_SEAL, 31, 0⟩
def TXS_SEAL_REF_CRC : Fld := ⟨R.TXS_SEAL_REF, 31, 0⟩
def NVS_SEAL_CRC : Fld := ⟨R.NVS_SEAL, 31, 0⟩
def NVS_SEAL_REF_CRC : Fld := ⟨R.NVS_SEAL_REF, 31, 0⟩
def CIP_SEAL_CRC : Fld := ⟨R.CIP_SEAL, 31, 0⟩
def CIP_SEAL_REF_CRC : Fld := ⟨R.CIP_SEAL_REF, 31, 0⟩
def CVU_SEAL_CRC : Fld := ⟨R.CVU_SEAL, 31, 0⟩
def CVU_SEAL_REF_CRC : Fld := ⟨R.CVU_SEAL_REF, 31, 0⟩
def HBM_SEAL_CRC : Fld := ⟨R.HBM_SEAL, 31, 0⟩
def HBM_SEAL_REF_CRC : Fld := ⟨R.HBM_SEAL_REF, 31, 0⟩
def ETH_SEAL_CRC : Fld := ⟨R.ETH_SEAL, 31, 0⟩
def ETH_SEAL_REF_CRC : Fld := ⟨R.ETH_SEAL_REF, 31, 0⟩
def STR_STATUS_SEQ : Fld := ⟨R.STR_STATUS, 31, 24⟩
def STR_STATUS_RESULT : Fld := ⟨R.STR_STATUS, 15, 8⟩
def STR_STATUS_PHASE : Fld := ⟨R.STR_STATUS, 7, 4⟩
def STR_STATUS_HALL : Fld := ⟨R.STR_STATUS, 3, 0⟩
def STR_CMD_FORCE_CLEAR : Fld := ⟨R.STR_CMD, 8, 8⟩
def STR_CMD_OPCODE : Fld := ⟨R.STR_CMD, 3, 0⟩
def STR_SRC_LO_ADDR : Fld := ⟨R.STR_SRC_LO, 31, 0⟩
def STR_SRC_HI_ADDR : Fld := ⟨R.STR_SRC_HI, 31, 0⟩
def STR_SRC_LEN_LEN : Fld := ⟨R.STR_SRC_LEN, 31, 0⟩
def STR_QUIESCE_WAIT_MS : Fld := ⟨R.STR_QUIESCE_WAIT, 9, 0⟩
def STR_BOOT_SLOT_B_VALID : Fld := ⟨R.STR_BOOT_SLOT, 2, 2⟩
def STR_BOOT_SLOT_A_VALID : Fld := ⟨R.STR_BOOT_SLOT, 1, 1⟩
def STR_BOOT_SLOT_SLOT : Fld := ⟨R.STR_BOOT_SLOT, 0, 0⟩
def STR_BASE_ID_ID (i : Nat) : Fld := ⟨R.STR_BASE_ID i, 31, 0⟩
def STR_STREAM_VER_VER : Fld := ⟨R.STR_STREAM_VER, 31, 0⟩
def STR_FW_MIN_VER : Fld := ⟨R.STR_FW_MIN, 31, 0⟩
def STR_HALL_VER (i : Nat) : Fld := ⟨R.STR_HALL i, 31, 16⟩
def STR_HALL_SEAL_PENDING (i : Nat) : Fld := ⟨R.STR_HALL i, 9, 9⟩
def STR_HALL_ACTIVE_BANK (i : Nat) : Fld := ⟨R.STR_HALL i, 8, 8⟩
def STR_HALL_SHADOW_VALID (i : Nat) : Fld := ⟨R.STR_HALL i, 1, 1⟩
def STR_HALL_PAUSED (i : Nat) : Fld := ⟨R.STR_HALL i, 0, 0⟩
def STR_ENV_ENTRY_MATCHED : Fld := ⟨R.STR_ENV_ENTRY, 8, 8⟩
def STR_ENV_ENTRY_STRAPS : Fld := ⟨R.STR_ENV_ENTRY, 7, 4⟩
def STR_ENV_ENTRY_ENTRY : Fld := ⟨R.STR_ENV_ENTRY, 3, 0⟩
def STR_ENV_MISMATCH_SEQ : Fld := ⟨R.STR_ENV_MISMATCH, 31, 24⟩
def STR_ENV_MISMATCH_LOST : Fld := ⟨R.STR_ENV_MISMATCH, 23, 16⟩
def STR_ENV_MISMATCH_CLASS : Fld := ⟨R.STR_ENV_MISMATCH, 5, 0⟩
def STR_ENV_REC (i : Nat) : Fld := ⟨R.STR_ENV_REC i, 31, 0⟩
def GAL_STATUS_SEQ : Fld := ⟨R.GAL_STATUS, 31, 24⟩
def GAL_STATUS_SEAL_MISMATCH : Fld := ⟨R.GAL_STATUS, 2, 2⟩
def GAL_STATUS_PROG_EVENT : Fld := ⟨R.GAL_STATUS, 1, 1⟩
def GAL_STATUS_FAULT : Fld := ⟨R.GAL_STATUS, 0, 0⟩
def GAL_CLUSTER_EN_EN : Fld := ⟨R.GAL_CLUSTER_EN, 15, 0⟩
def GAL_FLIGHT_RESERVE_CLUSTERS : Fld := ⟨R.GAL_FLIGHT_RESERVE, 4, 0⟩
def GAL_APPLY_STATUS_WEIGHT : Fld := ⟨R.GAL_APPLY_STATUS, 2, 2⟩
def GAL_APPLY_STATUS_RESERVE : Fld := ⟨R.GAL_APPLY_STATUS, 1, 1⟩
def GAL_APPLY_STATUS_EN : Fld := ⟨R.GAL_APPLY_STATUS, 0, 0⟩
def GAL_CANCEL_TAG_TAG : Fld := ⟨R.GAL_CANCEL_TAG, 31, 0⟩
def GAL_CANCEL_CTRL_GO : Fld := ⟨R.GAL_CANCEL_CTRL, 31, 31⟩
def GAL_CANCEL_CTRL_SLICE : Fld := ⟨R.GAL_CANCEL_CTRL, 15, 0⟩
def GAL_CANCEL_RESULT_SEQ : Fld := ⟨R.GAL_CANCEL_RESULT, 31, 24⟩
def GAL_CANCEL_RESULT_RESULT : Fld := ⟨R.GAL_CANCEL_RESULT, 15, 8⟩
def GAL_CLUSTER_SLOT (i : Nat) : Fld := ⟨R.GAL_CLUSTER i, 27, 24⟩
def GAL_CLUSTER_SLICE (i : Nat) : Fld := ⟨R.GAL_CLUSTER i, 15, 8⟩
def GAL_CLUSTER_BUSY (i : Nat) : Fld := ⟨R.GAL_CLUSTER i, 2, 2⟩
def GAL_CLUSTER_FLIGHT (i : Nat) : Fld := ⟨R.GAL_CLUSTER i, 1, 1⟩
def GAL_CLUSTER_ENABLED (i : Nat) : Fld := ⟨R.GAL_CLUSTER i, 0, 0⟩
def GAL_PROG_ID_VER (i : Nat) : Fld := ⟨R.GAL_PROG_ID i, 31, 16⟩
def GAL_PROG_ID_ID (i : Nat) : Fld := ⟨R.GAL_PROG_ID i, 15, 0⟩
def GAL_PROG_STATE_STATE (i : Nat) : Fld := ⟨R.GAL_PROG_STATE i, 31, 30⟩
def GAL_PROG_STATE_REFS (i : Nat) : Fld := ⟨R.GAL_PROG_STATE i, 23, 16⟩
def GAL_PROG_STATE_OWNER (i : Nat) : Fld := ⟨R.GAL_PROG_STATE i, 7, 0⟩
def GAL_CNT_ADD_LO_COUNT : Fld := ⟨R.GAL_CNT_ADD_LO, 31, 0⟩
def GAL_CNT_ADD_HI_COUNT : Fld := ⟨R.GAL_CNT_ADD_HI, 31, 0⟩
def GAL_CNT_CMD_COUNT : Fld := ⟨R.GAL_CNT_CMD, 31, 0⟩
def GAL_CNT_DEFER_COUNT : Fld := ⟨R.GAL_CNT_DEFER, 31, 0⟩
def GAL_CNT_FAULT_COUNT : Fld := ⟨R.GAL_CNT_FAULT, 31, 0⟩
def GAL_WEIGHT_W0 (i : Nat) : Fld := ⟨R.GAL_WEIGHT i, 3, 0⟩
def GAL_WEIGHT_W1 (i : Nat) : Fld := ⟨R.GAL_WEIGHT i, 7, 4⟩
def GAL_WEIGHT_W2 (i : Nat) : Fld := ⟨R.GAL_WEIGHT i, 11, 8⟩
def GAL_WEIGHT_W3 (i : Nat) : Fld := ⟨R.GAL_WEIGHT i, 15, 12⟩
def GAL_WEIGHT_W4 (i : Nat) : Fld := ⟨R.GAL_WEIGHT i, 19, 16⟩
def GAL_WEIGHT_W5 (i : Nat) : Fld := ⟨R.GAL_WEIGHT i, 23, 20⟩
def GAL_WEIGHT_W6 (i : Nat) : Fld := ⟨R.GAL_WEIGHT i, 27, 24⟩
def GAL_WEIGHT_W7 (i : Nat) : Fld := ⟨R.GAL_WEIGHT i, 31, 28⟩
def FLT_STATUS_SEQ : Fld := ⟨R.FLT_STATUS, 31, 24⟩
def FLT_STATUS_SEAL_MISMATCH : Fld := ⟨R.FLT_STATUS, 4, 4⟩
def FLT_STATUS_STEP_REFUSED : Fld := ⟨R.FLT_STATUS, 3, 3⟩
def FLT_STATUS_PTP_EVENT : Fld := ⟨R.FLT_STATUS, 2, 2⟩
def FLT_STATUS_ABORT : Fld := ⟨R.FLT_STATUS, 1, 1⟩
def FLT_STATUS_STALL : Fld := ⟨R.FLT_STATUS, 0, 0⟩
def FLT_APPLY_STATUS_CONFIG : Fld := ⟨R.FLT_APPLY_STATUS, 0, 0⟩
def FLT_CONFIG_HOLDOVER_MS : Fld := ⟨R.FLT_CONFIG, 31, 16⟩
def FLT_CONFIG_LOCK_NS : Fld := ⟨R.FLT_CONFIG, 15, 0⟩
def FLT_CANCEL_TAG_TAG : Fld := ⟨R.FLT_CANCEL_TAG, 31, 0⟩
def FLT_CANCEL_CTRL_GO : Fld := ⟨R.FLT_CANCEL_CTRL, 31, 31⟩
def FLT_CANCEL_CTRL_SLICE : Fld := ⟨R.FLT_CANCEL_CTRL, 15, 0⟩
def FLT_CANCEL_RESULT_SEQ : Fld := ⟨R.FLT_CANCEL_RESULT, 31, 24⟩
def FLT_CANCEL_RESULT_RESULT : Fld := ⟨R.FLT_CANCEL_RESULT, 15, 8⟩
def FLT_NEWEL_LO_NS : Fld := ⟨R.FLT_NEWEL_LO, 31, 0⟩
def FLT_NEWEL_HI_NS : Fld := ⟨R.FLT_NEWEL_HI, 31, 0⟩
def FLT_NEWEL_FRAC_FRAC : Fld := ⟨R.FLT_NEWEL_FRAC, 15, 0⟩
def FLT_NEWEL_ADJ_RATE : Fld := ⟨R.FLT_NEWEL_ADJ, 31, 0⟩
def FLT_NEWEL_STEP_LO_NS : Fld := ⟨R.FLT_NEWEL_STEP_LO, 31, 0⟩
def FLT_NEWEL_STEP_HI_NS : Fld := ⟨R.FLT_NEWEL_STEP_HI, 31, 0⟩
def FLT_NEWEL_CTRL_STEP : Fld := ⟨R.FLT_NEWEL_CTRL, 0, 0⟩
def FLT_PTP_STATUS_SEQ : Fld := ⟨R.FLT_PTP_STATUS, 31, 24⟩
def FLT_PTP_STATUS_ROLE : Fld := ⟨R.FLT_PTP_STATUS, 7, 6⟩
def FLT_PTP_STATUS_STATE : Fld := ⟨R.FLT_PTP_STATUS, 5, 4⟩
def FLT_PTP_OFFSET_NS : Fld := ⟨R.FLT_PTP_OFFSET, 31, 0⟩
def FLT_SEL_SLOT : Fld := ⟨R.FLT_SEL, 5, 0⟩
def FLT_EPOCH_LO_NS : Fld := ⟨R.FLT_EPOCH_LO, 31, 0⟩
def FLT_EPOCH_HI_NS : Fld := ⟨R.FLT_EPOCH_HI, 31, 0⟩
def FLT_PROGRESS_STEPS_DONE : Fld := ⟨R.FLT_PROGRESS, 16, 0⟩
def FLT_LATE_MAX_NS : Fld := ⟨R.FLT_LATE_MAX, 31, 0⟩
def FLT_LATE_STEPS_COUNT : Fld := ⟨R.FLT_LATE_STEPS, 31, 0⟩
def FLT_LAST_STATUS : Fld := ⟨R.FLT_LAST, 31, 24⟩
def FLT_LAST_ORIGIN : Fld := ⟨R.FLT_LAST, 15, 0⟩
def FLT_SLOT_STATE (i : Nat) : Fld := ⟨R.FLT_SLOT i, 31, 29⟩
def FLT_SLOT_HELD (i : Nat) : Fld := ⟨R.FLT_SLOT i, 28, 28⟩
def FLT_SLOT_SLICE (i : Nat) : Fld := ⟨R.FLT_SLOT i, 23, 16⟩
def FLT_SLOT_FLIGHT_ID (i : Nat) : Fld := ⟨R.FLT_SLOT i, 15, 0⟩
def FLT_CNT_STEP_LO_COUNT : Fld := ⟨R.FLT_CNT_STEP_LO, 31, 0⟩
def FLT_CNT_STEP_HI_COUNT : Fld := ⟨R.FLT_CNT_STEP_HI, 31, 0⟩
def FLT_CNT_ABORT_TX_COUNT : Fld := ⟨R.FLT_CNT_ABORT_TX, 31, 0⟩
def FLT_CNT_ABORT_RX_COUNT : Fld := ⟨R.FLT_CNT_ABORT_RX, 31, 0⟩
def FLT_CNT_DROP_COUNT : Fld := ⟨R.FLT_CNT_DROP, 31, 0⟩
def FLT_CNT_REFUSED_COUNT : Fld := ⟨R.FLT_CNT_REFUSED, 31, 0⟩
def RTE_STATUS_SEQ : Fld := ⟨R.RTE_STATUS, 31, 24⟩
def RTE_STATUS_SEAL_MISMATCH : Fld := ⟨R.RTE_STATUS, 3, 3⟩
def RTE_STATUS_MISS_DROP : Fld := ⟨R.RTE_STATUS, 2, 2⟩
def RTE_STATUS_QP_ERROR : Fld := ⟨R.RTE_STATUS, 1, 1⟩
def RTE_STATUS_CTX_FAULT : Fld := ⟨R.RTE_STATUS, 0, 0⟩
def RTE_APPLY_STATUS_CC : Fld := ⟨R.RTE_APPLY_STATUS, 1, 1⟩
def RTE_APPLY_STATUS_CONFIG : Fld := ⟨R.RTE_APPLY_STATUS, 0, 0⟩
def RTE_RTO_MAX_US : Fld := ⟨R.RTE_RTO, 31, 16⟩
def RTE_RTO_INIT_US : Fld := ⟨R.RTE_RTO, 15, 0⟩
def RTE_SACK_INTERVAL_NS : Fld := ⟨R.RTE_SACK, 31, 16⟩
def RTE_SACK_PACKETS : Fld := ⟨R.RTE_SACK, 7, 0⟩
def RTE_HOLD_LIMIT_US : Fld := ⟨R.RTE_HOLD, 15, 0⟩
def RTE_CANCEL_TAG_TAG : Fld := ⟨R.RTE_CANCEL_TAG, 31, 0⟩
def RTE_CANCEL_CTRL_GO : Fld := ⟨R.RTE_CANCEL_CTRL, 31, 31⟩
def RTE_CANCEL_CTRL_SLICE : Fld := ⟨R.RTE_CANCEL_CTRL, 15, 0⟩
def RTE_CANCEL_RESULT_SEQ : Fld := ⟨R.RTE_CANCEL_RESULT, 31, 24⟩
def RTE_CANCEL_RESULT_RESULT : Fld := ⟨R.RTE_CANCEL_RESULT, 15, 8⟩
def RTE_MISS_PEAK_KIB (i : Nat) : Fld := ⟨R.RTE_MISS i, 28, 16⟩
def RTE_MISS_USED_KIB (i : Nat) : Fld := ⟨R.RTE_MISS i, 12, 0⟩
def RTE_CTX_CACHE_FETCHING : Fld := ⟨R.RTE_CTX_CACHE, 31, 16⟩
def RTE_CTX_CACHE_RESIDENT : Fld := ⟨R.RTE_CTX_CACHE, 15, 0⟩
def RTE_CC_DEC_FACTOR (i : Nat) : Fld := ⟨R.RTE_CC_DEC i, 7, 0⟩
def RTE_CC_REC_RECOVERY_US (i : Nat) : Fld := ⟨R.RTE_CC_REC i, 13, 0⟩
def RTE_CC_STEP_STEP_MBPS (i : Nat) : Fld := ⟨R.RTE_CC_STEP i, 31, 0⟩
def RTE_CC_LIMITS_MIN_RATE (i : Nat) : Fld := ⟨R.RTE_CC_LIMITS i, 31, 16⟩
def RTE_CC_LIMITS_CNP_INTERVAL_NS (i : Nat) : Fld := ⟨R.RTE_CC_LIMITS i, 15, 0⟩
def RTE_CNT_TX_LO : Fld := ⟨R.RTE_CNT_TX_LO, 31, 0⟩
def RTE_CNT_TX_HI : Fld := ⟨R.RTE_CNT_TX_HI, 31, 0⟩
def RTE_CNT_RX_LO : Fld := ⟨R.RTE_CNT_RX_LO, 31, 0⟩
def RTE_CNT_RX_HI : Fld := ⟨R.RTE_CNT_RX_HI, 31, 0⟩
def RTE_CNT_RETX_COUNT : Fld := ⟨R.RTE_CNT_RETX, 31, 0⟩
def RTE_CNT_MISS_COUNT : Fld := ⟨R.RTE_CNT_MISS, 31, 0⟩
def RTE_CNT_MISS_DROP_COUNT : Fld := ⟨R.RTE_CNT_MISS_DROP, 31, 0⟩
def RTE_CNT_HOLD_DROP_COUNT : Fld := ⟨R.RTE_CNT_HOLD_DROP, 31, 0⟩
def RTE_CNT_RX_DROP_COUNT : Fld := ⟨R.RTE_CNT_RX_DROP, 31, 0⟩
def RTE_CNT_NAK_COUNT : Fld := ⟨R.RTE_CNT_NAK, 31, 0⟩
def RTE_CNT_CNP_TX_COUNT : Fld := ⟨R.RTE_CNT_CNP_TX, 31, 0⟩
def RTE_CNT_CNP_RX_COUNT : Fld := ⟨R.RTE_CNT_CNP_RX, 31, 0⟩
def PLC_STATUS_SEQ : Fld := ⟨R.PLC_STATUS, 31, 24⟩
def PLC_STATUS_SEAL_MISMATCH : Fld := ⟨R.PLC_STATUS, 5, 5⟩
def PLC_STATUS_RETIRE_WARN : Fld := ⟨R.PLC_STATUS, 4, 4⟩
def PLC_STATUS_DISCORD : Fld := ⟨R.PLC_STATUS, 3, 3⟩
def PLC_STATUS_PAGE_LOST : Fld := ⟨R.PLC_STATUS, 2, 2⟩
def PLC_STATUS_POOL_FAULT : Fld := ⟨R.PLC_STATUS, 1, 1⟩
def PLC_STATUS_EVAC_DONE : Fld := ⟨R.PLC_STATUS, 0, 0⟩
def PLC_APPLY_STATUS_FETCH_WAIT : Fld := ⟨R.PLC_APPLY_STATUS, 4, 4⟩
def PLC_APPLY_STATUS_SCRUB : Fld := ⟨R.PLC_APPLY_STATUS, 3, 3⟩
def PLC_APPLY_STATUS_RETIRE : Fld := ⟨R.PLC_APPLY_STATUS, 2, 2⟩
def PLC_APPLY_STATUS_ENERGY : Fld := ⟨R.PLC_APPLY_STATUS, 1, 1⟩
def PLC_APPLY_STATUS_DECAY : Fld := ⟨R.PLC_APPLY_STATUS, 0, 0⟩
def PLC_DECAY_MIN_RES_MS : Fld := ⟨R.PLC_DECAY, 31, 16⟩
def PLC_DECAY_SHIFT : Fld := ⟨R.PLC_DECAY, 3, 0⟩
def PLC_ENERGY_BUDGET_UJ : Fld := ⟨R.PLC_ENERGY, 31, 0⟩
def PLC_RETIRE_THRESHOLD : Fld := ⟨R.PLC_RETIRE, 15, 0⟩
def PLC_SCRUB_PERIOD_H : Fld := ⟨R.PLC_SCRUB, 15, 0⟩
def PLC_FETCH_WAIT_MS : Fld := ⟨R.PLC_FETCH_WAIT, 15, 0⟩
def PLC_CANCEL_TAG_TAG : Fld := ⟨R.PLC_CANCEL_TAG, 31, 0⟩
def PLC_CANCEL_CTRL_GO : Fld := ⟨R.PLC_CANCEL_CTRL, 31, 31⟩
def PLC_CANCEL_CTRL_SLICE : Fld := ⟨R.PLC_CANCEL_CTRL, 15, 0⟩
def PLC_CANCEL_RESULT_SEQ : Fld := ⟨R.PLC_CANCEL_RESULT, 31, 24⟩
def PLC_CANCEL_RESULT_RESULT : Fld := ⟨R.PLC_CANCEL_RESULT, 15, 8⟩
def PLC_EVAC_GO : Fld := ⟨R.PLC_EVAC, 31, 31⟩
def PLC_EVAC_RELEASE : Fld := ⟨R.PLC_EVAC, 30, 30⟩
def PLC_EVAC_RETRAIN : Fld := ⟨R.PLC_EVAC, 29, 29⟩
def PLC_EVAC_PC : Fld := ⟨R.PLC_EVAC, 6, 0⟩
def PLC_EVAC_STATUS_SEQ : Fld := ⟨R.PLC_EVAC_STATUS, 31, 24⟩
def PLC_EVAC_STATUS_RESULT : Fld := ⟨R.PLC_EVAC_STATUS, 23, 16⟩
def PLC_EVAC_STATUS_OUT : Fld := ⟨R.PLC_EVAC_STATUS, 7, 7⟩
def PLC_EVAC_STATUS_PC : Fld := ⟨R.PLC_EVAC_STATUS, 6, 0⟩
def PLC_POOL_T0_TOTAL_FRAMES : Fld := ⟨R.PLC_POOL_T0_TOTAL, 31, 0⟩
def PLC_POOL_T0_FREE_FRAMES : Fld := ⟨R.PLC_POOL_T0_FREE, 31, 0⟩
def PLC_POOL_T1_TOTAL_FRAMES : Fld := ⟨R.PLC_POOL_T1_TOTAL, 31, 0⟩
def PLC_POOL_T1_FREE_FRAMES : Fld := ⟨R.PLC_POOL_T1_FREE, 31, 0⟩
def PLC_RETIRED_FRAMES : Fld := ⟨R.PLC_RETIRED, 12, 0⟩
def PLC_CNT_MOVE_LO : Fld := ⟨R.PLC_CNT_MOVE_LO, 31, 0⟩
def PLC_CNT_MOVE_HI : Fld := ⟨R.PLC_CNT_MOVE_HI, 31, 0⟩
def PLC_CNT_DEFER_COUNT : Fld := ⟨R.PLC_CNT_DEFER, 31, 0⟩
def PLC_CNT_FETCH_DROP_COUNT : Fld := ⟨R.PLC_CNT_FETCH_DROP, 31, 0⟩
def PLC_CNT_MOVE_FAIL_COUNT : Fld := ⟨R.PLC_CNT_MOVE_FAIL, 31, 0⟩
def PLC_CNT_REPAIR_COUNT : Fld := ⟨R.PLC_CNT_REPAIR, 31, 0⟩
def PLC_CNT_DISCORD_COUNT : Fld := ⟨R.PLC_CNT_DISCORD, 31, 0⟩
def PLC_CNT_APERTURE_MISS_COUNT : Fld := ⟨R.PLC_CNT_APERTURE_MISS, 31, 0⟩
def HBM_STATUS_SEQ : Fld := ⟨R.HBM_STATUS, 31, 24⟩
def HBM_STATUS_SEAL_MISMATCH : Fld := ⟨R.HBM_STATUS, 3, 3⟩
def HBM_STATUS_PC_FAIL : Fld := ⟨R.HBM_STATUS, 2, 2⟩
def HBM_STATUS_UE : Fld := ⟨R.HBM_STATUS, 1, 1⟩
def HBM_STATUS_PATROL_DONE : Fld := ⟨R.HBM_STATUS, 0, 0⟩
def HBM_APPLY_STATUS_PATROL : Fld := ⟨R.HBM_APPLY_STATUS, 0, 0⟩
def HBM_PATROL_PERIOD_H : Fld := ⟨R.HBM_PATROL, 7, 0⟩
def HBM_STACK_STATE (i : Nat) : Fld := ⟨R.HBM_STACK i, 31, 30⟩
def HBM_STACK_TEMP (i : Nat) : Fld := ⟨R.HBM_STACK i, 23, 16⟩
def HBM_STACK_RATE (i : Nat) : Fld := ⟨R.HBM_STACK i, 7, 0⟩
def HBM_PC_STATE (i : Nat) : Fld := ⟨R.HBM_PC i, 31, 30⟩
def HBM_PC_FAILED (i : Nat) : Fld := ⟨R.HBM_PC i, 29, 29⟩
def HBM_PC_RETIRED (i : Nat) : Fld := ⟨R.HBM_PC i, 15, 8⟩
def HBM_PC_CE_HOUR (i : Nat) : Fld := ⟨R.HBM_PC i, 7, 0⟩
def HBM_CNT_CE_LO : Fld := ⟨R.HBM_CNT_CE_LO, 31, 0⟩
def HBM_CNT_CE_HI : Fld := ⟨R.HBM_CNT_CE_HI, 31, 0⟩
def HBM_CNT_UE : Fld := ⟨R.HBM_CNT_UE, 31, 0⟩
def HBM_CNT_PATROL : Fld := ⟨R.HBM_CNT_PATROL, 31, 0⟩
def HBM_CNT_WRITEBACK : Fld := ⟨R.HBM_CNT_WRITEBACK, 31, 0⟩
def PKT_STATUS_SEQ : Fld := ⟨R.PKT_STATUS, 31, 24⟩
def PKT_STATUS_SEAL_MISMATCH : Fld := ⟨R.PKT_STATUS, 4, 4⟩
def PKT_STATUS_COMMIT_REFUSED : Fld := ⟨R.PKT_STATUS, 3, 3⟩
def PKT_STATUS_TLOAD_DONE : Fld := ⟨R.PKT_STATUS, 2, 2⟩
def PKT_STATUS_TREE_FAULT : Fld := ⟨R.PKT_STATUS, 1, 1⟩
def PKT_STATUS_SLOW_DROP : Fld := ⟨R.PKT_STATUS, 0, 0⟩
def PKT_APPLY_STATUS_METER : Fld := ⟨R.PKT_APPLY_STATUS, 2, 2⟩
def PKT_APPLY_STATUS_TREES : Fld := ⟨R.PKT_APPLY_STATUS, 1, 1⟩
def PKT_APPLY_STATUS_CONFIG : Fld := ⟨R.PKT_APPLY_STATUS, 0, 0⟩
def PKT_DEPTH_BYTES : Fld := ⟨R.PKT_DEPTH, 9, 0⟩
def PKT_SLOW_REASM_MS : Fld := ⟨R.PKT_SLOW, 31, 16⟩
def PKT_SLOW_WINGS : Fld := ⟨R.PKT_SLOW, 3, 0⟩
def PKT_AREA_SIZE_UNITS (i : Nat) : Fld := ⟨R.PKT_AREA_SIZE i, 31, 0⟩
def PKT_TREE_COMMIT_GO : Fld := ⟨R.PKT_TREE_COMMIT, 0, 0⟩
def PKT_MIRROR_EN : Fld := ⟨R.PKT_MIRROR, 31, 31⟩
def PKT_MIRROR_RING : Fld := ⟨R.PKT_MIRROR, 15, 0⟩
def PKT_TREE_BASE_AREA (i : Nat) : Fld := ⟨R.PKT_TREE_BASE i, 31, 31⟩
def PKT_TREE_BASE_UNIT (i : Nat) : Fld := ⟨R.PKT_TREE_BASE i, 30, 0⟩
def PKT_TREE_SIZE_UNITS (i : Nat) : Fld := ⟨R.PKT_TREE_SIZE i, 31, 0⟩
def PKT_TREE_CFG_EN (i : Nat) : Fld := ⟨R.PKT_TREE_CFG i, 31, 31⟩
def PKT_TREE_CFG_RULES (i : Nat) : Fld := ⟨R.PKT_TREE_CFG i, 20, 0⟩
def PKT_TREE_PORTS_PORTS (i : Nat) : Fld := ⟨R.PKT_TREE_PORTS i, 15, 0⟩
def PKT_DEFAULT_LO (i : Nat) : Fld := ⟨R.PKT_DEFAULT_LO i, 31, 0⟩
def PKT_DEFAULT_HI (i : Nat) : Fld := ⟨R.PKT_DEFAULT_HI i, 31, 0⟩
def PKT_METER_SEL_INDEX : Fld := ⟨R.PKT_METER_SEL, 13, 0⟩
def PKT_METER_RATE_MBPS : Fld := ⟨R.PKT_METER_RATE, 31, 0⟩
def PKT_METER_BURST_BYTES : Fld := ⟨R.PKT_METER_BURST, 23, 0⟩
def PKT_METER_PASS_COUNT : Fld := ⟨R.PKT_METER_PASS, 31, 0⟩
def PKT_METER_DROP_COUNT : Fld := ⟨R.PKT_METER_DROP, 31, 0⟩
def PKT_TLOAD_SRC_LO : Fld := ⟨R.PKT_TLOAD_SRC_LO, 31, 0⟩
def PKT_TLOAD_SRC_HI : Fld := ⟨R.PKT_TLOAD_SRC_HI, 31, 0⟩
def PKT_TLOAD_LEN_BYTES : Fld := ⟨R.PKT_TLOAD_LEN, 31, 0⟩
def PKT_TLOAD_DST_AREA : Fld := ⟨R.PKT_TLOAD_DST, 31, 31⟩
def PKT_TLOAD_DST_UNIT : Fld := ⟨R.PKT_TLOAD_DST, 30, 0⟩
def PKT_TLOAD_CTRL_GO : Fld := ⟨R.PKT_TLOAD_CTRL, 31, 31⟩
def PKT_TLOAD_STATUS_SEQ : Fld := ⟨R.PKT_TLOAD_STATUS, 31, 24⟩
def PKT_TLOAD_STATUS_RESULT : Fld := ⟨R.PKT_TLOAD_STATUS, 23, 16⟩
def PKT_TLOAD_STATUS_ACTIVE : Fld := ⟨R.PKT_TLOAD_STATUS, 0, 0⟩
def PKT_CNT_RX_LO : Fld := ⟨R.PKT_CNT_RX_LO, 31, 0⟩
def PKT_CNT_RX_HI : Fld := ⟨R.PKT_CNT_RX_HI, 31, 0⟩
def PKT_CNT_SLOW : Fld := ⟨R.PKT_CNT_SLOW, 31, 0⟩
def PKT_CNT_SLOW_DROP : Fld := ⟨R.PKT_CNT_SLOW_DROP, 31, 0⟩
def PKT_CNT_REASM_DROP : Fld := ⟨R.PKT_CNT_REASM_DROP, 31, 0⟩
def PKT_CNT_NOBUF : Fld := ⟨R.PKT_CNT_NOBUF, 31, 0⟩
def PKT_CNT_ACTION_DROP : Fld := ⟨R.PKT_CNT_ACTION_DROP, 31, 0⟩
def PKT_CNT_TREE_FAULT : Fld := ⟨R.PKT_CNT_TREE_FAULT, 31, 0⟩
def PKT_CNT_POLICE_DROP : Fld := ⟨R.PKT_CNT_POLICE_DROP, 31, 0⟩
def PKT_CNT_MIRROR_DROP : Fld := ⟨R.PKT_CNT_MIRROR_DROP, 31, 0⟩
def PKT_CNT_SHED_DROP : Fld := ⟨R.PKT_CNT_SHED_DROP, 31, 0⟩
def TXS_STATUS_SEQ : Fld := ⟨R.TXS_STATUS, 31, 24⟩
def TXS_STATUS_SEAL_MISMATCH : Fld := ⟨R.TXS_STATUS, 2, 2⟩
def TXS_STATUS_INVALID : Fld := ⟨R.TXS_STATUS, 1, 1⟩
def TXS_STATUS_SHED : Fld := ⟨R.TXS_STATUS, 0, 0⟩
def TXS_APPLY_STATUS_SLICE : Fld := ⟨R.TXS_APPLY_STATUS, 2, 2⟩
def TXS_APPLY_STATUS_QUEUE : Fld := ⟨R.TXS_APPLY_STATUS, 1, 1⟩
def TXS_APPLY_STATUS_CONFIG : Fld := ⟨R.TXS_APPLY_STATUS, 0, 0⟩
def TXS_CONFIG_FLIGHT_QUEUE : Fld := ⟨R.TXS_CONFIG, 11, 8⟩
def TXS_CONFIG_FLIGHT_DSCP : Fld := ⟨R.TXS_CONFIG, 5, 0⟩
def TXS_CANCEL_TAG_TAG : Fld := ⟨R.TXS_CANCEL_TAG, 31, 0⟩
def TXS_CANCEL_CTRL_GO : Fld := ⟨R.TXS_CANCEL_CTRL, 31, 31⟩
def TXS_CANCEL_CTRL_SLICE : Fld := ⟨R.TXS_CANCEL_CTRL, 15, 0⟩
def TXS_CANCEL_RESULT_SEQ : Fld := ⟨R.TXS_CANCEL_RESULT, 31, 24⟩
def TXS_CANCEL_RESULT_RESULT : Fld := ⟨R.TXS_CANCEL_RESULT, 15, 8⟩
def TXS_DSCP_MAP_Q0 (i : Nat) : Fld := ⟨R.TXS_DSCP_MAP i, 3, 0⟩
def TXS_DSCP_MAP_Q1 (i : Nat) : Fld := ⟨R.TXS_DSCP_MAP i, 7, 4⟩
def TXS_DSCP_MAP_Q2 (i : Nat) : Fld := ⟨R.TXS_DSCP_MAP i, 11, 8⟩
def TXS_DSCP_MAP_Q3 (i : Nat) : Fld := ⟨R.TXS_DSCP_MAP i, 15, 12⟩
def TXS_DSCP_MAP_Q4 (i : Nat) : Fld := ⟨R.TXS_DSCP_MAP i, 19, 16⟩
def TXS_DSCP_MAP_Q5 (i : Nat) : Fld := ⟨R.TXS_DSCP_MAP i, 23, 20⟩
def TXS_DSCP_MAP_Q6 (i : Nat) : Fld := ⟨R.TXS_DSCP_MAP i, 27, 24⟩
def TXS_DSCP_MAP_Q7 (i : Nat) : Fld := ⟨R.TXS_DSCP_MAP i, 31, 28⟩
def TXS_QSEL_PORT : Fld := ⟨R.TXS_QSEL, 7, 4⟩
def TXS_QSEL_QUEUE : Fld := ⟨R.TXS_QSEL, 3, 0⟩
def TXS_Q_RATE_MBPS : Fld := ⟨R.TXS_Q_RATE, 31, 0⟩
def TXS_Q_BURST_BYTES : Fld := ⟨R.TXS_Q_BURST, 23, 0⟩
def TXS_Q_QUANTUM_BYTES : Fld := ⟨R.TXS_Q_QUANTUM, 19, 0⟩
def TXS_Q_STATE_BACKLOG_KIB : Fld := ⟨R.TXS_Q_STATE, 31, 16⟩
def TXS_Q_STATE_ELIGIBLE : Fld := ⟨R.TXS_Q_STATE, 0, 0⟩
def TXS_SSEL_SLICE : Fld := ⟨R.TXS_SSEL, 7, 0⟩
def TXS_S_RATE_MBPS : Fld := ⟨R.TXS_S_RATE, 31, 0⟩
def TXS_S_BURST_BYTES : Fld := ⟨R.TXS_S_BURST, 23, 0⟩
def TXS_CNT_FRAMES_LO : Fld := ⟨R.TXS_CNT_FRAMES_LO, 31, 0⟩
def TXS_CNT_FRAMES_HI : Fld := ⟨R.TXS_CNT_FRAMES_HI, 31, 0⟩
def TXS_CNT_BYTES_LO : Fld := ⟨R.TXS_CNT_BYTES_LO, 31, 0⟩
def TXS_CNT_BYTES_HI : Fld := ⟨R.TXS_CNT_BYTES_HI, 31, 0⟩
def TXS_CNT_DEFER_COUNT : Fld := ⟨R.TXS_CNT_DEFER, 31, 0⟩
def TXS_CNT_INVALID_COUNT : Fld := ⟨R.TXS_CNT_INVALID, 31, 0⟩
def NVS_STATUS_SEQ : Fld := ⟨R.NVS_STATUS, 31, 24⟩
def NVS_STATUS_SEAL_MISMATCH : Fld := ⟨R.NVS_STATUS, 4, 4⟩
def NVS_STATUS_RECORD_FAULT : Fld := ⟨R.NVS_STATUS, 3, 3⟩
def NVS_STATUS_SANITIZE_DONE : Fld := ⟨R.NVS_STATUS, 2, 2⟩
def NVS_STATUS_BACKEND_DOWN : Fld := ⟨R.NVS_STATUS, 1, 1⟩
def NVS_STATUS_DEFERRED : Fld := ⟨R.NVS_STATUS, 0, 0⟩
def NVS_APPLY_STATUS_PS_IDLE : Fld := ⟨R.NVS_APPLY_STATUS, 2, 2⟩
def NVS_APPLY_STATUS_SANITIZE : Fld := ⟨R.NVS_APPLY_STATUS, 1, 1⟩
def NVS_APPLY_STATUS_BACKEND : Fld := ⟨R.NVS_APPLY_STATUS, 0, 0⟩
def NVS_BACKEND_CFG_RETRIES : Fld := ⟨R.NVS_BACKEND_CFG, 22, 20⟩
def NVS_BACKEND_CFG_TIMEOUT_MS : Fld := ⟨R.NVS_BACKEND_CFG, 15, 0⟩
def NVS_SANITIZE_CFG_FAIL_S : Fld := ⟨R.NVS_SANITIZE_CFG, 31, 16⟩
def NVS_SANITIZE_CFG_CKPT_S : Fld := ⟨R.NVS_SANITIZE_CFG, 7, 0⟩
def NVS_PS_IDLE_MS (i : Nat) : Fld := ⟨R.NVS_PS_IDLE i, 31, 0⟩
def NVS_CSEL_CTRL : Fld := ⟨R.NVS_CSEL, 7, 0⟩
def NVS_C_CFG_EN : Fld := ⟨R.NVS_C_CFG, 31, 31⟩
def NVS_C_CFG_MODE : Fld := ⟨R.NVS_C_CFG, 30, 30⟩
def NVS_C_CFG_CACHE_MIB : Fld := ⟨R.NVS_C_CFG, 15, 0⟩
def NVS_C_STATE_PS : Fld := ⟨R.NVS_C_STATE, 31, 29⟩
def NVS_C_STATE_RDY : Fld := ⟨R.NVS_C_STATE, 28, 28⟩
def NVS_C_STATE_CC_EN : Fld := ⟨R.NVS_C_STATE, 27, 27⟩
def NVS_C_STATE_SANITIZING : Fld := ⟨R.NVS_C_STATE, 26, 26⟩
def NVS_C_STATE_SANITIZE_FAILED : Fld := ⟨R.NVS_C_STATE, 25, 25⟩
def NVS_C_STATE_FORMATTING : Fld := ⟨R.NVS_C_STATE, 24, 24⟩
def NVS_C_STATE_IOQ : Fld := ⟨R.NVS_C_STATE, 23, 16⟩
def NVS_C_STATE_NS : Fld := ⟨R.NVS_C_STATE, 15, 8⟩
def NVS_C_DIRTY_BLOCKS : Fld := ⟨R.NVS_C_DIRTY, 31, 0⟩
def NVS_C_DEFER_LOST : Fld := ⟨R.NVS_C_DEFER, 31, 16⟩
def NVS_C_DEFER_PENDING : Fld := ⟨R.NVS_C_DEFER, 15, 0⟩
def NVS_C_REC_OP : Fld := ⟨R.NVS_C_REC, 31, 28⟩
def NVS_C_REC_PASS : Fld := ⟨R.NVS_C_REC, 27, 24⟩
def NVS_C_REC_STATE : Fld := ⟨R.NVS_C_REC, 17, 16⟩
def NVS_C_REC_SPROG : Fld := ⟨R.NVS_C_REC, 15, 0⟩
def NVS_EXT_CFG_VALID (i : Nat) : Fld := ⟨R.NVS_EXT_CFG i, 31, 31⟩
def NVS_EXT_CFG_BACKEND (i : Nat) : Fld := ⟨R.NVS_EXT_CFG i, 3, 0⟩
def NVS_EXT_NSID_NSID (i : Nat) : Fld := ⟨R.NVS_EXT_NSID i, 31, 0⟩
def NVS_EXT_LBA_LO (i : Nat) : Fld := ⟨R.NVS_EXT_LBA_LO i, 31, 0⟩
def NVS_EXT_LBA_HI (i : Nat) : Fld := ⟨R.NVS_EXT_LBA_HI i, 31, 0⟩
def NVS_EXT_BLOCKS_LO (i : Nat) : Fld := ⟨R.NVS_EXT_BLOCKS_LO i, 31, 0⟩
def NVS_EXT_BLOCKS_HI (i : Nat) : Fld := ⟨R.NVS_EXT_BLOCKS_HI i, 31, 0⟩
def NVS_BE_STATE (i : Nat) : Fld := ⟨R.NVS_BE i, 31, 30⟩
def NVS_BE_LAST_STATUS (i : Nat) : Fld := ⟨R.NVS_BE i, 15, 0⟩
def NVS_CNT_CMD_LO : Fld := ⟨R.NVS_CNT_CMD_LO, 31, 0⟩
def NVS_CNT_CMD_HI : Fld := ⟨R.NVS_CNT_CMD_HI, 31, 0⟩
def NVS_CNT_READ_HIT : Fld := ⟨R.NVS_CNT_READ_HIT, 31, 0⟩
def NVS_CNT_READ_MISS : Fld := ⟨R.NVS_CNT_READ_MISS, 31, 0⟩
def NVS_CNT_DESTAGE_LO : Fld := ⟨R.NVS_CNT_DESTAGE_LO, 31, 0⟩
def NVS_CNT_DESTAGE_HI : Fld := ⟨R.NVS_CNT_DESTAGE_HI, 31, 0⟩
def NVS_CNT_DEFERRED : Fld := ⟨R.NVS_CNT_DEFERRED, 31, 0⟩
def NVS_CNT_BE_TIMEOUT : Fld := ⟨R.NVS_CNT_BE_TIMEOUT, 31, 0⟩
def NVS_CNT_REC_WRITE : Fld := ⟨R.NVS_CNT_REC_WRITE, 31, 0⟩
def CIP_STATUS_SEQ : Fld := ⟨R.CIP_STATUS, 31, 24⟩
def CIP_STATUS_SEAL_MISMATCH : Fld := ⟨R.CIP_STATUS, 4, 4⟩
def CIP_STATUS_RNG_FAULT : Fld := ⟨R.CIP_STATUS, 3, 3⟩
def CIP_STATUS_KEY_ECC : Fld := ⟨R.CIP_STATUS, 2, 2⟩
def CIP_STATUS_SA_EXHAUSTED : Fld := ⟨R.CIP_STATUS, 1, 1⟩
def CIP_STATUS_SA_SOFT : Fld := ⟨R.CIP_STATUS, 0, 0⟩
def CIP_APPLY_STATUS_MACSEC : Fld := ⟨R.CIP_APPLY_STATUS, 0, 0⟩
def CIP_SA_SEL_INDEX : Fld := ⟨R.CIP_SA_SEL, 15, 0⟩
def CIP_SA_CMD_GO : Fld := ⟨R.CIP_SA_CMD, 31, 31⟩
def CIP_SA_CMD_OP : Fld := ⟨R.CIP_SA_CMD, 3, 0⟩
def CIP_SA_RESULT_SEQ : Fld := ⟨R.CIP_SA_RESULT, 31, 24⟩
def CIP_SA_RESULT_RESULT : Fld := ⟨R.CIP_SA_RESULT, 23, 16⟩
def CIP_SA_RESULT_STATE : Fld := ⟨R.CIP_SA_RESULT, 3, 0⟩
def CIP_SA_DATA_DATA (i : Nat) : Fld := ⟨R.CIP_SA_DATA i, 31, 0⟩
def CIP_MACSEC_TX_EN (i : Nat) : Fld := ⟨R.CIP_MACSEC i, 31, 31⟩
def CIP_MACSEC_RX_EN (i : Nat) : Fld := ⟨R.CIP_MACSEC i, 30, 30⟩
def CIP_MACSEC_STRICT (i : Nat) : Fld := ⟨R.CIP_MACSEC i, 29, 29⟩
def CIP_MACSEC_TX_SA (i : Nat) : Fld := ⟨R.CIP_MACSEC i, 15, 0⟩
def CIP_CNT_BLOCKS_LO : Fld := ⟨R.CIP_CNT_BLOCKS_LO, 31, 0⟩
def CIP_CNT_BLOCKS_HI : Fld := ⟨R.CIP_CNT_BLOCKS_HI, 31, 0⟩
def CIP_CNT_XTS_LO : Fld := ⟨R.CIP_CNT_XTS_LO, 31, 0⟩
def CIP_CNT_XTS_HI : Fld := ⟨R.CIP_CNT_XTS_HI, 31, 0⟩
def CIP_CNT_RX_AUTH : Fld := ⟨R.CIP_CNT_RX_AUTH, 31, 0⟩
def CIP_CNT_RX_REPLAY : Fld := ⟨R.CIP_CNT_RX_REPLAY, 31, 0⟩
def CIP_CNT_RX_NOSA : Fld := ⟨R.CIP_CNT_RX_NOSA, 31, 0⟩
def CIP_CNT_RX_UNPROT : Fld := ⟨R.CIP_CNT_RX_UNPROT, 31, 0⟩
def CIP_CNT_TX_EXHAUST : Fld := ⟨R.CIP_CNT_TX_EXHAUST, 31, 0⟩
def CIP_CNT_MISS_DROP : Fld := ⟨R.CIP_CNT_MISS_DROP, 31, 0⟩
def CVU_STATUS_SEQ : Fld := ⟨R.CVU_STATUS, 31, 24⟩
def CVU_STATUS_SEAL_MISMATCH : Fld := ⟨R.CVU_STATUS, 1, 1⟩
def CVU_STATUS_CTX_BUSY : Fld := ⟨R.CVU_STATUS, 0, 0⟩
def CVU_JOB_SRC_LO : Fld := ⟨R.CVU_JOB_SRC_LO, 31, 0⟩
def CVU_JOB_SRC_HI : Fld := ⟨R.CVU_JOB_SRC_HI, 31, 0⟩
def CVU_JOB_LEN_BYTES : Fld := ⟨R.CVU_JOB_LEN, 31, 0⟩
def CVU_JOB_CTRL_GO : Fld := ⟨R.CVU_JOB_CTRL, 31, 31⟩
def CVU_JOB_CTRL_START : Fld := ⟨R.CVU_JOB_CTRL, 30, 30⟩
def CVU_JOB_CTRL_CTX : Fld := ⟨R.CVU_JOB_CTRL, 3, 0⟩
def CVU_JOB_STATUS_SEQ : Fld := ⟨R.CVU_JOB_STATUS, 31, 24⟩
def CVU_JOB_STATUS_RESULT : Fld := ⟨R.CVU_JOB_STATUS, 23, 16⟩
def CVU_JOB_STATUS_ACTIVE : Fld := ⟨R.CVU_JOB_STATUS, 0, 0⟩
def CVU_CTX_CFG_POLY (i : Nat) : Fld := ⟨R.CVU_CTX_CFG i, 2, 1⟩
def CVU_CTX_CFG_FOLD (i : Nat) : Fld := ⟨R.CVU_CTX_CFG i, 0, 0⟩
def CVU_CTX_PREFIX_VALUE (i : Nat) : Fld := ⟨R.CVU_CTX_PREFIX i, 31, 0⟩
def CVU_CTX_VALUE_LO (i : Nat) : Fld := ⟨R.CVU_CTX_VALUE_LO i, 31, 0⟩
def CVU_CTX_VALUE_HI (i : Nat) : Fld := ⟨R.CVU_CTX_VALUE_HI i, 31, 0⟩
def CVU_CTX_RESULT_LO (i : Nat) : Fld := ⟨R.CVU_CTX_RESULT_LO i, 31, 0⟩
def CVU_CTX_RESULT_HI (i : Nat) : Fld := ⟨R.CVU_CTX_RESULT_HI i, 31, 0⟩
def CVU_CNT_BYTES_LO : Fld := ⟨R.CVU_CNT_BYTES_LO, 31, 0⟩
def CVU_CNT_BYTES_HI : Fld := ⟨R.CVU_CNT_BYTES_HI, 31, 0⟩
def DEV_ID_PART : Fld := ⟨R.DEV_ID, 31, 16⟩
def DEV_ID_FAMILY : Fld := ⟨R.DEV_ID, 7, 0⟩
def DEV_REV_DIE_STEP : Fld := ⟨R.DEV_REV, 31, 24⟩
def DEV_REV_MODULE : Fld := ⟨R.DEV_REV, 23, 16⟩
def DEV_STATE_SEQ : Fld := ⟨R.DEV_STATE, 31, 24⟩
def DEV_STATE_FATAL_REASON : Fld := ⟨R.DEV_STATE, 23, 16⟩
def DEV_STATE_SHED_STAGE : Fld := ⟨R.DEV_STATE, 15, 12⟩
def DEV_STATE_LIMITED_CAUSE : Fld := ⟨R.DEV_STATE, 11, 8⟩
def DEV_STATE_CHANGED : Fld := ⟨R.DEV_STATE, 4, 4⟩
def DEV_STATE_STATE : Fld := ⟨R.DEV_STATE, 3, 0⟩
def DEV_FW_VER_MAJOR : Fld := ⟨R.DEV_FW_VER, 31, 24⟩
def DEV_FW_VER_MINOR : Fld := ⟨R.DEV_FW_VER, 23, 16⟩
def DEV_FW_VER_PATCH : Fld := ⟨R.DEV_FW_VER, 15, 0⟩
def DEV_DRV_HELLO_MAJOR (i : Nat) : Fld := ⟨R.DEV_DRV_HELLO i, 31, 24⟩
def DEV_DRV_HELLO_MINOR (i : Nat) : Fld := ⟨R.DEV_DRV_HELLO i, 23, 16⟩
def DEV_DRV_HELLO_RESULT (i : Nat) : Fld := ⟨R.DEV_DRV_HELLO i, 15, 8⟩
def DEV_DRV_HELLO_ANSWERED (i : Nat) : Fld := ⟨R.DEV_DRV_HELLO i, 0, 0⟩
def DEV_LEASE_RENEW (i : Nat) : Fld := ⟨R.DEV_LEASE i, 31, 31⟩
def DEV_LEASE_EXPIRED (i : Nat) : Fld := ⟨R.DEV_LEASE i, 1, 1⟩
def DEV_LEASE_RUNNING (i : Nat) : Fld := ⟨R.DEV_LEASE i, 0, 0⟩
def DEV_LEASE_LIMIT_MS (i : Nat) : Fld := ⟨R.DEV_LEASE_LIMIT i, 15, 0⟩
def DEV_PRIV_PORTS_PORTS : Fld := ⟨R.DEV_PRIV_PORTS, 3, 0⟩
def DEV_SEAL_CFG_HOLD_MS : Fld := ⟨R.DEV_SEAL_CFG, 15, 0⟩
def DEV_SEAL_HOLD_BLOCKS : Fld := ⟨R.DEV_SEAL_HOLD, 18, 0⟩
def DEV_SEAL_SUMMARY_SEQ : Fld := ⟨R.DEV_SEAL_SUMMARY, 31, 24⟩
def DEV_SEAL_SUMMARY_MISMATCH : Fld := ⟨R.DEV_SEAL_SUMMARY, 18, 0⟩
def DEV_VIOL_LAST_MASTER : Fld := ⟨R.DEV_VIOL_LAST, 31, 29⟩
def DEV_VIOL_LAST_KIND : Fld := ⟨R.DEV_VIOL_LAST, 28, 26⟩
def DEV_VIOL_LAST_OFFSET : Fld := ⟨R.DEV_VIOL_LAST, 25, 0⟩
def DEV_CNT_PRIV : Fld := ⟨R.DEV_CNT_PRIV, 31, 0⟩
def DEV_CNT_UNMAPPED : Fld := ⟨R.DEV_CNT_UNMAPPED, 31, 0⟩
def DEV_CNT_PARTIAL : Fld := ⟨R.DEV_CNT_PARTIAL, 31, 0⟩
def DEV_SRAM_STAGE_MIB : Fld := ⟨R.DEV_SRAM_STAGE, 15, 0⟩
def DEV_DRV_WINDOW_LOW_MAJOR : Fld := ⟨R.DEV_DRV_WINDOW, 31, 24⟩
def DEV_DRV_WINDOW_LOW_MINOR : Fld := ⟨R.DEV_DRV_WINDOW, 23, 16⟩
def DEV_DRV_WINDOW_HIGH_MAJOR : Fld := ⟨R.DEV_DRV_WINDOW, 15, 8⟩
def DEV_DRV_WINDOW_HIGH_MINOR : Fld := ⟨R.DEV_DRV_WINDOW, 7, 0⟩
def DEV_SRAM_CE (i : Nat) : Fld := ⟨R.DEV_SRAM i, 31, 16⟩
def DEV_SRAM_UP (i : Nat) : Fld := ⟨R.DEV_SRAM i, 0, 0⟩
def ERR_STATUS_SEQ : Fld := ⟨R.ERR_STATUS, 31, 24⟩
def ERR_STATUS_SEAL_MISMATCH : Fld := ⟨R.ERR_STATUS, 5, 5⟩
def ERR_STATUS_RING_OVERFLOW : Fld := ⟨R.ERR_STATUS, 4, 4⟩
def ERR_STATUS_FATAL : Fld := ⟨R.ERR_STATUS, 3, 3⟩
def ERR_STATUS_DEGRADED : Fld := ⟨R.ERR_STATUS, 2, 2⟩
def ERR_STATUS_CONTAINED : Fld := ⟨R.ERR_STATUS, 1, 1⟩
def ERR_STATUS_CORRECTABLE : Fld := ⟨R.ERR_STATUS, 0, 0⟩
def ERR_RING_BASE_LO_ADDR : Fld := ⟨R.ERR_RING_BASE_LO, 31, 0⟩
def ERR_RING_BASE_HI_ADDR : Fld := ⟨R.ERR_RING_BASE_HI, 31, 0⟩
def ERR_RING_SIZE_ENTRIES : Fld := ⟨R.ERR_RING_SIZE, 16, 0⟩
def ERR_RING_PROD_INDEX : Fld := ⟨R.ERR_RING_PROD, 31, 0⟩
def ERR_RING_CONS_INDEX : Fld := ⟨R.ERR_RING_CONS, 31, 0⟩
def ERR_RING_CTRL_EN : Fld := ⟨R.ERR_RING_CTRL, 31, 31⟩
def ERR_RING_CTRL_CLASS_MASK : Fld := ⟨R.ERR_RING_CTRL, 27, 24⟩
def ERR_RING_CTRL_PORT : Fld := ⟨R.ERR_RING_CTRL, 13, 12⟩
def ERR_RING_CTRL_VECTOR : Fld := ⟨R.ERR_RING_CTRL, 10, 0⟩
def ERR_FATAL_BLOCK : Fld := ⟨R.ERR_FATAL, 23, 16⟩
def ERR_FATAL_REASON : Fld := ⟨R.ERR_FATAL, 15, 0⟩
def ERR_INJECT_GO : Fld := ⟨R.ERR_INJECT, 31, 31⟩
def ERR_INJECT_CLASS : Fld := ⟨R.ERR_INJECT, 17, 16⟩
def ERR_INJECT_BLOCK : Fld := ⟨R.ERR_INJECT, 12, 8⟩
def ERR_INJECT_SLICE : Fld := ⟨R.ERR_INJECT, 7, 0⟩
def ERR_CNT_COUNT (i : Nat) : Fld := ⟨R.ERR_CNT i, 31, 0⟩
def ERR_CNT_LOST_COUNT : Fld := ⟨R.ERR_CNT_LOST, 31, 0⟩
def SLC_STATUS_SEQ : Fld := ⟨R.SLC_STATUS, 31, 24⟩
def SLC_STATUS_CMD_ACTIVE : Fld := ⟨R.SLC_STATUS, 4, 4⟩
def SLC_STATUS_SEAL_MISMATCH : Fld := ⟨R.SLC_STATUS, 3, 3⟩
def SLC_STATUS_RING_LOW : Fld := ⟨R.SLC_STATUS, 2, 2⟩
def SLC_STATUS_CMD_DONE : Fld := ⟨R.SLC_STATUS, 1, 1⟩
def SLC_STATUS_FAULTED : Fld := ⟨R.SLC_STATUS, 0, 0⟩
def SLC_SEL_SLICE : Fld := ⟨R.SLC_SEL, 7, 0⟩
def SLC_CMD_GO : Fld := ⟨R.SLC_CMD, 31, 31⟩
def SLC_CMD_OP : Fld := ⟨R.SLC_CMD, 3, 0⟩
def SLC_CMD_ADDR_LO : Fld := ⟨R.SLC_CMD_ADDR_LO, 31, 0⟩
def SLC_CMD_ADDR_HI : Fld := ⟨R.SLC_CMD_ADDR_HI, 31, 0⟩
def SLC_CMD_RESULT_SEQ : Fld := ⟨R.SLC_CMD_RESULT, 31, 24⟩
def SLC_CMD_RESULT_RESULT : Fld := ⟨R.SLC_CMD_RESULT, 23, 16⟩
def SLC_CMD_RESULT_OP : Fld := ⟨R.SLC_CMD_RESULT, 15, 8⟩
def SLC_CMD_RESULT_SLICE : Fld := ⟨R.SLC_CMD_RESULT, 7, 0⟩
def SLC_RSEL_RING : Fld := ⟨R.SLC_RSEL, 15, 0⟩
def SLC_RING_FREE_RINGS : Fld := ⟨R.SLC_RING_FREE, 16, 0⟩
def SLC_RING_LOW_RINGS : Fld := ⟨R.SLC_RING_LOW, 16, 0⟩
def SLC_RESTORE_NONCE_LO : Fld := ⟨R.SLC_RESTORE_NONCE_LO, 31, 0⟩
def SLC_RESTORE_NONCE_HI : Fld := ⟨R.SLC_RESTORE_NONCE_HI, 31, 0⟩
def SLC_STATE_S0 (i : Nat) : Fld := ⟨R.SLC_STATE i, 3, 0⟩
def SLC_STATE_S1 (i : Nat) : Fld := ⟨R.SLC_STATE i, 7, 4⟩
def SLC_STATE_S2 (i : Nat) : Fld := ⟨R.SLC_STATE i, 11, 8⟩
def SLC_STATE_S3 (i : Nat) : Fld := ⟨R.SLC_STATE i, 15, 12⟩
def SLC_STATE_S4 (i : Nat) : Fld := ⟨R.SLC_STATE i, 19, 16⟩
def SLC_STATE_S5 (i : Nat) : Fld := ⟨R.SLC_STATE i, 23, 20⟩
def SLC_STATE_S6 (i : Nat) : Fld := ⟨R.SLC_STATE i, 27, 24⟩
def SLC_STATE_S7 (i : Nat) : Fld := ⟨R.SLC_STATE i, 31, 28⟩
def SLC_ENTRY_DATA (i : Nat) : Fld := ⟨R.SLC_ENTRY i, 31, 0⟩
def SLC_RING_DATA (i : Nat) : Fld := ⟨R.SLC_RING i, 31, 0⟩
def SLC_CNT_DOORBELL_LO : Fld := ⟨R.SLC_CNT_DOORBELL_LO, 31, 0⟩
def SLC_CNT_DOORBELL_HI : Fld := ⟨R.SLC_CNT_DOORBELL_HI, 31, 0⟩
def SLC_CNT_CLASP_WAIT : Fld := ⟨R.SLC_CNT_CLASP_WAIT, 31, 0⟩
def SLC_CNT_CLASP_TIMEOUT : Fld := ⟨R.SLC_CNT_CLASP_TIMEOUT, 31, 0⟩
def SLC_CNT_BUSY : Fld := ⟨R.SLC_CNT_BUSY, 31, 0⟩
def HST_STATUS_SEQ : Fld := ⟨R.HST_STATUS, 31, 24⟩
def HST_STATUS_SEAL_MISMATCH : Fld := ⟨R.HST_STATUS, 5, 5⟩
def HST_STATUS_ACCESS_FAULT : Fld := ⟨R.HST_STATUS, 4, 4⟩
def HST_STATUS_UNEXP : Fld := ⟨R.HST_STATUS, 3, 3⟩
def HST_STATUS_CTO : Fld := ⟨R.HST_STATUS, 2, 2⟩
def HST_STATUS_FLR : Fld := ⟨R.HST_STATUS, 1, 1⟩
def HST_STATUS_LINK : Fld := ⟨R.HST_STATUS, 0, 0⟩
def HST_APPLY_STATUS_LPM : Fld := ⟨R.HST_APPLY_STATUS, 0, 0⟩
def HST_LINK_H1_STATE (i : Nat) : Fld := ⟨R.HST_LINK i, 31, 30⟩
def HST_LINK_H1_WIDTH (i : Nat) : Fld := ⟨R.HST_LINK i, 29, 24⟩
def HST_LINK_H1_RATE (i : Nat) : Fld := ⟨R.HST_LINK i, 23, 20⟩
def HST_LINK_H1_FLIT (i : Nat) : Fld := ⟨R.HST_LINK i, 19, 19⟩
def HST_LINK_H1_LPM (i : Nat) : Fld := ⟨R.HST_LINK i, 18, 17⟩
def HST_LINK_H0_STATE (i : Nat) : Fld := ⟨R.HST_LINK i, 15, 14⟩
def HST_LINK_H0_WIDTH (i : Nat) : Fld := ⟨R.HST_LINK i, 13, 8⟩
def HST_LINK_H0_RATE (i : Nat) : Fld := ⟨R.HST_LINK i, 7, 4⟩
def HST_LINK_H0_FLIT (i : Nat) : Fld := ⟨R.HST_LINK i, 3, 3⟩
def HST_LINK_H0_LPM (i : Nat) : Fld := ⟨R.HST_LINK i, 2, 1⟩
def HST_FUNC_H1_FLR (i : Nat) : Fld := ⟨R.HST_FUNC i, 9, 9⟩
def HST_FUNC_H1_BME (i : Nat) : Fld := ⟨R.HST_FUNC i, 8, 8⟩
def HST_FUNC_H1_ATS (i : Nat) : Fld := ⟨R.HST_FUNC i, 7, 7⟩
def HST_FUNC_PF1_FLR (i : Nat) : Fld := ⟨R.HST_FUNC i, 6, 6⟩
def HST_FUNC_PF1_BME (i : Nat) : Fld := ⟨R.HST_FUNC i, 5, 5⟩
def HST_FUNC_PF1_ATS (i : Nat) : Fld := ⟨R.HST_FUNC i, 4, 4⟩
def HST_FUNC_PF0_FLR (i : Nat) : Fld := ⟨R.HST_FUNC i, 3, 3⟩
def HST_FUNC_PF0_BME (i : Nat) : Fld := ⟨R.HST_FUNC i, 2, 2⟩
def HST_FUNC_PF0_IRQ (i : Nat) : Fld := ⟨R.HST_FUNC i, 1, 0⟩
def HST_LPM_FLIGHT_HOLD (i : Nat) : Fld := ⟨R.HST_LPM i, 31, 31⟩
def HST_LPM_L1_IDLE_US (i : Nat) : Fld := ⟨R.HST_LPM i, 30, 16⟩
def HST_LPM_L0P_IDLE_US (i : Nat) : Fld := ⟨R.HST_LPM i, 15, 0⟩
def HST_CTO_H1_ENC (i : Nat) : Fld := ⟨R.HST_CTO i, 11, 8⟩
def HST_CTO_PF1_ENC (i : Nat) : Fld := ⟨R.HST_CTO i, 7, 4⟩
def HST_CTO_PF0_ENC (i : Nat) : Fld := ⟨R.HST_CTO i, 3, 0⟩
def HST_ATS_INVAL_PENDING (i : Nat) : Fld := ⟨R.HST_ATS i, 21, 16⟩
def HST_ATS_VALID (i : Nat) : Fld := ⟨R.HST_ATS i, 13, 0⟩
def HST_INTX_SEL_PORT : Fld := ⟨R.HST_INTX_SEL, 9, 8⟩
def HST_INTX_SEL_GROUP : Fld := ⟨R.HST_INTX_SEL, 5, 0⟩
def HST_INTX_SUM0_GROUPS : Fld := ⟨R.HST_INTX_SUM0, 31, 0⟩
def HST_INTX_SUM1_GROUPS : Fld := ⟨R.HST_INTX_SUM1, 31, 0⟩
def HST_INTX_PEND_VECTORS : Fld := ⟨R.HST_INTX_PEND, 31, 0⟩
def HST_INTX_ACK_PORT : Fld := ⟨R.HST_INTX_ACK, 12, 11⟩
def HST_INTX_ACK_VECTOR : Fld := ⟨R.HST_INTX_ACK, 10, 0⟩
def HST_CNT_CTO_COUNT (i : Nat) : Fld := ⟨R.HST_CNT_CTO i, 31, 0⟩
def HST_CNT_UNEXP_COUNT (i : Nat) : Fld := ⟨R.HST_CNT_UNEXP i, 31, 0⟩
def HST_CNT_DISCARD_COUNT (i : Nat) : Fld := ⟨R.HST_CNT_DISCARD i, 31, 0⟩
def HST_CNT_INVAL_COUNT (i : Nat) : Fld := ⟨R.HST_CNT_INVAL i, 31, 0⟩
def STW_STATUS_SEQ : Fld := ⟨R.STW_STATUS, 31, 24⟩
def STW_STATUS_SEAL_MISMATCH : Fld := ⟨R.STW_STATUS, 5, 5⟩
def STW_STATUS_FW_DONE : Fld := ⟨R.STW_STATUS, 4, 4⟩
def STW_STATUS_CORE_HELD : Fld := ⟨R.STW_STATUS, 3, 3⟩
def STW_STATUS_CORE_RESTART : Fld := ⟨R.STW_STATUS, 2, 2⟩
def STW_STATUS_HELLO_REFUSED : Fld := ⟨R.STW_STATUS, 1, 1⟩
def STW_STATUS_LOG_DONE : Fld := ⟨R.STW_STATUS, 0, 0⟩
def STW_APPLY_STATUS_WDOG : Fld := ⟨R.STW_APPLY_STATUS, 0, 0⟩
def STW_FW_CMD_WINGS : Fld := ⟨R.STW_FW_CMD, 11, 8⟩
def STW_FW_CMD_SLOT : Fld := ⟨R.STW_FW_CMD, 4, 4⟩
def STW_FW_CMD_OPCODE : Fld := ⟨R.STW_FW_CMD, 3, 0⟩
def STW_FW_RESULT_SEQ : Fld := ⟨R.STW_FW_RESULT, 31, 24⟩
def STW_FW_RESULT_RESULT : Fld := ⟨R.STW_FW_RESULT, 23, 16⟩
def STW_FW_RESULT_PHASE : Fld := ⟨R.STW_FW_RESULT, 7, 4⟩
def STW_FW_RESULT_WING : Fld := ⟨R.STW_FW_RESULT, 3, 0⟩
def STW_FW_SRC_LO : Fld := ⟨R.STW_FW_SRC_LO, 31, 0⟩
def STW_FW_SRC_HI : Fld := ⟨R.STW_FW_SRC_HI, 31, 0⟩
def STW_FW_LEN_BYTES : Fld := ⟨R.STW_FW_LEN, 31, 0⟩
def STW_FW_BOOT_B_VALID : Fld := ⟨R.STW_FW_BOOT, 2, 2⟩
def STW_FW_BOOT_A_VALID : Fld := ⟨R.STW_FW_BOOT, 1, 1⟩
def STW_FW_BOOT_SLOT : Fld := ⟨R.STW_FW_BOOT, 0, 0⟩
def STW_WING_VER_MAJOR (i : Nat) : Fld := ⟨R.STW_WING_VER i, 31, 24⟩
def STW_WING_VER_MINOR (i : Nat) : Fld := ⟨R.STW_WING_VER i, 23, 16⟩
def STW_WING_VER_PATCH (i : Nat) : Fld := ⟨R.STW_WING_VER i, 15, 0⟩
def STW_WING_STATE_SLOT (i : Nat) : Fld := ⟨R.STW_WING_STATE i, 31, 31⟩
def STW_WING_STATE_DRAINING (i : Nat) : Fld := ⟨R.STW_WING_STATE i, 30, 30⟩
def STW_WING_STATE_HELD (i : Nat) : Fld := ⟨R.STW_WING_STATE i, 7, 0⟩
def STW_CORE_STATE (i : Nat) : Fld := ⟨R.STW_CORE i, 31, 28⟩
def STW_CORE_CRASHES (i : Nat) : Fld := ⟨R.STW_CORE i, 27, 24⟩
def STW_CORE_LAST_CAUSE (i : Nat) : Fld := ⟨R.STW_CORE i, 23, 16⟩
def STW_CORE_SERVICES (i : Nat) : Fld := ⟨R.STW_CORE i, 15, 0⟩
def STW_WDOG_MS (i : Nat) : Fld := ⟨R.STW_WDOG i, 9, 0⟩
def STW_CORE_CTRL_GO : Fld := ⟨R.STW_CORE_CTRL, 31, 31⟩
def STW_CORE_CTRL_OP : Fld := ⟨R.STW_CORE_CTRL, 30, 28⟩
def STW_CORE_CTRL_CORE : Fld := ⟨R.STW_CORE_CTRL, 4, 0⟩
def STW_TRACE_EN_EN (i : Nat) : Fld := ⟨R.STW_TRACE_EN i, 31, 0⟩
def STW_LOG_CTRL_GO : Fld := ⟨R.STW_LOG_CTRL, 31, 31⟩
def STW_LOG_CTRL_WING : Fld := ⟨R.STW_LOG_CTRL, 17, 16⟩
def STW_LOG_CTRL_COUNT : Fld := ⟨R.STW_LOG_CTRL, 15, 0⟩
def STW_LOG_ADDR_LO : Fld := ⟨R.STW_LOG_ADDR_LO, 31, 0⟩
def STW_LOG_ADDR_HI : Fld := ⟨R.STW_LOG_ADDR_HI, 31, 0⟩
def STW_LOG_START_SEQ : Fld := ⟨R.STW_LOG_START, 31, 0⟩
def STW_LOG_RESULT_SEQ : Fld := ⟨R.STW_LOG_RESULT, 31, 24⟩
def STW_LOG_RESULT_RESULT : Fld := ⟨R.STW_LOG_RESULT, 23, 16⟩
def STW_LOG_RESULT_ACTIVE : Fld := ⟨R.STW_LOG_RESULT, 0, 0⟩
def STW_LOG_FIRST_SEQ : Fld := ⟨R.STW_LOG_FIRST, 31, 0⟩
def STW_LOG_COPIED_RECORDS : Fld := ⟨R.STW_LOG_COPIED, 16, 0⟩
def STW_LOG_HEAD_SEQ (i : Nat) : Fld := ⟨R.STW_LOG_HEAD i, 31, 0⟩
def STW_LOG_SIZE_RECORDS (i : Nat) : Fld := ⟨R.STW_LOG_SIZE i, 20, 0⟩
def STW_TEL_CTRL_EN : Fld := ⟨R.STW_TEL_CTRL, 31, 31⟩
def STW_TEL_CTRL_PERIOD_MS : Fld := ⟨R.STW_TEL_CTRL, 27, 16⟩
def STW_TEL_CTRL_RING : Fld := ⟨R.STW_TEL_CTRL, 15, 0⟩
def STW_CNT_RESTART : Fld := ⟨R.STW_CNT_RESTART, 31, 0⟩
def STW_CNT_REEXEC : Fld := ⟨R.STW_CNT_REEXEC, 31, 0⟩
def STW_CNT_DUP_CPL : Fld := ⟨R.STW_CNT_DUP_CPL, 31, 0⟩
def STW_CNT_TRACE_SHED : Fld := ⟨R.STW_CNT_TRACE_SHED, 31, 0⟩
def STW_CNT_TEL_DROP_COUNT : Fld := ⟨R.STW_CNT_TEL_DROP, 31, 0⟩
def SIG_STATUS_SEQ : Fld := ⟨R.SIG_STATUS, 31, 24⟩
def SIG_STATUS_SEAL_MISMATCH : Fld := ⟨R.SIG_STATUS, 6, 6⟩
def SIG_STATUS_LMS_FAULT : Fld := ⟨R.SIG_STATUS, 5, 5⟩
def SIG_STATUS_DEBUG_UNLOCKED : Fld := ⟨R.SIG_STATUS, 4, 4⟩
def SIG_STATUS_LMS_EXHAUSTED : Fld := ⟨R.SIG_STATUS, 3, 3⟩
def SIG_STATUS_LMS_WARN : Fld := ⟨R.SIG_STATUS, 2, 2⟩
def SIG_STATUS_LKEY_DONE : Fld := ⟨R.SIG_STATUS, 1, 1⟩
def SIG_STATUS_VERIFY_FAIL : Fld := ⟨R.SIG_STATUS, 0, 0⟩
def SIG_BOOT_INFO_ROM_VER : Fld := ⟨R.SIG_BOOT_INFO, 31, 24⟩
def SIG_BOOT_INFO_STAGE1_NOR : Fld := ⟨R.SIG_BOOT_INFO, 16, 16⟩
def SIG_BOOT_INFO_STAGE1_SVN : Fld := ⟨R.SIG_BOOT_INFO, 15, 0⟩
def SIG_SVN_SVN : Fld := ⟨R.SIG_SVN, 15, 0⟩
def SIG_SVN_COMMIT_GO : Fld := ⟨R.SIG_SVN_COMMIT, 31, 31⟩
def SIG_CFG_MCTP_EN : Fld := ⟨R.SIG_CFG, 4, 4⟩
def SIG_CFG_DOE_EN : Fld := ⟨R.SIG_CFG, 3, 0⟩
def SIG_LMS_USED_LEAVES : Fld := ⟨R.SIG_LMS_USED, 25, 0⟩
def SIG_MR_SEL_MR : Fld := ⟨R.SIG_MR_SEL, 3, 0⟩
def SIG_MR_DATA_DATA (i : Nat) : Fld := ⟨R.SIG_MR_DATA i, 31, 0⟩
def SIG_MR_COUNT_EXTENDS : Fld := ⟨R.SIG_MR_COUNT, 31, 0⟩
def SIG_LKEY_CMD_GO : Fld := ⟨R.SIG_LKEY_CMD, 31, 31⟩
def SIG_LKEY_CMD_OP : Fld := ⟨R.SIG_LKEY_CMD, 1, 0⟩
def SIG_LKEY_RESULT_SEQ : Fld := ⟨R.SIG_LKEY_RESULT, 31, 24⟩
def SIG_LKEY_RESULT_RESULT : Fld := ⟨R.SIG_LKEY_RESULT, 23, 16⟩
def SIG_LKEY_RESULT_PRESENT : Fld := ⟨R.SIG_LKEY_RESULT, 0, 0⟩
def SIG_LKEY_ID_LO : Fld := ⟨R.SIG_LKEY_ID_LO, 31, 0⟩
def SIG_LKEY_ID_HI : Fld := ⟨R.SIG_LKEY_ID_HI, 31, 0⟩
def SIG_DBG_NONCE_LO : Fld := ⟨R.SIG_DBG_NONCE_LO, 31, 0⟩
def SIG_DBG_NONCE_HI : Fld := ⟨R.SIG_DBG_NONCE_HI, 31, 0⟩
def SIG_DBG_CMD_GO : Fld := ⟨R.SIG_DBG_CMD, 31, 31⟩
def SIG_DBG_RESULT_SEQ : Fld := ⟨R.SIG_DBG_RESULT, 31, 24⟩
def SIG_DBG_RESULT_RESULT : Fld := ⟨R.SIG_DBG_RESULT, 23, 16⟩
def SIG_DBG_RESULT_LEVEL : Fld := ⟨R.SIG_DBG_RESULT, 1, 0⟩
def SIG_DBG_SRC_LO : Fld := ⟨R.SIG_DBG_SRC_LO, 31, 0⟩
def SIG_DBG_SRC_HI : Fld := ⟨R.SIG_DBG_SRC_HI, 31, 0⟩
def SIG_LKEY_BLOB_DATA (i : Nat) : Fld := ⟨R.SIG_LKEY_BLOB i, 31, 0⟩
def PWR_STATUS_SEQ : Fld := ⟨R.PWR_STATUS, 31, 24⟩
def PWR_STATUS_SEAL_MISMATCH : Fld := ⟨R.PWR_STATUS, 6, 6⟩
def PWR_STATUS_CFG_REFUSED : Fld := ⟨R.PWR_STATUS, 5, 5⟩
def PWR_STATUS_OVERRUN : Fld := ⟨R.PWR_STATUS, 4, 4⟩
def PWR_STATUS_CLAMP : Fld := ⟨R.PWR_STATUS, 3, 3⟩
def PWR_STATUS_STAGE : Fld := ⟨R.PWR_STATUS, 2, 2⟩
def PWR_STATUS_SAVE_DONE : Fld := ⟨R.PWR_STATUS, 1, 1⟩
def PWR_STATUS_EVENT : Fld := ⟨R.PWR_STATUS, 0, 0⟩
def PWR_APPLY_STATUS_ENG : Fld := ⟨R.PWR_APPLY_STATUS, 1, 1⟩
def PWR_APPLY_STATUS_RESERVE : Fld := ⟨R.PWR_APPLY_STATUS, 0, 0⟩
def PWR_STATE_STATE : Fld := ⟨R.PWR_STATE, 31, 28⟩
def PWR_STATE_SHED_STAGE : Fld := ⟨R.PWR_STATE, 27, 24⟩
def PWR_CAP_W : Fld := ⟨R.PWR_CAP, 9, 0⟩
def PWR_ILIM_A : Fld := ⟨R.PWR_ILIM, 7, 0⟩
def PWR_SHED_A_STAGE1 : Fld := ⟨R.PWR_SHED_A, 31, 16⟩
def PWR_SHED_A_STAGE2 : Fld := ⟨R.PWR_SHED_A, 15, 0⟩
def PWR_SHED_B_STAGE3 : Fld := ⟨R.PWR_SHED_B, 31, 16⟩
def PWR_SHED_B_STAGE4 : Fld := ⟨R.PWR_SHED_B, 15, 0⟩
def PWR_SHED_C_HYST : Fld := ⟨R.PWR_SHED_C, 31, 16⟩
def PWR_SHED_C_STAGE5 : Fld := ⟨R.PWR_SHED_C, 15, 0⟩
def PWR_RESERVE_UJ : Fld := ⟨R.PWR_RESERVE, 31, 0⟩
def PWR_INPUT_MV : Fld := ⟨R.PWR_INPUT, 31, 16⟩
def PWR_INPUT_MA : Fld := ⟨R.PWR_INPUT, 15, 0⟩
def PWR_EPOCH_CAP_MJ : Fld := ⟨R.PWR_EPOCH, 31, 16⟩
def PWR_EPOCH_MEAS_MJ : Fld := ⟨R.PWR_EPOCH, 15, 0⟩
def PWR_EPOCH_COUNT_COUNT : Fld := ⟨R.PWR_EPOCH_COUNT, 31, 0⟩
def PWR_DOM_ON_LO_ON : Fld := ⟨R.PWR_DOM_ON_LO, 31, 0⟩
def PWR_DOM_ON_HI_ON : Fld := ⟨R.PWR_DOM_ON_HI, 3, 0⟩
def PWR_RESET_CMD_GO : Fld := ⟨R.PWR_RESET_CMD, 31, 31⟩
def PWR_RESET_CMD_KIND : Fld := ⟨R.PWR_RESET_CMD, 1, 0⟩
def PWR_LAST_RESET_KIND : Fld := ⟨R.PWR_LAST_RESET, 31, 28⟩
def PWR_LAST_RESET_SOURCE : Fld := ⟨R.PWR_LAST_RESET, 27, 24⟩
def PWR_EVENT_SEQ : Fld := ⟨R.PWR_EVENT, 31, 24⟩
def PWR_EVENT_KIND : Fld := ⟨R.PWR_EVENT, 23, 16⟩
def PWR_EVENT_MIN_V : Fld := ⟨R.PWR_EVENT, 15, 0⟩
def PWR_ENG_BUDGET_UJ (i : Nat) : Fld := ⟨R.PWR_ENG_BUDGET i, 31, 0⟩
def PWR_ENG_LAST_UJ (i : Nat) : Fld := ⟨R.PWR_ENG_LAST i, 31, 0⟩
def PWR_CNT_DEFER_COUNT : Fld := ⟨R.PWR_CNT_DEFER, 31, 0⟩
def PWR_CNT_CLAMP_COUNT : Fld := ⟨R.PWR_CNT_CLAMP, 31, 0⟩
def PWR_CNT_OVERRUN_COUNT : Fld := ⟨R.PWR_CNT_OVERRUN, 31, 0⟩
def PWR_CNT_BROWNOUT_COUNT : Fld := ⟨R.PWR_CNT_BROWNOUT, 31, 0⟩
def ETH_STATUS_SEQ : Fld := ⟨R.ETH_STATUS, 31, 24⟩
def ETH_STATUS_SEAL_MISMATCH : Fld := ⟨R.ETH_STATUS, 3, 3⟩
def ETH_STATUS_GROUP_DISABLED : Fld := ⟨R.ETH_STATUS, 2, 2⟩
def ETH_STATUS_LANE_LOST : Fld := ⟨R.ETH_STATUS, 1, 1⟩
def ETH_STATUS_RETRAIN_DONE : Fld := ⟨R.ETH_STATUS, 0, 0⟩
def ETH_APPLY_STATUS_CFG : Fld := ⟨R.ETH_APPLY_STATUS, 3, 0⟩
def ETH_RETRAIN_GO : Fld := ⟨R.ETH_RETRAIN, 31, 31⟩
def ETH_RETRAIN_GROUP : Fld := ⟨R.ETH_RETRAIN, 1, 0⟩
def ETH_RETRAIN_STATUS_SEQ : Fld := ⟨R.ETH_RETRAIN_STATUS, 31, 24⟩
def ETH_RETRAIN_STATUS_RESULT : Fld := ⟨R.ETH_RETRAIN_STATUS, 23, 16⟩
def ETH_RETRAIN_STATUS_ACTIVE : Fld := ⟨R.ETH_RETRAIN_STATUS, 2, 2⟩
def ETH_RETRAIN_STATUS_GROUP : Fld := ⟨R.ETH_RETRAIN_STATUS, 1, 0⟩
def ETH_GROUP_STATE_STATE (i : Nat) : Fld := ⟨R.ETH_GROUP_STATE i, 31, 30⟩
def ETH_GROUP_STATE_MODE (i : Nat) : Fld := ⟨R.ETH_GROUP_STATE i, 29, 28⟩
def ETH_GROUP_STATE_WORKING (i : Nat) : Fld := ⟨R.ETH_GROUP_STATE i, 23, 16⟩
def ETH_GROUP_STATE_PORT_LANES (i : Nat) : Fld := ⟨R.ETH_GROUP_STATE i, 15, 0⟩
def ETH_GROUP_CFG_LANE_EN (i : Nat) : Fld := ⟨R.ETH_GROUP_CFG i, 15, 8⟩
def ETH_GROUP_CFG_TX_PRESET (i : Nat) : Fld := ⟨R.ETH_GROUP_CFG i, 3, 0⟩
def ETH_LANE_UP (i : Nat) : Fld := ⟨R.ETH_LANE i, 31, 31⟩
def ETH_LANE_SNR (i : Nat) : Fld := ⟨R.ETH_LANE i, 23, 16⟩
def ETH_LANE_CORR_SYM (i : Nat) : Fld := ⟨R.ETH_LANE i, 15, 0⟩
def ETH_CNT_FEC_CORR_LO (i : Nat) : Fld := ⟨R.ETH_CNT_FEC_CORR_LO i, 31, 0⟩
def ETH_CNT_FEC_CORR_HI (i : Nat) : Fld := ⟨R.ETH_CNT_FEC_CORR_HI i, 31, 0⟩
def ETH_CNT_FEC_UNCORR (i : Nat) : Fld := ⟨R.ETH_CNT_FEC_UNCORR i, 31, 0⟩
def ETH_CNT_FCS (i : Nat) : Fld := ⟨R.ETH_CNT_FCS i, 31, 0⟩
def ETH_CNT_LANE_LOST : Fld := ⟨R.ETH_CNT_LANE_LOST, 31, 0⟩
def ETH_CNT_RETRAIN : Fld := ⟨R.ETH_CNT_RETRAIN, 31, 0⟩

end F


/-- Register rows of DEV (R272), part 0. -/
def rowsDEV0 : List RegRow := [
  ⟨0x0, 1, 4, false, [⟨31, 16, .ro, 0x9600, false⟩, ⟨15, 8, .resv, 0x0, false⟩, ⟨7, 0, .ro, 0x54, false⟩]⟩,
  ⟨0x4, 1, 4, false, [⟨31, 24, .ro, 0xA0, false⟩, ⟨23, 16, .ro, 0x1, false⟩, ⟨15, 0, .resv, 0x0, false⟩]⟩,
  ⟨0x8, 1, 4, false, [⟨31, 24, .sqc, 0x0, false⟩, ⟨23, 16, .ro, 0x0, false⟩, ⟨15, 12, .ro, 0x0, false⟩, ⟨11, 8, .ro, 0x0, false⟩, ⟨7, 5, .resv, 0x0, false⟩, ⟨4, 4, .sqc, 0x0, false⟩, ⟨3, 0, .ro, 0x2, false⟩]⟩,
  ⟨0xC, 1, 4, false, [⟨31, 24, .ro, 0x0, false⟩, ⟨23, 16, .ro, 0x0, false⟩, ⟨15, 0, .ro, 0x0, false⟩]⟩,
  ⟨0x10, 4, 4, false, [⟨31, 24, .rw, 0x0, false⟩, ⟨23, 16, .rw, 0x0, false⟩, ⟨15, 8, .ro, 0x0, false⟩, ⟨7, 1, .resv, 0x0, false⟩, ⟨0, 0, .ro, 0x0, false⟩]⟩,
  ⟨0x20, 4, 4, false, [⟨31, 31, .wo, 0x0, false⟩, ⟨30, 2, .resv, 0x0, false⟩, ⟨1, 1, .ro, 0x0, false⟩, ⟨0, 0, .ro, 0x0, false⟩]⟩,
  ⟨0x30, 4, 4, false, [⟨31, 16, .resv, 0x0, false⟩, ⟨15, 0, .prw, 0x7D0, false⟩]⟩,
  ⟨0x40, 1, 4, false, [⟨31, 4, .resv, 0x0, false⟩, ⟨3, 0, .prw, 0x0, true⟩]⟩,
  ⟨0x44, 1, 4, false, [⟨31, 16, .resv, 0x0, false⟩, ⟨15, 0, .rw, 0x64, false⟩]⟩,
  ⟨0x48, 1, 4, false, [⟨31, 19, .resv, 0x0, false⟩, ⟨18, 0, .ro, 0x7FFFF, false⟩]⟩,
  ⟨0x4C, 1, 4, false, [⟨31, 24, .sqc, 0x0, false⟩, ⟨23, 19, .resv, 0x0, false⟩, ⟨18, 0, .sqc, 0x0, false⟩]⟩,
  ⟨0x50, 1, 4, false, [⟨31, 29, .ro, 0x0, false⟩, ⟨28, 26, .ro, 0x0, false⟩, ⟨25, 0, .ro, 0x0, false⟩]⟩]

/-- Register rows of DEV (R272), part 1. -/
def rowsDEV1 : List RegRow := [
  ⟨0x54, 1, 4, false, [⟨31, 0, .ro, 0x0, false⟩]⟩,
  ⟨0x58, 1, 4, false, [⟨31, 0, .ro, 0x0, false⟩]⟩,
  ⟨0x5C, 1, 4, false, [⟨31, 0, .ro, 0x0, false⟩]⟩,
  ⟨0x60, 1, 4, false, [⟨31, 16, .resv, 0x0, false⟩, ⟨15, 0, .ro, 0x0, true⟩]⟩,
  ⟨0x64, 1, 4, false, [⟨31, 24, .ro, 0x0, false⟩, ⟨23, 16, .ro, 0x0, false⟩, ⟨15, 8, .ro, 0x0, false⟩, ⟨7, 0, .ro, 0x0, false⟩]⟩,
  ⟨0x80, 4, 4, false, [⟨31, 16, .ro, 0x0, false⟩, ⟨15, 1, .resv, 0x0, false⟩, ⟨0, 0, .ro, 0x0, false⟩]⟩,
  ⟨0x3F0, 1, 4, false, [⟨31, 0, .ro, 0x0, false⟩]⟩,
  ⟨0x3F4, 1, 4, false, [⟨31, 0, .rw, 0x0, false⟩]⟩]

/-- Every register of DEV (R272). -/
def rowsDEV : List RegRow := rowsDEV0 ++ rowsDEV1

/-- Register rows of SIG (R349), part 0. -/
def rowsSIG0 : List RegRow := [
  ⟨0x10000, 1, 4, false, [⟨31, 24, .sqc, 0x0, false⟩, ⟨23, 7, .resv, 0x0, false⟩, ⟨6, 6, .sqc, 0x0, false⟩, ⟨5, 5, .sqc, 0x0, false⟩, ⟨4, 4, .sqc, 0x0, false⟩, ⟨3, 3, .sqc, 0x0, false⟩, ⟨2, 2, .sqc, 0x0, false⟩, ⟨1, 1, .sqc, 0x0, false⟩, ⟨0, 0, .sqc, 0x0, false⟩]⟩,
  ⟨0x10004, 1, 4, false, [⟨31, 24, .ro, 0x0, false⟩, ⟨23, 17, .resv, 0x0, false⟩, ⟨16, 16, .ro, 0x0, false⟩, ⟨15, 0, .ro, 0x0, false⟩]⟩,
  ⟨0x10008, 1, 4, false, [⟨31, 16, .resv, 0x0, false⟩, ⟨15, 0, .ro, 0x0, false⟩]⟩,
  ⟨0x1000C, 1, 4, false, [⟨31, 31, .prw, 0x0, false⟩, ⟨30, 0, .resv, 0x0, false⟩]⟩,
  ⟨0x10010, 1, 4, false, [⟨31, 5, .resv, 0x0, false⟩, ⟨4, 4, .prw, 0x1, false⟩, ⟨3, 0, .prw, 0xF, false⟩]⟩,
  ⟨0x10014, 1, 4, false, [⟨31, 26, .resv, 0x0, false⟩, ⟨25, 0, .ro, 0x0, false⟩]⟩,
  ⟨0x10020, 1, 4, false, [⟨31, 4, .resv, 0x0, false⟩, ⟨3, 0, .rw, 0x0, false⟩]⟩,
  ⟨0x10024, 12, 4, false, [⟨31, 0, .ro, 0x0, false⟩]⟩,
  ⟨0x10054, 1, 4, false, [⟨31, 0, .ro, 0x0, false⟩]⟩,
  ⟨0x10060, 1, 4, false, [⟨31, 31, .prw, 0x0, false⟩, ⟨30, 2, .resv, 0x0, false⟩, ⟨1, 0, .prw, 0x0, false⟩]⟩,
  ⟨0x10064, 1, 4, false, [⟨31, 24, .sqc, 0x0, false⟩, ⟨23, 16, .sqc, 0x0, false⟩, ⟨15, 1, .resv, 0x0, false⟩, ⟨0, 0, .ro, 0x0, false⟩]⟩,
  ⟨0x10068, 1, 4, false, [⟨31, 0, .ro, 0x0, false⟩]⟩]

/-- Register rows of SIG (R349), part 1. -/
def rowsSIG1 : List RegRow := [
  ⟨0x1006C, 1, 4, false, [⟨31, 0, .ro, 0x0, false⟩]⟩,
  ⟨0x10070, 1, 4, false, [⟨31, 0, .ro, 0x0, false⟩]⟩,
  ⟨0x10074, 1, 4, false, [⟨31, 0, .ro, 0x0, false⟩]⟩,
  ⟨0x10078, 1, 4, false, [⟨31, 31, .prw, 0x0, false⟩, ⟨30, 0, .resv, 0x0, false⟩]⟩,
  ⟨0x1007C, 1, 4, false, [⟨31, 24, .sqc, 0x0, false⟩, ⟨23, 16, .sqc, 0x0, false⟩, ⟨15, 2, .resv, 0x0, false⟩, ⟨1, 0, .ro, 0x0, false⟩]⟩,
  ⟨0x10080, 1, 4, false, [⟨31, 0, .prw, 0x0, false⟩]⟩,
  ⟨0x10084, 1, 4, false, [⟨31, 0, .prw, 0x0, false⟩]⟩,
  ⟨0x10100, 40, 4, false, [⟨31, 0, .prw, 0x0, false⟩]⟩,
  ⟨0x103F0, 1, 4, false, [⟨31, 0, .ro, 0x0, false⟩]⟩,
  ⟨0x103F4, 1, 4, false, [⟨31, 0, .rw, 0x0, false⟩]⟩]

/-- Every register of SIG (R349). -/
def rowsSIG : List RegRow := rowsSIG0 ++ rowsSIG1

/-- Register rows of PWR (R367), part 0. -/
def rowsPWR0 : List RegRow := [
  ⟨0x20000, 1, 4, false, [⟨31, 24, .sqc, 0x0, false⟩, ⟨23, 7, .resv, 0x0, false⟩, ⟨6, 6, .sqc, 0x0, false⟩, ⟨5, 5, .sqc, 0x0, false⟩, ⟨4, 4, .sqc, 0x0, false⟩, ⟨3, 3, .sqc, 0x0, false⟩, ⟨2, 2, .sqc, 0x0, false⟩, ⟨1, 1, .sqc, 0x0, false⟩, ⟨0, 0, .sqc, 0x0, false⟩]⟩,
  ⟨0x20004, 1, 4, false, [⟨31, 2, .resv, 0x0, false⟩, ⟨1, 1, .ro, 0x0, false⟩, ⟨0, 0, .ro, 0x0, false⟩]⟩,
  ⟨0x20008, 1, 4, false, [⟨31, 28, .ro, 0x2, false⟩, ⟨27, 24, .ro, 0x0, false⟩, ⟨23, 0, .resv, 0x0, false⟩]⟩,
  ⟨0x2000C, 1, 4, false, [⟨31, 10, .resv, 0x0, false⟩, ⟨9, 0, .prw, 0x28A, false⟩]⟩,
  ⟨0x20010, 1, 4, false, [⟨31, 8, .resv, 0x0, false⟩, ⟨7, 0, .prw, 0x8C, false⟩]⟩,
  ⟨0x20014, 1, 4, false, [⟨31, 16, .prw, 0x208, false⟩, ⟨15, 0, .prw, 0x1F4, false⟩]⟩,
  ⟨0x20018, 1, 4, false, [⟨31, 16, .prw, 0x1E0, false⟩, ⟨15, 0, .prw, 0x1CC, false⟩]⟩,
  ⟨0x2001C, 1, 4, false, [⟨31, 16, .prw, 0xA, false⟩, ⟨15, 0, .prw, 0x1B8, false⟩]⟩,
  ⟨0x20020, 1, 4, false, [⟨31, 0, .rwb, 0x0, true⟩]⟩,
  ⟨0x20024, 1, 4, false, [⟨31, 16, .ro, 0x0, false⟩, ⟨15, 0, .ro, 0x0, false⟩]⟩,
  ⟨0x20028, 1, 4, false, [⟨31, 16, .ro, 0x0, false⟩, ⟨15, 0, .ro, 0x0, false⟩]⟩,
  ⟨0x2002C, 1, 4, false, [⟨31, 0, .ro, 0x0, false⟩]⟩]

/-- Register rows of PWR (R367), part 1. -/
def rowsPWR1 : List RegRow := [
  ⟨0x20030, 1, 4, false, [⟨31, 0, .ro, 0x0, false⟩]⟩,
  ⟨0x20034, 1, 4, false, [⟨31, 4, .resv, 0x0, false⟩, ⟨3, 0, .ro, 0x0, false⟩]⟩,
  ⟨0x20038, 1, 4, false, [⟨31, 31, .prw, 0x0, false⟩, ⟨30, 2, .resv, 0x0, false⟩, ⟨1, 0, .prw, 0x0, false⟩]⟩,
  ⟨0x2003C, 1, 4, false, [⟨31, 28, .ro, 0x0, false⟩, ⟨27, 24, .ro, 0x0, false⟩, ⟨23, 0, .resv, 0x0, false⟩]⟩,
  ⟨0x20040, 1, 4, false, [⟨31, 24, .sqc, 0x0, false⟩, ⟨23, 16, .sqc, 0x0, false⟩, ⟨15, 0, .ro, 0x0, false⟩]⟩,
  ⟨0x20080, 4, 8, false, [⟨31, 0, .rwb, 0x0, true⟩]⟩,
  ⟨0x20084, 4, 8, false, [⟨31, 0, .ro, 0x0, false⟩]⟩,
  ⟨0x20200, 1, 4, false, [⟨31, 0, .ro, 0x0, false⟩]⟩,
  ⟨0x20204, 1, 4, false, [⟨31, 0, .ro, 0x0, false⟩]⟩,
  ⟨0x20208, 1, 4, false, [⟨31, 0, .ro, 0x0, false⟩]⟩,
  ⟨0x2020C, 1, 4, false, [⟨31, 0, .ro, 0x0, false⟩]⟩,
  ⟨0x203F0, 1, 4, false, [⟨31, 0, .ro, 0x0, false⟩]⟩]

/-- Register rows of PWR (R367), part 2. -/
def rowsPWR2 : List RegRow := [
  ⟨0x203F4, 1, 4, false, [⟨31, 0, .rw, 0x0, false⟩]⟩]

/-- Every register of PWR (R367). -/
def rowsPWR : List RegRow := rowsPWR0 ++ rowsPWR1 ++ rowsPWR2

/-- Register rows of STR (R44), part 0. -/
def rowsSTR0 : List RegRow := [
  ⟨0x30000, 1, 4, false, [⟨31, 24, .sqc, 0x0, false⟩, ⟨23, 16, .resv, 0x0, false⟩, ⟨15, 8, .sqc, 0x0, false⟩, ⟨7, 4, .ro, 0x0, false⟩, ⟨3, 0, .ro, 0x0, false⟩]⟩,
  ⟨0x30004, 1, 4, false, [⟨31, 9, .resv, 0x0, false⟩, ⟨8, 8, .prw, 0x0, false⟩, ⟨7, 4, .resv, 0x0, false⟩, ⟨3, 0, .prw, 0x0, false⟩]⟩,
  ⟨0x30008, 1, 4, false, [⟨31, 0, .prw, 0x0, false⟩]⟩,
  ⟨0x3000C, 1, 4, false, [⟨31, 0, .prw, 0x0, false⟩]⟩,
  ⟨0x30010, 1, 4, false, [⟨31, 0, .prw, 0x0, false⟩]⟩,
  ⟨0x30014, 1, 4, false, [⟨31, 10, .resv, 0x0, false⟩, ⟨9, 0, .rw, 0x64, false⟩]⟩,
  ⟨0x30018, 1, 4, false, [⟨31, 3, .resv, 0x0, false⟩, ⟨2, 2, .ro, 0x0, false⟩, ⟨1, 1, .ro, 0x0, false⟩, ⟨0, 0, .prw, 0x0, false⟩]⟩,
  ⟨0x30020, 4, 4, false, [⟨31, 0, .ro, 0x0, true⟩]⟩,
  ⟨0x30030, 1, 4, false, [⟨31, 0, .ro, 0x0, true⟩]⟩,
  ⟨0x30034, 1, 4, false, [⟨31, 0, .ro, 0x0, true⟩]⟩,
  ⟨0x30040, 12, 4, false, [⟨31, 16, .ro, 0x0, true⟩, ⟨15, 10, .resv, 0x0, false⟩, ⟨9, 9, .ro, 0x0, false⟩, ⟨8, 8, .ro, 0x0, false⟩, ⟨7, 2, .resv, 0x0, false⟩, ⟨1, 1, .ro, 0x0, false⟩, ⟨0, 0, .ro, 0x0, false⟩]⟩,
  ⟨0x30080, 1, 4, false, [⟨31, 9, .resv, 0x0, false⟩, ⟨8, 8, .ro, 0x0, false⟩, ⟨7, 4, .ro, 0x0, false⟩, ⟨3, 0, .ro, 0x0, false⟩]⟩]

/-- Register rows of STR (R44), part 1. -/
def rowsSTR1 : List RegRow := [
  ⟨0x30084, 1, 4, false, [⟨31, 24, .sqc, 0x0, false⟩, ⟨23, 16, .sqc, 0x0, false⟩, ⟨15, 6, .resv, 0x0, false⟩, ⟨5, 0, .ro, 0x0, false⟩]⟩,
  ⟨0x30100, 128, 4, false, [⟨31, 0, .ro, 0x0, false⟩]⟩]

/-- Every register of STR (R44). -/
def rowsSTR : List RegRow := rowsSTR0 ++ rowsSTR1

/-- Register rows of HST (R300), part 0. -/
def rowsHST0 : List RegRow := [
  ⟨0x40000, 1, 4, false, [⟨31, 24, .sqc, 0x0, false⟩, ⟨23, 6, .resv, 0x0, false⟩, ⟨5, 5, .sqc, 0x0, false⟩, ⟨4, 4, .sqc, 0x0, false⟩, ⟨3, 3, .sqc, 0x0, false⟩, ⟨2, 2, .sqc, 0x0, false⟩, ⟨1, 1, .sqc, 0x0, false⟩, ⟨0, 0, .sqc, 0x0, false⟩]⟩,
  ⟨0x40004, 1, 4, false, [⟨31, 1, .resv, 0x0, false⟩, ⟨0, 0, .ro, 0x0, false⟩]⟩,
  ⟨0x40010, 4, 4, false, [⟨31, 30, .ro, 0x0, false⟩, ⟨29, 24, .ro, 0x0, false⟩, ⟨23, 20, .ro, 0x0, false⟩, ⟨19, 19, .ro, 0x0, false⟩, ⟨18, 17, .ro, 0x0, false⟩, ⟨16, 16, .resv, 0x0, false⟩, ⟨15, 14, .ro, 0x0, false⟩, ⟨13, 8, .ro, 0x0, false⟩, ⟨7, 4, .ro, 0x0, false⟩, ⟨3, 3, .ro, 0x0, false⟩, ⟨2, 1, .ro, 0x0, false⟩, ⟨0, 0, .resv, 0x0, false⟩]⟩,
  ⟨0x40020, 4, 4, false, [⟨31, 10, .resv, 0x0, false⟩, ⟨9, 9, .ro, 0x0, false⟩, ⟨8, 8, .ro, 0x0, false⟩, ⟨7, 7, .ro, 0x0, false⟩, ⟨6, 6, .ro, 0x0, false⟩, ⟨5, 5, .ro, 0x0, false⟩, ⟨4, 4, .ro, 0x0, false⟩, ⟨3, 3, .ro, 0x0, false⟩, ⟨2, 2, .ro, 0x0, false⟩, ⟨1, 0, .ro, 0x0, false⟩]⟩,
  ⟨0x40030, 4, 4, false, [⟨31, 31, .rwb, 0x1, false⟩, ⟨30, 16, .rwb, 0x64, false⟩, ⟨15, 0, .rwb, 0xA, false⟩]⟩,
  ⟨0x40040, 4, 4, false, [⟨31, 12, .resv, 0x0, false⟩, ⟨11, 8, .ro, 0x0, false⟩, ⟨7, 4, .ro, 0x0, false⟩, ⟨3, 0, .ro, 0x0, false⟩]⟩,
  ⟨0x40050, 4, 4, false, [⟨31, 22, .resv, 0x0, false⟩, ⟨21, 16, .ro, 0x0, false⟩, ⟨15, 14, .resv, 0x0, false⟩, ⟨13, 0, .ro, 0x0, false⟩]⟩,
  ⟨0x40060, 1, 4, false, [⟨31, 10, .resv, 0x0, false⟩, ⟨9, 8, .rw, 0x0, false⟩, ⟨7, 6, .resv, 0x0, false⟩, ⟨5, 0, .rw, 0x0, false⟩]⟩,
  ⟨0x40064, 1, 4, false, [⟨31, 0, .ro, 0x0, false⟩]⟩,
  ⟨0x40068, 1, 4, false, [⟨31, 0, .ro, 0x0, false⟩]⟩,
  ⟨0x4006C, 1, 4, false, [⟨31, 0, .ro, 0x0, false⟩]⟩,
  ⟨0x40070, 1, 4, false, [⟨31, 13, .resv, 0x0, false⟩, ⟨12, 11, .wo, 0x0, false⟩, ⟨10, 0, .wo, 0x0, false⟩]⟩]

/-- Register rows of HST (R300), part 1. -/
def rowsHST1 : List RegRow := [
  ⟨0x40100, 4, 16, false, [⟨31, 0, .ro, 0x0, false⟩]⟩,
  ⟨0x40104, 4, 16, false, [⟨31, 0, .ro, 0x0, false⟩]⟩,
  ⟨0x40108, 4, 16, false, [⟨31, 0, .ro, 0x0, false⟩]⟩,
  ⟨0x4010C, 4, 16, false, [⟨31, 0, .ro, 0x0, false⟩]⟩,
  ⟨0x403F0, 1, 4, false, [⟨31, 0, .ro, 0x0, false⟩]⟩,
  ⟨0x403F4, 1, 4, false, [⟨31, 0, .rw, 0x0, false⟩]⟩]

/-- Every register of HST (R300). -/
def rowsHST : List RegRow := rowsHST0 ++ rowsHST1

/-- Register rows of SLC (R274), part 0. -/
def rowsSLC0 : List RegRow := [
  ⟨0x50000, 1, 4, false, [⟨31, 24, .sqc, 0x0, false⟩, ⟨23, 5, .resv, 0x0, false⟩, ⟨4, 4, .ro, 0x0, false⟩, ⟨3, 3, .sqc, 0x0, false⟩, ⟨2, 2, .sqc, 0x0, false⟩, ⟨1, 1, .sqc, 0x0, false⟩, ⟨0, 0, .sqc, 0x0, false⟩]⟩,
  ⟨0x50010, 1, 4, false, [⟨31, 8, .resv, 0x0, false⟩, ⟨7, 0, .prw, 0x0, false⟩]⟩,
  ⟨0x50014, 1, 4, false, [⟨31, 31, .prw, 0x0, false⟩, ⟨30, 4, .resv, 0x0, false⟩, ⟨3, 0, .prw, 0x0, false⟩]⟩,
  ⟨0x50018, 1, 4, false, [⟨31, 0, .prw, 0x0, false⟩]⟩,
  ⟨0x5001C, 1, 4, false, [⟨31, 0, .prw, 0x0, false⟩]⟩,
  ⟨0x50020, 1, 4, false, [⟨31, 24, .sqc, 0x0, false⟩, ⟨23, 16, .sqc, 0x0, false⟩, ⟨15, 8, .ro, 0x0, false⟩, ⟨7, 0, .ro, 0x0, false⟩]⟩,
  ⟨0x50024, 1, 4, false, [⟨31, 16, .resv, 0x0, false⟩, ⟨15, 0, .prw, 0x0, false⟩]⟩,
  ⟨0x50028, 1, 4, false, [⟨31, 17, .resv, 0x0, false⟩, ⟨16, 0, .ro, 0x0, true⟩]⟩,
  ⟨0x5002C, 1, 4, false, [⟨31, 17, .resv, 0x0, false⟩, ⟨16, 0, .rw, 0x0, false⟩]⟩,
  ⟨0x50030, 1, 4, false, [⟨31, 0, .ro, 0x0, false⟩]⟩,
  ⟨0x50034, 1, 4, false, [⟨31, 0, .ro, 0x0, false⟩]⟩,
  ⟨0x50080, 32, 4, false, [⟨3, 0, .ro, 0x0, false⟩, ⟨7, 4, .ro, 0x0, false⟩, ⟨11, 8, .ro, 0x0, false⟩, ⟨15, 12, .ro, 0x0, false⟩, ⟨19, 16, .ro, 0x0, false⟩, ⟨23, 20, .ro, 0x0, false⟩, ⟨27, 24, .ro, 0x0, false⟩, ⟨31, 28, .ro, 0x0, false⟩]⟩]

/-- Register rows of SLC (R274), part 1. -/
def rowsSLC1 : List RegRow := [
  ⟨0x50100, 32, 4, false, [⟨31, 0, .prw, 0x0, false⟩]⟩,
  ⟨0x50200, 16, 4, false, [⟨31, 0, .prw, 0x0, false⟩]⟩,
  ⟨0x50300, 1, 4, false, [⟨31, 0, .ro, 0x0, false⟩]⟩,
  ⟨0x50304, 1, 4, false, [⟨31, 0, .ro, 0x0, false⟩]⟩,
  ⟨0x50308, 1, 4, false, [⟨31, 0, .ro, 0x0, false⟩]⟩,
  ⟨0x5030C, 1, 4, false, [⟨31, 0, .ro, 0x0, false⟩]⟩,
  ⟨0x50310, 1, 4, false, [⟨31, 0, .ro, 0x0, false⟩]⟩,
  ⟨0x503F0, 1, 4, false, [⟨31, 0, .ro, 0x0, false⟩]⟩,
  ⟨0x503F4, 1, 4, false, [⟨31, 0, .rw, 0x0, false⟩]⟩]

/-- Every register of SLC (R274). -/
def rowsSLC : List RegRow := rowsSLC0 ++ rowsSLC1

/-- Register rows of STW (R335), part 0. -/
def rowsSTW0 : List RegRow := [
  ⟨0x60000, 1, 4, false, [⟨31, 24, .sqc, 0x0, false⟩, ⟨23, 6, .resv, 0x0, false⟩, ⟨5, 5, .sqc, 0x0, false⟩, ⟨4, 4, .sqc, 0x0, false⟩, ⟨3, 3, .sqc, 0x0, false⟩, ⟨2, 2, .sqc, 0x0, false⟩, ⟨1, 1, .sqc, 0x0, false⟩, ⟨0, 0, .sqc, 0x0, false⟩]⟩,
  ⟨0x60004, 1, 4, false, [⟨31, 1, .resv, 0x0, false⟩, ⟨0, 0, .ro, 0x0, false⟩]⟩,
  ⟨0x60008, 1, 4, false, [⟨31, 12, .resv, 0x0, false⟩, ⟨11, 8, .prw, 0x0, false⟩, ⟨7, 5, .resv, 0x0, false⟩, ⟨4, 4, .prw, 0x0, false⟩, ⟨3, 0, .prw, 0x0, false⟩]⟩,
  ⟨0x6000C, 1, 4, false, [⟨31, 24, .sqc, 0x0, false⟩, ⟨23, 16, .sqc, 0x0, false⟩, ⟨15, 8, .resv, 0x0, false⟩, ⟨7, 4, .ro, 0x0, false⟩, ⟨3, 0, .ro, 0x0, false⟩]⟩,
  ⟨0x60010, 1, 4, false, [⟨31, 0, .prw, 0x0, false⟩]⟩,
  ⟨0x60014, 1, 4, false, [⟨31, 0, .prw, 0x0, false⟩]⟩,
  ⟨0x60018, 1, 4, false, [⟨31, 0, .prw, 0x0, false⟩]⟩,
  ⟨0x6001C, 1, 4, false, [⟨31, 3, .resv, 0x0, false⟩, ⟨2, 2, .ro, 0x0, false⟩, ⟨1, 1, .ro, 0x0, false⟩, ⟨0, 0, .prw, 0x0, false⟩]⟩,
  ⟨0x60020, 4, 8, false, [⟨31, 24, .ro, 0x0, false⟩, ⟨23, 16, .ro, 0x0, false⟩, ⟨15, 0, .ro, 0x0, false⟩]⟩,
  ⟨0x60024, 4, 8, false, [⟨31, 31, .ro, 0x0, false⟩, ⟨30, 30, .ro, 0x0, false⟩, ⟨29, 8, .resv, 0x0, false⟩, ⟨7, 0, .ro, 0x0, false⟩]⟩,
  ⟨0x60080, 32, 4, false, [⟨31, 28, .ro, 0x0, false⟩, ⟨27, 24, .ro, 0x0, false⟩, ⟨23, 16, .ro, 0x0, false⟩, ⟨15, 0, .ro, 0x0, true⟩]⟩,
  ⟨0x60100, 32, 4, false, [⟨31, 10, .resv, 0x0, false⟩, ⟨9, 0, .rwb, 0x64, false⟩]⟩]

/-- Register rows of STW (R335), part 1. -/
def rowsSTW1 : List RegRow := [
  ⟨0x60180, 1, 4, false, [⟨31, 31, .prw, 0x0, false⟩, ⟨30, 28, .prw, 0x0, false⟩, ⟨27, 5, .resv, 0x0, false⟩, ⟨4, 0, .prw, 0x0, false⟩]⟩,
  ⟨0x60200, 8, 4, false, [⟨31, 0, .rw, 0x0, false⟩]⟩,
  ⟨0x60240, 1, 4, false, [⟨31, 31, .wo, 0x0, false⟩, ⟨30, 18, .resv, 0x0, false⟩, ⟨17, 16, .rw, 0x0, false⟩, ⟨15, 0, .rw, 0x0, false⟩]⟩,
  ⟨0x60244, 1, 4, false, [⟨31, 0, .rw, 0x0, false⟩]⟩,
  ⟨0x60248, 1, 4, false, [⟨31, 0, .rw, 0x0, false⟩]⟩,
  ⟨0x6024C, 1, 4, false, [⟨31, 0, .rw, 0x0, false⟩]⟩,
  ⟨0x60250, 1, 4, false, [⟨31, 24, .sqc, 0x0, false⟩, ⟨23, 16, .sqc, 0x0, false⟩, ⟨15, 1, .resv, 0x0, false⟩, ⟨0, 0, .ro, 0x0, false⟩]⟩,
  ⟨0x60254, 1, 4, false, [⟨31, 0, .ro, 0x0, false⟩]⟩,
  ⟨0x60258, 1, 4, false, [⟨31, 17, .resv, 0x0, false⟩, ⟨16, 0, .ro, 0x0, false⟩]⟩,
  ⟨0x60260, 4, 8, false, [⟨31, 0, .ro, 0x0, false⟩]⟩,
  ⟨0x60264, 4, 8, false, [⟨31, 21, .resv, 0x0, false⟩, ⟨20, 0, .ro, 0x0, true⟩]⟩,
  ⟨0x60280, 1, 4, false, [⟨31, 31, .rw, 0x0, false⟩, ⟨30, 28, .resv, 0x0, false⟩, ⟨27, 16, .rw, 0x64, false⟩, ⟨15, 0, .rw, 0x0, false⟩]⟩]

/-- Register rows of STW (R335), part 2. -/
def rowsSTW2 : List RegRow := [
  ⟨0x60300, 1, 4, false, [⟨31, 0, .ro, 0x0, false⟩]⟩,
  ⟨0x60304, 1, 4, false, [⟨31, 0, .ro, 0x0, false⟩]⟩,
  ⟨0x60308, 1, 4, false, [⟨31, 0, .ro, 0x0, false⟩]⟩,
  ⟨0x6030C, 1, 4, false, [⟨31, 0, .ro, 0x0, false⟩]⟩,
  ⟨0x60310, 1, 4, false, [⟨31, 0, .ro, 0x0, false⟩]⟩,
  ⟨0x603F0, 1, 4, false, [⟨31, 0, .ro, 0x0, false⟩]⟩,
  ⟨0x603F4, 1, 4, false, [⟨31, 0, .rw, 0x0, false⟩]⟩]

/-- Every register of STW (R335). -/
def rowsSTW : List RegRow := rowsSTW0 ++ rowsSTW1 ++ rowsSTW2

/-- Register rows of ERR (R273), part 0. -/
def rowsERR0 : List RegRow := [
  ⟨0x70000, 1, 4, false, [⟨31, 24, .sqc, 0x0, false⟩, ⟨23, 6, .resv, 0x0, false⟩, ⟨5, 5, .sqc, 0x0, false⟩, ⟨4, 4, .sqc, 0x0, false⟩, ⟨3, 3, .sqc, 0x0, false⟩, ⟨2, 2, .sqc, 0x0, false⟩, ⟨1, 1, .sqc, 0x0, false⟩, ⟨0, 0, .sqc, 0x0, false⟩]⟩,
  ⟨0x70008, 1, 4, false, [⟨31, 0, .prw, 0x0, false⟩]⟩,
  ⟨0x7000C, 1, 4, false, [⟨31, 0, .prw, 0x0, false⟩]⟩,
  ⟨0x70010, 1, 4, false, [⟨31, 17, .resv, 0x0, false⟩, ⟨16, 0, .prw, 0x0, false⟩]⟩,
  ⟨0x70014, 1, 4, false, [⟨31, 0, .ro, 0x0, false⟩]⟩,
  ⟨0x70018, 1, 4, false, [⟨31, 0, .rw, 0x0, false⟩]⟩,
  ⟨0x7001C, 1, 4, false, [⟨31, 31, .prw, 0x0, false⟩, ⟨30, 28, .resv, 0x0, false⟩, ⟨27, 24, .prw, 0xF, false⟩, ⟨23, 14, .resv, 0x0, false⟩, ⟨13, 12, .prw, 0x0, false⟩, ⟨11, 11, .resv, 0x0, false⟩, ⟨10, 0, .prw, 0x0, false⟩]⟩,
  ⟨0x70020, 1, 4, false, [⟨31, 24, .resv, 0x0, false⟩, ⟨23, 16, .ro, 0xFF, false⟩, ⟨15, 0, .ro, 0x0, false⟩]⟩,
  ⟨0x70024, 1, 4, false, [⟨31, 31, .prw, 0x0, false⟩, ⟨30, 18, .resv, 0x0, false⟩, ⟨17, 16, .prw, 0x0, false⟩, ⟨15, 13, .resv, 0x0, false⟩, ⟨12, 8, .prw, 0x0, false⟩, ⟨7, 0, .prw, 0x0, false⟩]⟩,
  ⟨0x70040, 4, 4, false, [⟨31, 0, .ro, 0x0, false⟩]⟩,
  ⟨0x70050, 1, 4, false, [⟨31, 0, .ro, 0x0, false⟩]⟩,
  ⟨0x703F0, 1, 4, false, [⟨31, 0, .ro, 0x0, false⟩]⟩]

/-- Register rows of ERR (R273), part 1. -/
def rowsERR1 : List RegRow := [
  ⟨0x703F4, 1, 4, false, [⟨31, 0, .rw, 0x0, false⟩]⟩]

/-- Every register of ERR (R273). -/
def rowsERR : List RegRow := rowsERR0 ++ rowsERR1

/-- Register rows of GAL (R98), part 0. -/
def rowsGAL0 : List RegRow := [
  ⟨0x100000, 1, 4, false, [⟨31, 24, .sqc, 0x0, false⟩, ⟨23, 3, .resv, 0x0, false⟩, ⟨2, 2, .sqc, 0x0, false⟩, ⟨1, 1, .sqc, 0x0, false⟩, ⟨0, 0, .sqc, 0x0, false⟩]⟩,
  ⟨0x100004, 1, 4, false, [⟨31, 16, .resv, 0x0, false⟩, ⟨15, 0, .rwb, 0x0, true⟩]⟩,
  ⟨0x100008, 1, 4, false, [⟨31, 5, .resv, 0x0, false⟩, ⟨4, 0, .rwb, 0x0, true⟩]⟩,
  ⟨0x10000C, 1, 4, false, [⟨31, 3, .resv, 0x0, false⟩, ⟨2, 2, .ro, 0x0, false⟩, ⟨1, 1, .ro, 0x0, false⟩, ⟨0, 0, .ro, 0x0, false⟩]⟩,
  ⟨0x100010, 1, 4, false, [⟨31, 0, .rw, 0x0, false⟩]⟩,
  ⟨0x100014, 1, 4, false, [⟨31, 31, .wo, 0x0, false⟩, ⟨30, 16, .resv, 0x0, false⟩, ⟨15, 0, .rw, 0x0, false⟩]⟩,
  ⟨0x100018, 1, 4, false, [⟨31, 24, .sqc, 0x0, false⟩, ⟨23, 16, .resv, 0x0, false⟩, ⟨15, 8, .sqc, 0x0, false⟩, ⟨7, 0, .resv, 0x0, false⟩]⟩,
  ⟨0x100040, 16, 4, false, [⟨31, 28, .resv, 0x0, false⟩, ⟨27, 24, .ro, 0xF, false⟩, ⟨23, 16, .resv, 0x0, false⟩, ⟨15, 8, .ro, 0x0, false⟩, ⟨7, 3, .resv, 0x0, false⟩, ⟨2, 2, .ro, 0x0, false⟩, ⟨1, 1, .ro, 0x0, false⟩, ⟨0, 0, .ro, 0x0, false⟩]⟩,
  ⟨0x100080, 8, 8, false, [⟨31, 16, .ro, 0x0, false⟩, ⟨15, 0, .ro, 0x0, false⟩]⟩,
  ⟨0x100084, 8, 8, false, [⟨31, 30, .ro, 0x0, false⟩, ⟨29, 24, .resv, 0x0, false⟩, ⟨23, 16, .ro, 0x0, false⟩, ⟨15, 8, .resv, 0x0, false⟩, ⟨7, 0, .ro, 0x0, false⟩]⟩,
  ⟨0x100100, 1, 4, false, [⟨31, 0, .ro, 0x0, false⟩]⟩,
  ⟨0x100104, 1, 4, false, [⟨31, 0, .ro, 0x0, false⟩]⟩]

/-- Register rows of GAL (R98), part 1. -/
def rowsGAL1 : List RegRow := [
  ⟨0x100108, 1, 4, false, [⟨31, 0, .ro, 0x0, false⟩]⟩,
  ⟨0x10010C, 1, 4, false, [⟨31, 0, .ro, 0x0, false⟩]⟩,
  ⟨0x100110, 1, 4, false, [⟨31, 0, .ro, 0x0, false⟩]⟩,
  ⟨0x100200, 32, 4, false, [⟨3, 0, .rwb, 0x0, true⟩, ⟨7, 4, .rwb, 0x0, true⟩, ⟨11, 8, .rwb, 0x0, true⟩, ⟨15, 12, .rwb, 0x0, true⟩, ⟨19, 16, .rwb, 0x0, true⟩, ⟨23, 20, .rwb, 0x0, true⟩, ⟨27, 24, .rwb, 0x0, true⟩, ⟨31, 28, .rwb, 0x0, true⟩]⟩,
  ⟨0x1003F0, 1, 4, false, [⟨31, 0, .ro, 0x0, false⟩]⟩,
  ⟨0x1003F4, 1, 4, false, [⟨31, 0, .rw, 0x0, false⟩]⟩]

/-- Every register of GAL (R98). -/
def rowsGAL : List RegRow := rowsGAL0 ++ rowsGAL1

/-- Register rows of FLT (R126), part 0. -/
def rowsFLT0 : List RegRow := [
  ⟨0x110000, 1, 4, false, [⟨31, 24, .sqc, 0x0, false⟩, ⟨23, 5, .resv, 0x0, false⟩, ⟨4, 4, .sqc, 0x0, false⟩, ⟨3, 3, .sqc, 0x0, false⟩, ⟨2, 2, .sqc, 0x0, false⟩, ⟨1, 1, .sqc, 0x0, false⟩, ⟨0, 0, .sqc, 0x0, false⟩]⟩,
  ⟨0x110004, 1, 4, false, [⟨31, 1, .resv, 0x0, false⟩, ⟨0, 0, .ro, 0x0, false⟩]⟩,
  ⟨0x110008, 1, 4, false, [⟨31, 16, .rwb, 0xBB8, false⟩, ⟨15, 0, .rwb, 0x64, false⟩]⟩,
  ⟨0x110010, 1, 4, false, [⟨31, 0, .rw, 0x0, false⟩]⟩,
  ⟨0x110014, 1, 4, false, [⟨31, 31, .wo, 0x0, false⟩, ⟨30, 16, .resv, 0x0, false⟩, ⟨15, 0, .rw, 0x0, false⟩]⟩,
  ⟨0x110018, 1, 4, false, [⟨31, 24, .sqc, 0x0, false⟩, ⟨23, 16, .resv, 0x0, false⟩, ⟨15, 8, .sqc, 0x0, false⟩, ⟨7, 0, .resv, 0x0, false⟩]⟩,
  ⟨0x110020, 1, 4, false, [⟨31, 0, .ro, 0x0, false⟩]⟩,
  ⟨0x110024, 1, 4, false, [⟨31, 0, .ro, 0x0, false⟩]⟩,
  ⟨0x110028, 1, 4, false, [⟨31, 16, .resv, 0x0, false⟩, ⟨15, 0, .ro, 0x0, false⟩]⟩,
  ⟨0x11002C, 1, 4, false, [⟨31, 0, .prw, 0x0, false⟩]⟩,
  ⟨0x110030, 1, 4, false, [⟨31, 0, .prw, 0x0, false⟩]⟩,
  ⟨0x110034, 1, 4, false, [⟨31, 0, .prw, 0x0, false⟩]⟩]

/-- Register rows of FLT (R126), part 1. -/
def rowsFLT1 : List RegRow := [
  ⟨0x110038, 1, 4, false, [⟨31, 1, .resv, 0x0, false⟩, ⟨0, 0, .prw, 0x0, false⟩]⟩,
  ⟨0x110040, 1, 4, false, [⟨31, 24, .sqc, 0x0, false⟩, ⟨23, 8, .resv, 0x0, false⟩, ⟨7, 6, .ro, 0x0, true⟩, ⟨5, 4, .ro, 0x0, false⟩, ⟨3, 0, .resv, 0x0, false⟩]⟩,
  ⟨0x110044, 1, 4, false, [⟨31, 0, .ro, 0x0, false⟩]⟩,
  ⟨0x110080, 1, 4, false, [⟨31, 6, .resv, 0x0, false⟩, ⟨5, 0, .rw, 0x0, false⟩]⟩,
  ⟨0x110084, 1, 4, false, [⟨31, 0, .ro, 0x0, false⟩]⟩,
  ⟨0x110088, 1, 4, false, [⟨31, 0, .ro, 0x0, false⟩]⟩,
  ⟨0x11008C, 1, 4, false, [⟨31, 17, .resv, 0x0, false⟩, ⟨16, 0, .ro, 0x0, false⟩]⟩,
  ⟨0x110090, 1, 4, false, [⟨31, 0, .ro, 0x0, false⟩]⟩,
  ⟨0x110094, 1, 4, false, [⟨31, 0, .ro, 0x0, false⟩]⟩,
  ⟨0x110098, 1, 4, false, [⟨31, 24, .ro, 0x0, false⟩, ⟨23, 16, .resv, 0x0, false⟩, ⟨15, 0, .ro, 0x0, false⟩]⟩,
  ⟨0x110100, 64, 4, false, [⟨31, 29, .ro, 0x0, false⟩, ⟨28, 28, .ro, 0x0, false⟩, ⟨27, 24, .resv, 0x0, false⟩, ⟨23, 16, .ro, 0x0, false⟩, ⟨15, 0, .ro, 0x0, false⟩]⟩,
  ⟨0x110200, 1, 4, false, [⟨31, 0, .ro, 0x0, false⟩]⟩]

/-- Register rows of FLT (R126), part 2. -/
def rowsFLT2 : List RegRow := [
  ⟨0x110204, 1, 4, false, [⟨31, 0, .ro, 0x0, false⟩]⟩,
  ⟨0x110208, 1, 4, false, [⟨31, 0, .ro, 0x0, false⟩]⟩,
  ⟨0x11020C, 1, 4, false, [⟨31, 0, .ro, 0x0, false⟩]⟩,
  ⟨0x110210, 1, 4, false, [⟨31, 0, .ro, 0x0, false⟩]⟩,
  ⟨0x110214, 1, 4, false, [⟨31, 0, .ro, 0x0, false⟩]⟩,
  ⟨0x1103F0, 1, 4, false, [⟨31, 0, .ro, 0x0, false⟩]⟩,
  ⟨0x1103F4, 1, 4, false, [⟨31, 0, .rw, 0x0, false⟩]⟩]

/-- Every register of FLT (R126). -/
def rowsFLT : List RegRow := rowsFLT0 ++ rowsFLT1 ++ rowsFLT2

/-- Register rows of RTE (R159), part 0. -/
def rowsRTE0 : List RegRow := [
  ⟨0x120000, 1, 4, false, [⟨31, 24, .sqc, 0x0, false⟩, ⟨23, 4, .resv, 0x0, false⟩, ⟨3, 3, .sqc, 0x0, false⟩, ⟨2, 2, .sqc, 0x0, false⟩, ⟨1, 1, .sqc, 0x0, false⟩, ⟨0, 0, .sqc, 0x0, false⟩]⟩,
  ⟨0x120004, 1, 4, false, [⟨31, 2, .resv, 0x0, false⟩, ⟨1, 1, .ro, 0x0, false⟩, ⟨0, 0, .ro, 0x0, false⟩]⟩,
  ⟨0x120008, 1, 4, false, [⟨31, 16, .rwb, 0xFA0, false⟩, ⟨15, 0, .rwb, 0x28, false⟩]⟩,
  ⟨0x12000C, 1, 4, false, [⟨31, 16, .rwb, 0x7D0, false⟩, ⟨15, 8, .resv, 0x0, false⟩, ⟨7, 0, .rwb, 0x10, false⟩]⟩,
  ⟨0x120010, 1, 4, false, [⟨31, 16, .resv, 0x0, false⟩, ⟨15, 0, .rwb, 0x3E8, false⟩]⟩,
  ⟨0x120020, 1, 4, false, [⟨31, 0, .rw, 0x0, false⟩]⟩,
  ⟨0x120024, 1, 4, false, [⟨31, 31, .wo, 0x0, false⟩, ⟨30, 16, .resv, 0x0, false⟩, ⟨15, 0, .rw, 0x0, false⟩]⟩,
  ⟨0x120028, 1, 4, false, [⟨31, 24, .sqc, 0x0, false⟩, ⟨23, 16, .resv, 0x0, false⟩, ⟨15, 8, .sqc, 0x0, false⟩, ⟨7, 0, .resv, 0x0, false⟩]⟩,
  ⟨0x120040, 16, 4, false, [⟨31, 29, .resv, 0x0, false⟩, ⟨28, 16, .ro, 0x0, false⟩, ⟨15, 13, .resv, 0x0, false⟩, ⟨12, 0, .ro, 0x0, false⟩]⟩,
  ⟨0x120080, 1, 4, false, [⟨31, 16, .ro, 0x0, false⟩, ⟨15, 0, .ro, 0x0, false⟩]⟩,
  ⟨0x120100, 8, 16, false, [⟨31, 8, .resv, 0x0, false⟩, ⟨7, 0, .rwb, 0x0, true⟩]⟩,
  ⟨0x120104, 8, 16, false, [⟨31, 14, .resv, 0x0, false⟩, ⟨13, 0, .rwb, 0x0, true⟩]⟩]

/-- Register rows of RTE (R159), part 1. -/
def rowsRTE1 : List RegRow := [
  ⟨0x120108, 8, 16, false, [⟨31, 0, .rwb, 0x0, true⟩]⟩,
  ⟨0x12010C, 8, 16, false, [⟨31, 16, .rwb, 0x0, true⟩, ⟨15, 0, .rwb, 0x0, true⟩]⟩,
  ⟨0x120200, 1, 4, false, [⟨31, 0, .ro, 0x0, false⟩]⟩,
  ⟨0x120204, 1, 4, false, [⟨31, 0, .ro, 0x0, false⟩]⟩,
  ⟨0x120208, 1, 4, false, [⟨31, 0, .ro, 0x0, false⟩]⟩,
  ⟨0x12020C, 1, 4, false, [⟨31, 0, .ro, 0x0, false⟩]⟩,
  ⟨0x120210, 1, 4, false, [⟨31, 0, .ro, 0x0, false⟩]⟩,
  ⟨0x120214, 1, 4, false, [⟨31, 0, .ro, 0x0, false⟩]⟩,
  ⟨0x120218, 1, 4, false, [⟨31, 0, .ro, 0x0, false⟩]⟩,
  ⟨0x12021C, 1, 4, false, [⟨31, 0, .ro, 0x0, false⟩]⟩,
  ⟨0x120220, 1, 4, false, [⟨31, 0, .ro, 0x0, false⟩]⟩,
  ⟨0x120224, 1, 4, false, [⟨31, 0, .ro, 0x0, false⟩]⟩]

/-- Register rows of RTE (R159), part 2. -/
def rowsRTE2 : List RegRow := [
  ⟨0x120228, 1, 4, false, [⟨31, 0, .ro, 0x0, false⟩]⟩,
  ⟨0x12022C, 1, 4, false, [⟨31, 0, .ro, 0x0, false⟩]⟩,
  ⟨0x1203F0, 1, 4, false, [⟨31, 0, .ro, 0x0, false⟩]⟩,
  ⟨0x1203F4, 1, 4, false, [⟨31, 0, .rw, 0x0, false⟩]⟩]

/-- Every register of RTE (R159). -/
def rowsRTE : List RegRow := rowsRTE0 ++ rowsRTE1 ++ rowsRTE2

/-- Register rows of PLC (R186), part 0. -/
def rowsPLC0 : List RegRow := [
  ⟨0x130000, 1, 4, false, [⟨31, 24, .sqc, 0x0, false⟩, ⟨23, 6, .resv, 0x0, false⟩, ⟨5, 5, .sqc, 0x0, false⟩, ⟨4, 4, .sqc, 0x0, false⟩, ⟨3, 3, .sqc, 0x0, false⟩, ⟨2, 2, .sqc, 0x0, false⟩, ⟨1, 1, .sqc, 0x0, false⟩, ⟨0, 0, .sqc, 0x0, false⟩]⟩,
  ⟨0x130004, 1, 4, false, [⟨31, 5, .resv, 0x0, false⟩, ⟨4, 4, .ro, 0x0, false⟩, ⟨3, 3, .ro, 0x0, false⟩, ⟨2, 2, .ro, 0x0, false⟩, ⟨1, 1, .ro, 0x0, false⟩, ⟨0, 0, .ro, 0x0, false⟩]⟩,
  ⟨0x130008, 1, 4, false, [⟨31, 16, .rwb, 0x40, false⟩, ⟨15, 4, .resv, 0x0, false⟩, ⟨3, 0, .rwb, 0x1, false⟩]⟩,
  ⟨0x13000C, 1, 4, false, [⟨31, 0, .rwb, 0x0, true⟩]⟩,
  ⟨0x130010, 1, 4, false, [⟨31, 16, .resv, 0x0, false⟩, ⟨15, 0, .rwb, 0x8, false⟩]⟩,
  ⟨0x130014, 1, 4, false, [⟨31, 16, .resv, 0x0, false⟩, ⟨15, 0, .rwb, 0x18, false⟩]⟩,
  ⟨0x130018, 1, 4, false, [⟨31, 16, .resv, 0x0, false⟩, ⟨15, 0, .rwb, 0x64, false⟩]⟩,
  ⟨0x130020, 1, 4, false, [⟨31, 0, .rw, 0x0, false⟩]⟩,
  ⟨0x130024, 1, 4, false, [⟨31, 31, .wo, 0x0, false⟩, ⟨30, 16, .resv, 0x0, false⟩, ⟨15, 0, .rw, 0x0, false⟩]⟩,
  ⟨0x130028, 1, 4, false, [⟨31, 24, .sqc, 0x0, false⟩, ⟨23, 16, .resv, 0x0, false⟩, ⟨15, 8, .sqc, 0x0, false⟩, ⟨7, 0, .resv, 0x0, false⟩]⟩,
  ⟨0x130030, 1, 4, false, [⟨31, 31, .prw, 0x0, false⟩, ⟨30, 30, .prw, 0x0, false⟩, ⟨29, 29, .prw, 0x0, false⟩, ⟨28, 7, .resv, 0x0, false⟩, ⟨6, 0, .prw, 0x0, false⟩]⟩,
  ⟨0x130034, 1, 4, false, [⟨31, 24, .sqc, 0x0, false⟩, ⟨23, 16, .sqc, 0x0, false⟩, ⟨15, 8, .resv, 0x0, false⟩, ⟨7, 7, .ro, 0x0, false⟩, ⟨6, 0, .ro, 0x0, false⟩]⟩]

/-- Register rows of PLC (R186), part 1. -/
def rowsPLC1 : List RegRow := [
  ⟨0x130040, 1, 4, false, [⟨31, 0, .ro, 0x0, true⟩]⟩,
  ⟨0x130044, 1, 4, false, [⟨31, 0, .ro, 0x0, true⟩]⟩,
  ⟨0x130048, 1, 4, false, [⟨31, 0, .ro, 0x0, true⟩]⟩,
  ⟨0x13004C, 1, 4, false, [⟨31, 0, .ro, 0x0, true⟩]⟩,
  ⟨0x130050, 1, 4, false, [⟨31, 13, .resv, 0x0, false⟩, ⟨12, 0, .ro, 0x0, false⟩]⟩,
  ⟨0x130200, 1, 4, false, [⟨31, 0, .ro, 0x0, false⟩]⟩,
  ⟨0x130204, 1, 4, false, [⟨31, 0, .ro, 0x0, false⟩]⟩,
  ⟨0x130208, 1, 4, false, [⟨31, 0, .ro, 0x0, false⟩]⟩,
  ⟨0x13020C, 1, 4, false, [⟨31, 0, .ro, 0x0, false⟩]⟩,
  ⟨0x130210, 1, 4, false, [⟨31, 0, .ro, 0x0, false⟩]⟩,
  ⟨0x130214, 1, 4, false, [⟨31, 0, .ro, 0x0, false⟩]⟩,
  ⟨0x130218, 1, 4, false, [⟨31, 0, .ro, 0x0, false⟩]⟩]

/-- Register rows of PLC (R186), part 2. -/
def rowsPLC2 : List RegRow := [
  ⟨0x13021C, 1, 4, false, [⟨31, 0, .ro, 0x0, false⟩]⟩,
  ⟨0x1303F0, 1, 4, false, [⟨31, 0, .ro, 0x0, false⟩]⟩,
  ⟨0x1303F4, 1, 4, false, [⟨31, 0, .rw, 0x0, false⟩]⟩]

/-- Every register of PLC (R186). -/
def rowsPLC : List RegRow := rowsPLC0 ++ rowsPLC1 ++ rowsPLC2

/-- Register rows of PKT (R207), part 0. -/
def rowsPKT0 : List RegRow := [
  ⟨0x140000, 1, 4, false, [⟨31, 24, .sqc, 0x0, false⟩, ⟨23, 5, .resv, 0x0, false⟩, ⟨4, 4, .sqc, 0x0, false⟩, ⟨3, 3, .sqc, 0x0, false⟩, ⟨2, 2, .sqc, 0x0, false⟩, ⟨1, 1, .sqc, 0x0, false⟩, ⟨0, 0, .sqc, 0x0, false⟩]⟩,
  ⟨0x140004, 1, 4, false, [⟨31, 3, .resv, 0x0, false⟩, ⟨2, 2, .ro, 0x0, false⟩, ⟨1, 1, .ro, 0x0, false⟩, ⟨0, 0, .ro, 0x0, false⟩]⟩,
  ⟨0x140008, 1, 4, false, [⟨31, 10, .resv, 0x0, false⟩, ⟨9, 0, .rwb, 0x0, true⟩]⟩,
  ⟨0x14000C, 1, 4, false, [⟨31, 16, .rwb, 0x64, false⟩, ⟨15, 4, .resv, 0x0, false⟩, ⟨3, 0, .rwb, 0x0, true⟩]⟩,
  ⟨0x140010, 2, 4, false, [⟨31, 0, .ro, 0x0, true⟩]⟩,
  ⟨0x140018, 1, 4, false, [⟨31, 1, .resv, 0x0, false⟩, ⟨0, 0, .wo, 0x0, false⟩]⟩,
  ⟨0x14001C, 1, 4, false, [⟨31, 31, .rwb, 0x0, false⟩, ⟨30, 16, .resv, 0x0, false⟩, ⟨15, 0, .rwb, 0x0, false⟩]⟩,
  ⟨0x140040, 8, 16, false, [⟨31, 31, .rwb, 0x0, true⟩, ⟨30, 0, .rwb, 0x0, true⟩]⟩,
  ⟨0x140044, 8, 16, false, [⟨31, 0, .rwb, 0x0, true⟩]⟩,
  ⟨0x140048, 8, 16, false, [⟨31, 31, .rwb, 0x0, true⟩, ⟨30, 21, .resv, 0x0, false⟩, ⟨20, 0, .rwb, 0x0, true⟩]⟩,
  ⟨0x14004C, 8, 16, false, [⟨31, 16, .resv, 0x0, false⟩, ⟨15, 0, .rwb, 0x0, true⟩]⟩,
  ⟨0x140100, 16, 8, false, [⟨31, 0, .rwb, 0x0, true⟩]⟩]

/-- Register rows of PKT (R207), part 1. -/
def rowsPKT1 : List RegRow := [
  ⟨0x140104, 16, 8, false, [⟨31, 0, .rwb, 0x0, true⟩]⟩,
  ⟨0x140180, 1, 4, false, [⟨31, 14, .resv, 0x0, false⟩, ⟨13, 0, .rw, 0x0, false⟩]⟩,
  ⟨0x140184, 1, 4, true, [⟨31, 0, .rwb, 0x0, true⟩]⟩,
  ⟨0x140188, 1, 4, true, [⟨31, 24, .resv, 0x0, false⟩, ⟨23, 0, .rwb, 0x0, true⟩]⟩,
  ⟨0x14018C, 1, 4, true, [⟨31, 0, .ro, 0x0, false⟩]⟩,
  ⟨0x140190, 1, 4, true, [⟨31, 0, .ro, 0x0, false⟩]⟩,
  ⟨0x1401A0, 1, 4, false, [⟨31, 0, .prw, 0x0, false⟩]⟩,
  ⟨0x1401A4, 1, 4, false, [⟨31, 0, .prw, 0x0, false⟩]⟩,
  ⟨0x1401A8, 1, 4, false, [⟨31, 0, .prw, 0x0, false⟩]⟩,
  ⟨0x1401AC, 1, 4, false, [⟨31, 31, .prw, 0x0, false⟩, ⟨30, 0, .prw, 0x0, false⟩]⟩,
  ⟨0x1401B0, 1, 4, false, [⟨31, 31, .prw, 0x0, false⟩, ⟨30, 0, .resv, 0x0, false⟩]⟩,
  ⟨0x1401B4, 1, 4, false, [⟨31, 24, .sqc, 0x0, false⟩, ⟨23, 16, .sqc, 0x0, false⟩, ⟨15, 1, .resv, 0x0, false⟩, ⟨0, 0, .ro, 0x0, false⟩]⟩]

/-- Register rows of PKT (R207), part 2. -/
def rowsPKT2 : List RegRow := [
  ⟨0x140200, 1, 4, false, [⟨31, 0, .ro, 0x0, false⟩]⟩,
  ⟨0x140204, 1, 4, false, [⟨31, 0, .ro, 0x0, false⟩]⟩,
  ⟨0x140208, 1, 4, false, [⟨31, 0, .ro, 0x0, false⟩]⟩,
  ⟨0x14020C, 1, 4, false, [⟨31, 0, .ro, 0x0, false⟩]⟩,
  ⟨0x140210, 1, 4, false, [⟨31, 0, .ro, 0x0, false⟩]⟩,
  ⟨0x140214, 1, 4, false, [⟨31, 0, .ro, 0x0, false⟩]⟩,
  ⟨0x140218, 1, 4, false, [⟨31, 0, .ro, 0x0, false⟩]⟩,
  ⟨0x14021C, 1, 4, false, [⟨31, 0, .ro, 0x0, false⟩]⟩,
  ⟨0x140220, 1, 4, false, [⟨31, 0, .ro, 0x0, false⟩]⟩,
  ⟨0x140224, 1, 4, false, [⟨31, 0, .ro, 0x0, false⟩]⟩,
  ⟨0x140228, 1, 4, false, [⟨31, 0, .ro, 0x0, false⟩]⟩,
  ⟨0x1403F0, 1, 4, false, [⟨31, 0, .ro, 0x0, false⟩]⟩]

/-- Register rows of PKT (R207), part 3. -/
def rowsPKT3 : List RegRow := [
  ⟨0x1403F4, 1, 4, false, [⟨31, 0, .rw, 0x0, false⟩]⟩]

/-- Every register of PKT (R207). -/
def rowsPKT : List RegRow := rowsPKT0 ++ rowsPKT1 ++ rowsPKT2 ++ rowsPKT3

/-- Register rows of TXS (R207), part 0. -/
def rowsTXS0 : List RegRow := [
  ⟨0x150000, 1, 4, false, [⟨31, 24, .sqc, 0x0, false⟩, ⟨23, 3, .resv, 0x0, false⟩, ⟨2, 2, .sqc, 0x0, false⟩, ⟨1, 1, .sqc, 0x0, false⟩, ⟨0, 0, .sqc, 0x0, false⟩]⟩,
  ⟨0x150004, 1, 4, false, [⟨31, 3, .resv, 0x0, false⟩, ⟨2, 2, .ro, 0x0, false⟩, ⟨1, 1, .ro, 0x0, false⟩, ⟨0, 0, .ro, 0x0, false⟩]⟩,
  ⟨0x150008, 1, 4, false, [⟨31, 12, .resv, 0x0, false⟩, ⟨11, 8, .rwb, 0x0, true⟩, ⟨7, 6, .resv, 0x0, false⟩, ⟨5, 0, .rwb, 0x0, true⟩]⟩,
  ⟨0x150010, 1, 4, false, [⟨31, 0, .rw, 0x0, false⟩]⟩,
  ⟨0x150014, 1, 4, false, [⟨31, 31, .wo, 0x0, false⟩, ⟨30, 16, .resv, 0x0, false⟩, ⟨15, 0, .rw, 0x0, false⟩]⟩,
  ⟨0x150018, 1, 4, false, [⟨31, 24, .sqc, 0x0, false⟩, ⟨23, 16, .resv, 0x0, false⟩, ⟨15, 8, .sqc, 0x0, false⟩, ⟨7, 0, .resv, 0x0, false⟩]⟩,
  ⟨0x150040, 8, 4, false, [⟨3, 0, .rwb, 0x0, true⟩, ⟨7, 4, .rwb, 0x0, true⟩, ⟨11, 8, .rwb, 0x0, true⟩, ⟨15, 12, .rwb, 0x0, true⟩, ⟨19, 16, .rwb, 0x0, true⟩, ⟨23, 20, .rwb, 0x0, true⟩, ⟨27, 24, .rwb, 0x0, true⟩, ⟨31, 28, .rwb, 0x0, true⟩]⟩,
  ⟨0x150080, 1, 4, false, [⟨31, 8, .resv, 0x0, false⟩, ⟨7, 4, .rw, 0x0, false⟩, ⟨3, 0, .rw, 0x0, false⟩]⟩,
  ⟨0x150084, 1, 4, true, [⟨31, 0, .rwb, 0x0, true⟩]⟩,
  ⟨0x150088, 1, 4, true, [⟨31, 24, .resv, 0x0, false⟩, ⟨23, 0, .rwb, 0x0, true⟩]⟩,
  ⟨0x15008C, 1, 4, true, [⟨31, 20, .resv, 0x0, false⟩, ⟨19, 0, .rwb, 0x0, true⟩]⟩,
  ⟨0x150090, 1, 4, true, [⟨31, 16, .ro, 0x0, false⟩, ⟨15, 1, .resv, 0x0, false⟩, ⟨0, 0, .ro, 0x0, false⟩]⟩]

/-- Register rows of TXS (R207), part 1. -/
def rowsTXS1 : List RegRow := [
  ⟨0x1500A0, 1, 4, false, [⟨31, 8, .resv, 0x0, false⟩, ⟨7, 0, .rw, 0x0, false⟩]⟩,
  ⟨0x1500A4, 1, 4, true, [⟨31, 0, .rwb, 0x0, true⟩]⟩,
  ⟨0x1500A8, 1, 4, true, [⟨31, 24, .resv, 0x0, false⟩, ⟨23, 0, .rwb, 0x0, true⟩]⟩,
  ⟨0x150200, 1, 4, false, [⟨31, 0, .ro, 0x0, false⟩]⟩,
  ⟨0x150204, 1, 4, false, [⟨31, 0, .ro, 0x0, false⟩]⟩,
  ⟨0x150208, 1, 4, false, [⟨31, 0, .ro, 0x0, false⟩]⟩,
  ⟨0x15020C, 1, 4, false, [⟨31, 0, .ro, 0x0, false⟩]⟩,
  ⟨0x150210, 1, 4, false, [⟨31, 0, .ro, 0x0, false⟩]⟩,
  ⟨0x150214, 1, 4, false, [⟨31, 0, .ro, 0x0, false⟩]⟩,
  ⟨0x1503F0, 1, 4, false, [⟨31, 0, .ro, 0x0, false⟩]⟩,
  ⟨0x1503F4, 1, 4, false, [⟨31, 0, .rw, 0x0, false⟩]⟩]

/-- Every register of TXS (R207). -/
def rowsTXS : List RegRow := rowsTXS0 ++ rowsTXS1

/-- Register rows of NVS (R235), part 0. -/
def rowsNVS0 : List RegRow := [
  ⟨0x160000, 1, 4, false, [⟨31, 24, .sqc, 0x0, false⟩, ⟨23, 5, .resv, 0x0, false⟩, ⟨4, 4, .sqc, 0x0, false⟩, ⟨3, 3, .sqc, 0x0, false⟩, ⟨2, 2, .sqc, 0x0, false⟩, ⟨1, 1, .sqc, 0x0, false⟩, ⟨0, 0, .sqc, 0x0, false⟩]⟩,
  ⟨0x160004, 1, 4, false, [⟨31, 3, .resv, 0x0, false⟩, ⟨2, 2, .ro, 0x0, false⟩, ⟨1, 1, .ro, 0x0, false⟩, ⟨0, 0, .ro, 0x0, false⟩]⟩,
  ⟨0x160008, 1, 4, false, [⟨31, 23, .resv, 0x0, false⟩, ⟨22, 20, .rwb, 0x2, false⟩, ⟨19, 16, .resv, 0x0, false⟩, ⟨15, 0, .rwb, 0x1388, false⟩]⟩,
  ⟨0x16000C, 1, 4, false, [⟨31, 16, .rwb, 0x258, false⟩, ⟨15, 8, .resv, 0x0, false⟩, ⟨7, 0, .rwb, 0xA, false⟩]⟩,
  ⟨0x160010, 1, 4, false, [⟨31, 0, .rwb, 0xA, false⟩]⟩,
  ⟨0x160014, 1, 4, false, [⟨31, 0, .rwb, 0x64, false⟩]⟩,
  ⟨0x160018, 1, 4, false, [⟨31, 0, .rwb, 0x3E8, false⟩]⟩,
  ⟨0x16001C, 1, 4, false, [⟨31, 0, .rwb, 0x2710, false⟩]⟩,
  ⟨0x160020, 1, 4, false, [⟨31, 8, .resv, 0x0, false⟩, ⟨7, 0, .rw, 0x0, false⟩]⟩,
  ⟨0x160024, 1, 4, true, [⟨31, 31, .prw, 0x0, true⟩, ⟨30, 30, .ro, 0x0, true⟩, ⟨29, 16, .resv, 0x0, false⟩, ⟨15, 0, .prw, 0x0, true⟩]⟩,
  ⟨0x160028, 1, 4, true, [⟨31, 29, .ro, 0x0, false⟩, ⟨28, 28, .ro, 0x0, false⟩, ⟨27, 27, .ro, 0x0, false⟩, ⟨26, 26, .ro, 0x0, false⟩, ⟨25, 25, .ro, 0x0, false⟩, ⟨24, 24, .ro, 0x0, false⟩, ⟨23, 16, .ro, 0x0, false⟩, ⟨15, 8, .ro, 0x0, false⟩, ⟨7, 0, .resv, 0x0, false⟩]⟩,
  ⟨0x16002C, 1, 4, true, [⟨31, 0, .ro, 0x0, false⟩]⟩]

/-- Register rows of NVS (R235), part 1. -/
def rowsNVS1 : List RegRow := [
  ⟨0x160030, 1, 4, true, [⟨31, 16, .ro, 0x0, false⟩, ⟨15, 0, .ro, 0x0, false⟩]⟩,
  ⟨0x160034, 1, 4, true, [⟨31, 28, .ro, 0x0, false⟩, ⟨27, 24, .ro, 0x0, false⟩, ⟨23, 18, .resv, 0x0, false⟩, ⟨17, 16, .ro, 0x0, false⟩, ⟨15, 0, .ro, 0x0, false⟩]⟩,
  ⟨0x160040, 8, 32, true, [⟨31, 31, .prw, 0x0, true⟩, ⟨30, 4, .resv, 0x0, false⟩, ⟨3, 0, .prw, 0x0, true⟩]⟩,
  ⟨0x160044, 8, 32, true, [⟨31, 0, .prw, 0x0, true⟩]⟩,
  ⟨0x160048, 8, 32, true, [⟨31, 0, .prw, 0x0, true⟩]⟩,
  ⟨0x16004C, 8, 32, true, [⟨31, 0, .prw, 0x0, true⟩]⟩,
  ⟨0x160050, 8, 32, true, [⟨31, 0, .prw, 0x0, true⟩]⟩,
  ⟨0x160054, 8, 32, true, [⟨31, 0, .prw, 0x0, true⟩]⟩,
  ⟨0x160180, 16, 4, false, [⟨31, 30, .ro, 0x0, false⟩, ⟨29, 16, .resv, 0x0, false⟩, ⟨15, 0, .ro, 0x0, false⟩]⟩,
  ⟨0x160200, 1, 4, false, [⟨31, 0, .ro, 0x0, false⟩]⟩,
  ⟨0x160204, 1, 4, false, [⟨31, 0, .ro, 0x0, false⟩]⟩,
  ⟨0x160208, 1, 4, false, [⟨31, 0, .ro, 0x0, false⟩]⟩]

/-- Register rows of NVS (R235), part 2. -/
def rowsNVS2 : List RegRow := [
  ⟨0x16020C, 1, 4, false, [⟨31, 0, .ro, 0x0, false⟩]⟩,
  ⟨0x160210, 1, 4, false, [⟨31, 0, .ro, 0x0, false⟩]⟩,
  ⟨0x160214, 1, 4, false, [⟨31, 0, .ro, 0x0, false⟩]⟩,
  ⟨0x160218, 1, 4, false, [⟨31, 0, .ro, 0x0, false⟩]⟩,
  ⟨0x16021C, 1, 4, false, [⟨31, 0, .ro, 0x0, false⟩]⟩,
  ⟨0x160220, 1, 4, false, [⟨31, 0, .ro, 0x0, false⟩]⟩,
  ⟨0x1603F0, 1, 4, false, [⟨31, 0, .ro, 0x0, false⟩]⟩,
  ⟨0x1603F4, 1, 4, false, [⟨31, 0, .rw, 0x0, false⟩]⟩]

/-- Every register of NVS (R235). -/
def rowsNVS : List RegRow := rowsNVS0 ++ rowsNVS1 ++ rowsNVS2

/-- Register rows of CIP (R256), part 0. -/
def rowsCIP0 : List RegRow := [
  ⟨0x170000, 1, 4, false, [⟨31, 24, .sqc, 0x0, false⟩, ⟨23, 5, .resv, 0x0, false⟩, ⟨4, 4, .sqc, 0x0, false⟩, ⟨3, 3, .sqc, 0x0, false⟩, ⟨2, 2, .sqc, 0x0, false⟩, ⟨1, 1, .sqc, 0x0, false⟩, ⟨0, 0, .sqc, 0x0, false⟩]⟩,
  ⟨0x170004, 1, 4, false, [⟨31, 1, .resv, 0x0, false⟩, ⟨0, 0, .ro, 0x0, false⟩]⟩,
  ⟨0x170010, 1, 4, false, [⟨31, 16, .resv, 0x0, false⟩, ⟨15, 0, .prw, 0x0, false⟩]⟩,
  ⟨0x170014, 1, 4, false, [⟨31, 31, .prw, 0x0, false⟩, ⟨30, 4, .resv, 0x0, false⟩, ⟨3, 0, .prw, 0x0, false⟩]⟩,
  ⟨0x170018, 1, 4, false, [⟨31, 24, .sqc, 0x0, false⟩, ⟨23, 16, .sqc, 0x0, false⟩, ⟨15, 4, .resv, 0x0, false⟩, ⟨3, 0, .ro, 0x0, false⟩]⟩,
  ⟨0x170080, 32, 4, false, [⟨31, 0, .prw, 0x0, false⟩]⟩,
  ⟨0x170100, 16, 4, false, [⟨31, 31, .rwb, 0x0, true⟩, ⟨30, 30, .rwb, 0x0, true⟩, ⟨29, 29, .rwb, 0x0, true⟩, ⟨28, 16, .resv, 0x0, false⟩, ⟨15, 0, .rwb, 0x0, true⟩]⟩,
  ⟨0x170200, 1, 4, false, [⟨31, 0, .ro, 0x0, false⟩]⟩,
  ⟨0x170204, 1, 4, false, [⟨31, 0, .ro, 0x0, false⟩]⟩,
  ⟨0x170208, 1, 4, false, [⟨31, 0, .ro, 0x0, false⟩]⟩,
  ⟨0x17020C, 1, 4, false, [⟨31, 0, .ro, 0x0, false⟩]⟩,
  ⟨0x170210, 1, 4, false, [⟨31, 0, .ro, 0x0, false⟩]⟩]

/-- Register rows of CIP (R256), part 1. -/
def rowsCIP1 : List RegRow := [
  ⟨0x170214, 1, 4, false, [⟨31, 0, .ro, 0x0, false⟩]⟩,
  ⟨0x170218, 1, 4, false, [⟨31, 0, .ro, 0x0, false⟩]⟩,
  ⟨0x17021C, 1, 4, false, [⟨31, 0, .ro, 0x0, false⟩]⟩,
  ⟨0x170220, 1, 4, false, [⟨31, 0, .ro, 0x0, false⟩]⟩,
  ⟨0x170224, 1, 4, false, [⟨31, 0, .ro, 0x0, false⟩]⟩,
  ⟨0x1703F0, 1, 4, false, [⟨31, 0, .ro, 0x0, false⟩]⟩,
  ⟨0x1703F4, 1, 4, false, [⟨31, 0, .rw, 0x0, false⟩]⟩]

/-- Every register of CIP (R256). -/
def rowsCIP : List RegRow := rowsCIP0 ++ rowsCIP1

/-- Register rows of CVU (R257), part 0. -/
def rowsCVU0 : List RegRow := [
  ⟨0x180000, 1, 4, false, [⟨31, 24, .sqc, 0x0, false⟩, ⟨23, 2, .resv, 0x0, false⟩, ⟨1, 1, .sqc, 0x0, false⟩, ⟨0, 0, .sqc, 0x0, false⟩]⟩,
  ⟨0x180010, 1, 4, false, [⟨31, 0, .rw, 0x0, false⟩]⟩,
  ⟨0x180014, 1, 4, false, [⟨31, 0, .rw, 0x0, false⟩]⟩,
  ⟨0x180018, 1, 4, false, [⟨31, 0, .rw, 0x0, false⟩]⟩,
  ⟨0x18001C, 1, 4, false, [⟨31, 31, .wo, 0x0, false⟩, ⟨30, 30, .wo, 0x0, false⟩, ⟨29, 4, .resv, 0x0, false⟩, ⟨3, 0, .wo, 0x0, false⟩]⟩,
  ⟨0x180020, 1, 4, false, [⟨31, 24, .sqc, 0x0, false⟩, ⟨23, 16, .sqc, 0x0, false⟩, ⟨15, 1, .resv, 0x0, false⟩, ⟨0, 0, .ro, 0x0, false⟩]⟩,
  ⟨0x180100, 16, 32, false, [⟨31, 3, .resv, 0x0, false⟩, ⟨2, 1, .rw, 0x0, false⟩, ⟨0, 0, .rw, 0x0, false⟩]⟩,
  ⟨0x180104, 16, 32, false, [⟨31, 0, .rw, 0x0, false⟩]⟩,
  ⟨0x180108, 16, 32, false, [⟨31, 0, .rw, 0x0, false⟩]⟩,
  ⟨0x18010C, 16, 32, false, [⟨31, 0, .rw, 0x0, false⟩]⟩,
  ⟨0x180110, 16, 32, false, [⟨31, 0, .ro, 0x0, false⟩]⟩,
  ⟨0x180114, 16, 32, false, [⟨31, 0, .ro, 0x0, false⟩]⟩]

/-- Register rows of CVU (R257), part 1. -/
def rowsCVU1 : List RegRow := [
  ⟨0x180300, 1, 4, false, [⟨31, 0, .ro, 0x0, false⟩]⟩,
  ⟨0x180304, 1, 4, false, [⟨31, 0, .ro, 0x0, false⟩]⟩,
  ⟨0x1803F0, 1, 4, false, [⟨31, 0, .ro, 0x0, false⟩]⟩,
  ⟨0x1803F4, 1, 4, false, [⟨31, 0, .rw, 0x0, false⟩]⟩]

/-- Every register of CVU (R257). -/
def rowsCVU : List RegRow := rowsCVU0 ++ rowsCVU1

/-- Register rows of HBM (R187), part 0. -/
def rowsHBM0 : List RegRow := [
  ⟨0x190000, 1, 4, false, [⟨31, 24, .sqc, 0x0, false⟩, ⟨23, 4, .resv, 0x0, false⟩, ⟨3, 3, .sqc, 0x0, false⟩, ⟨2, 2, .sqc, 0x0, false⟩, ⟨1, 1, .sqc, 0x0, false⟩, ⟨0, 0, .sqc, 0x0, false⟩]⟩,
  ⟨0x190004, 1, 4, false, [⟨31, 1, .resv, 0x0, false⟩, ⟨0, 0, .ro, 0x0, false⟩]⟩,
  ⟨0x190008, 1, 4, false, [⟨31, 8, .resv, 0x0, false⟩, ⟨7, 0, .rwb, 0x18, false⟩]⟩,
  ⟨0x190010, 4, 4, false, [⟨31, 30, .ro, 0x0, false⟩, ⟨29, 24, .resv, 0x0, false⟩, ⟨23, 16, .ro, 0x0, false⟩, ⟨15, 8, .resv, 0x0, false⟩, ⟨7, 0, .ro, 0x0, false⟩]⟩,
  ⟨0x190100, 128, 4, false, [⟨31, 30, .ro, 0x0, false⟩, ⟨29, 29, .ro, 0x0, false⟩, ⟨28, 16, .resv, 0x0, false⟩, ⟨15, 8, .ro, 0x0, false⟩, ⟨7, 0, .ro, 0x0, false⟩]⟩,
  ⟨0x190300, 1, 4, false, [⟨31, 0, .ro, 0x0, false⟩]⟩,
  ⟨0x190304, 1, 4, false, [⟨31, 0, .ro, 0x0, false⟩]⟩,
  ⟨0x190308, 1, 4, false, [⟨31, 0, .ro, 0x0, false⟩]⟩,
  ⟨0x19030C, 1, 4, false, [⟨31, 0, .ro, 0x0, false⟩]⟩,
  ⟨0x190310, 1, 4, false, [⟨31, 0, .ro, 0x0, false⟩]⟩,
  ⟨0x1903F0, 1, 4, false, [⟨31, 0, .ro, 0x0, false⟩]⟩,
  ⟨0x1903F4, 1, 4, false, [⟨31, 0, .rw, 0x0, false⟩]⟩]

/-- Every register of HBM (R187). -/
def rowsHBM : List RegRow := rowsHBM0

/-- Register rows of ETH (R391), part 0. -/
def rowsETH0 : List RegRow := [
  ⟨0x1A0000, 1, 4, false, [⟨31, 24, .sqc, 0x0, false⟩, ⟨23, 4, .resv, 0x0, false⟩, ⟨3, 3, .sqc, 0x0, false⟩, ⟨2, 2, .sqc, 0x0, false⟩, ⟨1, 1, .sqc, 0x0, false⟩, ⟨0, 0, .sqc, 0x0, false⟩]⟩,
  ⟨0x1A0004, 1, 4, false, [⟨31, 4, .resv, 0x0, false⟩, ⟨3, 0, .ro, 0x0, false⟩]⟩,
  ⟨0x1A0008, 1, 4, false, [⟨31, 31, .prw, 0x0, false⟩, ⟨30, 2, .resv, 0x0, false⟩, ⟨1, 0, .prw, 0x0, false⟩]⟩,
  ⟨0x1A000C, 1, 4, false, [⟨31, 24, .sqc, 0x0, false⟩, ⟨23, 16, .sqc, 0x0, false⟩, ⟨15, 3, .resv, 0x0, false⟩, ⟨2, 2, .ro, 0x0, false⟩, ⟨1, 0, .ro, 0x0, false⟩]⟩,
  ⟨0x1A0010, 4, 4, false, [⟨31, 30, .ro, 0x0, false⟩, ⟨29, 28, .ro, 0x0, true⟩, ⟨27, 24, .resv, 0x0, false⟩, ⟨23, 16, .ro, 0x0, false⟩, ⟨15, 0, .ro, 0x0, false⟩]⟩,
  ⟨0x1A0020, 4, 4, false, [⟨31, 16, .resv, 0x0, false⟩, ⟨15, 8, .rwb, 0x0, true⟩, ⟨7, 4, .resv, 0x0, false⟩, ⟨3, 0, .rwb, 0x0, true⟩]⟩,
  ⟨0x1A0040, 32, 4, false, [⟨31, 31, .ro, 0x0, false⟩, ⟨30, 24, .resv, 0x0, false⟩, ⟨23, 16, .ro, 0x0, false⟩, ⟨15, 0, .ro, 0x0, false⟩]⟩,
  ⟨0x1A0100, 4, 16, false, [⟨31, 0, .ro, 0x0, false⟩]⟩,
  ⟨0x1A0104, 4, 16, false, [⟨31, 0, .ro, 0x0, false⟩]⟩,
  ⟨0x1A0108, 4, 16, false, [⟨31, 0, .ro, 0x0, false⟩]⟩,
  ⟨0x1A010C, 4, 16, false, [⟨31, 0, .ro, 0x0, false⟩]⟩,
  ⟨0x1A0200, 1, 4, false, [⟨31, 0, .ro, 0x0, false⟩]⟩]

/-- Register rows of ETH (R391), part 1. -/
def rowsETH1 : List RegRow := [
  ⟨0x1A0204, 1, 4, false, [⟨31, 0, .ro, 0x0, false⟩]⟩,
  ⟨0x1A03F0, 1, 4, false, [⟨31, 0, .ro, 0x0, false⟩]⟩,
  ⟨0x1A03F4, 1, 4, false, [⟨31, 0, .rw, 0x0, false⟩]⟩]

/-- Every register of ETH (R391). -/
def rowsETH : List RegRow := rowsETH0 ++ rowsETH1

/-- The rows of the block with index `b` of Table 11-1 (R258). -/
def blockRows : Nat → List RegRow
  | 0 => rowsDEV
  | 1 => rowsSIG
  | 2 => rowsPWR
  | 3 => rowsSTR
  | 4 => rowsHST
  | 5 => rowsSLC
  | 6 => rowsSTW
  | 7 => rowsERR
  | 8 => rowsGAL
  | 9 => rowsFLT
  | 10 => rowsRTE
  | 11 => rowsPLC
  | 12 => rowsPKT
  | 13 => rowsTXS
  | 14 => rowsNVS
  | 15 => rowsCIP
  | 16 => rowsCVU
  | 17 => rowsHBM
  | 18 => rowsETH
  | _ => []

end Sys2Proof.Machine
end

