-- ==== Sys2Proof/Machine/State.lean ====
section
/-! DEFINITION. The state of the block, plain data (R1 to R392), the reasons a step could stop, and the state at the end of a cold
reset (R8, R365). -/

namespace Sys2Proof.Machine

/-- The reasons of a fault. -/
inductive Fault
  /-- Raised by no meaning: every command of the spec leaves a next state, and what the spec leaves open is a free value. Safe. -/
  | unreachable
  deriving DecidableEq, Repr

/-- The reasons of a refusal. -/
inductive Refusal
  /-- Raised by an arm of `exec` whose command has no meaning yet. Safe. -/
  | notModelled (mnemonic : String)
  deriving DecidableEq, Repr

/-- The state of the block. -/
structure State where
  /-- Registers by own BAR0 address; one that is not listed holds its reset value (R8). Windows shown through a selector stand under
  their own address plus 2^26 times one more than the selector. -/
  regs : List (Nat × Word)
  /-- Pending writes of buffered registers: mask of the bits written, and their value (R266). -/
  pend : List (Nat × (Word × Word))
  /-- Latched high halves by master and register (R261). -/
  latches : List (Nat × Word)
  /-- Blocks whose SEAL_REF has been written since the last reset or SWITCH, and blocks that reported a mismatch (R270). -/
  sealOk : List Nat
  sealBad : List Nat
  /-- Number of the next draw of a free value (log entry 3). -/
  draws : Nat
  dev : Dev
  pwr : Pwr
  str : Str
  time : Time
  /-- Oscillator time from which each running time limit counts (R99). -/
  since : List (Timer × Nat)
  /-- Limit in ms at which the running lease timer of each port was last started (R311). -/
  leaseMs : List (Nat × Nat)
  slcCmd : Option SlcCmd
  /-- Slices that are not FREE with an empty entry (R301). -/
  slices : List (Nat × Slice)
  /-- Draw of the restore nonce of slice 0; the nonces of all slices follow it (R316). -/
  nonceBase : Nat
  /-- Bound rings (R308). -/
  rings : List (Nat × Ring)
  /-- Fetched operations that have not retired, oldest first. -/
  ops : List Op
  opNext : Nat
  /-- Records that wait for their completion ring, by ring, oldest first (R309). -/
  cqWait : List (Nat × List Rec)
  /-- Operations that completed: owner, source engine and tag, newest first (R96). -/
  recent : List (Nat × Nat × Nat)
  clasps : List Clasp
  /-- Writes into the error ring that fail next (R273, Table 12-6). -/
  errFail : Nat
  /-- Error records that an H0 pause keeps from the ring, oldest first (Table 02-8). -/
  errHold : List ErrRec
  /-- Slice message entries by 64·slice + entry (R287). -/
  msgs : List (Nat × MsgEntry)
  /-- MSI-X entries of PF0 by 2,048·port + vector (R285). -/
  msix : List (Nat × MsgEntry)
  /-- Ports whose PF0 holds INTA asserted (R286). -/
  intx : List Nat
  /-- Links by 2·port + half. -/
  links : List (Nat × Link)
  /-- Configuration space of PF0 of port p under p, of PF1 of half h under 4 + 2·p + h. -/
  fns : List (Nat × FnCfg)
  mem : Mem
  gal : Gal
  flights : List (Nat × Flight)
  /-- Flight control messages that wait for acknowledgement, and the number of the next one (R113, R122). -/
  flCtl : List Ctl
  flCtlNext : Nat
  /-- ARM and UNLOAD operations that wait for the completion of the run before (R120; log entry 128). -/
  fltWait : List Nat
  rte : Rte
  plc : Plc
  pp : Pp
  nvs : Nvs
  cip : Cip
  stw : Stw
  sig : Sig
  mio : Mio
  /-- What the device has sent to the outside, newest first (the model's own; log entry 4). -/
  outbox : List Out
  /-- Register writes held for a paused hall, in arrival order, as the commands that they are (R267). -/
  held : List Instr
  /-- Slice commands, PLDM and SPDM requests that wait for MGMT, in arrival order (R322, R329). -/
  mgmt : List Instr
  /-- Commands that wait, first in first out. -/
  pending : List Instr
  deriving DecidableEq, Repr

/-- An outcome of a command: every command of the block leaves a next state. -/
abbrev Res := Host.Outcome State Fault Refusal

/-- What telemetry has gathered at the start of a period. -/
def Tel.empty : Tel := ⟨0, 0, 0, 0, 0, 0, 0, [], [], 0, 0, 0, 0, [], [], []⟩

/-- The state at the end of the cold reset at power-up: DEV_STATE reads BOOT (R8, R364), every register holds its reset value with
PWR_LAST_RESET naming power-up (Table 16-12), nothing runs, and memory lists nothing. The NOR devices hold no stream, no firmware, no Locket key and no used leaf (log entry 12); draw 0 gave the
debug nonce and draws 1 to 256 the restore nonces (log entry 14). -/
def State.reset : State where
  regs := [(0x2003C, 0x10000000#32)]
  pend := []
  latches := []
  sealOk := []
  sealBad := []
  draws := 257
  dev := { st := .boot, shed := 0, limitedCause := 0, fatalReason := 0, stream := false, firmware := false, envWait := false }
  pwr := { samples := [], lowNow := 0xFFFF, lowLast := 0xFFFF, measured := 0, allowance := 650000 * 10 ^ 6, devCharge := 0, engCharge := [],
           sliceCharge := [], ctrlCharge := [], unreserved := 0, offered := [], refused := [], clamped := false, table := [], nextTable := none,
           saving := false, cap := 650, energy := 650000 }
  str := { cmd := none, image := [], halls := [], touched := false, refused := 0, tables := [], banks0 := [], banks1 := [], env := [],
           tabs := [], slotA := [], slotB := [], records := 0, accelOff := [], portOff := [], groupOff := [], quiesceAt := 0, tabWait := false, ptpOff := false, beOff := [] }
  time := { ns := 0, up := 0, frac := 0, residue := 0, run := 0, st := .acquiring, heard := false, ppsWarned := false, ppsAt := none, stamps := [] }
  since := []
  leaseMs := []
  slcCmd := none
  slices := []
  nonceBase := 1
  rings := []
  ops := []
  opNext := 1
  cqWait := []
  recent := []
  clasps := []
  errFail := 0
  errHold := []
  msgs := []
  msix := []
  intx := []
  links := []
  fns := []
  mem := []
  gal := { cmds := [], held := [], heads := [], ended := [], slots := [], turn := 0, turnLeft := 0 }
  flights := []
  flCtl := []
  flCtlNext := 0
  fltWait := []
  rte := { qps := [], keys := [], tags := [], miss := [], useClock := 0 }
  plc := { objs := [], tags := [], pools := [], moves := [], cands := [], maps := [], waits := [], stores := [], retiring := [], retired := [],
           fetches := [], bars := [], kept := [], ce := [], evac := none }
  pp := { commit := false, trees := [], tload := none, meters := [], queueB := [], sliceB := [], queues := [], lastOwner := [], deficit := [], turn := [],
          txWait := [], credit := [], rxDebt := [], slow := [], reasm := [], ingress := [], ingressDrops := [] }
  nvs := { ctrls := [], be := [], next := 1, nor := [], paused := none, temp := 0 }
  cip := { sas := [], removeCmd := none, hold := [], useClock := 0, rngFault := false, job := none }
  stw := { slotA := [], slotB := [], fw := none, copy := none, crashes := [], logs := [], lost := [], tel := Tel.empty }
  sig := { mr := [], lkey := none, nonceDraw := 0, lmsEnd := 0, lmsNext := 0, stage1Svn := 0, spdm := [] }
  mio := { modPwrgd := false, stbyOk := true, ppsOut := false, portHold := false, dynAddr := none, eid := 0, tapReset := false, tapIr := 0,
           sensors := [] }
  outbox := []
  held := []
  mgmt := []
  pending := []

end Sys2Proof.Machine
end

