-- ==== Sys2Proof/Machine/Ops.lean ====
section
/-! DEFINITION. The named operations over the register file: reset values, fields, counters, sequence-clear events, buffered
writes, privilege and the states in which a block answers (R7, R258 to R267). -/

namespace Sys2Proof.Machine

/-! ### Reset values and fields -/

/-- Index in Table 11-1 of the block that decodes a BAR0 offset, if one does (R258). -/
def blockOf (a : Nat) : Option Nat :=
  let k := a / 65536
  if k < 8 then some k else if 16 ≤ k ∧ k < 27 then some (k - 8) else none

/-- Base of the block with an index of Table 11-1. -/
def blockBase (b : Nat) : Nat := if b < 8 then b * 65536 else (b + 8) * 65536

/-- Decoded address bits N of a block (Table 11-1). -/
def blockBits (b : Nat) : Nat :=
  if b = 17 then 12 else if b = 4 ∨ b = 6 ∨ b = 18 then 11 else 10

/-- Own address of the register that an offset reaches: aliases are folded away (R259). -/
def ownAddr (a : Nat) : Option Nat :=
  (blockOf a).map fun b => blockBase b + a % 2 ^ blockBits b / 4 * 4

/-- A field with its bounds in order. -/
def Fld.ok (f : Fld) : Bool := f.lo ≤ f.hi && f.hi < 32

/-- Fields of one register with no bit in common, or of different registers. -/
def Fld.apart (f g : Fld) : Bool := f.reg != g.reg || g.hi < f.lo || f.hi < g.lo

/-- A register row holds an address. -/
def RegRow.has (r : RegRow) (a : Nat) : Bool :=
  r.addr ≤ a && (a - r.addr) % r.stride == 0 && (a - r.addr) / r.stride < r.count

/-- The row of a register. -/
def rowOf (a : Nat) : Option RegRow :=
  (blockOf (a % 2 ^ 26)).bind fun b => (blockRows b).find? (fun r => r.has (a % 2 ^ 26))

/-- Reset value of the fields of a row (R8). -/
def RegRow.reset (r : RegRow) : Nat := r.fields.foldl (fun n f => n + f.rst * 2 ^ f.lo) 0

/-- Reset value of a register (R8); "Stream" fields read 0 while no stream runs (R267). -/
def resetOf (a : Nat) : Nat := ((rowOf a).map RegRow.reset).getD 0

/-- The active value of a register. -/
def State.reg (s : State) (a : Nat) : Nat :=
  match look s.regs a with
  | some w => w.toNat
  | none => resetOf a

/-- A register set to a value of 32 bits. -/
def State.setReg (s : State) (a v : Nat) : State := { s with regs := put s.regs a (BitVec.ofNat 32 v) }

/-- The value of a field. -/
def State.getF (s : State) (f : Fld) : Nat := bits (s.reg f.reg) f.hi f.lo

/-- A field set to a value; the other bits of its register stay. -/
def State.setF (s : State) (f : Fld) (v : Nat) : State := s.setReg f.reg (setBits (s.reg f.reg) f.hi f.lo v)

/-- Several fields set, in order. -/
def State.setFs (s : State) (l : List (Fld × Nat)) : State := l.foldl (fun s e => s.setF e.1 e.2) s

/-- A wrapping counter advanced. -/
def State.bumpBy (s : State) (f : Fld) (n : Nat) : State := s.setF f (s.getF f + n)

/-- A wrapping counter advanced by 1. -/
def State.bump (s : State) (f : Fld) : State := s.bumpBy f 1

/-- A saturating counter advanced by 1. -/
def State.bumpSat (s : State) (f : Fld) : State := s.setF f (min (s.getF f + 1) (2 ^ (f.hi + 1 - f.lo) - 1))

/-- A 64-bit counter in a _LO and a _HI register advanced; it wraps at 2^64. -/
def State.bump64 (s : State) (lo hi : Nat) (n : Nat) : State :=
  let v := s.reg lo + 2 ^ 32 * s.reg hi + n
  (s.setReg lo v).setReg hi (v / 2 ^ 32)

/-- SEQ of a sequence-clear register (R265). -/
def seqOf (a : Nat) : Fld := ⟨a, 31, 24⟩

/-- An event that a sequence-clear register reports: the field takes the value and SEQ advances (R265). -/
def State.eventV (s : State) (f : Fld) (v : Nat) : State := (s.setF f v).bump (seqOf f.reg)

/-- An event bit set in a sequence-clear register (R265). -/
def State.event (s : State) (f : Fld) : State := s.eventV f 1

/-! ### Free draws, output, time -/

/-- One draw of a 64-bit free value (log entry 3). -/
def State.drawWord (s : State) : Nat × State := ((Config.freeWord s.draws).toNat, { s with draws := s.draws + 1 })

/-- Something sent to the outside. -/
def State.send (s : State) (o : Out) : State := { s with outbox := o :: s.outbox }

/-- Newel time now, in ns (R99). -/
def State.now (s : State) : Nat := s.time.ns

/-- Nanoseconds that the H11 oscillator has counted: intervals run on it, and no STEP moves it (R99). -/
def State.up (s : State) : Nat := s.time.up

/-- A time passes: the oscillator and Newel time both count it. -/
def State.elapse (s : State) (d : Nat) : State := { s with time := { s.time with ns := s.time.ns + d, up := s.time.up + d } }

/-- Time passes until Newel time is at least an instant, when what names the instant has happened (log entry 7). -/
def State.atLeast (s : State) (t : Nat) : State := s.elapse (t - s.time.ns)

/-- Time passes until the oscillator has counted to an instant, when a timer that ends there has fired (R99; log entry 7). -/
def State.upTo (s : State) (t : Nat) : State := s.elapse (t - s.time.up)

/-- A time limit counts from an instant of the oscillator. -/
def State.countFrom (s : State) (k : Timer) (t : Nat) : State := { s with since := (k, t) :: s.since.filter (·.1 != k) }

/-- A time limit counts from now (R99). -/
def State.begin (s : State) (k : Timer) : State := s.countFrom k s.up

/-- A time limit counts from now where it does not yet count. -/
def State.beginOnce (s : State) (k : Timer) : State := if s.since.any (·.1 == k) then s else s.begin k

/-- A time limit of d ns has passed: at least that much time since it began, and it counts no longer (log entry 7). -/
def State.ripe (s : State) (k : Timer) (d : Nat) : State :=
  match s.since.find? (·.1 == k) with
  | some e => { s.upTo (e.2 + d) with since := s.since.filter (·.1 != k) }
  | none => s

/-- A number of a register or a table where it lies in its range, and else the value that stands for all others. -/
def inRange (lo hi v other : Nat) : Nat := if lo ≤ v ∧ v ≤ hi then v else other

/-! ### Which blocks answer, and to whom -/

/-- A hall is between QUIESCE and RESUME (Table 02-15). -/
def State.hallPaused (s : State) (h : Nat) : Bool := s.getF (F.STR_HALL_PAUSED h) == 1

/-- Halls of a block (Table 11-1). -/
def hallsOf : Nat → List Nat
  | 4 => [0]
  | 5 => [1]
  | 8 => [6, 7]
  | 9 => [11]
  | 10 => [5]
  | 11 => [8]
  | 12 => [2, 3]
  | 13 => [4]
  | 14 => [9]
  | 15 => [10]
  | 16 => [10]
  | _ => []

/-- Blocks of a hall (Table 11-1). -/
def blocksOf : Nat → List Nat
  | 0 => [4]
  | 1 => [5]
  | 2 => [12]
  | 3 => [12]
  | 4 => [13]
  | 5 => [10]
  | 6 => [8]
  | 7 => [8]
  | 8 => [11]
  | 9 => [14]
  | 10 => [15, 16]
  | 11 => [9]
  | _ => []

/-- Device states in which BAR0 answers at all. -/
def DevState.live : DevState → Bool
  | .off => false
  | .standby => false
  | _ => true

/-- A block answers; otherwise it reads 0 and ignores writes (R267). -/
def State.answers (s : State) (b : Nat) : Bool :=
  if s.dev.st = .fatal then b == 0 || b == 1 || b == 2 || b == 7
  else if !s.dev.st.live then false
  else if !s.dev.firmware then b == 0 || b == 1 || b == 2 || b == 7
  else if s.dev.stream then b < 19
  else [0, 1, 2, 3, 4, 6, 7, 17, 18].contains b

/-- DEV_PRIV_PORTS as it applies: 0xF while no stream runs (R262). -/
def State.privPorts (s : State) : Nat := if s.dev.stream then s.getF F.DEV_PRIV_PORTS_PORTS else 15

/-- Privileged masters (R262). -/
def State.privileged (s : State) : Master → Bool
  | .pf0 p => bitAt s.privPorts p
  | .stewardMachine => true
  | .stewardOther => false
  | .signet => false

/-- MASTER encoding (Table 11-2). -/
def Master.code : Master → Nat
  | .pf0 p => p
  | .stewardMachine => 4
  | .stewardOther => 5
  | .signet => 6

/-- KIND encoding (Table 11-2). -/
def Viol.code : Viol → Nat
  | .privRW => 0
  | .signetRW => 1
  | .partialWrite => 2
  | .unmapped => 3
  | .portBound => 4

/-- The counter of a violation (Table 11-2). -/
def Viol.counter : Viol → Fld
  | .partialWrite => F.DEV_CNT_PARTIAL
  | .unmapped => F.DEV_CNT_UNMAPPED
  | _ => F.DEV_CNT_PRIV

/-- A violation counted and shown (R264). -/
def State.violate (s : State) (m : Master) (k : Viol) (off : Nat) : State :=
  (s.bump k.counter).setReg R.DEV_VIOL_LAST (m.code * 2 ^ 29 + k.code * 2 ^ 26 + off % 2 ^ 26)

/-- A write of a master waits: the block's hall is paused, or H0 is paused and the write comes over PCIe (R267, Table 02-8). -/
def State.writeWaits (s : State) (m : Master) (b : Nat) : Bool :=
  (hallsOf b).any s.hallPaused || (match m with | .pf0 _ => s.hallPaused 0 | _ => false)

/-! ### Functions and link power -/

/-- Slot of a function in `State.fns`. -/
def Func.key : Func → Nat
  | .pf0 p => p
  | .pf1 p h => 4 + 2 * p + h

/-- Configuration-space bits of a function at reset (R295). -/
def FnCfg.reset : FnCfg := ⟨false, false, false, false, false, false⟩

/-- Configuration-space bits of a function. -/
def State.fn (s : State) (f : Func) : FnCfg := lookD s.fns f.key FnCfg.reset

/-- Configuration-space bits of a function set. -/
def State.setFn (s : State) (f : Func) (c : FnCfg) : State := { s with fns := put s.fns f.key c }

/-- Power state of a link. -/
def linkLpmF (p h : Nat) : Fld := if h = 0 then F.HST_LINK_H0_LPM p else F.HST_LINK_H1_LPM p

/-- A TLP crosses a link in L0p or L1: the link is in L0 again (R291). -/
def State.wakeLink (s : State) (p h : Nat) : State :=
  if s.getF (linkLpmF p h) = 1 ∨ s.getF (linkLpmF p h) = 2 then s.setF (linkLpmF p h) 0 else s

/-- A register access of PF0 crosses its link. -/
def State.wakeMaster (s : State) : Master → State
  | .pf0 p => s.wakeLink p 0
  | _ => s

/-- PF0 of a port is in D3hot and takes no memory request (R280, R291). -/
def State.asleep (s : State) : Master → Bool
  | .pf0 p => (s.fn (.pf0 p)).d3hot
  | _ => false

/-- A whole-register write to a PRW command register (R7, R262, R264, R267): ignored where the block does not answer, held where
its hall is paused, a violation from an unprivileged master, and else the command's action. -/
def State.guardWrite (s : State) (m : Master) (addr : Nat) (c : Instr) (act : State → State) : State :=
  if s.asleep m then s
  else
    let s := s.wakeMaster m
    match blockOf addr with
    | none => s
    | some b =>
      if !s.answers b then s
      else if s.writeWaits m b then { s with held := s.held ++ [c] }
      else if s.privileged m then act s
      else s.violate m .privRW addr

/-- As `guardWrite`, for a register without a privileged field. -/
def State.openWrite (s : State) (m : Master) (addr : Nat) (c : Instr) (act : State → State) : State :=
  if s.asleep m then s
  else
    let s := s.wakeMaster m
    match blockOf addr with
    | none => s
    | some b =>
      if !s.answers b then s
      else if s.writeWaits m b then { s with held := s.held ++ [c] }
      else act s

/-- A command that a master inside the device has written and that reads or writes host memory at once: it waits for RESUME of H0, as all device DMA
does (Table 02-8). -/
def State.dmaWait (s : State) (c : Instr) (act : State → State) : State := if s.hallPaused 0 then { s with held := s.held ++ [c] } else act s

/-- A link of a port is up (Table 12-11). -/
def State.linkUp (s : State) (p h : Nat) : Bool :=
  s.getF (if h = 0 then F.HST_LINK_H0_STATE p else F.HST_LINK_H1_STATE p) == 2

/-- Port whose PF0 serves a command of a master (R263): the writer's, or the lowest privileged port with its link up. -/
def State.cmdPort (s : State) : Master → Nat
  | .pf0 p => p
  | _ => ((List.range 4).find? (fun p => bitAt s.privPorts p && s.linkUp p 0)).getD 0

/-! ### Buffered registers -/

/-- The APPLY_STATUS bit that shows a pending write of a buffered register (Table 11-1 and each block's table). -/
def applyOf (key : Nat) : Option Fld :=
  let a := key % 2 ^ 26
  if a = R.GAL_CLUSTER_EN then some F.GAL_APPLY_STATUS_EN
  else if a = R.GAL_FLIGHT_RESERVE then some F.GAL_APPLY_STATUS_RESERVE
  else if a = R.FLT_CONFIG then some F.FLT_APPLY_STATUS_CONFIG
  else if a = R.RTE_RTO ∨ a = R.RTE_SACK ∨ a = R.RTE_HOLD then some F.RTE_APPLY_STATUS_CONFIG
  else if a = R.PLC_DECAY then some F.PLC_APPLY_STATUS_DECAY
  else if a = R.PLC_ENERGY then some F.PLC_APPLY_STATUS_ENERGY
  else if a = R.PLC_RETIRE then some F.PLC_APPLY_STATUS_RETIRE
  else if a = R.PLC_SCRUB then some F.PLC_APPLY_STATUS_SCRUB
  else if a = R.PLC_FETCH_WAIT then some F.PLC_APPLY_STATUS_FETCH_WAIT
  else if a = R.HBM_PATROL then some F.HBM_APPLY_STATUS_PATROL
  else if a = R.PKT_METER_RATE ∨ a = R.PKT_METER_BURST then some F.PKT_APPLY_STATUS_METER
  else if (List.range 8).any (fun t => a = R.PKT_TREE_BASE t ∨ a = R.PKT_TREE_SIZE t ∨ a = R.PKT_TREE_CFG t ∨ a = R.PKT_TREE_PORTS t) then
    some F.PKT_APPLY_STATUS_TREES
  else if a = R.NVS_BACKEND_CFG then some F.NVS_APPLY_STATUS_BACKEND
  else if a = R.NVS_SANITIZE_CFG then some F.NVS_APPLY_STATUS_SANITIZE
  else if a = R.TXS_Q_RATE ∨ a = R.TXS_Q_BURST ∨ a = R.TXS_Q_QUANTUM then some F.TXS_APPLY_STATUS_QUEUE
  else if a = R.TXS_S_RATE ∨ a = R.TXS_S_BURST then some F.TXS_APPLY_STATUS_SLICE
  else if a = R.PWR_RESERVE then some F.PWR_APPLY_STATUS_RESERVE
  else if (List.range 4).any (fun g => a = R.ETH_GROUP_CFG g) then
    some ⟨R.ETH_APPLY_STATUS, (a - R.ETH_GROUP_CFG 0) / 4, (a - R.ETH_GROUP_CFG 0) / 4⟩
  else match blockOf a with
    | some 2 => some F.PWR_APPLY_STATUS_ENG
    | some 4 => some F.HST_APPLY_STATUS_LPM
    | some 6 => some F.STW_APPLY_STATUS_WDOG
    | some 8 => some F.GAL_APPLY_STATUS_WEIGHT
    | some 10 => some F.RTE_APPLY_STATUS_CC
    | some 12 => some F.PKT_APPLY_STATUS_CONFIG
    | some 13 => some F.TXS_APPLY_STATUS_CONFIG
    | some 14 => some F.NVS_APPLY_STATUS_PS_IDLE
    | some 15 => some F.CIP_APPLY_STATUS_MACSEC
    | _ => none

/-- A buffered write becomes pending; a later write to the same bits replaces it (R266). -/
def State.pendWrite (s : State) (a : Nat) (mask v : Word) : State :=
  let old := lookD s.pend a (0#32, 0#32)
  let s := { s with pend := put s.pend a (old.1 ||| mask, (old.2 &&& ~~~mask) ||| (v &&& mask)) }
  match applyOf a with
  | some f => s.setF f 1
  | none => s

/-- Every pending write of one APPLY_STATUS bit applies, and the bit clears (R266). -/
def State.applyGroup (s : State) (f : Fld) : State :=
  let mine := s.pend.filter (fun e => applyOf e.1 == some f)
  let s := mine.foldl (fun s e => s.setReg e.1 (((BitVec.ofNat 32 (s.reg e.1)) &&& ~~~e.2.1) ||| (e.2.2 &&& e.2.1)).toNat) s
  ({ s with pend := s.pend.filter (fun e => applyOf e.1 != some f) }).setF f 0

/-- Mask of the bits of a row's fields that satisfy a condition. -/
def RegRow.mask (r : RegRow) (q : FieldRow → Bool) : Word :=
  BitVec.ofNat 32 ((r.fields.filter q).foldl (fun n f => n + (2 ^ (f.hi + 1) - 2 ^ f.lo)) 0)

end Sys2Proof.Machine
end

