-- ==== Sys2Proof/Machine/Flags.lean ====
section
/-! DEFINITION. How the block signals: interrupts of PF0 and of slices (R284 to R287), and the error aggregator with its classes,
records and ring (R273, R380, R383, R384, R388). -/

namespace Sys2Proof.Machine

/-! ### Functions and interrupts -/

/-- Port of a function. -/
def Func.port : Func → Nat
  | .pf0 p => p
  | .pf1 p _ => p

/-- Half whose link carries a function (R276). -/
def Func.half : Func → Nat
  | .pf0 _ => 0
  | .pf1 _ h => h

/-- HST_FUNC field that shows Bus Master Enable of a function (Table 12-11). -/
def Func.bmeF : Func → Fld
  | .pf0 p => F.HST_FUNC_PF0_BME p
  | .pf1 p h => if h = 0 then F.HST_FUNC_PF1_BME p else F.HST_FUNC_H1_BME p

/-- HST_FUNC field that shows that a function is in FLR. -/
def Func.flrF : Func → Fld
  | .pf0 p => F.HST_FUNC_PF0_FLR p
  | .pf1 p h => if h = 0 then F.HST_FUNC_PF1_FLR p else F.HST_FUNC_H1_FLR p

/-- HST_FUNC field that shows ATS Enable of a PF1. -/
def Func.atsF : Func → Option Fld
  | .pf0 _ => none
  | .pf1 p h => some (if h = 0 then F.HST_FUNC_PF1_ATS p else F.HST_FUNC_H1_ATS p)

/-- HST_CTO field of a function's Device Control 2 value. -/
def Func.ctoF : Func → Fld
  | .pf0 p => F.HST_CTO_PF0_ENC p
  | .pf1 p h => if h = 0 then F.HST_CTO_PF1_ENC p else F.HST_CTO_H1_ENC p

/-- A function may issue requests: its link is up, its Bus Master Enable is set, and it is in no FLR and not in D3hot (R291, R294, R295). -/
def State.canDma (s : State) (f : Func) : Bool :=
  s.linkUp f.port f.half && s.getF f.bmeF == 1 && s.getF f.flrF == 0 && !(s.fn f).d3hot

/-- A function may write a message now: it issues requests, and device DMA does not wait for an H0 pause (Table 02-8). -/
def State.canMsg (s : State) (f : Func) : Bool := s.canDma f && !s.hallPaused 0

/-- A message-table entry or vector at reset: masked (R295, Table 13-5). -/
def MsgEntry.masked : MsgEntry := ⟨0, 0, true, false⟩

/-- The interrupt method of PF0 of a port (R284). -/
def State.irqMethod (s : State) (p : Fin 4) : IrqMethod :=
  let c := s.fn (.pf0 p)
  if c.msixEnable then .msix else if c.intDisable then .none else .intx

/-- Encoding of the method in HST_FUNC_p.PF0_IRQ. -/
def IrqMethod.code : IrqMethod → Nat
  | .none => 0
  | .intx => 1
  | .msix => 2

/-- A vector of PF0 (R285). -/
def State.vec (s : State) (p v : Nat) : MsgEntry := lookD s.msix (2048 * p + v) MsgEntry.masked

/-- A vector of PF0 set. -/
def State.setVec (s : State) (p v : Nat) (e : MsgEntry) : State := { s with msix := put s.msix (2048 * p + v) e }

/-- An event on a vector of PF0 (R284 to R286). -/
def State.pf0Event (s : State) (p : Fin 4) (v : Nat) : State :=
  let e := s.vec p v
  let pend := s.setVec p v { e with pending := true }
  match s.irqMethod p with
  | .none => pend
  | .msix =>
    if e.mask || (s.fn (.pf0 p)).funcMask || !s.canMsg (.pf0 p) then pend else s.send (.msix p v e.addr e.data)
  | .intx =>
    if s.intx.contains p.val then pend else { pend.send (.assertIntA p) with intx := p.val :: pend.intx }

/-- Pending vectors of PF0 of a port. -/
def State.pendingVecs (s : State) (p : Nat) : List Nat :=
  (s.msix.filter (fun e => e.1 / 2048 == p && e.2.pending)).map (fun e => e.1 % 2048)

/-- INTA released when no vector is pending or the method is no longer INTx (R286). -/
def State.intxSettle (s : State) (p : Fin 4) : State :=
  let want := s.irqMethod p == .intx && !(s.pendingVecs p).isEmpty
  if want && !s.intx.contains p.val then { s.send (.assertIntA p) with intx := p.val :: s.intx }
  else if !want && s.intx.contains p.val then { s.send (.deassertIntA p) with intx := s.intx.filter (· != p.val) }
  else s

/-- Messages of the unmasked pending vectors go out (R285, R294). -/
def State.msixDrain (s : State) (p : Fin 4) : State :=
  (s.pendingVecs p).foldl (fun s v =>
    let e := s.vec p v
    if e.mask || (s.fn (.pf0 p)).funcMask || !s.canMsg (.pf0 p) || s.irqMethod p != .msix then s
    else (s.setVec p v { e with pending := false }).send (.msix p v e.addr e.data)) s

/-! ### Slices' own functions -/

/-- A FREE slice with an empty entry (R301, R304). -/
def Slice.free (draw : Nat) : Slice := ⟨0, .free, .none, false, false, 0, 0, 0, 0, draw, [], [], 0, 0, 0⟩

/-- A slice's entry. -/
def State.slice (s : State) (i : Nat) : Slice := lookD s.slices i (Slice.free (s.nonceBase + i))

/-- A slice's entry set. -/
def State.setSlice (s : State) (i : Nat) (x : Slice) : State := { s with slices := put s.slices i x }

/-- Bytes of a slice's configuration (Table 13-1). -/
def Slice.field (x : Slice) (off n : Nat) : Nat := bits x.cfg.toNat (8 * (off + n) - 1) (8 * off)

/-- PORT (Table 13-1). -/
def Slice.port (x : Slice) : Nat := x.field 0 1 % 4

/-- HALF (Table 13-1). -/
def Slice.half (x : Slice) : Nat := x.field 0 1 / 4 % 2

/-- KEEP_TIER (Table 13-1). -/
def Slice.keepTier (x : Slice) : Bool := bitAt (x.field 1 1) 1

/-- QP_STORE (Table 13-1). -/
def Slice.qpStore (x : Slice) : Nat := x.field 1 1 % 2

/-- PASID (Table 13-1). -/
def Slice.pasid (x : Slice) : Nat := x.field 4 4 % 2 ^ 20

/-- ACCEL_GRANT (Table 13-1). -/
def Slice.accelGrant (x : Slice) : Nat := x.field 8 1

/-- NET_GRANT (Table 13-1). -/
def Slice.netGrant (x : Slice) : Nat := x.field 10 2

/-- RING_QUOTA (Table 13-1). -/
def Slice.ringQuota (x : Slice) : Nat := x.field 12 4 % 2 ^ 17

/-- QP_QUOTA (Table 13-1). -/
def Slice.qpQuota (x : Slice) : Nat := x.field 16 4 % 2 ^ 21

/-- KEY_QUOTA (Table 13-1). -/
def Slice.keyQuota (x : Slice) : Nat := x.field 20 4 % 2 ^ 24

/-- Tn_QUOTA (Table 13-1). -/
def Slice.tierQuota (x : Slice) (t : Nat) : Nat := x.field (24 + 4 * t) 4

/-- ENERGY_UJ (Table 13-1). -/
def Slice.energy (x : Slice) : Nat := x.field 44 4

/-- FREEZE_WAIT (Table 13-1): 0 means 500 ms. -/
def Slice.freezeWait (x : Slice) : Nat := if x.field 56 2 = 0 then 500 else x.field 56 2

/-- Link of a slice, counted as 2·port + half. -/
def Slice.link (x : Slice) : Nat := 2 * x.port + x.half

/-- The tenant function of a slice's link (R276). -/
def Slice.fn (x : Slice) : Func := .pf1 ⟨x.port % 4, Nat.mod_lt _ (by decide)⟩ ⟨x.half % 2, Nat.mod_lt _ (by decide)⟩

/-- Host memory of a slice: its PASID on its link (R288). -/
def Slice.space (x : Slice) : Space := .host x.link x.pasid

/-- A slice number stands for a bound slice. -/
def SliceState.bound' : SliceState → Bool
  | .free => false
  | _ => true

/-- A slice runs work: ACTIVE, and not stopped by a freeze for new work (R313). -/
def Slice.takesWork (x : Slice) : Bool := x.state == .active && !x.freezing

/-- An event on a message entry of a slice (R287). -/
def State.sliceEvent (s : State) (i v : Nat) : State :=
  let e := lookD s.msgs (64 * i + v) MsgEntry.masked
  if e.mask || !s.canMsg (s.slice i).fn then { s with msgs := put s.msgs (64 * i + v) { e with pending := true } }
  else s.send (.sliceMsg i v (e.addr / 4 * 4) e.data)

/-- Messages of a slice's unmasked pending entries go out (R287). -/
def State.sliceMsgDrain (s : State) (i : Nat) : State :=
  (s.msgs.filter (fun e => e.1 / 64 == i && e.2.pending && !e.2.mask)).foldl (fun s e =>
    if s.canMsg (s.slice i).fn then
      ({ s with msgs := put s.msgs e.1 { e.2 with pending := false } }).send (.sliceMsg i (e.1 % 64) (e.2.addr / 4 * 4) e.2.data)
    else s) s

/-! ### Error aggregator -/

/-- Class of an event code (Table 18-4). -/
def codeClass (code : Nat) : Nat := code / 256 % 4

/-- Class bit of ERR_STATUS (Table 11-7). -/
def classF : Nat → Fld
  | 0 => F.ERR_STATUS_CORRECTABLE
  | 1 => F.ERR_STATUS_CONTAINED
  | 2 => F.ERR_STATUS_DEGRADED
  | _ => F.ERR_STATUS_FATAL

/-- The error ring is in use: EN set and ENTRIES a power of two from 64 to 65,536 (R273, Table 11-7). -/
def State.errRingOn (s : State) : Bool :=
  let n := s.getF F.ERR_RING_SIZE_ENTRIES
  s.getF F.ERR_RING_CTRL_EN == 1 && isPow2 n && 64 ≤ n && n ≤ 65536

/-- An error record (Table 18-3). -/
def errBytes (newel cls block slice code status loc index : Nat) (inj : Bool) : List Byte :=
  leBytes 8 newel ++ leBytes 1 (b2n inj * 128 + cls) ++ leBytes 1 block ++ leBytes 2 slice ++ leBytes 2 code ++ leBytes 1 status ++
    leBytes 1 0 ++ leBytes 8 loc ++ leBytes 4 0 ++ leBytes 4 index

/-- A record lost: counted, with RING_OVERFLOW set (R273). -/
def State.errLost (s : State) : State := (s.bump F.ERR_CNT_LOST_COUNT).event F.ERR_STATUS_RING_OVERFLOW

/-- Port of the error ring. -/
def State.errPort (s : State) : Fin 4 := ⟨s.getF F.ERR_RING_CTRL_PORT % 4, Nat.mod_lt _ (by decide)⟩

/-- STATUS of an error record: a code of Table 00-9, or one from an engine's range; the values that R10 reserves are never reported. -/
def shownStatus (st : Nat) : Nat :=
  if 0x40 ≤ st ∨ [0x01, 0x02, 0x10, 0x11, 0x12, 0x13, 0x14, 0x15, 0x16, 0x17, 0x18, 0x19, 0x20, 0x21, 0x22, 0x30, 0x31, 0x32, 0x3F].contains st
  then st else 0

/-- A record enters the error ring, or is lost (R273, R294): the ring full, PF0 unable to write, or a write that fails. -/
def State.errPut (s : State) (e : ErrRec) : State :=
  if !s.errRingOn || !bitAt (s.getF F.ERR_RING_CTRL_CLASS_MASK) e.cls then s
  else
    let prod := s.reg R.ERR_RING_PROD
    let n := s.getF F.ERR_RING_SIZE_ENTRIES
    if (prod + 2 ^ 32 - s.reg R.ERR_RING_CONS) % 2 ^ 32 ≥ n || !s.canDma (.pf0 s.errPort) then s.errLost
    else if 0 < s.errFail then { s with errFail := s.errFail - 1 }.errLost
    else
      let base := s.reg R.ERR_RING_BASE_LO + 2 ^ 32 * s.reg R.ERR_RING_BASE_HI
      let bytes := errBytes e.newel e.cls e.block e.slice e.code (shownStatus e.status) e.loc prod e.inj
      let s := { s with mem := s.mem.write ((Space.pf0 s.errPort).at (base + 32 * (prod % n))) bytes }
      (s.setReg R.ERR_RING_PROD (prod + 1)).pf0Event s.errPort (s.getF F.ERR_RING_CTRL_VECTOR)

/-- A record for the error ring; while H0 is paused it waits for RESUME, as all device DMA does (Table 02-8). -/
def State.errRecord (s : State) (cls block slice code status loc : Nat) (inj : Bool) : State :=
  let e : ErrRec := ⟨s.now, cls, block, slice, code, status, loc, inj⟩
  if s.hallPaused 0 then { s with errHold := s.errHold ++ [e] } else s.errPut e

/-- The records that waited go out in the order of their detection. -/
def State.errDrain (s : State) : State := s.errHold.foldl State.errPut { s with errHold := [] }

/-- Ports whose PF0 has its link up. -/
def State.upPorts (s : State) : List Nat := (List.range 4).filter (fun p => s.linkUp p 0)

/-- AER report of a class on PF0 of every link that is up (Table 18-5). -/
def State.aer (s : State) (cls : Nat) : State :=
  if cls < 2 then s else s.upPorts.foldl (fun s p => s.send (.aerInternal p (cls - 1))) s

/-- An error event: counted by class, shown, recorded and reported (R273, R380, R384). `block` is an index of Table 11-1 or 0xFF,
`slice` a slice or 0xFFFF. -/
def State.report (s : State) (code block slice status loc : Nat) : State :=
  let cls := codeClass code
  let s := if cls = 1 ∧ slice < 256 then
    { s with stw := { s.stw with tel := { s.stw.tel with sliceErr := put s.stw.tel.sliceErr slice (lookD s.stw.tel.sliceErr slice 0 + 1) } } } else s
  let s := { s with stw := { s.stw with tel := { s.stw.tel with errors := s.stw.tel.errors + 1 } } }
  (((s.bump (F.ERR_CNT_COUNT cls)).event (classF cls)).errRecord cls block slice code status loc false).aer cls

/-- A failed host access (R289): HOST_ACCESS of the host endpoint, with the status given to the operation and the host address. -/
def State.hostFault (s : State) (slice status addr : Nat) : State := (s.event F.HST_STATUS_ACCESS_FAULT).report 0x101 4 slice status addr

/-- An injected event: its record, counter, status bit and interrupt, and nothing else (R273, R383). -/
def State.inject (s : State) (cls block slice : Nat) : State :=
  ((s.bump (F.ERR_CNT_COUNT cls)).event (classF cls)).errRecord cls block slice (256 * cls + 0xFF) 0 0 true

/-- The device state changes: DEV_STATE reports it (Table 11-5). -/
def State.setDev (s : State) (d : Dev) : State :=
  let changed := d.st != s.dev.st || d.shed != s.dev.shed
  let s := { s with dev := d }
  if changed then s.event F.DEV_STATE_CHANGED else s

/-- FATAL (R388): reason and item, block; the record and AER report; PD18 to PD35 go off; no hall stays paused; every incomplete operation ends without a
completion, and no slice goes on (R304). -/
def State.fatal (s : State) (reason item block : Nat) : State :=
  match s.dev.st with
  | .boot | .limited | .ready | .shedding =>
    let s := ((List.range 12).foldl (fun s h => s.setF (F.STR_HALL_PAUSED h) 0) s).errDrain
    let s := s.setF F.ERR_FATAL_BLOCK block
    let s := s.setF F.ERR_FATAL_REASON (item % 256 * 256 + reason % 256)
    let s := s.setDev { s.dev with st := .fatal, fatalReason := reason % 256, limitedCause := 0 }
    let s := s.report (0x300 + reason % 256) block 0xFFFF 0 (s.reg R.ERR_FATAL % 2 ^ 16)
    let s := s.setFs [(F.PWR_DOM_ON_LO_ON, s.getF F.PWR_DOM_ON_LO_ON % 2 ^ 18), (F.PWR_DOM_ON_HI_ON, 0)]
    { s with ops := [], cqWait := [], clasps := [], slcCmd := none, slices := [], rings := [],
             gal := { s.gal with cmds := [], held := [], heads := [], ended := [] }, flights := [], flCtl := [], fltWait := [],
             rte := { s.rte with qps := [], miss := [] },
             str := { s.str with cmd := none, halls := [], tables := [], tabWait := false }, 
             plc := { s.plc with moves := [], waits := [], fetches := [], bars := [], kept := [], evac := none },
             pp := { s.pp with tload := none, txWait := [], queues := [], slow := [], reasm := [], ingress := [] },
             nvs := { s.nvs with be := [], ctrls := s.nvs.ctrls.map fun (e : Nat × NvCtrl) => (e.1, { e.2 with cmds := [], wait := [] }) },
             cip := { s.cip with removeCmd := none, hold := [], job := none }, stw := { s.stw with fw := none, copy := none }, held := [], mgmt := [] }
  | _ => s

end Sys2Proof.Machine
end

