-- ==== Sys2Proof/Machine/Operands.lean ====
section
/-! DEFINITION. Rings and what passes through them: ring contexts (Table 13-4), fetching a descriptor, completion records (R9,
Table 00-8), completion rings (R309), completion counters (R154) and cancels (R96, R119, R157, R183, R202, R306). -/

namespace Sys2Proof.Machine

/-! ### Ring contexts -/

/-- A byte field of a ring context (Table 13-4). -/
def Ring.field (r : Ring) (off n : Nat) : Nat := bits r.cfg.toNat (8 * (off + n) - 1) (8 * off)

/-- The ring belongs to PF0. -/
def Ring.isPf0 (r : Ring) : Bool := bitAt (r.field 0 2) 15

/-- OWNER. -/
def Ring.ownerNum (r : Ring) : Nat := r.field 0 2 % 256

/-- Owner as completion records name it: a slice, or 0x8000 plus the port (Table 00-8). -/
def Ring.owner (r : Ring) : Nat := if r.isPf0 then 0x8000 + r.ownerNum % 4 else r.ownerNum

/-- KIND. -/
def Ring.kind (r : Ring) : Nat := r.field 2 1

/-- Entries of the ring. -/
def Ring.entries (r : Ring) : Nat :=
  if r.kind = 0x0A ∨ r.kind = 0x0B then r.field 24 2 else 2 ^ (r.field 3 1 % 16 + 4)

/-- BASE. -/
def Ring.base (r : Ring) : Nat := r.field 4 8

/-- CQ. -/
def Ring.cq (r : Ring) : Nat := r.field 12 2

/-- INT_EN. -/
def Ring.intEn (r : Ring) : Bool := bitAt (r.field 14 2) 15

/-- VECTOR. -/
def Ring.vector (r : Ring) : Nat := r.field 14 2 % 2048

/-- COUNTER_ADDR. -/
def Ring.counterAddr (r : Ring) : Nat := r.field 16 8

/-- Source engine byte of a descriptor ring's operations (Table 00-8). -/
def kindSrc : Nat → Nat
  | 0x01 => 0x05
  | 0x02 => 0x05
  | 0x04 => 0x05
  | 0x05 => 0x06
  | 0x06 => 0x0B
  | 0x07 => 0x08
  | 0x08 => 0x04
  | 0x09 => 0x03
  | _ => 0

/-- A bound ring's context. -/
def State.ring (s : State) (q : Nat) : Option Ring := look s.rings q

/-- QP whose send ring this is; a QP in RESET has none (Table 06-12). -/
def State.sqOf (s : State) (ring : Nat) : Option (Nat × Qp) := s.rte.qps.find? fun e => e.2.st != 0 && e.2.sq == ring

/-- QP whose receive ring this is. -/
def State.rqOf (s : State) (ring : Nat) : Option (Nat × Qp) := s.rte.qps.find? fun e => e.2.st != 0 && e.2.rq == ring

/-- A ring context set. -/
def State.setRing (s : State) (q : Nat) (r : Ring) : State := { s with rings := put s.rings q r }

/-- The function that serves an owner's rings. -/
def State.ownerFn (s : State) (owner : Nat) : Func :=
  if owner < 0x8000 then (s.slice owner).fn else .pf0 ⟨owner % 4, Nat.mod_lt _ (by decide)⟩

/-- The memory that holds an owner's rings. -/
def State.ownerSpace (s : State) (owner : Nat) : Space :=
  if owner < 0x8000 then (s.slice owner).space else .pf0 (owner % 4)

/-- Completion ring of a ring's operations: the ring's own, or for the send and receive rings of a QP those that its attributes name
(Table 06-11). -/
def State.sendCq (s : State) (q : Nat) (r : Ring) : Nat :=
  if r.kind = 1 then ((s.sqOf q).map fun e => e.2.scq).getD r.cq
  else if r.kind = 2 then ((s.rqOf q).map fun e => e.2.rcq).getD r.cq
  else r.cq

/-! ### Services and cores -/

/-- Bit of the service that owns an operation of a ring kind (Table 14-1), if firmware does. -/
def kindService : Nat → Option Nat
  | 0x06 => some 5
  | 0x07 => some 6
  | 0x0A => some 7
  | _ => none

/-- Cores that serve a service and are not held, in ascending order (R319). -/
def State.serviceCores (s : State) (svc : Nat) : List Nat :=
  (List.range 32).filter fun c => bitAt (s.getF (F.STW_CORE_SERVICES c)) svc && s.getF (F.STW_CORE_STATE c) != 2

/-- Owner core of object k of a service (R319). -/
def State.ownerCore (s : State) (svc k : Nat) : Option Nat :=
  let cs := s.serviceCores svc
  if cs.isEmpty then none else cs[k % cs.length]?

/-- Firmware serves an object now: its owner core runs and its wing is not draining (R322, R328). A service that the stream
assigns to no core is taken to be served (log entry 20). -/
def State.coreServes (s : State) (svc k : Nat) : Bool :=
  match s.ownerCore svc k with
  | none => true
  | some c => s.getF (F.STW_CORE_STATE c) == 0 && s.getF (F.STW_WING_STATE_DRAINING (c / 8)) == 0

/-- A request to MGMT: it is answered when the service's core runs and its wing is not draining (R322, R329). -/
def State.mgmtAsk (s : State) (c : Instr) (act : State → State) : State :=
  if s.dev.firmware && !s.coreServes 0 0 then { s with mgmt := s.mgmt ++ [c] } else act s

/-! ### Completion records -/

/-- Bytes of a completion record (Table 00-8). -/
def Rec.bytes (r : Rec) : List Byte :=
  leBytes 4 r.tag ++ leBytes 1 r.status ++ leBytes 1 r.source ++ leBytes 2 r.slice ++ leBytes 8 r.newel ++ leBytes 8 r.result ++
    leBytes 8 r.engine

/-- Records waiting for a completion ring. -/
def State.waiting (s : State) (q : Nat) : List Rec := lookD s.cqWait q []

/-- Free entries of a completion ring hold no unconsumed record (R309). -/
def Ring.cqFull (r : Ring) : Bool := (r.fi + 65536 - r.ci) % 65536 ≥ r.entries

/-- A record may be written now: the owner's function issues requests, and a slice owner is ACTIVE (R294, R305, R313). -/
def State.cqOpen (s : State) (r : Ring) : Bool :=
  s.canDma (s.ownerFn r.owner) && !s.hallPaused 0 && (r.isPf0 || (s.slice r.owner).state == .active)

/-- One record written into its ring: entry, counter, counter copy and interrupt, in that order (R281, R307, Table 13-4); INT_EN or the descriptor's INTR asks for the interrupt. -/
def State.writeRec (s : State) (q : Nat) (r : Ring) (x : Rec) : State :=
  let sp := s.ownerSpace r.owner
  let n := (r.counter + 1) % 2 ^ 64
  let m := s.mem.write (sp.at (r.base + 32 * (r.fi % r.entries))) x.bytes
  let m := if r.counterAddr = 0 then m else m.write (sp.at r.counterAddr) (leBytes 8 n)
  let s := { s with mem := m }.wakeLink (s.ownerFn r.owner).port (s.ownerFn r.owner).half
  let s := s.setRing q { r with fi := (r.fi + 1) % 65536, counter := n }
  if !r.intEn && !x.intr then s
  else if r.isPf0 then s.pf0Event ⟨r.ownerNum % 4, Nat.mod_lt _ (by decide)⟩ r.vector
  else s.sliceEvent r.ownerNum (r.vector % 64)

/-- A frame's receive completion waits while its slice freezes, until thaw (R208). -/
def State.rxHeld (s : State) (r : Ring) (x : Rec) : Bool := !r.isPf0 && x.source == 0x03 && (s.slice r.owner).freezing

/-- The records that wait for a ring are written while it takes them; a full or stopped PF0 ring drops them (R309, Table 12-6). -/
def State.drainList (q : Nat) : List Rec → State → State
  | [], s => { s with cqWait := drop s.cqWait q }
  | x :: xs, s =>
    match s.ring q with
    | none => { s with cqWait := drop s.cqWait q }
    | some r =>
      if r.isPf0 && (r.st == 4 || r.cqFull) then State.drainList q xs (s.bump F.ERR_CNT_LOST_COUNT)
      else if s.rxHeld r x then
        let t := State.drainList q xs s
        { t with cqWait := put t.cqWait q (x :: t.waiting q) }
      else if s.cqOpen r && !r.cqFull then State.drainList q xs (s.writeRec q r x)
      else { s with cqWait := put s.cqWait q (x :: xs) }

/-- The waiting records of one ring written as far as they can be. -/
def State.drainCqRaw (s : State) (q : Nat) : State := State.drainList q (s.waiting q) s

/-- A record handed to its completion ring, behind those that wait (R309). -/
def State.postRaw (s : State) (q : Nat) (x : Rec) : State :=
  let t := State.drainCqRaw { s with cqWait := put s.cqWait q (s.waiting q ++ [x]), recent := (x.slice, x.source, x.tag) :: s.recent } q
  if (s.waiting q).isEmpty && !(t.waiting q).isEmpty then t.begin (.ring q) else t

/-! ### Shared status codes (Table 00-9) -/

/-- Shared status codes (Table 00-9). -/
def stOk : Nat := 0x00
def stCancelled : Nat := 0x01
def stKeyInvalid : Nat := 0x10
def stKeyRevoked : Nat := 0x11
def stBounds : Nat := 0x12
def stRights : Nat := 0x13
def stSliceFrozen : Nat := 0x14
def stFreezeBusy : Nat := 0x15
def stEnvMismatch : Nat := 0x16
def stDiscord : Nat := 0x17
def stAccSaturated : Nat := 0x18
def stFormatInvalid : Nat := 0x19
def stPeerLost : Nat := 0x20
def stHostLost : Nat := 0x21
def stLateAbort : Nat := 0x22
def stMasterDisabled : Nat := 0x30
def stEnergyDeferred : Nat := 0x32
def stInternal : Nat := 0x3F

/-! ### Operations -/

/-- An operation under way, by its number. -/
def State.op (s : State) (id : Nat) : Option Op := s.ops.find? (·.id == id)

/-- An operation changed. -/
def State.setOp (s : State) (o : Op) : State := { s with ops := s.ops.map fun x => if x.id == o.id then o else x }

/-- The operation has passed its commit point. -/
def State.commitOp (s : State) (id : Nat) : State :=
  { s with ops := s.ops.map fun x => if x.id == id then { x with committed := true } else x }

/-- The Coffer deferred part of the operation (R357). -/
def State.deferOp (s : State) (id : Nat) : State :=
  { s with ops := s.ops.map fun x => if x.id == id then { x with deferred := true } else x }

/-- An operation that ends without a completion record (R305, R310). -/
def State.dropOp (s : State) (id : Nat) : State := { s with ops := s.ops.filter (·.id != id) }

/-- Ended operations at the head of a ring's list retire and post their records, in the order of the ring (R80, R150). -/
def State.retire (ring : Nat) : Nat → State → State
  | 0, s => s
  | n + 1, s =>
    match s.ops.find? (·.ring == ring) with
    | none => s
    | some o =>
      match o.done with
      | none => s
      | some x => State.retire ring n ((s.dropOp o.id).postRaw o.cq x)

/-- The record of an operation: its tag, ring kind and owner, and the Newel time now (Table 00-8). -/
def State.recOf (s : State) (o : Op) (status result engine : Nat) : Rec :=
  ⟨o.tag, status, o.src, o.owner, s.now, result % 2 ^ 64, engine % 2 ^ 64, o.intr⟩

/-- As `finishRec`, before the WAITs that it releases. -/
def State.finishRaw (s : State) (id : Nat) (x : Rec) : State :=
  match s.op id with
  | none => s
  | some o =>
    let s := s.setOp { o with done := some x, committed := true }
    State.retire o.ring s.ops.length s

/-- An operation of a ring whose operations complete as they end posts its record at once, before the WAITs that it releases. -/
def State.finishNowRaw (s : State) (id : Nat) (x : Rec) : State :=
  match s.op id with
  | none => s
  | some o => (s.dropOp id).postRaw o.cq x

/-! ### Clasp (R154 to R156) -/

/-- A WAIT that completes, with any status, is counted, and one that timed out in its own counter too (Table 11-9; log entry 56). -/
def State.waitCount (s : State) (status : Nat) : State :=
  let s := s.bump F.SLC_CNT_CLASP_WAIT
  if status = 0x67 then s.bump F.SLC_CNT_CLASP_TIMEOUT else s

/-- A WAIT no longer holds its ring, and its own record goes out, with bytes 16 to 31 zero (R9). -/
def State.waitRecord (s : State) (c : Clasp) (status : Nat) : State :=
  let s := { s with clasps := s.clasps.filter (·.op != c.op) }
  match s.ring c.ring, s.op c.op with
  | some r, some o =>
    let s := (s.setRing c.ring { r with st := if r.st = 3 then 1 else r.st }).waitCount status
    let x : Rec := ⟨o.tag, status, o.src, o.owner, s.now, 0, 0, o.intr⟩
    if r.kind = 6 then s.finishNowRaw c.op x else s.finishRaw c.op x
  | _, _ => s

/-- Descriptors of a ring from its fetch index up to its producer index. -/
def State.behind (s : State) (r : Ring) : List Desc :=
  (List.range ((r.pi + 65536 - r.fi) % 65536)).map fun j =>
    BitVec.ofNat 512 (leNat (s.mem.read ((s.ownerSpace r.owner).at (r.base + 64 * ((r.fi + j) % r.entries))) 64))

/-- Every descriptor behind a WAIT that did not end OK completes with CANCELLED (R156; log entry 24). -/
def State.cancelBehind (s : State) (q : Nat) : State :=
  match s.ring q with
  | none => s
  | some r =>
    let l := s.behind r
    let s := s.setRing q { r with fi := r.pi }
    let mk (e : Desc × Nat) : Op :=
      let tag := bits e.1.toNat 31 0
      { id := s.opNext + e.2, ring := q, owner := r.owner, src := kindSrc r.kind, tag := tag, desc := e.1, cq := s.sendCq q r, intr := false,
        committed := true, deferred := false, done := some ⟨tag, stCancelled, kindSrc r.kind, r.owner, s.now, 0, 0, false⟩ }
    let s := { s with ops := s.ops ++ l.zipIdx.map mk, opNext := s.opNext + l.length }
    if r.kind = 6 then
      (List.range l.length).foldl (fun (s : State) j => match s.op (s.opNext - l.length + j) with
        | some o => (match o.done with | some x => s.finishNowRaw o.id x | none => s)
        | none => s) s
    else State.retire q s.ops.length s

/-- A pending WAIT whose counter has reached its threshold (R155); none while H1 is paused (Table 02-8). -/
def State.waitReady (s : State) : Option Clasp :=
  if s.hallPaused 1 then none else s.clasps.find? fun c => c.source == 0 && (match s.ring c.target with | some r => c.threshold ≤ r.counter | none => false)

/-- WAITs on completion counters that have reached their thresholds complete with OK, one after the other (R155). -/
def State.claspSettle : Nat → State → State
  | 0, s => s
  | n + 1, s =>
    match s.waitReady with
    | none => s
    | some c => State.claspSettle n (s.waitRecord c stOk)

/-- A WAIT ends with a status; one that is not OK releases nothing behind it (R156). -/
def State.waitEnd (s : State) (c : Clasp) (status : Nat) : State :=
  let s := s.waitRecord c status
  let s := if status = stOk then s else s.cancelBehind c.ring
  State.claspSettle s.clasps.length s

/-- The pending WAIT of an operation. -/
def State.waitOf (s : State) (id : Nat) : Option Clasp := s.clasps.find? (·.op == id)

/-- The waiting records of one ring written as far as they can be, with the WAITs that this releases. -/
def State.drainCq (s : State) (q : Nat) : State := let s := s.drainCqRaw q; State.claspSettle s.clasps.length s

/-- A record handed to its completion ring, with the WAITs that this releases. -/
def State.post (s : State) (q : Nat) (x : Rec) : State := let s := s.postRaw q x; State.claspSettle s.clasps.length s

/-- An operation of a ring that completes in ring order ends with a record (R80). -/
def State.finishRec (s : State) (id : Nat) (x : Rec) : State := let s := s.finishRaw id x; State.claspSettle s.clasps.length s

/-- As `finishRec`, with the status and engine words. -/
def State.finish (s : State) (id status result engine : Nat) : State :=
  match s.op id with
  | none => s
  | some o => s.finishRec id (s.recOf o status result engine)

/-- An operation of a ring whose operations complete as they end posts its record at once. -/
def State.finishNow (s : State) (id status result engine : Nat) : State :=
  match s.op id with
  | none => s
  | some o => let s := s.finishNowRaw id (s.recOf o status result engine); State.claspSettle s.clasps.length s

/-- INTR of a descriptor: bit 3 of byte 5 of an RDMA work request, bit 0 of the others and of a WAIT (Tables 06-7 and 06-13). -/
def opIntr (kind : Nat) (d : Desc) : Bool :=
  bitAt (Desc.field d 5 1) (if (kind = 1 ∨ kind = 2 ∨ kind = 4) ∧ Desc.field d 4 1 ≠ 0x0F then 3 else 0)

/-- A descriptor ring fetches its next descriptor: the ring is bound and of the kind asked for, its producer index is ahead, its
owner runs work, no WAIT holds it, and its owner core runs (R80, R155, R313, R322). `none` where it does not fetch. -/
def State.fetch (s : State) (q kind : Nat) (tag : Nat) (d : Desc) : Option (Op × State) :=
  match s.ring q with
  | none => none
  | some r =>
    let own := if r.isPf0 then true else (s.slice r.owner).takesWork
    let fw : Bool := match kindService kind with
      | none => true
      | some v => s.coreServes v q
    if r.kind == kind && r.st == 1 && r.pi != r.fi && own && fw && s.canDma (s.ownerFn r.owner) && !s.hallPaused 0 && !s.hallPaused 1 then
      let o : Op := ⟨s.opNext, q, r.owner, kindSrc kind, tag, d, s.sendCq q r, opIntr kind d, false, false, none⟩
      let s := s.wakeLink (s.ownerFn r.owner).port (s.ownerFn r.owner).half
      some (o, { s.setRing q { r with fi := (r.fi + 1) % 65536 } with ops := s.ops ++ [o], opNext := s.opNext + 1 })
    else none

/-- TAG of a descriptor: its bytes 0 to 3 (Tables 04-4, 05-7, 06-7, 06-13, 07-5 and 08-7). -/
def Desc.tag (d : Desc) : Nat := Desc.field d 0 4

/-! ### Cancels -/

/-- Status of a cancel (Table 13-3): CANCELLED, ALREADY_DONE, NOT_FOUND. -/
inductive CancelResult | cancelled | alreadyDone | notFound
  deriving DecidableEq, Repr

/-- Its encoding. -/
def CancelResult.code : CancelResult → Nat
  | .cancelled => 1
  | .alreadyDone => 2
  | .notFound => 3

/-- The last 4,096 completions of an owner's rings of an engine hold a tag (R96). -/
def State.recentHas (s : State) (owner src tag : Nat) : Bool :=
  ((s.recent.filter fun e => e.1 == owner && e.2.1 == src).take 4096).any (·.2.2 == tag)

/-- What a cancel by owner, engine and tag finds (R96, R119, R157, R183, R202): the oldest operation with the tag before its commit point; or one past
it or completed; or none. -/
def State.cancelFind (s : State) (owner : Nat) (srcs : List Nat) (tag : Nat) : CancelResult × Option Op :=
  let mine := s.ops.filter fun o => o.owner == owner && srcs.contains o.src && o.tag == tag
  match mine.find? fun o => !o.committed && o.done.isNone with
  | some o => (.cancelled, some o)
  | none => if !mine.isEmpty || srcs.any (s.recentHas owner · tag) then (.alreadyDone, none) else (.notFound, none)

end Sys2Proof.Machine
end

