-- ==== Sys2Proof/Machine/Coffer.lean ====
section
/-! DEFINITION. The Coffer's admission of units against the ledgers of the epoch (R355 to R358). Charges are in picojoules. -/

namespace Sys2Proof.Machine

/-- A word of the energy table in force (Table 16-3). -/
def State.energyTable (s : State) (off : Nat) : Nat := fieldAt s.pwr.table off 4

/-- Budget of an engine per epoch, in µJ: PWR_ENG_e_BUDGET, or for placement PLC_ENERGY (Table 16-4). -/
def State.engBudget (s : State) (e : Nat) : Nat :=
  if e = 4 then s.reg R.PLC_ENERGY else s.reg (R.PWR_ENG_BUDGET e)

/-- The slice's ledger admits a charge (R357). -/
def State.sliceRoom (s : State) (i c : Nat) : Bool :=
  (s.slice i).energy == 2 ^ 32 - 1 || lookD s.pwr.sliceCharge i 0 + c ≤ (s.slice i).energy * 10 ^ 6

/-- The ledgers allow a unit of charge c of an engine, for a slice where one owns it (R357). -/
def State.admits (s : State) (e : Nat) (slice : Option Nat) (c : Nat) : Bool :=
  !s.pwr.offered.contains e ||
    (s.pwr.devCharge + c ≤ s.pwr.allowance && lookD s.pwr.engCharge e 0 + c ≤ s.engBudget e * 10 ^ 6 &&
      (match slice with | some i => s.sliceRoom i c | none => true))

/-- A charge entered in the device's and the slice's ledgers; received frames use this alone (R357). -/
def State.charge (s : State) (slice : Option Nat) (c : Nat) : State :=
  { s with pwr := { s.pwr with
      devCharge := s.pwr.devCharge + c,
      sliceCharge := match slice with
        | some i => put s.pwr.sliceCharge i (lookD s.pwr.sliceCharge i 0 + c)
        | none => s.pwr.sliceCharge } }

/-- A unit refused until a later epoch, counted for the device and its slice (R357, Table 13-1). -/
def State.deferUnit (s : State) (slice : Option Nat) : State :=
  let s := s.bump F.PWR_CNT_DEFER_COUNT
  let t := s.stw.tel
  let s := { s with stw := { s.stw with tel := { t with defer := t.defer + 1 } } }
  match slice with
  | none => s
  | some i =>
    let x := s.slice i
    let t := s.stw.tel
    { s.setSlice i { x with deferrals := (x.deferrals + 1) % 2 ^ 32 } with
      stw := { s.stw with tel := { t with sliceDefer := put t.sliceDefer i (lookD t.sliceDefer i 0 + 1) } } }

/-- A unit offered: admitted and charged to the device, its engine and its slice, or refused; after a refusal the units of the slice wait
for the next epoch (R357). -/
def State.offer (s : State) (e : Nat) (slice : Option Nat) (c : Nat) : Bool × State :=
  if s.pwr.refused.contains (e, slice) then (false, s)
  else
    let ok := s.admits e slice c
    let s := { s with pwr := { s.pwr with offered := if s.pwr.offered.contains e then s.pwr.offered else e :: s.pwr.offered } }
    if ok then
      let s := s.charge slice c
      (true, { s with pwr := { s.pwr with engCharge := put s.pwr.engCharge e (lookD s.pwr.engCharge e 0 + c) } })
    else
      let s := s.deferUnit slice
      (false, { s with pwr := { s.pwr with refused := (e, slice) :: s.pwr.refused } })

/-- A shedding stage or a lower one is in force (R360). -/
def State.shedAt (s : State) (n : Nat) : Bool := n ≤ s.dev.shed

end Sys2Proof.Machine
end

