-- ==== Sys2Proof/Machine/Crc.lean ====
section
/-! DEFINITION. The check values of Table 10-5 (R250 to R253). -/

namespace Sys2Proof.Machine

/-- A row of Table 10-5: width, polynomial (bit-reversed for a reflected CRC), initial value, reflected, final XOR. -/
structure Poly where
  width : Nat
  poly : Nat
  init : Nat
  refl : Bool
  out : Nat
  deriving DecidableEq, Repr

/-- Table 10-5 by POLY. -/
def polyOf : Nat → Poly
  | 0 => ⟨32, 0xEDB88320, 0xFFFFFFFF, true, 0xFFFFFFFF⟩
  | 1 => ⟨32, 0x82F63B78, 0xFFFFFFFF, true, 0xFFFFFFFF⟩
  | 2 => ⟨16, 0x8BB7, 0, false, 0⟩
  | _ => ⟨64, 0x9A6C9329AC4BC9B5, 0xFFFFFFFFFFFFFFFF, true, 0xFFFFFFFFFFFFFFFF⟩

/-- One bit of a reflected register moved out. -/
def crcBitR (poly c : Nat) : Nat := if c % 2 = 1 then (c / 2) ^^^ poly else c / 2

/-- One bit of an unreflected register moved out. -/
def crcBitN (width poly c : Nat) : Nat :=
  if c / 2 ^ (width - 1) % 2 = 1 then (2 * c % 2 ^ width) ^^^ poly else 2 * c % 2 ^ width

/-- One byte fed (R250). -/
def crcByte (p : Poly) (c : Nat) (b : Byte) : Nat :=
  if p.refl then (List.range 8).foldl (fun c _ => crcBitR p.poly c) (c ^^^ b.toNat)
  else (List.range 8).foldl (fun c _ => crcBitN p.width p.poly c) (c ^^^ (b.toNat * 2 ^ (p.width - 8)))

/-- A byte string fed into a running value (R251). -/
def crcFeed (p : Poly) (c : Nat) (bs : List Byte) : Nat := bs.foldl (crcByte p) c

/-- The CRC of a byte string (R250). -/
def crcOf (p : Poly) (bs : List Byte) : Nat := crcFeed p p.init bs ^^^ p.out

/-- CRC-32C (Table 10-5, POLY 1). -/
def crc32c (bs : List Byte) : Nat := crcOf (polyOf 1) bs

end Sys2Proof.Machine
end

