-- ==== Sys2Proof/Machine/Lomig.lean ====
section
/-! DEFINITION. The Lomig image: its header, directory, sections, environment entries, table section and version rules
(R22 to R31, R318, R353). -/

namespace Sys2Proof.Machine

/-- Results of STR commands (Table 02-11). -/
inductive StrResult
  | ok | busy | headerBad | signatureBad | crcBad | fwWindow | baseIdMismatch | rollback | stateLayout | profileInUse | quiesceTimeout
  | deviceState | resetDuring | fetchFault | cancelled | alreadyDone
  deriving DecidableEq, Repr

/-- Encoding of RESULT (Table 02-11). -/
def StrResult.code : StrResult → Nat
  | .ok => 0
  | .busy => 1
  | .headerBad => 2
  | .signatureBad => 3
  | .crcBad => 4
  | .fwWindow => 5
  | .baseIdMismatch => 6
  | .rollback => 7
  | .stateLayout => 8
  | .profileInUse => 9
  | .quiesceTimeout => 10
  | .deviceState => 11
  | .resetDuring => 12
  | .fetchFault => 13
  | .cancelled => 14
  | .alreadyDone => 15

/-- A directory entry (Table 02-2): type, offset in bytes, length, and whether its reserved byte is zero. -/
structure DirEntry where
  type : Nat
  off : Nat
  len : Nat
  deriving DecidableEq, Repr

/-- The entries of the directory that are in use (Table 02-1). -/
def directory (img : List Byte) : List DirEntry :=
  (List.range (fieldAt img 44 2)).map fun i =>
    ⟨fieldAt img (64 + 8 * i) 1, 4096 * fieldAt img (66 + 8 * i) 2, fieldAt img (68 + 8 * i) 4⟩

/-- SIG_OFFSET. -/
def sigOffset (img : List Byte) : Nat := fieldAt img 52 4

/-- HALL_MASK. -/
def hallMask (img : List Byte) : Nat := fieldAt img 42 2

/-- The image is a full stream. -/
def isFull (img : List Byte) : Bool := fieldAt img 40 1 == 0

/-- Section types of Table 02-2. -/
def sectType (t : Nat) : Bool := t == 1 || (0x10 ≤ t && t ≤ 0x1B) || t == 0x20

/-- No two of the sections overlap, and no two have one type (R23). -/
def apart : List DirEntry → Bool
  | [] => true
  | d :: ds => ds.all (fun e => d.type != e.type && (d.off + d.len ≤ e.off || e.off + e.len ≤ d.off)) && apart ds

/-- Capacity of a hall's bank in bytes (Table 02-8). -/
def bankCapacity : Nat → Nat
  | 0 => 6 * 2 ^ 20
  | 1 => 2 * 2 ^ 20
  | 2 => 4 * 2 ^ 20
  | 3 => 2 * 2 ^ 20
  | 4 => 2 * 2 ^ 20
  | 5 => 8 * 2 ^ 20
  | 6 => 8 * 2 ^ 20
  | 7 => 8 * 2 ^ 20
  | 8 => 2 * 2 ^ 20
  | 9 => 4 * 2 ^ 20
  | 10 => 4 * 2 ^ 20
  | _ => 2 * 2 ^ 20

/-- Body of a section. -/
def bodyOf (img : List Byte) (d : DirEntry) : List Byte := cut img (d.off + 64) (d.len - 64)

/-- The section of a type, if the image carries it. -/
def sectionOf (img : List Byte) (t : Nat) : Option DirEntry := (directory img).find? (·.type == t)

/-- Body of the section of a type; empty where the image carries none. -/
def sectionBody (img : List Byte) (t : Nat) : List Byte := ((sectionOf img t).map (bodyOf img)).getD []

/-- A section header obeys Table 02-3, its CRC apart. -/
def sectHeadOk (img : List Byte) (d : DirEntry) : Bool :=
  let hall := 0x10 ≤ d.type && d.type ≤ 0x1B
  fieldAt img d.off 1 == d.type && fieldAt img (d.off + 1) 1 == 1 && fieldAt img (d.off + 2) 1 == (if hall then d.type - 0x10 else 0) &&
    fieldAt img (d.off + 3) 1 == 0 && fieldAt img (d.off + 4) 4 + 64 == d.len && (hall || fieldAt img (d.off + 8) 6 == 0) &&
    allZero (cut img (d.off + 14) 46)

/-- SECT_CRC matches its section (R24). -/
def sectCrcOk (img : List Byte) (d : DirEntry) : Bool :=
  fieldAt img (d.off + 60) 4 == crc32c (cut img d.off 60 ++ bodyOf img d)

/-- A hall section's body obeys R26. -/
def hallBodyOk (h : Nat) (body : List Byte) : Bool :=
  body.length ≤ bankCapacity h && allZero (cut body 12 4) &&
    16 + roundUp (fieldAt body 0 4) 64 + roundUp (fieldAt body 4 4) 64 + roundUp (fieldAt body 8 4) 64 ≤ body.length

/-- Environment entry i of an environment section body (R25). -/
def envEntry (body : List Byte) (i : Nat) : List Byte := cut body (4 + 8192 * i) 8192

/-- Index of the entry that a strap value selects (R25). -/
def envSelect (body : List Byte) (straps : Nat) : Option Nat :=
  (List.range (fieldAt body 0 4)).find? fun i => fieldAt (envEntry body i) 0 1 % 16 == straps

/-- How many entries a strap value matches. -/
def envMatches (body : List Byte) (straps : Nat) : Nat :=
  ((List.range (fieldAt body 0 4)).filter fun i => fieldAt (envEntry body i) 0 1 % 16 == straps).length

/-- Entries of a table-section body: type and payload (Table 02-5); at most n of them. -/
def tableEntries : Nat → List Byte → List (Nat × List Byte)
  | 0, _ => []
  | n + 1, bs =>
    if bs.length < 8 then []
    else
      let len := fieldAt bs 4 4
      (fieldAt bs 0 1, cut bs 8 len) :: tableEntries n (bs.drop (8 + roundUp len 64))

/-- Every entry header of a table section is well formed: its type is of Table 02-5, its reserved bytes are zero and its payload lies in
the body. -/
def tableOk : Nat → List Byte → Bool
  | 0, _ => true
  | n + 1, bs =>
    if bs.length < 8 then allZero bs
    else
      let t := fieldAt bs 0 1
      1 ≤ t && t ≤ 6 && allZero (cut bs 1 3) && 8 + fieldAt bs 4 4 ≤ bs.length && tableOk n (bs.drop (8 + roundUp (fieldAt bs 4 4) 64))

/-- Domain of a clock island and its largest clock in MHz (Table 16-2). -/
def islandOf (i : Nat) : Nat × Nat :=
  if i ≤ 3 then (i, 1600) else if i = 4 then (4, 800) else if i ≤ 9 then (i, 2000) else if i ≤ 13 then (i, 1200)
  else if i ≤ 17 then (i, 1000) else if i ≤ 21 then (i, 1600) else if i ≤ 23 then (22, 1600) else if i ≤ 25 then (23, 1600)
  else if i ≤ 27 then (24, 1600) else if i ≤ 29 then (25, 1600) else if i ≤ 31 then (26, 1600) else if i ≤ 33 then (i - 5, 1600)
  else if i ≤ 35 then (i - 5, 1600) else if i ≤ 37 then (31, 1000) else if i ≤ 41 then (i - 6, 1000) else (0xFF, 400)

/-- A domain may be switched off by the plan: a Gallery domain, a lane group the environment does not use, or a host port that it does
not state (R353). -/
def mayBeOff (env : List Byte) (d : Nat) : Bool :=
  (23 ≤ d && d ≤ 26) || (32 ≤ d && d ≤ 35 && fieldAt env (208 + 4 * (d - 32) + 2) 1 == 0) ||
    (14 ≤ d && d ≤ 17 && fieldAt env (16 + 16 * (d - 14)) 1 == 0)

/-- The clock and power plan obeys R353. -/
def planOk (env p : List Byte) : Bool :=
  p.length == 336 && fieldAt p 0 4 == 44 && fieldAt p 4 4 == 36 && allZero (cut p 8 8) &&
    ((List.range 44).all fun i =>
      let w := fieldAt p (16 + 4 * i) 4
      let (dom, top) := islandOf i
      100 ≤ w % 65536 && w % 65536 ≤ top && (42 ≤ i || w / 65536 % 256 == dom) && w / 2 ^ 24 == 0) &&
    ((List.range 36).all fun d =>
      let w := fieldAt p (192 + 4 * d) 4
      1 ≤ w % 256 && w % 256 ≤ 5 && w / 512 == 0 && (bitAt w 8 || mayBeOff env d))

/-- Step 1 of R32: the header and the directory obey Tables 02-1 and 02-2 (R22, R23). -/
def headerOk (img : List Byte) : Bool :=
  let ds := directory img
  cut img 0 4 == [0x4C, 0x4F, 0x4D, 0x47] && fieldAt img 4 1 == 1 && fieldAt img 5 1 == 0 && fieldAt img 6 2 == 0x100 &&
    cut img 8 8 == [0x54, 0x4B, 0x2D, 0x39, 0x36, 0x30, 0x30, 0] && fieldAt img 40 1 ≤ 1 && fieldAt img 41 1 == 0 &&
    hallMask img < 4096 && 1 ≤ fieldAt img 44 2 && fieldAt img 44 2 ≤ 16 && fieldAt img 46 2 == 0 && fieldAt img 48 4 == img.length &&
    img.length ≤ 96 * 2 ^ 20 && sigOffset img % 4096 == 0 && sigOffset img ≤ img.length &&
    allZero (cut img (64 + 8 * fieldAt img 44 2) (8 * (16 - fieldAt img 44 2))) && allZero (cut img 192 60) &&
    fieldAt img 252 4 == crc32c (cut img 0 252) &&
    ds.all (fun d => sectType d.type && 4096 ≤ d.off && 64 ≤ d.len && d.off + d.len ≤ sigOffset img) &&
    ((List.range (fieldAt img 44 2)).all fun i => fieldAt img (65 + 8 * i) 1 == 0) && apart ds &&
    ((List.range 12).all fun h => bitAt (hallMask img) h == (sectionOf img (0x10 + h)).isSome)

/-- The sections obey R23, R25, R26 and Table 02-3, their CRCs apart, for a strap value. A partial stream that carries a plan entry fails (R37; log
entry 124). -/
def sectionsOk (img : List Byte) (straps : Nat) : Bool :=
  let ds := directory img
  let env := sectionBody img 1
  let tab := sectionBody img 0x20
  let sel := (envSelect env straps).map (envEntry env)
  ds.all (sectHeadOk img) && ((List.range 12).all fun h => (sectionOf img (0x10 + h)).isNone || hallBodyOk h (sectionBody img (0x10 + h))) &&
    ((sectionOf img 0x20).isNone || tableOk tab.length tab) &&
    (if isFull img then
      hallMask img == 0xFFF && (sectionOf img 1).isSome && (sectionOf img 0x20).isSome && 1 ≤ fieldAt env 0 4 && fieldAt env 0 4 ≤ 16 &&
        4 + 8192 * fieldAt env 0 4 ≤ env.length && envMatches env straps ≤ 1 &&
        (match sel with
          | none => true
          | some e => (tableEntries tab.length tab).all fun t => t.1 != 1 || planOk e t.2)
    else
      (sectionOf img 1).isNone && (hallMask img != 0 || (sectionOf img 0x20).isSome) &&
        (tableEntries tab.length tab).all fun t => t.1 != 1)

/-- Every SECT_CRC matches (R24). -/
def crcsOk (img : List Byte) : Bool := (directory img).all (sectCrcOk img)

/-- R29 for one running firmware version, both as DEV_FW_VER and FW_MIN are laid out. -/
def fwWindowOk (f min : Nat) : Bool :=
  f / 2 ^ 24 == min / 2 ^ 24 && min ≤ f && f / 2 ^ 16 % 256 - min / 2 ^ 16 % 256 ≤ 8

/-- FW_MIN of an image. -/
def fwMin (img : List Byte) : Nat := fieldAt img 16 4

/-- STREAM_VER of an image. -/
def streamVer (img : List Byte) : Nat := fieldAt img 20 4

/-- BASE_ID of an image. -/
def baseId (img : List Byte) : Nat := fieldAt img 24 16

/-- SECTION_VER and STATE_LAYOUT of a hall section, with its body. -/
def sectVer (img : List Byte) (h : Nat) : Nat := ((sectionOf img (0x10 + h)).map fun d => fieldAt img (d.off + 8) 4).getD 0

/-- STATE_LAYOUT of a hall section. -/
def sectLayout (img : List Byte) (h : Nat) : Nat := ((sectionOf img (0x10 + h)).map fun d => fieldAt img (d.off + 12) 2).getD 0

/-- Halls that an image names, in ascending order. -/
def hallsIn (img : List Byte) : List Nat := (List.range 12).filter (bitAt (hallMask img))

end Sys2Proof.Machine
end

