-- ==== Sys2Proof/Machine/Seal.lean ====
section
/-! DEFINITION. Writes to registers by access type (R7, R265, R266), the registers that each seal covers (R269), suspension and comparison
of seals (R270), and the loading of "Stream" values (R8, R44). -/

namespace Sys2Proof.Machine

/-- Key of the register that an own address reaches: windows behind a selector are stored by entry. -/
def State.keyOf (s : State) (a : Nat) : Nat :=
  if R.PKT_METER_RATE ≤ a ∧ a ≤ R.PKT_METER_DROP then a + 2 ^ 26 * (1 + s.getF F.PKT_METER_SEL_INDEX)
  else if R.TXS_Q_RATE ≤ a ∧ a ≤ R.TXS_Q_STATE then a + 2 ^ 26 * (1 + 16 * s.getF F.TXS_QSEL_PORT + s.getF F.TXS_QSEL_QUEUE)
  else if R.TXS_S_RATE ≤ a ∧ a ≤ R.TXS_S_BURST then a + 2 ^ 26 * (1 + s.getF F.TXS_SSEL_SLICE)
  else if R.NVS_C_CFG ≤ a ∧ a < R.NVS_BE 0 then a + 2 ^ 26 * (1 + s.reg R.NVS_CSEL % 256)
  else a

/-- Key of an entry of a window behind a selector. -/
def bankKey (a i : Nat) : Nat := a + 2 ^ 26 * (1 + i)

/-! ### Seals -/

/-- Registers under each block's seal, in order, before its window entries (R269 and each block's chapter). -/
def sealRegs : Nat → List Nat
  | 0 => (List.range 4).map R.DEV_LEASE_LIMIT ++ [R.DEV_PRIV_PORTS, R.DEV_SEAL_CFG]
  | 1 => [R.SIG_CFG]
  | 2 => [R.PWR_CAP, R.PWR_ILIM, R.PWR_SHED_A, R.PWR_SHED_B, R.PWR_SHED_C, R.PWR_RESERVE] ++ (List.range 4).map R.PWR_ENG_BUDGET
  | 4 => (List.range 4).map R.HST_LPM
  | 5 => [R.SLC_RING_LOW]
  | 6 => (List.range 32).map R.STW_WDOG ++ (List.range 8).map R.STW_TRACE_EN
  | 7 => [R.ERR_RING_BASE_LO, R.ERR_RING_BASE_HI, R.ERR_RING_SIZE, R.ERR_RING_CTRL]
  | 8 => [R.GAL_CLUSTER_EN, R.GAL_FLIGHT_RESERVE] ++ (List.range 32).map R.GAL_WEIGHT
  | 9 => [R.FLT_CONFIG]
  | 10 => [R.RTE_RTO, R.RTE_SACK, R.RTE_HOLD] ++
      (List.range 8).flatMap fun k => [R.RTE_CC_DEC k, R.RTE_CC_REC k, R.RTE_CC_STEP k, R.RTE_CC_LIMITS k]
  | 11 => [R.PLC_DECAY, R.PLC_ENERGY, R.PLC_RETIRE, R.PLC_SCRUB, R.PLC_FETCH_WAIT]
  | 12 => [R.PKT_DEPTH, R.PKT_SLOW, R.PKT_MIRROR] ++
      ((List.range 8).flatMap fun t => [R.PKT_TREE_BASE t, R.PKT_TREE_SIZE t, R.PKT_TREE_CFG t, R.PKT_TREE_PORTS t]) ++
      (List.range 16).flatMap fun p => [R.PKT_DEFAULT_LO p, R.PKT_DEFAULT_HI p]
  | 13 => [R.TXS_CONFIG] ++ (List.range 8).map R.TXS_DSCP_MAP
  | 14 => [R.NVS_BACKEND_CFG, R.NVS_SANITIZE_CFG] ++ (List.range 4).map R.NVS_PS_IDLE
  | 15 => (List.range 16).map R.CIP_MACSEC
  | 16 => (List.range 16).map R.CVU_CTX_CFG
  | 17 => [R.HBM_PATROL]
  | 18 => (List.range 4).map R.ETH_GROUP_CFG
  | _ => []

/-- Window entries under each block's seal, in order (R269). -/
def sealWindows : Nat → List Nat
  | 12 => (List.range 16384).flatMap fun i => [bankKey R.PKT_METER_RATE i, bankKey R.PKT_METER_BURST i]
  | 13 => ((List.range 256).flatMap fun i => [bankKey R.TXS_Q_RATE i, bankKey R.TXS_Q_BURST i, bankKey R.TXS_Q_QUANTUM i]) ++
      (List.range 256).flatMap fun i => [bankKey R.TXS_S_RATE i, bankKey R.TXS_S_BURST i]
  | 14 => (List.range 256).flatMap fun c => bankKey R.NVS_C_CFG c ::
      (List.range 8).flatMap fun e => [bankKey (R.NVS_EXT_CFG e) c, bankKey (R.NVS_EXT_NSID e) c, bankKey (R.NVS_EXT_LBA_LO e) c,
        bankKey (R.NVS_EXT_LBA_HI e) c, bankKey (R.NVS_EXT_BLOCKS_LO e) c, bankKey (R.NVS_EXT_BLOCKS_HI e) c]
  | _ => []

/-- The seal of a block: CRC-32C over the active values, each as 4 little-endian bytes (R269). The slice entries stand behind
SLC_RING_LOW in slice order. -/
def State.sealOf (s : State) (b : Nat) : Nat :=
  let words := (sealRegs b ++ sealWindows b).flatMap fun k => leBytes 4 (s.reg k)
  let entries := if b = 5 then (List.range 256).flatMap fun i => leBytes 64 (s.slice i).cfg.toNat else []
  crc32c (words ++ entries)

/-- A register is under a seal. -/
def sealed (key : Nat) : Bool :=
  match blockOf (key % 2 ^ 26) with
  | none => false
  | some b =>
    (sealRegs b).contains key ||
      (2 ^ 26 ≤ key && (let a := key % 2 ^ 26
        a = R.PKT_METER_RATE || a = R.PKT_METER_BURST || a = R.TXS_Q_RATE || a = R.TXS_Q_BURST || a = R.TXS_Q_QUANTUM ||
        a = R.TXS_S_RATE || a = R.TXS_S_BURST || a = R.NVS_C_CFG || (R.NVS_EXT_CFG 0 ≤ a && a < R.NVS_BE 0)))

/-- Comparison of a block's seal is suspended, as DEV_SEAL_HOLD shows (R270). -/
def sealHoldF (b : Nat) : Fld := ⟨R.DEV_SEAL_HOLD, b, b⟩

/-- A sealed value of a block changed: comparison is suspended until SEAL_REF is written or HOLD_MS passes (R270). -/
def State.sealTouch (s : State) (b : Nat) : State := (s.setF (sealHoldF b) 1).begin (.seal b)

/-- The SEAL_MISMATCH field of a block's STATUS register; DEV and STR have none. -/
def sealStatusF : Nat → Option Fld
  | 1 => some F.SIG_STATUS_SEAL_MISMATCH
  | 2 => some F.PWR_STATUS_SEAL_MISMATCH
  | 4 => some F.HST_STATUS_SEAL_MISMATCH
  | 5 => some F.SLC_STATUS_SEAL_MISMATCH
  | 6 => some F.STW_STATUS_SEAL_MISMATCH
  | 7 => some F.ERR_STATUS_SEAL_MISMATCH
  | 8 => some F.GAL_STATUS_SEAL_MISMATCH
  | 9 => some F.FLT_STATUS_SEAL_MISMATCH
  | 10 => some F.RTE_STATUS_SEAL_MISMATCH
  | 11 => some F.PLC_STATUS_SEAL_MISMATCH
  | 12 => some F.PKT_STATUS_SEAL_MISMATCH
  | 13 => some F.TXS_STATUS_SEAL_MISMATCH
  | 14 => some F.NVS_STATUS_SEAL_MISMATCH
  | 15 => some F.CIP_STATUS_SEAL_MISMATCH
  | 16 => some F.CVU_STATUS_SEAL_MISMATCH
  | 17 => some F.HBM_STATUS_SEAL_MISMATCH
  | 18 => some F.ETH_STATUS_SEAL_MISMATCH
  | _ => none

/-- SEAL of a block. -/
def sealAddr (b : Nat) : Nat := blockBase b + 0x3F0

/-- SEAL_REF of a block. -/
def sealRefAddr (b : Nat) : Nat := blockBase b + 0x3F4

/-- A block's seal recomputed, and compared unless comparison is suspended (R269, R270). The units of H10 compute it, so its pause
holds it (Table 02-8), and STR has none. -/
def State.sealTick (s : State) (b : Nat) : State :=
  if b = 3 ∨ s.hallPaused 10 then s
  else
    let s := s.setReg (sealAddr b) (s.sealOf b)
    if s.getF (sealHoldF b) = 1 then s
    else if s.reg (sealAddr b) = s.reg (sealRefAddr b) then { s with sealBad := s.sealBad.filter (· != b) }
    else if s.sealBad.contains b then s
    else
      let s := { s with sealBad := b :: s.sealBad }
      let s := match sealStatusF b with
        | some f => s.event f
        | none => s
      (s.event ⟨R.DEV_SEAL_SUMMARY, b, b⟩).report 0x201 b 0xFFFF 0 b

/-- SEAL_REF written: the reference is committed, the suspension ends, and a mismatch is reported anew (R270). A hall no longer shows SEAL_PENDING once
every block of it has its reference (R44). -/
def State.sealRef (s : State) (b v : Nat) : State :=
  let s := (s.setReg (sealRefAddr b) v).setF (sealHoldF b) 0
  let s := { s with sealOk := if s.sealOk.contains b then s.sealOk else b :: s.sealOk, sealBad := s.sealBad.filter (· != b) }
  (hallsOf b).foldl (fun s h => if (blocksOf h).all s.sealOk.contains then s.setF (F.STR_HALL_SEAL_PENDING h) 0 else s) s

/-- Suspension without limit: from a reset or a SWITCH until SEAL_REF is written (R270, R44). -/
def State.sealSuspend (s : State) (b : Nat) : State :=
  { s.setF (sealHoldF b) 1 with sealOk := s.sealOk.filter (· != b) }

/-! ### Writes by access type -/

/-- A row has a field of an access type. -/
def RegRow.hasAcc (r : RegRow) (a : Acc) : Bool := r.fields.any (·.acc == a)

/-- The sequence-clear fields of a register return to their reset values, when the written SEQ is the current one (R265). -/
def State.sqcWrite (s : State) (key : Nat) (r : RegRow) (data : Nat) : State :=
  if data / 2 ^ 24 = s.getF (seqOf key) then
    r.fields.foldl (fun s f => if f.acc == .sqc && !(f.hi == 31 && f.lo == 24) then s.setF ⟨key, f.hi, f.lo⟩ f.rst else s) s
  else s

/-- A full write to a register takes effect by the access type of each field (R7): RW at once, PRW from privileged masters and SRW from
the Signet, RWB as pending, SQC as R265 states, and RO, WO and reserved bits not at all. -/
def State.fieldWrite (s : State) (m : Master) (off key : Nat) (r : RegRow) (data : Word) : State :=
  let priv := s.privileged m
  let sig := m == .signet
  let now := r.mask fun f => f.acc == .rw || (f.acc == .prw && priv) || (f.acc == .srw && sig)
  let old := BitVec.ofNat 32 (s.reg key)
  let new := (old &&& ~~~now) ||| (data &&& now)
  let s := if new = old then s else
    let s := s.setReg key new.toNat
    match blockOf (key % 2 ^ 26) with
    | some b => if sealed key then s.sealTouch b else s
    | none => s
  let s := if r.hasAcc .rwb then s.pendWrite key (r.mask (·.acc == .rwb)) data else s
  let s := if r.hasAcc .sqc then s.sqcWrite key r data.toNat else s
  let s := if r.hasAcc .prw && !priv then s.violate m .privRW off else s
  if r.hasAcc .srw && !sig then s.violate m .signetRW off else s

/-- What a master reads of a stored value: write-only fields read 0, and PRW and SRW fields read 0 to masters they refuse (R7). -/
def State.readMask (s : State) (m : Master) (r : RegRow) : Word :=
  r.mask fun f => f.acc != .wo && f.acc != .resv && (f.acc != .prw || s.privileged m) && (f.acc != .srw || m == .signet)

/-! ### "Stream" values -/

/-- The Stream fields of one register take their bits from a word. -/
def State.loadReg (s : State) (r : RegRow) (a : Nat) (w : Word) : State :=
  let k := r.mask (·.stream)
  s.setReg a ((BitVec.ofNat 32 (s.reg a) &&& ~~~k) ||| (w &&& k)).toNat

/-- Every Stream field of a block takes its value from a section (R8, R44; log entry 18). Entries of windows behind a selector are
loaded as the chapters that own them state. -/
def State.loadBlock (s : State) (body : List Byte) (b : Nat) : State :=
  (blockRows b).foldl (fun s r =>
    if r.fields.any (·.stream) && !r.banked then
      (List.range r.count).foldl (fun s i => s.loadReg r (r.addr + r.stride * i) (Config.streamReg body (r.addr + r.stride * i))) s
    else s) s

/-- Entries of a window behind a selector loaded from a section. -/
def State.loadWindow (s : State) (body : List Byte) (b n : Nat) (sel : Nat → Bool) : State :=
  (blockRows b).foldl (fun s r =>
    if r.fields.any (·.stream) && r.banked && sel r.addr then
      (List.range n).foldl (fun s i => (List.range r.count).foldl (fun s j =>
        let k := bankKey (r.addr + r.stride * j) i
        s.loadReg r k (Config.streamReg body k)) s) s
    else s) s

/-- All Stream values of a hall's blocks (R44): the meters of PKT, the queues and slice shapers of TXS and the controllers of NVS among them. -/
def State.loadHall (s : State) (body : List Byte) (h : Nat) : State :=
  (blocksOf h).foldl (fun s b =>
    let s := s.loadBlock body b
    if b = 12 then s.loadWindow body 12 16384 (fun _ => true)
    else if b = 13 then s.loadWindow body 13 256 (fun _ => true)
    else if b = 14 then s.loadWindow body 14 256 (fun _ => true)
    else s) s

/-- Pending writes to Stream fields of a block are discarded at its hall's SWITCH; other pending writes stay (R266). -/
def State.dropStreamPend (s : State) (b : Nat) : State :=
  let keep := s.pend.filterMap fun e =>
    if blockOf (e.1 % 2 ^ 26) = some b then
      let k := ((rowOf e.1).map fun r => r.mask (·.stream)).getD 0
      let m := e.2.1 &&& ~~~k
      if m = 0 then none else some (e.1, (m, e.2.2))
    else some e
  let gone := s.pend.filterMap fun e => if keep.any (·.1 == e.1) then none else applyOf e.1
  let s := { s with pend := keep }
  gone.foldl (fun s f => if keep.any (fun e => applyOf e.1 == some f) then s else s.setF f 0) s

end Sys2Proof.Machine
end

