-- ==== Sys2Proof/Machine/Env.lean ====
section
/-! DEFINITION. The environment entry that the stream selects (Table 02-4), accelerator profiles (Table 02-6), and ENV_MISMATCH
(R17, R35, R36, Table 01-5). -/

namespace Sys2Proof.Machine

/-- A byte field of the selected environment entry. -/
def State.envField (s : State) (off n : Nat) : Nat := fieldAt s.str.env off n

/-- WIDTH stated for a port: 16, or 8 for 2 × x8. -/
def State.portWidth (s : State) (p : Nat) : Nat := s.envField (16 + 16 * p) 1

/-- The port is bifurcated. -/
def State.bifurcated (s : State) (p : Nat) : Bool := s.portWidth p == 8

/-- SPEED stated for a port. -/
def State.portSpeed (s : State) (p : Nat) : Nat := s.envField (17 + 16 * p) 1

/-- SPEED as HST_LINK_p encodes a rate: 1, 2 and 3 for 32, 64 and 128 GT/s. -/
def speedRate (v : Nat) : Nat := if v = 0x20 then 1 else if v = 0x40 then 2 else if v = 0x80 then 3 else 0

/-- A rate of HST_LINK_p as SPEED encodes it. -/
def rateSpeed (v : Nat) : Nat := if v = 1 then 0x20 else if v = 2 then 0x40 else if v = 3 then 0x80 else 0

/-- First slice and number of slices of a half of a port (Table 02-4, R276). -/
def State.sliceRange (s : State) (p h : Nat) : Nat × Nat :=
  let first := s.envField (20 + 16 * p) 2
  let n := s.envField (22 + 16 * p) 2
  if s.bifurcated p then if h = 0 then (first, ceilDiv n 2) else (first + ceilDiv n 2, n - ceilDiv n 2)
  else if h = 0 then (first, n) else (first, 0)

/-- An accelerator position: PRESENT, PROFILE, HALF, PORT and WINDOW_BASE (Table 02-4). -/
def State.accelPresent (s : State) (a : Nat) : Bool := s.envField (80 + 16 * a) 1 == 1

/-- PROFILE of a position. -/
def State.accelProfile (s : State) (a : Nat) : Nat := s.envField (81 + 16 * a) 1

/-- PORT of a position. -/
def State.accelPort (s : State) (a : Nat) : Nat := s.envField (82 + 16 * a) 1 % 16

/-- HALF of a position; 0 on a port that is not bifurcated. -/
def State.accelHalf (s : State) (a : Nat) : Nat :=
  if s.bifurcated (s.accelPort a) then s.envField (82 + 16 * a) 1 / 16 % 2 else 0

/-- The records of an accelerator-profile entry (R27). -/
def profiles (bs : List Byte) : List (List Byte) := (List.range 4).map fun i => cut bs (256 * i) 256

/-- Accelerator profile p in force: the record whose PROFILE_ID is p (R27, Table 02-6; log entry 125). -/
def State.profile (s : State) (p : Nat) : List Byte := ((profiles (lookD s.str.tabs 6 [])).find? fun r => fieldAt r 0 1 == p).getD []

/-- NATIVE_FORMATS of a position's profile. -/
def State.accelNative (s : State) (a : Nat) : Nat := fieldAt (s.profile (s.accelProfile a)) 2 2 % 2048

/-- WINDOW_LEN of a position. -/
def State.accelLen (s : State) (a : Nat) : Nat := fieldAt (s.profile (s.accelProfile a)) 4 8

/-- DOORBELL convention of a position. -/
def State.accelDoorbell (s : State) (a : Nat) : Nat := fieldAt (s.profile (s.accelProfile a)) 12 1

/-- COMPLETION convention of a position. -/
def State.accelCompletion (s : State) (a : Nat) : Nat := fieldAt (s.profile (s.accelProfile a)) 13 1

/-- COUNTER_OFFSET of a position. -/
def State.accelCounterOff (s : State) (a : Nat) : Nat := fieldAt (s.profile (s.accelProfile a)) 16 8

/-- COMPLETION_OFFSET of a position. -/
def State.accelCompletionOff (s : State) (a : Nat) : Nat := fieldAt (s.profile (s.accelProfile a)) 24 8

/-- WINDOW_BASE of a position. -/
def State.accelBase (s : State) (a : Nat) : Nat := s.envField (88 + 16 * a) 8

/-- The completion counter of an accelerator, as its window holds it (Table 02-6). -/
def State.accelCounter (s : State) (a : Nat) : Nat := leNat (s.mem.read ((Space.accel a).at (s.accelCounterOff a)) 8)

/-- An accelerator position may be reached: present, not kept disabled, and its link up with the tenant function issuing requests
(R12, R17). -/
def State.accelUp (s : State) (a : Nat) : Bool :=
  s.accelPresent a && !s.str.accelOff.contains a &&
    s.canDma (.pf1 ⟨s.accelPort a % 4, Nat.mod_lt _ (by decide)⟩ ⟨s.accelHalf a % 2, Nat.mod_lt _ (by decide)⟩)

/-- Lane group g is used (Table 02-4). -/
def State.groupEnabled (s : State) (g : Nat) : Bool := s.envField (210 + 4 * g) 1 == 1

/-- MODE of a lane group. -/
def State.groupMode (s : State) (g : Nat) : Nat := s.envField (208 + 4 * g) 1

/-- MIN_LANES of a lane group. -/
def State.groupMin (s : State) (g : Nat) : Nat := s.envField (209 + 4 * g) 1

/-- Lanes that each port of a group has in a mode: 8, 4 or 2. -/
def modeLanes (m : Nat) : Nat := if m = 0 then 8 else if m = 1 then 4 else 2

/-- Ports of a group in a mode: 1, 2 or 4. -/
def modePorts (m : Nat) : Nat := if m = 0 then 1 else if m = 1 then 2 else 4

/-- PTP role, domain, port and PPS setting (Table 02-4). -/
def State.ptpRole (s : State) : Nat := s.envField 224 1

/-- Network port that carries PTP. -/
def State.ptpPort (s : State) : Nat := s.envField 226 1 % 16

/-- The PTP start-up timeout in seconds (Table 02-4). -/
def State.ptpStartS (s : State) : Nat := if s.envField 228 2 = 0 then 30 else s.envField 228 2

/-- PPS of the PTP settings (Table 02-4). -/
def State.ppsMode (s : State) : Nat := s.envField 227 1

/-- Backend endpoint k is stated (Table 02-4). -/
def State.backendStated (s : State) (k : Nat) : Bool := s.envField (256 + 256 * k) 1 != 0

/-- The class bit of STR_ENV_MISMATCH. -/
def envClassF (c : Nat) : Fld := ⟨R.STR_ENV_MISMATCH, c - 1, c - 1⟩

/-- An ENV_MISMATCH: recorded, its class bit set, and reported (R35). -/
def State.envRaise (s : State) (cls item stated observed : Nat) : State :=
  let i := s.str.records
  let words := [cls + 256 * item, stated + 65536 * observed, s.now % 2 ^ 32, s.now / 2 ^ 32]
  let s :=
    if i < 32 then
      { (List.range 4).foldl (fun s w => s.setReg (R.STR_ENV_REC (4 * i + w)) (words.getD w 0)) s with str := { s.str with records := i + 1 } }
    else s.bumpSat F.STR_ENV_MISMATCH_LOST
  (s.event (envClassF cls)).report 0x202 3 0xFFFF 0 (cls * 256 + item)

/-- A class whose part now matches: the device clears its bit (R36). -/
def State.envClear (s : State) (cls : Nat) : State := s.setF (envClassF cls) 0

/-- State field of a link. -/
def linkStateF (p h : Nat) : Fld := if h = 0 then F.HST_LINK_H0_STATE p else F.HST_LINK_H1_STATE p

/-- Trained width of a link. -/
def linkWidthF (p h : Nat) : Fld := if h = 0 then F.HST_LINK_H0_WIDTH p else F.HST_LINK_H1_WIDTH p

/-- Trained rate of a link. -/
def linkRateF (p h : Nat) : Fld := if h = 0 then F.HST_LINK_H0_RATE p else F.HST_LINK_H1_RATE p

/-- Flit mode of a link. -/
def linkFlitF (p h : Nat) : Fld := if h = 0 then F.HST_LINK_H0_FLIT p else F.HST_LINK_H1_FLIT p

/-- A trained link is as wide and as fast as the environment states (R17, R275). -/
def State.linkMatches (s : State) (p h : Nat) : Bool :=
  s.portWidth p ≤ s.getF (linkWidthF p h) && speedRate (s.portSpeed p) ≤ s.getF (linkRateF p h)

/-- A trained link compared with its entry: narrower or slower, it is disabled with ENV_MISMATCH (R17, R275), and one that matches is up. -/
def State.linkCheck (s : State) (p h : Nat) : State :=
  if s.str.env.isEmpty ∨ s.getF (linkStateF p h) < 2 ∨ s.portWidth p = 0 then s
  else if s.linkMatches p h then
    { s with str := { s.str with portOff := s.str.portOff.filter (· != 2 * p + h) } }.setF (linkStateF p h) 2
  else if s.getF (linkStateF p h) = 3 then s
  else ({ s with str := { s.str with portOff := (2 * p + h) :: s.str.portOff.filter (· != 2 * p + h) } }.setF (linkStateF p h) 3).envRaise 1 p
    (s.portWidth p * 256 + s.portSpeed p) (s.getF (linkWidthF p h) * 256 + rateSpeed (s.getF (linkRateF p h)))

/-- A link that has trained while a stream runs: one that a mismatch keeps disabled stays so, unless PERST# has inserted its port again (R17,
R298). -/
def State.linkTried (s : State) (p h : Nat) (fresh : Bool) : State :=
  if s.str.portOff.contains (2 * p + h) ∧ !fresh then s.setF (linkStateF p h) 3 else s.linkCheck p h

/-- The host-port class bit clears when no port is kept disabled (R36). -/
def State.portsClear (s : State) : State := if s.str.portOff.isEmpty then s.envClear 1 else s

/-- Every half of every port compared with its entry (R36). -/
def State.portsCheck (s : State) : State :=
  ((List.range 4).foldl (fun s p => (s.linkCheck p 0).linkCheck p 1) s).portsClear

/-- Stated accelerators on a port's link compared with those that answer (bit a of `accel`): one that does not is kept disabled
(R17). -/
def State.accelCheck (s : State) (accel : BitVec 8) (sel : Nat → Bool) : State :=
  let s := (List.range 8).foldl (fun s a =>
    if !s.accelPresent a || !sel a then s
    else if bitAt accel.toNat a then { s with str := { s.str with accelOff := s.str.accelOff.filter (· != a) } }
    else if s.str.accelOff.contains a then s
    else { s with str := { s.str with accelOff := a :: s.str.accelOff } }.envRaise 2 a 1 0) s
  if s.str.accelOff.isEmpty then s.envClear 2 else s

/-- Lanes of a group that work. -/
def State.groupWorking (s : State) (g : Nat) : Nat := s.getF (F.ETH_GROUP_STATE_WORKING g)

/-- Number of set bits of a lane mask. -/
def lanes (m : Nat) : Nat := ((List.range 8).filter (bitAt m)).length

/-- The largest power of two of lanes not above n (R386). -/
def pow2Below (n : Nat) : Nat := if n = 0 then 0 else 2 ^ Nat.log2 n

/-- Lanes in use by port i of a group: the largest power of two of its working lanes, and at the 48 V stage half of that, at least 1
(R386). -/
def portLanes (mode working i : Nat) (half : Bool) : Nat :=
  let k := modeLanes mode
  if i < modePorts mode then
    let w := pow2Below ((List.range k).filter (fun j => bitAt working (i * k + j))).length
    if half && 1 < w then w / 2 else w
  else 0

/-- PORT_LANES of a group that is up (Table 18-10). -/
def State.setPortLanes (s : State) (g : Nat) : State :=
  let up := s.getF (F.ETH_GROUP_STATE_STATE g) == 2
  let v := (List.range 4).foldl (fun n i => n + (if up then portLanes (s.groupMode g) (s.groupWorking g) i (s.shedAt 3) else 0) * 16 ^ i) 0
  s.setF (F.ETH_GROUP_STATE_PORT_LANES g) v

/-- Lanes of a group that work: WORKING, and UP of each lane, are set. -/
def State.setWorking (s : State) (g m : Nat) : State :=
  (List.range 8).foldl (fun s k => s.setF (F.ETH_LANE_UP (8 * g + k)) (b2n (bitAt m k))) (s.setF (F.ETH_GROUP_STATE_WORKING g) m)

/-- Every lane that a group's mode states. -/
def groupLanes : Nat := 8

/-- A group after training: below its stated mode it raises ENV_MISMATCH and stays disabled; else it is up (R17, R373). -/
def State.groupTrained (s : State) (g m : Nat) : State :=
  let s := s.setWorking g m
  if lanes m < groupLanes then
    let s := { s with str := { s.str with groupOff := g :: s.str.groupOff.filter (· != g) } }
    ((s.setF (F.ETH_GROUP_STATE_STATE g) 3).setPortLanes g).envRaise 3 g groupLanes (lanes m)
  else (s.setF (F.ETH_GROUP_STATE_STATE g) 2).setPortLanes g

/-- Lane groups compared again after a restream of H4 (R36): a group that a mismatch keeps disabled and whose lanes all work is enabled; one
that trains meanwhile is up when its training ends. -/
def State.groupsCheck (s : State) : State :=
  let s := (List.range 4).foldl (fun s g =>
    if s.str.groupOff.contains g && lanes (s.groupWorking g) == groupLanes then
      let s := { s with str := { s.str with groupOff := s.str.groupOff.filter (· != g) } }
      if s.getF (F.ETH_GROUP_STATE_STATE g) = 3 then (s.setF (F.ETH_GROUP_STATE_STATE g) 2).setPortLanes g else s
    else s) s
  if s.str.groupOff.isEmpty then s.envClear 3 else s

/-- A stated backend endpoint that does not answer, or refuses, at start-up: the namespaces that it backs are kept disabled (R17). -/
def State.backendMiss (s : State) (k status : Nat) : State :=
  if s.str.beOff.contains k then s
  else { s with str := { s.str with beOff := k :: s.str.beOff } }.envRaise 5 k 0 status

/-- Backend endpoints compared again (R36): those that are up are enabled. -/
def State.backendsCheck (s : State) : State :=
  let s := { s with str := { s.str with beOff := s.str.beOff.filter fun k => s.getF (F.NVS_BE_STATE k) != 2 } }
  if s.str.beOff.isEmpty then s.envClear 5 else s

/-- PTP compared again after a restream of H11 (R36). -/
def State.ptpCheck (s : State) : State :=
  if s.time.heard || s.ptpRole != 2 then { s with str := { s.str with ptpOff := false } }.envClear 4 else s

/-- A network port is up: it has lanes in use (Table 18-10). -/
def State.netUp (s : State) (p : Nat) : Bool :=
  0 < s.getF (F.ETH_GROUP_STATE_PORT_LANES (p / 4)) / 16 ^ (p % 4) % 16

/-- Step 9 of R32 has every answer: each used lane group and each stated backend endpoint (R366). -/
def State.envAnswered (s : State) : Bool :=
  ((List.range 4).all fun g => !s.groupEnabled g || 2 ≤ s.getF (F.ETH_GROUP_STATE_STATE g)) &&
    ((List.range 16).all fun k => !s.backendStated k || s.getF (F.NVS_BE_STATE k) == 2 || s.str.beOff.contains k)

/-- A port's driver version is accepted: ANSWERED set and RESULT OK (R330). -/
def State.helloAccepted (s : State) (p : Nat) : Bool :=
  s.getF (F.DEV_DRV_HELLO_ANSWERED p) == 1 && s.getF (F.DEV_DRV_HELLO_RESULT p) == 0

/-- LIMITED with cause 3 while no port holds an accepted version and a port's last judgment was a refusal; READY again, or SHEDDING while a stage is in
force, with the first accepted one (R330, Table 16-7). -/
def State.driverCheck (s : State) : State :=
  let accepted := (List.range 4).any s.helloAccepted
  let refused := (List.range 4).any fun p => s.getF (F.DEV_DRV_HELLO_RESULT p) == 0x31
  if s.dev.st = .ready ∧ !accepted ∧ refused then s.setDev { s.dev with st := .limited, limitedCause := 3 }
  else if s.dev.st = .limited ∧ s.dev.limitedCause = 3 ∧ accepted then
    s.setDev { s.dev with st := if s.dev.shed = 0 then .ready else .shedding, limitedCause := 0 }
  else s

/-- Step 10 of R32: READY, when step 9 has every answer (R364); then the driver versions judged before count (R330). -/
def State.envSettle (s : State) : State :=
  if s.dev.envWait && s.envAnswered && !s.str.env.isEmpty && (s.dev.st == .boot || s.dev.st == .limited) then
    (s.setDev { s.dev with st := if s.dev.shed = 0 then .ready else .shedding, limitedCause := 0, envWait := false }).driverCheck
  else s

end Sys2Proof.Machine
end

