-- ==== Sys2Proof/Machine/Filigree.lean ====
section
/-! DEFINITION. Filigree programs: the instruction word, the load checks, binary32 arithmetic and the execution of a row and of
the tail (R83 to R90). -/

namespace Sys2Proof.Machine

/-- A Filigree instruction word cut into its fields (Table 04-9). -/
structure FWord where
  op : Nat
  pred : Nat
  dst : Nat
  a : Nat
  b : Nat
  c : Nat
  selD : Bool
  selA : Bool
  selB : Bool
  selC : Bool
  ctrl : Nat
  draw : Nat
  stream : Nat
  rest : Nat
  deriving DecidableEq, Repr

/-- The fields of a 64-bit word (Table 04-9). -/
def FWord.of (w : Nat) : FWord :=
  ⟨bits w 63 58, bits w 57 55, bits w 54 50, bits w 49 45, bits w 44 40, bits w 39 35, bitAt w 34, bitAt w 33, bitAt w 32, bitAt w 31,
    bits w 30 23, bits w 22 21, bits w 20 17, bits w 16 0⟩

/-- A program image's header (Table 04-11). -/
structure FHead where
  id : Nat
  ver : Nat
  bodyLen : Nat
  tailLen : Nat
  exch : Nat
  carry : Nat
  streams : Nat
  inMask : Nat
  outMask : Nat
  deriving DecidableEq, Repr

/-- Header fields of an image (Table 04-11). -/
def FHead.of (bs : List Byte) : FHead :=
  ⟨fieldAt bs 4 2, fieldAt bs 6 2, fieldAt bs 8 2, fieldAt bs 10 2, fieldAt bs 12 1 % 16, fieldAt bs 13 1 % 16, fieldAt bs 14 1 % 32,
    fieldAt bs 16 2, fieldAt bs 18 2⟩

/-- Which fields an opcode of Table 04-10 uses: DST, A, B, C, CTRL, DRAW, STREAM; none for an invalid opcode. -/
def opFields : Nat → Option (Bool × Bool × Bool × Bool × Bool × Bool × Bool)
  | 0x00 => some (false, false, false, false, false, false, false)
  | 0x01 => some (true, false, false, false, false, false, true)
  | 0x02 => some (false, true, false, false, true, true, true)
  | 0x04 | 0x05 | 0x1C | 0x1D | 0x1E => some (true, true, false, false, true, true, false)
  | 0x08 | 0x09 | 0x0B | 0x0C | 0x11 => some (true, true, true, false, false, false, false)
  | 0x0A | 0x15 => some (true, true, true, true, false, false, false)
  | 0x0D | 0x0E | 0x0F | 0x10 | 0x18 => some (true, true, false, false, false, false, false)
  | 0x14 => some (true, true, true, false, true, false, false)
  | _ => none

/-- The exchange format of a header; MX codes and reserved codes are refused (R61, R89). -/
def FHead.exchFmt (h : FHead) : Option Fmt :=
  match Fmt.ofCode h.exch with
  | some f => if f.isMx then none else some f
  | none => none

/-- How many accumulators exist for an exchange format (R88). -/
def accCount (f : Fmt) : Nat := if f.small then 4 else 1

/-- A vector or scalar operand names a register that exists (R85). -/
def regOk (sel : Bool) (r : Nat) : Bool := sel || r < 16

/-- The opcode's own conditions on registers, CTRL and DRAW (R86, R90). -/
def opOk (h : FHead) (x : Fmt) (tail : Bool) (w : FWord) : Bool :=
  let conv (ok : Fmt → Bool) : Bool :=
    match Ctrl.ofByte w.ctrl with
    | some c => ok c.fmt && (w.draw == 0 || c.mode == .stochastic)
    | none => false
  let dstV := regOk w.selD w.dst && (tail || !w.selD)
  let a := regOk w.selA w.a
  let b := regOk w.selB w.b
  let c := regOk w.selC w.c
  match w.op with
  | 0x01 => !tail && dstV && !w.selD && w.stream < h.streams && bitAt h.inMask w.stream
  | 0x02 => !tail && a && w.stream < h.streams && bitAt h.outMask w.stream && conv (fun _ => true)
  | 0x04 => dstV && a && conv (fun f => f.code ≤ 4 || f == .int8)
  | 0x05 => dstV && a && conv (fun f => 1 ≤ f.code && f.code ≤ 4)
  | 0x08 | 0x09 | 0x0B | 0x0C => dstV && a && b
  | 0x0A | 0x15 => dstV && a && b && c
  | 0x0D | 0x0E | 0x0F | 0x10 => dstV && a
  | 0x11 => dstV && a && w.selB
  | 0x14 => dstV && a && b && w.ctrl < 8
  | 0x18 => !w.selD && 1 ≤ w.dst && w.dst ≤ 3 && a
  | 0x1C | 0x1D => !w.selD && w.dst < accCount x && a && conv (fun f => f == x)
  | 0x1E => dstV && !w.selA && w.a < accCount x && (tail || !bitAt h.carry w.a) && conv (fun f => f.code ≤ 4)
  | _ => true

/-- One word obeys R85, R86 and R90, given whether it is the last of its part. -/
def wordOk (h : FHead) (x : Fmt) (tail last : Bool) (word : Nat) : Bool :=
  let w := FWord.of word
  if w.op = 0 then word == 0 && last
  else !last && w.rest == 0 && w.pred != 4 &&
    match opFields w.op with
    | none => false
    | some (d, a, b, c, ct, dr, st) =>
      (d || (w.dst == 0 && !w.selD)) && (a || (w.a == 0 && !w.selA)) && (b || (w.b == 0 && !w.selB)) &&
        (c || (w.c == 0 && !w.selC)) && (ct || w.ctrl == 0) && (dr || w.draw == 0) && (st || w.stream == 0) && opOk h x tail w

/-- Words of an image from an offset. -/
def imageWords (bs : List Byte) (off : Nat) : Nat → List Nat
  | 0 => []
  | n + 1 => fieldAt bs off 8 :: imageWords bs (off + 8) n

/-- Index of the first word of a part that breaks a rule (R90). -/
def firstBad (h : FHead) (x : Fmt) (tail : Bool) : List Nat → Nat → Option Nat
  | [], _ => none
  | w :: ws, i => if wordOk h x tail ws.isEmpty w then firstBad h x tail ws (i + 1) else some i

/-- Exact sum of two finite values; an exact zero is -0 only if both are -0 (R52). -/
def addFin (n1 : Bool) (m1 : Nat) (e1 : Int) (n2 : Bool) (m2 : Nat) (e2 : Int) : Val :=
  let e := min e1 e2
  let a : Int := (m1 * 2 ^ (e1 - e).toNat : Nat)
  let b : Int := (m2 * 2 ^ (e2 - e).toNat : Nat)
  let s := (if n1 then -a else a) + (if n2 then -b else b)
  if s = 0 then .num (n1 && n2 && m1 == 0 && m2 == 0) 0 e else .num (s < 0) s.natAbs e

/-- Exact sum of two values (R52, R84); a NaN that a product has just made stays one that was made here. -/
def addVal (x y : Val) : Val :=
  match x, y with
  | .nan a, .nan b => .nan (a && b)
  | .nan a, _ | _, .nan a => .nan a
  | .inf a, .inf b => if a = b then .inf a else .nan true
  | .inf a, _ | _, .inf a => .inf a
  | .num n1 m1 e1, .num n2 m2 e2 => addFin n1 m1 e1 n2 m2 e2

/-- Exact product (R84). -/
def mulVal (x y : Val) : Val :=
  match x, y with
  | .nan _, _ | _, .nan _ => .nan false
  | .inf a, .inf b => .inf (a != b)
  | .inf a, .num n m _ | .num n m _, .inf a => if m = 0 then .nan true else .inf (a != n)
  | .num n1 m1 e1, .num n2 m2 e2 => .num (n1 != n2) (m1 * m2) (e1 + e2)

/-- floor of the square root, bit by bit from bit k - 1 down. -/
def isqrtGo (n : Nat) : Nat → Nat → Nat
  | 0, r => r
  | k + 1, r => if (r + 2 ^ k) * (r + 2 ^ k) ≤ n then isqrtGo n k (r + 2 ^ k) else isqrtGo n k r

/-- floor of the square root. -/
def isqrt (n : Nat) : Nat := isqrtGo n (Nat.log2 n / 2 + 1) 0

/-- A root r of 2^e units, made odd with one more bit when it is not exact, so that rounding to 24 bits is right (R84). -/
def sticky (r : Nat) (exact : Bool) (e : Int) : Val :=
  if exact then .num false r e else .num false (2 * r + 1) (e - 1)

/-- Square root of a value, exact up to a sticky bit below 30 bits (R84). -/
def sqrtVal : Val → Val
  | .nan _ => .nan false
  | .inf n => if n then .nan true else .inf false
  | .num n m e =>
    if m = 0 then .num n 0 0
    else if n then .nan true
    else
      let sh : Nat := if e % 2 = 0 then 64 else 65
      let k := m * 2 ^ sh
      let r := isqrt k
      sticky r (r * r == k) ((e - sh) / 2)

/-- Reciprocal square root (R84): RSQRT(±0) is ±Inf and RSQRT(+Inf) is +0. -/
def rsqrtVal : Val → Val
  | .nan _ => .nan false
  | .inf n => if n then .nan true else .num false 0 0
  | .num n m e =>
    if m = 0 then .inf n
    else if n then .nan true
    else
      let (m, e) := if e % 2 = 0 then (m, e) else (2 * m, e - 1)
      let k := 32 + (Nat.log2 m + 1) / 2
      let q := 2 ^ (2 * k) / m
      let r := isqrt q
      sticky r (r * r * m == 2 ^ (2 * k)) (-(k : Int) - e / 2)

/-- Order of two values: none with a NaN (Table 04-10, CMP). -/
def cmpVal (x y : Val) : Option Ordering :=
  match x, y with
  | .nan _, _ | _, .nan _ => none
  | .inf a, .inf b => some (if a = b then .eq else if a then .lt else .gt)
  | .inf a, _ => some (if a then .lt else .gt)
  | _, .inf b => some (if b then .gt else .lt)
  | .num n1 m1 e1, .num n2 m2 e2 =>
    let e := min e1 e2
    let a : Int := (m1 * 2 ^ (e1 - e).toNat : Nat)
    let b : Int := (m2 * 2 ^ (e2 - e).toNat : Nat)
    some (compare (if n1 then -a else a) (if n2 then -b else b))

/-- An exact result as binary32, nearest even, without NX (R84). -/
def fp32Of (v : Val) : Nat × Nat :=
  let (b, fl) := roundOnce v .fp32 .nearest false 0
  (b, if bitAt fl 4 then fl - flagNX else fl)

/-- The exact value of binary32 bits. -/
def v32 (x : Nat) : Val := fpVal .fp32 x

/-- MAX and MIN (R84): +0 lies above -0, and a NaN operand gives the canonical NaN. -/
def maxMin (isMax : Bool) (a b : Nat) : Nat × Nat :=
  match cmpVal (v32 a) (v32 b) with
  | none => (nanOf .fp32, flagNANIN)
  | some .eq => (if (v32 a).neg == isMax then b else a, 0)
  | some .lt => (if isMax then b else a, 0)
  | some .gt => (if isMax then a else b, 0)

/-- The condition of CMP (Table 04-10). -/
def cmpHolds (cond a b : Nat) : Bool :=
  match cond, cmpVal (v32 a) (v32 b) with
  | 1, none | 6, none => true
  | _, none => false
  | 0, some o => o == .eq
  | 1, some o => o != .eq
  | 2, some o => o == .lt
  | 3, some o => o != .gt
  | 4, some o => o == .gt
  | 5, some o => o != .lt
  | 6, some _ => false
  | _, some _ => true

/-- SRND (Table 04-10): rounding to the precision of a format on FP32's exponent range. -/
def srnd (a : Nat) (c : Ctrl) (rnd : Nat) : Nat × Nat :=
  match v32 a with
  | .num n m e =>
    if m = 0 then (a, 0)
    else
      let l := (Nat.log2 m : Int) + e
      let lsb := max l (-126) - c.fmt.mant
      let (q, nx) := roundMultiple m e lsb c.mode rnd
      let fl := if nx then flagNX else 0
      if exceedsMax .fp32 q lsb then
        (if c.mode == .zero then maxOf .fp32 n else infOf .fp32 n, fl + flagOF)
      else
        let uf := nx && q < 2 ^ c.fmt.mant
        ((roundOnce (.num n q lsb) .fp32 .nearest false 0).1, fl + if uf then flagUF else 0)
  | v => roundOnce v .fp32 .nearest false 0

/-- A scalar's k for SCALE (Table 04-10): INT32, values beyond ±300 treated as ±300. -/
def scaleExp (s : Nat) : Int := max (-300) (min 300 (toSigned 32 s))

/-- A lane's registers, and its accumulators that are not carried (R68, R83, R88). -/
structure Lane where
  v : List Nat
  p : List Bool
  x : List Accu
  deriving DecidableEq, Repr

/-- A lane at the start of a row: vectors +0, predicates true (R83). -/
def Lane.start : Lane := ⟨List.replicate 16 0, [true, true, true], List.replicate 4 Accu.empty⟩

/-- Counts past 2^32 set SAT in an accumulator (R64, R88). -/
def satByCount (a : Accu) (n : Nat) : Accu := if 2 ^ 32 < n then { a with sat := true } else a

/-- A program run's state: memory, lanes in order, scalars, the carried accumulators of x0 to x3 with their counts, the conversion flags, and
whether a STORE.stream has written (Table 04-12). A carried accumulator is kept once for all lanes: merging is associative and commutative (R65). -/
structure FRun where
  mem : Mem
  lanes : List Lane
  s : List Nat
  x : List Accu
  cnt : List Nat
  flags : Nat
  wrote : Bool
  deriving DecidableEq, Repr

/-- How the streams of a PROGRAM lie in memory: value of an element, and the stores of one instruction of a row. -/
structure FStreams where
  /-- Exact value of element i of stream j. -/
  load : Mem → Nat → Nat → Val
  /-- Format of stream j. -/
  fmt : Nat → Fmt
  /-- Memory and flags after the stores of one STORE.stream: stream, control byte, draws by element, and each element of the
  row with the value stored (none where the predicate is false). -/
  store : Mem → Nat → Ctrl → (Nat → Nat) → List (Nat × Option Val) → Mem × Nat

/-- The predicate of an instruction in a lane (Table 04-9). -/
def predHolds (pred : Nat) (l : Lane) : Bool :=
  match pred with
  | 0 => true
  | 1 | 2 | 3 => l.p.getD (pred - 1) true
  | _ => !l.p.getD (pred - 5) true

/-- An operand: scalar when its SEL bit is set, else a vector register of the lane. -/
def operand (r : FRun) (l : Lane) (sel : Bool) (i : Nat) : Nat := if sel then r.s.getD i 0 else l.v.getD i 0

/-- The result of an arithmetic or conversion opcode on operand bits: bits and flags (R84, Table 04-10). `rnd` is the draw. CMP is arithmetic
here: a NaN operand sets NANIN (log entry 10). -/
def alu (w : FWord) (x : Fmt) (accs : List Accu) (a b c rnd : Nat) : Nat × Nat :=
  let ctrl := (Ctrl.ofByte w.ctrl).getD ⟨.fp32, .nearest, false⟩
  match w.op with
  | 0x04 =>
    let (r, fl) := roundOnce (v32 a) ctrl.fmt ctrl.mode ctrl.ovf rnd
    ((roundOnce (elemVal ctrl.fmt r) .fp32 .nearest false 0).1, fl)
  | 0x05 => srnd a ctrl rnd
  | 0x08 => fp32Of (addVal (v32 a) (v32 b))
  | 0x09 => fp32Of (mulVal (v32 a) (v32 b))
  | 0x0A => fp32Of (addVal (mulVal (v32 a) (v32 b)) (v32 c))
  | 0x0B => maxMin true a b
  | 0x0C => maxMin false a b
  | 0x0D => fp32Of (sqrtVal (v32 a))
  | 0x0E => fp32Of (rsqrtVal (v32 a))
  | 0x0F => if (v32 a).isNan then (nanOf .fp32, flagNANIN) else (a % 2 ^ 31, 0)
  | 0x10 => if (v32 a).isNan then (nanOf .fp32, flagNANIN) else (if a < 2 ^ 31 then a + 2 ^ 31 else a - 2 ^ 31, 0)
  | 0x11 =>
    match v32 a with
    | .num n m e => fp32Of (.num n m (e + scaleExp b))
    | v => fp32Of v
  | 0x14 => (if cmpHolds (w.ctrl % 8) a b then 0xFFFFFFFF else 0, if (v32 a).isNan || (v32 b).isNan then flagNANIN else 0)
  | 0x15 => (if c = 0 then b else a, 0)
  | 0x1E =>
    let acc := accs.getD w.a Accu.empty
    let (r, fl) := acc.out x ctrl rnd
    ((roundOnce (elemVal ctrl.fmt r) .fp32 .nearest false 0).1, fl)
  | _ => (a, 0)

/-- One lane executes an instruction other than a stream access: the run, with the lane's place in it. `rnd` gives the
lane's draws. -/
def laneStep (carry : Nat) (w : FWord) (x : Fmt) (rnd : Nat → Nat) (r : FRun) (i : Nat) : FRun :=
  match r.lanes[i]? with
  | none => r
  | some l =>
    let holds := predHolds w.pred l
    if w.op = 0x1C || w.op = 0x1D then
      let own := !bitAt carry w.dst
      let n := addCount (r.cnt.getD w.dst 0) 1
      let r := if own then r else { r with cnt := r.cnt.set w.dst n, x := r.x.set w.dst (satByCount (r.x.getD w.dst Accu.empty) n) }
      if !holds then r
      else
        let c := (Ctrl.ofByte w.ctrl).getD ⟨.fp32, .nearest, false⟩
        let a := operand r l w.selA w.a
        let (a, fl) := if w.op = 0x1D then fp32Of (mulVal (v32 a) (v32 a)) else (a, 0)
        let old := if own then l.x.getD w.dst Accu.empty else r.x.getD w.dst Accu.empty
        let (acc, fl2) := accAdd x old (v32 a) c (rnd w.draw)
        let r := { r with flags := r.flags ||| fl ||| fl2 }
        if own then { r with lanes := r.lanes.set i { l with x := l.x.set w.dst acc } } else { r with x := r.x.set w.dst acc }
    else if !holds then r
    else
      let a := operand r l w.selA w.a
      if w.op = 0x18 then { r with lanes := r.lanes.set i { l with p := l.p.set (w.dst - 1) (a != 0) } }
      else
        let (v, fl) := alu w x (if bitAt carry w.a then r.x else l.x) a (operand r l w.selB w.b) (operand r l w.selC w.c) (rnd w.draw)
        let r := { r with flags := r.flags ||| fl }
        if w.selD then { r with s := r.s.set w.dst v } else { r with lanes := r.lanes.set i { l with v := l.v.set w.dst v } }

/-- One instruction over every lane of a row whose first element is `first` (R83, R87). `key e d` is the draw of element e. -/
def rowStep (st : FStreams) (carry : Nat) (x : Fmt) (key : Nat → Nat → Nat) (first : Nat) (r : FRun) (word : Nat) : FRun :=
  let w := FWord.of word
  let idx := List.range r.lanes.length
  if w.op = 0 then r
  else if w.op = 0x01 then
    idx.foldl (fun r i =>
      match r.lanes[i]? with
      | none => r
      | some l =>
        if predHolds w.pred l then
          let (v, fl) := roundOnce (st.load r.mem w.stream (first + i)) .fp32 .nearest false 0
          { r with lanes := r.lanes.set i { l with v := l.v.set w.dst v }, flags := r.flags ||| fl }
        else r) r
  else if w.op = 0x02 then
    let c := (Ctrl.ofByte w.ctrl).getD ⟨.fp32, .nearest, false⟩
    let vals := idx.map (fun i =>
      let l := r.lanes.getD i Lane.start
      (first + i, if predHolds w.pred l then some (v32 (operand r l w.selA w.a)) else none))
    let (m, fl) := st.store r.mem w.stream c (fun e => key e w.draw) vals
    { r with mem := m, flags := r.flags ||| fl, wrote := r.wrote || vals.any (·.2.isSome) }
  else idx.foldl (fun r i => laneStep carry w x (key (first + i)) r i) r

/-- One row of n lanes (R83): every lane starts afresh, its accumulators that are not carried included (R88). -/
def runRow (st : FStreams) (h : FHead) (x : Fmt) (key : Nat → Nat → Nat) (body : List Nat) (first n : Nat) (r : FRun) : FRun :=
  body.foldl (rowStep st h.carry x key first) { r with lanes := List.replicate n Lane.start }

/-- The tail (R88): one lane, with the carried accumulators merged; the key's element index is BASE_INDEX, which `key 0`
gives. -/
def runTail (st : FStreams) (h : FHead) (x : Fmt) (key : Nat → Nat → Nat) (tail : List Nat) (r : FRun) : FRun :=
  tail.foldl (rowStep st h.carry x key 0) { r with lanes := [Lane.start] }

end Sys2Proof.Machine
end

