-- ==== Sys2Proof/Machine/FlightImg.lean ====
section
/-! DEFINITION. Flight images: header, tables and step descriptors (Tables 05-1 to 05-5), and the part of R108 that the image alone
decides (R103 to R107). -/

namespace Sys2Proof.Machine

/-- Offset in bytes of element i of an array (R50). -/
def eltOff (f : Fmt) (i : Nat) : Nat :=
  match f with
  | .mxe3m2 | .mxe2m3 => 3 * (i / 4)
  | .mxfp4 => i / 2
  | f => i * (f.bits / 8)

/-- Bytes that i elements take from an array's first byte (R50). -/
def eltEnd (f : Fmt) (i : Nat) : Nat := ceilDiv (i * f.bits) 8

/-- A count of elements that MXFP6 and MXFP4 allow (R50). -/
def Fmt.fits (f : Fmt) (n : Nat) : Bool :=
  match f with
  | .mxe3m2 | .mxe2m3 => n % 4 == 0
  | .mxfp4 => n % 2 == 0
  | _ => true

/-! ### Header (Table 05-1) -/

/-- FLIGHT_ID. -/
def flId (b : List Byte) : Nat := fieldAt b 6 2
/-- DEVICE_INDEX. -/
def flDev (b : List Byte) : Nat := fieldAt b 16 2
/-- DEVICE_COUNT. -/
def flDevs (b : List Byte) : Nat := fieldAt b 18 2
/-- RANK_COUNT. -/
def flRanks (b : List Byte) : Nat := fieldAt b 20 2
/-- BUFFER_COUNT. -/
def flBufs (b : List Byte) : Nat := fieldAt b 22 2
/-- LANDING_COUNT. -/
def flLands (b : List Byte) : Nat := fieldAt b 24 2
/-- STEP_COUNT. -/
def flSteps (b : List Byte) : Nat := fieldAt b 28 4
/-- LATE_LIMIT in ns. -/
def flLateLimit (b : List Byte) : Nat := (if fieldAt b 52 4 = 0 then 50000 else fieldAt b 52 4) * 1000
/-- PEER_TIMEOUT in ns. -/
def flPeerTimeout (b : List Byte) : Nat := (if fieldAt b 56 2 = 0 then 200 else fieldAt b 56 2) * 10 ^ 6
/-- LATE_ABORT in ns. -/
def flLateAbort (b : List Byte) : Nat := (if fieldAt b 58 2 = 0 then 2000 else fieldAt b 58 2) * 10 ^ 6
/-- MAP_CRC. -/
def flMapCrc (b : List Byte) : Nat := fieldAt b 60 4

/-- The tables in use: offset and length (R103). -/
def flTables (b : List Byte) : List (Nat × Nat) :=
  [(fieldAt b 32 4, 32 * flDevs b), (fieldAt b 36 4, 8 * flRanks b), (fieldAt b 40 4, 32 * flBufs b), (fieldAt b 44 4, 512 * flLands b),
    (fieldAt b 48 4, 128 * flSteps b)]

/-- Entry r of the rank map: device, position and profile (Table 05-2). -/
def flRank (b : List Byte) (r : Nat) : Nat × Nat × Nat :=
  let a := fieldAt b 36 4 + 8 * r
  (fieldAt b a 2, fieldAt b (a + 2) 1, fieldAt b (a + 3) 1)

/-- NET_PORT of a device (Table 05-2). -/
def flDevPort (b : List Byte) (d : Nat) : Nat := fieldAt b (fieldAt b 32 4 + 32 * d + 20) 1 % 16

/-- PATHS to a device (Table 05-2). -/
def flDevPaths (b : List Byte) (d : Nat) : Nat := max 1 (fieldAt b (fieldAt b 32 4 + 32 * d + 1) 1)

/-- Frame bytes of a packet to a device, untagged, with n bytes behind its placement header (R206): Ethernet, IP, UDP, BTH, placement header, ICRC and
FCS. -/
def flWire (b : List Byte) (d n : Nat) : Nat :=
  14 + (if fieldAt b (fieldAt b 32 4 + 32 * d) 1 = 6 then 40 else 20) + 8 + 12 + 24 + n + 4 + 4

/-- Payload bytes of a full FLIGHT_WRITE packet. -/
def flightMtu : Nat := if Config.flightMtu % 3 = 0 then 1024 else if Config.flightMtu % 3 = 1 then 2048 else 4096

/-- Ranks that a device carries. -/
def flRanksOf (b : List Byte) (d : Nat) : List Nat := (List.range (flRanks b)).filter fun r => (flRank b r).1 == d

/-- Member ranks of a landing set (R103). -/
def flMembers (b : List Byte) (l : Nat) : List Nat :=
  (List.range (flRanks b)).filter fun r => bitAt (fieldAt b (fieldAt b 44 4 + 512 * l + r / 8) 1) (r % 8)

/-- A buffer table entry (Table 05-3). -/
structure FBuf where
  space : Nat
  kind : Nat
  code : Nat
  pos : Nat
  elements : Nat
  addr : Nat
  slots : Nat
  scaleBuf : Nat
  deriving DecidableEq, Repr

/-- Buffer k. -/
def flBuf (b : List Byte) (k : Nat) : FBuf :=
  let e := cut b (fieldAt b 40 4 + 32 * k) 32
  ⟨fieldAt e 0 1, fieldAt e 1 1 / 16 % 4, fieldAt e 1 1 % 16, fieldAt e 2 1, fieldAt e 4 4, fieldAt e 8 8, fieldAt e 16 2, fieldAt e 18 2⟩

/-- Format of a buffer. -/
def FBuf.fmt (x : FBuf) : Fmt := (Fmt.ofCode x.code).getD .fp32

/-- Bytes of a slot of a KIND 1 buffer (R104). -/
def FBuf.slot (x : FBuf) : Nat := 64 + roundUp (x.elements * recordBytes x.fmt) 64

/-- Bytes of a buffer (R50, R104). -/
def FBuf.bytes (x : FBuf) : Nat :=
  if x.kind = 1 then x.slots * x.slot else eltEnd x.fmt x.elements

/-- First byte of an operand's OFFSET in a buffer: an element, or a slot. -/
def FBuf.offset (x : FBuf) (n : Nat) : Nat := if x.kind = 1 then n * x.slot else eltOff x.fmt n

/-- An operand (Table 05-5). -/
structure FOpd where
  dir : Nat
  buf : Nat
  rep : Nat
  off : Nat
  deriving DecidableEq, Repr

/-- A step descriptor (Table 05-4) with the operands in use. -/
structure FStep where
  kind : Nat
  step : Nat
  count : Nat
  start : Nat
  depLo : Nat
  depHi : Nat
  depA : Nat
  depB : Nat
  wait : Nat
  signal : Nat
  inCtrl : Nat
  outCtrl : Nat
  base : Nat
  progId : Nat
  progVer : Nat
  scalarBuf : Nat
  scalarCount : Nat
  ops : Nat
  peer : Nat
  opds : List FOpd
  deriving DecidableEq, Repr

/-- The 128 bytes of step j. -/
def flStepBytes (b : List Byte) (j : Nat) : List Byte := cut b (fieldAt b 48 4 + 128 * j) 128

/-- An operand of 64 bits. -/
def FOpd.of (x : Nat) : FOpd := ⟨bits x 63 62, bits x 59 48, bits x 47 40, bits x 39 0⟩

/-- A step of its 128 bytes. -/
def FStep.of (e : List Byte) : FStep :=
  { kind := fieldAt e 0 1 % 16, step := fieldAt e 2 2, count := fieldAt e 4 4, start := fieldAt e 8 8, depLo := fieldAt e 16 2,
    depHi := fieldAt e 18 2, depA := fieldAt e 20 2, depB := fieldAt e 22 2, wait := fieldAt e 24 1, signal := fieldAt e 25 1,
    inCtrl := fieldAt e 26 1, outCtrl := fieldAt e 27 1, base := fieldAt e 28 4, progId := fieldAt e 32 2, progVer := fieldAt e 34 2,
    scalarBuf := fieldAt e 36 2, scalarCount := fieldAt e 38 1, ops := fieldAt e 39 1, peer := fieldAt e 40 2,
    opds := (List.range (min 10 (fieldAt e 39 1))).map fun k => FOpd.of (fieldAt e (48 + 8 * k) 8) }

/-- Step j of an image. -/
def flStep (b : List Byte) (j : Nat) : FStep := FStep.of (flStepBytes b j)

/-- The operand is read. -/
def FOpd.reads (o : FOpd) : Bool := o.dir != 1

/-- The operand is written. -/
def FOpd.writes (o : FOpd) : Bool := o.dir != 0

/-- Steps that a step names as dependencies (R105, R111). -/
def FStep.deps (x : FStep) : List Nat :=
  (if x.depLo = 0xFFFF then [] else List.range' x.depLo (x.depHi + 1 - x.depLo)) ++ ([x.depA, x.depB].filter (· != 0xFFFF))

/-! ### The header and the tables (R108) -/

/-- Ranges that do not overlap pairwise; an empty one overlaps nothing. -/
def disjoint : List (Nat × Nat) → Bool
  | [] => true
  | x :: xs => xs.all (fun y => x.2 == 0 || y.2 == 0 || x.1 + x.2 ≤ y.1 || y.1 + y.2 ≤ x.1) && disjoint xs

/-- The header, apart from what the tables hold (Table 05-1, R103). -/
def flHeaderOk (b : List Byte) (len : Nat) : Bool :=
  256 ≤ len && len ≤ 2 ^ 24 && fieldAt b 64 4 == len && cut b 0 4 == [0x46#8, 0x4C#8, 0x54#8, 0x49#8] && fieldAt b 4 1 == 1 &&
    fieldAt b 5 1 == 0 && flId b != 0xFFFF && (1 ≤ flDevs b && flDevs b ≤ 512) && (1 ≤ flRanks b && flRanks b ≤ 4096) &&
    (1 ≤ flBufs b && flBufs b ≤ 4096) && flLands b ≤ 256 && (1 ≤ flSteps b && flSteps b ≤ 65536) && allZero (cut b 26 2) &&
    allZero (cut b 68 184) && (fieldAt b 56 2 == 0 || (10 ≤ fieldAt b 56 2 && fieldAt b 56 2 ≤ 10000)) &&
    flLateLimit b ≤ flLateAbort b && (flTables b).all (fun t => t.1 % 64 == 0 && t.1 + t.2 ≤ len) && disjoint ((0, 256) :: flTables b)

/-- The two checks of R108 over bytes. -/
def flCrcOk (b : List Byte) : Bool :=
  fieldAt b 252 4 == crc32c (cut b 0 252 ++ b.drop 256) &&
    flMapCrc b == crc32c (cut b (fieldAt b 32 4) (32 * flDevs b) ++ cut b (fieldAt b 36 4) (8 * flRanks b))

/-- A device table entry (Table 05-2). -/
def flDeviceOk (b : List Byte) (d : Nat) : Bool :=
  let e := cut b (fieldAt b 32 4 + 32 * d) 32
  (fieldAt e 0 1 == 4 || fieldAt e 0 1 == 6) && (1 ≤ fieldAt e 1 1 && fieldAt e 1 1 ≤ 16) && allZero (cut e 2 2) && allZero (cut e 21 11) &&
    fieldAt e 20 1 < 16 && (fieldAt e 0 1 == 6 || allZero (cut e 8 12))

/-- The rank map (Table 05-2, R108), apart from the environment. -/
def flRanksOk (b : List Byte) : Bool :=
  let rs := List.range (flRanks b)
  rs.all (fun r => let x := flRank b r
    x.1 < flDevs b && x.2.1 < 8 && x.2.2 < 4 && fieldAt b (fieldAt b 36 4 + 8 * r + 4) 4 == 0) &&
    rs.all (fun r => rs.all fun q => r == q || (flRank b r).1 != (flRank b q).1 || (flRank b r).2.1 != (flRank b q).2.1) &&
    !(flRanksOf b (flDev b)).isEmpty

/-- A buffer table entry (Table 05-3, R50, R104), apart from the environment. -/
def flBufOk (b : List Byte) (k : Nat) : Bool :=
  let e := cut b (fieldAt b 40 4 + 32 * k) 32
  let x := flBuf b k
  let mx := (Fmt.ofCode x.code).any Fmt.isMx
  let y := flBuf b x.scaleBuf
  x.space ≤ 4 && fieldAt e 1 1 / 64 == 0 && x.kind < 2 && (Fmt.ofCode x.code).isSome && fieldAt e 3 1 == 0 && allZero (cut e 20 12) &&
    (if x.space = 3 then x.pos < 8 else x.pos == 0 && x.addr == 0) &&
    (if x.kind = 1 then !mx && (1 ≤ x.slots && x.slots ≤ 4096) else x.slots == 0) &&
    (if mx then
      x.scaleBuf < flBufs b && y.kind == 0 && (Fmt.ofCode y.code).isSome && !y.fmt.isMx && y.space == x.space && y.pos == x.pos &&
        ceilDiv x.elements 32 ≤ y.elements * (y.fmt.bits / 8)
    else x.scaleBuf == 0xFFFF)

/-- No landing set names a rank at or above RANK_COUNT. -/
def flLandOk (b : List Byte) (l : Nat) : Bool :=
  let a := fieldAt b 44 4 + 512 * l
  (List.range 4096).all fun r => r < flRanks b || !bitAt (fieldAt b (a + r / 8) 1) (r % 8)

/-- The header and the tables obey R103, R104 and R108, apart from the environment. -/
def flTablesOk (b : List Byte) (len : Nat) : Bool :=
  flHeaderOk b len && flCrcOk b && (List.range (flDevs b)).all (flDeviceOk b) && flRanksOk b && (List.range (flBufs b)).all (flBufOk b) &&
    (List.range (flLands b)).all (flLandOk b)

/-! ### Steps (R105 to R108) -/

/-- Reserved bits of a step and of its operands are zero, and operands not in use too (R105, Tables 05-4 and 05-5). -/
def stepReservedOk (e : List Byte) : Bool :=
  fieldAt e 0 1 / 16 == 0 && fieldAt e 1 1 == 0 && allZero (cut e 42 6) && fieldAt e 39 1 ≤ 10 &&
    (List.range 10).all fun k => let w := fieldAt e (48 + 8 * k) 8
      if k < fieldAt e 39 1 then bits w 61 60 == 0 && bits w 63 62 != 3 && bits w 47 40 != 0 else w == 0

/-- Dependencies name lower steps (R105). -/
def stepDepsOk (x : FStep) (j : Nat) : Bool :=
  x.step == j && (if x.depLo = 0xFFFF then x.depHi == 0xFFFF else x.depLo ≤ x.depHi) && x.deps.all (· < j)

/-- Fields that a KIND does not use hold their value for none (R105). -/
def stepFieldsOk (x : FStep) : Bool :=
  let gal := 3 ≤ x.kind && x.kind ≤ 5
  1 ≤ x.kind && x.kind ≤ 8 && (gal || (x.inCtrl == 0 && x.outCtrl == 0 && x.base == 0)) && (x.kind != 4 || x.inCtrl == 0) &&
    (x.kind == 8 || x.signal == 0) && (x.kind ≤ 2 || x.kind == 7 || x.peer == 0) &&
    (x.kind == 5 || (x.progId == 0 && x.progVer == 0 && x.scalarCount == 0 && x.scalarBuf == 0xFFFF)) &&
    (x.kind != 5 || (x.progId != 0 && x.progId != 0xFFFF && x.progVer != 0 && x.scalarCount ≤ 32))

/-- The scalar table of a PROGRAM (R105). -/
def stepScalarOk (b : List Byte) (x : FStep) : Bool :=
  if x.scalarCount = 0 then x.scalarBuf == 0xFFFF
  else
    let y := flBuf b x.scalarBuf
    x.scalarBuf < flBufs b && y.kind == 0 && !y.fmt.isMx && 128 ≤ y.bytes

/-- Inputs that a REDUCE operand stands for (R106). -/
def FOpd.inputs (o : FOpd) (b : List Byte) : Nat := if (flBuf b o.buf).kind = 1 then o.rep else 1

/-- Operand shapes of each KIND (Table 05-6, R106). -/
def stepShapeOk (b : List Byte) (x : FStep) : Bool :=
  let ins := x.opds.filter FOpd.reads
  let outs := x.opds.filter FOpd.writes
  let plain := x.opds.all fun o => o.dir < 2
  match x.kind with
  | 1 => x.ops == 2 && plain && ins.length == 1 && outs.length == 1 && x.peer < flDevs b
  | 2 => x.ops == 1 && plain && outs.length == 1 && x.peer < flDevs b
  | 3 => plain && outs.length == 1 && (1 ≤ ins.length && ins.length ≤ 9) && ins.foldl (fun n o => n + o.inputs b) 0 ≤ 512
  | 4 => x.ops == 2 && plain && ins.length == 1 && outs.length == 1
  | 5 => 1 ≤ x.ops
  | 6 => x.ops == 2 && plain && ins.length == 1 && outs.length == 1
  | 7 => x.ops == 0 && x.peer < flLands b
  | _ => x.ops == 0

/-- Records of one slot that an operand takes: COUNT, or COUNT / REPEAT for the groups of a REDUCE's OUT operand; a PROGRAM's export is
checked against its version (R88, R106; `State.exportOver`). -/
def FOpd.records (o : FOpd) (x : FStep) : Nat :=
  if x.kind = 5 then 1 else if x.kind = 3 ∧ o.dir = 1 ∧ 1 < o.rep then x.count / o.rep else x.count

/-- An operand names a local buffer whose range holds it (R75, R105, R106, R108). A SEND's OUT operand names a buffer of another device. -/
def stepOpdOk (b : List Byte) (x : FStep) (o : FOpd) : Bool :=
  let y := flBuf b o.buf
  (o.rep == 1 || x.kind == 3) &&
    ((x.kind == 1 && o.dir == 1) ||
      (o.buf < flBufs b && (o.rep == 1 || y.kind == 1) &&
        (if y.kind = 1 then
          o.off + o.rep ≤ y.slots && o.records x ≤ y.elements && (x.kind != 3 || o.dir != 1 || x.count % o.rep == 0)
        else o.off + x.count ≤ y.elements && (!y.fmt.isMx || o.off % 32 == 0))))

/-- The operands of a COPY have one FORMAT and KIND (Table 05-6); what R77, R78 and R90 ask of a Gallery step is checked as it starts. -/
def stepFormatsOk (b : List Byte) (x : FStep) : Bool :=
  match x.kind, x.opds with
  | 6, [p, q] => (flBuf b p.buf).code == (flBuf b q.buf).code && (flBuf b p.buf).kind == (flBuf b q.buf).kind
  | _, _ => true

/-- Bytes of a buffer that an operand touches: elements and scale bytes, or whole slots (R107). -/
def FOpd.ranges (o : FOpd) (b : List Byte) (x : FStep) : List (Nat × Nat × Nat) :=
  let y := flBuf b o.buf
  if y.kind = 1 then [(o.buf, y.offset o.off, o.rep * y.slot)]
  else
    (o.buf, eltOff y.fmt o.off, eltEnd y.fmt (o.off + x.count) - eltOff y.fmt o.off) ::
      (if y.fmt.isMx && x.kind != 1 && x.kind != 2 then [(y.scaleBuf, o.off / 32, ceilDiv x.count 32)] else [])

/-- What a step reads (R107). -/
def flReads (b : List Byte) (j : Nat) : List (Nat × Nat × Nat) :=
  let x := flStep b j
  ((x.opds.filter FOpd.reads).flatMap fun o => o.ranges b x) ++ (if x.kind = 5 ∧ x.scalarCount ≠ 0 then [(x.scalarBuf, 0, 4 * x.scalarCount)] else [])

/-- What a RECV writes (R107). -/
def flRecv (b : List Byte) (j : Nat) : List (Nat × Nat × Nat) :=
  let x := flStep b j
  if x.kind = 2 then x.opds.flatMap fun o => o.ranges b x else []

/-- Two ranges of buffers overlap; an empty one overlaps nothing. -/
def rangesMeet (p q : Nat × Nat × Nat) : Bool := p.1 == q.1 && p.2.2 != 0 && q.2.2 != 0 && p.2.1 < q.2.1 + q.2.2 && q.2.1 < p.2.1 + p.2.2

/-- Steps on which step j depends, directly or through a chain. -/
def flChain (b : List Byte) : Nat → List Nat → List Nat → List Nat
  | 0, _, seen => seen
  | _, [], seen => seen
  | n + 1, j :: js, seen => if seen.contains j then flChain b n js seen else flChain b n ((flStep b j).deps ++ js) (j :: seen)

/-- R107: a step reads what a RECV writes only behind it. -/
def stepReadsOk (b : List Byte) (j : Nat) : Bool :=
  let met := (List.range (flSteps b)).filter fun r => (flRecv b r).any fun w => (flReads b j).any (rangesMeet w)
  met.isEmpty ||
    (let n := ((List.range (j + 1)).foldl (fun n k => n + (flStep b k).deps.length + 1) 0)
     let up := flChain b n (flStep b j).deps []
     met.all up.contains)

/-- A step obeys R105 to R108, apart from the environment. -/
def flStepOk (b : List Byte) (j : Nat) : Bool :=
  let e := flStepBytes b j
  let x := flStep b j
  stepReservedOk e && stepDepsOk x j && stepFieldsOk x && stepScalarOk b x && stepShapeOk b x && x.opds.all (stepOpdOk b x) &&
    stepFormatsOk b x && stepReadsOk b j

/-! ### What a loaded flight takes -/

/-- Pages of T0 or T1 that a loaded flight's buffers take (R104; log entry 28 on the rounding). -/
def Flight.tierPages (f : Flight) (t : Nat) : Nat :=
  if 2 ≤ t then 0
  else ceilDiv ((List.range (flBufs f.image)).foldl (fun n k => n + if (flBuf f.image k).space = t then (flBuf f.image k).bytes else 0) 0) (2 ^ 21)

/-- The flight is in a run. -/
def Flight.active (f : Flight) : Bool := f.st == .armed || f.st == .running || f.st == .stalled

/-- The flight's run binds a buffer to the tier object with an index (R109). -/
def Flight.bindsObj (f : Flight) (k : Nat) : Bool :=
  (f.active || f.ending.isSome) && f.binds.any fun x => match x.2.1 with | some h => h / 256 == k | none => false

/-- A step of the flight names a program and version (R91). -/
def Flight.namesProg (f : Flight) (id ver : Nat) : Bool :=
  (List.range (flSteps f.image)).any fun j => let x := flStep f.image j; x.kind == 5 && x.progId == id && x.progVer == ver

end Sys2Proof.Machine
end

