-- ==== Sys2Proof/Machine/PlcOps.lean ====
section
/-! DEFINITION. Tier objects: reservations and frames (R162 to R164), access by every path (R163, R166, R172, R173, R175, R178, R180),
moves (R167 to R170), retirement and evacuation (R179 to R181), and what resets and faults do to them (Tables 13-5, 18-2). -/

namespace Sys2Proof.Machine

/-- Bytes of a page (R161). -/
def pageLen : Nat := 2 ^ 21

/-- Frames of the HBM: 512 GB (R161; log entry 25 on the unit). -/
def hbmFrames : Nat := 2 ^ 18

/-- Pseudo-channel of an HBM frame, 32·stack + channel: consecutive frames lie on consecutive channels (R161, R181; log entry 25). -/
def pcOf (f : Nat) : Nat := f % 128

/-- HBM stack of a frame. -/
def stackOf (f : Nat) : Nat := pcOf f / 32

/-- Placement status codes (Table 07-9). -/
def stPlcInvalid : Nat := 0x70
def stNoSpace : Nat := 0x71
def stTierQuota : Nat := 0x72
def stHintConflict : Nat := 0x73
def stObjectBusy : Nat := 0x74
def stPoolFault : Nat := 0x75
def stPageLost : Nat := 0x76
def stSettleTimeout : Nat := 0x77

/-- Block index of PLC (Table 11-1). -/
def blkPlc : Nat := 11

/-! ### Objects and pages -/

/-- A page that nothing has touched. -/
def TPage.fresh : TPage := ⟨none, none, 0, none, false, 0, 0, .intact, .intact⟩

/-- A page of an object. -/
def TObj.at (o : TObj) (p : Nat) : TPage := lookD o.page p TPage.fresh

/-- An object, by its index. -/
def State.obj (s : State) (k : Nat) : Option TObj := look s.plc.objs k

/-- An object set. -/
def State.setObj (s : State) (k : Nat) (o : TObj) : State := { s with plc := { s.plc with objs := put s.plc.objs k o } }

/-- A page of an object changed. -/
def State.updPage (s : State) (k p : Nat) (f : TPage → TPage) : State :=
  match s.obj k with
  | none => s
  | some o => s.setObj k { o with page := put o.page p (f (o.at p)) }

/-- Handle of an object (R162). -/
def TObj.handle (o : TObj) (k : Nat) : Nat := k * 256 + o.tag

/-- The object that a slice names by a handle (R162). -/
def State.tierObj (s : State) (i handle : Nat) : Option (Nat × TObj) :=
  match s.obj (handle / 256) with
  | some o => if o.tag = handle % 256 ∧ o.slice = i then some (handle / 256, o) else none
  | none => none

/-- A page of the object is mapped into an aperture (R174). -/
def State.mapped (s : State) (k : Nat) : Bool := s.plc.maps.any (·.obj == k)

/-- The floor in force: T3 or higher while a page is mapped (R174). -/
def State.floorOf (s : State) (k : Nat) (o : TObj) : Nat := if s.mapped k then min o.floor 3 else o.floor

/-- Pages that an object takes of a tier: reservations in the floors of its copies, and frames elsewhere (R164). -/
def State.objUse (s : State) (k : Nat) (o : TObj) (t : Nat) : Nat :=
  let f := s.floorOf k o
  (if f = t then o.pages else 0) + (if o.copies = 2 ∧ o.repTier = t then o.pages else 0) +
    (if f = t then 0 else
      (o.page.filter (fun e => (e.2.loc.map (·.1)) == some t)).length +
        (s.plc.moves.filter (fun m => m.obj == k && m.copy == 0 && !m.draining && m.dst.1 == t)).length)

/-- T1 pages reserved for the cache of a slice's storage controller, while its EN is set (R216). -/
def State.cachePages (s : State) (i : Nat) : Nat :=
  let w := s.reg (bankKey R.NVS_C_CFG i)
  if bitAt w 31 then ceilDiv (w % 65536) 2 else 0

/-- Tn_USED of a slice: frames held and reservations, QP backing store, flight buffers and the storage cache included (R104, R164, R216,
R301). -/
def State.tierUsed (s : State) (i t : Nat) : Nat :=
  (s.plc.objs.filter (fun e => e.2.slice == i)).foldl (fun n e => n + s.objUse e.1 e.2 t) 0 +
    (if t = 1 then lookD s.plc.stores i 0 + s.cachePages i else 0) +
    (s.flights.filter (fun e => e.2.slice == i)).foldl (fun n e => n + e.2.tierPages t) 0

/-- A pseudo-channel takes frames: it is in service (R181). -/
def State.pcServes (s : State) (c : Nat) : Bool := s.getF (F.HBM_PC_STATE c) == 0

/-- Frames of a tier for a slice: the T0 and T1 pools, or the slice's own pools (Table 07-1). -/
def State.tierTotal (s : State) (i t : Nat) : Nat :=
  if t = 0 then s.reg R.PLC_POOL_T0_TOTAL
  else if t = 1 then
    let out := (List.range 128).filter (fun c => !s.pcServes c)
    hbmFrames - out.length * (hbmFrames / 128) - (s.plc.retired.filter (fun f => s.pcServes (pcOf f))).length
  else (s.plc.pools.filter (fun e => e.1 / 16 == i && e.2.tier == t)).foldl (fun n e => n + e.2.pages) 0

/-- Frames of a tier held or reserved, of T0 and T1 by every slice. -/
def State.tierTaken (s : State) (i t : Nat) : Nat := if t ≤ 1 then (List.range 256).foldl (fun n j => n + s.tierUsed j t) 0 else s.tierUsed i t

/-- Frames of a tier neither held nor reserved. -/
def State.tierFree (s : State) (i t : Nat) : Nat := s.tierTotal i t - s.tierTaken i t

/-- The status of a reservation of n pages of a tier (R164). -/
def State.reserveStatus (s : State) (i t n : Nat) : Nat :=
  if (s.slice i).tierQuota t < s.tierUsed i t + n then stTierQuota else if s.tierFree i t < n then stNoSpace else stOk

/-- The status of a change that leaves a tier used as it is in this state: frames that the object holds there already count once (R164). -/
def State.fitStatus (s : State) (i t : Nat) : Nat :=
  if (s.slice i).tierQuota t < s.tierUsed i t then stTierQuota else if s.tierTotal i t < s.tierTaken i t then stNoSpace else stOk

/-- T1 pages reserved for a slice's QP backing store, with the status (R301). -/
def State.reserveT1 (s : State) (i n : Nat) : Nat × State :=
  let st := s.reserveStatus i 1 n
  (st, if st = stOk then { s with plc := { s.plc with stores := put s.plc.stores i n } } else s)

/-- That reservation released. -/
def State.releaseT1 (s : State) (i : Nat) : State := { s with plc := { s.plc with stores := drop s.plc.stores i } }

/-! ### Frames -/

/-- Frames in use, tier first: of pages, of moves, and of flight buffers in T1. -/
def State.heldFrames (s : State) : List (Nat × Nat) :=
  s.plc.objs.flatMap (fun e => e.2.page.flatMap fun g => g.2.loc.toList ++ g.2.rep.toList) ++
    s.plc.moves.flatMap (fun m => if m.draining then m.src.toList else [m.dst]) ++
    s.flights.flatMap fun e => e.2.frames.map fun f => (1, f)

/-- A frame may be allocated: unused, not retired or retiring, and on a channel in service other than the stack to avoid. -/
def State.frameOk (s : State) (t : Nat) (avoid : Option Nat) (f : Nat) : Bool :=
  !s.heldFrames.contains (t, f) &&
    (t != 1 || (!s.plc.retired.contains f && !s.plc.retiring.contains f && s.pcServes (pcOf f) && avoid != some (stackOf f)))

/-- Frames of a tier for a slice; those of a pool stand at its key times 2^48. -/
def State.framesOf (s : State) (i t : Nat) : List Nat :=
  if t = 0 then List.range (s.reg R.PLC_POOL_T0_TOTAL)
  else if t = 1 then List.range hbmFrames
  else (s.plc.pools.filter (fun e => e.1 / 16 == i && e.2.tier == t)).flatMap fun e => (List.range e.2.pages).map (fun j => e.1 * 2 ^ 48 + j)

/-- Of free HBM frames, those on a stack that none of some others uses, else those on such a channel, else all: consecutive pages spread across
pseudo-channels and stacks (R161). -/
def spread (t : Nat) (near l : List Nat) : List Nat :=
  if t ≠ 1 ∨ near.isEmpty then l
  else
    match l.filter fun f => !near.any fun g => stackOf g == stackOf f with
    | [] => (match l.filter fun f => !near.any fun g => pcOf g == pcOf f with
      | [] => l
      | m => m)
    | m => m

/-- The frame that the engine allocates: any free one of the tier, on another stack than frames that lie near it in its object where one is free
(R161); which one, the spec leaves to the engine (log entry 26). -/
def State.findFrame (s : State) (i t : Nat) (avoid : Option Nat) (near : List Nat := []) : Option Nat × State :=
  let l := spread t near ((s.framesOf i t).filter (s.frameOk t avoid))
  let (w, s) := s.drawWord
  (l[w % l.length]?, s)

/-- Frame of a copy of a page in the HBM. -/
def TPage.hbm (g : TPage) (copy : Nat) : Option Nat :=
  match if copy = 0 then g.loc else g.rep with
  | some (1, f) => some f
  | _ => none

/-- A frame of a tier for a copy of a page: in the HBM never on the stack of the other copy (R175), and away from the pages beside it (R161). -/
def State.frameFor (s : State) (k p copy t : Nat) : Option Nat × State :=
  match s.obj k with
  | none => (none, s)
  | some o => s.findFrame o.slice t (((o.at p).hbm (1 - copy)).map stackOf) (((o.at (p + 1)).hbm copy).toList ++
      (if p = 0 then [] else ((o.at (p - 1)).hbm copy).toList))

/-- The slice of an object may take one more page of a tier above its floor (R164). -/
def State.inQuota (s : State) (o : TObj) (t : Nat) : Bool := s.tierUsed o.slice t < (s.slice o.slice).tierQuota t

/-- The tier has a frame for one more page of an object above its floor; the floor always has (R164). -/
def State.hasRoom (s : State) (k : Nat) (o : TObj) (t : Nat) : Bool :=
  t == s.floorOf k o || (s.inQuota o t && 0 < s.tierFree o.slice t)

/-- The first tier from a to the floor that has room (R163). -/
def State.tierFrom (s : State) (k : Nat) (o : TObj) (a : Nat) : Option Nat :=
  ((List.range 5).filter (fun t => a ≤ t && t ≤ s.floorOf k o)).find? (s.hasRoom k o)

/-- Where copy c of a page stands: in T2 in the host memory of its pool, as the slice's PASID reaches it (R160, R161, Table 07-7), in any other tier
under its object's handle (log entry 137), where a copy that waits for its repair stands too. -/
def State.home (s : State) (o : TObj) (k p c : Nat) (g : TPage) : Nat :=
  let here := (if c = 0 then Space.tier (o.handle k) else Space.tierCopy (o.handle k)).at (p * pageLen)
  match if c = 0 then g.loc else g.rep, if c = 0 then g.c0 else g.c1 with
  | some (2, u), .intact =>
    (match look s.plc.pools (u / 2 ^ 48) with
     | some q => (s.slice (u / 2 ^ 48 / 16)).space.at (q.base + u % 2 ^ 48 * pageLen)
     | none => here)
  | _, _ => here

/-- A page of the object has a copy in T2, in host memory. -/
def TObj.inHost (o : TObj) : Bool := o.page.any fun g => g.2.loc.any (·.1 == 2) || g.2.rep.any (·.1 == 2)

/-- The host memory of a page's copy in T2 is blank at the first write (R163). -/
def State.blankHome (s : State) (k p c : Nat) : State :=
  match s.obj k with
  | some o => { s with mem := s.mem.clear (s.home o k p c (o.at p)) pageLen }
  | none => s

/-- The bytes of a page's copy in T2 taken in beside its host memory, where the engine works on them or moves them. -/
def State.takeIn (s : State) (k p c : Nat) : State :=
  match s.obj k with
  | some o =>
    { s with mem := s.mem.carry (s.home o k p c (o.at p)) ((if c = 0 then Space.tier (o.handle k) else Space.tierCopy (o.handle k)).at (p * pageLen)) pageLen }
  | none => s

/-- The first write to a page gives it its frames (R163, R175). -/
def State.firstWrite (s : State) (k p : Nat) : State :=
  match s.obj k with
  | none => s
  | some o =>
    if (o.at p).loc.isSome then s
    else
      match s.tierFrom k o (max o.ceil (min (s.floorOf k o) o.start)) with
      | none => s
      | some t =>
        let (f, s) := s.frameFor k p 0 t
        let s := s.updPage k p fun g => { g with loc := f.map ((t, ·)) }
        let s := if t = 2 then s.blankHome k p 0 else s
        if o.copies = 2 then
          let (f1, s) := s.frameFor k p 1 o.repTier
          let s := s.updPage k p fun g => { g with rep := f1.map ((o.repTier, ·)) }
          if o.repTier = 2 then s.blankHome k p 1 else s
        else s

/-- Pages that an object may still place above T4 at first writes, where its floor is T4 (R160, R163). -/
def State.roomAbove (s : State) (k : Nat) (o : TObj) : Nat :=
  ((List.range 4).filter fun t => max o.ceil (min (s.floorOf k o) o.start) ≤ t).foldl (fun n t =>
    n + min ((s.slice o.slice).tierQuota t - s.tierUsed o.slice t) (s.tierFree o.slice t)) 0

/-! ### Access -/

/-- Pages that a range of bytes touches. -/
def pagesIn (off len : Nat) : List Nat := if len = 0 then [] else List.range' (off / pageLen) ((off + len - 1) / pageLen + 1 - off / pageLen)

/-- Status of an access by handle, apart from where its pages lie (R162, R178). -/
def State.tierCheck (s : State) (i handle off len : Nat) : Nat :=
  match s.tierObj i handle with
  | none => stKeyInvalid
  | some (_, o) => if o.pages * pageLen < off + len then stBounds else if o.discord then stDiscord else stOk

/-- What an access to a page meets: it goes on, ends with a status, or waits (R172, R173, R180). -/
inductive TierRes | ok | fail (st : Nat) | wait
  deriving DecidableEq, Repr

/-- The pool of a frame of T2 to T4 can be reached (R172). -/
def State.poolUp (s : State) (u : Nat) : Bool :=
  match look s.plc.pools (u / 2 ^ 48) with
  | none => false
  | some p =>
    if p.tier = 2 then s.canDma (s.slice (u / 2 ^ 48 / 16)).fn
    else if p.tier = 3 then
      (match look s.rte.qps p.id with
       | some q => q.slice == u / 2 ^ 48 / 16 && q.st == 3
       | none => false)
    else s.getF (F.NVS_BE_STATE p.backend) == 2

/-- An access to one page. -/
def State.pageReach (s : State) (o : TObj) (write : Bool) (p : Nat) : TierRes :=
  let g := o.at p
  if g.lost ∧ !write then .fail stPageLost
  else match g.loc with
    | none => .ok
    | some (t, u) =>
      if t < 2 then .ok
      else if !s.poolUp u then .fail stPoolFault
      else if t = 4 ∨ t = 3 ∧ s.shedAt 4 then .wait
      else .ok

/-- An access to several pages: the first that does not go on decides. -/
def State.pagesReach (s : State) (o : TObj) (write : Bool) : List Nat → TierRes
  | [] => .ok
  | p :: ps =>
    match s.pageReach o write p with
    | .ok => s.pagesReach o write ps
    | r => r

/-- A first write that would place some of its pages in T4 waits as well: they are fetched from there before they are written (R160, R163). -/
def State.rangeReach (s : State) (k : Nat) (o : TObj) (write : Bool) (ps : List Nat) : TierRes :=
  match s.pagesReach o write ps with
  | .ok => if write ∧ s.floorOf k o = 4 ∧ s.roomAbove k o < (ps.filter fun p => (o.at p).loc.isNone).length then .wait else .ok
  | r => r

/-- COST_UJ of a move, in µJ (Table 07-2). -/
def State.moveCost (s : State) (i j : Nat) : Nat := fieldAt (lookD s.str.tabs 4 []) (256 + 4 * (5 * i + j)) 4

/-- A page moves now. -/
def State.moving (s : State) (k p : Nat) : Bool := s.plc.moves.any fun m => m.obj == k && m.page == p && !m.draining

/-- A move begins. -/
def State.addMove (s : State) (m : Move) : State := { s with plc := { s.plc with moves := s.plc.moves ++ [m] } }

/-- The waiting commands that name some objects have had a move deferred by the Coffer (R183). -/
def State.markDeferred (s : State) (ks : List Nat) : State :=
  { s with ops := s.ops.map fun (o : Op) =>
      if o.src == 0x08 && s.plc.waits.any (fun w => w.1 == o.id) && ks.contains (Desc.field o.desc 12 4 / 256) then { o with deferred := true } else o }

/-- A demand fetch waits: for the next epoch where the Coffer refuses it, else for a stage, a pause or a frame to end or come free. -/
def State.fetchLater (s : State) (k p : Nat) (refused : Bool) : State :=
  { s with plc := { s.plc with fetches := s.plc.fetches.filter (fun e => e.1 != k || e.2.1 != p) ++ [(k, p, refused)] } }

/-- A demand fetch of a page of T4 begins (R173): to the highest tier that has room; charged to its slice alone (R168). The 46 V stage and a pause
of H8 hold it, and a ledger that has no room defers it. -/
def State.startFetch (s : State) (k p : Nat) : State :=
  match s.obj k with
  | none => s
  | some o =>
    match (o.at p).loc with
    | some (4, u) =>
      if s.moving k p || s.plc.fetches.contains (k, p, true) then s
      else if s.shedAt 4 || s.hallPaused 8 then s.fetchLater k p false
      else
        match ((List.range 4).filter (fun t => o.ceil ≤ t && t ≤ s.floorOf k o)).find? (s.hasRoom k o) with
        | none => s.fetchLater k p false
        | some t =>
          let c := s.moveCost 4 t * 10 ^ 6
          if s.sliceRoom o.slice c && s.pwr.devCharge + c ≤ s.pwr.allowance then
            let (f, s) := s.frameFor k p 0 t
            match f with
            | some f =>
              let s := (s.charge (some o.slice) c).addMove ⟨k, p, 0, 5, some (4, u), (t, f), false⟩
              { s with plc := { s.plc with fetches := s.plc.fetches.filter fun e => e.1 != k || e.2.1 != p } }
            | none => s.fetchLater k p false
          else ((((s.bump F.PLC_CNT_DEFER_COUNT).deferUnit (some o.slice)).markDeferred [k]).fetchLater k p true)
    | _ => { s with plc := { s.plc with fetches := s.plc.fetches.filter fun e => e.1 != k || e.2.1 != p } }

/-- R173's limit in ns (Table 07-11). -/
def State.fetchWaitNs (s : State) : Nat := 10 ^ 6 * s.getF F.PLC_FETCH_WAIT_MS

/-- Fetches of the pages of a range that lie in T4; pages that a write would place there get their frames first (R160, R163). -/
def State.fetchPages (s : State) (k : Nat) (write : Bool) (ps : List Nat) : State :=
  let s := if write then ps.foldl (fun s p => s.firstWrite k p) s else s
  ps.foldl (fun s p => s.startFetch k p) s

/-- Demand fetches that wait are tried again; those that the Coffer refused wait for the next epoch. -/
def State.refetch (s : State) : State := s.plc.fetches.foldl (fun s e => if e.2.2 then s else s.startFetch e.1 e.2.1) s

/-- A new epoch tries every demand fetch again (R168). -/
def State.fetchEpoch (s : State) : State :=
  { s with plc := { s.plc with fetches := s.plc.fetches.map fun (e : Nat × Nat × Bool) => (e.1, e.2.1, false) } }.refetch

/-- 4 KiB blocks of a page that a range of bytes touches. -/
def blocksIn (off len p : Nat) : Nat :=
  let a := max off (p * pageLen)
  let b := min (off + len) ((p + 1) * pageLen)
  if b ≤ a then 0 else (b - 1) / 4096 + 1 - a / 4096

/-- Heat of an access (R166). -/
def State.heat (s : State) (k off len : Nat) : State :=
  (pagesIn off len).foldl (fun s p => s.updPage k p fun g => { g with heat := min 65535 (g.heat + blocksIn off len p) }) s

/-- A write reaches copy 1 of a page: it has a frame that has not failed, in a pool that can be reached (R175). -/
def State.copyTakes (s : State) (g : TPage) : Bool :=
  match g.rep with
  | some (t, u) => g.c1 != .failed && (t < 2 || s.poolUp u)
  | none => false

/-- A write to a page that is not LOST begins: frames for a first write, and the generations of the copies that it reaches; one that its pool keeps
out of reach keeps its generation (R163, R175). -/
def State.tierTouch (s : State) (k p : Nat) : State :=
  let s := s.firstWrite k p
  match s.obj k with
  | none => s
  | some o =>
    let g := o.at p
    let takes := s.copyTakes g
    let s := s.updPage k p fun g => { g with
      gen0 := if g.c0 = .failed then g.gen0 else g.gen0 + 1, gen1 := if takes then g.gen1 + 1 else g.gen1 }
    if o.copies = 2 ∧ g.rep.isSome ∧ g.c1 ≠ .failed ∧ !takes then s.event F.PLC_STATUS_POOL_FAULT else s

/-- Bytes written into one page of an object: both copies take them; a partial write to a LOST page is discarded and a whole one ends LOST
(R163, R175, R180). -/
def State.writePage (s : State) (k p off : Nat) (bs : List Byte) : State :=
  match s.obj k with
  | none => s
  | some o =>
    if (o.at p).lost ∧ bs.length < pageLen then s
    else
      let s := (s.updPage k p fun g => { g with lost := false }).tierTouch k p
      match s.obj k with
      | none => s
      | some o =>
        let g := o.at p
        let m := s.mem.write (s.home o k p 0 g + off % pageLen) bs
        { s with mem := if o.copies = 2 ∧ s.copyTakes g then m.write (s.home o k p 1 g + off % pageLen) bs else m }

/-- Bytes written into an object, page by page. -/
def State.tierWrite (s : State) (k off : Nat) (bs : List Byte) : State :=
  (pagesIn off bs.length).foldl (fun s p =>
    let a := max off (p * pageLen)
    let b := min (off + bs.length) ((p + 1) * pageLen)
    s.writePage k p a (cut bs (a - off) (b - a))) s

/-- The bytes of an object, as copy c holds them, page by page. -/
def State.objBytes (s : State) (o : TObj) (k c off n : Nat) : List Byte :=
  (pagesIn off n).flatMap fun p =>
    let a := max off (p * pageLen)
    let b := min (off + n) ((p + 1) * pageLen)
    s.mem.read (s.home o k p c (o.at p) + a % pageLen) (b - a)

/-- The bytes of an object, copy 0. -/
def State.tierRead (s : State) (k off n : Nat) : List Byte :=
  match s.obj k with
  | none => List.replicate n Mem.blank
  | some o => s.objBytes o k 0 off n

/-! ### Retirement and lost pages -/

/-- A frame of the HBM enters the retired-frame list; a full list leaves it in service, which is reported once for each such frame (R179). -/
def State.retire' (s : State) (f i : Nat) : State :=
  let s := { s with plc := { s.plc with retiring := s.plc.retiring.filter (· != f) } }
  if s.plc.retired.contains f then s
  else if 4096 ≤ s.plc.retired.length then
    if s.plc.kept.contains f then s else { s with plc := { s.plc with kept := s.plc.kept ++ [f] } }.report 0x206 blkPlc i 0 f
  else
    let s := { s with plc := { s.plc with retired := s.plc.retired ++ [f] } }
    if s.plc.retired.length = 3687 then s.event F.PLC_STATUS_RETIRE_WARN else s

/-- Frames that come free: those that were retiring are retired (R179). -/
def State.freed (s : State) (i : Nat) (l : List (Nat × Nat)) : State :=
  l.foldl (fun s u => if u.1 == 1 && s.plc.retiring.contains u.2 then s.retire' u.2 i else s) s

/-- A location whose frame is retired, if it is one of the HBM. -/
def State.retireLoc (s : State) (l : Option (Nat × Nat)) (i : Nat) : State :=
  match l with
  | some (1, f) => s.retire' f i
  | _ => s

/-- A page becomes LOST, and its frames are retired (R180). -/
def State.losePage (s : State) (k p : Nat) : State :=
  match s.obj k with
  | none => s
  | some o =>
    let g := o.at p
    let s := s.updPage k p fun g => { g with loc := none, rep := none, lost := true, c0 := .intact, c1 := .intact }
    let s := { s with plc := { s.plc with moves := s.plc.moves.filter fun m => m.obj != k || m.page != p } }
    let s := (s.retireLoc g.loc o.slice).retireLoc g.rep o.slice
    let s := { s with mem := (s.mem.clear ((Space.tier (o.handle k)).at (p * pageLen)) pageLen).clear
                               ((Space.tierCopy (o.handle k)).at (p * pageLen)) pageLen }
    (s.event F.PLC_STATUS_PAGE_LOST).report 0x103 blkPlc o.slice stPageLost (o.handle k * 2 ^ 32 + p)

/-- A frame with its page: object and page. -/
def State.frameOwner (s : State) (t f : Nat) : Option (Nat × Nat) :=
  (s.plc.objs.flatMap fun e => (e.2.page.filter fun g => g.2.loc == some (t, f) || g.2.rep == some (t, f)).map fun g => (e.1, g.1)).head?

/-- Correctable errors of a frame over the last six intervals of 10 minutes (R179). -/
def State.ceCount (s : State) (f : Nat) : Nat :=
  let now := s.up / (600 * 10 ^ 9)
  ((lookD s.plc.ce f []).filter fun e => now < e.1 + 6).foldl (fun n e => n + e.2) 0

/-- Correctable words of a channel over the last 60 minutes (R187). -/
def State.pcHour (s : State) (c : Nat) : Nat := (s.plc.ce.filter fun e => pcOf e.1 == c).foldl (fun n e => n + s.ceCount e.1) 0

/-- A correctable error of a frame (R179, R382): past THRESHOLD it becomes retiring, or is retired at once while it is free. -/
def State.frameCe (s : State) (f : Nat) : State :=
  let now := s.up / (600 * 10 ^ 9)
  let l : List (Nat × Nat) := (lookD s.plc.ce f []).filter fun e => now < e.1 + 6
  let s : State := { s with plc := { s.plc with ce := put s.plc.ce f (put l now (lookD l now 0 + 1)) } }
  let s : State := s.bump64 R.HBM_CNT_CE_LO R.HBM_CNT_CE_HI 1
  if s.ceCount f ≤ s.getF F.PLC_RETIRE_THRESHOLD then s
  else if s.plc.retired.contains f || s.plc.retiring.contains f then s
  else if s.plc.retired.length < 4096 ∧ s.heldFrames.contains (1, f) then { s with plc := { s.plc with retiring := s.plc.retiring ++ [f] } }
  else s.retire' f 0xFFFF

/-! ### Replicas -/

/-- A copy of a page written from the other (R178): `c` is the copy written. -/
def State.copyPage (s : State) (o : TObj) (k p c : Nat) : State :=
  { s with mem := s.mem.carry (s.home o k p (1 - c) (o.at p)) (s.home o k p c (o.at p)) pageLen }

/-- No two blocks of 4 KiB of the copies of a page differ in their CRC-32C values (R176); blocks of the same bytes do not. -/
def State.copiesEqual (s : State) (o : TObj) (k p : Nat) : Bool :=
  let a (j : Nat) : Nat := s.home o k p 0 (o.at p) + 4096 * j
  let b (j : Nat) : Nat := s.home o k p 1 (o.at p) + 4096 * j
  s.mem.cells (a 0) pageLen == s.mem.cells (b 0) pageLen ||
    (List.range 512).all fun j => s.mem.cells (a j) 4096 == s.mem.cells (b j) 4096 || crc32c (s.mem.read (a j) 4096) == crc32c (s.mem.read (b j) 4096)

/-- A rewritten copy is counted and reported (R177, Table 18-4). -/
def State.repaired (s : State) (o : TObj) (k p : Nat) : State :=
  (s.bump F.PLC_CNT_REPAIR_COUNT).report 0x004 blkPlc o.slice 0 (o.handle k * 2 ^ 32 + p)

/-- A copy of a page is known to need its repair, a move of kind 3 (R168, R177): until then reads see the other copy. -/
def State.markCopy (s : State) (o : TObj) (k p c : Nat) (st : CopySt) : State :=
  if c = 0 then
    { s with mem := s.mem.carry (s.home o k p 1 (o.at p)) ((Space.tier (o.handle k)).at (p * pageLen)) pageLen }.updPage k p fun g => { g with c0 := st }
  else s.updPage k p fun g => { g with c1 := st }

/-- One copy failed: the other is used, and the failing frame is retired (R177). -/
def State.copyFailed (s : State) (k p c : Nat) : State :=
  match s.obj k with
  | none => s
  | some o => (s.markCopy o k p c .failed).retireLoc (if c = 0 then (o.at p).loc else (o.at p).rep) o.slice

/-- Copies of a page that can still be read. -/
def TPage.readable (g : TPage) (c : Nat) : Bool := if c = 0 then g.loc.isSome && g.c0 != .failed else g.rep.isSome && g.c1 != .failed

/-- An uncorrectable error in a copy of a page (R177, R180, Table 18-2). -/
def State.pageUe (s : State) (k p c : Nat) : State :=
  match s.obj k with
  | none => s
  | some o =>
    let s := s.bump F.HBM_CNT_UE |>.event F.HBM_STATUS_UE
    if !(o.at p).readable c then s else if o.copies = 2 ∧ (o.at p).readable (1 - c) then s.copyFailed k p c else s.losePage k p

/-- R177 on a page with two copies: which of them were read without an uncorrectable error. Copies that wait for a repair are not compared. -/
def State.compareCopies (s : State) (k p : Nat) (ok0 ok1 : Bool) : State :=
  match s.obj k with
  | none => s
  | some o =>
    let g := o.at p
    let ok0 := ok0 && g.readable 0
    let ok1 := ok1 && g.readable 1
    if !ok0 && !ok1 then s.losePage k p
    else if !ok0 then (if g.readable 0 then s.copyFailed k p 0 else s)
    else if !ok1 then (if g.readable 1 then s.copyFailed k p 1 else s)
    else if g.c0 ≠ .intact ∨ g.c1 ≠ .intact then s
    else if s.copiesEqual o k p then s.updPage k p fun g => { g with gen0 := max g.gen0 g.gen1, gen1 := max g.gen0 g.gen1 }
    else if g.gen0 = g.gen1 then
      let s := ((s.setObj k { o with discord := true }).event F.PLC_STATUS_DISCORD).bump F.PLC_CNT_DISCORD_COUNT
      s.report 0x104 blkPlc o.slice stDiscord (o.handle k)
    else s.markCopy o k p (if g.gen1 < g.gen0 then 1 else 0) .stale

/-! ### Moves -/

/-- Bucket of a heat (R166). -/
def bucketOf (h : Nat) : Nat := if h = 0 then 0 else min 15 (Nat.log2 h + 1)

/-- The curve's preferred tier (Table 07-2). -/
def State.curve (s : State) (cls bucket : Nat) : Nat := fieldAt (lookD s.str.tabs 4 []) (16 * cls + bucket) 1 % 8

/-- Decay shift as it applies (Table 07-12). -/
def State.decayShift (s : State) : Nat :=
  let v := s.getF F.PLC_DECAY_SHIFT
  if 1 ≤ v ∧ v ≤ 8 then v else 8

/-- A decayed heat (R166). -/
def decayed (sh h : Nat) : Nat := h - (h + 2 ^ sh - 1) / 2 ^ sh

/-- The curve's candidates after a decay, promotions hottest first and then demotions coldest first (R167, R168). -/
def State.candidates (s : State) : List (Nat × Nat × Nat) :=
  let all := s.plc.objs.flatMap fun e =>
    if e.2.pin then [] else
      e.2.page.filterMap fun g =>
        match g.2.loc with
        | none => none
        | some (t, _) =>
          let target := max e.2.ceil (min (s.floorOf e.1 e.2) (s.curve e.2.cls (bucketOf g.2.heat)))
          let young : Bool := match g.2.moved with
            | some w => decide (s.up < w + s.getF F.PLC_DECAY_MIN_RES_MS * 10 ^ 6)
            | none => false
          if target == t || young then none else some (decide (target < t), g.2.heat, e.1, g.1, target)
  let up := sortBy (fun (a b : Bool × Nat × Nat × Nat × Nat) => decide (b.2.1 < a.2.1)) (all.filter (·.1))
  let down := sortBy (fun (a b : Bool × Nat × Nat × Nat × Nat) => decide (a.2.1 < b.2.1)) (all.filter (fun e => !e.1))
  (up ++ down).map fun e => e.2.2

/-- A heat decay boundary (R166, R167, R186): the waiting curve and the buffered writes apply, heat decays, candidates are computed. -/
def State.decayBoundary (s : State) : State :=
  let s := (s.ripe .decay (16 * 10 ^ 6)).begin .decay
  let s := [F.PLC_APPLY_STATUS_DECAY, F.PLC_APPLY_STATUS_RETIRE, F.PLC_APPLY_STATUS_SCRUB, F.PLC_APPLY_STATUS_FETCH_WAIT].foldl State.applyGroup s
  let s := match look s.str.tabs (4 + 256) with
    | some b => { s with str := { s.str with tabs := drop (put s.str.tabs 4 b) (4 + 256) } }
    | none => s
  let sh := s.decayShift
  let s := { s with plc := { s.plc with objs := s.plc.objs.map fun (e : Nat × TObj) =>
    (e.1, { e.2 with page := e.2.page.map fun (g : Nat × TPage) => (g.1, { g.2 with heat := decayed sh g.2.heat }) }) } }
  { s with plc := { s.plc with cands := s.candidates } }

/-- A move that could start: kind, object, page, copy and the tiers to try, highest preference first. -/
structure Cand where
  kind : Nat
  obj : Nat
  page : Nat
  copy : Nat
  tiers : List Nat
  deriving DecidableEq, Repr

/-- A frame must be emptied: retiring, or on the channel under evacuation (R179, R181). -/
def State.mustLeave (s : State) (l : Option (Nat × Nat)) : Bool :=
  match l with
  | some (1, f) => s.plc.retiring.contains f || (match s.plc.evac with | some (c, _) => pcOf f == c | none => false)
  | _ => false

/-- Tiers from a to b, both included. -/
def tiersFrom (a b : Nat) : List Nat := (List.range 5).filter fun t => a ≤ t && t ≤ b

/-- Moves of the first three kinds that a page asks for (R168). -/
def State.pageMoves (s : State) (k : Nat) (o : TObj) (p : Nat) (g : TPage) : List Cand :=
  let f := s.floorOf k o
  (if s.mustLeave g.loc ∧ g.c0 ≠ .failed then [⟨1, k, p, 0, if o.pin then [1] else 1 :: tiersFrom 2 f⟩] else []) ++
    (if s.mustLeave g.rep ∧ g.c1 ≠ .failed then [⟨1, k, p, 1, [1]⟩] else []) ++
    (match g.loc with
     | some (t, _) => if t < o.ceil ∨ f < t then [⟨2, k, p, 0, if t < o.ceil then tiersFrom o.ceil f else [f]⟩] else []
     | none => []) ++
    (match g.loc with
     | some (t, _) => if o.copies = 2 ∧ g.c0 ≠ .intact then [⟨3, k, p, 0, [t]⟩] else []
     | none => []) ++
    (if o.copies = 2 ∧ g.loc.isSome ∧ (g.rep.isNone ∨ g.c1 ≠ .intact) then [⟨3, k, p, 1, [o.repTier]⟩] else [])

/-- Moves of a slice's pages pause while it freezes or is FROZEN (R185). -/
def State.movesPause (s : State) (i : Nat) : Bool := (s.slice i).state == .frozen || (s.slice i).freezing

/-- Moves that could start, in the order of R168; the pages of a slice that freezes or is FROZEN wait (R185). -/
def State.moveQueue (s : State) : List Cand :=
  let live := s.plc.objs.filter fun e => !e.2.discord && !s.movesPause e.2.slice
  let first := live.flatMap fun e => e.2.page.flatMap fun g => if s.moving e.1 g.1 then [] else s.pageMoves e.1 e.2 g.1 g.2
  let fourth := s.plc.cands.filterMap fun c =>
    if live.any (fun e => e.1 == c.1) && !s.moving c.1 c.2.1 then some ⟨4, c.1, c.2.1, 0, [c.2.2]⟩ else none
  [1, 2, 3].flatMap (fun n => first.filter (·.kind == n)) ++ fourth

/-- The coldest page of a tier that may go lower and is colder than a bucket (R168): object, page and tier below. -/
def State.coldest (s : State) (t bucket : Nat) : Option (Nat × Nat × Nat) :=
  let l := s.plc.objs.flatMap fun e =>
    if e.2.pin ∨ e.2.discord ∨ s.movesPause e.2.slice then [] else
      e.2.page.filterMap fun g =>
        match g.2.loc, (tiersFrom (t + 1) (s.floorOf e.1 e.2)).find? (s.hasRoom e.1 e.2) with
        | some (u, _), some d => if u = t ∧ bucketOf g.2.heat < bucket ∧ !s.moving e.1 g.1 then some (g.2.heat, e.1, g.1, d) else none
        | _, _ => none
  ((sortBy (fun (a b : Nat × Nat × Nat × Nat) => decide (a.1 < b.1)) l).head?).map (·.2)

/-- A move starts when the Coffer admits it; `payer` is the slice that it is charged to, `a` the tier that it reads. The Coffer's refusal is counted, and
marks the commands that wait for the objects of the move and of those behind it (R168, R183). -/
def State.beginMove (s : State) (payer a : Nat) (behind : List Nat) (m : Move) : State :=
  let (ok, s') := s.offer 4 (some payer) (s.moveCost a m.dst.1 * 10 ^ 6)
  if ok then s'.addMove m else (s'.bump F.PLC_CNT_DEFER_COUNT).markDeferred behind

/-- A promotion that its own quota allows demotes the coldest page of its tier first (R168). -/
def State.demote (s : State) (payer t bucket : Nat) (behind : List Nat) : Option State :=
  match s.coldest t bucket with
  | none => none
  | some (k, p, d) =>
    match s.obj k with
    | none => none
    | some o =>
      let (f, s) := s.frameFor k p 0 d
      f.map fun f => s.beginMove payer t behind ⟨k, p, 0, 4, (o.at p).loc, (d, f), false⟩

/-- A tier takes a page that moves: the tier that it leaves needs a frame and no quota, one that the floor reserves is there, and copy 1 has its own
reservation (R164, R179). -/
def State.takesMove (s : State) (c : Cand) (o : TObj) (src : Option (Nat × Nat)) (t : Nat) : Bool :=
  c.copy == 1 || s.hasRoom c.obj o t || (src.map (·.1) == some t && 0 < s.tierFree o.slice t)

/-- The first move of a list that has a destination starts; a promotion without a free frame first demotes a colder page, or is dropped, as is one
that its slice's quota keeps out (R168; log entry 137). The rewriting of a copy that can still be read keeps its frame (R177). -/
def State.startFrom : List Cand → State → State
  | [], s => s
  | c :: cs, s =>
    match s.obj c.obj with
    | none => State.startFrom cs s
    | some o =>
      let g := o.at c.page
      let src := if c.copy = 0 then g.loc else g.rep
      let behind := c.obj :: cs.map (·.obj)
      let a := (((if c.kind = 3 then (if c.copy = 0 then g.rep else g.loc) else src).map (·.1)).getD (c.tiers.headD 0))
      if c.kind = 3 ∧ (if c.copy = 0 then g.c0 else g.c1) = .stale ∧ src.isSome then
        s.beginMove o.slice a behind ⟨c.obj, c.page, c.copy, 3, none, src.getD (0, 0), false⟩
      else
        match c.tiers.find? (fun t => (c.kind == 1 || c.kind == 3 || some t != src.map (·.1)) && s.takesMove c o src t) with
        | none =>
          if c.kind = 4 ∧ c.tiers.any (fun t => src.any fun u => t < u.1) then
            let t := c.tiers.headD 0
            match (if s.inQuota o t then s.demote o.slice t (bucketOf g.heat) behind else none) with
            | some s => s
            | none => State.startFrom cs { s with plc := { s.plc with cands := s.plc.cands.filter (· != (c.obj, c.page, t)) } }
          else State.startFrom cs s
        | some t =>
          let (f, s) := s.frameFor c.obj c.page c.copy t
          match f with
          | some f => s.beginMove o.slice a behind ⟨c.obj, c.page, c.copy, c.kind, src, (t, f), false⟩
          | none => State.startFrom cs s

/-- The first frame of a flight's buffers that must be emptied, with its flight's slot and slice. -/
def State.bufferLeaving (s : State) : Option (Nat × Nat × Nat) :=
  (s.flights.flatMap fun e => if s.movesPause e.2.slice then [] else (e.2.frames.filter fun f => s.mustLeave (some (1, f))).map fun f => (e.1, e.2.slice, f)).head?

/-- A page of a flight's buffers moves to another frame of T1 (R171, R181), in one step, as no command names its copy (log entry 137); `none` where no
frame is free. -/
def State.bufferMove (s : State) (k i f : Nat) : Option State :=
  let (g, s) := s.findFrame i 1 none
  g.map fun g =>
    let (ok, s') := s.offer 4 (some i) (s.moveCost 1 1 * 10 ^ 6)
    if !ok then s'.bump F.PLC_CNT_DEFER_COUNT
    else
      let s := { s' with flights := s'.flights.map fun (e : Nat × Flight) =>
        if e.1 = k then (e.1, { e.2 with frames := e.2.frames.map fun x => if x = f then g else x }) else e }
      (s.bump64 R.PLC_CNT_MOVE_LO R.PLC_CNT_MOVE_HI 1).freed i [(1, f)]

/-- The next move of R168 starts, flight buffers first. The 50 V stage and PLC_ENERGY 0 hold every one of them, and so does a refusal until the epoch
ends (R168, R185, Table 07-12). -/
def State.moveStart (s : State) : State :=
  if s.shedAt 2 ∨ s.reg R.PLC_ENERGY = 0 ∨ s.hallPaused 8 ∨ s.pwr.refused.any (·.1 == 4) then s
  else
    match s.bufferLeaving with
    | some (k, i, f) => (s.bufferMove k i f).getD (State.startFrom s.moveQueue s)
    | none => State.startFrom s.moveQueue s

/-- A page whose move has ended at a time: its copy has its new place, a curve move is dated, and a repaired copy is as new as the other (R167, R169,
R177). -/
def TPage.movedTo (g : TPage) (m : Move) (up : Nat) : TPage :=
  if m.copy = 0 then
    { g with loc := some m.dst, moved := if m.kind = 4 then some up else g.moved
             c0 := if m.kind = 3 then .intact else g.c0, gen0 := if m.kind = 3 then g.gen1 else g.gen0 }
  else { g with rep := some m.dst, c1 := if m.kind = 3 then .intact else g.c1, gen1 := if m.kind = 3 then g.gen0 else g.gen1 }

/-- The last block is copied: the page map names the destination (R169), and a repair has ended (R177). -/
def State.copyDone (s : State) (k p : Nat) : State :=
  match s.plc.moves.find? (fun m => m.obj == k && m.page == p && !m.draining), s.obj k with
  | some m, some o =>
    let g := o.at p
    let moves := s.plc.moves.filterMap fun x => if x = m then (if m.src.isSome then some { m with draining := true } else none) else some x
    let s := { s with plc := { s.plc with moves := moves, cands := s.plc.cands.filter fun c => c.1 != k || c.2.1 != p } }
    let s := s.bump64 R.PLC_CNT_MOVE_LO R.PLC_CNT_MOVE_HI 1
    let s := if m.kind = 3 ∧ (if m.copy = 0 then g.c0 else g.c1) ≠ .intact then s.repaired o k p else s
    let g' := g.movedTo m s.up
    let src := if m.copy ≠ 0 ∧ m.kind = 3 then s.home o k p 0 g else s.home o k p m.copy g
    { s with mem := s.mem.carry src (s.home o k p m.copy g') pageLen }.updPage k p fun _ => g'
  | _, _ => s

/-- The accesses translated before the switch have finished: the source frame is free, and a retiring one is retired (R169, R179). -/
def State.drainDone (s : State) (k p : Nat) : State :=
  match s.plc.moves.find? (fun m => m.obj == k && m.page == p && m.draining) with
  | none => s
  | some m =>
    let s : State := { s with plc := { s.plc with moves := s.plc.moves.filter (· != m) } }
    s.freed ((s.obj k).elim 0xFFFF TObj.slice) m.src.toList

/-- An access of the destination fails: the move is abandoned (R170), and a pool of T2 to T4 that it names has failed an access (Table 07-12). -/
def State.moveFail (s : State) (k p : Nat) : State :=
  match s.plc.moves.find? fun m => m.obj == k && m.page == p && !m.draining with
  | none => s
  | some m =>
    let s := { s with plc := { s.plc with moves := s.plc.moves.filter (· != m) } }.bump F.PLC_CNT_MOVE_FAIL_COUNT
    if 2 ≤ m.dst.1 ∨ m.src.any fun u => 2 ≤ u.1 then s.event F.PLC_STATUS_POOL_FAULT else s

/-! ### Objects freed, slices reset -/

/-- An object freed: its mappings, moves, pages and bytes go (Table 07-6), and frames of it that were retiring are retired (R179). -/
def State.freeObj (s : State) (k : Nat) : State :=
  match s.obj k with
  | none => s
  | some o =>
    let a := (Space.tier (o.handle k)).at 0
    let b := (Space.tierCopy (o.handle k)).at 0
    let held := o.page.flatMap (fun g => g.2.loc.toList ++ g.2.rep.toList) ++ (s.plc.moves.filter (·.obj == k)).flatMap fun m => m.src.toList
    { s with plc := { s.plc with objs := drop s.plc.objs k, moves := s.plc.moves.filter (·.obj != k), maps := s.plc.maps.filter (·.obj != k),
                                 cands := s.plc.cands.filter (·.1 != k), fetches := s.plc.fetches.filter (·.1 != k) },
             mem := (s.mem.clear a (2 ^ 64)).clear b (2 ^ 64) }.freed o.slice held

/-- Commands that wait whose operation has ended are forgotten. -/
def State.plcSweep (s : State) : State :=
  { s with plc := { s.plc with waits := s.plc.waits.filter fun w => (s.op w.1).isSome } }

/-- A failed access of a pool shows (Table 07-12). -/
def State.poolFault (s : State) (st : Nat) : State := if st = stPoolFault then s.event F.PLC_STATUS_POOL_FAULT else s

/-- A FAULTED slice: its commands and the moves of its pages stop (R305). -/
def State.plcEndSlice (s : State) (i : Nat) : State :=
  let s := s.plcSweep
  { s with plc := { s.plc with moves := s.plc.moves.filter fun m => m.draining || ((s.obj m.obj).map (·.slice)) != some i } }

/-- A slice reset: commands stop, mappings go, and without KEEP_TIER every object and pool (Table 13-5). -/
def State.plcResetSlice (s : State) (i : Nat) (keep : Bool) : State :=
  let s := s.plcEndSlice i
  let ks := (s.plc.objs.filter (fun e => e.2.slice == i)).map (·.1)
  let s := { s with plc := { s.plc with maps := s.plc.maps.filter fun m => !ks.contains m.obj } }
  if keep then s
  else
    let s := ks.foldl State.freeObj s
    { s with plc := { s.plc with pools := s.plc.pools.filter (·.1 / 16 != i) } }

end Sys2Proof.Machine
end

