-- ==== Sys2Proof/Machine/TxOps.lean ====
section
/-! DEFINITION. Token buckets (R199, R205), buffered writes of a block (R266), and the egress queues up to the choice of the next frame
(R203 to R206). -/

namespace Sys2Proof.Machine

/-! ### Token buckets -/

/-- Units of a bucket's tokens in n bytes. -/
def tokenUnits (n : Nat) : Nat := 125 * 1024 * n

/-- A bucket refilled up to BURST at RATE / 8,000 bytes per ns (R199); one that is not listed is full. -/
def Bucket.refill (b : Option Bucket) (rate burst now : Nat) : Bucket :=
  match b with
  | none => ⟨tokenUnits burst, now⟩
  | some b => ⟨min (tokenUnits burst) (b.tokens + (16 * rate * (now - b.at') : Nat)), now⟩

/-- L bytes taken from a bucket. -/
def Bucket.spend (b : Bucket) (L : Nat) : Bucket := { b with tokens := b.tokens - tokenUnits L }

/-- Meter i now. -/
def State.meter (s : State) (i : Nat) : Bucket :=
  Bucket.refill (look s.pp.meters i) (s.reg (bankKey R.PKT_METER_RATE i)) (s.reg (bankKey R.PKT_METER_BURST i)) s.up

/-- Shaper of queue k = 16·port + queue now. -/
def State.queueBucket (s : State) (k : Nat) : Bucket :=
  Bucket.refill (look s.pp.queueB k) (s.reg (bankKey R.TXS_Q_RATE k)) (s.reg (bankKey R.TXS_Q_BURST k)) s.up

/-- Shaper of a slice now. -/
def State.sliceBucket (s : State) (i : Nat) : Bucket :=
  Bucket.refill (look s.pp.sliceB i) (s.reg (bankKey R.TXS_S_RATE i)) (s.reg (bankKey R.TXS_S_BURST i)) s.up

/-- The buckets whose RATE or BURST a group of pending writes changes stand at what they hold now (R199). -/
def State.bucketHold (s : State) (f : Fld) : State :=
  (s.pend.filter fun e => applyOf e.1 == some f).foldl (fun (s : State) e =>
    let a := e.1 % 2 ^ 26
    let i := e.1 / 2 ^ 26 - 1
    if a = R.PKT_METER_RATE ∨ a = R.PKT_METER_BURST then { s with pp := { s.pp with meters := put s.pp.meters i (s.meter i) } }
    else if a = R.TXS_Q_RATE ∨ a = R.TXS_Q_BURST then { s with pp := { s.pp with queueB := put s.pp.queueB i (s.queueBucket i) } }
    else if a = R.TXS_S_RATE ∨ a = R.TXS_S_BURST then { s with pp := { s.pp with sliceB := put s.pp.sliceB i (s.sliceBucket i) } }
    else s) s

/-! ### Buffered writes -/

/-- APPLY_STATUS of a block: at +0x00C in GAL, and at +0x004 elsewhere. -/
def applyAddr (b : Nat) : Nat := blockBase b + if b = 8 then 0xC else 4

/-- The trees switch to the writes that stood at their commit; one made since then stays pending for the next (R207). -/
def State.treeSwitch (s : State) (f : Fld) : State :=
  let late := s.pend.filter fun e => applyOf e.1 == some f && !s.pp.trees.contains e
  let now := s.pp.trees.filter fun e => s.pend.any (·.1 == e.1)
  let t : State := { s with pend := s.pend.filter (fun e => applyOf e.1 != some f) ++ now, pp := { s.pp with commit := false, trees := [] } }
  late.foldl (fun (s : State) e => s.pendWrite e.1 e.2.1 e.2.2) (t.applyGroup f)

/-- A group of pending writes reaches its boundary (R266). The lane groups' writes wait for their retrain (R387), and tree writes for their
commit (R207). The Gallery's apply while no command under way has been run by a cluster, or as a cluster takes a new command (R98; log entry 127). -/
def State.bufferedApply (s : State) (b bit : Nat) : State :=
  let f : Fld := ⟨applyAddr b, bit, bit⟩
  let trees := f == F.PKT_APPLY_STATUS_TREES
  if b = 18 ∨ (hallsOf b).any s.hallPaused ∨ !s.answers b ∨ (trees ∧ !s.pp.commit) ∨ (b = 8 ∧ s.gal.cmds.any fun c => c.clusters != 0) then s
  else if !(s.pend.any fun e => applyOf e.1 == some f) then (if trees then { s with pp := { s.pp with commit := false, trees := [] } } else s)
  else
    let touched := s.pend.any (fun e => applyOf e.1 == some f && sealed e.1)
    let s := if trees then s.treeSwitch f else (s.bucketHold f).applyGroup f
    if touched then s.sealTouch b else s

/-! ### Egress queues -/

/-- Frames of a queue. -/
def State.txQueue (s : State) (k : Nat) : List TxFrame := lookD s.pp.queues k []

/-- A queue set; an empty one has deficit 0 (R204). -/
def State.setTxQueue (s : State) (k : Nat) (l : List TxFrame) : State :=
  { s with pp := { s.pp with queues := if l.isEmpty then drop s.pp.queues k else put s.pp.queues k l,
                             deficit := if l.isEmpty then drop s.pp.deficit k else s.pp.deficit } }

/-- Bytes queued in an egress queue. -/
def State.backlog (s : State) (k : Nat) : Nat := (s.txQueue k).foldl (fun n f => n + (if f.out.isSome then f.len else f.data.length + 4)) 0

/-- The memory of an egress queue takes a frame of n bytes; an empty queue takes any (R203). -/
def State.txFits (s : State) (k n : Nat) : Bool := (s.txQueue k).isEmpty || s.backlog k + n ≤ Config.txRoom k

/-- A message of the device joins a queue of a port (R203). A SACK, NAK, CNP, response or control message that finds the queue's memory full stands
here at the queue's end while it waits (log entry 41). -/
def State.txNet (s : State) (port queue owner len : Nat) (o : Out) : State :=
  let k := 16 * port + queue
  s.setTxQueue k (s.txQueue k ++ [⟨0, owner, len, [], none, some o⟩])

/-- Queue of a DSCP: TXS_DSCP_MAP, where 0 is treated as 4 (R203). -/
def State.dscpQueue (s : State) (dscp : Nat) : Nat :=
  let q := s.reg (R.TXS_DSCP_MAP (dscp / 8)) / 16 ^ (dscp % 8) % 16
  if q = 0 then 4 else q

/-- SecTAG and ICV that MACsec adds on a port, where it protects what leaves it (R245). -/
def State.macsecExtra (s : State) (port : Nat) : Nat :=
  if s.getF (F.CIP_MACSEC_TX_EN port) = 0 then 0
  else match look s.cip.sas (s.getF (F.CIP_MACSEC_TX_SA port)) with
    | some a => 16 + (if bitAt (fieldAt a.entry 1 1) 3 then 16 else 8)
    | none => 0

/-- Bits [7:4] of byte 19 of the placement header (Table 06-2). -/
def hdrFlags (fence last first solicited : Bool) : Nat := 8 * b2n fence + 4 * b2n last + 2 * b2n first + b2n solicited

/-- The placement header (Table 06-2), big-endian: VADDR, KEY, MSG_OFFSET, MSG_SEQ, the flags of byte 19 and MSG_LEN (R129). -/
def placeHdr (vaddr key off seq flags len : Nat) : List Byte :=
  beBytes 8 vaddr ++ beBytes 4 key ++ beBytes 4 off ++ beBytes 3 seq ++ [BitVec.ofNat 8 (16 * flags)] ++ beBytes 4 len

/-- EtherType of a frame. -/
def etherType (bs : List Byte) (off : Nat) : Nat := beNat (cut bs off 2)

/-- The frame is EAPOL, which MACsec leaves alone (R245). -/
def isEapol (bs : List Byte) : Bool := etherType bs 12 == 0x888E

end Sys2Proof.Machine
end

