-- ==== Sys2Proof/Machine/NvsOps.lean ====
section
/-! DEFINITION. The storage service's parts: queues and completions (R211, R212), host transfers, the capacity pool (R214), backend commands
(R215, R220), the HBM cache and destage (R216 to R218), power states (R227, R228) and the persistent record (R230, R231). What the NVMe base
specification alone lays out follows log entry 49. -/

namespace Sys2Proof.Machine

/-! ### Statuses: Status Code Type · 256 + Status Code -/

def nvOk : Nat := 0
def nvOpcode : Nat := 0x001
def nvField : Nat := 0x002
def nvTransfer : Nat := 0x004
def nvInternal : Nat := 0x006
def nvSqDeleted : Nat := 0x008
def nvNamespace : Nat := 0x00B
def nvPrpOffset : Nat := 0x013
def nvSanFailed : Nat := 0x01C
def nvSanitizing : Nat := 0x01D
def nvLbaRange : Nat := 0x080
def nvFormatting : Nat := 0x084
def nvCqInvalid : Nat := 0x100
def nvQueueId : Nat := 0x101
def nvQueueSize : Nat := 0x102
def nvAerLimit : Nat := 0x105
def nvVector : Nat := 0x108
def nvLogInvalid : Nat := 0x109
def nvFormatInvalid : Nat := 0x10A
def nvQueueDelete : Nat := 0x10C
def nvNotSaveable : Nat := 0x10D
def nvCapacity : Nat := 0x115
def nvNoNsid : Nat := 0x116
def nvAttached : Nat := 0x118
def nvNotAttached : Nat := 0x11A
def nvCtrlList : Nat := 0x11C
def nvUnrecovered : Nat := 0x281
def nvCompareFail : Nat := 0x285
/-- Vendor-specific statuses (Table 09-4). -/
def nvDeferred : Nat := 0x7C0
def nvUnavailable : Nat := 0x7C1
def nvRings : Nat := 0x7C2

/-! ### Controllers -/

/-- A record that holds no operation. -/
def NvRec.none' (i : Nat) : NvRec := ⟨0, 0, 0, 0, 0, false, false, 0, 0, 0, 0, i⟩

/-- Nothing runs. -/
def NvOp.idle : NvOp := ⟨false, 0, none, 0, 0, none⟩

/-- A controller as it stands before its first enable. -/
def NvCtrl.fresh (i : Nat) : NvCtrl :=
  { cc := 0, aqa := 0, asq := 0, acq := 0, rdy := false, en := false, sqs := [], cqs := [], wait := [], cmds := [], nss := [], cache := [], clock := 0,
    deferred := [], lost := 0, errors := [], feats := [], apst := [], aers := [], events := [], masked := [], ps := 0, entering := none,
    exiting := none, idleAt := 0, rec' := NvRec.none' i, run := NvOp.idle }

/-- The controller of a slice. -/
def State.ctrl (s : State) (c : Nat) : NvCtrl := lookD s.nvs.ctrls c (NvCtrl.fresh c)

/-- A controller set. -/
def State.setCtrl (s : State) (c : Nat) (x : NvCtrl) : State := { s with nvs := { s.nvs with ctrls := put s.nvs.ctrls c x } }

/-- A controller changed. -/
def State.updCtrl (s : State) (c : Nat) (f : NvCtrl → NvCtrl) : State := s.setCtrl c (f (s.ctrl c))

/-- NVS_C_CFG of a controller. -/
def State.ctrlCfg (s : State) (c : Nat) : Nat := s.reg (bankKey R.NVS_C_CFG c)

/-- The controller is present (R216). -/
def State.ctrlOn (s : State) (c : Nat) : Bool := bitAt (s.ctrlCfg c) 31

/-- MODE is full (R212). -/
def State.ctrlFull (s : State) (c : Nat) : Bool := bitAt (s.ctrlCfg c) 30

/-- Blocks that the cache holds at most (R216). -/
def State.cacheCap (s : State) (c : Nat) : Nat := 256 * (s.ctrlCfg c % 65536)

/-- I/O queue pairs and namespaces of the mode (Table 09-1). -/
def State.ioqLimit (s : State) (c : Nat) : Nat := if s.ctrlFull c then 128 else 16

/-- Namespaces of the mode. -/
def State.nsLimit (s : State) (c : Nat) : Nat := if s.ctrlFull c then 64 else 4

/-- Write cache enabled (Table 09-1): only in compact mode, 1 at a controller reset. -/
def State.wce (s : State) (c : Nat) : Bool := !s.ctrlFull c && lookD (s.ctrl c).feats 6 1 % 2 == 1

/-- Firmware serves the controller, and H9 is not paused (R319, Table 02-8). -/
def State.ctrlServes (s : State) (c : Nat) : Bool := s.coreServes 7 c && !s.hallPaused 0 && !s.hallPaused 9

/-! ### Entries of submission queues -/

/-- Opcode. -/
def sqeOp (d : Desc) : Nat := Desc.field d 0 1
/-- CID. -/
def sqeCid (d : Desc) : Nat := Desc.field d 2 2
/-- NSID. -/
def sqeNs (d : Desc) : Nat := Desc.field d 4 4
/-- PRP1. -/
def sqePrp1 (d : Desc) : Nat := Desc.field d 24 8
/-- PRP2. -/
def sqePrp2 (d : Desc) : Nat := Desc.field d 32 8
/-- Command Dword n. -/
def cdw (d : Desc) (n : Nat) : Nat := Desc.field d (4 * n) 4
/-- Starting LBA. -/
def sqeLba (d : Desc) : Nat := Desc.field d 40 8
/-- Logical blocks. -/
def sqeBlocks (d : Desc) : Nat := cdw d 12 % 65536 + 1

/-! ### Host transfers (R213: PRPs only) -/

/-- Bytes of a memory page: CC.MPS. -/
def NvCtrl.page (x : NvCtrl) : Nat := 2 ^ (12 + bits x.cc 10 7)

/-- PRP entries from a list in host memory; the last entry of a page goes on to another list while more than one is left. -/
def State.prpList (s : State) (sp : Space) (ps : Nat) : Nat → Nat → Nat → List Nat
  | 0, _, _ => []
  | fuel + 1, ptr, n =>
    let k := (ps - ptr % ps) / 8
    let at' (j : Nat) : Nat := leNat (s.mem.read (sp.at (ptr + 8 * j)) 8)
    if n ≤ k then (List.range n).map at'
    else (List.range (k - 1)).map at' ++ s.prpList sp ps fuel (at' (k - 1)) (n - (k - 1))

/-- Pages of a transfer of n bytes: address and length of each. -/
def State.prpPages (s : State) (c : Nat) (d : Desc) (n : Nat) : List (Nat × Nat) :=
  let ps := (s.ctrl c).page
  let p1 := sqePrp1 d
  let n1 := min n (ps - p1 % ps)
  let rest := n - n1
  let pages := if rest = 0 then [] else if rest ≤ ps then [sqePrp2 d] else s.prpList (s.slice c).space ps (ceilDiv rest ps) (sqePrp2 d) (ceilDiv rest ps)
  (p1, n1) :: pages.zipIdx.map fun e => (e.1, min ps (rest - ps * e.2))

/-- Every page behind the first starts at offset 0. -/
def State.prpOk (s : State) (c : Nat) (d : Desc) (n : Nat) : Bool :=
  (s.prpPages c d n).tail.all fun e => e.1 % (s.ctrl c).page == 0

/-- Bytes read from the host. -/
def State.prpRead (s : State) (c : Nat) (d : Desc) (n : Nat) : List Byte :=
  (s.prpPages c d n).flatMap fun e => s.mem.read ((s.slice c).space.at e.1) e.2

/-- Bytes written to the host. -/
def State.prpWrite (s : State) (c : Nat) (d : Desc) (bs : List Byte) : State :=
  ((s.prpPages c d bs.length).foldl (fun (a : State × List Byte) e =>
    ({ a.1 with mem := a.1.mem.write ((a.1.slice c).space.at e.1) (a.2.take e.2) }, a.2.drop e.2)) (s, bs)).1

/-! ### Completion queues -/

/-- A completion queue has no free entry. -/
def Ring.nvFull (r : Ring) : Bool := (r.fi + 1) % max 1 r.entries == r.ci

/-- Waiting entries go to a completion queue while it has room and its slice may be written (R211, R294, R313). The phase bit turns with each
pass through the queue. -/
def State.cqeDrain (c q : Nat) : Nat → State → State
  | 0, s => s
  | n + 1, s =>
    match lookD (s.ctrl c).wait q [], (look (s.ctrl c).cqs q).bind fun k => (s.ring k).map fun r => (k, r) with
    | w :: rest, some (k, r) =>
      if r.nvFull || !s.cqOpen r then s
      else
        let phase := 1 - r.counter / max 1 r.entries % 2
        let m := s.mem.write ((s.slice c).space.at (r.base + 16 * r.fi)) (leBytes 16 (w + phase * 2 ^ 112))
        let s := { s with mem := m }.setRing k { r with fi := (r.fi + 1) % max 1 r.entries, counter := (r.counter + 1) % 2 ^ 64 }
        let s := s.updCtrl c fun x => { x with wait := if rest.isEmpty then drop x.wait q else put x.wait q rest }
        let s := if r.intEn then s.sliceEvent c (r.vector % 64) else s
        State.cqeDrain c q n s
    | _, _ => s

/-- All waiting entries of a controller go out as far as they can. -/
def State.nvDrain (s : State) (c : Nat) : State :=
  (s.ctrl c).cqs.foldl (fun s e => State.cqeDrain c e.1 (lookD (s.ctrl c).wait e.1 []).length s) s

/-- A completion entry of a command of a queue: DW0, SQ head and identifier, CID and status. -/
def State.cqePost (s : State) (c queue cid status dw0 : Nat) : State :=
  match look (s.ctrl c).sqs queue with
  | none => s
  | some q =>
    let head := ((s.ring q.ring).map (·.fi)).getD 0
    let dnr := if status ≠ nvOk ∧ Config.doNotRetry status then 2 ^ 127 else 0
    let w := dw0 % 2 ^ 32 + head * 2 ^ 64 + queue * 2 ^ 80 + cid * 2 ^ 96 + status * 2 ^ 113 + dnr
    let s := s.updCtrl c fun x => { x with wait := put x.wait q.cq (lookD x.wait q.cq [] ++ [w]) }
    let s := s.bump64 R.NVS_CNT_CMD_LO R.NVS_CNT_CMD_HI 1
    State.cqeDrain c q.cq (lookD (s.ctrl c).wait q.cq []).length s

/-! ### Rings for queues (R211, R212) -/

/-- Unbound rings in the pool (Table 11-9). -/
def State.ringFree (s : State) : Nat := 65536 - s.rings.length

/-- A ring taken from the pool; RING_LOW when the free rings fall below SLC_RING_LOW (Table 11-9). -/
def State.takeRing (s : State) (q : Nat) (r : Ring) : State :=
  let before := s.ringFree
  let s := s.setRing q r
  let low := s.getF F.SLC_RING_LOW_RINGS
  if low ≤ before ∧ s.ringFree < low then s.event F.SLC_STATUS_RING_LOW else s

/-- The context of a queue's ring (Table 13-4). -/
def nvRing (c kind base entries : Nat) (vec : Option Nat) : Ring :=
  let v := match vec with | some v => 2 ^ 15 + v | none => 0
  ⟨BitVec.ofNat 256 (c + kind * 2 ^ 16 + base * 2 ^ 32 + 0xFFFF * 2 ^ 96 + v * 2 ^ 112 + entries * 2 ^ 192), 0, 0, 0, 1, 0⟩

/-- A ring for a queue from the pool: which one is free (log entry 50); none with the pool empty or the slice's quota reached. -/
def State.nvTake (s : State) (c : Nat) (r : Ring) : Option Nat × State :=
  if (s.slice c).ringQuota ≤ (s.rings.filter fun e => e.2.owner == c).length then (none, s)
  else
    let (w, s) := s.drawWord
    match pickFree 0 65536 (s.rings.length + 1) w fun q => q < 65536 && (s.ring q).isNone with
    | none => (none, s)
    | some q => (some q, s.takeRing q r)

/-! ### The capacity pool (R214) -/

/-- An extent of a controller: endpoint, backend NSID, first LBA and blocks. -/
def State.ext (s : State) (c e : Nat) : Option (Nat × Nat × Nat × Nat) :=
  let r (f : Nat → Nat) : Nat := s.reg (bankKey (f e) c)
  if bitAt (r R.NVS_EXT_CFG) 31 then
    some (r R.NVS_EXT_CFG % 16, r R.NVS_EXT_NSID, r R.NVS_EXT_LBA_LO + 2 ^ 32 * r R.NVS_EXT_LBA_HI, r R.NVS_EXT_BLOCKS_LO + 2 ^ 32 * r R.NVS_EXT_BLOCKS_HI)
  else none

/-- Gaps of an extent between the parts in use, in ascending order, from a block on. -/
def gapsOf (e : Nat) : List NvSeg → Nat → Nat → List NvSeg
  | [], from', stop => if from' < stop then [⟨e, from', stop - from'⟩] else []
  | u :: us, from', stop => (if from' < u.off then [⟨e, from', u.off - from'⟩] else []) ++ gapsOf e us (max from' (u.off + u.n)) stop

/-- Free parts of the pool in extent order and ascending LBA. -/
def State.poolGaps (s : State) (c : Nat) : List NvSeg :=
  (List.range 8).flatMap fun e => match s.ext c e with
    | none => []
    | some (_, _, _, n) =>
      let used := sortBy (fun (a b : NvSeg) => decide (a.off < b.off)) (((s.ctrl c).nss.flatMap (·.2.segs)).filter (·.ext == e))
      gapsOf e used 0 n

/-- The first n blocks of a list of parts. -/
def takeBlocks : List NvSeg → Nat → List NvSeg
  | [], _ => []
  | g :: gs, n => if n = 0 then [] else if n ≤ g.n then [{ g with n := n }] else g :: takeBlocks gs (n - g.n)

/-- Blocks of a list of parts. -/
def segBlocks (l : List NvSeg) : Nat := (l.map (·.n)).sum

/-- NSZE of a namespace. -/
def Ns.size (x : Ns) : Nat := segBlocks x.segs

/-- Runs of blocks that lie together in one part: extent, block in it, blocks, and the first one's place in the whole. -/
def segRuns : List NvSeg → Nat → Nat → Nat → List (Nat × Nat × Nat × Nat)
  | [], _, _, _ => []
  | g :: gs, base, lba, n =>
    if n = 0 then []
    else if base + g.n ≤ lba then segRuns gs (base + g.n) lba n
    else
      let k := min n (base + g.n - lba)
      (g.ext, g.off + (lba - base), k, lba) :: segRuns gs (base + g.n) (lba + k) (n - k)

/-! ### Backend commands (R215, R220) -/

/-- The number of a kind in `Out.backend`. -/
def BeKind.code : BeKind → Nat
  | .read => 0
  | .write => 1
  | .zero => 2
  | .pattern => 3

/-- The endpoint answers: it is up, and its namespaces are not kept disabled (R17, R220). -/
def State.epUp (s : State) (k : Nat) : Bool := s.getF (F.NVS_BE_STATE k) == 2 && !s.str.beOff.contains k

/-- 4,096-byte blocks of a string. -/
def blocksOfBytes (bs : List Byte) (n : Nat) : List (List Byte) := (List.range n).map fun j => cut bs (4096 * j) 4096

/-- Blocks as the backend holds them: encrypted under the namespace's key with the namespace LBA as tweak (R215). -/
def xtsBlocks (key lba : Nat) (bs : List Byte) (n : Nat) : List Byte :=
  ((blocksOfBytes bs n).zipIdx.map fun e => cut (xtsSeal (Config.xtsKey key) (lba + e.2) e.1) 0 4096).flatten

/-- A block as read from the backend: one of zeros is not decrypted (R215). -/
def xtsPlain (key lba : Nat) (b : List Byte) : List Byte := if allZero b then b else cut (xtsOpen (Config.xtsKey key) lba b) 0 4096

/-- A try of a backend command goes out. -/
def State.beSend (s : State) (b : BeCmd) : State :=
  let s := { s with nvs := { s.nvs with be := s.nvs.be.map fun (x : BeCmd) => if x.id = b.id then { b with tries := b.tries + 1, at' := s.up } else x } }
  s.send (.backend b.id b.ep b.kind.code b.nsid b.lba b.n b.wire)

/-- Data units that the storage pipelines have encrypted or decrypted: 256 blocks each, and one for the tweak (R248, Table 10-8; log entry 48). -/
def State.countXts (s : State) (n : Nat) : State :=
  (s.bump64 R.CIP_CNT_XTS_LO R.CIP_CNT_XTS_HI n).bump64 R.CIP_CNT_BLOCKS_LO R.CIP_CNT_BLOCKS_HI (257 * n)

/-- A backend command is issued for a run of blocks; buffered registers apply first (R235). -/
def State.beIssue (s : State) (c ext off n : Nat) (kind : BeKind) (ns nlba : Nat) (use : BeUse) (wire data : List Byte) (vers : List Nat) : State :=
  let s := (s.bufferedApply 14 0).bufferedApply 14 1
  match s.ext c ext with
  | none => s
  | some (ep, nsid, lba, _) =>
    let b : BeCmd := ⟨s.nvs.next, c, ep, nsid, lba + off, n, kind, ns, nlba, use, wire, data, 0, s.up, true, vers⟩
    let s := if kind = .write then s.countXts n else s
    { s with nvs := { s.nvs with be := s.nvs.be ++ [b], next := s.nvs.next + 1 } }.beSend b

/-- A backend command is no longer in flight. -/
def State.beDrop (s : State) (id : Nat) : State := { s with nvs := { s.nvs with be := s.nvs.be.filter (·.id != id) } }

/-- Backend commands of a command. -/
def State.beOf (s : State) (c queue cid : Nat) : List BeCmd := s.nvs.be.filter fun b => b.ctrl == c && b.use == BeUse.cmd queue cid

/-- Reads in flight of a range may no longer fill the cache: it has been written since (R222). -/
def State.noFill (s : State) (c ns lba n : Nat) : State :=
  { s with nvs := { s.nvs with be := s.nvs.be.map fun b =>
      if b.ctrl = c ∧ b.kind = .read ∧ b.ns = ns ∧ b.nlba < lba + n ∧ lba < b.nlba + b.n then { b with fill := false } else b } }

/-! ### The HBM cache (R215 to R218) -/

/-- Guard CRC of a block: the LBA bits [31:0] folded in (R215, Table 10-6). -/
def nvGuard (lba : Nat) (bs : List Byte) : Nat := crcOf (polyOf 3) (leBytes 4 (lba % 2 ^ 32) ++ bs)

/-- The cache's block of an LBA. -/
def NvCtrl.blk (x : NvCtrl) (ns lba : Nat) : Option NvBlk := x.cache.find? fun b => b.ns == ns && b.lba == lba

/-- A block of the cache is of a range. -/
def NvBlk.within (b : NvBlk) (ns lba n : Nat) : Bool := b.ns == ns && lba ≤ b.lba && b.lba < lba + n

/-- A block may be evicted: clean, and not being destaged. -/
def NvBlk.clean (b : NvBlk) : Bool := !b.dirty && !b.failed && !b.busy

/-- A controller with its least recently used clean block evicted, where the cache is full. -/
def NvCtrl.evict (x : NvCtrl) (cap : Nat) : Option NvCtrl :=
  if x.cache.length < cap then some x
  else match sortBy (fun (a b : NvBlk) => decide (a.used < b.used)) (x.cache.filter NvBlk.clean) with
    | [] => none
    | v :: _ => some { x with cache := x.cache.filter fun b => !(b.ns == v.ns && b.lba == v.lba) }

/-- A block of the cache changed. -/
def NvCtrl.updBlk (x : NvCtrl) (ns lba : Nat) (f : NvBlk → NvBlk) : NvCtrl :=
  { x with cache := x.cache.map fun b => if b.ns = ns ∧ b.lba = lba then f b else b }

/-- A block put into the cache, where there is room. -/
def NvCtrl.putBlk (x : NvCtrl) (cap ns lba : Nat) (bs : List Byte) (dirty : Bool) : NvCtrl :=
  let t := x.clock + 1
  match x.blk ns lba with
  | some _ =>
    if dirty then
      { x.updBlk ns lba fun b => { b with data := bs, guard := nvGuard lba bs, dirty := true, failed := false, ver := t, used := t } with clock := t }
    else x
  | none =>
    match x.evict cap with
    | none => x
    | some x => { x with cache := x.cache ++ [⟨ns, lba, bs, nvGuard lba bs, dirty, false, false, t, t⟩], clock := t }

/-- Every block of a write finds space (R217). -/
def State.cacheRoom (s : State) (c ns lba n : Nat) : Bool :=
  let x := s.ctrl c
  let held := x.cache.filter (·.within ns lba n)
  let spare := (x.cache.filter fun b => b.clean && !b.within ns lba n).length
  decide (n - held.length ≤ s.cacheCap c - x.cache.length + spare)

/-- The cache after the backend has taken new data of a range: a copy takes it, and a dirty one, or one in destage, is destaged anew
(R218, R222). -/
def State.cacheTake (s : State) (c ns lba n : Nat) (bs : List Byte) : State :=
  let s := s.noFill c ns lba n
  s.updCtrl c fun x => { x with
    clock := x.clock + 1,
    cache := x.cache.map fun b =>
      if b.within ns lba n then
        let d := cut bs (4096 * (b.lba - lba)) 4096
        { b with data := d, guard := nvGuard b.lba d, dirty := b.dirty || b.busy, failed := false, ver := x.clock + 1 }
      else b }

/-- Dirty blocks of a namespace, or of all with 0xFFFF_FFFF. -/
def NvCtrl.dirtyOf (x : NvCtrl) (ns : Nat) : List NvBlk := x.cache.filter fun b => (b.dirty || b.busy) && (ns == 0xFFFFFFFF || b.ns == ns)

/-! ### Asynchronous events (R213) -/

/-- An event that waits goes to an outstanding request, unless its type is masked until its page is read. -/
def State.aerSettle (c : Nat) : Nat → State → State
  | 0, s => s
  | n + 1, s =>
    let x := s.ctrl c
    match x.aers, x.events.find? fun e => !(x.masked.any (·.1 == e.1)) with
    | a :: as, some e =>
      let s := s.setCtrl c { x with aers := as, events := x.events.erase e, masked := (e.1, e.2.2) :: x.masked }
      State.aerSettle c n (s.cqePost c 0 a nvOk (e.1 + 2 ^ 8 * e.2.1 + 2 ^ 16 * e.2.2))
    | _, _ => s

/-- An asynchronous event: type, information and log page. -/
def State.nvEvent (s : State) (c type info page : Nat) : State :=
  let s := s.updCtrl c fun x => { x with events := if x.events.contains (type, info, page) then x.events else x.events ++ [(type, info, page)] }
  State.aerSettle c (s.ctrl c).events.length s

/-! ### Commands -/

/-- A fetched command. -/
def State.nvCmd (s : State) (c queue cid : Nat) : Option NvCmd := (s.ctrl c).cmds.find? fun m => m.queue == queue && m.cid == cid

/-- A fetched command changed. -/
def State.updCmd (s : State) (c queue cid : Nat) (f : NvCmd → NvCmd) : State :=
  s.updCtrl c fun x => { x with cmds := x.cmds.map fun m => if m.queue = queue ∧ m.cid = cid then f m else m }

/-- A queue that waits for its Delete and has no command left goes back to the pool, and the Delete completes (R225). -/
def State.sqClose (s : State) (c queue : Nat) : State :=
  match look (s.ctrl c).sqs queue with
  | some ⟨r, _, some cid⟩ =>
    if (s.ctrl c).cmds.any (·.queue == queue) then s
    else
      let s := { s with rings := drop s.rings r }.updCtrl c fun x =>
        { x with sqs := drop x.sqs queue, cmds := x.cmds.filter fun m => !(m.queue == 0 && m.cid == cid) }
      s.cqePost c 0 cid nvOk 0
  | _ => s

/-- The controller has become idle: its timer starts (R227, R235). -/
def State.nvIdle (s : State) (c : Nat) : State :=
  if (s.ctrl c).cmds.isEmpty then (s.bufferedApply 14 2).updCtrl c fun x => { x with idleAt := s.up } else s

/-- A command completes: entry, error log, and the Delete that waited for it. What it has in flight at a backend runs on without it. -/
def State.nvEnd (s : State) (c queue cid status dw0 : Nat) : State :=
  match s.nvCmd c queue cid with
  | none => s
  | some m =>
    let s := { s with nvs := { s.nvs with be := s.nvs.be.map fun (b : BeCmd) => if b.ctrl = c ∧ b.use = BeUse.cmd queue cid then { b with use := .free } else b } }
    let s := s.updCtrl c fun x => { x with
      cmds := x.cmds.filter fun y => !(y.queue == queue && y.cid == cid),
      errors := if status = nvOk then x.errors else ([queue, cid, status, sqeLba m.sqe, sqeNs m.sqe, s.now] :: x.errors).take 64 }
    ((s.cqePost c queue cid status dw0).sqClose c queue).nvIdle c

/-! ### Power states (R227, R228) -/

/-- MP in units of 10 mW (Table 09-6). -/
def psPower : Nat → Nat
  | 0 => 800
  | 1 => 400
  | 2 => 150
  | 3 => 50
  | _ => 5

/-- EXLAT in µs. -/
def psExit : Nat → Nat
  | 0 => 0
  | 1 => 50
  | 2 => 500
  | 3 => 5000
  | _ => 50000

/-- Entry to PS3 or PS4 destages every dirty block first. -/
def State.psSettle (s : State) (c : Nat) : State :=
  let x := s.ctrl c
  match x.entering with
  | some k => if 3 ≤ k ∧ !(x.dirtyOf 0xFFFFFFFF).isEmpty then s else s.setCtrl c { x with ps := k, entering := none }
  | none => s

/-- The controller begins to enter a state. -/
def State.psEnter (s : State) (c k : Nat) : State := (s.updCtrl c fun x => { x with entering := some k }).psSettle c

/-- Idle time of state k in ms: of the APST feature, or NVS_PS_IDLE_k. -/
def State.psIdle (s : State) (c k : Nat) : Nat :=
  let t := (s.ctrl c).apst
  if t.isEmpty then s.getF (F.NVS_PS_IDLE_MS (k - 1)) else fieldAt t (8 * (k - 1)) 4 / 256

/-! ### The Coffer (R356 to R358) -/

/-- Reservation of a controller per epoch, in pJ, scaled down where the sum exceeds the budget (R358; "enabled" is NVS_C_CFG.EN, log entry
51). -/
def State.nvReserve (s : State) (c : Nat) : Nat :=
  let mp (k : Nat) : Nat := if s.ctrlOn k then psPower (s.ctrl k).ps * 10 ^ 7 else 0
  let sum := (List.range 256).foldl (fun n k => n + mp k) 0
  let budget := s.engBudget 3 * 10 ^ 6
  if sum ≤ budget then mp c else mp c * budget / sum

/-- Part of the storage budget that no controller has reserved. -/
def State.nvUnreserved (s : State) : Nat :=
  s.engBudget 3 * 10 ^ 6 - (List.range 256).foldl (fun n k => n + s.nvReserve k) 0

/-- A unit of a controller is offered: against its own reservation, then against what is unreserved (R357, R358). -/
def State.nvAdmit (s : State) (c : Nat) : Bool × State :=
  if s.pwr.refused.contains (3, some c) then (false, s)
  else
    let e := s.energyTable 20 * 1000
    let first := !s.pwr.offered.contains 3
    let own := lookD s.pwr.ctrlCharge c 0 + e ≤ s.nvReserve c
    let free := s.pwr.unreserved + e ≤ s.nvUnreserved
    let s := { s with pwr := { s.pwr with offered := if first then 3 :: s.pwr.offered else s.pwr.offered } }
    if first ∨ (s.pwr.devCharge + e ≤ s.pwr.allowance ∧ s.sliceRoom c e ∧ (own ∨ free)) then
      let s := s.charge (some c) e
      (true, { s with pwr := { s.pwr with
        engCharge := put s.pwr.engCharge 3 (lookD s.pwr.engCharge 3 0 + e),
        ctrlCharge := if own then put s.pwr.ctrlCharge c (lookD s.pwr.ctrlCharge c 0 + e) else s.pwr.ctrlCharge,
        unreserved := if own then s.pwr.unreserved else s.pwr.unreserved + e } })
    else
      let s := s.deferUnit (some c)
      (false, { s with pwr := { s.pwr with refused := (3, some c) :: s.pwr.refused } })

/-! ### The persistent record (R230, R231) -/

/-- Bytes of a record (Table 09-7). -/
def NvRec.bytes (r : NvRec) : List Byte :=
  let b := [0x4E, 0x56, 0x53, 0x52] ++ leBytes 4 r.seq ++ leBytes 1 r.op ++ leBytes 1 r.state ++ leBytes 1 (16 * r.passes + r.pass) ++
    leBytes 1 (4 * b2n r.keysSet + 2 * b2n r.oipbp) ++ leBytes 4 r.pattern ++ leBytes 4 r.nsid ++ leBytes 8 r.progress ++ leBytes 8 r.total ++
    leBytes 4 r.slice ++ List.replicate 20 0
  b ++ leBytes 4 (crc32c b)

/-- The record in 64 bytes; none where MAGIC or CRC fails. -/
def NvRec.parse (b : List Byte) : Option NvRec :=
  if cut b 0 4 ≠ [0x4E#8, 0x56#8, 0x53#8, 0x52#8] ∨ fieldAt b 60 4 ≠ crc32c (cut b 0 60) then none
  else some ⟨fieldAt b 4 4, fieldAt b 8 1, fieldAt b 9 1, fieldAt b 10 1 / 16, fieldAt b 10 1 % 16, bitAt (fieldAt b 11 1) 2, bitAt (fieldAt b 11 1) 1,
    fieldAt b 12 4, fieldAt b 16 4, fieldAt b 20 8, fieldAt b 28 8, fieldAt b 36 4⟩

/-- The record is written: SEQUENCE advances, and the copies alternate. -/
def State.recWrite (s : State) (c : Nat) (f : NvRec → NvRec) : State :=
  let r := f (s.ctrl c).rec'
  let r := { r with seq := (r.seq + 1) % 2 ^ 32 }
  let s := s.updCtrl c fun x => { x with rec' := r, run := { x.run with recAt := s.up } }
  { s with nvs := { s.nvs with nor := put s.nvs.nor (2 * c + r.seq % 2) r.bytes } }.bump F.NVS_CNT_REC_WRITE

/-- The record that start-up uses: the valid copy with the higher SEQUENCE (R230). -/
def State.recLoad (s : State) (c : Nat) : NvRec :=
  match ((List.range 2).filterMap fun k => (look s.nvs.nor (2 * c + k)).bind NvRec.parse) with
  | [] => NvRec.none' c
  | [a] => a
  | a :: b :: _ => if a.seq < b.seq then b else a

/-- SPROG (R231), from the last record written. -/
def NvRec.sprog (r : NvRec) : Nat :=
  if r.total = 0 then Config.emptyProgress % 65536 else min 65535 (65536 * (r.pass * r.total + r.progress) / ((r.passes + 1) * r.total))

/-- A sanitize runs. -/
def NvRec.sanitizing (r : NvRec) : Bool := r.state == 1 && 1 ≤ r.op && r.op ≤ 3
/-- Failure mode (R232). -/
def NvRec.sanFailed (r : NvRec) : Bool := r.state == 3 && 1 ≤ r.op && r.op ≤ 3
/-- A format runs. -/
def NvRec.formatting (r : NvRec) : Bool := r.state == 1 && r.op == 4

/-- Parts that the running operation covers, in extent order. -/
def NvCtrl.opSegs (x : NvCtrl) : List (Nat × NvSeg) :=
  let l := (x.nss.filter fun e => x.rec'.nsid == 0xFFFFFFFF || e.1 == x.rec'.nsid).flatMap fun e => e.2.segs.map fun g => (e.1, g)
  sortBy (fun (a b : Nat × NvSeg) => a.2.ext < b.2.ext || (a.2.ext == b.2.ext && a.2.off < b.2.off)) l

/-- The operation writes to the backend: block erase, overwrite, and a format that is no crypto erase. -/
def NvCtrl.opWrites (x : NvCtrl) : Bool := x.rec'.op == 2 || x.rec'.op == 3 || (x.rec'.op == 4 && x.run.ses != 2)

/-- Pattern of a pass of an overwrite (R229). -/
def NvRec.patternNow (r : NvRec) : Nat := if r.oipbp ∧ r.pass % 2 = 1 then 2 ^ 32 - 1 - r.pattern else r.pattern

/-- The endpoint that the next command of a running operation goes to. -/
def State.opEp (s : State) (c : Nat) : Option Nat :=
  match segRuns ((s.ctrl c).opSegs.map (·.2)) 0 (s.ctrl c).run.progress 65536 with
  | [] => none
  | (ext, _) :: _ => (s.ext c ext).map (·.1)

/-- The next backend command of a running sanitize or format: at most 65,536 blocks, none at the 50 V stage (R229, R234). -/
def State.opKick (s : State) (c : Nat) : State :=
  let x := s.ctrl c
  if x.rec'.state ≠ 1 ∨ !x.run.active ∨ !x.opWrites ∨ s.shedAt 2 ∨ !s.ctrlServes c ∨ s.nvs.be.any (fun b => b.ctrl == c && b.use == BeUse.op) then s
  else
    match segRuns (x.opSegs.map (·.2)) 0 x.run.progress 65536 with
    | [] => s
    | (ext, off, n, _) :: _ =>
      match s.ext c ext with
      | none => s
      | some (ep, _) =>
        if !s.epUp ep then (if x.run.down.isSome then s else s.setCtrl c { x with run := { x.run with down := some s.up } })
        else if x.rec'.op = 3 then s.beIssue c ext off n .pattern 0 0 .op (leBytes 4 x.rec'.patternNow) [] []
        else s.beIssue c ext off n .zero 0 0 .op [] [] []

end Sys2Proof.Machine
end

