-- ==== Sys2Proof/Machine/NvsCmds.lean ====
section
/-! DEFINITION. What the storage service's commands do once fetched (R212 to R233), and how they end: backend answers, destage, controller reset
(R226), restart of the owner core (R323) and the epoch boundary. -/

namespace Sys2Proof.Machine

/-- Commands of Table 09-2; `bad` ends with a status. -/
inductive NvKind
  | deleteSq | createSq | getLog | deleteCq | createCq | identify | abort | setFeat | getFeat | aer | nsCreate | nsDelete | nsAttach | format
  | sanExit | sanBlock | sanOver | sanCrypto | flush | write | read | compare | zeroes | dsm
  | bad (status : Nat)
  deriving DecidableEq, Repr

/-- The command that an entry of a queue spells: every other opcode is Invalid Command Opcode (R213); no fused commands and no SGLs. -/
def nvKind (queue : Nat) (d : Desc) : NvKind :=
  if Desc.bits d 9 8 ≠ 0 ∨ Desc.bits d 15 14 ≠ 0 then .bad nvField
  else if queue = 0 then
    match sqeOp d with
    | 0x00 => .deleteSq
    | 0x01 => .createSq
    | 0x02 => .getLog
    | 0x04 => .deleteCq
    | 0x05 => .createCq
    | 0x06 => .identify
    | 0x08 => .abort
    | 0x09 => .setFeat
    | 0x0A => .getFeat
    | 0x0C => .aer
    | 0x0D => (match cdw d 10 % 16 with | 0 => .nsCreate | 1 => .nsDelete | _ => .bad nvField)
    | 0x15 => .nsAttach
    | 0x80 => .format
    | 0x84 => (match cdw d 10 % 8 with | 1 => .sanExit | 2 => .sanBlock | 3 => .sanOver | 4 => .sanCrypto | _ => .bad nvField)
    | _ => .bad nvOpcode
  else
    match sqeOp d with
    | 0x00 => .flush
    | 0x01 => .write
    | 0x02 => .read
    | 0x05 => .compare
    | 0x08 => .zeroes
    | 0x09 => .dsm
    | _ => .bad nvOpcode

/-- Commands that may free blocks of the cache. -/
def NvKind.frees : NvKind → Bool
  | .read | .compare | .nsDelete | .format | .sanBlock | .sanOver | .sanCrypto => true
  | _ => false

/-- Commands that move data of 4,096 bytes a block between host and namespace. -/
def NvKind.moves : NvKind → Bool
  | .read | .write | .compare => true
  | _ => false

/-- I/O commands. -/
def NvKind.io : NvKind → Bool
  | .read | .write | .compare | .flush | .zeroes | .dsm => true
  | _ => false

/-- Admin commands that a running or failed sanitize refuses (R231; log entry 49). -/
def NvKind.managed : NvKind → Bool
  | .nsCreate | .nsDelete | .nsAttach | .format => true
  | _ => false

/-- A running format covers a namespace (R233). -/
def NvCtrl.formats (x : NvCtrl) (ns : Nat) : Bool := x.rec'.formatting && (x.rec'.nsid == 0xFFFFFFFF || ns == 0xFFFFFFFF || x.rec'.nsid == ns)

/-- The status of a command that is not executed, in the order of log entry 49. -/
def State.nvRefuse (s : State) (c : Nat) (k : NvKind) (d : Desc) : Nat :=
  let x := s.ctrl c
  let ns := sqeNs d
  let san := if x.rec'.sanitizing then nvSanitizing else if x.rec'.sanFailed then nvSanFailed else nvOk
  if san ≠ nvOk ∧ ((k.io ∧ k ≠ .flush) ∨ k.managed ∨ (x.rec'.sanitizing ∧ [NvKind.sanExit, .sanBlock, .sanOver, .sanCrypto].contains k)) then san
  else if !k.io then nvOk
  else if k = .flush ∧ ns = 0xFFFFFFFF then (if x.formats ns then nvFormatting else if x.nss.any (·.2.pend) then nvDeferred else nvOk)
  else match look x.nss ns with
    | none => nvNamespace
    | some n =>
      if !n.attached then nvNamespace
      else if x.formats ns then nvFormatting
      else if n.pend then nvDeferred
      else if (k.moves ∨ k = .zeroes) ∧ n.size < sqeLba d + sqeBlocks d then nvLbaRange
      else if k.moves ∧ 256 < sqeBlocks d then nvField
      else if k.moves ∧ !s.prpOk c d (4096 * sqeBlocks d) then nvPrpOffset
      else nvOk

/-- Pending deferred errors of the namespaces that a command names end (R218). -/
def State.pendClear (s : State) (c ns : Nat) : State :=
  s.updCtrl c fun x => { x with nss := x.nss.map fun (e : Nat × Ns) => if ns = 0xFFFFFFFF ∨ e.1 = ns then (e.1, { e.2 with pend := false }) else e }

/-! ### Commands at their backend -/

/-- A command fails as soon as all of it has ended; its first failure counts. -/
def State.cmdFail (s : State) (c queue cid st : Nat) : State := s.updCmd c queue cid fun m => { m with fail := if m.fail = nvOk then st else m.fail }

/-- The command has passed its commit point (Table 09-5). -/
def State.cmdCommit (s : State) (c queue cid : Nat) : State := s.updCmd c queue cid fun m => { m with committed := true }

/-- Backend commands of a command for a range of a namespace; a run on an endpoint that is down fails at once (R220). -/
def State.nvIssue (s : State) (c queue cid ns lba n : Nat) (kind : BeKind) (bs : List Byte) : State :=
  match look (s.ctrl c).nss ns with
  | none => s.cmdFail c queue cid nvNamespace
  | some x =>
    (segRuns x.segs 0 lba n).foldl (fun s (e : Nat × Nat × Nat × Nat) =>
      let (ext, off, k, l) := e
      match s.ext c ext with
      | none => s.cmdFail c queue cid nvInternal
      | some (ep, _) =>
        if !s.epUp ep then s.cmdFail c queue cid nvUnavailable
        else
          let part := cut bs (4096 * (l - lba)) (4096 * k)
          if kind = .write then s.beIssue c ext off k .write ns l (.cmd queue cid) (xtsBlocks x.key l part k) part []
          else s.beIssue c ext off k kind ns l (.cmd queue cid) [] [] []) s

/-- A command whose backend commands have all ended completes (R219, R220). -/
def State.nvSettle (s : State) (c queue cid : Nat) : State :=
  match s.nvCmd c queue cid with
  | none => s
  | some m =>
    if m.phase ≠ .run ∨ !(s.beOf c queue cid).isEmpty then s
    else if m.fail ≠ nvOk then s.nvEnd c queue cid m.fail 0
    else
      let n := sqeBlocks m.sqe
      let bytes : List Byte := (List.range n).flatMap fun j => lookD m.got (sqeLba m.sqe + j) (List.replicate 4096 0)
      match nvKind queue m.sqe with
      | .read => ((s.cmdCommit c queue cid).prpWrite c m.sqe bytes).nvEnd c queue cid nvOk 0
      | .compare => s.nvEnd c queue cid (if s.prpRead c m.sqe (4096 * n) = bytes then nvOk else nvCompareFail) 0
      | _ => s.nvEnd c queue cid nvOk 0

/-- Flushes no longer wait for blocks that are durable, or that are dirty no more for another reason (log entry 52); those with none left complete
(R223), and a power state that waited for the last dirty block is entered (R227). -/
def State.flushGone (s : State) (c : Nat) (gone : Nat × Nat × Nat → Bool) : State :=
  let s := s.updCtrl c fun x => { x with cmds := x.cmds.map fun m => { m with flush := m.flush.filter fun e => !gone e } }
  (((s.ctrl c).cmds.filter fun m => nvKind m.queue m.sqe == NvKind.flush && m.phase == NvPhase.run && m.committed && m.flush.isEmpty).foldl
    (fun s m => s.nvEnd c m.queue m.cid nvOk 0) s).psSettle c

/-- Blocks of a Read or Compare: hits, then the misses in runs; a FAILED block, or a dirty one whose guard CRC fails, ends the command
(R216, R218). -/
def State.nvRead (s : State) (c : Nat) (m : NvCmd) : State :=
  let x := s.ctrl c
  let ns := sqeNs m.sqe
  let lba := sqeLba m.sqe
  let n := sqeBlocks m.sqe
  let mine := x.cache.filter (·.within ns lba n)
  let bad (b : NvBlk) : Bool := b.guard != nvGuard b.lba b.data
  let spoiled := mine.filter fun b => bad b && (b.dirty || b.busy)
  let s := s.setCtrl c { x with
    clock := x.clock + 1,
    cache := (x.cache.filter fun b => !(b.within ns lba n && bad b && b.clean)).map fun b =>
      if b.within ns lba n then (if bad b then { b with failed := true, dirty := false } else { b with used := x.clock + 1 }) else b }
  let s := s.flushGone c fun e => spoiled.any fun b => b.ns == e.1 && b.lba == e.2.1
  if mine.any (·.failed) ∨ !spoiled.isEmpty then s.nvEnd c m.queue m.cid nvUnrecovered 0
  else
    let hits := mine.filter fun b => !bad b
    let s := (s.bumpBy F.NVS_CNT_READ_HIT hits.length).bumpBy F.NVS_CNT_READ_MISS (n - hits.length)
    let s := s.updCmd c m.queue m.cid fun y => { y with got := hits.map fun b => (b.lba, b.data) }
    let miss := (List.range n).map (lba + ·) |>.filter fun l => !hits.any (·.lba == l)
    let runs := miss.foldl (fun (l : List (Nat × Nat)) a => match l with
      | (b, k) :: t => if b + k = a then (b, k + 1) :: t else (a, 1) :: (b, k) :: t
      | [] => [(a, 1)]) []
    (runs.reverse.foldl (fun s e => s.nvIssue c m.queue m.cid ns e.1 e.2 .read []) s).nvSettle c m.queue m.cid

/-- A Write: into the cache in compact mode with WCE 1, where it finds space; else to the backend (R217, R219). -/
def State.nvWrite (s : State) (c : Nat) (m : NvCmd) : State :=
  let ns := sqeNs m.sqe
  let lba := sqeLba m.sqe
  let n := sqeBlocks m.sqe
  if s.wce c then
    if !s.cacheRoom c ns lba n then s.updCmd c m.queue m.cid fun y => { y with phase := .space, at' := if m.phase = .space then y.at' else s.up }
    else
      let bs := s.prpRead c m.sqe (4096 * n)
      let cap := s.cacheCap c
      let s := (s.noFill c ns lba n).updCtrl c fun x => (blocksOfBytes bs n).zipIdx.foldl (fun x e => x.putBlk cap ns (lba + e.2) e.1 true) x
      (s.cmdCommit c m.queue m.cid).nvEnd c m.queue m.cid nvOk 0
  else
    let bs := s.prpRead c m.sqe (4096 * n)
    ((s.cmdCommit c m.queue m.cid).nvIssue c m.queue m.cid ns lba n .write bs).nvSettle c m.queue m.cid

/-- Ranges of a Dataset Management command: LBA and blocks. -/
def dsmRanges (bs : List Byte) (n : Nat) : List (Nat × Nat) := (List.range n).map fun j => (fieldAt bs (16 * j + 8) 8, fieldAt bs (16 * j + 4) 4)

/-- Dataset Management: deallocate only (R213, R215). -/
def State.nvDsm (s : State) (c : Nat) (m : NvCmd) : State :=
  let n := cdw m.sqe 10 % 256 + 1
  let l := dsmRanges (s.prpRead c m.sqe (16 * n)) n
  let size := ((look (s.ctrl c).nss (sqeNs m.sqe)).map Ns.size).getD 0
  if !bitAt (cdw m.sqe 11) 2 then s.nvEnd c m.queue m.cid nvOk 0
  else if l.any fun e => size < e.1 + e.2 then s.nvEnd c m.queue m.cid nvLbaRange 0
  else (l.foldl (fun s e => s.nvIssue c m.queue m.cid (sqeNs m.sqe) e.1 e.2 .zero []) s).nvSettle c m.queue m.cid

/-- A Flush waits for the blocks that are dirty now (R223). -/
def State.nvFlush (s : State) (c : Nat) (m : NvCmd) : State :=
  let l := if s.wce c then ((s.ctrl c).dirtyOf (sqeNs m.sqe)).map fun b => (b.ns, b.lba, b.ver) else []
  if l.isEmpty then s.nvEnd c m.queue m.cid nvOk 0
  else s.updCmd c m.queue m.cid fun y => { y with flush := l, committed := true }

/-! ### Queues (R211, R212, R225) -/

/-- Create I/O Completion Queue. -/
def State.nvCreateCq (s : State) (c : Nat) (m : NvCmd) : State :=
  let q := cdw m.sqe 10 % 65536
  let n := cdw m.sqe 10 / 65536 + 1
  let w := cdw m.sqe 11
  let x := s.ctrl c
  let fin := fun (s : State) st => s.nvEnd c m.queue m.cid st 0
  if q = 0 ∨ s.ioqLimit c < q ∨ (look x.cqs q).isSome then fin s nvQueueId
  else if n < 2 ∨ 4096 < n then fin s nvQueueSize
  else if !bitAt w 0 then fin s nvField
  else if sqePrp1 m.sqe % x.page ≠ 0 then fin s nvPrpOffset
  else if 64 ≤ w / 65536 then fin s nvVector
  else match s.nvTake c (nvRing c 0x0B (sqePrp1 m.sqe) n (if bitAt w 1 then some (w / 65536) else none)) with
    | (none, s) => fin s nvRings
    | (some r, s) => fin (s.updCtrl c fun x => { x with cqs := put x.cqs q r }) nvOk

/-- Create I/O Submission Queue. -/
def State.nvCreateSq (s : State) (c : Nat) (m : NvCmd) : State :=
  let q := cdw m.sqe 10 % 65536
  let n := cdw m.sqe 10 / 65536 + 1
  let w := cdw m.sqe 11
  let x := s.ctrl c
  let fin := fun (s : State) st => s.nvEnd c m.queue m.cid st 0
  if q = 0 ∨ s.ioqLimit c < q ∨ (look x.sqs q).isSome then fin s nvQueueId
  else if w / 65536 = 0 ∨ (look x.cqs (w / 65536)).isNone then fin s nvCqInvalid
  else if n < 2 ∨ 4096 < n then fin s nvQueueSize
  else if !bitAt w 0 then fin s nvField
  else if sqePrp1 m.sqe % x.page ≠ 0 then fin s nvPrpOffset
  else match s.nvTake c (nvRing c 0x0A (sqePrp1 m.sqe) n none) with
    | (none, s) => fin s nvRings
    | (some r, s) => fin (s.updCtrl c fun x => { x with sqs := put x.sqs q ⟨r, w / 65536, none⟩ }) nvOk

/-- Delete I/O Completion Queue: refused while a submission queue uses it. -/
def State.nvDeleteCq (s : State) (c : Nat) (m : NvCmd) : State :=
  let q := cdw m.sqe 10 % 65536
  let x := s.ctrl c
  match (if q = 0 then none else look x.cqs q) with
  | none => s.nvEnd c m.queue m.cid nvQueueId 0
  | some r =>
    if x.sqs.any (·.2.cq == q) then s.nvEnd c m.queue m.cid nvQueueDelete 0
    else ({ s with rings := drop s.rings r }.updCtrl c fun x => { x with cqs := drop x.cqs q, wait := drop x.wait q }).nvEnd c m.queue m.cid nvOk 0

/-- Delete I/O Submission Queue: uncommitted commands are aborted, and the Delete waits for the others (R225). -/
def State.nvDeleteSq (s : State) (c : Nat) (m : NvCmd) : State :=
  let q := cdw m.sqe 10 % 65536
  match (if q = 0 then none else look (s.ctrl c).sqs q) with
  | none => s.nvEnd c m.queue m.cid nvQueueId 0
  | some x =>
    if x.closing.isSome then s.nvEnd c m.queue m.cid nvQueueId 0
    else
      let s := s.updCtrl c fun y => { y with sqs := put y.sqs q { x with closing := some m.cid } }
      let s := s.cmdCommit c m.queue m.cid
      ((((s.ctrl c).cmds.filter fun y => y.queue == q && !y.committed).foldl (fun s y => s.nvEnd c q y.cid nvSqDeleted 0) s).sqClose c q).nvIdle c

/-! ### Identify, logs and features (R213) -/

/-- A patch of a page: offset, bytes, value. -/
def pagePut (bs : List Byte) (l : List (Nat × Nat × Nat)) : List Byte :=
  l.foldl (fun (b : List Byte) e => b.take e.1 ++ leBytes e.2.1 e.2.2 ++ b.drop (e.1 + e.2.1)) (cut bs 0 4096)

/-- A list of 32-bit identifiers in a page, those above one. -/
def idPage (l : List Nat) (above : Nat) : List Byte := cut (((sortBy (fun (a b : Nat) => decide (a < b)) l).filter (above < ·)).flatMap (leBytes 4)) 0 4096

/-- A list of controllers in a page. -/
def ctrlPage (l : List Nat) : List Byte := cut (leBytes 2 l.length ++ l.flatMap (leBytes 2)) 0 4096

/-- ENLAT of a power state in µs (Table 09-6). -/
def psEntry : Nat → Nat
  | 0 => 0
  | 1 => 20
  | 2 => 200
  | 3 => 2000
  | _ => 10000

/-- Identify Controller: what the spec states, over values that it leaves open. -/
def State.identifyCtrl (s : State) (c : Nat) : List Byte :=
  pagePut (Config.identify 1 c 0) ([(77, 1, 8), (78, 2, Config.cntlid c), (80, 4, 0x00020000), (256, 2, 0x000A), (259, 1, 3), (262, 1, 63), (263, 1, 4), (265, 1, 1),
    (328, 4, 7), (512, 1, 0x66), (513, 1, 0x44), (516, 4, s.nsLimit c), (520, 2, 0x0D), (525, 1, if s.ctrlFull c then 0 else 1)] ++
    (List.range 5).flatMap fun k => [(2048 + 32 * k, 2, psPower k), (2051 + 32 * k, 1, if 3 ≤ k then 2 else 0), (2052 + 32 * k, 4, psEntry k),
      (2056 + 32 * k, 4, psExit k)])

/-- Identify Namespace. -/
def identifyNs (c ns : Nat) (x : Option Ns) : List Byte :=
  match x with
  | none => List.replicate 4096 0
  | some n => pagePut (Config.identify 0 c ns) [(0, 8, n.size), (8, 8, n.size), (16, 8, n.size), (25, 1, 0), (26, 1, 0), (33, 1, 1), (128, 4, 12 * 65536)]

/-- Identify. -/
def State.nvIdentify (s : State) (c : Nat) (m : NvCmd) : State :=
  let x := s.ctrl c
  let ns := sqeNs m.sqe
  let page : Option (List Byte) := match cdw m.sqe 10 % 256 with
    | 0x00 => (match look x.nss ns with
      | some n => some (identifyNs c ns (if n.attached then some n else none))
      | none => if 1 ≤ ns ∧ ns ≤ s.nsLimit c then some (identifyNs c ns none) else none)
    | 0x01 => some (s.identifyCtrl c)
    | 0x02 => some (idPage ((x.nss.filter (·.2.attached)).map (·.1)) ns)
    | 0x03 => (look x.nss ns).map fun _ => cut (Config.identify 3 c ns) 0 4096
    | 0x10 => some (idPage (x.nss.map (·.1)) ns)
    | 0x11 => (look x.nss ns).map fun n => identifyNs c ns (some n)
    | 0x12 => (look x.nss ns).map fun n => ctrlPage (if n.attached then [Config.cntlid c] else [])
    | 0x13 => some (ctrlPage [Config.cntlid c])
    | _ => none
  match page with
  | none => s.nvEnd c m.queue m.cid (if [0x00, 0x03, 0x11, 0x12].contains (cdw m.sqe 10 % 256) then nvNamespace else nvField) 0
  | some b => if !s.prpOk c m.sqe 4096 then s.nvEnd c m.queue m.cid nvPrpOffset 0 else (s.prpWrite c m.sqe b).nvEnd c m.queue m.cid nvOk 0

/-- Sanitize Status: SPROG and the state of the last sanitize. -/
def NvRec.sanStatus (r : NvRec) : List Byte :=
  let st := if r.op = 0 ∨ r.op = 4 then 0 else if r.state = 1 then 2 else if r.state = 3 then 3 else if r.state = 2 then 1 else 0
  leBytes 2 (if st = 2 then r.sprog else 65535) ++ leBytes 2 st

/-- A temperature threshold of a controller is exceeded: the upper one by 0, the lower one by 1 (R213; log entry 49). -/
def NvCtrl.beyond (x : NvCtrl) (k temp : Nat) : Bool :=
  let t := lookD x.feats (0x04 + 256 * (16 * k)) (if k = 0 then Config.featureReset 4 else 0) % 65536
  if k = 0 then t ≤ temp else temp ≠ 0 && decide (temp ≤ t)

/-- A log page. -/
def State.logPage (s : State) (c lid : Nat) : Option (List Byte) :=
  let x := s.ctrl c
  match lid with
  | 0x01 => some (Config.logPage 0x01 x.errors)
  | 0x02 =>
    let b := Config.logPage 0x02 [[s.now, s.reg R.NVS_CNT_CMD_LO]]
    let warn := x.beyond 0 s.nvs.temp || x.beyond 1 s.nvs.temp
    some (pagePut b [(0, 1, setBits (fieldAt b 0 1) 1 1 (b2n warn)), (1, 2, s.nvs.temp)])
  | 0x04 => some (List.replicate 4096 0)
  | 0x05 => some (Config.logPage 0x05 [])
  | 0x81 => some (x.rec'.sanStatus ++ (cut (Config.logPage 0x81 [[x.rec'.op, x.rec'.state]]) 4 508))
  | 0xC0 => some (Config.logPage 0xC0 ([x.lost] :: x.deferred.map fun e => [e.nsid, e.lba, e.n, e.status, e.newel]))
  | 0xC1 => some (Config.logPage 0xC1 ((List.range 16).map fun k => [s.reg (R.NVS_BE k)]))
  | _ => none

/-- Get Log Page: with RAE clear it admits further events of the page. -/
def State.nvGetLog (s : State) (c : Nat) (m : NvCmd) : State :=
  let w := cdw m.sqe 10
  let n := 4 * (w / 65536 + 65536 * (cdw m.sqe 11 % 65536) + 1)
  match s.logPage c (w % 256) with
  | none => s.nvEnd c m.queue m.cid nvLogInvalid 0
  | some b =>
    if !s.prpOk c m.sqe n then s.nvEnd c m.queue m.cid nvPrpOffset 0
    else
      let s := s.prpWrite c m.sqe (cut b (cdw m.sqe 12 + 2 ^ 32 * cdw m.sqe 13) n)
      let s := if bitAt w 15 then s else s.updCtrl c fun x => { x with masked := x.masked.filter (·.2 != w % 256) }
      let s := s.nvEnd c m.queue m.cid nvOk 0
      State.aerSettle c (s.ctrl c).events.length s

/-- Features that a controller has (Table 09-2). -/
def State.featureOk (s : State) (c fid : Nat) : Bool := [0x01, 0x02, 0x04, 0x07, 0x08, 0x0B, 0x0C].contains fid || (fid == 0x06 && !s.ctrlFull c)

/-- Key of a feature: Temperature Threshold has one value for each sensor and kind. -/
def featureKey (fid w : Nat) : Nat :=
  let sel := if w / 65536 % 16 = 15 then 0 else w / 65536 % 16
  if fid = 0x04 then 0x04 + 256 * (16 * (w / 2 ^ 20 % 4) + sel) else fid

/-- Set Features; nothing is saveable. APST loads the controller's idle times, and Power Management chooses a state (R227). -/
def State.nvSetFeat (s : State) (c : Nat) (m : NvCmd) : State :=
  let fid := cdw m.sqe 10 % 256
  let w := cdw m.sqe 11
  let fin := fun (s : State) st dw => s.nvEnd c m.queue m.cid st dw
  if bitAt (cdw m.sqe 10) 31 then fin s nvNotSaveable 0
  else if !s.featureOk c fid then fin s nvField 0
  else
    let set := fun (s : State) => s.updCtrl c fun x => { x with feats := put x.feats (featureKey fid w) w }
    match fid with
    | 0x02 => if 4 < w % 32 then fin s nvField 0 else fin ((set s).psEnter c (w % 32)) nvOk 0
    | 0x07 => if w % 65536 = 65535 ∨ w / 65536 = 65535 then fin s nvField 0 else fin s nvOk ((s.ioqLimit c - 1) * 65537)
    | 0x0C => if !s.prpOk c m.sqe 256 then fin s nvPrpOffset 0 else fin ((set s).updCtrl c fun x => { x with apst := s.prpRead c m.sqe 256 }) nvOk 0
    | _ => fin (set s) nvOk 0

/-- A feature's value at a controller reset. -/
def State.featureDefault (s : State) (c fid : Nat) : Nat :=
  match fid with
  | 0x02 => 0
  | 0x06 => 1
  | 0x07 => (s.ioqLimit c - 1) * 65537
  | 0x0C => 1
  | _ => Config.featureReset fid

/-- The APST table in force. -/
def State.apstTable (s : State) (c : Nat) : List Byte :=
  if (s.ctrl c).apst.isEmpty then cut ((List.range 4).flatMap fun k => leBytes 8 (8 * (k + 1) + 256 * s.psIdle c (k + 1))) 0 256 else cut (s.ctrl c).apst 0 256

/-- Get Features. -/
def State.nvGetFeat (s : State) (c : Nat) (m : NvCmd) : State :=
  let fid := cdw m.sqe 10 % 256
  let sel := bits (cdw m.sqe 10) 10 8
  let dflt := s.featureDefault c fid
  let now := if fid = 0x02 then (s.ctrl c).ps else if fid = 0x07 then dflt else lookD (s.ctrl c).feats (featureKey fid (cdw m.sqe 11)) dflt
  if !s.featureOk c fid ∨ 3 < sel then s.nvEnd c m.queue m.cid nvField 0
  else if sel = 3 then s.nvEnd c m.queue m.cid nvOk 4
  else
    let s := if fid = 0x0C then s.prpWrite c m.sqe (s.apstTable c) else s
    s.nvEnd c m.queue m.cid nvOk (if sel = 0 then now else dflt)

/-- Asynchronous Event Request: at most four are outstanding. -/
def State.nvAer (s : State) (c : Nat) (m : NvCmd) : State :=
  let x := s.ctrl c
  if 4 ≤ x.aers.length then s.nvEnd c m.queue m.cid nvAerLimit 0
  else
    let s := s.setCtrl c { x with cmds := x.cmds.filter fun y => !(y.queue == m.queue && y.cid == m.cid), aers := x.aers ++ [m.cid] }
    (State.aerSettle c x.events.length s).nvIdle c

/-! ### Namespaces (R214, R215) -/

/-- Namespace Management Create: blocks from the pool in extent order, and a new key; which free NSID is the device's choice (log
entry 13). -/
def State.nvNsCreate (s : State) (c : Nat) (m : NvCmd) : State :=
  let b := s.prpRead c m.sqe 384
  let n := fieldAt b 0 8
  let gaps := s.poolGaps c
  let x := s.ctrl c
  let fin := fun (s : State) st dw => s.nvEnd c m.queue m.cid st dw
  if fieldAt b 26 1 % 16 ≠ 0 then fin s nvFormatInvalid 0
  else if n = 0 then fin s nvField 0
  else if segBlocks gaps < n then fin s nvCapacity 0
  else
    let (w, t) := s.drawWord
    match pickFree 1 (s.nsLimit c) (s.nsLimit c) w (fun k => (look x.nss k).isNone) with
    | none => fin s nvNoNsid 0
    | some k =>
      let ns : Ns := ⟨takeBlocks gaps n, false, t.draws, false⟩
      fin { t.setCtrl c { x with nss := put x.nss k ns } with draws := t.draws + 1 } nvOk k

/-- Blocks of namespaces leave the cache, dirty and FAILED ones too; a Flush has nothing left to wait for in them, and a read in flight brings
none of them back. -/
def State.cacheDiscard (s : State) (c ns : Nat) : State :=
  let all := ns == 0xFFFFFFFF
  let mine (b : BeCmd) : Bool := b.ctrl == c && (all || b.ns == ns)
  let left := (s.nvs.be.filter fun b => !(mine b && b.use == BeUse.destage)).map fun (b : BeCmd) => if mine b then { b with fill := false } else b
  let s := { s with nvs := { s.nvs with be := left } }
  (s.updCtrl c fun x => { x with cache := x.cache.filter fun b => !(all || b.ns == ns) }).flushGone c fun e => all || e.1 == ns

/-- One namespace deleted: its blocks go back to the pool, and are deallocated on the backend. -/
def State.nsDrop (s : State) (c ns : Nat) : State :=
  match look (s.ctrl c).nss ns with
  | none => s
  | some x =>
    let s := (s.cacheDiscard c ns).updCtrl c fun y => { y with nss := drop y.nss ns }
    x.segs.foldl (fun s g => s.beIssue c g.ext g.off g.n .zero 0 0 .free [] [] []) s

/-- Namespace Management Delete. -/
def State.nvNsDelete (s : State) (c : Nat) (m : NvCmd) : State :=
  let ns := sqeNs m.sqe
  let x := s.ctrl c
  if x.formats ns then s.nvEnd c m.queue m.cid nvFormatting 0
  else if ns = 0xFFFFFFFF then (x.nss.foldl (fun s e => s.nsDrop c e.1) s).nvEnd c m.queue m.cid nvOk 0
  else if (look x.nss ns).isNone then s.nvEnd c m.queue m.cid nvNamespace 0
  else (s.nsDrop c ns).nvEnd c m.queue m.cid nvOk 0

/-- Namespace Attachment: a namespace attaches only to its own controller. -/
def State.nvNsAttach (s : State) (c : Nat) (m : NvCmd) : State :=
  let b := s.prpRead c m.sqe 4096
  let sel := cdw m.sqe 10 % 16
  let fin := fun (s : State) st => s.nvEnd c m.queue m.cid st 0
  match look (s.ctrl c).nss (sqeNs m.sqe) with
  | none => fin s nvNamespace
  | some x =>
    if (s.ctrl c).formats (sqeNs m.sqe) then fin s nvFormatting
    else if 1 < sel then fin s nvField
    else if fieldAt b 0 2 ≠ 1 ∨ fieldAt b 2 2 ≠ Config.cntlid c % 65536 then fin s nvCtrlList
    else if sel = 0 ∧ x.attached then fin s nvAttached
    else if sel = 1 ∧ !x.attached then fin s nvNotAttached
    else fin (s.updCtrl c fun y => { y with nss := put y.nss (sqeNs m.sqe) { x with attached := decide (sel = 0) } }) nvOk

/-! ### Sanitize and Format (R229 to R233) -/

/-- An operation starts: the cache is discarded, and the record says that it runs (R229, R230). -/
def State.opStart (s : State) (c op ns : Nat) (d : Desc) (ses : Nat) (fmt : Option Nat) : State :=
  let s := s.cacheDiscard c ns
  let w := cdw d 10
  let passes := if op = 3 then (w / 16 + 15) % 16 else 0
  let s := s.updCtrl c fun x => { x with run := ⟨true, 0, none, s.up, ses, fmt⟩, rec' := { x.rec' with nsid := ns } }
  let total := segBlocks ((s.ctrl c).opSegs.map (·.2))
  let s := s.recWrite c fun r => { r with
    op := op, state := 1, passes := passes, pass := 0, keysSet := false, oipbp := decide (op = 3) && bitAt w 8, pattern := if op = 3 then cdw d 11 else 0,
    nsid := ns, progress := 0, total := total, slice := c }
  s.cmdCommit c 0 (sqeCid d)

/-- Sanitize: No-Deallocate After Sanitize is not supported; the command completes and the operation runs on (R229, Table 09-8). -/
def State.nvSanitize (s : State) (c : Nat) (m : NvCmd) (op : Nat) : State :=
  if (s.ctrl c).rec'.formatting then s.nvEnd c m.queue m.cid nvFormatting 0
  else if bitAt (cdw m.sqe 10) 9 then s.nvEnd c m.queue m.cid nvField 0
  else ((s.opStart c op 0xFFFFFFFF m.sqe 0 none).nvEnd c m.queue m.cid nvOk 0).opKick c

/-- Exit Failure Mode. -/
def State.nvSanExit (s : State) (c : Nat) (m : NvCmd) : State :=
  let s := if (s.ctrl c).rec'.sanFailed then s.recWrite c fun r => { r with state := 0 } else s
  s.nvEnd c m.queue m.cid nvOk 0

/-- Format NVM (R233): the command completes when the format ends (log entry 53). -/
def State.nvFormat (s : State) (c : Nat) (m : NvCmd) : State :=
  let w := cdw m.sqe 10
  let ns := sqeNs m.sqe
  let x := s.ctrl c
  let fin := fun st => s.nvEnd c m.queue m.cid st 0
  if ns ≠ 0xFFFFFFFF ∧ (look x.nss ns).isNone then fin nvNamespace
  else if x.rec'.formatting then fin nvFormatting
  else if w % 16 ≠ 0 ∨ bits w 13 12 ≠ 0 then fin nvFormatInvalid
  else if 2 < bits w 11 9 then fin nvField
  else (s.opStart c 4 ns m.sqe (bits w 11 9) (some m.cid)).opKick c

/-- Keys of the namespaces that an operation covers are replaced, and committed with the record (R229, R230). -/
def State.opKeys (s : State) (c : Nat) : State :=
  let l := ((s.ctrl c).nss.filter fun e => (s.ctrl c).rec'.nsid == 0xFFFFFFFF || e.1 == (s.ctrl c).rec'.nsid).map (·.1)
  let s := l.foldl (fun s k => { s.updCtrl c fun x => { x with nss := x.nss.map fun (e : Nat × Ns) => if e.1 = k then (e.1, { e.2 with key := s.draws }) else e } with
    draws := s.draws + 1 }) s
  s.recWrite c fun r => { r with keysSet := true }

/-- An operation ends: record, event, and the Format command that waits (R230, R232). -/
def State.opEnd (s : State) (c state : Nat) : State :=
  let fmt := (s.ctrl c).run.fmt
  let s := s.recWrite c fun r => { r with state := state }
  let s := (s.updCtrl c fun x => { x with run := NvOp.idle }).event F.NVS_STATUS_SANITIZE_DONE
  let s := { s with nvs := { s.nvs with be := s.nvs.be.filter fun b => !(b.ctrl == c && b.use == BeUse.op) } }
  let s := if (s.ctrl c).rec'.op = 4 then s else s.nvEvent c 6 1 0x81
  match fmt with
  | some cid => s.nvEnd c 0 cid nvOk 0
  | none => s

/-- A pass ends (R230): the record is written at its end and at the start of the next; after the last one the keys are replaced where the
operation replaces them, and the operation is complete. -/
def State.opPass (s : State) (c : Nat) : State :=
  let x := s.ctrl c
  if x.rec'.state ≠ 1 ∨ !x.run.active ∨ !s.ctrlServes c ∨ s.shedAt 2 ∨ (x.opWrites && x.run.progress < x.rec'.total) then s
  else
    let s := s.recWrite c fun r => { r with progress := r.total }
    if x.rec'.pass < x.rec'.passes then
      let s := s.recWrite c fun r => { r with pass := r.pass + 1, progress := 0 }
      (s.updCtrl c fun x => { x with run := { x.run with progress := 0 } }).opKick c
    else
      let keyed := x.rec'.op ≠ 4 ∨ x.run.ses ≠ 0
      (if keyed ∧ !x.rec'.keysSet then s.opKeys c else s).opEnd c 2

/-! ### Execution -/

/-- A command is executed (Table 09-2). -/
def State.nvExec (s : State) (c queue cid : Nat) : State :=
  match s.nvCmd c queue cid with
  | none => s
  | some m =>
    let s := s.updCmd c queue cid fun y => { y with phase := .run }
    let k := nvKind queue m.sqe
    let st := s.nvRefuse c k m.sqe
    if st = nvDeferred then (s.pendClear c (sqeNs m.sqe)).nvEnd c queue cid st 0
    else if st ≠ nvOk then s.nvEnd c queue cid st 0
    else match k with
      | .bad e => s.nvEnd c queue cid e 0
      | .deleteSq => s.nvDeleteSq c m
      | .createSq => s.nvCreateSq c m
      | .getLog => s.nvGetLog c m
      | .deleteCq => s.nvDeleteCq c m
      | .createCq => s.nvCreateCq c m
      | .identify => s.nvIdentify c m
      | .abort => s.nvEnd c queue cid nvOk 1
      | .setFeat => s.nvSetFeat c m
      | .getFeat => s.nvGetFeat c m
      | .aer => s.nvAer c m
      | .nsCreate => s.nvNsCreate c m
      | .nsDelete => s.nvNsDelete c m
      | .nsAttach => s.nvNsAttach c m
      | .format => s.nvFormat c m
      | .sanExit => s.nvSanExit c m
      | .sanBlock => s.nvSanitize c m 2
      | .sanOver => s.nvSanitize c m 3
      | .sanCrypto => s.nvSanitize c m 1
      | .flush => s.nvFlush c m
      | .write => s.nvWrite c m
      | .read => s.nvRead c m
      | .compare => s.nvRead c m
      | .zeroes => (s.nvIssue c queue cid (sqeNs m.sqe) (sqeLba m.sqe) (sqeBlocks m.sqe) .zero []).nvSettle c queue cid
      | .dsm => s.nvDsm c m

/-- Writes that wait for cache space are tried again (R217). -/
def State.nvSpace (s : State) (c : Nat) : State :=
  ((s.ctrl c).cmds.filter (·.phase == NvPhase.space)).foldl (fun s m => s.nvExec c m.queue m.cid) s

/-- A command runs; where it may have freed blocks of the cache, writes that wait for them are tried again. -/
def State.nvRun (s : State) (c queue cid : Nat) : State :=
  match s.nvCmd c queue cid with
  | none => s
  | some m =>
    let s := s.nvExec c queue cid
    if (nvKind queue m.sqe).frees then s.nvSpace c else s

/-- Units of a command are offered to the Coffer, and it runs when all are admitted (R234, R357). -/
def State.nvEnergy (c queue cid : Nat) : Nat → State → State
  | 0, s => s.nvRun c queue cid
  | n + 1, s =>
    match s.nvAdmit c with
    | (true, s) => State.nvEnergy c queue cid n s
    | (false, s) => s.updCmd c queue cid fun y => { y with phase := .energy, units := n + 1 }

/-- A fetched command starts. -/
def State.nvStart (s : State) (c queue cid : Nat) : State :=
  match s.nvCmd c queue cid with
  | none => s
  | some m =>
    let k := nvKind queue m.sqe
    if s.nvRefuse c k m.sqe ≠ nvOk ∨ !k.moves then s.nvRun c queue cid
    else State.nvEnergy c queue cid (ceilDiv (4096 * sqeBlocks m.sqe) 65536) s

/-- A controller fetches an entry of a queue (R211, R228, R234): its slice takes work, no stage holds new commands, its owner core runs. In a lower
power state the command waits for the exit latency. -/
def State.nvFetch (s : State) (c queue : Nat) (d : Desc) (want : NvKind → Bool) : State :=
  let x := s.ctrl c
  match look x.sqs queue with
  | none => s
  | some q =>
    match s.ring q.ring with
    | none => s
    | some r =>
      let k := nvKind queue d
      let any := match k with | .bad _ => true | _ => want k
      if !x.rdy || !x.en || q.closing.isSome || r.fi == r.pi || !any || !(s.slice c).takesWork || !s.ctrlServes c || s.hallPaused 1 || s.shedAt 4 ||
          !s.canDma (s.slice c).fn || x.cmds.any (fun m => m.queue == queue && m.cid == sqeCid d) then s
      else
        let s := s.setRing q.ring { r with fi := (r.fi + 1) % max 1 r.entries }
        let low := if x.entering.isSome then x.entering else if x.ps ≠ 0 then some x.ps else none
        let out := if x.exiting.isSome then x.exiting else low
        let m : NvCmd := ⟨queue, sqeCid d, d, if out.isSome then .exit else .run, 0, false, [], [], nvOk, s.up⟩
        let s := s.setCtrl c { x with cmds := x.cmds ++ [m], entering := none, exiting := out }
        if out.isSome then s else s.nvStart c queue (sqeCid d)

/-- The exit latency is over: PS0, and the commands that waited start (R228). -/
def State.nvWake (s : State) (c : Nat) : State :=
  let x := s.ctrl c
  if x.exiting.isNone then s
  else
    let s := s.setCtrl c { x with ps := 0, exiting := none }
    (x.cmds.filter (·.phase == NvPhase.exit)).foldl (fun s m => s.nvStart c m.queue m.cid) s

/-- Commands that wait for the Coffer are offered again at an epoch boundary (R357). -/
def State.nvEpoch (s : State) : State :=
  s.nvs.ctrls.foldl (fun s e => ((s.ctrl e.1).cmds.filter (·.phase == NvPhase.energy)).foldl (fun s m =>
    State.nvEnergy e.1 m.queue m.cid m.units s) s) s

/-! ### Backend outcomes (R218 to R220) -/

/-- The part of the pool that holds a block of a namespace. -/
def Ns.at' (x : Ns) (lba : Nat) : Option (Nat × Nat × Nat × Nat) := (segRuns x.segs 0 lba 1).head?

/-- A destage succeeds: blocks not written since are clean; Flushes, waiting writes and a power-state entry go on. -/
def State.destaged (s : State) (b : BeCmd) : State :=
  let c := b.ctrl
  let s := s.bump64 R.NVS_CNT_DESTAGE_LO R.NVS_CNT_DESTAGE_HI b.n
  let s := s.updCtrl c fun x => { x with
    cache := x.cache.map fun y =>
      if y.within b.ns b.nlba b.n then { y with busy := false, dirty := y.dirty && y.ver != b.vers.getD (y.lba - b.nlba) 0 } else y }
  (s.flushGone c fun e => e.1 == b.ns && b.nlba ≤ e.2.1 && e.2.1 < b.nlba + b.n && e.2.2 ≤ b.vers.getD (e.2.1 - b.nlba) 0).nvSpace c

/-- A destage that has failed at every try (R218): its blocks are FAILED, unless written since; a record, a pending error and an event. A Flush
that waits for one of the blocks ends with the pending error (log entry 52). -/
def State.destageFail (s : State) (b : BeCmd) (status : Nat) : State :=
  let c := b.ctrl
  let x := s.ctrl c
  let hit (y : NvBlk) : Bool := y.within b.ns b.nlba b.n && y.ver == b.vers.getD (y.lba - b.nlba) 0
  let full := decide (64 ≤ x.deferred.length)
  let s := s.setCtrl c { x with
    cache := x.cache.map fun y => if hit y then { y with busy := false, dirty := false, failed := true }
                                 else if y.within b.ns b.nlba b.n then { y with busy := false } else y,
    deferred := if full then x.deferred else x.deferred ++ [⟨b.ns, b.nlba, b.n, status, s.now⟩],
    lost := if full then min 65535 (x.lost + 1) else x.lost,
    nss := x.nss.map fun (e : Nat × Ns) => if e.1 = b.ns then (e.1, { e.2 with pend := true }) else e }
  let s := if full then s else s.bump F.NVS_CNT_DEFERRED
  let s := (s.event F.NVS_STATUS_DEFERRED).nvEvent c 7 0xC0 0xC0
  let hitFlush := (s.ctrl c).cmds.filter fun m => m.flush.any fun e => e.1 == b.ns && b.nlba ≤ e.2.1 && e.2.1 < b.nlba + b.n
  (hitFlush.foldl (fun s m => (s.pendClear c (sqeNs m.sqe)).nvEnd c m.queue m.cid nvDeferred 0) s).psSettle c

/-- Blocks that a backend read has brought, decrypted (R215), into the cache where they may still fill it. -/
def State.beFill (s : State) (b : BeCmd) (l : List (Nat × List Byte)) : State :=
  let cap := s.cacheCap b.ctrl
  if b.fill then s.updCtrl b.ctrl fun y => l.foldl (fun (y : NvCtrl) (e : Nat × List Byte) => y.putBlk cap b.ns e.1 e.2 false) y else s

/-- Blocks of a backend read, by namespace LBA and as plaintext. -/
def beBlocks (key : Nat) (b : BeCmd) (bs : List Byte) : List (Nat × List Byte) :=
  (blocksOfBytes bs b.n).zipIdx.map fun (e : List Byte × Nat) => (b.nlba + e.2, xtsPlain key (b.nlba + e.2) e.1)

/-- A backend command succeeds. Write Zeroes and Dataset Management have their commit point at the first one (Table 09-5). -/
def State.beDone (s : State) (b : BeCmd) (bs : List Byte) : State :=
  let s := s.beDrop b.id
  let s := if b.kind = .read then s.countXts ((blocksOfBytes bs b.n).filter fun x => !allZero x).length else s
  let c := b.ctrl
  match b.use with
  | .free =>
    if b.kind = .read then ((look (s.ctrl c).nss b.ns).map fun x => s.beFill b (beBlocks x.key b bs)).getD s else s.cacheTake c b.ns b.nlba b.n b.data
  | .op => (s.updCtrl c fun x => { x with run := { x.run with progress := x.run.progress + b.n, down := none } }).opKick c
  | .destage => s.destaged b
  | .cmd queue cid =>
    let s := match b.kind with
      | .read =>
        (match look (s.ctrl c).nss b.ns with
         | none => s.cmdFail c queue cid nvNamespace
         | some x =>
           let l := beBlocks x.key b bs
           (s.updCmd c queue cid fun m => { m with got := m.got ++ l }).beFill b l)
      | _ => (s.cmdCommit c queue cid).cacheTake c b.ns b.nlba b.n b.data
    s.nvSettle c queue cid

/-- A backend command has failed for good, with the backend's status and the host's (Table 09-3). -/
def State.beLost (s : State) (b : BeCmd) (status host : Nat) : State :=
  let s := s.beDrop b.id
  match b.use with
  | .free => s
  | .op => (s.updCtrl b.ctrl fun x => { x with run := { x.run with down := if x.run.down.isSome then x.run.down else some s.up } }).opKick b.ctrl
  | .destage => s.destageFail b status
  | .cmd queue cid => (s.cmdFail b.ctrl queue cid host).nvSettle b.ctrl queue cid

/-- Host status of a backend's error status (Table 09-3): Media and Data Integrity Errors pass on unchanged. -/
def hostStatus (status : Nat) : Nat := if status / 256 = 2 then status else nvInternal

/-- A try of a backend command fails: it is tried again, 1 + RETRIES times in all (R220). -/
def State.beRetry (s : State) (b : BeCmd) (status host : Nat) : State :=
  let s := s.setF (F.NVS_BE_LAST_STATUS b.ep) status
  if b.tries < 1 + s.getF F.NVS_BACKEND_CFG_RETRIES then s.beSend b else s.beLost b status host

/-- TIMEOUT_MS; values outside 100 to 60,000 are 60,000. -/
def State.beTimeoutMs (s : State) : Nat := let t := s.getF F.NVS_BACKEND_CFG_TIMEOUT_MS; if 100 ≤ t ∧ t ≤ 60000 then t else 60000

/-- The device destages dirty blocks in namespace LBA order: the first run that lies together, at most `count` blocks (R217). -/
def State.destage (s : State) (c count : Nat) : State :=
  let x := s.ctrl c
  let up (b : NvBlk) : Bool := match (look x.nss b.ns).bind (·.at' b.lba) with
    | some (e, _) => (s.ext c e).any fun t => s.epUp t.1
    | none => false
  let l := sortBy (fun (a b : NvBlk) => a.ns < b.ns || (a.ns == b.ns && a.lba < b.lba)) (x.cache.filter fun b => b.dirty && !b.busy)
  let bad := l.filter fun b => b.guard != nvGuard b.lba b.data
  if !bad.isEmpty then
    (s.setCtrl c { x with cache := x.cache.map fun b => if bad.contains b then { b with dirty := false, failed := true } else b }).flushGone c fun e =>
      bad.any fun b => b.ns == e.1 && b.lba == e.2.1
  else match l.find? up with
    | none => s
    | some b =>
      match (look x.nss b.ns).map fun n => (n, segRuns n.segs 0 b.lba (max 1 count)) with
      | some (n, (ext, off, k, _) :: _) =>
        let run := ((List.range k).map fun j => l.find? fun y => y.ns == b.ns && y.lba == b.lba + j).takeWhile Option.isSome |>.filterMap id
        let bs := run.flatMap (·.data)
        let s := s.setCtrl c { x with cache := x.cache.map fun y => if run.contains y then { y with busy := true } else y }
        s.beIssue c ext off run.length .write b.ns b.lba .destage (xtsBlocks n.key b.lba bs run.length) bs (run.map (·.ver))
      | _ => s

/-! ### Resets and restarts -/

/-- A controller reset (R226): fetching stops, no command completes, and RDY falls when what is in flight has ended; namespaces, dirty and FAILED
blocks, logs, pending errors and a running sanitize or format stay. -/
def State.nvReset (s : State) (c : Nat) : State :=
  let x := s.ctrl c
  if !x.en then s
  else
    let gone := x.cqs.map (·.2) ++ x.sqs.map (·.2.ring)
    { s with rings := s.rings.filter fun e => !gone.contains e.1 }.setCtrl c { x with
      cc := x.cc / 2 * 2, en := false, sqs := [], cqs := [], wait := [], cmds := [], feats := [], apst := [], aers := [], events := [], masked := [],
      ps := 0, entering := none, exiting := none, run := { x.run with fmt := none } }

/-- RDY has not yet fallen after a controller reset. -/
def State.nvResetting (s : State) (c : Nat) : Bool := (s.ctrl c).rdy && !(s.ctrl c).en

/-- A backend command of a controller serves a host command. -/
def State.beHost (s : State) (c : Nat) : Bool :=
  s.nvs.be.any fun b => b.ctrl == c && (match b.use with | .cmd _ _ => true | _ => false)

/-- The 50 V stage begins to pause the passes of sanitize and format. -/
def State.opPause (s : State) : State := { s with nvs := { s.nvs with paused := some s.up } }

/-- The 50 V stage is left: the time since it began does not count as time in which a backend was unavailable (R232). -/
def State.opUnpause (s : State) : State :=
  match s.nvs.paused with
  | none => s
  | some t =>
    let later (d : Nat) : Nat := if d ≤ t then d + (s.up - t) else s.up
    let l := s.nvs.ctrls.map fun (e : Nat × NvCtrl) => (e.1, { e.2 with run := { e.2.run with down := e.2.run.down.map later } })
    { s with nvs := { s.nvs with ctrls := l, paused := none } }

/-- A reading of the module sensor in °C, signed: a controller whose threshold it passes sends an event, where Asynchronous Event Configuration
asks for it (R213; log entry 49). -/
def State.nvTemp (s : State) (celsius : Byte) : State :=
  let old := s.nvs.temp
  let t := (celsius.toInt + 273).toNat
  let s := { s with nvs := { s.nvs with temp := t } }
  (s.nvs.ctrls.filter fun e => e.2.rdy && e.2.en && bitAt (lookD e.2.feats 0x0B (Config.featureReset 0x0B)) 1 &&
    (e.2.beyond 0 t && !e.2.beyond 0 old || e.2.beyond 1 t && !e.2.beyond 1 old)).foldl (fun s e => s.nvEvent e.1 1 1 0x02) s

/-- The controller has reached the operation boundary of a freeze (R234): no command is incomplete, and no block is dirty. -/
def State.nvQuiet (s : State) (c : Nat) : Bool := (s.ctrl c).cmds.isEmpty && ((s.ctrl c).dirtyOf 0xFFFFFFFF).isEmpty

/-- A backend command serves no command that still stands: one of a deleted namespace, or of a command that has ended without it. -/
def State.beOrphan (s : State) (b : BeCmd) : Bool :=
  match b.use with
  | .free => true
  | .cmd queue cid => (s.nvCmd b.ctrl queue cid).isNone
  | _ => false

/-- The owner core has restarted (R323, R234, Table 14-2): commands run again from their start, a sanitize or format from its record, and what a deleted
namespace or a controller reset has left at a backend is issued again. -/
def State.nvRestart (s : State) (c : Nat) : State :=
  let left := s.nvs.be.filter fun b => b.ctrl == c && s.beOrphan b
  let s := { s with nvs := { s.nvs with be := s.nvs.be.filter fun b => b.ctrl != c || s.beOrphan b } }
  let s := left.foldl (fun (s : State) (b : BeCmd) => s.beSend { b with tries := 0 }) s
  let s := s.updCtrl c fun x => { x with
    cache := x.cache.map fun b => { b with dirty := b.dirty || b.busy, busy := false },
    cmds := x.cmds.map fun m => { m with got := [], fail := nvOk },
    run := { x.run with progress := if x.rec'.state = 1 then x.rec'.progress else 0, down := none } }
  let again := (s.ctrl c).cmds.filter fun m => m.phase == NvPhase.run &&
    (match nvKind m.queue m.sqe with | .flush | .format | .deleteSq => false | _ => true)
  (again.foldl (fun s m => s.nvRun c m.queue m.cid) s).opKick c

/-- What survives a cold or warm reset (R217, R230, Table 16-8): namespaces, with their keys in NOR, and the record. -/
def State.nvSurvive (s : State) : Nvs :=
  { ctrls := s.nvs.ctrls.map fun (e : Nat × NvCtrl) =>
      (e.1, { NvCtrl.fresh e.1 with nss := e.2.nss.map fun (n : Nat × Ns) => (n.1, { n.2 with pend := false }), rec' := s.recLoad e.1 }),
    be := [], next := 1, nor := s.nvs.nor, paused := none, temp := 0 }

/-- A record copy fails its CRC (Table 09-11). -/
def State.recBad (s : State) : Bool := s.nvs.nor.any fun e => (NvRec.parse e.2).isNone

end Sys2Proof.Machine
end

