-- ==== Sys2Proof/Machine/CipOps.lean ====
section
/-! DEFINITION. The cipher engine's work on frames: security associations and their numbers (R240 to R242), ESP (R243, R244), MACsec (R245), and
the SA cache (R247). AES-GCM itself is in a standard outside the spec (log entry 15), as are the layouts of the IP headers, of ESP and of the
SecTAG (log entry 44). -/

namespace Sys2Proof.Machine

/-- Cipher status codes (Table 10-3). -/
def stSaInvalid : Nat := 0x90
def stSaExhausted : Nat := 0x91
def stCipherLength : Nat := 0x92
def stCipherFrame : Nat := 0x93

/-! ### SA entries (Table 10-2) -/

/-- KIND. -/
def Sa.kind (a : Sa) : Nat := fieldAt a.entry 0 1 / 16
/-- EXT. -/
def Sa.ext (a : Sa) : Bool := bitAt (fieldAt a.entry 1 1) 6
/-- TUNNEL. -/
def Sa.tunnel (a : Sa) : Bool := bitAt (fieldAt a.entry 1 1) 5
/-- OUTER_V6. -/
def Sa.outerV6 (a : Sa) : Bool := bitAt (fieldAt a.entry 1 1) 4
/-- SC. -/
def Sa.sc (a : Sa) : Bool := bitAt (fieldAt a.entry 1 1) 3
/-- REPLAY_EN. -/
def Sa.replay (a : Sa) : Bool := bitAt (fieldAt a.entry 1 1) 2
/-- AN. -/
def Sa.an (a : Sa) : Nat := fieldAt a.entry 1 1 % 4
/-- SLICE. -/
def Sa.slice (a : Sa) : Nat := fieldAt a.entry 2 2
/-- SPI_SSCI. -/
def Sa.spi (a : Sa) : Nat := fieldAt a.entry 4 4
/-- SOFT_PN. -/
def Sa.soft (a : Sa) : Nat := fieldAt a.entry 16 8
/-- SCI, as on the wire. -/
def Sa.sci (a : Sa) : List Byte := cut a.entry 24 8
/-- WINDOW. -/
def Sa.window (a : Sa) : Nat := fieldAt a.entry 44 2
/-- NET_PORT. -/
def Sa.port (a : Sa) : Nat := fieldAt a.entry 46 1
/-- The AES key. -/
def Sa.key (a : Sa) : List Byte := cut a.entry 48 (if bitAt (fieldAt a.entry 1 1) 7 then 32 else 16)
/-- Last usable number (R242). -/
def Sa.last (a : Sa) : Nat := if a.ext then 2 ^ 64 - 1 else 2 ^ 32 - 1

/-- An SA, where the index is not free. -/
def State.sa (s : State) (i : Nat) : Option Sa := look s.cip.sas i

/-- An SA set. -/
def State.setSa (s : State) (i : Nat) (a : Sa) : State := { s with cip := { s.cip with sas := put s.cip.sas i a } }

/-- SAs that the SA cache holds (R240). -/
def saSlots : Nat := 8192

/-- An SA used now, and in the cache; a full cache gives up the ESP SA used longest ago (R247). -/
def State.saUse (s : State) (i : Nat) : State :=
  let held := s.cip.sas.filter fun e => e.2.cached
  let out : Option Nat := if held.length < saSlots ∨ held.any (·.1 == i) then none else
    ((sortBy (fun (a b : Nat × Sa) => decide (a.2.lastUse < b.2.lastUse)) (held.filter fun e => e.2.kind < 3)).head?).map (·.1)
  let t := s.cip.useClock + 1
  { s with cip := { s.cip with
      useClock := t,
      sas := s.cip.sas.map fun (e : Nat × Sa) =>
        if e.1 = i then (e.1, { e.2 with cached := true, lastUse := t }) else if some e.1 = out then (e.1, { e.2 with cached := false }) else e } }

/-- An ESP SA is absent from the SA cache (R247). -/
def State.saAbsent (s : State) (i : Nat) : Bool :=
  match s.sa i with
  | some a => !a.cached && a.st != 3 && a.kind < 3
  | none => false

/-- Blocks that a frame costs are counted: one for every 16 bytes encrypted, or part, and one for the tag (R237). -/
def State.countBlocks (s : State) (n : Nat) : State := s.bump64 R.CIP_CNT_BLOCKS_LO R.CIP_CNT_BLOCKS_HI (ceilDiv n 16 + 1)

/-- An outbound SA gives its next number (R242); `none` where it is EXHAUSTED. -/
def State.takeNumber (s : State) (i : Nat) (a : Sa) : Option Nat × State :=
  if a.st = 2 then (none, s.bump F.CIP_CNT_TX_EXHAUST)
  else
    let s := s.setSa i { a with pn := a.pn + 1, st := if a.pn = a.last then 2 else a.st }
    let s := if a.pn = a.last then s.event F.CIP_STATUS_SA_EXHAUSTED else s
    let s := if a.soft ≠ 0 ∧ a.pn = a.soft then s.event F.CIP_STATUS_SA_SOFT else s
    (some a.pn, s)

/-- The SA by which a transmitted frame is protected, or the status of one that cannot be (R241). -/
def State.txSa (s : State) (i kind owner : Nat) : Nat × Option Sa :=
  match s.sa i with
  | none => (stSaInvalid, none)
  | some a =>
    if a.st = 3 ∨ a.kind ≠ kind then (stSaInvalid, none)
    else if kind = 1 ∧ a.slice ≠ owner ∧ !(a.slice = 0xFFFF ∧ 256 ≤ owner) then (stRights, none)
    else (stOk, some a)

/-! ### IP headers -/

/-- Sum of the 16-bit words of a string, folded to 16 bits. -/
def sum16 (bs : List Byte) : Nat :=
  let t := (List.range (ceilDiv bs.length 2)).foldl (fun n k => n + beNat (cut bs (2 * k) 2)) 0
  let t := t % 65536 + t / 65536
  t % 65536 + t / 65536

/-- Header checksum of an IPv4 header whose checksum field is taken as 0. -/
def ipCsum (h : List Byte) : Nat := 65535 - sum16 (h.take 10 ++ [0, 0] ++ h.drop 12)

/-- n bytes put into a string at an offset. -/
def patch (bs : List Byte) (off : Nat) (x : List Byte) : List Byte := bs.take off ++ x ++ bs.drop (off + x.length)

/-- An IPv4 header with its total length, and its checksum computed. -/
def ip4Fix (h : List Byte) (total : Nat) : List Byte :=
  let h := patch h 2 (beBytes 2 total)
  patch h 10 (beBytes 2 (ipCsum h))

/-- Length of an IPv4 header. -/
def ip4Len (h : List Byte) : Nat := 4 * (fieldAt h 0 1 % 16)

/-- IPv6 extension headers that stand ahead of ESP (R243): end of the chain, and the offset of the field that names what follows. -/
def ip6Chain (ip : List Byte) : Nat → Nat → Nat → Nat × Nat
  | 0, off, nhOff => (off, nhOff)
  | k + 1, off, nhOff =>
    if [0, 43, 60].contains (fieldAt ip nhOff 1) then ip6Chain ip k (off + 8 * (fieldAt ip (off + 1) 1 + 1)) off else (off, nhOff)

/-- Where the Ethernet header with its tag ends, and what a frame to protect carries: 4, 6 or 0 for neither or for a second tag. -/
def l2Of (bs : List Byte) : Nat × Nat :=
  let tag := etherType bs 12 == 0x8100
  let off := if tag then 18 else 14
  let t := etherType bs (off - 2)
  (off, if t = 0x0800 then 4 else if t = 0x86DD then 6 else 0)

/-! ### ESP (R243, R244) -/

/-- Payload, padding and trailer (R243, step 2). -/
def espTrailer (bs : List Byte) (next : Nat) : List Byte :=
  let pad := (4 - (bs.length + 2) % 4) % 4
  bs ++ ((List.range pad).map fun k => BitVec.ofNat 8 (k + 1)) ++ [BitVec.ofNat 8 pad, BitVec.ofNat 8 next]

/-- Additional data of an ESP packet: SPI and sequence number, 64 bits of it with ESN. -/
def Sa.espAad (a : Sa) (pn : Nat) : List Byte := beBytes 4 a.spi ++ beBytes (if a.ext then 8 else 4) pn

/-- ESP header, IV, ciphertext and ICV of a payload (R243, step 3). -/
def Sa.espBody (a : Sa) (pn : Nat) (pay : List Byte) : List Byte :=
  let iv := beBytes 8 pn
  beBytes 4 a.spi ++ beBytes 4 pn ++ iv ++ cut (gcmSeal a.key (cut a.entry 32 4 ++ iv) (a.espAad pn) pay) 0 (pay.length + 16)

/-- What a plaintext frame becomes, its payload still open: the bytes ahead of the ESP header, the payload with its trailer, and whether IPv6
stands ahead. Tunnel mode takes two open values for the outer header: identification and flow label (log entry 44). -/
def Sa.espParts (a : Sa) (bs : List Byte) (open1 : Nat) : Option (List Byte × Nat × List Byte) :=
  let (l2, v) := l2Of bs
  let ip := bs.drop l2
  if v = 0 then none
  else
    let len := if v = 4 then min ip.length (beNat (cut ip 2 2)) else min ip.length (40 + beNat (cut ip 4 2))
    let ip := ip.take len
    if a.tunnel then
      let inner := if v = 4 then 4 else 41
      let ecn := if v = 4 then fieldAt ip 1 1 % 4 else beNat (cut ip 0 2) / 16 % 4
      let tc := fieldAt a.entry 113 1 / 4 * 4 + ecn
      let pay := espTrailer ip inner
      let eth := patch (bs.take l2) (l2 - 2) (beBytes 2 (if a.outerV6 then 0x86DD else 0x0800))
      if a.outerV6 then
        some (eth ++ beBytes 4 (6 * 2 ^ 28 + tc * 2 ^ 20 + open1 % 2 ^ 20) ++ beBytes 2 (pay.length + 32) ++ [50, BitVec.ofNat 8 (fieldAt a.entry 112 1)] ++
          cut a.entry 80 16 ++ cut a.entry 96 16, l2, pay)
      else
        let h : List Byte := [0x45, BitVec.ofNat 8 tc] ++ beBytes 2 0 ++ beBytes 2 open1 ++ [0, 0, BitVec.ofNat 8 (fieldAt a.entry 112 1), 50, 0, 0] ++
          cut a.entry 80 4 ++ cut a.entry 96 4
        some (eth ++ ip4Fix h (20 + pay.length + 32), l2, pay)
    else if v = 4 then
      let n := ip4Len ip
      let pay := espTrailer (ip.drop n) (fieldAt ip 9 1)
      some (bs.take l2 ++ ip4Fix (patch (ip.take n) 9 [50]) (n + pay.length + 32), l2, pay)
    else
      let (n, nh) := ip6Chain ip 8 40 6
      let pay := espTrailer (ip.drop n) (fieldAt ip nh 1)
      some (bs.take l2 ++ patch (patch (ip.take n) nh [50]) 4 (beBytes 2 (n - 40 + pay.length + 32)), l2, pay)

/-- Bytes, without FCS, of a frame once ESP has protected it. -/
def espLen (p : List Byte × Nat × List Byte) : Nat := p.1.length + p.2.2.length + 32

/-- The number that a received low half stands for, with the high half inferred (RFC 4303, Appendix A). -/
def Sa.infer (a : Sa) (low : Nat) : Nat :=
  if !a.ext then low
  else
    let hi := a.pn / 2 ^ 32
    let tl := a.pn % 2 ^ 32
    let w := max 1 a.window
    if w - 1 ≤ tl then (if tl - (w - 1) ≤ low then hi else hi + 1) * 2 ^ 32 + low
    else (if tl + 2 ^ 32 - (w - 1) ≤ low then hi - 1 else hi) * 2 ^ 32 + low

/-- The replay check (R244, R245): inside the window and not seen, or above it. -/
def Sa.fresh (a : Sa) (n : Nat) : Bool := !a.replay || a.pn < n || (a.pn - n < a.window && !a.seen.contains n)

/-- The replay window after an accepted number. -/
def Sa.accept (a : Sa) (n : Nat) : Sa :=
  let top := max a.pn n
  { a with pn := top, seen := ((n :: a.seen).filter fun x => top < x + a.window).dedup }

/-- The parts of a received ESP packet that the parser found: the end of the Ethernet header and tag, the offset of the IP header ahead of
ESP, and the offset of ESP. -/
structure EspAt where
  ip : Nat
  esp : Nat
  deriving DecidableEq, Repr

/-- The form of a decrypted frame (R244). -/
def Sa.espOpen (a : Sa) (bs : List Byte) (x : EspAt) (pay : List Byte) : List Byte :=
  let next := fieldAt pay (pay.length - 1) 1
  let body := pay.take (pay.length - 2 - fieldAt pay (pay.length - 2) 1)
  let v4 := fieldAt bs x.ip 1 / 16 == 4
  if a.tunnel then patch (bs.take x.ip) (x.ip - 2) (beBytes 2 (if next = 41 then 0x86DD else 0x0800)) ++ body
  else
    let ip := (bs.take x.esp).drop x.ip
    if v4 then bs.take x.ip ++ ip4Fix (patch ip 9 [BitVec.ofNat 8 next]) (ip.length + body.length) ++ body
    else
      let nh := (ip6Chain ip 8 40 6).2
      bs.take x.ip ++ patch (patch ip nh [BitVec.ofNat 8 next]) 4 (beBytes 2 (ip.length - 40 + body.length)) ++ body

/-- A received ESP packet checked against its SA, in the order of R244: the frame as decrypted, or a drop counted by the failed check. -/
def State.espIn (s : State) (i : Nat) (bs : List Byte) (x : Option EspAt) (owner : Option Nat) : Option (List Byte) × State :=
  match s.sa i, x with
  | some a, some x =>
    let esp := bs.drop x.esp
    if a.st = 3 ∨ a.kind ≠ 2 ∨ beNat (cut esp 0 4) ≠ a.spi ∨ owner.any (fun o => a.slice != o && a.slice != 0xFFFF) ∨ esp.length < 34 then
      (none, s.bump F.CIP_CNT_RX_NOSA)
    else
      let n := a.infer (beNat (cut esp 4 4))
      if !a.fresh n then (none, s.bump F.CIP_CNT_RX_REPLAY)
      else
        let s := s.countBlocks (esp.length - 32)
        match gcmOpen a.key (cut a.entry 32 4 ++ cut esp 8 8) (a.espAad n) (esp.drop 16) with
        | none => (none, s.bump F.CIP_CNT_RX_AUTH)
        | some pay => (some (a.espOpen bs x (cut pay 0 (esp.length - 32))), s.setSa i (a.accept n))
  | _, _ => (none, s.bump F.CIP_CNT_RX_NOSA)

/-! ### MACsec (R245) -/

/-- Nonce of a MACsec frame: SCI and number, or with XPN the salt combined with SSCI and the 64-bit number. -/
def Sa.macNonce (a : Sa) (pn : Nat) : List Byte :=
  if a.ext then (cut a.entry 32 12).zipWith (· ^^^ ·) (beBytes 4 a.spi ++ beBytes 8 pn) else a.sci ++ beBytes 4 pn

/-- SecTAG of a transmitted frame with n bytes of secure data. -/
def Sa.secTag (a : Sa) (pn n : Nat) : List Byte :=
  beBytes 2 0x88E5 ++ [BitVec.ofNat 8 (12 + a.an + (if a.sc then 32 else 0)), BitVec.ofNat 8 (if n < 48 then n else 0)] ++ beBytes 4 pn ++
    (if a.sc then a.sci else [])

/-- A frame protected by MACsec. -/
def Sa.macSeal (a : Sa) (pn : Nat) (bs : List Byte) : List Byte :=
  let pay := bs.drop 12
  let tag := a.secTag pn pay.length
  let aad := bs.take 12 ++ tag
  aad ++ cut (gcmSeal a.key (a.macNonce pn) aad pay) 0 (pay.length + 16)

/-- The receive SA of a frame by port, SCI and AN. -/
def State.macSa (s : State) (port an : Nat) (sci : List Byte) : Option (Nat × Sa) :=
  s.cip.sas.find? fun e => e.2.kind == 4 && e.2.st != 3 && e.2.port == port && e.2.an == an && e.2.sci == sci

/-- A received frame on a port with RX_EN (R245): as it goes to the parser, or none where it is dropped. -/
def State.macIn (s : State) (port : Nat) (bs : List Byte) : Option (List Byte) × State :=
  if s.getF (F.CIP_MACSEC_RX_EN port) = 0 then (some bs, s)
  else if etherType bs 12 ≠ 0x88E5 then
    if s.getF (F.CIP_MACSEC_STRICT port) = 1 ∧ !isEapol bs then (none, s.bump F.CIP_CNT_RX_UNPROT) else (some bs, s)
  else
    let tci := fieldAt bs 14 1
    let sc := bitAt tci 5
    let hd := if sc then 28 else 20
    match s.macSa port (tci % 4) (if sc then cut bs 20 8 else cut bs 6 6 ++ [0, 1]) with
    | none => (none, s.bump F.CIP_CNT_RX_NOSA)
    | some (i, a) =>
      let n := a.infer (beNat (cut bs 16 4))
      if !a.fresh n then (none, s.bump F.CIP_CNT_RX_REPLAY)
      else
        let s := s.countBlocks (bs.length - hd - 16)
        match gcmOpen a.key (a.macNonce n) (bs.take hd) (bs.drop hd) with
        | none => (none, s.bump F.CIP_CNT_RX_AUTH)
        | some pay => (some (bs.take 12 ++ cut pay 0 (bs.length - hd - 16)), s.setSa i (a.accept n))

/-- MACsec on a frame or message that leaves a port (R245): the number that it takes where it is protected, or the status of one that is not
sent. -/
def State.macOut (s : State) (port : Nat) (eapol : Bool) (n : Nat) : (Nat × Option (Sa × Nat)) × State :=
  if s.getF (F.CIP_MACSEC_TX_EN port) = 0 ∨ eapol then ((stOk, none), s)
  else
    let i := s.getF (F.CIP_MACSEC_TX_SA port)
    match s.txSa i 3 0xFFFF with
    | (st, none) => ((st, none), s)
    | (_, some a) =>
      match s.takeNumber i a with
      | (none, s) => ((stSaExhausted, none), s)
      | (some pn, s) => ((stOk, some (a, pn)), s.countBlocks n)

/-! ### Holding buffers (R247) -/

/-- Items of the holding buffer of a port and direction: 0 receive, 1 transmit. -/
def State.holding (s : State) (port dir : Nat) : List HoldItem := lookD s.cip.hold (2 * port + dir) []

/-- A holding buffer set. -/
def State.setHolding (s : State) (port dir : Nat) (l : List HoldItem) : State :=
  { s with cip := { s.cip with hold := if l.isEmpty then drop s.cip.hold (2 * port + dir) else put s.cip.hold (2 * port + dir) l } }

/-- Bytes of an item. -/
def HoldItem.bytes : HoldItem → Nat
  | .rx f => f.bytes.length + 4
  | .esp f _ => f.bytes.length + 4
  | .tx _ f => f.data.length + f.len + 4

/-- An item joins a holding buffer of 1 MiB; `none` where it finds it full. -/
def State.holdPut (s : State) (port dir : Nat) (x : HoldItem) : Option State :=
  let l := s.holding port dir
  if 2 ^ 20 < (l.foldl (fun n y => n + y.bytes) 0) + x.bytes then none else some (s.setHolding port dir (l ++ [x]))

end Sys2Proof.Machine
end

