-- ==== Sys2Proof/Machine/GalOps.lean ====
section
/-! DEFINITION. The Gallery: streams in memory (R50, R74 to R76), chunks and what they compute (R77, R78, R83 to R88), program slots (R91),
hand-out (R92 to R95), and how commands and steps end (R79 to R82). -/

namespace Sys2Proof.Machine

/-- Gallery status codes (Table 04-8). -/
def stDescInvalid : Nat := 0x40
def stProgAbsent : Nat := 0x41
def stProgInvalid : Nat := 0x42
def stStoreFull : Nat := 0x43
def stStreamFault : Nat := 0x44
def stNoCluster : Nat := 0x45

/-! ### Elements in memory -/

/-- Bytes read for an element, and the bit that it starts at (R50). -/
def eltBits (f : Fmt) (i : Nat) : Nat × Nat :=
  match f with
  | .mxe3m2 | .mxe2m3 => (3, 6 * (i % 4))
  | .mxfp4 => (1, 4 * (i % 2))
  | f => (f.bits / 8, 0)

/-- Bits of element i (R50). -/
def Strm.raw (st : Strm) (m : Mem) (i : Nat) : Nat :=
  let (n, b) := eltBits st.fmt i
  leNat (m.read (st.space.at (st.addr + eltOff st.fmt i)) n) / 2 ^ b % 2 ^ st.fmt.bits

/-- The scale byte of element i's block (R50). -/
def Strm.scaleAt (st : Strm) (m : Mem) (i : Nat) : Nat := (m.get (st.scaleSpace.at (st.scale + i / 32))).toNat

/-- The exact value of element i (R48, R49, R51). -/
def Strm.val (st : Strm) (m : Mem) (i : Nat) : Val :=
  if st.fmt.isMx then mxVal st.fmt (st.scaleAt m i) (st.raw m i) else elemVal st.fmt (st.raw m i)

/-- Element i written (R50). -/
def Strm.setRaw (st : Strm) (m : Mem) (i x : Nat) : Mem :=
  let (n, b) := eltBits st.fmt i
  let a := st.space.at (st.addr + eltOff st.fmt i)
  let old := leNat (m.read a n)
  m.write a (leBytes n (setBits old (b + st.fmt.bits - 1) b x))

/-- A block of MX elements from element i written with its scale (R50, R58). -/
def Strm.setBlock (st : Strm) (m : Mem) (i scale : Nat) (xs : List Nat) : Mem :=
  (xs.zipIdx.foldl (fun m e => st.setRaw m (i + e.2) e.1) m).set (st.scaleSpace.at (st.scale + i / 32)) (BitVec.ofNat 8 scale)

/-- Address of record i of a group, or of several consecutive groups (R76, R106). -/
def Strm.recAddr (st : Strm) (i : Nat) : Nat :=
  if st.per = 0 then st.addr + 64 + recordBytes st.fmt * i else st.addr + i / st.per * st.gap + 64 + recordBytes st.fmt * (i % st.per)

/-- The accumulator record of element i (R76). -/
def Strm.acc (st : Strm) (m : Mem) (i : Nat) : Accu :=
  Accu.ofBytes st.fmt (m.read (st.space.at (st.recAddr i)) (recordBytes st.fmt))

/-- Bytes that elements from a, n of them, take of a stream: space, address and length; scales included, and a group's header with its
first record (R50, R76). -/
def Strm.spans (st : Strm) (a n : Nat) : List (Space × Nat × Nat) :=
  if st.kind = 1 then
    let r := recordBytes st.fmt
    if st.per = 0 then [(st.space, if a = 0 then st.addr else st.addr + 64 + r * a, if a = 0 then 64 + r * n else r * n)]
    else
      (List.range' (a / st.per) (if n = 0 then 0 else (a + n - 1) / st.per + 1 - a / st.per)).map fun g =>
        let first := max a (g * st.per)
        let k := min (a + n) ((g + 1) * st.per) - first
        if first = g * st.per then (st.space, st.addr + g * st.gap, 64 + r * k) else (st.space, st.recAddr first, r * k)
  else if n = 0 then []
  else
    let last := a + n - 1
    (st.space, st.addr + eltOff st.fmt a, eltOff st.fmt last + (eltBits st.fmt last).1 - eltOff st.fmt a) ::
      (if st.fmt.isMx then [(st.scaleSpace, st.scale + a / 32, last / 32 + 1 - a / 32)] else [])

/-- The stream is read: IN or INOUT. -/
def Strm.reads (st : Strm) : Bool := st.dir == 0 || st.dir == 2

/-- The stream is written: OUT or INOUT. -/
def Strm.writes (st : Strm) : Bool := st.dir == 1 || st.dir == 2

/-! ### What a chunk computes -/

/-- The conversion control byte, where its check has passed. -/
def ctrlOf (b : Nat) : Ctrl := (Ctrl.ofByte b).getD ⟨.fp32, .nearest, false⟩

/-- Draw d of element e of a command (R60). -/
def GalCmd.draw (c : GalCmd) (e d : Nat) : Nat := srBits c.key.1 c.key.2.1 (c.key.2.2 + e) d

/-- Input streams of a REDUCE. -/
def GalCmd.inputs (c : GalCmd) : List Strm := c.streams.filter Strm.reads

/-- The output stream of a REDUCE or CONVERT. -/
def GalCmd.output (c : GalCmd) : Option Strm := c.streams.find? Strm.writes

/-- The exact sum of element e with its conversion flags (R64, R65, R77). -/
def GalCmd.sum (c : GalCmd) (m : Mem) (e : Nat) : Accu × Nat :=
  let x := (ctrlOf c.inCtrl).fmt
  let (a, fl) := c.inputs.foldl (fun (r : Accu × Nat) st =>
    if st.kind = 1 then (r.1.merge x (st.acc m e), r.2)
    else
      let (a, fl) := accAdd x r.1 (st.val m e) (ctrlOf c.inCtrl) (c.draw e 0)
      (a, r.2 ||| fl)) (Accu.empty, 0)
  (satByCount a c.addends, fl)

/-- Consecutive elements of at most 32, from a block boundary on. -/
def blockStarts (a n : Nat) : List (Nat × Nat) := (List.range (ceilDiv n 32)).map fun j => (a + 32 * j, min 32 (n - 32 * j))

/-- Values rounded into an output stream: element by element, or block by block for MX (R58, R66). A SAT sum makes its block NaN (R64). -/
def Strm.roundOut (st : Strm) (x : Fmt) (c : Ctrl) (rnd : Nat → Nat) (m : Mem) (a n : Nat) (sums : List Accu) : Mem × Nat :=
  if st.fmt.isMx then
    (blockStarts a n).foldl (fun (r : Mem × Nat) b =>
      let accs := (sums.drop (b.1 - a)).take b.2
      let vs := accs.map fun s => if s.sat then Val.nan false else s.val x
      let (sc, xs, fl) := encodeMx vs st.fmt c.mode fun i => rnd (b.1 + i)
      let fl := if accs.any (·.sat) then
        (if (accs.filter (!·.sat)).any (fun s => s.val x == .nan false) then fl else setBits fl 1 1 0) ||| flagSAT else fl
      (st.setBlock r.1 b.1 sc xs, r.2 ||| fl)) (m, 0)
  else
    sums.zipIdx.foldl (fun (r : Mem × Nat) e =>
      let (b, fl) := e.1.out x c (rnd (a + e.2))
      (st.setRaw r.1 (a + e.2) b, r.2 ||| fl)) (m, 0)

/-- A group's header (Table 04-6). -/
def groupHead (x : Fmt) (elements count : Nat) : List Byte :=
  leBytes 1 (b2n x.small) ++ leBytes 1 x.code ++ leBytes 2 0 ++ leBytes 4 elements ++ leBytes 8 count ++ List.replicate 48 0#8

/-- A chunk of a REDUCE (R77): memory, flags and draws used. -/
def GalCmd.reduce (c : GalCmd) (m : Mem) (draws a n : Nat) : Mem × Nat :=
  let x := (ctrlOf c.inCtrl).fmt
  let sums := (List.range n).map fun j => c.sum m (a + j)
  let fl := sums.foldl (fun f s => f ||| s.2) 0
  let fl := if sums.any (·.1.sat) then fl ||| flagSAT else fl
  match c.output with
  | none => (m, fl)
  | some st =>
    if st.kind = 1 then
      let heads := if st.per = 0 then (if a = 0 then [(st.addr, c.count)] else [])
        else ((List.range' a n).filter (· % st.per == 0)).map fun e => (st.addr + e / st.per * st.gap, st.per)
      let m := heads.foldl (fun (m : Mem) (h : Nat × Nat) => m.write (st.space.at h.1) (groupHead x h.2 (min c.addends (2 ^ 33 - 1)))) m
      (sums.zipIdx.foldl (fun m s => m.write (st.space.at (st.recAddr (a + s.2))) (s.1.1.bytes x (Config.satSum (draws + s.2)))) m, fl)
    else
      let (m, f2) := st.roundOut x (ctrlOf c.outCtrl) (c.draw · 0) m a n (sums.map (·.1))
      (m, fl ||| f2)

/-- A chunk of a CONVERT (R54, R78): equal codes keep the bits, but for NaN. -/
def GalCmd.convert (c : GalCmd) (m : Mem) (a n : Nat) : Mem × Nat :=
  match c.streams.find? Strm.reads, c.output with
  | some src, some dst =>
    let k := ctrlOf c.outCtrl
    if dst.fmt.isMx then
      (blockStarts a n).foldl (fun (r : Mem × Nat) b =>
        let vs := (List.range b.2).map fun i => src.val m (b.1 + i)
        if src.fmt = dst.fmt then
          if vs.any Val.isNan then (dst.setBlock r.1 b.1 255 (vs.map fun _ => 0), r.2 ||| flagNANIN)
          else (dst.setBlock r.1 b.1 (src.scaleAt m b.1) ((List.range b.2).map fun i => src.raw m (b.1 + i)), r.2)
        else
          let (sc, xs, fl) := encodeMx vs dst.fmt k.mode fun i => c.draw (b.1 + i) 0
          (dst.setBlock r.1 b.1 sc xs, r.2 ||| fl)) (m, 0)
    else
      (List.range n).foldl (fun (r : Mem × Nat) j =>
        let e := a + j
        let (b, fl) := if src.fmt.isMx then roundOnce (src.val m e) dst.fmt k.mode k.ovf (c.draw e 0)
          else convertBits src.fmt (src.raw m e) k (c.draw e 0)
        (dst.setRaw r.1 e b, r.2 ||| fl)) (m, 0)
  | _, _ => (m, 0)

/-- One STORE.stream of a row (R87). -/
def Strm.storeRow (st : Strm) (m : Mem) (c : Ctrl) (rnd : Nat → Nat) (vals : List (Nat × Option Val)) : Mem × Nat :=
  if !st.fmt.isMx then
    vals.foldl (fun (r : Mem × Nat) e =>
      match e.2 with
      | none => r
      | some v =>
        let (b, fl) := roundOnce v st.fmt c.mode c.ovf (rnd e.1)
        (st.setRaw r.1 e.1 b, r.2 ||| fl)) (m, 0)
  else
    (List.range 2).foldl (fun (r : Mem × Nat) h =>
      let blk := vals.zipIdx.filterMap fun e => if e.2 / 32 = h then some e.1 else none
      match blk with
      | [] => r
      | (i, _) :: _ =>
        if blk.all (·.2.isNone) then r
        else
          let vs := blk.map fun e => match e.2 with
            | some v => v
            | none => st.val r.1 e.1
          let (sc, xs, fl) := encodeMx vs st.fmt c.mode fun j => rnd (i + j)
          (st.setBlock r.1 i sc xs, r.2 ||| fl)) (m, 0)

/-- How a PROGRAM's streams lie in memory. -/
def GalCmd.fstreams (c : GalCmd) : FStreams where
  load m j i := ((c.streams[j]?).map fun st => st.val m i).getD (.num false 0 0)
  fmt j := ((c.streams[j]?).map Strm.fmt).getD .fp32
  store m j ct rnd vals := match c.streams[j]? with
    | some st => st.storeRow m ct rnd vals
    | none => (m, 0)

/-- Words of a program's body and tail. -/
def bodyWords (img : List Byte) : List Nat := imageWords img 64 (FHead.of img).bodyLen

/-- Words of the tail. -/
def tailWords (img : List Byte) : List Nat := imageWords img (64 + 8 * (FHead.of img).bodyLen) (FHead.of img).tailLen

/-- Exchange format of a loaded program. -/
def progExch (img : List Byte) : Fmt := ((FHead.of img).exchFmt).getD .fp32

/-- Scalars s0 to s31 at the start of a PROGRAM (R88). -/
def GalCmd.scalar32 (c : GalCmd) : List Nat := c.scalars ++ List.replicate (32 - c.scalars.length) 0

/-- A chunk of a PROGRAM: its rows in order (R83). -/
def GalCmd.program (c : GalCmd) (m : Mem) (a n : Nat) : FRun :=
  let h := FHead.of c.image
  (List.range (ceilDiv n 64)).foldl (fun r j => runRow c.fstreams h (progExch c.image) c.draw (bodyWords c.image) (a + 64 * j) (min 64 (n - 64 * j)) r)
    ⟨m, [], c.scalar32, c.accs, c.cnts, 0, false⟩

/-! ### Access to streams -/

/-- An access to an accelerator's window on behalf of a slice (R12, R17, R75, R97): a grant, the window's bound, a part that the environment check
keeps disabled, Bus Master Enable of the tenant function, and else a link that is down. -/
def State.accelAccess (s : State) (i p a n : Nat) : Nat :=
  let f : Func := .pf1 (Fin.ofNat 4 (s.accelPort p)) (Fin.ofNat 2 (s.accelHalf p))
  if s.accelLen p < a + n then stBounds
  else if !bitAt (s.slice i).accelGrant p then stRights
  else if s.str.accelOff.contains p then stEnvMismatch
  else if s.accelUp p then stOk
  else if s.accelPresent p ∧ s.linkUp f.port f.half then stMasterDisabled
  else stStreamFault

/-- The status that a stream, a flight step or a capture reports for a failed access (R172, R173, R180). -/
def streamFail (st : Nat) : Nat := if st = stPoolFault ∨ st = stPageLost then stStreamFault else st

/-- An access to bytes of a space on behalf of a slice (R75, R172, R173, R180, R289, R294). -/
def State.spanReach (s : State) (i : Nat) (write : Bool) (sp : Space) (a n : Nat) : TierRes :=
  match sp with
  | .tier h =>
    let st := s.tierCheck i h a n
    if st ≠ stOk then .fail st
    else
      match s.obj (h / 256) with
      | none => .fail stKeyInvalid
      | some o =>
        s.rangeReach (h / 256) o write (pagesIn a n)
  | .host _ _ => if s.canDma (s.slice i).fn then .ok else .fail stMasterDisabled
  | .accel p => if s.accelAccess i p a n = stOk then .ok else .fail (s.accelAccess i p a n)
  | _ => .ok

/-- The access of a stream for elements from a, n of them. -/
def State.strmReach (s : State) (i : Nat) (st : Strm) (a n : Nat) : TierRes :=
  (st.spans a n).foldl (fun r x => match r with
    | .ok => s.spanReach i (!st.reads) x.1 x.2.1 x.2.2
    | r => r) .ok

/-- The streams that the chunks of a command access: not those that a program's masks leave out, nor its group (R88, R90). -/
def GalCmd.live (c : GalCmd) : List Strm := c.streams.filter fun st => (st.reads || st.writes) && (c.kind != 3 || st.kind == 0)

/-- What a command writes after its last chunk: the group that a PROGRAM exports and its scalars (R88), and the header of a REDUCE's group of no
records (R76). -/
def GalCmd.groupSpans (c : GalCmd) : List (Space × Nat × Nat) :=
  let n := ((List.range 4).filter fun k => bitAt (FHead.of c.image).carry k).length
  (if c.kind = 1 ∧ c.count = 0 then
    match c.output with
    | some st => if st.kind = 1 then st.spans 0 0 else []
    | none => []
   else if c.kind ≠ 3 ∨ n = 0 then []
   else
    match c.streams[(FHead.of c.image).streams]? with
    | some st => st.spans 0 n
    | none => []) ++ (c.writeBack.map fun w => (w.1, w.2, 32)).toList

/-- The access to what a command writes after its last chunk (R75, R88). -/
def State.groupReach (s : State) (c : GalCmd) : TierRes :=
  c.groupSpans.foldl (fun r x => match r with
    | .ok => s.spanReach c.slice true x.1 x.2.1 x.2.2
    | r => r) .ok

/-- The first stream of a command that does not go on decides. -/
def State.chunkReach (s : State) (c : GalCmd) (a n : Nat) : TierRes :=
  c.live.foldl (fun (r : TierRes) st => match r with
    | .ok => s.strmReach c.slice st a n
    | r => r) .ok

/-- Demand fetches of the pages of T4 among some spans (R173). -/
def State.spansFetch (s : State) (write : Bool) (l : List (Space × Nat × Nat)) : State :=
  l.foldl (fun s x => match x.1 with
    | .tier h => s.fetchPages (h / 256) write (pagesIn x.2.1 x.2.2)
    | _ => s) s

/-- Demand fetches of the pages of T4 that a chunk needs (R173). -/
def State.chunkFetch (s : State) (c : GalCmd) (a n : Nat) : State := c.live.foldl (fun s st => s.spansFetch (!st.reads) (st.spans a n)) s

/-- Before a span is accessed: heat, for a write the frames of its pages, and the bytes of pages in T2; a whole LOST page that the stream writes is
LOST no more (R160, R163, R166, R180). `whole` is all that the stream writes. -/
def State.spanBegin (s : State) (write : Bool) (whole : List (Space × Nat × Nat)) (x : Space × Nat × Nat) : State :=
  match x.1 with
  | .tier h =>
    let s := s.heat (h / 256) x.2.1 x.2.2
    if !write then (pagesIn x.2.1 x.2.2).foldl (fun s p => s.takeIn (h / 256) p 0) s
    else
      (pagesIn x.2.1 x.2.2).foldl (fun s p =>
        let all := whole.any fun w => w.1 == x.1 && w.2.1 ≤ p * pageLen && (p + 1) * pageLen ≤ w.2.1 + w.2.2
        let s := s.updPage (h / 256) p fun g => { g with lost := g.lost && !all }
        match s.obj (h / 256) with
        | some o => if (o.at p).lost then s
          else (s.tierTouch (h / 256) p).takeIn (h / 256) p 0
        | none => s) s
  | _ => s

/-- After a span is written: it reaches the copies of its pages, and partial writes to a LOST page are discarded (R160, R175, R180). -/
def State.spanEnd (s : State) (x : Space × Nat × Nat) : State :=
  match x.1 with
  | .tier h =>
    match s.obj (h / 256) with
    | none => s
    | some o =>
      let m := (pagesIn x.2.1 x.2.2).foldl (fun (m : Mem) p =>
        let g := o.at p
        let a := max x.2.1 (p * pageLen)
        let n := min (x.2.1 + x.2.2) ((p + 1) * pageLen) - a
        let out (c : Nat) (m : Mem) : Mem := m.carry ((Space.tier h).at a) (s.home o (h / 256) p c g + a % pageLen) n
        if g.lost then m.clear ((Space.tier h).at (p * pageLen)) pageLen
        else if o.copies = 2 ∧ s.copyTakes g then out 1 (out 0 m)
        else out 0 m) s.mem
      { s with mem := m }
  | _ => s

/-- The space still exists: a tier object is there under its handle. -/
def State.hasSpace (s : State) : Space → Bool
  | .tier h => ((s.obj (h / 256)).map (·.tag)) == some (h % 256)
  | _ => true

/-- Bytes that take free values: what the spec calls undefined (R82, R305). -/
def State.freeSpan (s : State) (x : Space × Nat × Nat) : State :=
  if !s.hasSpace x.1 then s else
  { s with mem := s.mem.write (x.1.at x.2.1) ((List.range x.2.2).map fun j => Config.freeByte (s.draws + j)), draws := s.draws + x.2.2 }.spanEnd x

/-- The destinations of elements from a, n of them, are undefined. -/
def State.freeDest (s : State) (c : GalCmd) (a n : Nat) : State :=
  ((c.live.filter Strm.writes).flatMap fun st => st.spans a n).foldl State.freeSpan s

/-- n bytes of a space, with the heat of the access (R166). -/
def State.getBytes (s : State) (sp : Space) (a n : Nat) : List Byte × State :=
  match sp with
  | .tier h => (s.tierRead (h / 256) a n, s.heat (h / 256) a n)
  | _ => (s.mem.read (sp.at a) n, s)

/-- Bytes written into a space, with the heat and the frames of the access (R163, R166, R175). -/
def State.putBytes (s : State) (sp : Space) (a : Nat) (bs : List Byte) : State :=
  match sp with
  | .tier h => (s.heat (h / 256) a bs.length).tierWrite (h / 256) a bs
  | _ => { s with mem := s.mem.write (sp.at a) bs }

/-! ### Checks of streams -/

/-- The spans of a stream lie in their object, window or address space (R75). -/
def State.spanBounds (s : State) (i : Nat) (x : Space × Nat × Nat) : Nat :=
  match x.1 with
  | .tier h => s.tierCheck i h x.2.1 x.2.2
  | .accel p => if s.accelLen p < x.2.1 + x.2.2 then stBounds else stOk
  | _ => if 2 ^ 64 < x.2.1 + x.2.2 then stBounds else stOk

/-- A stream lies where R75 wants it: the alignment that ring commands ask for (log entry 11). -/
def Strm.aligned (st : Strm) : Bool := st.addr % (if st.kind = 1 then 64 else if st.fmt.isMx then 1 else st.fmt.bits / 8) == 0

/-- R50 and R75 on one stream of n elements, its alignment apart. -/
def State.strmStatus (s : State) (i : Nat) (st : Strm) (n : Nat) : Nat :=
  if st.kind = 0 ∧ !st.fmt.fits n ∨ st.kind = 1 ∧ st.fmt.isMx then stFormatInvalid
  else
    match ((if n = 0 ∧ st.kind = 0 then [(st.space, st.addr, 0)] else st.spans 0 n).map (s.spanBounds i)).find? (· != stOk) with
    | some e => e
    | none =>
      match st.space with
      | .accel p =>
        if !bitAt (s.slice i).accelGrant p then stRights
        else if s.str.accelOff.contains p then stEnvMismatch
        else stOk
      | _ => stOk

/-- R77 on a stream of a REDUCE with control bytes and COUNT, behind the streams before it: one output; formats; the headers of groups. -/
def State.reduceStatus (s : State) (inC outC n : Nat) (before : List Strm) (st : Strm) : Nat :=
  let x := (ctrlOf inC).fmt
  let head := (s.getBytes st.space st.addr 64).1
  if st.writes ∧ before.any Strm.writes then stDescInvalid
  else if st.writes ∧ st.kind = 1 ∧ outC ≠ 0 then stDescInvalid
  else if st.writes ∧ (if st.kind = 0 then st.fmt ≠ (ctrlOf outC).fmt else st.fmt ≠ x) then stFormatInvalid
  else if st.kind = 1 ∧ st.reads ∧ fieldAt head 4 4 ≠ n then stDescInvalid
  else if st.kind = 1 ∧ (st.fmt ≠ x ∨ st.reads ∧ (fieldAt head 0 1 ≠ b2n x.small ∨ fieldAt head 1 1 % 16 ≠ x.code)) then stFormatInvalid
  else stOk

/-- R78 on a stream of a CONVERT. -/
def convertStatus (outC : Nat) (before : List Strm) (st : Strm) : Nat :=
  if st.kind ≠ 0 ∨ st.dir = 2 ∨ before.any (fun b => b.dir == st.dir) then stDescInvalid
  else if st.writes ∧ st.fmt ≠ (ctrlOf outC).fmt then stFormatInvalid
  else stOk

/-- The conversion control bytes of a REDUCE or CONVERT (R46, R47, R61). -/
def ctrlStatus (kind inC outC : Nat) : Nat :=
  if kind = 1 ∧ ((Ctrl.ofByte inC).isNone ∨ (ctrlOf inC).fmt.isMx) ∨ kind ≤ 2 ∧ (Ctrl.ofByte outC).isNone then stFormatInvalid else stOk

/-- DIR that a program's masks ask for stream j; none where neither names it (R90). -/
def maskDir (h : FHead) (j : Nat) : Option Nat :=
  match bitAt h.inMask j, bitAt h.outMask j with
  | true, true => some 2
  | true, false => some 0
  | false, true => some 1
  | false, false => none

/-- R88 and R90 on stream j of a PROGRAM. A group entry whose FORMAT is not the exchange format gives FORMAT_INVALID (log entry 127). -/
def programStatus (img : List Byte) (j : Nat) (st : Strm) : Nat :=
  let h := FHead.of img
  if j = h.streams then (if st.kind ≠ 1 ∨ st.dir ≠ 1 then stDescInvalid else if st.fmt ≠ progExch img then stFormatInvalid else stOk)
  else
    match maskDir h j with
    | none => stOk
    | some dir =>
      if st.kind ≠ 0 ∨ st.dir ≠ dir then stDescInvalid
      else if (bodyWords img).any (fun w => let f := FWord.of w; f.op == 2 && f.stream == j && f.ctrl % 16 != st.fmt.code) then stFormatInvalid
      else stOk

/-- The streams of a PROGRAM for its chunks: those that the program's masks do not name are never accessed (R90). -/
def progStrms (img : List Byte) (l : List Strm) : List Strm :=
  l.zipIdx.map fun e => if e.2 < (FHead.of img).streams ∧ (maskDir (FHead.of img) e.2).isNone then { e.1 with kind := 0, dir := 3 } else e.1

/-! ### Program slots (R91) -/

/-- A program slot. -/
def State.progSlot (s : State) (k : Nat) : ProgSlot := lookD s.gal.slots k ⟨0, 0, []⟩

/-- A slot set, and the change of state shown. -/
def State.setProg (s : State) (k : Nat) (x : ProgSlot) : State :=
  { s with gal := { s.gal with slots := put s.gal.slots k x } }.event F.GAL_STATUS_PROG_EVENT

/-- The slot of a slice's program: CURRENT for version 0, else that version where it is resident. -/
def State.findProg (s : State) (i id ver : Nat) : Option Nat :=
  (List.range 8).find? fun k =>
    let x := s.progSlot k
    let h := FHead.of x.image
    x.owner == i && h.id == id && (if ver = 0 then x.st == 2 else 2 ≤ x.st && h.ver == ver)

/-- Commands and loaded flights that reference a slot (Table 04-17). -/
def State.progRefs (s : State) (k : Nat) : Nat :=
  let x := s.progSlot k
  let h := FHead.of x.image
  (s.gal.cmds.filter fun c => c.kind == 3 && c.slot == k).length +
    (s.flights.filter fun e => e.2.slice == x.owner && e.2.namesProg h.id h.ver).length

/-- A RETIRING slot that nothing references becomes FREE. -/
def State.progSweep (s : State) : State :=
  (List.range 8).foldl (fun s k => if (s.progSlot k).st = 3 ∧ s.progRefs k = 0 then s.setProg k ⟨0, 0, []⟩ else s) s

/-- Every program slot of the slice is freed (R91, Table 13-5). -/
def State.galFreeSlots (s : State) (i : Nat) : State :=
  (List.range 8).foldl (fun s k => if (s.progSlot k).st ≠ 0 ∧ (s.progSlot k).owner = i then s.setProg k ⟨0, 0, []⟩ else s) s

/-! ### How commands end -/

/-- Leading elements that are all done (R82): ranges in any order. -/
def leading (count : Nat) : Nat → List (Nat × Nat) → Nat → Nat
  | 0, _, e => e
  | f + 1, rs, e =>
    match rs.find? (fun r => r.1 ≤ e && e < r.1 + r.2) with
    | some r => leading count f rs (r.1 + r.2)
    | none => e

/-- ELEMENTS (R79). -/
def GalCmd.done (c : GalCmd) : Nat := leading c.count (c.ranges.length + 1) c.ranges 0

/-- Bytes 16 to 31 of a Gallery completion (Table 04-7): RESULT and ENGINE. -/
def galWords (elements flags detail clusters addends kind ver : Nat) : Nat × Nat :=
  (elements % 2 ^ 32 + 2 ^ 32 * (flags % 256) + 2 ^ 40 * (detail % 256) + 2 ^ 48 * clusters, addends % 2 ^ 33 + 2 ^ 40 * kind + 2 ^ 48 * ver)

/-- A ring operation of the Gallery completes (R79, R80): STREAM_FAULT is shown and counted. -/
def State.galEndOp (s : State) (id st : Nat) (w : Nat × Nat) : State :=
  if (s.op id).isNone then s
  else
    let s := if st = stStreamFault then (s.event F.GAL_STATUS_FAULT).bump F.GAL_CNT_FAULT_COUNT else s
    (s.bump F.GAL_CNT_CMD_COUNT).finish id st w.1 w.2

/-- The status of a command whose chunks have all ended: its fault, saturation, deferral, or OK (R64, R81, R82). -/
def GalCmd.status (c : GalCmd) : Nat :=
  match c.fault with
  | some st => st
  | none => if bitAt c.flags 5 then stAccSaturated else if c.deferred then stEnergyDeferred else stOk

/-- Carried accumulators of a PROGRAM. -/
def carried (img : List Byte) : List Nat := (List.range 4).filter fun k => bitAt (FHead.of img).carry k

/-- The tail of a PROGRAM, the export of its accumulators and the scalar write-back (R88). -/
def State.programEnd (s : State) (c : GalCmd) : State × GalCmd :=
  let h := FHead.of c.image
  let x := progExch c.image
  let r := runTail c.fstreams h x c.draw (tailWords c.image)
    ⟨s.mem, [], c.scalar32, c.accs.zipIdx.map (fun e => satByCount e.1 (c.cnts.getD e.2 0)), c.cnts, 0, false⟩
  let ks := carried c.image
  let accs := ks.map fun k => satByCount (r.x.getD k Accu.empty) (r.cnt.getD k 0)
  let count := ks.foldl (fun n k => max n (r.cnt.getD k 0)) 0
  let fl := c.flags ||| r.flags ||| (if accs.any (·.sat) then flagSAT else 0)
  let s := { s with mem := r.mem }
  let s := match ks, c.streams[h.streams]? with
    | _ :: _, some st =>
      let sp := st.spans 0 ks.length
      let s := sp.foldl (State.spanBegin · true sp) s
      let m := s.mem.write (st.space.at st.addr) (groupHead x ks.length count ++
        accs.zipIdx.flatMap fun a => a.1.bytes x (Config.satSum (s.draws + a.2)))
      sp.foldl State.spanEnd { s with mem := m, draws := s.draws + 4 }
    | _, _ => s
  let s := match c.writeBack with
    | some (sp, a) => s.putBytes sp a ((List.range 8).flatMap fun k => leBytes 4 (r.s.getD (24 + k) 0))
    | none => s
  (s, { c with flags := fl, addends := if ks.isEmpty then 0 else count })

/-- ADDENDS of a command that ends before its tail: the largest count so far of a carried accumulator, or the group count of a REDUCE (R79). -/
def GalCmd.addendsNow (c : GalCmd) : Nat :=
  match c.kind with
  | 1 => c.addends
  | 3 => (carried c.image).foldl (fun n k => max n (c.cnts.getD k 0)) 0
  | _ => 0

/-- Bytes 16 to 31 of a command's record (Table 04-7). -/
def GalCmd.words (c : GalCmd) : Nat × Nat :=
  galWords c.done c.flags 0 c.clusters c.addends 0 (if c.kind = 3 then (FHead.of c.image).ver else 0)

/-- A REDUCE of no elements still writes its group, the header alone (R76, R77). -/
def State.emptyGroup (s : State) (c : GalCmd) : State :=
  match c.output with
  | some st =>
    if st.kind = 1 then s.putBytes st.space st.addr (groupHead (ctrlOf c.inCtrl).fmt 0 (min c.addends (2 ^ 33 - 1))) else s
  | none => s

/-- A command or step is removed from the Gallery. -/
def State.galRemove (s : State) (c : GalCmd) : State :=
  { s with gal := { s.gal with cmds := s.gal.cmds.filter fun x => !(x.op == c.op && x.step == c.step) } }

/-- A command or step whose chunks have ended completes: tail and export first unless it faulted, as it does where what follows its last
row cannot be written (R75, R82, R88). The destinations beyond ELEMENTS of a fault are undefined. -/
def State.galComplete (s : State) (c : GalCmd) : State :=
  let s := s.galRemove c
  let (s, c) : State × GalCmd := match c.fault, s.groupReach c with
    | none, .fail st => (s.poolFault st, { c with fault := some (streamFail st) })
    | _, _ => (s, c)
  let (s, c) := if c.kind = 3 ∧ c.fault.isNone then s.programEnd c else (s, c)
  let c := if c.fault.isSome then { c with addends := c.addendsNow } else c
  let s := if c.kind = 1 ∧ c.count = 0 ∧ c.fault.isNone then s.emptyGroup c else s
  let s := if c.fault.isSome then s.freeDest c c.done (c.count - c.done) else s
  let s := match c.step with
    | some (k, j) =>
      let s := if c.status = stStreamFault then (s.event F.GAL_STATUS_FAULT).bump F.GAL_CNT_FAULT_COUNT else s
      { s with gal := { s.gal with ended := s.gal.ended ++ [(⟨k, j, c.status, c.flags, c.deferred⟩ : StepEnd)] } }.bump F.GAL_CNT_CMD_COUNT
    | none =>
      s.galEndOp c.op c.status c.words
  s.progSweep

/-- A changed command takes the place of the old one. -/
def State.galPut (s : State) (c : GalCmd) : State :=
  { s with gal := { s.gal with cmds := s.gal.cmds.map fun x => if x.op == c.op && x.step == c.step then c else x } }

/-- All of a command's chunks have ended, and none has faulted. -/
def GalCmd.rowsDone (c : GalCmd) : Bool := c.chunks.isEmpty && c.fault.isNone && c.count ≤ c.next

/-- A command that has no chunk running and none to hand out completes (R82); one whose last writes need a page of T4 waits for its fetch (R69,
R173). -/
def State.galSettle (s : State) (c : GalCmd) : State :=
  if c.chunks.isEmpty ∧ (c.fault.isSome ∨ c.count ≤ c.next) then
    if c.rowsDone ∧ s.groupReach c = .wait then ((s.galPut c).spansFetch true c.groupSpans).beginOnce (.op c.op) else s.galComplete c
  else s.galPut c

/-- Commands whose last writes waited for pages of T4 go on (R173). -/
def State.galLast (s : State) : State := (s.gal.cmds.filter GalCmd.rowsDone).foldl State.galSettle s

/-- A status stops hand-out; chunks that run finish first (R82). -/
def State.galStop (s : State) (c : GalCmd) (st : Nat) : State :=
  s.galSettle { c with fault := match c.fault with | some x => some x | none => some st }

/-! ### Hand-out (R92 to R95) -/

/-- Weight of a slice (Table 04-18). -/
def State.galWeight (s : State) (i : Nat) : Nat := s.reg (R.GAL_WEIGHT (i / 8)) / 16 ^ (i % 8) % 16

/-- Clusters from 0 that serve only flight steps. -/
def State.galReserve (s : State) : Nat := min 16 (s.getF F.GAL_FLIGHT_RESERVE_CLUSTERS)

/-- A cluster is in service. -/
def State.clusterOn (s : State) (c : Nat) : Bool := bitAt (s.getF F.GAL_CLUSTER_EN_EN) c

/-- A cluster may run a command (R92, R93). -/
def State.mayRun (s : State) (x : GalCmd) (c : Nat) : Bool :=
  s.clusterOn c && (x.mask == 0 || bitAt x.mask c) && (x.step.isSome || s.galReserve ≤ c)

/-- Hall of a cluster. -/
def galHall (c : Nat) : Nat := if c < 8 then 6 else 7

/-- Elements of a chunk (R92). -/
def GalCmd.chunkLen (c : GalCmd) : Nat :=
  let small (f : Fmt) : Bool := f.bits ≤ 8
  if (c.kind = 1 ∧ (ctrlOf c.inCtrl).fmt.small) ∨ (c.kind = 2 ∧ c.streams.all fun st => small st.fmt) then 16384 else 4096

/-- Element-additions or instruction issues of n elements, and the cost of one in pJ (Table 16-4). -/
def State.chunkCost (s : State) (c : GalCmd) (n : Nat) : Nat :=
  match c.kind with
  | 1 => n * c.inputs.length * s.energyTable (if (ctrlOf c.inCtrl).fmt.small then 4 else 0)
  | 2 => n * s.energyTable 8
  | _ => n * ((bodyWords c.image).length - 1) * s.energyTable 8

/-- A chunk is handed to a cluster (R92), and the cluster shows it (Table 04-15). -/
def State.handOut (s : State) (c : GalCmd) (cl : Nat) : State :=
  let n := min c.chunkLen (c.count - c.next)
  let s := s.setFs [(F.GAL_CLUSTER_BUSY cl, 1), (F.GAL_CLUSTER_SLICE cl, c.slice), (F.GAL_CLUSTER_FLIGHT cl, b2n c.step.isSome),
    (F.GAL_CLUSTER_SLOT cl, if c.kind = 3 then c.slot else 15)]
  s.galPut { c with chunks := c.chunks ++ [(cl, c.next, n)], next := c.next + n,
                    clusters := if bitAt c.clusters cl then c.clusters else c.clusters + 2 ^ cl }

/-- Chunks remain to hand out. -/
def GalCmd.open' (c : GalCmd) : Bool := c.fault.isNone && c.next < c.count

/-- A stream lies behind the host endpoint. -/
def Space.overPcie : Space → Bool
  | .pf0 _ => true
  | .host _ _ => true
  | .accel _ => true
  | _ => false

/-- Some stream of a command is reached over PCIe: host memory, accelerator windows, and objects with a page in T2 (Table 04-2). -/
def State.galPcie (s : State) (c : GalCmd) : Bool :=
  c.live.any fun st => [st.space, st.scaleSpace].any fun sp => sp.overPcie || (match sp with
    | .tier h => (s.obj (h / 256)).any fun o => o.page.any fun g => g.2.loc.any (·.1 == 2)
    | _ => false)

/-- The commands in the order in which a cluster offers to serve them: flight steps by scheduled start, then one command for each slice by
weighted round-robin from the slice whose turn it is (R92). A cluster of a hall that quiesces takes only commands that it has run (R97), and while
H0 is paused none that needs PCIe (Table 02-8). -/
def State.serveOrder (s : State) (cl : Nat) : List GalCmd :=
  let own (c : GalCmd) : Bool := (!s.hallPaused (galHall cl) || bitAt c.clusters cl) && !(s.hallPaused 0 && s.galPcie c)
  let live := s.gal.cmds.filter fun c => c.open' && s.mayRun c cl && own c
  let steps := sortBy (fun (a b : GalCmd) => decide (a.start < b.start)) (live.filter (·.step.isSome))
  let first := if s.gal.turnLeft = 0 then s.gal.turn + 1 else s.gal.turn
  let ring := (List.range 256).filterMap fun j => (live.filter (·.step.isNone)).find? (·.slice == (first + j) % 256)
  steps ++ ring

/-- Pending writes of the Gallery's buffered registers apply (R98). -/
def State.galApply (s : State) : State :=
  let fs := [F.GAL_APPLY_STATUS_EN, F.GAL_APPLY_STATUS_RESERVE, F.GAL_APPLY_STATUS_WEIGHT].filter fun f => s.getF f == 1
  if fs.isEmpty then s else (fs.foldl State.applyGroup s).sealTouch 8

/-- Epochs counted (R357). -/
def State.epochNo (s : State) : Nat := s.reg R.PWR_EPOCH_COUNT

/-- The first command of the list that the Coffer admits gives a chunk; each refusal is counted once for a chunk in an epoch and passes to the next
slice (R95, R357). A slice of weight W keeps the turn for W chunks (log entry 127). Buffered registers apply before the first chunk of a command that
the cluster has not run (R98). -/
def State.takeFrom (cl : Nat) : List GalCmd → State → State
  | [], s => s
  | c :: cs, s =>
    let s := if bitAt c.clusters cl then s else s.galApply
    if !s.mayRun c cl then State.takeFrom cl cs s else
    let (ok, s') := s.offer 0 (some c.slice) (s.chunkCost c (min c.chunkLen (c.count - c.next)))
    if ok then
      let s' := if c.step.isSome then s'
        else if s'.gal.turn = c.slice ∧ 0 < s'.gal.turnLeft then { s' with gal := { s'.gal with turnLeft := s'.gal.turnLeft - 1 } }
        else { s' with gal := { s'.gal with turn := c.slice, turnLeft := max 1 (s'.galWeight c.slice) - 1 } }
      s'.handOut c cl
    else
      let s' := if c.counted = some (s.epochNo, c.next) then s' else s'.bump F.GAL_CNT_DEFER_COUNT
      State.takeFrom cl cs (s'.galPut { c with deferred := true, counted := some (s.epochNo, c.next) })

/-- A free cluster takes its next chunk (R92). -/
def State.chunkTake (s : State) (cl : Nat) : State :=
  if s.gal.cmds.any (fun c => c.chunks.any (·.1 == cl)) ∨ !s.clusterOn cl ∨ s.dev.st = .fatal then s
  else State.takeFrom cl (s.serveOrder cl) s

/-- The command whose chunk a cluster runs, with the chunk. -/
def State.chunkOn (s : State) (cl : Nat) : Option (GalCmd × Nat × Nat) :=
  s.gal.cmds.findSome? fun c => (c.chunks.find? (·.1 == cl)).map fun x => (c, x.2.1, x.2.2)

/-- The cluster is free again. -/
def State.clusterIdle (s : State) (cl : Nat) : State :=
  s.setFs [(F.GAL_CLUSTER_BUSY cl, 0), (F.GAL_CLUSTER_SLICE cl, 0), (F.GAL_CLUSTER_FLIGHT cl, 0), (F.GAL_CLUSTER_SLOT cl, 15)]

/-- Commands left with no cluster that may serve them complete with NO_CLUSTER (R93). -/
def State.noCluster (s : State) : State :=
  s.gal.cmds.foldl (fun s c =>
    if c.step.isNone ∧ c.open' ∧ !(List.range 16).any (s.mayRun c) then s.galStop c stNoCluster else s) s

/-- A step of a flight passes its commit point (Table 04-12, R119). -/
def State.stepCommit (s : State) (k j : Nat) : State :=
  { s with flights := s.flights.map fun (e : Nat × Flight) =>
      if e.1 = k then (e.1, { e.2 with steps := e.2.steps.map fun x => if x = (j, .running false) then (j, .running true) else x }) else e }

/-- A chunk of a command computed: its streams' bytes, flags and sums (R77, R78, R83); the first write commits it (Table 04-12). -/
def State.runChunk (s : State) (c : GalCmd) (a n : Nat) : State × GalCmd :=
  let reads := (c.live.filter Strm.reads).flatMap fun st => st.spans a n
  let writes := (c.live.filter Strm.writes).flatMap fun st => st.spans a n
  let whole := (c.live.filter Strm.writes).flatMap fun st => st.spans 0 c.count
  let s := writes.foldl (State.spanBegin · true whole) (reads.foldl (State.spanBegin · false []) s)
  let (m, fl, accs, cnts, wrote) : Mem × Nat × List Accu × List Nat × Bool := match c.kind with
    | 1 => let r := c.reduce s.mem s.draws a n; (r.1, r.2, c.accs, c.cnts, true)
    | 2 => let r := c.convert s.mem a n; (r.1, r.2, c.accs, c.cnts, true)
    | _ => let r := c.program s.mem a n; (r.mem, r.flags, r.x, r.cnt, r.wrote)
  let s := writes.foldl State.spanEnd { s with mem := m, draws := s.draws + n }
  let s := if c.kind = 1 then s.bump64 R.GAL_CNT_ADD_LO R.GAL_CNT_ADD_HI (n * c.inputs.length) else s
  let s := if !wrote then s else match c.step with
    | some (k, j) => s.stepCommit k j
    | none => s.commitOp c.op
  (s, { c with flags := c.flags ||| fl, accs := accs, cnts := cnts, ranges := c.ranges ++ [(a, n)] })

/-- A chunk ends (R82): computed where its streams can be reached, waiting for pages of T4 where they cannot yet, and else a fault. -/
def State.chunkDone (s : State) (cl : Nat) : State :=
  match s.chunkOn cl with
  | none => s
  | some (c, a, n) =>
    match s.chunkReach c a n with
    | .wait => (s.chunkFetch c a n).beginOnce (.op c.op)
    | .fail st => ((s.clusterIdle cl).poolFault st).galStop { c with chunks := c.chunks.filter (·.1 != cl) } (streamFail st)
    | .ok =>
      let (s, c) := (s.clusterIdle cl).runChunk c a n
      (s.galSettle { c with chunks := c.chunks.filter (·.1 != cl) }).noCluster

/-- A stream access of the chunk on a cluster fails (R82). -/
def State.chunkFault (s : State) (cl : Nat) : State :=
  match s.chunkOn cl with
  | none => s
  | some (c, _, _) => (s.clusterIdle cl).galStop { c with chunks := c.chunks.filter (·.1 != cl) } stStreamFault

/-- A ring operation's command. -/
def State.galOf (s : State) (op : Nat) : Option GalCmd := s.gal.cmds.find? fun c => c.op == op && c.step.isNone

/-- A command or step faults; of its chunks those selected end with it, and the others finish (R82). -/
def State.galFail (s : State) (c : GalCmd) (st : Nat) (ends : Nat × Nat × Nat → Bool) : State :=
  ((c.chunks.filter ends).foldl (fun s x => s.clusterIdle x.1) s).galStop { c with chunks := c.chunks.filter fun x => !ends x } st

/-- A chunk of a command waits for a page of T4. -/
def State.chunkWaits (s : State) (c : GalCmd) (x : Nat × Nat × Nat) : Bool := s.chunkReach c x.2.1 x.2.2 == .wait

/-- A stream access of a command fails, outside any chunk that the failure names: the chunk that made it is taken to be the oldest (log entry
127). -/
def State.galFault (s : State) (c : GalCmd) (st : Nat) : State := s.galFail c st fun x => c.chunks.head? == some x

/-- A command whose last writes wait for a page of T4. -/
def State.lastWaits (s : State) (c : GalCmd) : Bool := c.rowsDone && s.groupReach c == .wait

/-- R173's limit passes for a Gallery command that runs. -/
def State.galWaitTimeout (s : State) (op : Nat) : State :=
  match s.galOf op with
  | some c => if c.chunks.any (s.chunkWaits c) || s.lastWaits c then (s.ripe (.op op) s.fetchWaitNs).galFail c stStreamFault (s.chunkWaits c) else s
  | none => s

/-! ### Slices and rings that end -/

/-- Commands stop without completion; chunks that run finish (Table 13-5, R308): those selected by their slice or operation. -/
def State.galDrop (s : State) (sel : GalCmd → Bool) : State :=
  { s with gal := { s.gal with
      cmds := s.gal.cmds.filterMap fun c =>
        if sel c then (if c.chunks.isEmpty then none else some { c with count := c.next, fault := some stInternal }) else some c,
      held := s.gal.held.filter fun id => (s.op id).isSome, heads := s.gal.heads.filter fun id => (s.op id).isSome } }

/-- Commands whose operation has ended stop. -/
def State.galSweep (s : State) : State := s.galDrop fun c => c.step.isNone && (s.op c.op).isNone && c.fault.isNone

/-- A slice reset on the Gallery (Table 13-5). -/
def State.galResetSlice (s : State) (i : Nat) : State := s.galDrop fun c => c.slice == i

/-- A FAULTED slice on the Gallery (R305): running chunks stop, and what they wrote is undefined. -/
def State.galEndSlice (s : State) (i : Nat) : State :=
  let mine := s.gal.cmds.filter (·.slice == i)
  let s := mine.foldl (fun s c => c.chunks.foldl (fun s x => (s.clusterIdle x.1).freeDest c x.2.1 x.2.2) s) s
  (({ s with gal := { s.gal with cmds := s.gal.cmds.filter (·.slice != i) } }).galSweep).progSweep

/-- No command of the slice is fetched and incomplete: the Gallery's boundary (R97). -/
def State.galQuiet (s : State) (i : Nat) : Bool := !s.ops.any fun o => o.owner == i && o.src == 0x06

end Sys2Proof.Machine
end

