-- ==== Sys2Proof/Machine/FltOps.lean ====
section
/-! DEFINITION. The flight sequencer: buffers and bindings (R104, R109), what a step needs and how late it is (R111, R114, R115), how
steps start, complete and stop (R106, R119, R120), aborts and control messages (R113, R121, R122), and holds (R124). -/

namespace Sys2Proof.Machine

/-- Flight status codes (Table 05-10). -/
def stImageInvalid : Nat := 0x50
def stFlightSlotsFull : Nat := 0x51
def stFlightIdInUse : Nat := 0x52
def stPeerMismatch : Nat := 0x53
def stTimeUnlocked : Nat := 0x54
def stNoBufferSpace : Nat := 0x55
def stFlightState : Nat := 0x56
def stSupplyShed : Nat := 0x57
def stCmdInvalid : Nat := 0x58
def stImageFetch : Nat := 0x59

/-! ### Flights -/

/-- The flight in a slot. -/
def State.flight (s : State) (k : Nat) : Option Flight := look s.flights k

/-- A flight set. -/
def State.setFlight (s : State) (k : Nat) (f : Flight) : State := { s with flights := put s.flights k f }

/-- A flight changed. -/
def State.updFlight (s : State) (k : Nat) (g : Flight → Flight) : State :=
  match s.flight k with
  | some f => s.setFlight k (g f)
  | none => s

/-- Slot and flight of a FLIGHT_ID. -/
def State.flightOf (s : State) (id : Nat) : Option (Nat × Flight) := s.flights.find? fun e => e.2.id == id

/-- The flight with an ID is in a run with an epoch (R112, R122). -/
def State.flightRun (s : State) (id epoch : Nat) : Option (Nat × Flight) :=
  s.flights.find? fun e => e.2.id == id && e.2.active && e.2.epoch == epoch

/-- State of a step. -/
def Flight.stepSt (f : Flight) (j : Nat) : StepState := lookD f.steps j .waiting

/-- A step's state set. -/
def Flight.setStep (f : Flight) (j : Nat) (x : StepState) : Flight := { f with steps := put f.steps j x }

/-- STEPS_DONE. -/
def Flight.stepsDone (f : Flight) : Nat := (f.steps.filter fun e => e.2 == .complete).length

/-- Every step is complete. -/
def Flight.allDone (f : Flight) : Bool := f.stepsDone == flSteps f.image

/-- Every step has passed its commit point (R119). -/
def Flight.allCommitted (f : Flight) : Bool :=
  (f.steps.filter fun e => e.2 == .complete || e.2 == .running true).length == flSteps f.image

/-- First step not complete; 0xFFFF for none (Table 05-9). -/
def Flight.failStep (f : Flight) : Nat := (((List.range (flSteps f.image)).find? fun j => f.stepSt j != .complete).getD 0xFFFF) % 65536

/-- Scheduled start of a step (R111). -/
def Flight.sched (f : Flight) (j : Nat) : Nat := f.epoch + (flStep f.image j).start

/-- Encoding of STATE (Table 05-18). -/
def FlightState.code : FlightState → Nat
  | .loaded => 1
  | .armed => 2
  | .running => 3
  | .stalled => 4
  | .landed => 5
  | .aborted => 6
  | .cancelled => 7

/-- Devices of a flight other than this one. -/
def Flight.peers (f : Flight) : List Nat := (List.range (flDevs f.image)).filter (· != flDev f.image)

/-! ### Buffers -/

/-- Space and first byte of a buffer (R104, R109). -/
def State.flBase (s : State) (k : Nat) (f : Flight) (b : Nat) : Space × Nat :=
  let x := flBuf f.image b
  if x.space < 2 then (.flight k b, 0)
  else if x.space = 3 then (.accel x.pos, x.addr)
  else
    match f.binds.find? (·.1 == b) with
    | some (_, some h, a) => (.tier h, a)
    | some (_, none, a) => ((s.slice f.slice).space, a)
    | none => (.flight k b, 0)

/-- The memory of a slot's buffers of SPACE 0 and 1 freed (R104, R110). -/
def State.freeBuffers (s : State) (k : Nat) : State :=
  { s with mem := s.mem.clear ((Space.flight k 0).at 0) (2 ^ 40 * 2 ^ 64) }

/-- One more HBM frame for a flight's buffers of SPACE 1, away from the one before it (R104, R161, R181). -/
def State.addFrame (s : State) (k : Nat) : State :=
  match s.flight k with
  | none => s
  | some f =>
    let (u, s) := s.findFrame f.slice 1 none (f.frames.getLast?).toList
    s.updFlight k fun f => { f with frames := f.frames ++ u.toList }

/-- A flight takes a slot, with its buffers cleared and their frames in T1 (R104). -/
def State.placeFlight (s : State) (k : Nat) (f : Flight) : State :=
  (List.range (f.tierPages 1)).foldl (fun s _ => s.addFrame k) ((s.freeBuffers k).setFlight k f)

/-- Streams of a Gallery step: one for each operand, and one for each slot of a repeated input (R106). -/
def State.stepStrms (s : State) (k : Nat) (f : Flight) (x : FStep) : List Strm :=
  x.opds.flatMap fun o =>
    let y := flBuf f.image o.buf
    let p := s.flBase k f o.buf
    let c := if y.fmt.isMx then s.flBase k f y.scaleBuf else (p.1, 0)
    let mk (off per : Nat) : Strm :=
      ⟨o.dir, y.kind, y.fmt, p.1, p.2 + y.offset off, c.1, c.2 + (if y.fmt.isMx then off / 32 else 0), per, y.slot⟩
    if y.kind = 1 ∧ o.dir = 0 then (List.range o.rep).map fun r => mk (o.off + r) 0
    else [mk o.off (if y.kind = 1 ∧ 1 < o.rep then x.count / o.rep else 0)]

/-- Where an operand of a SEND, RECV or COPY lies: the spans of its elements, or of one slot with its header (Table 05-6). -/
def State.opdSpans (s : State) (k : Nat) (f : Flight) (x : FStep) (o : FOpd) : List (Space × Nat × Nat) :=
  let y := flBuf f.image o.buf
  let p := s.flBase k f o.buf
  if y.kind = 1 then [(p.1, p.2 + y.offset o.off, 64 + x.count * recordBytes y.fmt)]
  else
    (p.1, p.2 + eltOff y.fmt o.off, eltEnd y.fmt (o.off + x.count) - eltOff y.fmt o.off) ::
      (if x.kind = 6 ∧ y.fmt.isMx then
        [((s.flBase k f y.scaleBuf).1, (s.flBase k f y.scaleBuf).2 + o.off / 32, ceilDiv x.count 32)] else [])

/-! ### Completion -/

/-- Bytes 16 to 31 of a run's completion (Table 05-9). -/
def Flight.words (f : Flight) (origin : Nat) : Nat × Nat :=
  (f.stepsDone % 2 ^ 32 + 2 ^ 32 * f.cvtFlags + 2 ^ 40 * f.lateCause + 2 ^ 48 * origin,
    min f.maxLate (2 ^ 32 - 1) + 2 ^ 32 * min f.lateSteps 65535 + 2 ^ 48 * f.failStep)

/-- A run's completion is written, and its status kept in FLT_LAST (R117). -/
def State.flightEnd (s : State) (k : Nat) (f : Flight) (status origin : Nat) : State :=
  let w := f.words origin
  (s.setFlight k { f with ending := none, lastStatus := status, lastOrigin := origin }).finishNow f.armOp status w.1 w.2

/-- A Gallery command of a flight is still there. -/
def State.galOfFlight (s : State) (k : Nat) : Bool :=
  (s.gal.cmds.any fun c => match c.step with | some (i, _) => i == k | none => false)

/-- What the Gallery reports of a step's end is taken up: flags and deferral (R106, R116, R117). -/
def Flight.absorb (f : Flight) (e : StepEnd) : Flight :=
  { f with cvtFlags := f.cvtFlags ||| (e.flags % 256), anyDeferred := f.anyDeferred || e.deferred, anySaturated := f.anySaturated || bitAt e.flags 5 }

/-- A Gallery step's status is a fault. -/
def StepEnd.bad (e : StepEnd) : Bool := e.status != stOk && e.status != stAccSaturated && e.status != stEnergyDeferred

/-- A step is complete, and counted (Table 05-19). -/
def State.stepCount (s : State) (k j : Nat) : State :=
  (s.updFlight k fun f => f.setStep j .complete).bump64 R.FLT_CNT_STEP_LO R.FLT_CNT_STEP_HI 1

/-- A Gallery step that has ended is taken up by a run that has ended itself: complete, or stopped by its fault (R117, R120). -/
def State.stepEnded (s : State) (e : StepEnd) : State :=
  let s := s.updFlight e.slot fun f => f.absorb e
  if e.bad then s.updFlight e.slot fun f => f.setStep e.step .stopped else s.stepCount e.slot e.step

/-- The Gallery steps of a slot that have ended are taken up (R117). -/
def State.flightTake (s : State) (k : Nat) : State :=
  (s.gal.ended.filter (·.slot == k)).foldl State.stepEnded { s with gal := { s.gal with ended := s.gal.ended.filter (·.slot != k) } }

/-- A run that has ended writes its completion once no step of it runs, and with every step taken up that has run to its end (R120). -/
def State.flightSettle (s : State) (k : Nat) : State :=
  match s.flight k with
  | none => s
  | some f =>
    match f.ending with
    | none => s
    | some (st, origin) =>
      if s.galOfFlight k then s
      else
        let s := s.flightTake k
        match s.flight k with
        | some f => s.flightEnd k f st origin
        | none => s

/-- A flight of which every step is complete is LANDED (R116). -/
def State.flightLand (s : State) (k : Nat) : State :=
  match s.flight k with
  | none => s
  | some f =>
    if (f.st == .running || f.st == .stalled) && f.allDone then
      s.flightEnd k { f with st := .landed, held := false, holdAsked := false }
        (if f.anySaturated then stAccSaturated else if f.anyDeferred then stEnergyDeferred else stOk) (flDev f.image)
    else s

/-! ### Control messages (R113, R121, R122) -/

/-- A flight control packet goes out on a port (R130, R203): of the opcodes 0xD8 to 0xDF, whose meanings the spec does not give one by one, 0xD9 is
an abort broadcast, 0xDA an arrival report, 0xDB a keepalive and 0xDC an acknowledgement (log entry 42). Its fields are the flight, the epoch, and what
its kind has. -/
def State.ctlOut (s : State) (port slice len dest kind : Nat) (fields : List Nat) : State :=
  (s.bump64 R.RTE_CNT_TX_LO R.RTE_CNT_TX_HI 1).txNet port 0 slice len (.net dest (0xD8 + kind) fields)

/-- A control message of a flight. -/
def State.sendCtl (s : State) (f : Flight) (dest kind : Nat) (fields : List Nat) : State :=
  s.ctlOut (flDevPort f.image dest) f.slice (flWire f.image dest (Config.ctlLen kind)) dest kind (f.id :: f.epoch :: fields)

/-- A message that waits for its acknowledgement goes out again. -/
def State.ctlAgain (s : State) (c : Ctl) : State := s.ctlOut c.port c.slice c.len c.dest c.kind (c.id :: c.epoch :: c.num :: c.fields)

/-- Queue of a port that flight data uses (R203). -/
def State.flightQueue (s : State) (f : Flight) (dest : Nat) : Nat := 16 * flDevPort f.image dest + s.getF F.TXS_CONFIG_FLIGHT_QUEUE

/-- Next PSN and next MSG_SEQ of a flight's connection to a device (R129; log entry 42). -/
def Flight.conn (f : Flight) (d : Nat) : Nat × Nat := lookD f.conns d (Config.flightPsn f.id d % 2 ^ 24, 0)

/-- A FLIGHT_WRITE packet goes to a device (R130): of a message of `len` bytes with number `seq`, the bytes at offset `off`, for the buffer of the device
from byte `to0` on. Its paths take turns (R131; log entry 42). Fields: DSCP, UDP source port and PSN, then the placement header, the epoch and the
payload, byte by byte. -/
def State.flightPkt (s : State) (k dest buf to0 seq off len : Nat) (bs : List Byte) : State :=
  match s.flight k with
  | none => s
  | some f =>
    let psn := (f.conn dest).1
    let hdr := placeHdr (to0 + off) (65536 * f.id + buf % 4096) off (seq % 2 ^ 24) (hdrFlags false (off + bs.length == len) (off == 0) false) len
    let sport := 0xC000 + 16 * (Config.flightSport f.id dest % 1024) + psn % flDevPaths f.image dest
    let o := Out.net dest 0xC9 (s.getF F.TXS_CONFIG_FLIGHT_DSCP :: sport :: psn :: (hdr ++ beBytes 8 f.epoch ++ bs).map BitVec.toNat)
    ((s.bump64 R.RTE_CNT_TX_LO R.RTE_CNT_TX_HI 1).txNet (flDevPort f.image dest) (s.getF F.TXS_CONFIG_FLIGHT_QUEUE) f.slice
      (flWire f.image dest (8 + bs.length)) o).setFlight k { f with conns := put f.conns dest ((psn + 1) % 2 ^ 24, (f.conn dest).2) }

/-- The run that a queued FLIGHT_WRITE is of: FLIGHT_ID and epoch, as its KEY and its epoch field name them. -/
def Out.flightRun : Out → Option (Nat × Nat)
  | .net _ 0xC9 (_ :: _ :: _ :: l) => some (256 * l.getD 8 0 + l.getD 9 0, ((l.drop 24).take 8).foldl (fun n b => 256 * n + b) 0)
  | _ => none

/-- The packets of a run that wait in egress queues do not leave (R120). -/
def State.flightUnsend (s : State) (f : Flight) : State :=
  s.pp.queues.foldl (fun s e => s.setTxQueue e.1 (e.2.filter fun x => (x.out.bind Out.flightRun) != some (f.id, f.epoch))) s

/-- A control message is acknowledged, on the port by which a loaded flight of its ID reaches the device; for another flight port and IP family are
open (R113, R122). -/
def State.ackCtl (s : State) (id epoch src num : Nat) : State :=
  match s.flightOf id with
  | some (_, f) => s.ctlOut (flDevPort f.image src) f.slice (flWire f.image src (Config.ctlLen 4)) src 4 [id, epoch, num]
  | none =>
    let (w, s) := s.drawWord
    s.ctlOut (w % 16) 0xFFFF (flWire [] 0 (Config.ctlLen 4) + 20 * (w / 16 % 2)) src 4 [id, epoch, num]

/-- A control message goes to devices, and waits for their acknowledgements; `step`: the LANDING that it reports. -/
def State.broadcast (s : State) (k : Nat) (dests : List Nat) (kind step : Nat) (fields : List Nat) : State :=
  match s.flight k with
  | none => s
  | some f =>
    let l := dests.map fun d => (⟨k, f.id, f.epoch, f.slice, flDevPort f.image d, flWire f.image d (Config.ctlLen kind), d, s.flCtlNext, kind, fields, step,
      max f.epochUp (lookD f.progress d 0), flPeerTimeout f.image⟩ : Ctl)
    let s := l.foldl State.ctlAgain s
    { s with flCtl := s.flCtl ++ l, flCtlNext := s.flCtlNext + 1 }

/-- Code of an abort reason in a broadcast; the messages' layout is not described, so the number is the model's. -/
def AbortReason.code : AbortReason → Nat
  | .peerLost => 0
  | .peerMismatch => 1
  | .lateAbort => 2
  | .hostLost => 3
  | .stepFault => 4
  | .migrated => 5
  | .shed => 6
  | .cancel => 7

/-- Status at a peer (Table 05-12). -/
def AbortReason.peerStatus : AbortReason → Nat
  | .peerMismatch => stPeerMismatch
  | .cancel => stCancelled
  | _ => stPeerLost

/-- Status at the originator (Table 05-12); that of STEP_FAULT is the step's own. -/
def AbortReason.status : AbortReason → Nat
  | .peerLost => stPeerLost
  | .peerMismatch => stPeerMismatch
  | .lateAbort => stLateAbort
  | .hostLost => stHostLost
  | .stepFault => stStreamFault
  | .migrated => stSliceFrozen
  | .shed => stSupplyShed
  | .cancel => stCancelled

/-! ### How a run ends early (R120) -/

/-- What an unfinished step leaves when the run ends: a COPY or SIGNAL-ACCEL past its commit point has issued its writes and is complete, a Gallery
step past its commit point runs on, and every other one stops; what a stopped RECV had of its data is undefined. -/
def State.stepStop (s : State) (k j : Nat) : State :=
  match s.flight k with
  | none => s
  | some f =>
    let x := flStep f.image j
    match f.stepSt j with
    | .running done =>
      if 3 ≤ x.kind ∧ x.kind ≤ 5 then
        match s.gal.cmds.find? (fun c => c.step == some (k, j)) with
        | some c =>
          if done then s
          else
            let s := c.chunks.foldl (fun (s : State) (e : Nat × Nat × Nat) => s.clusterIdle e.1) s
            ((s.galRemove c).setFlight k (f.setStep j .stopped)).progSweep
        | none => s
      else if x.kind = 2 then
        let mine := x.opds.flatMap fun o => o.ranges f.image x
        let s := (f.placed.filter fun p => p.1 == x.peer && mine.any (rangesMeet (p.2.1, p.2.2.1, p.2.2.2.1))).foldl (fun s p =>
          let b := s.flBase k f p.2.1
          s.freeSpan (b.1, b.2 + p.2.2.1, p.2.2.2.1)) s
        s.setFlight k (f.setStep j .stopped)
      else if done ∧ (x.kind = 6 ∨ x.kind = 8) then s.stepCount k j
      else s.setFlight k (f.setStep j .stopped)
    | _ => s

/-- Reports of landings that did not complete are no longer repeated when the run ends (R113, R120). -/
def State.dropReports (s : State) (k : Nat) (f : Flight) : State :=
  { s with flCtl := s.flCtl.filter fun c => c.slot != k || c.kind != 2 || c.epoch != f.epoch || f.stepSt c.step == .complete }

/-- An active flight ends by abort or cancel (R119, R120, R122): its steps stop or run to their end, and the originator broadcasts. -/
def State.endFlight (s : State) (k : Nat) (r : AbortReason) (status origin : Nat) (relay : Bool) : State :=
  match s.flight k with
  | none => s
  | some f =>
    if !f.active then s
    else
      let s := ((s.commitOp f.armOp).setFlight k { f with
        st := if r = .cancel then .cancelled else .aborted, held := false, holdAsked := false, ending := some (status, origin), txLeft := [] }).flightUnsend f
      let s := s.dropReports k f
      let s := if r = .cancel then s else s.event F.FLT_STATUS_ABORT
      let s := f.steps.foldl (fun s e => s.stepStop k e.1) s
      let s := if relay then s else (s.bump F.FLT_CNT_ABORT_TX_COUNT).broadcast k f.peers 1 0 [r.code, origin]
      s.flightSettle k

/-- This device ends a flight for a reason of its own. -/
def State.abortFlight (s : State) (k : Nat) (r : AbortReason) (status : Nat) : State :=
  match s.flight k with
  | some f => s.endFlight k r status (flDev f.image) false
  | none => s

/-- Every active flight of a kind ends (R123, R125). -/
def State.endFlights (s : State) (sel : Flight → Bool) (r : AbortReason) : State :=
  (s.flights.filter fun e => sel e.2).foldl (fun s e => s.abortFlight e.1 r r.status) s

/-- A step completes with a fault status (Table 05-12). -/
def State.stepFault (s : State) (k st : Nat) : State := s.abortFlight k .stepFault st

/-! ### Readiness and lateness (R111, R114, R115) -/

/-- Doorbells that step j needs from position a: it is the k-th step of the run to wait on a (R111). -/
def Flight.doorbellNo (f : Flight) (j a : Nat) : Nat := ((List.range (j + 1)).filter fun i => bitAt (flStep f.image i).wait a).length

/-- Dependencies complete and doorbells arrived (R111). -/
def Flight.inputsReady (f : Flight) (j : Nat) : Bool :=
  let x := flStep f.image j
  x.deps.all (fun d => f.stepSt d == .complete) &&
    (List.range 8).all fun a => !bitAt x.wait a || f.doorbellNo j a ≤ lookD f.doorbells a 0

/-- Steps that wait with their inputs ready. -/
def Flight.readySteps (f : Flight) : List Nat :=
  (List.range (flSteps f.image)).filter fun j => f.stepSt j == .waiting && f.inputsReady j

/-- The engine of a step's KIND has other work: the Gallery commands, or the RTE data to send (R114). -/
def State.engineBusy (s : State) (kind : Nat) : Bool :=
  if 3 ≤ kind ∧ kind ≤ 5 then !s.gal.cmds.isEmpty
  else if kind = 1 then (s.flights.any fun e => !e.2.txLeft.isEmpty) || s.rte.qps.any fun e => !e.2.queue.isEmpty
  else false

/-- Waiting steps met their last condition now, with a cause (R114). -/
def State.blameAt (s : State) (f : Flight) (steps : List Nat) (cause : Nat) : Flight :=
  { f with blame := steps.foldl (fun t j => put t j (s.now, cause, s.engineBusy (flStep f.image j).kind)) f.blame }

/-- Steps that became ready, against an earlier state of the flight, met their last condition now (R114). -/
def State.blameNew (s : State) (k : Nat) (old : Flight) (cause : Nat) : State :=
  s.updFlight k fun f => s.blameAt f (f.readySteps.filter fun j => !old.readySteps.contains j) cause

/-- The waiting steps of a flight that are due met their last condition now: the end of a hold, of a pause or of a deferral (R114). -/
def State.blameDue (s : State) (k cause : Nat) : State :=
  s.updFlight k fun f => s.blameAt f (f.readySteps.filter fun j => f.sched j ≤ s.now) cause

/-- Cause of a late step: what it met last; where its engine had other work then, and it starts only later, the engine was met last (R114). A doorbell
carries no time, so that the step behind it alone shows when it came (log entry 129). -/
def Flight.cause (f : Flight) (j now : Nat) : Nat :=
  match look f.blame j with
  | some (t, c, busy) => if t < now ∧ busy then 4 else c
  | none => 4

/-- A late step is recorded, and logged when it is late enough (R114). -/
def State.recordLate (s : State) (k j : Nat) : State :=
  match s.flight k with
  | none => s
  | some f =>
    let late := s.now - f.sched j
    if late = 0 then s
    else
      let c := f.cause j s.now
      let f := { f with lateSteps := f.lateSteps + 1, maxLate := max f.maxLate late, lateCause := if f.maxLate < late then c else f.lateCause }
      if late < f.lateLogNs ∨ f.lateLog = 0 ∨ f.lateLogLen ≤ f.logged ∨ !s.canDma (s.slice f.slice).fn then s.setFlight k f
      else
        { s.setFlight k { f with logged := f.logged + 1 } with
          mem := s.mem.write ((s.slice f.slice).space.at (f.lateLog + 16 * f.logged)) (leBytes 2 j ++ leBytes 1 c ++ leBytes 5 0 ++ leBytes 8 late) }

/-- A STALLED flight of which no due step has waited longer than LATE_LIMIT runs again (R115). -/
def State.unstall (s : State) (k : Nat) : State :=
  s.updFlight k fun f =>
    if f.st = .stalled ∧ !(List.range (flSteps f.image)).any (fun j => f.stepSt j == .waiting && f.sched j + flLateLimit f.image < s.now) then
      { f with st := .running }
    else f

/-- Halls that a step's engine lies in. -/
def stepHalls (kind : Nat) : List Nat :=
  if kind = 1 then [5] else if 3 ≤ kind ∧ kind ≤ 5 then [6, 7] else if kind = 8 then [1] else []

/-- The engine of a step is paused: for the Gallery, both of its halls. -/
def State.stepPaused (s : State) (kind : Nat) : Bool :=
  let h := stepHalls kind
  s.hallPaused 0 || s.hallPaused 11 || (!h.isEmpty && h.all s.hallPaused)

/-- A step of a kind starts at a Newel time not before its schedule (R111): the state with the step running and its lateness recorded;
none where it does not start. -/
def State.stepBegin (s : State) (k j kind t : Nat) : Option State :=
  match s.flight k with
  | none => none
  | some f =>
    let x := flStep f.image j
    if j < flSteps f.image ∧ x.kind = kind ∧ f.stepSt j = .waiting ∧ (f.st = .running ∨ f.st = .stalled) ∧ !f.held ∧ f.inputsReady j ∧
        !s.stepPaused kind then
      let s := (s.atLeast (max t (f.sched j))).recordLate k j
      some ((s.updFlight k fun f => f.setStep j (.running false)).unstall k)
    else none

/-- The access of a SEND or COPY step to its bytes: what it reads, and for a COPY what it writes (R106, R173). -/
def State.stepReach (s : State) (k : Nat) (f : Flight) (j : Nat) : TierRes :=
  let x := flStep f.image j
  let spans (q : FOpd → Bool) : List (Space × Nat × Nat) := match x.opds.find? q with | some o => s.opdSpans k f x o | none => []
  let at0 (w : Bool) (r : TierRes) (e : Space × Nat × Nat) : TierRes := match r with | .ok => s.spanReach f.slice w e.1 e.2.1 e.2.2 | r => r
  let r := (spans FOpd.reads).foldl (at0 false) .ok
  if x.kind = 6 then (spans FOpd.writes).foldl (at0 true) r else r

/-- Demand fetches of the pages of T4 that a SEND or COPY step needs (R173). -/
def State.stepFetch (s : State) (k : Nat) (f : Flight) (j : Nat) : State :=
  let x := flStep f.image j
  (x.opds.filter fun o => x.kind == 6 || o.reads).foldl (fun s o => s.spansFetch (!o.reads) (s.opdSpans k f x o)) s

/-! ### Completion of steps -/

/-- A step completes (R106, R116): steps behind it may be ready, a landing may hold the flight (R124), and the last one lands it. -/
def State.stepDone (s : State) (k j : Nat) : State :=
  match s.flight k with
  | none => s
  | some f =>
    let x := flStep f.image j
    let s := s.stepCount k j
    let s := s.blameNew k f (if x.kind = 2 then 3 else 2)
    let s := if x.kind = 7 ∧ f.holdAsked then s.updFlight k fun f => { f with held := true } else s
    s.flightLand k

/-- Points at which the number of ranges that cover a byte can fall. -/
def covered (rs : List (Nat × Nat)) (n a len : Nat) : Bool :=
  len == 0 || (a :: ((rs.map fun r => r.1 + r.2).filter fun p => a < p && p < a + len)).all fun p =>
    n ≤ (rs.filter fun r => r.1 ≤ p && p < r.1 + r.2).length

/-- Every byte of a RECV is placed and visible; where earlier RECVs of the run take the same bytes, once for each of them (R107, R112). -/
def Flight.recvDone (f : Flight) (j : Nat) : Bool :=
  let x := flStep f.image j
  x.opds.all fun o =>
    let y := flBuf f.image o.buf
    let a := y.offset o.off
    let len := if y.kind = 1 then 64 + x.count * recordBytes y.fmt else eltEnd y.fmt (o.off + x.count) - a
    let n := ((List.range (j + 1)).filter fun i => (flStep f.image i).kind == 2 && (flStep f.image i).peer == x.peer &&
      (flRecv f.image i).any (rangesMeet (o.buf, a, len))).length
    covered ((f.placed.filter fun p => p.1 == x.peer && p.2.1 == o.buf && p.2.2.2.2).map fun p => (p.2.2.1, p.2.2.2.1)) (max 1 n) a len

/-- Landing number of a LANDING step: it is the n-th step of the run on its set. -/
def Flight.landNo (f : Flight) (j : Nat) : Nat :=
  ((List.range (j + 1)).filter fun i => (flStep f.image i).kind == 7 && (flStep f.image i).peer == (flStep f.image j).peer).length

/-- Arrival is known for every member rank (R113). -/
def Flight.landDone (f : Flight) (j : Nat) : Bool :=
  let l := (flStep f.image j).peer
  (flMembers f.image l).all fun r => f.landNo j ≤ (f.arrived.filter fun e => e.1 == l && e.2 == r).length

/-! ### Checks of an image (R108) -/

/-- Local positions of an image: those of its ranks, and of its buffers in accelerator windows. -/
def flPositions (b : List Byte) : List Nat :=
  ((flRanksOf b (flDev b)).map fun r => (flRank b r).2.1) ++
    ((List.range (flBufs b)).filterMap fun k => if (flBuf b k).space = 3 then some (flBuf b k).pos else none)

/-- The image agrees with the environment entry (R108): its ranks' positions and profiles, and its windows. -/
def State.flEnvOk (s : State) (b : List Byte) : Bool :=
  (flRanksOf b (flDev b)).all (fun r => s.accelPresent (flRank b r).2.1 && (flRank b r).2.2 == s.accelProfile (flRank b r).2.1) &&
    (flPositions b).all s.accelPresent

/-- Positions that a step waits on or signals. -/
def FStep.positions (x : FStep) : List Nat := (List.range 8).filter fun a => bitAt (x.wait ||| x.signal) a

/-- The group of a PROGRAM step runs beyond a slot of its buffer: its carried records, by the resident version that the step names (R88, R108). -/
def State.exportOver (s : State) (i : Nat) (b : List Byte) (j : Nat) : Bool :=
  let x := flStep b j
  x.kind == 5 && (match s.findProg i x.progId x.progVer with
    | none => false
    | some q =>
      let img := (s.progSlot q).image
      match x.opds[(FHead.of img).streams]? with
      | some o => (flBuf b o.buf).kind == 1 && (flBuf b o.buf).elements < (carried img).length
      | none => false)

/-- The step that breaks R105 to R108 first. -/
def State.flBadStep (s : State) (i : Nat) (b : List Byte) : Option Nat :=
  (List.range (flSteps b)).find? fun j => !flStepOk b j || !((flStep b j).positions.all s.accelPresent) || s.exportOver i b j

/-- Result of the checks of R108 on an image: status and FAIL_STEP. -/
def State.imageStatus (s : State) (i : Nat) (b : List Byte) (id : Nat) : Nat × Nat :=
  if !flTablesOk b b.length || flId b != id || !s.flEnvOk b then (stImageInvalid, 0xFFFF)
  else
    match s.flBadStep i b with
    | some j => (stImageInvalid, j)
    | none =>
      let g (a : Nat) : Bool := bitAt (s.slice i).accelGrant a
      if !((flPositions b).all g) then (stRights, 0xFFFF)
      else
        match (List.range (flSteps b)).find? fun j => !((flStep b j).positions.all g) with
        | some j => (stRights, j)
        | none =>
          match (List.range (flSteps b)).find? fun j =>
            (flStep b j).kind == 5 && (s.findProg i (flStep b j).progId (flStep b j).progVer).isNone with
          | some j => (stProgAbsent, j)
          | none => (stOk, 0xFFFF)

/-- A flight just loaded. -/
def Flight.fresh (i id : Nat) (b : List Byte) : Flight :=
  { slice := i, id := id, image := b, st := .loaded, holdAsked := false, held := false, epoch := 0, epochUp := 0, binds := [], armOp := 0, lateLog := 0,
    frames := [], lateLogLen := 0, lateLogNs := 0, logged := 0, steps := [], cvtFlags := 0, lateCause := 0, maxLate := 0, lateSteps := 0, doorbells := [],
    counters := [], blame := [], txLeft := [], placed := [], arrived := [], seen := [], progress := [], conns := [],
    relayed := false, ending := none, anyDeferred := false, anySaturated := false, lastStatus := 0, lastOrigin := 0 }

/-! ### Freeze holds (R124) -/

/-- A freeze request holds an ARMED flight at once, and a running one at its next landing. -/
def State.holdFlights (s : State) (i : Nat) : State :=
  { s with flights := s.flights.map fun (e : Nat × Flight) =>
      if e.2.slice == i && e.2.active then (e.1, if e.2.st = .armed then { e.2 with held := true } else { e.2 with holdAsked := true }) else e }

/-- Every active flight of a slice is held. -/
def State.flightsHeld (s : State) (i : Nat) : Bool := s.flights.all fun e => e.2.slice != i || !e.2.active || e.2.held

/-- Held flights of a slice resume; their waiting steps are late with cause HELD. -/
def State.resumeFlights (s : State) (i : Nat) : State :=
  (s.flights.filter fun e => e.2.slice == i).foldl (fun s e =>
    let s := if e.2.held then s.blameDue e.1 7 else s
    s.updFlight e.1 fun f => { f with held := false, holdAsked := false }) s

/-- A SAVE ends every held flight with reason MIGRATED (R124). -/
def State.migrateFlights (s : State) (i : Nat) : State := s.endFlights (fun f => f.slice == i && f.held) .migrated

/-! ### Unloading -/

/-- A flight is unloaded: its buffers are freed and its program slots released (R110). A Gallery step of it whose chunks still run after a slice reset
is no longer any slot's. -/
def State.unload (s : State) (k : Nat) : State :=
  let s := { s with gal := { s.gal with ended := s.gal.ended.filter (·.slot != k) } }
  let s := s.galDrop fun c => match c.step with | some (i, _) => i == k | none => false
  let s := { s with gal := { s.gal with cmds := s.gal.cmds.map fun (c : GalCmd) => match c.step with
    | some (i, j) => if i = k then { c with step := some (k + 64 * (s.draws + 1), j) } else c
    | none => c } }
  let held : Option Flight := s.flight k
  let s := (({ s with flights := drop s.flights k }).freeBuffers k).progSweep
  s.freed (held.elim 0 Flight.slice) (held.elim [] fun f => f.frames.map fun u => (1, u))

/-- Every flight of a slice is unloaded (Table 13-5). -/
def State.unloadSlice (s : State) (i : Nat) : State := (s.flights.filter fun e => e.2.slice == i).foldl (fun s e => s.unload e.1) s

/-- A loaded flight names an accelerator profile (R42). -/
def State.profileInUse (s : State) (p : Nat) : Bool :=
  s.flights.any fun e => (List.range (flRanks e.2.image)).any fun r => (flRank e.2.image r).2.2 == p

/-! ### The Coffer and the sequencer (R115) -/

/-- Charge of one unit of 64 KiB of RTE transmission, in pJ (Table 16-3). -/
def State.txCost (s : State) : Nat := s.energyTable 12 * 1000

/-- Units of 64 KiB of a SEND; a message without bytes is one (R115). -/
def sendUnits (len : Nat) : Nat := max 1 (ceilDiv len 65536)

/-- A unit of a SEND's source goes to its peer, packet by packet (R106, R130). -/
def State.sendUnit (s : State) (k dest buf to0 seq : Nat) (src : Space × Nat × Nat) (u : Nat) : State :=
  let n := min 65536 (src.2.2 - 65536 * u)
  let (bs, s) := s.getBytes src.1 (src.2.1 + 65536 * u) n
  (List.range (max 1 (ceilDiv n flightMtu))).foldl (fun s p =>
    s.flightPkt k dest buf to0 seq (65536 * u + flightMtu * p) src.2.2 (cut bs (flightMtu * p) (min flightMtu (n - flightMtu * p)))) s

/-- Frame bytes of a unit of n bytes (R206). -/
def Flight.unitWire (f : Flight) (dest n : Nat) : Nat := n + max 1 (ceilDiv n flightMtu) * flWire f.image dest 8

/-- The next unit of a SEND that runs leaves: where its bytes can be reached, its queue has room and the Coffer admits it; with the first the step passes
its commit point (R106, R115, R119, R203). -/
def State.sendOne (s : State) (k j : Nat) : Bool × State :=
  match s.flight k with
  | none => (false, s)
  | some f =>
    let x := flStep f.image j
    match look f.txLeft j, x.opds.find? FOpd.reads, x.opds.find? FOpd.writes with
    | some (left, seq), some i, some o =>
      match s.opdSpans k f x i with
      | [] => (false, s)
      | src :: _ =>
        if s.stepPaused 1 ∨ s.shedAt 4 ∨ !s.txFits (s.flightQueue f x.peer) (f.unitWire x.peer (min 65536 src.2.2)) then (false, s)
        else match s.stepReach k f j with
        | .fail st => (false, (s.poolFault st).stepFault k (streamFail st))
        | .wait => (false, s.stepFetch k f j)
        | .ok =>
          let (ok, s) := s.offer 1 (some f.slice) s.txCost
          if !ok then (false, s.updFlight k fun f => { f with anyDeferred := true })
          else
            let y := flBuf f.image i.buf
            let to0 := if y.kind = 1 then o.off * y.slot else eltOff y.fmt o.off
            let s := s.sendUnit k x.peer o.buf to0 seq src (sendUnits src.2.2 - left)
            (true, s.updFlight k fun f => { f.setStep j (.running true) with txLeft := if left ≤ 1 then drop f.txLeft j else put f.txLeft j (left - 1, seq) })
    | _, _, _ => (false, s)

/-- Units of a SEND leave until one may not. -/
def State.sendGo (k j : Nat) : Nat → State → State
  | 0, s => s
  | n + 1, s =>
    match s.sendOne k j with
    | (true, s) => State.sendGo k j n s
    | (false, s) => s

/-- Units of SENDs that wait are offered again: in a new epoch, behind a pause, and when a queue has room. -/
def State.txRetry (s : State) : State :=
  s.flights.foldl (fun s e => e.2.txLeft.foldl (fun s t => State.sendGo e.1 t.1 t.2.1 s) s) s

/-! ### Newel time (R101, R102) -/

/-- The time state as ARM and FLT_PTP_STATUS see it: a device in role none or grandmaster is LOCKED (R101). -/
def State.timeState (s : State) : TimeState := if !s.str.env.isEmpty && s.ptpRole < 2 then .locked else s.time.st

/-- A write of PF0 to FLT_NEWEL_ADJ or a STEP register while PTP owns them is ignored, and counted (R102). -/
def State.newelOwned (s : State) (m : Master) : Bool := (match m with | .pf0 _ => true | _ => false) && s.ptpRole != 0

/-- A time write refused (R102). -/
def State.newelRefuse (s : State) : State := (s.event F.FLT_STATUS_STEP_REFUSED).bump F.FLT_CNT_REFUSED_COUNT

/-- A flight command ends with a status, its slot or 0, and the step that FAIL_STEP names (Table 05-9). -/
def State.fltRefuse (s : State) (o : Op) (st low dev fail : Nat) : State :=
  s.finishNow o.id st (low % 2 ^ 32 + 2 ^ 48 * dev) (2 ^ 48 * fail)

/-! ### ARM (R109) -/

/-- A bind table entry (R108's text): buffer, SPACE, handle, address. -/
def bindEntry (b : List Byte) : Nat × Nat × Nat × Nat := (fieldAt b 0 2, fieldAt b 2 1, fieldAt b 4 4, fieldAt b 8 8)

/-- The entry obeys its layout and names a buffer of its SPACE (log entry 29). -/
def bindOkAt (img b : List Byte) : Bool :=
  let e := bindEntry b
  e.1 < flBufs img && (e.2.1 == 2 || e.2.1 == 4) && (flBuf img e.1).space == e.2.1 && fieldAt b 3 1 == 0 && (e.2.1 == 2 || e.2.2.1 == 0)

/-- Status of one binding (R109). -/
def State.bindStatus (s : State) (i : Nat) (img b : List Byte) : Nat :=
  let e := bindEntry b
  let n := (flBuf img e.1).bytes
  if e.2.1 = 2 then s.tierCheck i e.2.2.1 e.2.2.2 n else if 2 ^ 64 < e.2.2.2 + n then stBounds else stOk

/-- Status of the bindings of a whole flight: every buffer of SPACE 2 or 4 is bound, and every position is granted (R109; log entry
29). -/
def State.bindsStatus (s : State) (i : Nat) (img : List Byte) (l : List (List Byte)) : Nat :=
  match (l.map (s.bindStatus i img)).find? (· != stOk) with
  | some e => e
  | none =>
    if (List.range (flBufs img)).any fun k =>
      ((flBuf img k).space == 2 || (flBuf img k).space == 4) && !(l.any fun b => (bindEntry b).1 == k) then stKeyInvalid
    else if !((flPositions img).all fun a => bitAt (s.slice i).accelGrant a) then stRights
    else stOk

/-- Positions whose doorbells a flight's steps wait for. -/
def flWaited (img : List Byte) : List Nat :=
  (List.range 8).filter fun a => (List.range (flSteps img)).any fun j => bitAt (flStep img j).wait a

/-- A flight starts a run (R109). -/
def State.startRun (s : State) (k : Nat) (f : Flight) (o : Op) (l : List (List Byte)) : State :=
  let d := o.desc
  s.setFlight k { Flight.fresh f.slice f.id f.image with
    st := .armed, epoch := Desc.field d 20 8, armOp := o.id, lateLog := Desc.field d 28 8, lateLogLen := Desc.field d 36 4,
    lateLogNs := Desc.field d 40 4, frames := f.frames, lastStatus := f.lastStatus, lastOrigin := f.lastOrigin, conns := f.conns,
    epochUp := s.up + (Desc.field d 20 8 - s.now),
    binds := l.map fun b => let e := bindEntry b; (e.1, if e.2.1 = 2 then some e.2.2.1 else none, e.2.2.2),
    counters := (flWaited f.image).map fun a => (a, s.accelCounter a) }

/-- ARM (R17, R101, R109). Of a flight whose last run has ended and waits for Gallery steps that run to their end, it waits for that run's completion
(R116, R120; log entry 128). -/
def State.armFlight (s : State) (o : Op) : State :=
  let d := o.desc
  match s.flightOf (Desc.field d 6 2) with
  | none => s.fltRefuse o stFlightState 0 0 0xFFFF
  | some (k, f) =>
    let dev := flDev f.image
    let l := if Desc.field d 8 8 = 0 then [] else
      (List.range (Desc.field d 16 4)).map fun j => s.mem.read ((s.slice o.owner).space.at (Desc.field d 8 8 + 16 * j)) 16
    if f.slice ≠ o.owner then s.fltRefuse o stFlightState 0 0 0xFFFF
    else if 16 ≤ (s.flights.filter fun e => e.2.active).length ∧ !f.active then s.fltRefuse o stFlightSlotsFull 0 dev 0xFFFF
    else if f.active then s.fltRefuse o stFlightState 0 dev 0xFFFF
    else if f.ending.isSome then { s with fltWait := s.fltWait ++ [o.id] }
    else if s.str.ptpOff ∨ (flPositions f.image).any s.str.accelOff.contains then s.fltRefuse o stEnvMismatch 0 dev 0xFFFF
    else if s.timeState ≠ .locked ∧ s.timeState ≠ .holdover then s.fltRefuse o stTimeUnlocked 0 dev 0xFFFF
    else if !(l.all (bindOkAt f.image)) then s.fltRefuse o stCmdInvalid 0 dev 0xFFFF
    else
      let st := s.bindsStatus o.owner f.image l
      if st ≠ stOk then s.fltRefuse o st 0 dev 0xFFFF else s.startRun k f o l

/-- UNLOAD (R110); behind a run that has ended and waits for its Gallery steps, it waits for that run's completion (log entry 128). -/
def State.unloadFlight (s : State) (o : Op) : State :=
  match s.flightOf (Desc.field o.desc 6 2) with
  | none => s.fltRefuse o stFlightState 0 0 0xFFFF
  | some (k, f) =>
    let dev := flDev f.image
    if f.slice ≠ o.owner ∨ f.active then s.fltRefuse o stFlightState 0 dev 0xFFFF
    else if f.ending.isSome then { s with fltWait := s.fltWait ++ [o.id] }
    else (s.unload k).fltRefuse o stOk 0 dev 0xFFFF

/-- ARM and UNLOAD that waited for the completion of the run before are taken up again (log entry 128). -/
def State.fltRetry (s : State) : State :=
  s.fltWait.foldl (fun s id => match s.op id with
    | some o => if Desc.bits o.desc 35 32 = 2 then s.armFlight o else s.unloadFlight o
    | none => s) { s with fltWait := [] }

/-- Steps that ran to their end after their flight ended are taken up, and the run's completion goes out behind the last of them
(R120). -/
def State.flightAbsorb (s : State) : State :=
  let past := ((s.gal.ended.filter fun e => !((s.flight e.slot).map Flight.active).getD false).map (·.slot)).dedup
  (past.foldl (fun s k => (s.flightTake k).flightSettle k) s).fltRetry

/-! ### Cancels (R119) -/

/-- Runs whose every step has passed its commit point are past theirs. -/
def State.fltCommits (s : State) : State :=
  s.flights.foldl (fun s e => if e.2.active && e.2.st != .armed && e.2.allCommitted then s.commitOp e.2.armOp else s) s

/-- A cancel of a flight command. -/
def State.fltCancelTag (s : State) (i tag : Nat) : CancelResult × State :=
  let s := s.fltCommits
  match s.cancelFind i [0x0B] tag with
  | (.cancelled, some o) =>
    match s.flights.find? fun e => e.2.active && e.2.armOp == o.id with
    | some (k, _) => (.cancelled, s.abortFlight k .cancel stCancelled)
    | none =>
      match s.waitOf o.id with
      | some c => (.cancelled, s.waitEnd c stCancelled)
      | none => (.cancelled, s.finishNow o.id stCancelled 0 0)
  | (r, _) => (r, s)

end Sys2Proof.Machine
end

