-- ==== Sys2Proof/Machine/RteOps.lean ====
section
/-! DEFINITION. The RDMA transport engine: keys (R141, R142), the sender (R137, R138, R140), the receiver with its visible-PSN edge (R132
to R135, R151), completions (R148, R150), errors (R143, R153) and the context cache (R145, R146). -/

namespace Sys2Proof.Machine

/-- RTE status codes (Table 06-10). -/
def stWqeInvalid : Nat := 0x60
def stFlushed : Nat := 0x61
def stRemoteAccess : Nat := 0x62
def stRetryExceeded : Nat := 0x63
def stRnrExceeded : Nat := 0x64
def stRemoteInvalid : Nat := 0x65
def stQpState : Nat := 0x66
def stClaspTimeout : Nat := 0x67
def stLength : Nat := 0x68
def stMisaligned : Nat := 0x69
def stRteQuota : Nat := 0x6A
def stCtxFault : Nat := 0x6B
def stClaspFault : Nat := 0x6C

/-! ### QPs -/

/-- Difference of PSNs modulo 2^24. -/
def psnSub (a b : Nat) : Nat := (a + 2 ^ 24 - b % 2 ^ 24) % 2 ^ 24

/-- Sum of PSNs modulo 2^24. -/
def psnAdd (a n : Nat) : Nat := (a + n) % 2 ^ 24

/-- A PSN lies below an edge. -/
def psnBelow (p e : Nat) : Bool := psnSub e p != 0 && psnSub e p < 2 ^ 23

/-- MODE of a QP is sprayed. -/
def qpSprayed (q : Qp) : Bool := fieldAt q.attr 0 1 == 1
/-- NET_PORT. -/
def Qp.port (q : Qp) : Nat := fieldAt q.attr 2 1
/-- DEST_QPN. -/
def Qp.dest (q : Qp) : Nat := fieldAt q.attr 4 3
/-- MTU in bytes. -/
def Qp.mtu (q : Qp) : Nat := if fieldAt q.attr 67 1 = 1 then 1024 else if fieldAt q.attr 67 1 = 2 then 2048 else 4096
/-- CC_PROFILE. -/
def Qp.cc (q : Qp) : Nat := fieldAt q.attr 71 1 % 8
/-- RETRY_COUNT. -/
def Qp.retries (q : Qp) : Nat := fieldAt q.attr 72 1
/-- RNR_RETRY; 7 is treated as 6 (R138). -/
def Qp.rnrRetry (q : Qp) : Nat := min 6 (fieldAt q.attr 73 1)
/-- MAX_RD_ATOMIC. -/
def Qp.maxRd (q : Qp) : Nat := fieldAt q.attr 75 1
/-- MAX_DEST_RD_ATOMIC. -/
def Qp.maxDest (q : Qp) : Nat := fieldAt q.attr 76 1

/-- A QP. -/
def State.qp (s : State) (n : Nat) : Option Qp := look s.rte.qps n

/-- A QP set. -/
def State.setQp (s : State) (n : Nat) (q : Qp) : State := { s with rte := { s.rte with qps := put s.rte.qps n q } }

/-- A QP changed. -/
def State.updQp (s : State) (n : Nat) (f : Qp → Qp) : State :=
  match s.qp n with
  | some q => s.setQp n (f q)
  | none => s

/-- A QP used now (R145). -/
def State.touchQp (s : State) (n : Nat) : State :=
  { s.updQp n fun q => { q with lastUse := s.rte.useClock + 1 } with rte := { (s.updQp n fun q => { q with lastUse := s.rte.useClock + 1 }).rte with useClock := s.rte.useClock + 1 } }

/-- QPs of a slice in use. -/
def State.qpsUsed (s : State) (i : Nat) : Nat := (s.rte.qps.filter fun e => e.2.slice == i).length

/-- Keys of a slice in use. -/
def State.keysUsed (s : State) (i : Nat) : Nat := (s.rte.keys.filter fun e => e.2.slice == i).length

/-- A QP names a ring (R308). -/
def State.qpNames (s : State) (r : Nat) : Bool :=
  s.rte.qps.any fun e => e.2.st != 0 && (e.2.sq == r || e.2.rq == r || e.2.scq == r || e.2.rcq == r)

/-- Line rate of a network port in Mb/s: 200 Gb/s for each lane in use. -/
def State.lineRate (s : State) (p : Nat) : Nat := s.getF (F.ETH_GROUP_STATE_PORT_LANES (p / 4)) / 16 ^ (p % 4) % 16 * 200000

/-! ### Keys (R141, R142) -/

/-- A right of Table 06-7's OPERAND_B. -/
inductive KeyRight | localRead | localWrite | remoteRead | remoteWrite | remoteAtomic
  deriving DecidableEq, Repr

/-- Its bit. -/
def KeyRight.bit : KeyRight → Nat
  | .localRead => 0
  | .localWrite => 1
  | .remoteRead => 2
  | .remoteWrite => 3
  | .remoteAtomic => 4

/-- The key check of Table 06-6, in its order. -/
def State.keyCheck (s : State) (i key : Nat) (r : KeyRight) (off len : Nat) (atomic : Bool) : Nat :=
  match look s.rte.keys (key / 256) with
  | none => stKeyInvalid
  | some k =>
    if k.tag ≠ key % 256 ∨ k.slice ≠ i then stKeyInvalid
    else if k.st = 2 then stKeyRevoked
    else if !bitAt k.rights r.bit then stRights
    else if k.len < off + len then stBounds
    else if atomic ∧ off % 8 ≠ 0 then stMisaligned
    else stOk

/-- Where an offset of a key's region lies. -/
def State.keyAt (s : State) (key off : Nat) : Space × Nat :=
  match look s.rte.keys (key / 256) with
  | none => (.accel 0, 0)
  | some k =>
    (match k.space with
     | 0 => .tier k.handle
     | 1 => (s.slice k.slice).space
     | _ => .accel k.pos, k.base + off)

/-- An access of the RTE for a slice (R172, R173, R178, R180, Table 12-6). -/
def State.rteReach (s : State) (i : Nat) (write : Bool) (x : Space × Nat) (n : Nat) : TierRes :=
  match x.1 with
  | .tier h =>
    let st := s.tierCheck i h x.2 n
    if st ≠ stOk then .fail st
    else match s.obj (h / 256) with
      | none => .fail stKeyInvalid
      | some o => s.rangeReach (h / 256) o write (pagesIn x.2 n)
  | .host _ _ => if s.canDma (s.slice i).fn then .ok else .fail stMasterDisabled
  | .accel p => if s.accelUp p then .ok else .fail stRights
  | _ => .ok

/-- The key's entry is in the key cache (R141). -/
def State.keyCached (s : State) (key : Nat) : Bool :=
  match look s.rte.keys (key / 256) with
  | some k => k.cached
  | none => true

/-! ### Completion (R148) -/

/-- Bytes 16 to 31 of an RTE record (Table 06-9). -/
def rteWords (bytes imm opcode qpn flags st : Nat) : Nat × Nat :=
  (bytes % 2 ^ 32 + 2 ^ 32 * (imm % 2 ^ 32), qpn % 2 ^ 24 + 2 ^ 24 * opcode + 2 ^ 32 * flags + 2 ^ 40 * st)

/-- Opcode byte of a work request. -/
def wqeOpcode (d : Desc) : Nat := Desc.field d 4 1

/-- A work request of a ring ends, with the Coffer's deferral where it is a success. -/
def State.rteEnd (s : State) (id st : Nat) (w : Nat × Nat) : State :=
  match s.op id with
  | none => s
  | some o => s.finish id (if st = stOk ∧ o.deferred then stEnergyDeferred else st) w.1 w.2

/-- QPN that a work request's record names. -/
def State.wqeQpn (s : State) (o : Op) : Nat := (((s.sqOf o.ring).or (s.rqOf o.ring)).map (·.1)).getD 0

/-- A work request that transfers nothing ends with a status; a RECV's record is a receive completion (Table 06-9). -/
def State.rteFail (s : State) (id st : Nat) : State :=
  match s.op id with
  | none => s
  | some o => s.rteEnd id st (rteWords 0 0 (wqeOpcode o.desc) (s.wqeQpn o) (if wqeOpcode o.desc = 8 then 4 else 0) 0)

/-- The descriptors that a ring holds and has not fetched complete with FLUSHED (R153). -/
def State.flushQueued (s : State) (r : Nat) : State :=
  match s.ring r with
  | none => s
  | some g =>
    let l := s.behind g
    let s := s.setRing r { g with fi := g.pi }
    let s := l.foldl (fun (s : State) d =>
      let o : Op := ⟨s.opNext, r, g.owner, 0x05, bits d.toNat 31 0, d, s.sendCq r g, opIntr g.kind d, true, false, none⟩
      ({ s with ops := s.ops ++ [o], opNext := s.opNext + 1 }).rteFail o.id stFlushed) s
    s

/-- Every queued and started work request of a ring completes with FLUSHED, in ring order (R153). -/
def State.flushRing (s : State) (r : Nat) : State :=
  let s := (s.clasps.filter (·.ring == r)).foldl (fun s c => s.waitRecord c stFlushed) s
  let s := (s.ops.filter fun o => o.ring == r && o.done.isNone).foldl (fun s o => s.rteFail o.id stFlushed) s
  s.flushQueued r

/-- A MODIFY to SQD completes, with the QP's state (Table 06-9). -/
def State.sqdEnd (s : State) (id n st : Nat) : State :=
  match s.op id with
  | some o => s.finish id stOk 0 (rteWords 0 0 (wqeOpcode o.desc) n 0 st).2
  | none => s

/-- A QP enters ERROR (R153): the work request that caused it has its status, and every other one is flushed. -/
def State.qpError (s : State) (n : Nat) (cause : Option (Nat × Nat)) : State :=
  match s.qp n with
  | none => s
  | some q =>
    if q.st = 5 then s
    else
      let s := match cause with
        | some (id, st) => s.rteFail id st
        | none => s
      let s := (s.flushRing q.sq).flushRing q.rq
      let s := q.sqdOps.foldl (fun s e => s.sqdEnd e.1 n 5) s
      let s := s.setQp n { q with st := 5, work := [], queue := [], unacked := [], recvs := [], claims := [], sqdOps := [], waitRnr := false,
                                  unreported := 0 }
      s.event F.RTE_STATUS_QP_ERROR

/-- The work request that holds a PSN. -/
def Qp.workAt (q : Qp) (p : Nat) : Option SendWork := q.work.find? fun w => w.sent && psnSub p w.psn < w.packets

/-! ### Transmission (R131, R137, R138, R140) -/

/-- Sprayed opcodes (Table 06-3). -/
def PktOp.code : PktOp → Nat
  | .write => 0xC0
  | .writeImm => 0xC1
  | .send => 0xC2
  | .sendImm => 0xC3
  | .readReq => 0xC4
  | .readResp => 0xC5
  | .fetchAdd => 0xC6
  | .cmpSwap => 0xC7
  | .atomicResp => 0xC8
  | .ack => 0xD0
  | .nak => 0xD1
  | .cnp => 0x81
  | .unknown => 0xFF

/-- RoCEv2 opcodes of the reliable connection by operation and place in the message (R127). PRESUMED: Annex A17's, which the spec names and does not
list (log entry 135). -/
def PktOp.roceCode (op : PktOp) (first last : Bool) : Nat :=
  let at4 (f m l o : Nat) : Nat := match first, last with
    | true, false => f
    | false, false => m
    | false, true => l
    | true, true => o
  match op with
  | .send => at4 0x00 0x01 0x02 0x04
  | .sendImm => at4 0x00 0x01 0x03 0x05
  | .write => at4 0x06 0x07 0x08 0x0A
  | .writeImm => at4 0x06 0x07 0x09 0x0B
  | .readReq => 0x0C
  | .readResp => at4 0x0D 0x0E 0x0F 0x10
  | .ack => 0x11
  | .nak => 0x11
  | .atomicResp => 0x12
  | .cmpSwap => 0x13
  | .fetchAdd => 0x14
  | .cnp => 0x81
  | .unknown => 0xFF

/-- Frame bytes of a packet of a QP (R206), with n bytes between BTH and ICRC: Ethernet with its tag, IP, UDP, BTH, ICRC and FCS. -/
def Qp.wireLen (q : Qp) (n : Nat) : Nat :=
  14 + (if fieldAt q.attr 20 2 = 0 then 0 else 4) + (if fieldAt q.attr 16 1 = 6 then 40 else 20) + 8 + 12 + n + 4 + 4

/-- UDP source port of a path (R131); in RoCEv2 mode the single one. -/
def Qp.sport (q : Qp) (path : Nat) : Nat := fieldAt q.attr 18 2 + (if qpSprayed q then path else 0)

/-- Egress queue of a QP's packets, 16·port + queue (R203). -/
def State.rteQueue (s : State) (q : Qp) : Nat := 16 * q.port + s.dscpQueue (fieldAt q.attr 17 1 / 4)

/-- A packet is handed to transmission, to the peer QP under a BTH opcode (R203): fields are the DSCP, the UDP source port and the PSN, and then the bytes
between BTH and ICRC. -/
def State.rteSend (s : State) (q : Qp) (code path psn : Nat) (body : List Byte) : State :=
  (s.bump64 R.RTE_CNT_TX_LO R.RTE_CNT_TX_HI 1).txNet q.port (s.dscpQueue (fieldAt q.attr 17 1 / 4)) q.slice (q.wireLen body.length)
    (.net q.dest code (fieldAt q.attr 17 1 / 4 :: q.sport path :: psn :: body.map BitVec.toNat))

/-- Field k of a packet: VADDR, KEY, MSG_OFFSET, MSG_SEQ, flags and MSG_LEN of the placement header, then what its opcode has. -/
def SentPkt.field (p : SentPkt) (k : Nat) : Nat := p.fields.getD k 0

/-- The packet is the first of its message. -/
def SentPkt.first (p : SentPkt) : Bool := bitAt (p.field 4) 1

/-- BTH opcode of a packet. -/
def SentPkt.code (sprayed : Bool) (p : SentPkt) : Nat := if sprayed then p.op.code else p.op.roceCode p.first p.last

/-- Immediate of a message's last packet. -/
def SentPkt.imm (p : SentPkt) : List Byte := if p.last ∧ (p.op = .writeImm ∨ p.op = .sendImm) then beBytes 4 (p.field 6) else []

/-- ACK extended header: a syndrome, and the MSN (R127; PRESUMED, log entry 135). -/
def aeth (syndrome msn : Nat) : List Byte := BitVec.ofNat 8 syndrome :: beBytes 3 msn

/-- Bytes between BTH and ICRC in sprayed mode (R129, Table 06-3): placement header, what the opcode adds to it, payload. The fields that an opcode adds
are big-endian as the headers before them (log entry 132). -/
def SentPkt.sprayedBody (p : SentPkt) : List Byte :=
  placeHdr (p.field 0) (p.field 1) (p.field 2) (p.field 3) (p.field 4) (p.field 5) ++
    (match p.op with
     | .readReq => beBytes 8 (p.field 6) ++ beBytes 4 (p.field 7) ++ beBytes 4 0
     | .fetchAdd => beBytes 8 (p.field 6)
     | .cmpSwap => beBytes 8 (p.field 6) ++ beBytes 8 (p.field 7)
     | .atomicResp => beBytes 8 (p.field 6)
     | _ => p.imm) ++ p.payload

/-- Bytes between BTH and ICRC in RoCEv2 mode (R127): the extended headers of Annex A17, and the payload (PRESUMED, log entry 135). -/
def SentPkt.roceBody (msn : Nat) (p : SentPkt) : List Byte :=
  let reth := beBytes 8 (p.field 0) ++ beBytes 4 (p.field 1) ++ beBytes 4 (p.field 5)
  (match p.op with
   | .write | .writeImm => (if p.first then reth else []) ++ p.imm
   | .readReq => reth
   | .fetchAdd => beBytes 8 (p.field 0) ++ beBytes 4 (p.field 1) ++ beBytes 8 (p.field 6) ++ beBytes 8 0
   | .cmpSwap => beBytes 8 (p.field 0) ++ beBytes 4 (p.field 1) ++ beBytes 8 (p.field 6) ++ beBytes 8 (p.field 7)
   | .readResp => if p.first ∨ p.last then aeth 0x1F msn else []
   | .atomicResp => aeth 0x1F msn ++ beBytes 8 (p.field 6)
   | _ => p.imm) ++ p.payload

/-- Bytes between BTH and ICRC. -/
def SentPkt.body (q : Qp) (p : SentPkt) : List Byte := if qpSprayed q then p.sprayedBody else p.roceBody q.msn

/-- Bytes of a packet that pacing counts: payload, BTH, placement header and ICRC. -/
def SentPkt.bytes (p : SentPkt) : Nat := p.payload.length + 40

/-- Paths that may carry a packet, by number: not SUSPECT, or owed a probe; all of them when every path is SUSPECT (R131). -/
def Qp.openPaths (q : Qp) (avoid : Option Nat) : List (Nat × Path) :=
  let all := q.paths.zipIdx.map fun e => (e.2, e.1)
  let l := all.filter fun e => !e.2.suspect || e.2.probe
  let l := if l.isEmpty || q.paths.all (·.suspect) then all else l
  let m := l.filter fun e => some e.1 != avoid
  if m.isEmpty then l else m

/-- The path whose pacing allows the earliest transmission; on a tie the lowest index (R131). -/
def Qp.choose (q : Qp) (now : Nat) (avoid : Option Nat) : Nat :=
  let l := sortBy (fun (a b : Nat × Path) => decide (max (now * 1000) a.2.free < max (now * 1000) b.2.free)) (q.openPaths avoid)
  ((l.head?).map (·.1)).getD 0

/-- A path changed. -/
def Qp.updPath (q : Qp) (p : Nat) (f : Path → Path) : Qp := { q with paths := q.paths.zipIdx.map fun e => if e.2 = p then f e.1 else e.1 }

/-- A path takes a packet: its pacing advances, and a probe is the packet's. -/
def Qp.load (q : Qp) (p now psn bytes : Nat) : Qp :=
  q.updPath p fun x => { x with free := max (now * 1000) x.free + (if x.rate = 0 then 0 else bytes * 8 * 10 ^ 6 / x.rate), probe := false,
                                probePsn := if x.probe then some psn else x.probePsn }

/-- The QP's transmission may go on: its context is resident, its hall runs, the network carries it (Table 06-15), and its slice is not
FAULTED or RESETTING. -/
def State.mayTx (s : State) (q : Qp) : Bool :=
  q.resident && !s.hallPaused 5 && !s.shedAt 4 && 0 < s.lineRate q.port && !q.waitRnr &&
    ((s.slice q.slice).state == .active || (s.slice q.slice).state == .frozen)

/-- Credit for a packet: a new unit of 64 KiB is offered to the Coffer when the last is used up (R115). -/
def State.txCredit (s : State) (n bytes : Nat) : Bool × State :=
  match s.qp n with
  | none => (false, s)
  | some q =>
    if bytes ≤ q.credit then (true, s.setQp n { q with credit := q.credit - bytes })
    else
      let (ok, s) := s.offer 1 (some q.slice) s.txCost
      (ok, if ok then s.setQp n { q with credit := q.credit + 65536 - bytes } else s)

/-- A packet takes the next PSN and its message's number; a SEND takes the next send sequence number as its VADDR (Table 06-2). -/
def Qp.numbered (q : Qp) (p : SentPkt) : SentPkt :=
  { p with psn := q.nextPsn % 2 ^ 24,
           fields := (p.fields.set 3 (q.msgSeq % 2 ^ 24)).set 0 (if p.op = .send ∨ p.op = .sendImm then q.sendSeq else p.fields.headD 0) }

/-- The counts behind a packet that is sent, and the first PSN of its work request. -/
def Qp.advanced (q : Qp) (p : SentPkt) : Qp :=
  { q with nextPsn := psnAdd p.psn p.span, msgSeq := q.msgSeq + b2n p.last,
           sendSeq := q.sendSeq + b2n (p.last && (p.op == .send || p.op == .sendImm)),
           work := q.work.map fun w => if w.op = p.work ∧ !w.sent then { w with sent := true, psn := p.psn } else w }

/-- Packets that the window, the Coffer and the network let go are sent, in order; an operation passes its commit point with its first
packet (R137, R157). -/
def State.rtePump (n : Nat) : Nat → State → State
  | 0, s => s
  | k + 1, s =>
    match s.qp n with
    | none => s
    | some q =>
      match q.queue with
      | [] => s
      | p :: rest =>
        if !s.mayTx q ∨ 1024 ≤ psnSub q.nextPsn q.edge ∨ !s.txFits (s.rteQueue q) (q.wireLen (p.body q).length) then s
        else
          let (ok, s) := s.txCredit n p.payload.length
          if !ok then (if p.work = 0 then s else s.deferOp p.work)
          else
            match s.qp n with
            | none => s
            | some q =>
              let c := q.choose s.up none
              let p := { q.numbered p with order0 := q.order, path0 := c, order := q.order, path := c, sentAt := s.up }
              let q := { (q.load c s.up p.psn p.bytes).advanced p with queue := rest, unacked := q.unacked ++ [p], order := q.order + 1 }
              let s := ((s.setQp n q).commitOp p.work).rteSend q (p.code (qpSprayed q)) c p.psn (p.body q)
              State.rtePump n k s

/-- All that may go is sent. -/
def State.pump (s : State) (n : Nat) : State :=
  match s.qp n with
  | some q => State.rtePump n q.queue.length s
  | none => s

/-- Packets put behind a QP's queue, and sent as far as they may be. -/
def State.enqueue (s : State) (n : Nat) (ps : List SentPkt) : State := (s.updQp n fun q => { q with queue := q.queue ++ ps }).pump n

/-- A packet not sent yet. -/
def mkPkt (op : PktOp) (work span req : Nat) (last : Bool) (fields : List Nat) (payload : List Byte) : SentPkt :=
  ⟨0, op, work, last, span, req, fields, payload, 0, 0, 0, 0, 0, false, 0, 0, false⟩

/-- A PSN is sent again, on a path other than its last where there is another (R138). -/
def State.resend (s : State) (n psn : Nat) : State :=
  match s.qp n with
  | none => s
  | some q =>
    match q.unacked.find? (fun p => p.psn == psn && !p.placed) with
    | none => s
    | some p =>
      if !s.mayTx q ∨ !s.txFits (s.rteQueue q) (q.wireLen (p.body q).length) then s
      else
        let (ok, s) := s.txCredit n p.payload.length
        if !ok then s
        else
          match s.qp n with
          | none => s
          | some q =>
            let c := q.choose s.up (some p.path)
            let p' := { p with order := q.order, path := c, sentAt := s.up, again := true }
            let q := { q.load c s.up psn p.bytes with unacked := q.unacked.map (fun x => if x.psn = psn then p' else x), order := q.order + 1 }
            ((s.setQp n q).bump F.RTE_CNT_RETX_COUNT).rteSend q (p.code (qpSprayed q)) c psn (p.body q)

/-- In RoCEv2 mode a sender goes back: every packet from a PSN on is sent again (R138). -/
def State.goBack (s : State) (n psn : Nat) : State :=
  match s.qp n with
  | none => s
  | some q => (q.unacked.filter fun p => !psnBelow p.psn psn).foldl (fun s p => s.resend n p.psn) s

/-- A MODIFY to SQD completes when every work request that had started has (Table 06-12). -/
def State.sqdSettle (s : State) (n : Nat) : State :=
  match s.qp n with
  | none => s
  | some q =>
    let done (e : Nat × List Nat) : Bool := !(q.work.any fun w => e.2.contains w.op)
    (q.sqdOps.filter done).foldl (fun s e => s.sqdEnd e.1 n q.st) (s.setQp n { q with sqdOps := q.sqdOps.filter fun e => !done e })

/-- Work requests that the edges allow complete, in ring order (R133, R148). -/
def State.workSettle (s : State) (n : Nat) : State :=
  match s.qp n with
  | none => s
  | some q =>
    let past (w : SendWork) : Bool :=
      if w.opcode ≤ 4 then psnBelow (psnAdd w.psn (w.packets - 1)) q.edge && !(q.queue.any (·.work == w.op)) else w.respDone
    let ended := q.work.filter past
    let s := s.setQp n { q with work := q.work.filter fun w => !past w }
    let s := ended.foldl (fun s w => s.rteEnd w.op stOk (rteWords w.len 0 w.opcode n 0 0)) s
    s.sqdSettle n

/-- Bounds of the RTO (R138). -/
def State.boundRto (s : State) (x : Nat) : Nat := max 8000 (min x (s.getF F.RTE_RTO_MAX_US * 1000))

/-- A report of the receiver: its edge and the PSNs placed above it (R137, R138). SRTT takes one sample of a report: of the packets that it reports
first, the last one that was sent only once (log entry 132). -/
def State.sackIn (s : State) (n edge : Nat) (placed : List Nat) : State :=
  match s.qp n with
  | none => s
  | some q =>
    let e := if psnSub edge q.edge < 2 ^ 23 then edge % 2 ^ 24 else q.edge
    let seen (p : SentPkt) : Bool := psnBelow p.psn e || placed.contains p.psn
    let fresh := q.unacked.filter fun p => seen p && !p.placed
    let q := match ((fresh.filter (!·.again)).getLast?) with
      | none => q
      | some p =>
        let r := s.up - p.sentAt
        let srtt := if q.srtt = 0 then r else (7 * q.srtt + r) / 8
        { q with srtt := srtt, rto := s.boundRto (2 * srtt) }
    let q := fresh.foldl (fun (q : Qp) p => q.updPath p.path fun x =>
      { x with timeouts := 0, suspect := x.suspect && x.probePsn != some p.psn, probePsn := if x.probePsn = some p.psn then none else x.probePsn }) q
    let known := q.unacked.filter seen
    let left := (q.unacked.filter fun p => !psnBelow p.psn e).map fun p => { p with placed := p.placed || seen p, tries := if e = q.edge then p.tries else 0 }
    let holes := (left.filter fun p => !p.placed && known.any fun x => x.path0 == p.path && p.order < x.order0).map (·.psn)
    let s := (s.setQp n { q with edge := e, unacked := left, rnrTries := if e = q.edge then q.rnrTries else 0 }).touchQp n
    let s := if qpSprayed q then holes.foldl (fun s p => s.resend n p) s else s
    (s.workSettle n).pump n

/-! ### What the receiver sends -/

/-- Body of a SACK (Table 06-4): EDGE, PATH, BASE one above EDGE, and the 256 bits of BITMAP. -/
def Qp.sackBody (q : Qp) (path : Nat) : List Byte :=
  let base := psnAdd q.v 1
  let bit (i : Nat) : Nat := b2n (q.arrived.any fun x => psnSub x.pkt.psn base == i)
  beBytes 3 q.v ++ [BitVec.ofNat 8 (path % 16)] ++ beBytes 3 base ++ [0] ++
    (List.range 32).map fun k => BitVec.ofNat 8 ((List.range 8).foldl (fun n i => 2 * n + bit (8 * k + i)) 0)

/-- A SACK, or in RoCEv2 mode an acknowledgement of the PSNs below V, goes back on a path (R137). -/
def State.sendSack (s : State) (n path : Nat) : State :=
  match s.qp n with
  | none => s
  | some q =>
    let s := s.setQp n { q with unreported := 0 }
    if qpSprayed q then s.rteSend q 0xD0 path 0 (placeHdr 0 0 0 0 0 0 ++ q.sackBody path)
    else s.rteSend q 0x11 0 (psnSub q.v 1) (aeth 0x1F q.msn)

/-- Byte 3 of a sprayed NAK, and what follows it: the status (Table 06-3); for RNR, which has no status of its own, RNR_EXCEEDED's and the timer code
(log entry 132). -/
def NakKind.sprayedTail : NakKind → List Byte
  | .status c => [BitVec.ofNat 8 c]
  | .remoteAccess => [0x62]
  | .invalidRequest => [0x65]
  | .sequence => [0]
  | .rnr t => [0x64, BitVec.ofNat 8 t]

/-- Syndrome of a RoCEv2 NAK (PRESUMED, log entry 135). -/
def NakKind.syndrome : NakKind → Nat
  | .status _ => 0x63
  | .remoteAccess => 0x62
  | .invalidRequest => 0x61
  | .sequence => 0x60
  | .rnr t => 0x20 + t % 32

/-- A NAK goes back (R143, R138). -/
def State.sendNak (s : State) (n psn : Nat) (k : NakKind) : State :=
  match s.qp n with
  | none => s
  | some q =>
    if qpSprayed q then s.rteSend q 0xD1 q.lastPath 0 (placeHdr 0 0 0 0 0 0 ++ beBytes 3 psn ++ k.sprayedTail)
    else s.rteSend q 0x11 0 psn (aeth k.syndrome q.msn)

/-- The NAK of a failed responder check: the status, or a RoCEv2 syndrome (R143). -/
def nakFor (q : Qp) (st : Nat) : NakKind :=
  if qpSprayed q then .status st else if st = stMisaligned ∨ st = stRemoteInvalid then .invalidRequest else .remoteAccess

/-- A failed responder check (R143): the QP enters ERROR and answers with NAKs from now on. -/
def State.respFail (s : State) (n psn st : Nat) : State :=
  match s.qp n with
  | none => s
  | some q =>
    let k := nakFor q st
    (((s.updQp n fun q => { q with nak := some k }).qpError n none).bump F.RTE_CNT_NAK_COUNT).sendNak n psn k

/-- A CNP goes back for a packet marked CE, at most one for each path in CNP_INTERVAL_NS (R139). -/
def State.cnpBack (s : State) (n path : Nat) : State :=
  match s.qp n with
  | none => s
  | some q =>
    let p := if qpSprayed q then path else 0
    let gap := s.getF (F.RTE_CC_LIMITS_CNP_INTERVAL_NS q.cc)
    if (look q.cnpSent p).any fun t => s.up < t + gap then s
    else
      ((s.setQp n { q with cnpSent := put q.cnpSent p s.up }).bump F.RTE_CNT_CNP_TX_COUNT).rteSend q 0x81 p 0
        (BitVec.ofNat 8 p :: List.replicate 15 0)

/-! ### Reception: placement (R132 to R135) -/

/-- The operation is a request. -/
def PktOp.isReq : PktOp → Bool
  | .readResp => false
  | .atomicResp => false
  | .ack => false
  | .nak => false
  | .cnp => false
  | _ => true

/-- Right that an operation needs of the key that it names; none where it names none (R142). -/
def PktOp.right : PktOp → Option KeyRight
  | .write => some .remoteWrite
  | .writeImm => some .remoteWrite
  | .readReq => some .remoteRead
  | .readResp => some .localWrite
  | .fetchAdd => some .remoteAtomic
  | .cmpSwap => some .remoteAtomic
  | _ => none

/-- Bytes of the region that a packet names. -/
def Pkt.span (p : Pkt) : Nat :=
  match p.op with
  | .readReq => p.msgLen
  | .fetchAdd => 8
  | .cmpSwap => 8
  | _ => p.payload.length

/-- The packet is an atomic. -/
def Pkt.atomic (p : Pkt) : Bool := p.op == .fetchAdd || p.op == .cmpSwap

/-- A packet with the address that it has in RoCEv2 mode: later packets of a message go on from the first, and a SEND is as long as its packets so far
(R127). -/
def Qp.resolve (q : Qp) (p : Pkt) : Pkt :=
  if qpSprayed q then p
  else
    let send := p.op == .send || p.op == .sendImm
    if p.first then (if send then { p with msgLen := p.payload.length } else p)
    else { p with vaddr := q.roce.1 + q.roce.2.2.1, key := q.roce.2.1, msgOffset := q.roce.2.2.1,
                  msgLen := if send then q.roce.2.2.1 + p.payload.length else q.roce.2.2.2 }

/-- Links that a placed range of a space goes over (R134): host memory by the slice's, an accelerator window by the position's. -/
def State.spaceLink (s : State) (sp : Space) : Option Nat :=
  match sp with
  | .host l _ => some l
  | .accel a => some (2 * s.accelPort a + s.accelHalf a)
  | _ => none

/-- The receive work request of a SEND by its sequence number (R150; log entry 31): the one that it claimed, or among those that no SEND
claims the one that as many earlier unclaimed SENDs leave to it. A WRITE_IMM's claim stands under 2^64 plus its PSN. -/
def Qp.recvFor (q : Qp) (seq : Nat) : Option Nat :=
  match q.claims.find? (·.1 == seq) with
  | some c => some c.2
  | none =>
    let free := q.recvs.filter fun r => !(q.claims.any (·.2 == r))
    free[(seq + 2 ^ 64 - q.recvSeq) % 2 ^ 64 - (q.claims.filter fun c => c.1 < seq).length]?

/-- The receive work request that a WRITE_IMM reserves as its last packet is placed: the oldest that no message has claimed (log entry 31). -/
def Qp.recvImm (q : Qp) : Option Nat := q.recvs.find? fun r => !(q.claims.any (·.2 == r))

/-- Send sequence number of a packet of a SEND: its VADDR, or in RoCEv2 mode the next one. -/
def Qp.seqOf (q : Qp) (p : Pkt) : Nat := if qpSprayed q then p.vaddr else q.recvSeq

/-- Received opcode of a completion (Table 06-8). -/
def PktOp.wqe : PktOp → Nat
  | .send => 1
  | .sendImm => 2
  | .write => 3
  | .writeImm => 4
  | _ => 0

/-- A receive completion (R133, R148). -/
def State.recvEnd (s : State) (n id st : Nat) (p : Pkt) : State :=
  let imm := p.op == .sendImm || p.op == .writeImm
  s.rteEnd id st (rteWords p.msgLen (if imm then p.imm else 0) p.op.wqe n (b2n imm + 2 * b2n p.solicited + 4) 0)

/-- First PSN of a packet's message. -/
def Qp.firstPsn (q : Qp) (p : Pkt) : Nat := psnSub p.psn (p.msgOffset / q.mtu)

/-- Packets of a READ response (R130): the placement header names the requester's destination. -/
def Qp.respPkts (q : Qp) (p : Pkt) (bs : List Byte) : List SentPkt :=
  let k := max 1 (ceilDiv bs.length q.mtu)
  (List.range k).map fun j =>
    mkPkt .readResp 0 1 p.psn (j + 1 == k) [p.argA + j * q.mtu, p.argB, j * q.mtu, 0, hdrFlags false (j + 1 == k) (j == 0) false, bs.length]
      (cut bs (j * q.mtu) (min q.mtu (bs.length - j * q.mtu)))

/-- The answer to an atomic, with its original value; its placement header names no region (log entry 35). -/
def atomicPkt (psn old : Nat) : SentPkt := mkPkt .atomicResp 0 1 psn true [0, 0, 0, 0, hdrFlags false true true false, 8, old] []

/-- The responder executes a READ_REQ or an atomic that its edge has reached (R133, R151): its response goes out. -/
def State.execReq (s : State) (n : Nat) (p : Pkt) : State :=
  match s.qp n with
  | none => s
  | some q =>
    let x := s.keyAt p.key p.vaddr
    if p.op = .readReq then
      let (bs, s) := s.getBytes x.1 x.2 p.msgLen
      let ps := q.respPkts p bs
      if qpSprayed q then s.enqueue n ps
      else ps.zipIdx.foldl (fun s r => s.rteSend q (r.1.code false) 0 (psnAdd p.psn r.2) (r.1.body q)) s
    else
      let (bs, s) := s.getBytes x.1 x.2 8
      let old := leNat bs
      let new := if p.op = .fetchAdd then (old + p.argA) % 2 ^ 64 else if old = p.argB then p.argA else old
      let s := s.putBytes x.1 x.2 (leBytes 8 new)
      let s := s.updQp n fun q => { q with kept := ((p.psn, old) :: q.kept).take (max 1 q.maxDest) }
      let r := atomicPkt p.psn old
      if qpSprayed q then s.enqueue n [r] else s.rteSend q (r.code false) 0 p.psn (r.body q)

/-- A READ or atomic waits for its response. -/
def SendWork.open' (w : SendWork) : Bool := 4 < w.opcode && w.sent && !w.respDone && w.result.isNone

/-- The response of a work request is complete. -/
def Qp.doneWith (q : Qp) (w : SendWork) : Qp := { q with work := q.work.map fun x => if x.op = w.op then { x with respDone := true } else x }

/-- The response of the oldest READ or atomic that waits for one has arrived whole. -/
def Qp.answered (q : Qp) : Qp :=
  match q.work.find? SendWork.open' with
  | none => q
  | some w => q.doneWith w

/-- The original value of an atomic is written where its work request says (R147, R151; log entry 35); for a page of T4 it waits for the fetch (R173). -/
def State.atomicBack (s : State) (n : Nat) (q : Qp) (w : SendWork) (old : Nat) : State :=
  match s.op w.op with
  | none => s
  | some o =>
    let key := Desc.field o.desc 12 4
    let off := Desc.field o.desc 16 8
    let st := s.keyCheck q.slice key .localWrite off 8 false
    if st ≠ stOk then s.qpError n (some (w.op, st))
    else
      let x := s.keyAt key off
      match s.rteReach q.slice true x 8 with
      | .fail e => (s.poolFault e).qpError n (some (w.op, e))
      | .wait =>
        let s := s.updQp n fun q => { q with work := q.work.map fun y => if y.op = w.op then { y with result := some old } else y }
        let s : State := { s with plc := { s.plc with waits := s.plc.waits.filter (·.1 != w.op) ++ [(w.op, PlcWait.fetch)] } }
        let s := s.begin (.op w.op)
        (match x.1 with
         | .tier h => s.fetchPages (h / 256) true (pagesIn x.2 8)
         | _ => s)
      | .ok => ((s.putBytes x.1 x.2 (leBytes 8 old)).setQp n (q.doneWith w)).workSettle n

/-- What the edge's passing of a message's last PSN delivers (R133). -/
def State.deliver (s : State) (n : Nat) (x : InPkt) : State :=
  match s.qp n with
  | none => s
  | some q =>
    match x.pkt.op with
    | .send | .sendImm =>
      (match x.recv with
       | some id => (s.setQp n { q with recvs := q.recvs.filter (· != id), claims := q.claims.filter (·.2 != id), recvSeq := q.recvSeq + 1 }).recvEnd n id
           stOk x.pkt
       | none => s)
    | .writeImm =>
      (match x.recv with
       | some id => (s.setQp n { q with recvs := q.recvs.filter (· != id), claims := q.claims.filter (·.2 != id) }).recvEnd n id stOk x.pkt
       | none => s)
    | .readResp => (s.setQp n q.answered).workSettle n
    | .atomicResp => (match q.work.find? SendWork.open' with
      | some w => s.atomicBack n q w x.pkt.argA
      | none => s)
    | _ => s

/-- The packet's message writes a responder completion when the edge passes it (R133). -/
def PktOp.completes : PktOp → Bool
  | .send => true
  | .sendImm => true
  | .writeImm => true
  | _ => false

/-- Links that a zero-length read has to push before V passes a message (R134): those of earlier writes other than the message's own,
and for a responder completion those other than the completion ring's. -/
def Qp.pushOthers (q : Qp) (p : Pkt) (own : List Nat) (home : Nat) : List Nat :=
  q.pushLinks.filter fun l => (!own.isEmpty && !own.contains l) || (p.op.completes && l != home)

/-- Zero-length reads go out on links (R134). -/
def State.pushStart (s : State) (n : Nat) (ls : List Nat) : State :=
  ls.foldl (fun s l => s.send (.pushRead l n))
    (s.updQp n fun q => { q with pushing := (q.pushing ++ ls).dedup, pushLinks := q.pushLinks.filter fun l => !ls.contains l })

/-- PSNs that a packet takes at the responder: a RoCEv2 READ those of its response (R127). -/
def Qp.psnsOf (q : Qp) (p : Pkt) : Nat := if p.op = .readReq ∧ !qpSprayed q then max 1 (ceilDiv p.msgLen q.mtu) else 1

/-- V advances over placed packets (R132, R133): a request executes when V reaches it; the end of a message waits for zero-length reads on
the links of earlier writes (R134), delivers, and draws a SACK on the path of the packet placed last (R137). -/
def State.advance (n : Nat) : Nat → State → State
  | 0, s => s
  | k + 1, s =>
    match s.qp n with
    | none => s
    | some q =>
      match q.arrived.find? (fun x => x.pkt.psn == q.v) with
      | none => s
      | some x =>
        let p := x.pkt
        if !q.pushing.isEmpty then s
        else
          let others := q.pushOthers p x.links (s.slice q.slice).link
          if p.last ∧ !others.isEmpty then s.pushStart n others
          else
            let s := if p.op = .readReq ∨ p.atomic then s.execReq n p else s
            let s := s.updQp n fun q => { q with
              v := psnAdd q.v (q.psnsOf p), arrived := q.arrived.filter (fun y => y.pkt.psn != p.psn), msn := q.msn + b2n (p.last && p.op.isReq) }
            let s := if p.last then (s.deliver n x).sendSack n ((s.qp n).elim 0 Qp.lastPath) else s
            State.advance n k s

/-- A SACK goes out behind as many packets as RTE_SACK.PACKETS says (R137). -/
def State.sackDue (s : State) (n : Nat) : State :=
  match s.qp n with
  | none => s
  | some q => if s.getF F.RTE_SACK_PACKETS ≤ q.unreported then s.sendSack n q.lastPath else s

/-- A packet is counted for the next SACK (R137). -/
def State.reportOne (s : State) (n path : Nat) : State :=
  let s := if (s.qp n).any fun q => q.unreported == 0 then s.begin (.sack n) else s
  s.updQp n fun q => { q with unreported := q.unreported + 1, lastPath := path }

/-- A duplicate is reported in the next SACK (R132, R137). -/
def State.reportPlaced (s : State) (n path : Nat) : State := (s.reportOne n path).sackDue n

/-- A packet's payload written, with the packet marked in the arrival bitmap, and V advanced (R132). -/
def State.placeAt (s : State) (n : Nat) (p : Pkt) (x : Option (Space × Nat)) (bs : List Byte) (recv : Option Nat) : State :=
  let s := match x with
    | some (sp, a) => s.putBytes sp a bs
    | none => s
  let links := match x with
    | some (sp, _) => (s.spaceLink sp).toList
    | none => []
  let s := s.updQp n fun q => { q with
    arrived := q.arrived ++ [⟨p, links, recv⟩],
    pushLinks := (q.pushLinks ++ links).dedup,
    claims := match recv with
      | some id => if q.claims.any (·.2 == id) then q.claims else q.claims ++ [(if p.op = .writeImm then 2 ^ 64 + p.psn else q.seqOf p, id)]
      | none => q.claims,
    roce := if p.first then (p.vaddr, p.key, p.payload.length, p.msgLen) else (q.roce.1, q.roce.2.1, q.roce.2.2.1 + p.payload.length, q.roce.2.2.2) }
  let s := s.reportOne n p.path
  match s.qp n with
  | some q => (State.advance n (q.arrived.length + 1) s).sackDue n
  | none => s

/-- A packet dropped by R128, R130 or R132. -/
def State.rxDrop (s : State) : State := s.bump F.RTE_CNT_RX_DROP_COUNT

/-- An RNR NAK in ns of MIN_RNR_TIMER: the code's meaning is the RoCEv2 specification's, so the code itself is carried. -/
def State.rnrBack (s : State) (n psn : Nat) : State :=
  match s.qp n with
  | some q => s.sendNak n psn (.rnr (fieldAt q.attr 74 1))
  | none => s

/-- A SEND's packet: into the receive work request that its sequence number gives it (R150). -/
def State.placeSend (s : State) (n : Nat) (q : Qp) (p : Pkt) : State :=
  match q.recvFor (q.seqOf p) with
  | none => s.rnrBack n p.psn
  | some id =>
    match s.op id with
    | none => s.rnrBack n p.psn
    | some o =>
      let len := Desc.field o.desc 8 4
      let lkey := Desc.field o.desc 12 4
      let off := Desc.field o.desc 16 8 + p.msgOffset
      if len < p.msgLen then
        let k := nakFor q stRemoteInvalid
        (((((s.updQp n fun q => { q with nak := some k }).recvEnd n id stLength { p with msgLen := 0 }).qpError n none).bump F.RTE_CNT_NAK_COUNT).sendNak n p.psn k)
      else
        let st := s.keyCheck q.slice lkey .localWrite off p.payload.length false
        if st ≠ stOk then ((s.rteFail id st).qpError n none)
        else if p.payload.isEmpty then (s.commitOp id).placeAt n p none [] (some id)
        else
          match s.rteReach q.slice true (s.keyAt lkey off) p.payload.length with
          | .ok => (s.commitOp id).placeAt n p (some (s.keyAt lkey off)) p.payload (some id)
          | .wait => (match (s.keyAt lkey off).1 with
            | .tier h => (s.bump F.PLC_CNT_FETCH_DROP_COUNT).fetchPages (h / 256) true (pagesIn (s.keyAt lkey off).2 p.payload.length)
            | _ => s)
          | .fail st => if st = stDiscord then (s.rteFail id st).respFail n p.psn st
              else (((s.poolFault st).rteFail id (if st = stMasterDisabled then st else stRights)).qpError n none)

/-- A packet that names a key: checked, and placed where its bytes can be reached (R142, R143, R173, R178, R180); `recv`: the receive work request that the
last packet of a WRITE_IMM reserves. -/
def State.placeKey (s : State) (n : Nat) (q : Qp) (p : Pkt) (r : KeyRight) (recv : Option Nat) : State :=
  let st := s.keyCheck q.slice p.key r p.vaddr p.span p.atomic
  if st ≠ stOk then (if p.op.isReq then s.respFail n p.psn st else s.qpError n ((q.work.find? SendWork.open').map fun w => (w.op, st)))
  else if p.span = 0 then s.placeAt n p none [] recv
  else
    let x := s.keyAt p.key p.vaddr
    match s.rteReach q.slice (p.op != .readReq) x p.span with
    | .wait => (match x.1 with
      | .tier h => (s.bump F.PLC_CNT_FETCH_DROP_COUNT).fetchPages (h / 256) (p.op != .readReq) (pagesIn x.2 p.span)
      | _ => s)
    | .fail st => if p.op.isReq then (s.poolFault st).respFail n p.psn st
        else (s.poolFault st).qpError n ((q.work.find? SendWork.open').map fun w => (w.op, st))
    | .ok => s.placeAt n p (if p.op = .readReq ∨ p.atomic then none else some x) (if p.op = .readReq ∨ p.atomic then [] else p.payload) recv

/-- A checked packet is placed. -/
def State.place (s : State) (n : Nat) (p : Pkt) : State :=
  match s.qp n with
  | none => s
  | some q =>
    match p.op.right with
    | some r =>
      if p.op = .writeImm ∧ p.last then
        (match q.recvImm with
         | none => s.rnrBack n p.psn
         | some id => s.placeKey n q p r (some id))
      else s.placeKey n q p r none
    | none => if p.op = .atomicResp then s.placeAt n p none [] none else s.placeSend n q p

/-! ### Miss buffers (R145, R146) -/

/-- Bytes that an opcode adds between the BTH, or the placement header, and the payload (Table 06-3; for RoCEv2 log entry 135). -/
def Pkt.extra (p : Pkt) : Nat :=
  let imm := 4 * b2n (p.last && (p.op == .writeImm || p.op == .sendImm))
  match p.op with
  | .readReq => 16
  | .fetchAdd => if p.sprayed then 8 else 28
  | .cmpSwap => if p.sprayed then 16 else 28
  | .atomicResp => if p.sprayed then 8 else 12
  | .readResp => if p.sprayed ∨ !(p.first || p.last) then 0 else 4
  | .write | .writeImm => imm + (if p.sprayed ∨ !p.first then 0 else 16)
  | .ack => if p.sprayed then 40 else 4
  | .nak => 4
  | .cnp => 16
  | _ => imm

/-- Frame bytes of a received packet: Ethernet with its tag, IP, UDP, BTH, placement header in sprayed mode, what its opcode adds, payload, ICRC and
FCS. -/
def State.frameLen (s : State) (p : Pkt) : Nat :=
  14 + 4 * b2n p.tagged + (match s.qp p.qpn with | some q => if fieldAt q.attr 16 1 = 6 then 40 else 20 | none => 20) + 8 + 12 +
    (if p.sprayed ∧ p.op ≠ .cnp then 24 else 0) + p.extra + p.payload.length + 4 + 4

/-- Bytes in a port's miss buffer. -/
def State.missUsed (s : State) (port : Nat) : Nat := (s.rte.miss.filter fun e => e.1.port == port).foldl (fun n e => n + s.frameLen e.1) 0

/-- Occupancy shown, and its peak (Table 06-21). -/
def State.missShow (s : State) (port : Nat) : State :=
  let k := ceilDiv (s.missUsed port) 1024
  s.setFs [(F.RTE_MISS_USED_KIB port, k), (F.RTE_MISS_PEAK_KIB port, max k (s.getF (F.RTE_MISS_PEAK_KIB port)))]

/-- A packet waits in the miss buffer of its port; without room it is dropped (R135, R146). -/
def State.missPut (s : State) (p : Pkt) (w : MissWhy) : State :=
  if 4 * 2 ^ 20 < s.missUsed p.port + s.frameLen p then
    (if w = .fence then s.bump F.RTE_CNT_HOLD_DROP_COUNT else (s.bump F.RTE_CNT_MISS_DROP_COUNT).event F.RTE_STATUS_MISS_DROP)
  else
    let s := if s.rte.miss.any fun e => e.1.qpn == p.qpn && e.1.psn == p.psn then s else s.begin (.miss p.qpn p.psn)
    { s with rte := { s.rte with miss := s.rte.miss ++ [(p, w)] } }.missShow p.port

/-- Fetches in progress and resident contexts shown (Table 06-21). -/
def State.cacheShow (s : State) : State :=
  s.setFs [(F.RTE_CTX_CACHE_FETCHING, (s.rte.qps.filter (·.2.fetching)).length + (s.rte.keys.filter (·.2.fetching)).length),
    (F.RTE_CTX_CACHE_RESIDENT, (s.rte.qps.filter (·.2.resident)).length)]

/-- A context fetch begins (R145). -/
def State.fetchCtx (s : State) (n : Nat) : State :=
  match s.qp n with
  | some q => if q.fetching ∨ q.resident then s else ((((s.setQp n { q with fetching := true }).bump F.RTE_CNT_MISS_COUNT).cacheShow).begin (.context n))
  | none => s

/-- A key fetch begins (R146). -/
def State.fetchKey (s : State) (i : Nat) : State :=
  match look s.rte.keys i with
  | some k => if k.fetching then s else
      (({ s with rte := { s.rte with keys := put s.rte.keys i { k with fetching := true } } }.bump F.RTE_CNT_MISS_COUNT).cacheShow)
  | none => s

/-- Packets of a QP wait in the miss buffer for a fence. -/
def State.fenceWaits (s : State) (n : Nat) : Bool := s.rte.miss.any fun e => e.1.qpn == n && e.2 == .fence

/-- A context is pinned (R145). -/
def State.pinned (s : State) (n : Nat) (q : Qp) : Bool := !q.unacked.isEmpty || 0 < q.unreported || s.fenceWaits n

/-- The least recently used of some resident contexts. -/
def oldest (l : List (Nat × Qp)) : Option Nat := ((sortBy (fun (a b : Nat × Qp) => decide (a.2.lastUse < b.2.lastUse)) l).head?).map (·.1)

/-- Resident contexts that the cache holds. -/
def ctxSlots : Nat := 32768

/-- Room for one more context: an unpinned one is evicted where the cache is full; none where every one is pinned (R145). -/
def State.makeRoom (s : State) : Option State :=
  let res := s.rte.qps.filter (·.2.resident)
  if res.length < ctxSlots then some s
  else (oldest (res.filter fun e => !s.pinned e.1 e.2)).map fun n => s.updQp n fun q => { q with resident := false }

/-! ### Packets (R128, R130, R132, R135) -/

/-- The packet is of no new request (Table 06-15): a packet of its message, or one behind it, has been placed (log entry 134). -/
def Qp.begun (q : Qp) (p : Pkt) : Bool := psnBelow (q.firstPsn p) q.v || q.arrived.any fun x => psnBelow p.psn x.pkt.psn || q.firstPsn x.pkt == q.firstPsn p

/-- A packet with its QP's context at hand: PSN checks, key, fence, and placement. -/
def State.pktMain (s : State) (p : Pkt) : State :=
  let n := p.qpn
  match s.qp n with
  | none => s.rxDrop
  | some q =>
    let p := q.resolve p
    let d := psnSub p.psn q.v
    let key := match p.op.right with
      | some _ => p.key
      | none => 0
    if q.st = 5 then (match q.nak with
      | some k => if p.op.isReq then (s.bump F.RTE_CNT_NAK_COUNT).sendNak n p.psn k else s
      | none => s)
    else if 2 ^ 23 ≤ d ∨ q.arrived.any (fun x => x.pkt.psn == p.psn) then
      match q.kept.find? fun e => p.atomic && e.1 == p.psn with
      | some e =>
        (if qpSprayed q then (match q.unacked.find? fun r => r.op == .atomicResp && r.req == p.psn with
          | some r => s.resend n r.psn
          | none => s)
        else s.rteSend q ((atomicPkt p.psn e.2).code false) 0 p.psn ((atomicPkt p.psn e.2).body q)).reportPlaced n p.path
      | none =>
        if !qpSprayed q ∧ p.op = .readReq ∧ s.keyCheck q.slice p.key .remoteRead p.vaddr p.span false = stOk ∧
          s.rteReach q.slice false (s.keyAt p.key p.vaddr) p.span = .ok then s.execReq n p
        else s.reportPlaced n p.path
    else if 1024 ≤ d then s.rxDrop
    else if p.op.isReq ∧ ((s.slice q.slice).freezing ∨ (s.slice q.slice).state ≠ .active) ∧ !q.begun p then s.rnrBack n p.psn
    else if !qpSprayed q ∧ d ≠ 0 then s.rxDrop.sendNak n q.v .sequence
    else if p.op.right.isSome ∧ !s.keyCached key then (s.fetchKey (key / 256)).missPut p (.key (key / 256))
    else if p.fence ∧ (psnBelow q.v (q.firstPsn p) ∨ !q.pushing.isEmpty) then s.missPut p .fence
    else
      let others := if p.fence ∧ p.op.right.isSome then q.pushOthers { p with op := .write } (0x100 :: (s.spaceLink (s.keyAt p.key p.vaddr).1).toList) 0 else []
      if others.isEmpty then s.place n p else (s.pushStart n others).missPut p .fence

/-- In RoCEv2 mode a response of the requester's own PSNs: placed in order, and an acknowledgement of what came before (R127, R138). -/
def State.roceResp (s : State) (n : Nat) (q : Qp) (p : Pkt) : State :=
  match q.work.find? fun w => 4 < w.opcode && w.sent && !w.respDone with
  | none => s.rxDrop
  | some w =>
    match s.op w.op with
    | none => s.rxDrop
    | some o =>
      if p.psn ≠ psnAdd w.psn w.got then s.rxDrop
      else
        let off := Desc.field o.desc 16 8 + w.got * q.mtu
        let bs := if w.opcode = 5 then p.payload else leBytes 8 p.argA
        let st := s.keyCheck q.slice (Desc.field o.desc 12 4) .localWrite off bs.length false
        if st ≠ stOk then s.qpError n (some (w.op, st))
        else
          let x := s.keyAt (Desc.field o.desc 12 4) off
          match (if bs.isEmpty then TierRes.ok else s.rteReach q.slice true x bs.length) with
          | .wait => (match x.1 with
            | .tier h => (s.bump F.PLC_CNT_FETCH_DROP_COUNT).fetchPages (h / 256) true (pagesIn x.2 bs.length)
            | _ => s)
          | .fail e => (s.poolFault e).qpError n (some (w.op, e))
          | .ok =>
            let s := if bs.isEmpty then s else s.putBytes x.1 x.2 bs
            let done := w.got + 1 == (if w.opcode = 5 then w.packets else 1)
            let s := s.updQp n fun q => { q with work := q.work.map fun y => if y.op = w.op then { y with got := y.got + 1, respDone := done } else y }
            s.sackIn n (if done then psnAdd w.psn w.packets else w.psn) []

/-- Ns of an RNR timer code (R138): the RNR NAK timer encoding of the base specification behind Annex A17 (log entry 135). -/
def rnrNs (code : Nat) : Nat :=
  10 ^ 4 * [65536, 1, 2, 3, 4, 6, 8, 12, 16, 24, 32, 48, 64, 96, 128, 192, 256, 384, 512, 768, 1024, 1536, 2048, 3072, 4096, 6144, 8192, 12288, 16384,
    24576, 32768, 49152].getD (code % 32) 0

/-- A NAK at the requester (R138, R143, R150): a status or a syndrome ends the work request that holds the PSN and the QP; a sequence error
goes back; RNR waits the peer's timer. -/
def State.nakIn (s : State) (n psn : Nat) (k : NakKind) : State :=
  match s.qp n with
  | none => s
  | some q =>
    if q.st < 2 ∨ q.st = 5 then s
    else
      let fatal (st : Nat) : State := s.qpError n ((q.workAt psn).map fun w => (w.op, st))
      match k with
      | .status c => fatal c
      | .remoteAccess => fatal stRemoteAccess
      | .invalidRequest => fatal stRemoteInvalid
      | .sequence => (s.sackIn n psn []).goBack n psn
      | .rnr c =>
        if q.rnrRetry ≤ q.rnrTries then fatal stRnrExceeded
        else
          ((s.sackIn n (if qpSprayed q then q.edge else psn) []).updQp n fun q => { q with rnrTries := q.rnrTries + 1, waitRnr := true }).countFrom (.rnr n)
            (s.up + rnrNs c)

/-- A CNP at the sender (R140): the rate of its path falls. -/
def State.cnpIn (s : State) (n path : Nat) : State :=
  ((s.bump F.RTE_CNT_CNP_RX_COUNT).begin (.recovery n path)).updQp n fun q =>
    q.updPath (if qpSprayed q then path else 0) fun x =>
      { x with rate := max (s.getF (F.RTE_CC_LIMITS_MIN_RATE q.cc) * 100) (x.rate * (256 - s.getF (F.RTE_CC_DEC_FACTOR q.cc)) / 256) }

/-- A packet whose QP's context is resident. -/
def State.pktGo (s : State) (p : Pkt) : State :=
  match s.qp p.qpn with
  | none => s.rxDrop
  | some q =>
    match p.op, p.nak with
    | .ack, _ => if q.st < 2 ∨ q.st = 5 then s else s.sackIn p.qpn p.argA p.placed
    | .nak, some k => s.nakIn p.qpn p.psn k
    | .nak, none => s
    | .cnp, _ => s.cnpIn p.qpn p.path
    | _, _ => if !p.sprayed ∧ !p.op.isReq then s.roceResp p.qpn q p else s.pktMain p

/-- A received packet (R128 to R132, R139, R146). -/
def State.pktIn (s : State) (p : Pkt) : State :=
  let s := s.bump64 R.RTE_CNT_RX_LO R.RTE_CNT_RX_HI 1
  if s.shedAt 4 then s
  else if !p.icrcOk ∨ p.op = .unknown then s.rxDrop
  else
    match s.qp p.qpn with
    | none => s.rxDrop
    | some q =>
      if (qpSprayed q ≠ p.sprayed ∧ p.op ≠ .cnp) ∨ q.st < 2 ∨ (s.slice q.slice).state = .faulted ∨ (s.slice q.slice).state = .resetting then s.rxDrop
      else
        let s := if p.ce then s.cnpBack p.qpn p.path else s
        let s := s.touchQp p.qpn
        if !q.resident then (s.fetchCtx p.qpn).missPut p .context
        else s.pktGo p

/-- Packets leave the miss buffers, in their order of arrival, and the others stay. -/
def State.missLeave (s : State) (out stay : List (Pkt × MissWhy)) : State :=
  let s := { s with rte := { s.rte with miss := stay } }
  let s := (out.map (·.1.port)).dedup.foldl State.missShow s
  out.foldl (fun s e => s.pktGo e.1) s

/-- A fenced packet waits whose message's first PSN V has reached. -/
def State.fenceOpen (s : State) (n : Nat) (e : Pkt × MissWhy) : Bool :=
  e.1.qpn == n && e.2 == .fence && (match s.qp n with | some q => !psnBelow q.v (q.firstPsn e.1) && q.pushing.isEmpty | none => true)

/-- Fenced packets whose first PSN V has reached are placed, and those that V reaches with them (R135). -/
def State.fenceLoop (n : Nat) : Nat → State → State
  | 0, s => s
  | k + 1, s =>
    if s.rte.miss.any (s.fenceOpen n) then State.fenceLoop n k (s.missLeave (s.rte.miss.filter (s.fenceOpen n)) (s.rte.miss.filter fun e => !s.fenceOpen n e))
    else s

/-- Fenced packets of a QP go on behind V. -/
def State.fenceKick (s : State) (n : Nat) : State := State.fenceLoop n s.rte.miss.length s

/-- Packets leave, and the fences of their QPs go on. -/
def State.missGo (s : State) (out stay : List (Pkt × MissWhy)) : State :=
  (out.map (·.1.qpn)).dedup.foldl State.fenceKick (s.missLeave out stay)

/-- Packets that leave a miss buffer: those that `sel` picks. -/
def State.missTake (s : State) (sel : Pkt × MissWhy → Bool) : State := s.missGo (s.rte.miss.filter sel) (s.rte.miss.filter fun e => !sel e)

/-- Packets that wait for keys, in order: those that leave, and those that stay, as a packet of a QP stays behind an earlier one that its key keeps
(R146; a fence keeps no other packet, log entry 136). -/
def State.keyOut (s : State) : List (Pkt × MissWhy) → List Nat → List (Pkt × MissWhy) × List (Pkt × MissWhy)
  | [], _ => ([], [])
  | e :: l, held =>
    match e.2 with
    | .key i =>
      if held.contains e.1.qpn ∨ (look s.rte.keys i).any (fun k => k.fetching) then
        let r := s.keyOut l (e.1.qpn :: held)
        (r.1, e :: r.2)
      else
        let r := s.keyOut l held
        (e :: r.1, r.2)
    | _ =>
      let r := s.keyOut l held
      (r.1, e :: r.2)

/-- Packets whose keys are at hand go on (R146). -/
def State.keyGo (s : State) : State :=
  let r := s.keyOut s.rte.miss []
  s.missGo r.1 r.2

/-- Packets of a QP that wait are dropped: those that `sel` picks. -/
def State.missDrop (s : State) (sel : Pkt × MissWhy → Bool) : State :=
  let out := s.rte.miss.filter sel
  let s := { s with rte := { s.rte with miss := s.rte.miss.filter fun e => !sel e } }
  (out.map (·.1.port)).dedup.foldl State.missShow s

/-! ### Starting a work request (R147, R150) -/

/-- Packet operation of a work request. -/
def wqePktOp : Nat → PktOp
  | 1 => .send
  | 2 => .sendImm
  | 3 => .write
  | 4 => .writeImm
  | 5 => .readReq
  | 6 => .fetchAdd
  | _ => .cmpSwap

/-- Packets of a work request (Tables 06-2, 06-3 and 06-7), whose data is `bs`. -/
def Qp.wqePkts (q : Qp) (o : Op) (bs : List Byte) : List SentPkt :=
  let d := o.desc
  let opc := wqeOpcode d
  let len := Desc.field d 8 4
  let raddr := Desc.field d 24 8
  let rkey := Desc.field d 32 4
  let sol := Desc.bits d 42 42 == 1
  let fence := Desc.bits d 41 41 == 1
  if opc ≤ 4 then
    let k := max 1 (ceilDiv len q.mtu)
    (List.range k).map fun j =>
      let last := j + 1 == k
      mkPkt (wqePktOp opc) o.id 1 0 last
        ([if opc ≤ 2 then 0 else raddr + j * q.mtu, if opc ≤ 2 then 0 else rkey, j * q.mtu, 0, hdrFlags fence last (j == 0) sol, len] ++
          if (opc = 2 ∨ opc = 4) ∧ last then [Desc.field d 36 4] else [])
        (cut bs (j * q.mtu) (min q.mtu (len - j * q.mtu)))
  else
    let more := if opc = 5 then [Desc.field d 16 8, Desc.field d 12 4] else if opc = 6 then [Desc.field d 40 8] else [Desc.field d 40 8, Desc.field d 48 8]
    [mkPkt (wqePktOp opc) o.id (if opc = 5 ∧ !qpSprayed q then max 1 (ceilDiv len q.mtu) else 1) 0 true
      ([raddr, rkey, 0, 0, hdrFlags false true true sol, len] ++ more) []]

/-- A fetched send work request starts: its local key is checked and its data read, and its packets queue (R142, R143, R150, R173). -/
def State.wqeStart (s : State) (o : Op) : State :=
  let s := { s with plc := { s.plc with waits := s.plc.waits.filter (·.1 != o.id) } }
  match s.sqOf o.ring with
  | none => s
  | some (n, q) =>
    let d := o.desc
    let opc := wqeOpcode d
    let len := Desc.field d 8 4
    let key := Desc.field d 12 4
    let off := Desc.field d 16 8
    match q.work.findSome? fun w => if w.op = o.id ∧ !w.respDone then w.result.map fun v => (w, v) else none with
    | some (w, old) => s.atomicBack n q w old
    | none =>
    let st := s.keyCheck q.slice key (if opc ≤ 4 then .localRead else .localWrite) off len false
    if st ≠ stOk then s.qpError n (some (o.id, st))
    else
      let x := s.keyAt key off
      match (if len = 0 ∨ 4 < opc then TierRes.ok else s.rteReach q.slice false x len) with
      | .fail e => (s.poolFault e).qpError n (some (o.id, e))
      | .wait =>
        let s := match x.1 with
          | .tier h => s.fetchPages (h / 256) false (pagesIn x.2 len)
          | _ => s
        { s.begin (.op o.id) with plc := { s.plc with waits := s.plc.waits ++ [(o.id, .fetch)] } }
      | .ok =>
        let (bs, s) := if len = 0 ∨ 4 < opc then ([], s) else s.getBytes x.1 x.2 len
        let ps := q.wqePkts o bs
        let w : SendWork := ⟨o.id, opc, false, 0, if opc ≤ 4 then ps.length else (ps.headD (mkPkt .unknown 0 1 0 true [] [])).span, len, 0, false, none⟩
        ((s.updQp n fun q => { q with work := q.work ++ [w] }).touchQp n).enqueue n ps

/-! ### Slices and halls -/

/-- No key is left in use and nothing that the slice's drain waits for (R144, Table 13-5). -/
def State.rteResetting (s : State) (i : Nat) : Bool := s.rte.keys.any fun e => e.2.slice == i && e.2.st == 2

/-- A slice reset: every QP is destroyed and every key revoked (Table 13-5). -/
def State.rteResetSlice (s : State) (i : Nat) : State :=
  let gone := (s.rte.qps.filter fun e => e.2.slice == i).map (·.1)
  let s := s.missDrop fun e => gone.contains e.1.qpn
  { s with rte := { s.rte with
      qps := s.rte.qps.filter fun e => e.2.slice != i,
      keys := s.rte.keys.map fun (e : Nat × Key) => if e.2.slice = i then (e.1, { e.2 with st := 2, deregOp := none }) else e } }.cacheShow

/-- A FAULTED slice: its work requests have ended, and its sends stop (R305). -/
def State.rteFaultSlice (s : State) (i : Nat) : State :=
  { s with rte := { s.rte with qps := s.rte.qps.map fun (e : Nat × Qp) =>
      if e.2.slice = i then (e.1, { e.2 with queue := [], unacked := [], work := [], recvs := [], claims := [], sqdOps := [], unreported := 0 }) else e } }

/-- The RTE's operation boundary of a slice: no request unacknowledged and no response owed (Table 06-15). -/
def State.rteQuiet (s : State) (i : Nat) : Bool :=
  s.rte.qps.all fun e => e.2.slice != i || (e.2.unacked.isEmpty && e.2.queue.isEmpty && e.2.work.isEmpty &&
    !e.2.arrived.any fun x => x.pkt.op == .readReq || x.pkt.atomic)

/-- Sends held by the Coffer or by a pause go on. -/
def State.rteKick (s : State) : State := s.rte.qps.foldl (fun s e => s.pump e.1) s

end Sys2Proof.Machine
end

