-- ==== Sys2Proof/Machine/PktOps.lean ====
section
/-! DEFINITION. The packet path: the parser (R188 to R191), the slow path (R192, R193), decision trees (R194, R195), action words and delivery
(R196 to R199), frame rings (R200 to R202) and the egress scheduler (R203 to R205). -/

namespace Sys2Proof.Machine

/-- Packet-path status codes (R202). -/
def stFrameInvalid : Nat := 0x80
def stFrameTooLong : Nat := 0x81
def stTxStalled : Nat := 0x82

/-! ### The parser (R188 to R192) -/

/-- A node of the parser graph (Table 08-1). -/
def graphNode (g : List Byte) (n : Nat) : List Byte := cut g (16 + 32 * n) 32

/-- The layout of a parser-graph entry (R189). -/
def graphOk (g : List Byte) : Bool :=
  let nodes := fieldAt g 0 2
  let trans := fieldAt g 2 2
  1 ≤ nodes && nodes ≤ 255 && trans ≤ 2048 && allZero (cut g 4 12) && g.length == 16 + 32 * nodes + 4 * trans &&
    (List.range nodes).all (fun n =>
      let b := graphNode g n
      fieldAt b 0 1 % 16 ≤ 12 && fieldAt b 12 2 + fieldAt b 14 1 ≤ trans && (fieldAt b 15 1 == 0xFF || fieldAt b 15 1 < nodes) &&
        (List.range 4).all fun e =>
          let len := fieldAt b (17 + 4 * e) 1
          len == 0 || (len ≤ 16 && 16 ≤ fieldAt b (18 + 4 * e) 1 && fieldAt b (18 + 4 * e) 1 + len ≤ 128)) &&
    (List.range trans).all fun t => let x := fieldAt g (16 + 32 * nodes + 4 * t + 2) 1; x == 0xFF || x < nodes

/-- A header that the parser has taken: class, offset and length. -/
structure Hdr where
  cls : Nat
  off : Nat
  len : Nat
  deriving DecidableEq, Repr

/-- What the parser has found so far (Table 08-2), with the slow-path reason that stopped it (Table 08-3). -/
structure Parse where
  hdrs : List Hdr
  fields : List Byte
  malformed : Bool
  badCsum : Bool
  payload : Nat
  reason : Option Nat
  deriving DecidableEq, Repr

/-- Headers of a class. -/
def Parse.count (p : Parse) (c : Nat) : Nat := (p.hdrs.filter (·.cls == c)).length

/-- Length of a header at an offset (R190); none where its length field lies beyond the frame or LEN_MODE is 3. -/
def nodeLen (b fr : List Byte) (off : Nat) : Option Nat :=
  match fieldAt b 0 1 / 16 % 4 with
  | 0 => some (fieldAt b 1 1)
  | 1 =>
    let x := off + fieldAt b 2 1
    if fr.length < x + 2 then none
    else some ((beNat (cut fr x 2) / 2 ^ (fieldAt b 3 1 / 16) &&& fieldAt b 4 2) * 2 ^ (fieldAt b 3 1 % 16) + fieldAt b 1 1)
  | 2 =>
    if fr.length < off + 2 then none
    else
      let w := beNat (cut fr off 2)
      some (4 + 4 * (b2n (bitAt w 15) + b2n (bitAt w 13) + b2n (bitAt w 12)))
  | _ => none

/-- The extracts of a node (R190). -/
def nodeExtract (b fr : List Byte) (off : Nat) (key : List Byte) : List Byte :=
  (List.range 4).foldl (fun k e =>
    let len := fieldAt b (17 + 4 * e) 1
    if len = 0 then k else patch k (fieldAt b (18 + 4 * e) 1 - 16) (cut fr (off + fieldAt b (16 + 4 * e) 1) len)) key

/-- The next node (R190). -/
def nodeNext (g b fr : List Byte) (off : Nat) : Nat :=
  let sel := beNat (cut fr (off + fieldAt b 8 1) 2) &&& fieldAt b 10 2
  let base := 16 + 32 * fieldAt g 0 2
  let ts := (List.range (fieldAt b 14 1)).map fun t => cut g (base + 4 * (fieldAt b 12 2 + t)) 4
  match ts.find? fun t => fieldAt t 0 2 == sel with
  | some t => fieldAt t 2 1
  | none => fieldAt b 15 1

/-- A header is a fragment: IPv4 with MF or an offset, or the IPv6 Fragment header (Table 08-3). -/
def isFragment (cls : Nat) (fr : List Byte) (off : Nat) : Bool :=
  cls == 11 || (cls == 3 && beNat (cut fr (off + 6) 2) % 0x4000 != 0)

/-- The slow-path reason of a header that the hardware parser meets, if it has one (Table 08-3). -/
def slowReason (p : Parse) (b fr : List Byte) (off : Nat) : Option Nat :=
  let cls := fieldAt b 0 1 % 16
  if bitAt (fieldAt b 0 1) 7 then some 3
  else if isFragment cls fr off then some 1
  else if cls = 1 ∧ 4 ≤ p.count 1 then some 4
  else if cls = 2 ∧ 8 ≤ p.count 2 then some 5
  else if cls = 8 ∧ 1 ≤ p.count 8 then some 6
  else none

/-- The walk of the parser graph from a node (R188, R193): at most `limit` headers and `depth` bytes; firmware takes no reason but a
fragment, at which it stops for reassembly. -/
def parseWalk (g fr : List Byte) (depth limit : Nat) (slow : Bool) : Nat → Nat → Nat → Parse → Parse
  | 0, _, _, p => p
  | k + 1, n, off, p =>
    let b := graphNode g n
    let cls := fieldAt b 0 1 % 16
    if limit ≤ p.hdrs.length then (if slow then p else { p with reason := some 2 })
    else if slow && isFragment cls fr off then { p with reason := some 1 }
    else
      match (if slow then none else slowReason p b fr off) with
      | some r => { p with reason := some r }
      | none =>
        match nodeLen b fr off with
        | none => { p with malformed := true }
        | some len =>
          if !slow ∧ depth < off + len then { p with reason := some 2 }
          else if fr.length < off + len then { p with malformed := true }
          else
            let p := { p with hdrs := p.hdrs ++ [⟨cls, off, len⟩], fields := nodeExtract b fr off p.fields, payload := off + len,
                              badCsum := p.badCsum || (cls == 3 && ipCsum (cut fr off len) != beNat (cut fr (off + 10) 2)) }
            let next := nodeNext g b fr off
            if bitAt (fieldAt b 0 1) 6 ∨ next = 0xFF then p else parseWalk g fr depth limit slow k next (off + len) p

/-- The parser graph in force (Table 02-5, TYPE 0x02). -/
def State.graph (s : State) : List Byte := lookD s.str.tabs 2 []

/-- PKT_DEPTH: 64 to 512, other values are 512. -/
def State.pktDepth (s : State) : Nat := let d := s.getF F.PKT_DEPTH_BYTES; if 64 ≤ d ∧ d ≤ 512 then d else 512

/-- A frame parsed by the hardware, or by firmware without limits but 32 headers (R188, R193). -/
def State.parse (s : State) (fr : List Byte) (slow : Bool) : Parse :=
  parseWalk s.graph fr s.pktDepth (if slow then 32 else 16) slow 40 0 0 ⟨[], List.replicate 112 0, false, false, 0, none⟩

/-- A tunnel header was followed by further headers. -/
def Parse.inner (p : Parse) : Bool :=
  match p.hdrs.dropWhile (·.cls != 8) with
  | _ :: _ :: _ => true
  | _ => false

/-- Key byte 1 (Table 08-2). -/
def Parse.flags (p : Parse) (f : RxFrame) : Nat :=
  128 * b2n f.decrypted + 64 * b2n f.slow + 32 * b2n p.badCsum + 16 * b2n p.malformed + 8 * b2n p.inner

/-- The classifier key (Table 08-2). -/
def Parse.key (p : Parse) (f : RxFrame) : List Byte :=
  [BitVec.ofNat 8 f.port, BitVec.ofNat 8 (p.flags f), BitVec.ofNat 8 p.hdrs.length, BitVec.ofNat 8 (16 * min 4 (p.count 1) + min 8 (p.count 2))] ++
    leBytes 2 (f.bytes.length + 4) ++ leBytes 2 p.payload ++ List.replicate 8 0 ++ p.fields

/-! ### Decision trees (R194 to R197) -/

/-- A unit of 32 bytes of a classifier area. -/
def State.treeUnit (s : State) (area u n : Nat) : List Byte := s.mem.read ((Space.treeArea area).at (32 * u)) n

/-- The key operand at an offset. -/
def key32 (key : List Byte) (off : Nat) : Nat := beNat (cut key off 4)

/-- The rule matches a key (Table 08-5). -/
def ruleHits (r key : List Byte) : Bool :=
  (List.range (min 4 (fieldAt r 2 1))).all fun j =>
    let f := cut r (16 + 12 * j) 12
    (key32 key (fieldAt f 0 1) &&& fieldAt f 4 4) == fieldAt f 8 4

/-- The matching rule with the highest PRIORITY, the first on a tie (R195). -/
def bestRule (key : List Byte) (rs : List (List Byte)) : Option (List Byte) :=
  (rs.filter fun r => ruleHits r key).foldl (fun (b : Option (List Byte)) r =>
    match b with
    | none => some r
    | some x => if fieldAt x 0 2 < fieldAt r 0 2 then some r else some x) none

/-- A walk of a tree from a unit: action word and RULE_ID, or a tree fault (R195). -/
def State.treeWalk (s : State) (area base size : Nat) (key : List Byte) : Nat → Nat → Option (Nat × Nat)
  | 0, _ => none
  | k + 1, u =>
    if size ≤ u then none
    else
      let b := s.treeUnit area (base + u) 32
      match fieldAt b 0 1 / 64 with
      | 0 =>
        let x := key32 key (fieldAt b 1 1) &&& fieldAt b 4 4
        let left := if bitAt (fieldAt b 0 1) 5 then x == fieldAt b 8 4 else decide (x < fieldAt b 8 4)
        s.treeWalk area base size key k (if left then fieldAt b 16 4 else fieldAt b 20 4)
      | 1 =>
        let n := fieldAt b 1 1
        let r0 := fieldAt b 16 4
        if n = 0 ∨ 8 < n ∨ size < r0 + 2 * n then none
        else
          match bestRule key ((List.range n).map fun j => s.treeUnit area (base + r0 + 2 * j) 64) with
          | some r => some (fieldAt r 8 8, fieldAt r 4 4)
          | none => some (fieldAt b 24 8, 0xFFFFFFFF)
      | 2 => some (fieldAt b 24 8, 0xFFFFFFFF)
      | _ => none

/-- Trees that run on a port (R194). -/
def State.treesOn (s : State) (port : Nat) : List Nat :=
  (List.range 8).filter fun t => s.getF (F.PKT_TREE_CFG_EN t) == 1 && bitAt (s.getF (F.PKT_TREE_PORTS_PORTS t)) port

/-- DISP of an action word; 5 to 7 are DROP. -/
def actDisp (w : Nat) : Nat := min 4 (bits w 63 61)

/-- RW_OP; 4 to 7 are none. -/
def actRw (w : Nat) : Nat := if bits w 58 56 < 4 then bits w 58 56 else 0

/-- An action word and its RULE_ID as a merged action. -/
def actOf (w rule : Nat) : Act :=
  { disp := actDisp w, target := bits w 15 0, mirror := bitAt w 60, meter := if bitAt w 59 then some (bits w 29 16) else none, rwOp := actRw w,
    rwArg := bits w 55 50, sa := if bitAt w 49 then some (bits w 47 32) else none, rule := rule }

/-- The trees' results merged, lowest tree first (R197). -/
def mergeActs (l : List (Nat × Nat)) : Act :=
  let a := l.foldl (fun (a : Act) e =>
    let x := actOf e.1 e.2
    { disp := if x.disp = 0 then a.disp else x.disp, target := if x.disp = 0 then a.target else x.target, mirror := a.mirror || x.mirror,
      meter := if x.meter.isSome then x.meter else a.meter, rwOp := if x.rwOp = 0 then a.rwOp else x.rwOp,
      rwArg := if x.rwOp = 0 then a.rwArg else x.rwArg, sa := if x.sa.isSome then x.sa else a.sa, rule := if x.disp = 0 then a.rule else x.rule })
    ⟨0, 0, false, none, 0, 0, none, 0xFFFFFFFF⟩
  match l.reverse.find? fun e => actDisp e.1 == 4 with
  | some e => if a.disp = 4 then a else { a with disp := 4, target := bits e.1 15 0, rule := e.2 }
  | none => a

/-- A key classified (R194 to R197); none on a tree fault. -/
def State.classify (s : State) (port : Nat) (key : List Byte) : Option Act :=
  let rs := (s.treesOn port).map fun t =>
    s.treeWalk (s.getF (F.PKT_TREE_BASE_AREA t)) (s.getF (F.PKT_TREE_BASE_UNIT t)) (s.getF (F.PKT_TREE_SIZE_UNITS t)) key 64 0
  if rs.any Option.isNone then none
  else
    let a := mergeActs (rs.filterMap id)
    some (if a.disp = 0 then actOf (s.reg (R.PKT_DEFAULT_LO port) + 2 ^ 32 * s.reg (R.PKT_DEFAULT_HI port)) 0xFFFFFFFF else a)

/-! ### Delivery (R196 to R201) -/

/-- The oldest buffer posted in a receive ring that no frame has begun to fill. -/
def State.buffer (s : State) (q : Nat) : Option Op := s.ops.find? fun o => o.ring == q && o.src == 0x03 && o.done.isNone && !o.committed

/-- A frame receive ring. -/
def State.isRxRing (s : State) (q : Nat) : Bool := (s.ring q).any fun r => r.kind == 9

/-- Bytes 16 to 31 of a receive completion (Table 08-8). -/
def rxWords (len rule port flags off : Nat) : Nat × Nat := (len + 2 ^ 32 * rule, 2 ^ 32 * port + 2 ^ 40 * flags + 2 ^ 48 * off)

/-- A frame of a length, or for a capture its payload, into a posted buffer (R198, R201); none where no buffer is posted. -/
def State.fillBuffer (s : State) (q : Nat) (capture : Bool) (len : Nat) (bs : List Byte) (rule port flags off : Nat) : Option State :=
  (s.buffer q).map fun o =>
    let room := Desc.field o.desc 8 4
    let addr := Desc.field o.desc 16 8
    let part := bs.take room
    let w := rxWords len rule port flags off
    let st := if room < bs.length then stFrameTooLong else stOk
    let s := s.commitOp o.id
    if capture then
      let h := Config.captureObject q
      let k := s.tierCheck o.owner h addr part.length
      if k ≠ stOk then s.finish o.id k w.1 w.2
      else match s.spanReach o.owner true (.tier h) addr part.length with
        | .fail e => (s.poolFault e).finish o.id (streamFail e) w.1 w.2
        | .wait => (s.fetchPages (h / 256) true (pagesIn addr part.length)).finish o.id stStreamFault w.1 w.2
        | .ok => (s.putBytes (.tier h) addr part).finish o.id st w.1 w.2
    else if !s.canDma (s.ownerFn o.owner) then s.finish o.id stMasterDisabled w.1 w.2
    else ({ s with mem := s.mem.write ((s.ownerSpace o.owner).at addr) part }).finish o.id st w.1 w.2

/-- A frame as rewritten (Table 08-6), and how many bytes ahead of its payload are gone. A tag is its type field, which ends the header ahead of it, and
the two bytes behind (log entry 138). -/
def Act.rewrite (a : Act) (p : Parse) (bs : List Byte) : List Byte × Nat :=
  match a.rwOp with
  | 1 =>
    (match p.hdrs.find? (·.cls == 1) with
     | some h => if 2 ≤ h.off then (bs.take (h.off - 2) ++ bs.drop (h.off + 2), 4) else (bs, 0)
     | none => (bs, 0))
  | 2 =>
    (match (p.hdrs.dropWhile (·.cls != 8)).find? (·.cls == 0) with
     | some h => (bs.drop h.off, h.off)
     | none => (bs, 0))
  | 3 =>
    (match p.hdrs.find? (fun h => h.cls == 3 || h.cls == 4) with
     | none => (bs, 0)
     | some h =>
       if h.cls = 3 then
         let ip := patch (cut bs h.off h.len) 1 [BitVec.ofNat 8 (4 * a.rwArg + fieldAt bs (h.off + 1) 1 % 4)]
         (patch bs h.off (patch ip 10 (beBytes 2 (ipCsum ip))), 0)
       else
         let w := setBits (beNat (cut bs h.off 2)) 11 6 a.rwArg
         (patch bs h.off (beBytes 2 w), 0))
  | _ => (bs, 0)

/-- A PTP frame: EtherType 0x88F7, or UDP to port 319 or 320 (log entry 46). -/
def Parse.ptp (p : Parse) (bs : List Byte) : Bool :=
  etherType bs 12 == 0x88F7 || (p.hdrs.find? (·.cls == 6)).any fun h => let d := beNat (cut bs (h.off + 2) 2); d == 319 || d == 320

/-- A received frame's bytes are charged, 64 KiB at a time, to the device and to the slice that takes it (R198, R357). -/
def State.chargeRx (s : State) (slice : Option Nat) (n : Nat) : State :=
  let who := slice.getD 0xFFFF
  let have' := lookD s.pp.rxDebt who 0
  if n ≤ have' then { s with pp := { s.pp with rxDebt := put s.pp.rxDebt who (have' - n) } }
  else { s with pp := { s.pp with rxDebt := put s.pp.rxDebt who (have' + 65536 - n) } }.charge slice (s.energyTable 24 * 1000)

/-- The slice that an action delivers to. -/
def State.actSlice (s : State) (a : Act) (f : RxFrame) : Option Nat :=
  let live (i : Nat) : Option Nat := if (s.slice i).state = .frozen then none else some i
  if a.disp = 1 ∨ a.disp = 3 then (s.ring a.target).bind fun r => if r.isPf0 then none else live r.owner
  else if a.disp = 2 then (f.pkt.bind fun p => s.qp p.qpn).bind fun q => live q.slice
  else none

/-- A packet for the RTE, or one that the MAC ingress buffers keep while H5 is paused (Table 02-8): 2 MiB for each lane group; those
beyond are dropped (log entry 45). -/
def State.ingressUsed (s : State) (g : Nat) : Nat :=
  s.pp.ingress.foldl (fun n x => match x with
    | .frame f => if f.port / 4 = g then n + f.bytes.length + 4 else n
    | .pkt p => if p.port / 4 = g then n + s.frameLen p else n) 0

/-- An item kept in the MAC ingress buffers, or a frame dropped beyond them and counted for its lane group (Table 02-8; log entry 45). -/
def State.ingressPut (s : State) (x : Ingress) (port n : Nat) : State :=
  if 2 ^ 21 < s.ingressUsed (port / 4) + n then
    { s with pp := { s.pp with ingressDrops := put s.pp.ingressDrops (port / 4) (lookD s.pp.ingressDrops (port / 4) 0 + 1) } }
  else { s with pp := { s.pp with ingress := s.pp.ingress ++ [x] } }

/-- A packet reaches the RTE (R128, Table 02-8); its buffered registers apply at the packet boundary (R159). -/
def State.pktArrive (s : State) (p : Pkt) : State :=
  if !s.answers 10 then s
  else if s.hallPaused 0 ∨ s.hallPaused 5 then s.ingressPut (.pkt p) p.port (s.frameLen p)
  else (((s.bufferedApply 10 0).bufferedApply 10 1).pktIn p).fenceKick p.qpn

/-- The fields of a placement header (Table 06-2, R129). -/
structure Place where
  vaddr : Nat
  key : Nat
  off : Nat
  seq : Nat
  flags : Nat
  len : Nat
  deriving DecidableEq, Repr

/-- The placement header of 24 bytes, big-endian (R129). -/
def Place.of (b : List Byte) : Place :=
  ⟨beNat (cut b 0 8), beNat (cut b 8 4), beNat (cut b 12 4), beNat (cut b 16 3), beNat (cut b 19 1) / 16, beNat (cut b 20 4)⟩

/-- Operation of a sprayed opcode (Table 06-3). -/
def sprayedOp (code : Nat) : PktOp :=
  (([.write, .writeImm, .send, .sendImm, .readReq, .readResp, .fetchAdd, .cmpSwap, .atomicResp, .ack, .nak, .cnp] : List PktOp).find? (·.code == code)).getD
    .unknown

/-- Operation of a RoCEv2 opcode, and whether it is a message's first and last packet (PRESUMED, log entry 135). -/
def roceOp (code : Nat) : PktOp × Bool × Bool :=
  ((([.send, .sendImm, .write, .writeImm, .readReq, .readResp, .atomicResp, .cmpSwap, .fetchAdd, .ack, .cnp] : List PktOp).flatMap fun op =>
    [(true, true), (true, false), (false, true), (false, false)].map fun b => (op, b.1, b.2)).find? fun x => x.1.roceCode x.2.1 x.2.2 == code).getD
    (.unknown, true, true)

/-- What a RoCEv2 acknowledge packet's syndrome says (PRESUMED, log entry 135): none for an acknowledgement. -/
def syndromeNak (x : Nat) : Option NakKind :=
  if x / 32 = 1 then some (.rnr (x % 32))
  else if x = 0x60 then some .sequence
  else if x = 0x61 then some .invalidRequest
  else if x / 32 = 3 then some .remoteAccess
  else none

/-- ICRC of a packet from its IP header on, without the ICRC itself (PRESUMED, log entry 135): CRC-32 over eight bytes of ones and the packet, with the
fields that routers change, the UDP checksum and the reserved byte of the BTH as ones. -/
def icrcOf (v l3 : Nat) (ip : List Byte) : Nat :=
  let ones (bs : List Byte) (e : Nat × Nat) : List Byte := patch bs e.1 (List.replicate e.2 0xFF)
  let h := if v = 4 then [(1, 1), (8, 1), (10, 2)].foldl ones ip else ones (patch (ones ip (1, 3)) 0 [0x6F]) (7, 1)
  crcOf (polyOf 0) (List.replicate 8 0xFF ++ [(l3 + 6, 2), (l3 + 12, 1)].foldl ones h)

/-- The RDMA packet that a frame carries (R127, R129, R130): Ethernet with at most one tag, IPv4 or IPv6, UDP to port 4791, BTH, then by the opcode the
placement header or RoCEv2's extended headers, and the payload. The BTH is RoCEv2's: opcode in byte 0, pad count in byte 1, destination QP in bytes 5 to
7, PSN in bytes 9 to 11 (PRESUMED, log entry 135). -/
def rdmaOf (port : Nat) (fr : List Byte) : Option Pkt :=
  let (l2, v) := l2Of fr
  let ip := fr.drop l2
  let l3 := if v = 4 then ip4Len ip else 40
  let udp := ip.drop l3
  let proto := if v = 4 then fieldAt ip 9 1 else fieldAt ip 6 1
  let tos := if v = 4 then fieldAt ip 1 1 else beNat (cut ip 0 2) / 16 % 256
  if v = 0 ∨ proto ≠ 17 ∨ beNat (cut udp 2 2) ≠ 4791 ∨ udp.length < 24 then none
  else
    let b := (udp.take (beNat (cut udp 4 2))).drop 8
    let fin := l3 + beNat (cut udp 4 2)
    let code := fieldAt b 0 1
    let sprayed := 0xC0 ≤ code
    let x := b.drop 12
    let h := Place.of x
    let (op, first, last) := if sprayed then (sprayedOp code, bitAt h.flags 1, bitAt h.flags 2) else roceOp code
    let y := if sprayed then x.drop 24 else x
    let nak := if sprayed then
        (if op = .nak then some (if fieldAt y 3 1 = 0x64 then .rnr (fieldAt y 4 1) else .status (fieldAt y 3 1)) else none)
      else if op = .ack then syndromeNak (fieldAt y 0 1) else none
    let psn := beNat (cut b 9 3)
    let p : Pkt :=
      { port := port, sprayed := sprayed, qpn := beNat (cut b 5 3), op := if nak.isSome then .nak else op,
        psn := if op = .nak then beNat (cut y 0 3) else psn, path := if op = .cnp then fieldAt x 0 1 else beNat (cut udp 0 2) % 16, ce := tos % 4 == 3,
        icrcOk := leNat (cut ip (fin - 4) 4) == icrcOf v l3 (ip.take (fin - 4)), vaddr := if sprayed then h.vaddr else beNat (cut y 0 8), key := if sprayed then h.key else beNat (cut y 8 4),
        msgOffset := if sprayed then h.off else 0, msgLen := if sprayed then h.len else beNat (cut y 12 4), fence := sprayed && bitAt h.flags 3,
        first := first, last := last, solicited := if sprayed then bitAt h.flags 0 else bitAt (fieldAt b 1 1) 7, imm := 0, argA := 0, argB := 0, placed := [],
        nak := nak, payload := [], tagged := l2 == 18 }
    let len := p.extra
    let z := y.take len
    let imm := beNat (z.drop (len - 4))
    let data := ((y.drop len).take (y.length - len - 4)).take (y.length - len - 4 - (if sprayed then 0 else fieldAt b 1 1 / 16 % 4))
    some { p with
      imm := if last ∧ (op = .writeImm ∨ op = .sendImm) then imm else 0,
      argA := match op with
        | .readReq => beNat (cut z 0 8)
        | .fetchAdd | .cmpSwap => if sprayed then beNat (cut z 0 8) else beNat (cut z 12 8)
        | .atomicResp => if sprayed then beNat (cut z 0 8) else beNat (cut z 4 8)
        | .ack => if sprayed then beNat (cut z 0 3) else psnAdd psn 1
        | _ => 0,
      argB := match op with
        | .readReq => beNat (cut z 8 4)
        | .cmpSwap => if sprayed then beNat (cut z 8 8) else beNat (cut z 20 8)
        | _ => 0,
      placed := if sprayed ∧ op = .ack then (List.range 256).filterMap fun i =>
        if bitAt (fieldAt z (8 + i / 8) 1) (7 - i % 8) then some (psnAdd (beNat (cut z 4 3)) i) else none else [],
      payload := data }

/-- Delivery by DISP (R198), after the rewrite; at the 46 V stage only PTP frames and frames to rings of PF0 go on (R208). -/
def State.deliverFrame (s : State) (f : RxFrame) (p : Parse) (a : Act) : State :=
  let (bs, gone) := a.rewrite p f.bytes
  let s := s.chargeRx (s.actSlice a f) f.len
  if s.shedAt 4 ∧ !p.ptp f.bytes ∧ !(a.disp = 1 ∧ (s.ring a.target).any Ring.isPf0) then s.bump F.PKT_CNT_SHED_DROP
  else match a.disp with
    | 1 =>
      if !s.isRxRing a.target then s.bump F.PKT_CNT_ACTION_DROP
      else (s.fillBuffer a.target false bs.length bs a.rule f.port (p.flags f) p.payload).getD (s.bump F.PKT_CNT_NOBUF)
    | 2 =>
      if f.whole then s.bump F.PKT_CNT_ACTION_DROP
      else (match f.pkt.or (rdmaOf f.port f.bytes) with
        | some x => s.pktArrive x
        | none => s.rxDrop)
    | 3 =>
      if !s.isRxRing a.target then s.bump F.PKT_CNT_ACTION_DROP
      else (s.fillBuffer a.target true bs.length (bs.drop (p.payload - gone)) a.rule f.port (p.flags f) p.payload).getD (s.bump F.PKT_CNT_NOBUF)
    | _ => s.bump F.PKT_CNT_ACTION_DROP

/-- A mirror copy (R198, R208). -/
def State.mirrorFrame (s : State) (f : RxFrame) (p : Parse) (a : Act) : State :=
  if s.getF F.PKT_MIRROR_EN = 0 then s
  else
    let q := s.getF F.PKT_MIRROR_RING
    let drop' := s.bump F.PKT_CNT_MIRROR_DROP
    if s.shedAt 1 ∨ !((s.ring q).any fun r => r.kind == 9 && r.isPf0) then drop'
    else (s.fillBuffer q false f.bytes.length f.bytes a.rule f.port (p.flags f) p.payload).getD drop'

/-- A frame policed (R199): whether it conforms. -/
def State.police (s : State) (m L : Nat) : Bool × State :=
  let b := s.meter m
  let ok := decide ((tokenUnits L : Int) ≤ b.tokens)
  let s := { s with pp := { s.pp with meters := put s.pp.meters m (if ok then b.spend L else b) } }
  (ok, if ok then s.bump ⟨bankKey R.PKT_METER_PASS m, 31, 0⟩ else (s.bump ⟨bankKey R.PKT_METER_DROP m, 31, 0⟩).bump F.PKT_CNT_POLICE_DROP)

/-- Offsets of the ESP header that the parser found and of the IP header ahead of it. -/
def Parse.espAt (p : Parse) : Option EspAt :=
  match p.hdrs.find? (·.cls == 10) with
  | none => none
  | some e => ((p.hdrs.filter fun h => (h.cls == 3 || h.cls == 4) && h.off < e.off).getLast?).map fun h => ⟨h.off, e.off⟩

/-- Slow-path wings (R193). -/
def State.slowWings (s : State) : List Nat := (List.range 4).filter (bitAt (s.getF F.PKT_SLOW_WINGS))

/-- A received frame goes no further before an action delivers it: its bytes are charged all the same, to the device alone (R198, R357). -/
def State.rxLost (s : State) (f : RxFrame) : State := s.chargeRx none f.len

/-- A frame that a tree fault drops (R195). -/
def State.treeFault (s : State) (f : RxFrame) : State := ((s.bump F.PKT_CNT_TREE_FAULT).event F.PKT_STATUS_TREE_FAULT).rxLost f

/-- A frame goes to the slow path (R192, R193). -/
def State.slowIn (s : State) (f : RxFrame) (p : Parse) : State :=
  let s := s.bump F.PKT_CNT_SLOW
  let ws := s.slowWings
  match ws[Config.slowHash (leNat p.fields) % ws.length]? with
  | none => ((s.bump F.PKT_CNT_SLOW_DROP).event F.PKT_STATUS_SLOW_DROP).rxLost f
  | some w =>
    let l := lookD s.pp.slow w []
    if 32768 ≤ l.length then ((s.bump F.PKT_CNT_SLOW_DROP).event F.PKT_STATUS_SLOW_DROP).rxLost f
    else { s with pp := { s.pp with slow := put s.pp.slow w (l ++ [f]) } }

/-- A parsed frame in its second pass, after ESP decryption, or one whose steps 1 to 3 are done (R198). -/
def State.secondPass (s : State) (f : RxFrame) : State :=
  let p := s.parse f.bytes f.slow
  if p.reason.isSome then s.slowIn f p
  else match s.classify f.port (p.key f) with
    | none => s.treeFault f
    | some a => s.deliverFrame f p { a with sa := none }

/-- A frame whose action decrypts it (R198, R244). -/
def State.espGo (s : State) (f : RxFrame) (a : Act) : State :=
  let p := s.parse f.bytes f.slow
  let owner := if a.disp = 1 ∨ a.disp = 3 then (s.ring a.target).bind fun r => if r.isPf0 then none else some r.owner else none
  match s.espIn (a.sa.getD 0) f.bytes p.espAt owner with
  | (none, s) => s.rxLost f
  | (some bs, s) => (s.saUse (a.sa.getD 0)).secondPass { f with bytes := bs, decrypted := true, pkt := none }

/-- A merged action handled in the order of R198. -/
def State.handleAct (s : State) (f : RxFrame) (p : Parse) (a : Act) : State :=
  let s := if a.mirror then s.mirrorFrame f p a else s
  let (ok, s) := match a.meter with
    | some m => s.police m f.len
    | none => (true, s)
  if !ok then s.rxLost f
  else match a.sa with
    | some i =>
      if f.decrypted then s.deliverFrame f p a
      else if s.saAbsent i ∨ s.hallPaused 10 then (s.holdPut f.port 0 (.esp f a)).getD ((s.bump F.CIP_CNT_MISS_DROP).rxLost f)
      else s.espGo f a
    | none => s.deliverFrame f p a

/-- A frame with its key classified and handled (R194 to R198). -/
def State.classifyFrame (s : State) (f : RxFrame) (p : Parse) : State :=
  match s.classify f.port (p.key f) with
  | none => s.treeFault f
  | some a => s.handleAct f p a

/-- A frame as it leaves MACsec, parsed by the hardware (R188). -/
def State.parseFrame (s : State) (f : RxFrame) : State :=
  let s := s.bump64 R.PKT_CNT_RX_LO R.PKT_CNT_RX_HI 1
  let p := s.parse f.bytes false
  if p.reason.isSome then s.slowIn f p else s.classifyFrame f p

/-- A received frame that no buffer holds (R188, R245). -/
def State.frameGo (s : State) (f : RxFrame) : State :=
  match s.macIn f.port f.bytes with
  | (none, s) => s.rxLost f
  | (some bs, s) => s.parseFrame { f with bytes := bs }

/-- A frame arrives (R188, R207, R247, Table 02-8). -/
def State.frameArrive (s : State) (f : RxFrame) : State :=
  if s.hallPaused 0 ∨ s.hallPaused 2 ∨ s.hallPaused 3 then s.ingressPut (.frame f) f.port (f.bytes.length + 4)
  else
    let s := ((((s.bufferedApply 12 0).bufferedApply 12 1).bufferedApply 12 2).bufferedApply 15 0)
    let secured := s.getF (F.CIP_MACSEC_RX_EN f.port) == 1 && etherType f.bytes 12 == 0x88E5
    if !(s.holding f.port 0).isEmpty ∨ (secured ∧ s.hallPaused 10) then (s.holdPut f.port 0 (.rx f)).getD ((s.bump F.CIP_CNT_MISS_DROP).rxLost f)
    else s.frameGo f

/-- What the MAC ingress buffers kept goes on after a pause, in order of arrival. -/
def State.ingressGo (s : State) : State :=
  let l := s.pp.ingress
  l.foldl (fun s x => match x with
    | .frame f => s.frameArrive f
    | .pkt p => s.pktArrive p) { s with pp := { s.pp with ingress := [] } }

/-! ### The slow path (R193) -/

/-- A core of the wing serves the slow path. -/
def State.slowServes (s : State) (w : Nat) : Bool :=
  (List.range 8).any (fun k => bitAt (s.getF (F.STW_CORE_SERVICES (8 * w + k))) 8 && s.getF (F.STW_CORE_STATE (8 * w + k)) == 0) &&
    s.getF (F.STW_WING_STATE_DRAINING w) == 0

/-- A fragment: what identifies its datagram, its offset, whether more follow, its bytes, and what stands ahead of the payload of the
first one, with where its IP header begins. -/
structure Frag where
  id : List Byte
  off : Nat
  more : Bool
  body : List Byte
  head : List Byte
  ip : Nat
  deriving DecidableEq, Repr

/-- The fragment at which a walk stopped. -/
def Parse.fragment (p : Parse) (fr : List Byte) : Frag :=
  let off := p.payload
  let v4 := !(p.hdrs.any (·.cls == 4)) || fieldAt fr off 1 / 16 == 4 && (match p.hdrs.getLast? with | some h => h.cls != 4 && h.cls != 5 | none => true)
  if v4 then
    let n := ip4Len (fr.drop off)
    let total := beNat (cut fr (off + 2) 2)
    let w := beNat (cut fr (off + 6) 2)
    ⟨4 :: cut fr (off + 12) 8 ++ cut fr (off + 9) 1 ++ cut fr (off + 4) 2, 8 * (w % 8192), bitAt w 13, (fr.drop (off + n)).take (total - n), fr.take (off + n), off⟩
  else
    let ip := ((p.hdrs.filter (·.cls == 4)).getLast?.map (·.off)).getD 0
    let prev := p.hdrs.getLast?.getD ⟨4, ip, 40⟩
    let w := beNat (cut fr (off + 2) 2)
    let nh := if prev.cls = 4 then ip + 6 else prev.off
    ⟨6 :: cut fr (ip + 8) 32 ++ cut fr (off + 4) 4, 8 * (w / 8), bitAt w 0, (fr.take (ip + 40 + beNat (cut fr (ip + 4) 2))).drop (off + 8),
      patch (fr.take off) nh (cut fr off 1), ip⟩

/-- The pieces joined from the first byte on, as far as they reach. -/
def joinPieces (l : List (Nat × List Byte)) : List Byte :=
  (sortBy (fun (a b : Nat × List Byte) => decide (a.1 < b.1)) l).foldl (fun acc e => if e.1 ≤ acc.length then acc ++ e.2.drop (acc.length - e.1) else acc) []

/-- A reassembled datagram as a frame: the length of the IP header that was fragmented is that of the whole, and in IPv4 no fragment field is left; headers
of a tunnel around it stay those of the first fragment (log entry 138). -/
def Reasm.frame (r : Reasm) (ip : Nat) (head body : List Byte) : List Byte :=
  if r.id.head? = some 4 then head.take ip ++ ip4Fix (patch (head.drop ip) 6 [0, 0]) (head.length - ip + body.length) ++ body
  else patch head (ip + 4) (beBytes 2 (head.length - ip - 40 + body.length)) ++ body

/-- Bytes of a datagram as its IP header counts them: with that header in IPv4, behind it in IPv6. -/
def Reasm.total' (r : Reasm) (ip n : Nat) (head : List Byte) : Nat := n + (head.length - ip) - if r.id.head? = some 4 then 0 else 40

/-- A datagram with one more fragment. -/
def Reasm.join (r : Reasm) (f : RxFrame) (x : Frag) : Reasm :=
  { r with head := if x.off = 0 then some (x.ip, x.head) else r.head, total := if x.more then r.total else some (x.off + x.body.length),
           pieces := r.pieces ++ [(x.off, x.body)], len := r.len + f.len }

/-- A fragment joins its datagram (R193): the datagram goes on when it is whole, at its only fragment even, and is discarded when it is longer than 65,535
bytes or no reassembly is free. -/
def State.reassemble (s : State) (w : Nat) (f : RxFrame) (x : Frag) : Option RxFrame × State :=
  let mine (r : Reasm) : Bool := r.wing == w && r.port == f.port && r.id == x.id && r.decrypted == f.decrypted
  let lost (n : Nat) : State := (s.bump F.PKT_CNT_REASM_DROP).chargeRx none n
  let old := s.pp.reasm.find? mine
  let r := (old.getD ⟨w, f.port, x.id, s.up, f.decrypted, none, none, [], 0⟩).join f x
  let rest := s.pp.reasm.filter fun y => !mine y
  let keep : Option RxFrame × State :=
    if old.isSome then (none, { s with pp := { s.pp with reasm := s.pp.reasm.map fun y => if mine y then r else y } })
    else if 4096 ≤ (s.pp.reasm.filter (·.wing == w)).length then (none, lost f.len)
    else (none, { s with pp := { s.pp with reasm := s.pp.reasm ++ [r] } })
  match r.head, r.total with
  | some (ip, h), some n =>
    let body := joinPieces r.pieces
    if body.length < n then keep
    else if 65535 < r.total' ip n h then (none, { lost r.len with pp := { (lost r.len).pp with reasm := rest } })
    else (some { f with bytes := r.frame ip h (body.take n), pkt := none, slow := true, whole := true, len := r.len }, { s with pp := { s.pp with reasm := rest } })
  | _, _ => keep

/-- A frame or datagram whose slow-path walk has ended is classified and handled (R193, R198). -/
def State.slowOut (s : State) (f : RxFrame) : State :=
  let f := { f with slow := true }
  let p := s.parse f.bytes true
  if f.decrypted then (match s.classify f.port (p.key f) with
    | none => s.treeFault f
    | some a => s.deliverFrame f p { a with sa := none })
  else s.classifyFrame f p

/-- Firmware takes the oldest frame of a wing's queue (R193). -/
def State.slowFrame (s : State) (w : Nat) : State :=
  match lookD s.pp.slow w [] with
  | [] => s
  | f :: rest =>
    if !s.slowServes w ∨ s.hallPaused 3 then s
    else
      let s := { s with pp := { s.pp with slow := if rest.isEmpty then drop s.pp.slow w else put s.pp.slow w rest } }
      let p := s.parse f.bytes true
      if p.reason = some 1 then
        match s.reassemble w f (p.fragment f.bytes) with
        | (none, s) => s
        | (some g, s) => s.slowOut g
      else s.slowOut f

/-! ### Frame transmit rings (R200 to R203) -/

/-- Fields that a frame descriptor uses (Table 08-7). -/
def frameFields (opc : Nat) (sa : Bool) : List (Nat × Nat) :=
  [(31, 0), (39, 32), (40, 40), (95, 64), (191, 128)] ++ (if opc = 1 then [(41, 41), (51, 48), (63, 56)] ++ (if sa then [(127, 96)] else []) else [])

/-- QUEUE. -/
def txQ (d : Desc) : Nat := Desc.bits d 51 48

/-- NET_PORT. -/
def txPort (d : Desc) : Nat := Desc.field d 7 1

/-- SA of a SEND_FRAME with SA_EN. -/
def txSaOf (d : Desc) : Option Nat := if Desc.bits d 41 41 = 1 then some (Desc.field d 12 4) else none

/-- A SEND_FRAME descriptor obeys Table 08-7. -/
def sendFrameOk (pf0 : Bool) (d : Desc) : Bool :=
  let len := Desc.field d 8 4
  Desc.field d 4 1 == 1 && Desc.only d (frameFields 1 (Desc.bits d 41 41 == 1)) && 14 ≤ len && len ≤ 9212 && txPort d < 16 && (txQ d != 0 || pf0)

/-- A POST_BUFFER descriptor obeys Table 08-7. -/
def postBufferOk (d : Desc) : Bool :=
  let len := Desc.field d 8 4
  Desc.field d 4 1 == 2 && Desc.only d (frameFields 2 false) && 64 ≤ len && len ≤ 131072

/-- Bytes 16 to 31 of a transmit completion (Table 08-8). -/
def txWords (len pn port : Nat) : Nat × Nat := (len + 2 ^ 32 * (pn % 2 ^ 32), pn / 2 ^ 32 % 2 ^ 32 + 2 ^ 32 * port)

/-- A SEND_FRAME ends. -/
def State.txEnd (s : State) (o : Op) (st len pn : Nat) : State :=
  let w := txWords len pn (txPort o.desc)
  s.finish o.id (if st = stOk ∧ o.deferred then stEnergyDeferred else st) w.1 w.2

/-- A frame descriptor that breaks Table 08-7 ends with FRAME_INVALID (R200). -/
def State.frameInvalid (s : State) (o : Op) : State :=
  ((s.bump F.TXS_CNT_INVALID_COUNT).event F.TXS_STATUS_INVALID).finish o.id stFrameInvalid 0 0

/-- Subqueue of an owner: the slice, or the device's own (R203; log entry 47). -/
def txOwner (o : Nat) : Nat := if o < 256 then o else 0xFFFF

/-- Credit of an owner for n bytes: a new unit of 64 KiB is offered to the Coffer when the last is used up (R203). -/
def State.frameCredit (s : State) (owner n : Nat) : Bool × State :=
  let have' := lookD s.pp.credit owner 0
  if n ≤ have' then (true, { s with pp := { s.pp with credit := put s.pp.credit owner (have' - n) } })
  else
    let (ok, s) := s.offer 2 (if owner < 256 then some owner else none) (s.energyTable 16 * 1000)
    (ok, if ok then { s with pp := { s.pp with credit := put s.pp.credit owner (have' + 65536 - n) } } else s)

/-- A SEND_FRAME waits, for queue memory or for the Coffer. -/
def State.txHold (s : State) (id : Nat) (mem : Bool) : State :=
  let s := if mem && !s.pp.txWait.contains (id, true) then s.begin (.op id) else s
  { s with pp := { s.pp with txWait := if s.pp.txWait.any (·.1 == id) then s.pp.txWait.map (fun e => if e.1 = id then (id, mem) else e)
                                       else s.pp.txWait ++ [(id, mem)] } }

/-- A SEND_FRAME joins its queue, where the Coffer and the queue's memory let it: its frame is read from its buffer, and is past its commit
point (R202, R203). -/
def State.txJoin (s : State) (o : Op) : State :=
  let d := o.desc
  let n := Desc.field d 8 4 + 4
  let k := 16 * txPort d + txQ d
  let (ok, s') := if s.pp.txWait.contains (o.id, true) then (true, s) else s.frameCredit o.owner n
  if !ok then
    let s := if s.pp.txWait.any (·.1 == o.id) then s' else (s'.bump F.TXS_CNT_DEFER_COUNT).deferOp o.id
    s.txHold o.id false
  else
    let s := s'
    if !s.txFits k n then s.txHold o.id true
    else
      let s := { s with pp := { s.pp with txWait := s.pp.txWait.filter (·.1 != o.id) } }
      if !s.canDma (s.ownerFn o.owner) then s.txEnd o stMasterDisabled 0 0
      else
        let bs := s.mem.read ((s.ownerSpace o.owner).at (Desc.field d 16 8)) (n - 4)
        (s.commitOp o.id).setTxQueue k (s.txQueue k ++ [⟨o.id, txOwner o.owner, 0, bs, txSaOf d, none⟩])

/-- No SEND_FRAME of a slice that freezes or is FROZEN starts (R208). -/
def State.txPaused (s : State) (o : Op) : Bool := o.owner < 256 && !(s.slice o.owner).takesWork

/-- A SEND_FRAME starts (R200): behind an earlier one of its ring that waits, it waits as well. -/
def State.txTry (s : State) (o : Op) : State :=
  if s.txPaused o then (if s.pp.txWait.any (·.1 == o.id) then s else s.txHold o.id false)
  else if s.pp.txWait.any fun e => e.1 < o.id && (s.op e.1).any (·.ring == o.ring) then s.txHold o.id false else s.txJoin o

/-- Waiting SEND_FRAMEs are tried again, oldest first. -/
def State.txKick (s : State) : State :=
  s.pp.txWait.foldl (fun s e => match s.op e.1 with
    | some o => s.txTry o
    | none => { s with pp := { s.pp with txWait := s.pp.txWait.filter (·.1 != e.1) } }) s

/-! ### The egress scheduler (R203 to R206) -/

/-- Length that a queued frame has on the wire, MACsec and ESP included (R206). -/
def State.txLen (s : State) (port : Nat) (f : TxFrame) : Nat :=
  let base := match f.out, f.sa with
    | some _, _ => f.len
    | none, none => f.data.length + 4
    | none, some i => (match (s.txSa i 1 f.owner).2.bind fun a => a.espParts f.data 0 with
      | some p => espLen p + 4
      | none => f.data.length + 4)
  base + (if f.out.isNone && isEapol f.data then 0 else s.macsecExtra port)

/-- The queue's shaper allows a frame (R205). -/
def State.queueOpen (s : State) (k : Nat) : Bool := s.reg (bankKey R.TXS_Q_RATE k) == 0 || 0 ≤ (s.queueBucket k).tokens

/-- A slice's shaper allows a frame. -/
def State.sliceOpen (s : State) (i : Nat) : Bool := 256 ≤ i || s.reg (bankKey R.TXS_S_RATE i) == 0 || 0 ≤ (s.sliceBucket i).tokens

/-- The next eligible frame of a queue: its owners take turns (R203, R204). -/
def State.txHead (s : State) (k : Nat) : Option TxFrame :=
  let l := s.txQueue k
  if !s.queueOpen k then none
  else
    let owners := sortBy (fun (a b : Nat) => decide (a < b)) (l.map (·.owner)).dedup
    let last := lookD s.pp.lastOwner k 0x10000
    let order := owners.filter (last < ·) ++ owners.filter (· ≤ last)
    (order.find? s.sliceOpen).bind fun o => l.find? (·.owner == o)

/-- QUANTUM of a queue; values below 64 are 64. -/
def State.quantum (s : State) (k : Nat) : Nat := max 64 (s.reg (bankKey R.TXS_Q_QUANTUM k))

/-- Deficit round-robin over queues 4 to 15 of a port (R204). -/
def State.drr (port : Nat) : Nat → State → Option (Nat × TxFrame) × State
  | 0, s => (none, s)
  | n + 1, s =>
    let (q, begun) := lookD s.pp.turn port (4, false)
    let k := 16 * port + q
    let go (s : State) (q : Nat) (b : Bool) : State := { s with pp := { s.pp with turn := put s.pp.turn port (q, b) } }
    let next := if q < 15 then q + 1 else 4
    match s.txHead k with
    | none => State.drr port n (go s next false)
    | some f =>
      let d := lookD s.pp.deficit k 0 + (if begun then 0 else s.quantum k)
      let L := s.txLen port f
      if L ≤ d then (some (q, f), { go s q true with pp := { (go s q true).pp with deficit := put s.pp.deficit k (d - L) } })
      else State.drr port n { go s next false with pp := { (go s next false).pp with deficit := put s.pp.deficit k d } }

/-- The next frame of a port (R204); at the 46 V stage only queue 0 transmits (R208). -/
def State.txPick (s : State) (port : Nat) : Option (Nat × TxFrame) × State :=
  match (if s.shedAt 4 then [0] else [0, 1, 2, 3]).findSome? fun q => (s.txHead (16 * port + q)).map fun f => (q, f) with
  | some x => (some x, s)
  | none =>
    if s.shedAt 4 then (none, s)
    else
      let most := (List.range 16).foldl (fun n q => (s.txQueue (16 * port + q)).foldl (fun n f => max n (s.txLen port f)) n) 0
      State.drr port (12 * (most / 64 + 3)) s

/-- A frame leaves the device, counted (R210): a SEND_FRAME completes. -/
def State.txSent (s : State) (f : TxFrame) (L pn : Nat) : State :=
  let s := (s.bump64 R.TXS_CNT_FRAMES_LO R.TXS_CNT_FRAMES_HI 1).bump64 R.TXS_CNT_BYTES_LO R.TXS_CNT_BYTES_HI L
  match s.op f.op with
  | some o => s.txEnd o stOk L pn
  | none => s

/-- A frame that is not sent: a SEND_FRAME ends with the status, a message is dropped (R241 to R243). -/
def State.txFail (s : State) (f : TxFrame) (st : Nat) : State :=
  match s.op f.op with
  | some o => s.txEnd o st 0 0
  | none => s

/-- MACsec and the MAC, for a frame with the ESP number that it has. -/
def State.txMac (s : State) (port : Nat) (f : TxFrame) (bs : List Byte) (pn L : Nat) : State :=
  match s.macOut port (f.out.isNone && isEapol bs) ((if f.out.isSome then f.len - 4 else bs.length) - 12) with
  | ((st, none), s) =>
    if st ≠ stOk then s.txFail f st
    else match f.out with
      | some o => (s.send o).txSent f L pn
      | none => (s.send (.frame port bs)).txSent f L pn
  | ((_, some (a, n)), s) =>
    match f.out with
    | some o => ((s.send (.secured port (s.getF (F.CIP_MACSEC_TX_SA port)) n)).send o).txSent f L pn
    | none => (s.send (.frame port (a.macSeal n bs))).txSent f L pn

/-- The cipher engine takes a frame (R241 to R246). -/
def State.txFinal (s : State) (port : Nat) (f : TxFrame) : State :=
  let L := s.txLen port f
  match f.sa with
  | none => s.txMac port f f.data 0 L
  | some i =>
    let owner := ((s.op f.op).map (·.owner)).getD f.owner
    match s.txSa i 1 owner with
    | (st, none) => s.txFail f st
    | (_, some a) =>
      let (w, s) := if a.tunnel then s.drawWord else (0, s)
      match a.espParts f.data w with
      | none => s.txFail f stCipherFrame
      | some p =>
        if 9216 < espLen p + 4 then s.txFail f stCipherLength
        else
          match s.takeNumber i a with
          | (none, s) => s.txFail f stSaExhausted
          | (some pn, s) => (((s.saUse i).countBlocks p.2.2.length)).txMac port f (p.1 ++ a.espBody pn p.2.2) pn L

/-- The frame needs the cipher engine. -/
def State.txCiphered (s : State) (port : Nat) (f : TxFrame) : Bool :=
  f.sa.isSome || (s.getF (F.CIP_MACSEC_TX_EN port) == 1 && !(f.out.isNone && isEapol f.data))

/-- A frame that the scheduler has started: it goes on, or waits in its port's holding buffer; one that finds that buffer full is dropped, and
the engine retries a SEND_FRAME (R247). -/
def State.txStage (s : State) (port q : Nat) (f : TxFrame) : State :=
  if !(s.holding port 1).isEmpty ∨ f.sa.any s.saAbsent then
    match s.holdPut port 1 (.tx q f) with
    | some s => s
    | none =>
      let s := s.bump F.CIP_CNT_MISS_DROP
      let k := 16 * port + q
      if f.op = 0 then s else s.setTxQueue k (s.txQueue k ++ [f])
  else s.txFinal port f

/-- The scheduler picks a port's next frame and starts it (R204, R205). The settings that the frame boundary changes apply first (R207). -/
def State.egress (s : State) (port : Nat) : State :=
  if s.hallPaused 4 ∨ !s.netUp port then s
  else
    let s := ((((s.bufferedApply 13 0).bufferedApply 13 1).bufferedApply 13 2).bufferedApply 15 0).txKick
    match s.txPick port with
    | (none, s) => s
    | (some (q, f), s') =>
      if s.txCiphered port f ∧ s.hallPaused 10 then s
      else
        let k := 16 * port + q
        let L := s'.txLen port f
        let qb := s'.queueBucket k
        let sb := s'.sliceBucket f.owner
        let s := { s' with pp := { s'.pp with
          lastOwner := put s'.pp.lastOwner k f.owner,
          queueB := if s'.reg (bankKey R.TXS_Q_RATE k) = 0 then s'.pp.queueB else put s'.pp.queueB k (qb.spend L),
          sliceB := if f.owner < 256 ∧ s'.reg (bankKey R.TXS_S_RATE f.owner) ≠ 0 then put s'.pp.sliceB f.owner (sb.spend L) else s'.pp.sliceB } }
        let l := s.txQueue k
        let s := s.setTxQueue k (l.eraseIdx (l.findIdx (· == f)))
        (((s.txStage port q f).txKick).rteKick).txRetry

/-- Items of a holding buffer go on after a fetch or a pause, in order, until one waits again (R247). -/
def State.holdGo (port dir : Nat) : Nat → State → State
  | 0, s => s
  | n + 1, s =>
    match s.holding port dir with
    | [] => s
    | x :: rest =>
      let ready : Bool := !s.hallPaused 10 && (match x with
        | .esp _ a => !(a.sa.any s.saAbsent)
        | .tx _ f => !(f.sa.any s.saAbsent)
        | .rx _ => true)
      if !ready then s
      else
        let s := s.setHolding port dir rest
        State.holdGo port dir n (match x with
          | .rx f => s.frameGo f
          | .esp f a => s.espGo f a
          | .tx _ f => s.txFinal port f)

/-- Every holding buffer goes on as far as it can. -/
def State.holdsGo (s : State) : State :=
  (List.range 32).foldl (fun s k => State.holdGo (k / 2) (k % 2) (s.holding (k / 2) (k % 2)).length s) s

/-! ### Slices and cancels -/

/-- A cancel of a frame descriptor (R202). -/
def State.frameCancelTag (s : State) (i tag : Nat) : CancelResult × State :=
  match s.cancelFind i [0x03, 0x04] tag with
  | (.cancelled, some o) =>
    let s := { s with pp := { s.pp with txWait := s.pp.txWait.filter (·.1 != o.id) } }
    (.cancelled, (s.finish o.id stCancelled 0 0).txKick)
  | (r, _) => (r, s)

/-- SEND_FRAME stops at a frame boundary: frames of a slice that have not started leave the queues (Table 13-5). -/
def State.ppResetSlice (s : State) (i : Nat) : State :=
  let s := s.pp.queues.foldl (fun (s : State) e => s.setTxQueue e.1 (e.2.filter fun f => f.op == 0 || f.owner != i)) s
  { s with
    cip := { s.cip with hold := s.cip.hold.map fun (e : Nat × List HoldItem) => (e.1, e.2.filter fun x => match x with
      | .tx _ f => f.op == 0 || f.owner != i
      | _ => true) },
    pp := { s.pp with credit := drop s.pp.credit i, rxDebt := drop s.pp.rxDebt i,
                      txWait := s.pp.txWait.filter fun e => (s.op e.1).any fun o => o.owner != i } }

/-- No SEND_FRAME of a slice has started and not completed (R208). -/
def State.framesQuiet (s : State) (i : Nat) : Bool := !(s.ops.any fun o => o.owner == i && o.src == 0x04 && o.committed && o.done.isNone)

/-- A slice reset removes every ESP SA of the slice (R255). -/
def State.cipResetSlice (s : State) (i : Nat) : State :=
  { s with cip := { s.cip with sas := s.cip.sas.map fun (e : Nat × Sa) => if e.2.slice = i then (e.1, { e.2 with st := 3 }) else e } }

/-- An SA of the slice has not been freed yet. -/
def State.cipResetting (s : State) (i : Nat) : Bool := s.cip.sas.any fun e => e.2.slice == i

end Sys2Proof.Machine
end

