-- ==== Sys2Proof/Machine/Cipher.lean ====
section
/-! DEFINITION. The cipher engine's and the check-value units' commands: security associations (R240, R241, R247), the noise source (R238) and
CVU jobs (R250 to R254). -/

namespace Sys2Proof.Machine

/-! ### Security associations -/

/-- An SA entry obeys Table 10-2: no reserved bit is set, and every field has a value that the table gives it (log entry 48). -/
def saEntryOk (e : List Byte) : Bool :=
  let kind := fieldAt e 0 1 / 16
  let esp := kind == 1 || kind == 2
  let xpn := !esp && bitAt (fieldAt e 1 1) 6
  let slice := fieldAt e 2 2
  let win := fieldAt e 44 2
  let port := fieldAt e 46 1
  1 ≤ kind && kind ≤ 4 && fieldAt e 0 1 % 16 == 0 && fieldAt e 47 1 == 0 && fieldAt e 113 1 % 4 == 0 && allZero (cut e 114 14) &&
    (if esp then slice < 256 || slice == 0xFFFF else slice == 0xFFFF) && (esp || xpn || fieldAt e 4 4 == 0) &&
    (if esp then allZero (cut e 36 8) else xpn || allZero (cut e 32 12)) && win ≤ 4096 && (!esp || win % 64 == 0) &&
    (if esp then port == 0 else decide (port < 16))

/-- SA entry in the window, with KEY. -/
def State.saWindow (s : State) : List Byte := (List.range 32).flatMap fun w => leBytes 4 (s.reg (R.CIP_SA_DATA w))

/-- An SA command ends with a result. -/
def State.saResult (s : State) (r : Nat) : State := s.eventV F.CIP_SA_RESULT_RESULT r

/-- INSTALL (R241). -/
def State.saInstall (s : State) (i : Nat) : State :=
  let e := s.saWindow
  let a : Sa := ⟨e, if fieldAt e 0 1 / 16 % 2 = 1 then 1 else 0, [], 1, false, 0⟩
  if (s.sa i).isSome then s.saResult 1
  else if !saEntryOk e ∨ (a.kind = 4 ∧ s.cip.sas.any fun x => x.2.kind == 4 && x.2.port == a.port && x.2.sci == a.sci && x.2.an == a.an) then
    s.saResult 2
  else ((s.setSa i a).saUse i).saResult 0

/-- An SA enters REMOVING (R241); what waits for it goes on as for a free SA. -/
def State.saRetire (s : State) (i : Nat) (a : Sa) : State := (s.setSa i { a with st := 3 }).holdsGo

/-- A CIP_MACSEC register names a transmit SA, whatever its TX_EN says (R241). -/
def State.macNames (s : State) (i : Nat) : Bool :=
  (List.range 16).any fun p => s.getF (F.CIP_MACSEC_TX_SA p) == i

/-- REMOVE (R241; for a free index, log entry 48). -/
def State.saRemove (s : State) (i : Nat) : State :=
  match s.sa i with
  | none => s.saResult 2
  | some a =>
    if a.st = 3 ∨ s.cip.removeCmd.isSome ∨ (a.kind = 3 ∧ s.macNames i) then s.saResult 1
    else { s with cip := { s.cip with removeCmd := some i } }.saRetire i a

/-- The entry as QUERY shows it: NEXT_PN as it stands, and KEY as zero. -/
def Sa.shown (a : Sa) : List Byte := cut a.entry 0 8 ++ leBytes 8 a.pn ++ cut a.entry 16 32 ++ List.replicate 32 0 ++ cut a.entry 80 48

/-- QUERY (R241): a free index shows an entry of zeros. -/
def State.saQuery (s : State) (i : Nat) : State :=
  let e := ((s.sa i).map Sa.shown).getD (List.replicate 128 0)
  ((List.range 32).foldl (fun s w => s.setReg (R.CIP_SA_DATA w) (fieldAt e (4 * w) 4)) s).saResult 0

/-- SA_INSTALL (R241). -/
def execSaInstall (m : Master) (s : State) : Res :=
  .next (s.guardWrite m R.CIP_SA_CMD (.saInstall m) fun s => (s.setF F.CIP_SA_CMD_OP 1).saInstall (s.getF F.CIP_SA_SEL_INDEX))

/-- SA_REMOVE (R241). -/
def execSaRemove (m : Master) (s : State) : Res :=
  .next (s.guardWrite m R.CIP_SA_CMD (.saRemove m) fun s => (s.setF F.CIP_SA_CMD_OP 2).saRemove (s.getF F.CIP_SA_SEL_INDEX))

/-- SA_QUERY (R241). -/
def execSaQuery (m : Master) (s : State) : Res :=
  .next (s.guardWrite m R.CIP_SA_CMD (.saQuery m) fun s => (s.setF F.CIP_SA_CMD_OP 3).saQuery (s.getF F.CIP_SA_SEL_INDEX))

/-- The frames of a REMOVING SA have finished: the entry is free, and the REMOVE that asked for it completes (R241, R255). -/
def State.saFree (s : State) (i : Nat) : State :=
  match s.sa i with
  | none => s
  | some a =>
    if a.st ≠ 3 then s
    else
      let s := { s with cip := { s.cip with sas := drop s.cip.sas i } }
      if s.cip.removeCmd = some i then { s with cip := { s.cip with removeCmd := none } }.saResult 0 else s

/-- SA_REMOVE_DRAIN_DONE (R241). -/
def execSaRemoveDrainDone (index : BitVec 16) (s : State) : Res := .next (s.saFree index.toNat)

/-- A frame in a holding buffer waits for an SA. -/
def HoldItem.wants (i : Nat) : HoldItem → Bool
  | .rx _ => false
  | .esp _ a => a.sa == some i
  | .tx _ f => f.sa == some i

/-- SA_FETCH_DONE (R247). -/
def execSaFetchDone (index : BitVec 16) (s : State) : Res :=
  let i := index.toNat
  .next (if s.saAbsent i ∧ s.cip.hold.any (fun e => e.2.any (HoldItem.wants i)) then (s.saUse i).holdsGo else s)

/-- RNG_HEALTH_FAIL (R238): the countermeasures stop until the next cold reset. -/
def execRngHealthFail (s : State) : Res :=
  .next (if s.answers 15 ∧ !s.cip.rngFault then
    ({ s with cip := { s.cip with rngFault := true } }.event F.CIP_STATUS_RNG_FAULT).report 0x208 15 0xFFFF 0 0
  else s)

/-! ### Check-value units -/

/-- Running value of a context; bits above the CRC's width read 0. -/
def State.cvuValue (s : State) (n : Nat) : Nat :=
  (s.reg (R.CVU_CTX_VALUE_LO n) + 2 ^ 32 * s.reg (R.CVU_CTX_VALUE_HI n)) % 2 ^ (polyOf (s.getF (F.CVU_CTX_CFG_POLY n))).width

/-- Running value of a context set. -/
def State.cvuSet (s : State) (n v : Nat) : State := (s.setReg (R.CVU_CTX_VALUE_LO n) v).setReg (R.CVU_CTX_VALUE_HI n) (v / 2 ^ 32)

/-- START (R251, R252). -/
def State.cvuStart (s : State) (n : Nat) : State :=
  let p := polyOf (s.getF (F.CVU_CTX_CFG_POLY n))
  s.cvuSet n (if s.getF (F.CVU_CTX_CFG_FOLD n) = 1 then crcFeed p p.init (leBytes 4 (s.reg (R.CVU_CTX_PREFIX n))) else p.init)

/-- A job starts (R254), or is refused with BUSY. -/
def State.cvuJob (s : State) (port n : Nat) (start : Bool) : State :=
  if s.cip.job.isSome then s.eventV F.CVU_JOB_STATUS_RESULT 1
  else
    let s := if start then s.cvuStart n else s
    let s := s.setF F.CVU_JOB_STATUS_ACTIVE 1
    { s with cip := { s.cip with job := some ⟨n, s.reg R.CVU_JOB_SRC_LO + 2 ^ 32 * s.reg R.CVU_JOB_SRC_HI, s.reg R.CVU_JOB_LEN, port⟩ } }

/-- CVU_JOB (R254). -/
def execCvuJob (m : Master) (ctx : Fin 16) (start : Bool) (s : State) : Res :=
  .next (s.openWrite m R.CVU_JOB_CTRL (.cvuJob m ctx start) fun s => s.cvuJob (s.cmdPort m) ctx start)

/-- CVU_JOB_DONE (R251, R254): the bytes of PF0 memory have been fed, or could not be read (FETCH_FAULT). -/
def execCvuJobDone (s : State) : Res :=
  .next (match s.cip.job with
    | none => s
    | some j =>
      if s.hallPaused 0 then s else
      let s := { s.setF F.CVU_JOB_STATUS_ACTIVE 0 with cip := { s.cip with job := none } }
      if !s.canDma (.pf0 ⟨j.port % 4, Nat.mod_lt _ (by decide)⟩) then s.eventV F.CVU_JOB_STATUS_RESULT 2
      else
        let bs := s.mem.read ((Space.pf0 j.port).at j.src) j.len
        let s := s.cvuSet j.ctx (crcFeed (polyOf (s.getF (F.CVU_CTX_CFG_POLY j.ctx))) (s.cvuValue j.ctx) bs)
        (s.bump64 R.CVU_CNT_BYTES_LO R.CVU_CNT_BYTES_HI j.len).eventV F.CVU_JOB_STATUS_RESULT 0)

end Sys2Proof.Machine
end

