-- ==== Sys2Proof/Machine/FwOps.lean ====
section
/-! DEFINITION. Firmware images and log rings: the version that a wing runs (R326), log records (R331) and the catalogue of trace points
(R332). -/

namespace Sys2Proof.Machine

/-- Image in a firmware slot: 0 slot A, 1 slot B. -/
def State.fwImage (s : State) (k : Nat) : List Byte := if k = 0 then s.stw.slotA else s.stw.slotB

/-- A firmware slot holds a valid image (Table 14-6). -/
def State.fwValid (s : State) (k : Nat) : Bool := s.getF (if k = 0 then F.STW_FW_BOOT_A_VALID else F.STW_FW_BOOT_B_VALID) == 1

/-- Valid bit of a firmware slot set. -/
def State.setFwValid (s : State) (k v : Nat) : State := s.setF (if k = 0 then F.STW_FW_BOOT_A_VALID else F.STW_FW_BOOT_B_VALID) v

/-- Version of an image, as DEV_FW_VER shows one. -/
def fwVersion (img : List Byte) : Nat := (Config.fwInfo img).toNat % 2 ^ 32

/-- Lowest and highest driver version of an image's window. -/
def fwLow (img : List Byte) : Nat := (Config.fwInfo img).toNat / 2 ^ 32 % 65536

/-- Highest driver version of an image's window. -/
def fwHigh (img : List Byte) : Nat := (Config.fwInfo img).toNat / 2 ^ 48

/-- Slot that a wing runs. -/
def State.wingSlot (s : State) (w : Nat) : Nat := s.getF (F.STW_WING_STATE_SLOT w)

/-- DEV_FW_VER is the lowest version that runs, and DEV_DRV_WINDOW the intersection of the windows (R326). -/
def State.fwShow (s : State) : State :=
  let imgs := (List.range 4).map fun w => s.fwImage (s.wingSlot w)
  let ver := (imgs.map fwVersion).foldl min (2 ^ 32 - 1)
  let low := (imgs.map fwLow).foldl max 0
  let high := (imgs.map fwHigh).foldl min 65535
  (s.setReg R.DEV_FW_VER ver).setReg R.DEV_DRV_WINDOW (low * 65536 + high)

/-- A record of a wing's log ring (Table 14-3). -/
def logBytes (ns frac core level kind id slice seq lost : Nat) (data : List Byte) : List Byte :=
  leBytes 8 ns ++ leBytes 2 frac ++ leBytes 1 (core % 32) ++ leBytes 1 (level * 16 + kind) ++ leBytes 2 id ++ leBytes 2 slice ++ leBytes 4 seq ++
    leBytes 4 lost ++ (data ++ List.replicate 40 0#8).take 40

/-- A core writes a record into its wing's ring (R331): the newest record replaces the oldest when the ring is full. -/
def State.logWrite (s : State) (core level kind id slice : Nat) (data : List Byte) : State :=
  let w := core / 8
  let seq := s.reg (R.STW_LOG_HEAD w)
  let r := logBytes s.now s.time.frac core level kind id slice seq (min (lookD s.stw.lost w 0) (2 ^ 32 - 1)) data
  { s with stw := { s.stw with
      logs := put s.stw.logs w ((r :: lookD s.stw.logs w []).take (s.getF (F.STW_LOG_SIZE_RECORDS w))), lost := drop s.stw.lost w } }.setReg
    (R.STW_LOG_HEAD w) (seq + 1)

/-- A core that starts an image writes a catalogue record for every point that the image defines (R332). -/
def State.catalogue (s : State) (core : Nat) : State :=
  (Config.tracePoints (s.fwImage (s.wingSlot (core / 8))) core).foldl (fun s p =>
    s.logWrite core 0 2 (p.1 % 256) 0xFFFF ((p.2.1 ++ List.replicate 32 0#8).take 32 ++ leBytes 8 p.2.2)) s

/-- A wing runs the image of its slot: its version shows, and its cores write their catalogues (R326, R332). -/
def State.wingRuns (s : State) (w : Nat) : State :=
  let s := (s.setReg (R.STW_WING_VER w) (fwVersion (s.fwImage (s.wingSlot w)))).fwShow
  (List.range 8).foldl (fun s k => s.catalogue (8 * w + k)) s

end Sys2Proof.Machine
end

