-- ==== Sys2Proof/Machine/Gallery.lean ====
section
/-! DEFINITION. The commands of Gallery rings: their checks in the order of R392, their dispatch, chunks and cancels (R73 to R97). -/

namespace Sys2Proof.Machine

/-! ### Check 1: the descriptor -/

/-- OPCODE of a Gallery descriptor (Table 04-4). -/
def galOpcode (d : Desc) : Nat := Desc.bits d 35 32

/-- IN_CTRL. -/
def galInCtrl (d : Desc) : Nat := Desc.field d 12 1

/-- OUT_CTRL. -/
def galOutCtrl (d : Desc) : Nat := Desc.field d 13 1

/-- SRC_COUNT. -/
def galSrc (d : Desc) : Nat := Desc.field d 14 1

/-- COUNT. -/
def galCount (d : Desc) : Nat := Desc.field d 16 4

/-- STREAM_TABLE. -/
def galTable (d : Desc) : Nat := Desc.field d 24 8

/-- Fields that each opcode uses (Table 04-4). -/
def galFields (d : Desc) : List (Nat × Nat) :=
  let work := [(95, 80), (119, 112), (159, 128), (191, 160), (255, 192), (335, 320)]
  [(31, 0), (35, 32), (41, 40)] ++
    match galOpcode d with
    | 1 => work ++ [(103, 96), (111, 104)]
    | 2 => work ++ [(111, 104)]
    | 3 => work ++ [(42, 42), (63, 48), (79, 64), (125, 120), (319, 256)]
    | 4 => [(159, 128), (255, 192)]
    | _ => [(63, 48)]

/-- Check 1 of R392: the descriptor itself (R47, R61, R73). -/
def galDescStatus (d : Desc) : Nat :=
  let op := galOpcode d
  let id := Desc.field d 6 2
  if op = 0 ∨ 5 < op ∨ !Desc.only d (galFields d) then stDescInvalid
  else if (op = 3 ∨ op = 5) ∧ (id = 0 ∨ id = 0xFFFF) then stDescInvalid
  else if op ≤ 3 ∧ (galTable d % 64 ≠ 0 ∨ galSrc d = 0 ∨ 16 < galSrc d) then stDescInvalid
  else if op ≤ 2 ∧ galSrc d < 2 then stDescInvalid
  else if op = 3 ∧ (32 < Desc.bits d 125 120 ∨ Desc.field d 32 8 % 64 ≠ 0) then stDescInvalid
  else ctrlStatus op (galInCtrl d) (galOutCtrl d)

/-! ### Check 4: the stream table -/

/-- An entry of the stream table obeys Table 04-5, its FORMAT apart (R74, R75). -/
def entryShape (b : List Byte) : Bool :=
  let mx := (Fmt.ofCode (fieldAt b 0 1 % 16)).any Fmt.isMx && fieldAt b 0 1 / 16 % 4 == 0
  fieldAt b 0 1 / 64 != 3 && fieldAt b 0 1 / 16 % 4 < 2 && fieldAt b 1 1 < 4 && fieldAt b 3 1 == 0 && fieldAt b 24 8 == 0 &&
    (if fieldAt b 1 1 = 2 then fieldAt b 2 1 < 8 else fieldAt b 2 1 == 0) && (fieldAt b 1 1 == 0 || fieldAt b 4 4 == 0) &&
    (mx || fieldAt b 16 8 == 0)

/-- The space of an entry, for a slice. -/
def entrySpace (x : Slice) (b : List Byte) : Space :=
  match fieldAt b 1 1 with
  | 0 => .tier (fieldAt b 4 4)
  | 1 => x.space
  | _ => .accel (fieldAt b 2 1)

/-- The stream of an entry whose FORMAT names a format. -/
def entryStrm (x : Slice) (b : List Byte) : Strm :=
  ⟨fieldAt b 0 1 / 64, fieldAt b 0 1 / 16 % 4, (Fmt.ofCode (fieldAt b 0 1 % 16)).getD .fp32, entrySpace x b, fieldAt b 8 8, entrySpace x b,
    fieldAt b 16 8, 0, 0⟩

/-- One entry of the stream table under R74, R75, R77, R78 and R90: its status. -/
def State.entryStatus (s : State) (i : Nat) (d : Desc) (img : List Byte) (before : List Strm) (j : Nat) (b : List Byte) : Nat :=
  let st := entryStrm (s.slice i) b
  let op := galOpcode d
  let h := FHead.of img
  if !entryShape b then stDescInvalid
  else if (Fmt.ofCode (fieldAt b 0 1 % 16)).isNone then stFormatInvalid
  else if fieldAt b 1 1 = 3 then stDescInvalid
  else if op = 3 ∧ j < h.streams ∧ (maskDir h j).isNone then stOk
  else
    let n := if op = 3 ∧ j = h.streams then (carried img).length else galCount d
    let e := s.strmStatus i st n
    if e ≠ stOk then e
    else if !st.aligned then stDescInvalid
    else match op with
      | 1 => s.reduceStatus (galInCtrl d) (galOutCtrl d) (galCount d) before st
      | 2 => convertStatus (galOutCtrl d) before st
      | _ => programStatus img j st

/-- Check 4 of R392 over the table: the streams, or the status with the index of the entry. -/
def State.tableCheck (s : State) (i : Nat) (d : Desc) (img : List Byte) : Nat → List Strm → Except (Nat × Option Nat) (List Strm)
  | 0, acc => if galOpcode d ≠ 3 ∧ !acc.any Strm.writes ∨ galOpcode d = 2 ∧ !acc.any Strm.reads then .error (stDescInvalid, none) else .ok acc
  | n + 1, acc =>
    let b := s.mem.read ((s.slice i).space.at (galTable d + 32 * acc.length)) 32
    let e := s.entryStatus i d img acc acc.length b
    if e = stOk then s.tableCheck i d img n (acc ++ [entryStrm (s.slice i) b]) else .error (e, some acc.length)

/-! ### Dispatch -/

/-- A refused command completes with its status and detail, and writes nothing (R392); a PROGRAM refused after check 3 shows the version that it
has bound (log entry 9). -/
def State.galRefuse (s : State) (o : Op) (st detail kind : Nat) (ver : Nat := 0) : State :=
  s.galEndOp o.id st (galWords 0 0 detail 0 0 kind ver)

/-- A REDUCE, CONVERT or PROGRAM that has passed its checks is divided into chunks (R92). -/
def State.galStart (s : State) (o : Op) (slot : Nat) (img : List Byte) (l : List Strm) : State :=
  let d := o.desc
  let addends := (l.filter Strm.reads).foldl (fun n st =>
    addCount n (if st.kind = 0 then 1 else fieldAt (s.getBytes st.space (st.addr + 8) 8).1 0 8 % 2 ^ 33)) 0
  let sp := (s.slice o.owner).space
  let scalars := (List.range (Desc.bits d 125 120)).map fun k => leNat (s.mem.read (sp.at (Desc.field d 32 8 + 4 * k)) 4)
  let c : GalCmd :=
    { op := o.id, step := none, slice := o.owner, kind := galOpcode d, count := galCount d, inCtrl := galInCtrl d, outCtrl := galOutCtrl d,
      key := (0xFFFF, Desc.field d 10 2, Desc.field d 20 4), streams := if galOpcode d = 3 then progStrms img l else l, scalars := scalars,
      writeBack := if Desc.bits d 42 42 = 1 then some (sp, Desc.field d 32 8 + 96) else none, slot := slot, image := img,
      mask := Desc.field d 40 2, start := 0, next := 0, chunks := [], ranges := [],
      flags := if galOpcode d = 1 ∧ 2 ^ 32 < addends then flagSAT else 0, clusters := 0,
      addends := if galOpcode d = 1 then addends else 0, accs := List.replicate 4 Accu.empty, cnts := List.replicate 4 0, deferred := false,
      counted := none, fault := none }
  { s with gal := { s.gal with cmds := s.gal.cmds ++ [c] } }.galSettle c

/-- A PROGRAM_INVALID detail of an image (R90): kind and index. A CARRY bit of an accumulator that the exchange format does not have is taken as a
header fault (log entry 127). -/
def imageFault (img : List Byte) (count : Nat) : Option (Nat × Nat) :=
  let h := FHead.of img
  let len := 64 + 8 * (h.bodyLen + h.tailLen)
  if count < 64 ∨ 2112 < count ∨ count ≠ len then some (2, 0)
  else if cut img 0 4 ≠ [0x46#8, 0x4C#8, 0x47#8, 0x52#8] ∨ h.id = 0 ∨ h.id = 0xFFFF ∨ h.ver = 0 ∨ h.bodyLen = 0 ∨ 255 < h.bodyLen ∨
      h.tailLen = 0 ∨ 255 < h.tailLen ∨ 256 < h.bodyLen + h.tailLen ∨ fieldAt img 12 1 / 16 ≠ 0 ∨ fieldAt img 13 1 / 16 ≠ 0 ∨
      fieldAt img 14 1 / 32 ≠ 0 ∨ h.streams = 0 ∨ 15 < h.streams ∨ fieldAt img 15 1 ≠ 0 ∨ fieldAt img 20 40 ≠ 0 then some (2, 0)
  else if 2 ^ h.streams ≤ h.inMask ∨ 2 ^ h.streams ≤ h.outMask then some (2, 0)
  else if fieldAt img 60 4 ≠ crc32c (cut img 0 60 ++ cut img 64 (len - 64)) then some (2, 0)
  else
    match h.exchFmt with
    | none => some (2, 0)
    | some x =>
      if 2 ^ accCount x ≤ h.carry then some (2, 0)
      else
        match firstBad h x false (bodyWords img) 0 with
        | some i => some (1, i)
        | none => (firstBad h x true (tailWords img) h.bodyLen).map fun i => (1, i)

/-- LOAD_PROGRAM (R90, R91): a FREE slot is LOADING and then CURRENT, and the old one RETIRING. Which free slot is the device's choice (log entry 13). -/
def State.loadProgram (s : State) (o : Op) : State :=
  let d := o.desc
  let img := s.mem.read ((s.slice o.owner).space.at (galTable d)) (if galCount d < 64 ∨ 2112 < galCount d then 64 else galCount d)
  let h := FHead.of img
  match imageFault img (galCount d) with
  | some (k, i) => s.galRefuse o stProgInvalid i k
  | none =>
    let old := s.findProg o.owner h.id 0
    if (old.map fun k => (FHead.of (s.progSlot k).image).ver).any (fun v => h.ver ≤ v) then s.galRefuse o stProgInvalid 0 3
    else
      let (w, t) := s.drawWord
      match pickFree 0 8 8 w (fun k => (s.progSlot k).st == 0) with
      | none => s.galRefuse o stStoreFull 0 0
      | some k =>
        let s := (t.setProg k ⟨1, o.owner, img⟩).setProg k ⟨2, o.owner, img⟩
        let s := match old with
          | some j => s.setProg j { s.progSlot j with st := 3 }
          | none => s
        ((s.commitOp o.id).galEndOp o.id stOk (galWords 0 0 0 0 0 0 h.ver)).progSweep

/-- UNLOAD_PROGRAM (R91). -/
def State.unloadProgram (s : State) (o : Op) : State :=
  match s.findProg o.owner (Desc.field o.desc 6 2) 0 with
  | none => s.galRefuse o stProgAbsent 0 0
  | some k => ((s.setProg k { s.progSlot k with st := 3 }).galEndOp o.id stOk (0, 0)).progSweep

/-- Some cluster may serve a command (R93). -/
def State.galAble (s : State) (d : Desc) : Bool :=
  (List.range 16).any fun c => s.clusterOn c && s.galReserve ≤ c && (Desc.field d 40 2 == 0 || bitAt (Desc.field d 40 2) c)

/-- Checks 1 to 3 of R392: the descriptor, the weight and the clusters, and for PROGRAM residency. -/
def State.galEarly (s : State) (o : Op) : Nat :=
  let d := o.desc
  let op := galOpcode d
  if galDescStatus d ≠ stOk then galDescStatus d
  else if s.galWeight o.owner = 0 then stRights
  else if op ≤ 3 ∧ !s.galAble d then stNoCluster
  else if op = 3 ∧ (s.findProg o.owner (Desc.field d 6 2) (Desc.field d 8 2)).isNone then stProgAbsent
  else stOk

/-- A command that passes the checks ahead of it reads host memory for its stream table, its scalars or its image (R392). -/
def State.galReads (s : State) (o : Op) : Bool := galOpcode o.desc ≤ 4 && s.galEarly o == stOk

/-- Headers of the groups that a REDUCE reads, as its stream table names them (R77). -/
def State.headSpans (s : State) (o : Op) : List (Space × Nat × Nat) :=
  if galOpcode o.desc ≠ 1 then []
  else
    (List.range (galSrc o.desc)).filterMap fun j =>
      let st := entryStrm (s.slice o.owner) (s.mem.read ((s.slice o.owner).space.at (galTable o.desc + 32 * j)) 32)
      if st.kind = 1 ∧ st.reads then some (st.space, st.addr, 64) else none

/-- The header of a group lies in a page of T4, and the dispatch waits for its fetch (R69, R173). -/
def State.headWaits (s : State) (o : Op) : Bool :=
  (s.headSpans o).any fun x => s.spanReach o.owner false x.1 x.2.1 x.2.2 == .wait

/-- A command is dispatched: the checks of R392, in order; `bad` says that its read of host memory fails (R289). -/
def State.galDispatch (s : State) (o : Op) (bad : Bool := false) : State :=
  let d := o.desc
  let op := galOpcode d
  if s.galEarly o ≠ stOk then s.galRefuse o (s.galEarly o) 0 0
  else if op ≠ 5 ∧ !s.canDma (s.ownerFn o.owner) then s.galRefuse o stMasterDisabled 0 0
  else if bad ∧ op ≠ 5 then s.galRefuse o stStreamFault 0 0
  else if s.headWaits o then
    let t := (s.spansFetch false (s.headSpans o)).begin (.op o.id)
    { t with gal := { t.gal with heads := t.gal.heads ++ [o.id] } }
  else if op = 4 then s.loadProgram o
  else if op = 5 then s.unloadProgram o
  else
    let slot := if op = 3 then s.findProg o.owner (Desc.field d 6 2) (Desc.field d 8 2) else none
    let img := match slot with | some k => (s.progSlot k).image | none => []
    let h := FHead.of img
    if op = 3 ∧ galSrc d ≠ h.streams + (if h.carry = 0 then 0 else 1) then s.galRefuse o stDescInvalid 0 0 h.ver
    else
      let ver := if op = 3 then h.ver else 0
      match s.tableCheck o.owner d img (galSrc d) [] with
      | .error (e, some j) => s.galRefuse o e j 4 ver
      | .error (e, none) => s.galRefuse o e 0 0 ver
      | .ok l => s.galStart o (slot.getD 15) img l

/-- Every earlier command of the operation's ring has completed (R94). -/
def State.galFront (s : State) (o : Op) : Bool := (s.ops.find? (·.ring == o.ring)).map (·.id) == some o.id

/-- A slice's next command may be dispatched: its last one has handed out all its chunks (R92), and none waits for the header of a group. -/
def State.sliceReady (s : State) (owner : Nat) : Bool :=
  !(s.gal.cmds.any fun c => c.step.isNone && c.slice == owner && c.open') && !(s.gal.heads.any fun id => (s.op id).any (·.owner == owner)) &&
    !(s.hallPaused 6 && s.hallPaused 7)

/-- A command that waited for a page of T4 is dispatched again. -/
def State.headKick (s : State) (id : Nat) : State :=
  match s.op id with
  | none => { s with gal := { s.gal with heads := s.gal.heads.filter (· != id) } }
  | some o => if s.headWaits o then s else { s with gal := { s.gal with heads := s.gal.heads.filter (· != id) } }.galDispatch o

/-- A command that FENCE holds is dispatched when it stands first in its ring and its slice is ready (R92, R94). -/
def State.fenceGo (s : State) (id : Nat) : State :=
  match s.op id with
  | none => { s with gal := { s.gal with held := s.gal.held.filter (· != id) } }
  | some o =>
    if s.galFront o && s.sliceReady o.owner then { s with gal := { s.gal with held := s.gal.held.filter (· != id) } }.galDispatch o else s

/-- Commands that waited for a page of T4 or for FENCE go on where they may. -/
def State.galKick (s : State) : State :=
  let s := s.galLast
  let s := s.gal.heads.foldl State.headKick s
  s.gal.held.foldl State.fenceGo s

/-- The Gallery is ready to fetch a ring's next command: its slice is ready, and none of the ring waits for FENCE (R92, R94). -/
def State.galReady (s : State) (ring : Nat) : Bool :=
  match s.ring ring with
  | none => false
  | some r => s.sliceReady r.owner && !(s.gal.held.any fun id => ((s.op id).map (·.ring)) == some ring)

/-- A Gallery ring fetches a descriptor of an opcode, or of one that names no command (R73). -/
def State.galFetch (s : State) (opc ring : Nat) (d : Desc) : State :=
  let x := galOpcode d
  if (x = opc ∨ x = 0 ∨ 5 < x) ∧ Desc.field d 4 1 ≠ 0x0F ∧ s.galReady ring then
    match s.fetch ring 0x05 (Desc.tag d) d with
    | some (o, s) =>
      if Desc.bits d 41 41 = 1 ∧ !s.galFront o then { s with gal := { s.gal with held := s.gal.held ++ [o.id] } }
      else (s.galDispatch o).galKick
    | none => s
  else s

/-- REDUCE (R77). -/
def execReduce (ring : BitVec 16) (d : Desc) (s : State) : Res := .next (s.galFetch 1 ring.toNat d)

/-- CONVERT (R78). -/
def execConvert (ring : BitVec 16) (d : Desc) (s : State) : Res := .next (s.galFetch 2 ring.toNat d)

/-- PROGRAM (R83). -/
def execProgram (ring : BitVec 16) (d : Desc) (s : State) : Res := .next (s.galFetch 3 ring.toNat d)

/-- LOAD_PROGRAM (R91). -/
def execLoadProgram (ring : BitVec 16) (d : Desc) (s : State) : Res := .next (s.galFetch 4 ring.toNat d)

/-- UNLOAD_PROGRAM (R91). -/
def execUnloadProgram (ring : BitVec 16) (d : Desc) (s : State) : Res := .next (s.galFetch 5 ring.toNat d)

/-- CHUNK_TAKE (R92). Commands that wait for pages of T4 go on first where the pages have come. -/
def execChunkTake (cluster : Fin 16) (s : State) : Res := .next (((s.galKick).noCluster).chunkTake cluster)

/-- CHUNK_DONE (R82). -/
def execChunkDone (cluster : Fin 16) (s : State) : Res := .next (((s.chunkDone cluster).galKick).flightAbsorb)

/-- GAL_STREAM_FAULT (R82). -/
def execGalStreamFault (cluster : Fin 16) (s : State) : Res := .next (((s.chunkFault cluster).galKick).flightAbsorb)

/-- A cancel of a Gallery command (R96): its record says what it had run (Table 04-7). -/
def State.galCancelTag (s : State) (i tag : Nat) : CancelResult × State :=
  match s.cancelFind i [0x06] tag with
  | (.cancelled, some o) =>
    match s.waitOf o.id with
    | some c => (.cancelled, (s.waitEnd c stCancelled).galKick)
    | none =>
      let w := match s.galOf o.id with
        | some c => { c with addends := c.addendsNow }.words
        | none => (0, 0)
      let s := match s.galOf o.id with
        | some c => ((c.chunks.foldl (fun (s : State) (x : Nat × Nat × Nat) => s.clusterIdle x.1) s).galRemove c).progSweep
        | none => s
      let s := { s with gal := { s.gal with held := s.gal.held.filter (· != o.id), heads := s.gal.heads.filter (· != o.id) } }
      (.cancelled, (s.galEndOp o.id stCancelled w).galKick)
  | (r, _) => (r, s)

/-- R173's limit passes for a command that waits for the header of a group (log entry 127). -/
def State.headTimeout (s : State) (op : Nat) : State :=
  match s.op op with
  | some o => if s.gal.heads.contains op ∧ s.headWaits o then
      let s := s.ripe (.op op) s.fetchWaitNs
      ({ s with gal := { s.gal with heads := s.gal.heads.filter (· != op) } }.galRefuse o stStreamFault 0 0).galKick else s
  | none => s

/-- GAL_CANCEL (R96). -/
def execGalCancel (m : Master) (slice : BitVec 16) (s : State) : Res :=
  .next (s.openWrite m R.GAL_CANCEL_CTRL (.galCancel m slice) fun s =>
    let (r, s) := (s.setF F.GAL_CANCEL_CTRL_SLICE slice.toNat).galCancelTag slice.toNat (s.reg R.GAL_CANCEL_TAG)
    s.eventV F.GAL_CANCEL_RESULT_RESULT r.code)

end Sys2Proof.Machine
end

