-- ==== Sys2Proof/Machine/Placement.lean ====
section
/-! DEFINITION. The placement commands of rings, the placement engine's own events, the aperture and evacuation (R162 to R187). -/

namespace Sys2Proof.Machine

/-! ### Running a fetched command -/

/-- OPCODE of a placement descriptor (Table 07-5). -/
def plcOpcode (d : Desc) : Nat := Desc.field d 4 1

/-- HANDLE. -/
def plcHandle (d : Desc) : Nat := Desc.field d 12 4

/-- OFFSET. -/
def plcOffset (d : Desc) : Nat := Desc.field d 16 8

/-- LENGTH. -/
def plcLength (d : Desc) : Nat := Desc.field d 24 8

/-- HOST_ADDR. -/
def plcHost (d : Desc) : Nat := Desc.field d 32 8

/-- CEILING and FLOOR, or PIN twice (R165). -/
def plcHints (d : Desc) : Nat × Nat := if Desc.bits d 79 79 = 1 then (Desc.bits d 74 72, Desc.bits d 74 72) else (Desc.bits d 70 68, Desc.bits d 66 64)

/-- COPIES. -/
def plcCopies (d : Desc) : Nat := Desc.bits d 57 56

/-- Fields of a descriptor that each opcode uses, as bit ranges (Tables 07-5 and 07-6); TAG, OPCODE, FENCE and INTR belong to all. -/
def plcFields (d : Desc) : List (Nat × Nat) :=
  let rep := if plcCopies d = 2 then [(82, 80)] else []
  let hints := [(70, 68), (66, 64), (79, 79), (74, 72)]
  let settle := [(42, 42), (399, 384)]
  [(31, 0), (39, 32), (41, 40)] ++
    match plcOpcode d with
    | 0x01 => [(51, 48), (57, 56), (86, 84), (255, 192)] ++ hints ++ rep
    | 0x03 => [(127, 96)] ++ hints ++ settle
    | 0x04 => [(89, 89), (127, 96), (191, 128), (255, 192), (319, 256)] ++ (if Desc.bits d 89 89 = 1 then [(88, 88)] else [])
    | 0x05 => [(127, 96), (191, 128), (255, 192), (319, 256)]
    | 0x06 => [(127, 96), (191, 128), (255, 192), (337, 336), (355, 341)]
    | 0x07 => [(127, 96), (255, 192), (355, 341)]
    | 0x08 => [(319, 256)]
    | 0x09 => [(335, 320)]
    | 0x0A => [(57, 56), (127, 96)] ++ rep ++ settle
    | 0x0B => [(88, 88), (127, 96)]
    | _ => [(127, 96)]

/-- REPLICA_TIER names a tier that may hold copy 1, where COPIES is 2. -/
def plcRepOk (d : Desc) : Bool := plcCopies d != 2 || (1 ≤ Desc.bits d 82 80 && Desc.bits d 82 80 ≤ 4)

/-- The descriptor obeys Tables 07-5 and 07-6; hint values are judged by R165 (R182; log entry 27). -/
def plcDescOk (d : Desc) : Bool :=
  Desc.only d (plcFields d) &&
    match plcOpcode d with
    | 0x01 => (plcCopies d == 1 || plcCopies d == 2) && plcRepOk d && Desc.bits d 86 84 ≤ 4 && 0 < plcLength d && plcLength d ≤ 2 ^ 42
    | 0x04 | 0x05 => 0 < plcLength d && plcLength d ≤ 2 ^ 30
    | 0x06 => plcOffset d % pageLen == 0 && plcLength d % pageLen == 0 && 0 < plcLength d
    | 0x07 => plcLength d % pageLen == 0 && 0 < plcLength d
    | 0x0A => (plcCopies d == 1 || plcCopies d == 2) && plcRepOk d
    | 0x02 | 0x03 | 0x08 | 0x09 | 0x0B | 0x0C => true
    | _ => false

/-- The command completes; ENERGY_DEFERRED in place of OK when the Coffer deferred work for it (R183). -/
def State.plcEnd (s : State) (o : Op) (st value engine : Nat) : State :=
  let late := ((s.op o.id).map (·.deferred)).getD false
  let ok := [0x03, 0x04, 0x05, 0x0A].contains (plcOpcode o.desc)
  let s := { s with plc := { s.plc with waits := s.plc.waits.filter (·.1 != o.id) } }
  let s := if st = stPoolFault then s.event F.PLC_STATUS_POOL_FAULT else s
  s.finish o.id (if st = stOk ∧ late ∧ ok then stEnergyDeferred else st) (value + 2 ^ 32 * (engine % 2 ^ 32)) (engine / 2 ^ 32)

/-- The command goes on waiting. -/
def State.plcHold (s : State) (o : Op) (w : PlcWait) : State :=
  { s.begin (.op o.id) with plc := { s.plc with waits := s.plc.waits.filter (·.1 != o.id) ++ [(o.id, w)] } }

/-- ALLOC (R162, R164, R165). -/
def State.plcAlloc (s : State) (o : Op) : State :=
  let d := o.desc
  let (c, f) := plcHints d
  let pages := ceilDiv (plcLength d) pageLen
  if f < c ∨ 4 < f then s.plcEnd o stHintConflict 0 0
  else
    let i := o.owner
    let st := s.reserveStatus i f (if plcCopies d = 2 ∧ Desc.bits d 82 80 = f then 2 * pages else pages)
    let st2 := if plcCopies d = 2 then s.reserveStatus i (Desc.bits d 82 80) pages else stOk
    if st ≠ stOk then s.plcEnd o st 0 0
    else if st2 ≠ stOk then s.plcEnd o st2 0 0
    else
      let (w, t) := s.drawWord
      match pickFree 1 1048575 (s.plc.objs.length + 1) w (fun k => (s.obj k).isNone) with
      | none => s.plcEnd o stNoSpace 0 0
      | some k =>
        let tag := (lookD s.plc.tags k 255 + 1) % 256
        let x : TObj := ⟨tag, i, pages, Desc.bits d 51 48, c, f, Desc.bits d 79 79 == 1, Desc.bits d 86 84, plcCopies d, if plcCopies d = 2 then Desc.bits d 82 80 else 0,
          false, []⟩
        let t := { t with plc := { t.plc with objs := put t.plc.objs k x, tags := put t.plc.tags k tag } }
        t.plcEnd o stOk (k * 256 + tag) 0

/-- FREE (Table 07-6). -/
def State.plcFree (s : State) (o : Op) : State :=
  match s.tierObj o.owner (plcHandle o.desc) with
  | none => s.plcEnd o stKeyInvalid 0 0
  | some (k, _) => if s.flights.any (fun e => e.2.bindsObj k) then s.plcEnd o stObjectBusy 0 0 else (s.freeObj k).plcEnd o stOk 0 0

/-- Every page satisfies the object's hints and copies (R183). -/
def State.settled (s : State) (d : Desc) : Bool :=
  match s.obj (plcHandle d / 256) with
  | none => true
  | some o =>
    o.page.all fun g =>
      match g.2.loc with
      | none => true
      | some (t, _) =>
        if plcOpcode d = 0x03 then o.ceil ≤ t && t ≤ s.floorOf (plcHandle d / 256) o else o.copies == 1 || (g.2.rep.isSome && g.2.c1 == .intact)

/-- HINT and SET_COPIES end at once, or wait for WAIT_SETTLED. -/
def State.plcSettle (s : State) (o : Op) : State :=
  let s := s.commitOp o.id
  if Desc.bits o.desc 42 42 = 1 ∧ !s.settled o.desc then s.plcHold o .settle else s.plcEnd o stOk 0 0

/-- HINT (R164, R165, R174). -/
def State.plcHint (s : State) (o : Op) : State :=
  let (c, f) := plcHints o.desc
  match s.tierObj o.owner (plcHandle o.desc) with
  | none => s.plcEnd o stKeyInvalid 0 0
  | some (k, x) =>
    if x.discord then s.plcEnd o stDiscord 0 0
    else if f < c ∨ 4 < f ∨ s.mapped k ∧ 3 < f then s.plcEnd o stHintConflict 0 0
    else
      let t := s.setObj k { x with ceil := c, floor := f, pin := Desc.bits o.desc 79 79 == 1 }
      let st := if f = s.floorOf k x then stOk else t.fitStatus o.owner f
      if st ≠ stOk then s.plcEnd o st 0 0 else t.plcSettle o

/-- A command waits for the demand fetches of some pages of an object; one of them that the Coffer has refused marks it (R173, R183). -/
def State.plcFetches (s : State) (o : Op) (k : Nat) (write : Bool) (ps : List Nat) : State :=
  let s := (s.plcHold o .fetch).fetchPages k write ps
  if ps.any fun p => s.plc.fetches.contains (k, p, true) then s.deferOp o.id else s

/-- A GET or PUT whose range is not at hand waits for demand fetches (R173); `none` where it may go on. -/
def State.plcReach (s : State) (o : Op) (k : Nat) (x : TObj) (write : Bool) (ps : List Nat) : Option State :=
  match s.rangeReach k x write ps with
  | .ok => none
  | .fail st => some (s.plcEnd o st 0 0)
  | .wait => some (s.plcFetches o k write ps)

/-- GET (Table 07-6, R178 for COPY_SEL). -/
def State.plcGet (s : State) (o : Op) : State :=
  let d := o.desc
  let n := plcLength d
  let sel := Desc.bits d 89 89 = 1
  let st := s.tierCheck o.owner (plcHandle d) (plcOffset d) n
  if st ≠ stOk ∧ ¬ (st = stDiscord ∧ sel) then s.plcEnd o st 0 0
  else
    match s.tierObj o.owner (plcHandle d) with
    | none => s.plcEnd o stKeyInvalid 0 0
    | some (k, x) =>
      match s.plcReach o k x false (pagesIn (plcOffset d) n) with
      | some s => s
      | none =>
        let bs := s.objBytes x k (if sel ∧ Desc.bits d 88 88 = 1 ∧ x.copies = 2 then 1 else 0) (plcOffset d) n
        let s := (s.commitOp o.id).heat k (plcOffset d) n
        ({ s with mem := s.mem.write ((s.slice o.owner).space.at (plcHost d)) bs }).plcEnd o stOk n 0

/-- PUT (Table 07-6). -/
def State.plcPut (s : State) (o : Op) : State :=
  let d := o.desc
  let n := plcLength d
  let st := s.tierCheck o.owner (plcHandle d) (plcOffset d) n
  if st ≠ stOk then s.plcEnd o st 0 0
  else
    match s.tierObj o.owner (plcHandle d) with
    | none => s.plcEnd o stKeyInvalid 0 0
    | some (k, x) =>
      match s.plcReach o k x true (pagesIn (plcOffset d) n) with
      | some s => s
      | none =>
        let bs := s.mem.read ((s.slice o.owner).space.at (plcHost d)) n
        (((s.commitOp o.id).tierWrite k (plcOffset d) bs).heat k (plcOffset d) n).plcEnd o stOk n 0

/-- First aperture page and pages of a MAP or UNMAP. -/
def apRange (d : Desc) : Nat × Nat := (Desc.bits d 355 341, plcLength d / pageLen)

/-- A MAP ends without its range (log entry 27). -/
def State.mapFail (s : State) (o : Op) (st : Nat) : State :=
  let (ap, n) := apRange o.desc
  let port := (s.slice o.owner).port
  ({ s with plc := { s.plc with maps := s.plc.maps.filter fun m => !(m.port == port && ap ≤ m.ap && m.ap < ap + n) } }).plcEnd o st 0 0

/-- A dispatched MAP completes when no page of its range lies in T4; those that do are fetched (R173, R174). -/
def State.mapGo (s : State) (o : Op) : State :=
  match s.tierObj o.owner (plcHandle o.desc) with
  | none => s.mapFail o stKeyInvalid
  | some (k, x) =>
    let low := ((List.range (apRange o.desc).2).map (plcOffset o.desc / pageLen + ·)).filter fun p => (x.at p).loc.any fun u => u.1 == 4
    match s.pagesReach x false low with
    | .ok => s.plcEnd o stOk 0 0
    | .fail st => s.mapFail o st
    | .wait => s.plcFetches o k false low

/-- MAP (R174): the range is mapped at dispatch, with which the floor in force becomes T3 or higher; it completes when its pages of T4 have been
fetched. -/
def State.plcMap (s : State) (o : Op) : State :=
  let d := o.desc
  let (ap, n) := apRange d
  let port := (s.slice o.owner).port
  let st := s.tierCheck o.owner (plcHandle d) (plcOffset d) (plcLength d)
  if st ≠ stOk then s.plcEnd o st 0 0
  else if 32768 < ap + n then s.plcEnd o stBounds 0 0
  else if s.plc.maps.any (fun m => m.port == port && ap ≤ m.ap && m.ap < ap + n) then s.plcEnd o stObjectBusy 0 0
  else
    match s.tierObj o.owner (plcHandle d) with
    | none => s.plcEnd o stKeyInvalid 0 0
    | some (k, x) =>
      let new := (List.range n).map fun j => (⟨port, ap + j, k, plcOffset d / pageLen + j, Desc.bits d 336 336 == 1, Desc.bits d 337 337 == 1⟩ : ApMap)
      let t : State := { s with plc := { s.plc with maps := s.plc.maps ++ new } }
      let st := if s.floorOf k x = 4 then t.fitStatus o.owner 3 else stOk
      if x.ceil = 4 then s.plcEnd o stHintConflict 0 0
      else if st ≠ stOk then s.plcEnd o st 0 0
      else (t.commitOp o.id).mapGo o

/-- UNMAP of the object's mappings in the range (Table 07-6; log entry 27); of a quarantined object it is an access like others (R178). -/
def State.plcUnmap (s : State) (o : Op) : State :=
  let (ap, n) := apRange o.desc
  match s.tierObj o.owner (plcHandle o.desc) with
  | none => s.plcEnd o stKeyInvalid 0 0
  | some (k, x) =>
    let port := (s.slice o.owner).port
    if x.discord then s.plcEnd o stDiscord 0 0
    else ({ s with plc := { s.plc with maps := s.plc.maps.filter fun m => !(m.port == port && m.obj == k && ap ≤ m.ap && m.ap < ap + n) } }).plcEnd o
      stOk 0 0

/-- A pool block obeys Table 07-7. -/
def poolBlockOk (b : List Byte) : Bool :=
  let t := fieldAt b 0 1
  2 ≤ t && t ≤ 4 && (if t = 4 then fieldAt b 1 1 < 16 else fieldAt b 1 1 == 0) && fieldAt b 2 2 == 0 && (t != 2 || fieldAt b 4 4 == 0) &&
    0 < fieldAt b 16 8 && fieldAt b 16 8 % pageLen == 0 && (t == 3 || fieldAt b 24 4 == 0) && fieldAt b 28 36 == 0

/-- POOL_ADD (R161, Table 07-7): a T3 pool needs a sprayed-mode QP of the slice, a T4 pool a backend endpoint of the environment. -/
def State.plcPoolAdd (s : State) (o : Op) : State :=
  let i := o.owner
  let b := s.mem.read ((s.slice i).space.at (plcHost o.desc)) 64
  let t := fieldAt b 0 1
  let p : Pool := ⟨t, fieldAt b 1 1, fieldAt b 4 4, fieldAt b 8 8, fieldAt b 16 8 / pageLen, fieldAt b 24 4⟩
  let qpOk : Bool := match look s.rte.qps p.id with
    | some q => q.slice == i && qpSprayed q
    | none => false
  if !poolBlockOk b then s.plcEnd o stPlcInvalid 0 0
  else if t = 3 ∧ !qpOk ∨ t = 4 ∧ (!s.backendStated p.backend || s.getF (F.NVS_BE_STATE p.backend) != 2) then s.plcEnd o stPoolFault 0 0
  else
    match (List.range 16).find? (fun j => (look s.plc.pools (16 * i + j)).isNone) with
    | none => s.plcEnd o stNoSpace 0 0
    | some j => ({ s with plc := { s.plc with pools := put s.plc.pools (16 * i + j) p } }).plcEnd o stOk j 0

/-- Pages of an object that lie in a pool. -/
def pagesInPool (key : Nat) (o : TObj) : List Nat :=
  (o.page.filter fun g => match g.2.loc with | some (t, u) => 2 ≤ t && u / 2 ^ 48 == key | none => false).map (·.1)

/-- Pages of an object whose copy 1 lies in a pool. -/
def repsInPool (key : Nat) (o : TObj) : List Nat :=
  (o.page.filter fun g => match g.2.rep with | some (t, u) => 2 ≤ t && u / 2 ^ 48 == key | none => false).map (·.1)

/-- One page moved out of a pool that has been withdrawn, into a tier that its hints allow; `none` where none has room. -/
def State.movePageOut (s : State) (k p : Nat) : Option State :=
  match s.obj k with
  | none => some s
  | some o =>
    let room (t : Nat) : Bool := s.tierUsed o.slice t < (s.slice o.slice).tierQuota t && 0 < s.tierFree o.slice t
    let ts := tiersFrom o.ceil (s.floorOf k o)
    match ts.find? (fun t => t == s.floorOf k o || room t) with
    | none => none
    | some t =>
      let (f, s) := s.frameFor k p 0 t
      match f with
      | none => none
      | some f =>
        let s : State := { s with mem := s.mem.carry (s.home o k p 0 (o.at p)) (s.home o k p 0 { o.at p with loc := some (t, f) }) pageLen }
        some ((s.updPage k p fun g => { g with loc := some (t, f) }).bump64 R.PLC_CNT_MOVE_LO R.PLC_CNT_MOVE_HI 1)

/-- Copy 1 of a page moved to another pool of its tier; `none` where none has room. -/
def State.moveRepOut (s : State) (k p : Nat) : Option State :=
  match s.obj k with
  | none => some s
  | some o =>
    let (f, s) := s.frameFor k p 1 o.repTier
    match f with
    | none => none
    | some f =>
      let s : State := { s with mem := s.mem.carry (s.home o k p 1 (o.at p)) (s.home o k p 1 { o.at p with rep := some (o.repTier, f) }) pageLen }
      some ((s.updPage k p fun g => { g with rep := some (o.repTier, f) }).bump64 R.PLC_CNT_MOVE_LO R.PLC_CNT_MOVE_HI 1)

/-- POOL_REMOVE: every page moves out first; without room nothing changes (Table 07-6). What the slice has reserved must still fit. -/
def State.plcPoolRemove (s : State) (o : Op) : State :=
  let i := o.owner
  let j := Desc.bits o.desc 335 320
  match (if j < 16 then look s.plc.pools (16 * i + j) else none) with
  | none => s.plcEnd o stKeyInvalid 0 0
  | some p =>
    let ps := (s.plc.objs.filter (fun e => e.2.slice == i)).flatMap fun e => (pagesInPool (16 * i + j) e.2).map fun g => (e.1, g)
    let rs := (s.plc.objs.filter (fun e => e.2.slice == i)).flatMap fun e => (repsInPool (16 * i + j) e.2).map fun g => (e.1, g)
    let held := rs.foldl (fun (s : State) e => s.takeIn e.1 e.2 1) (ps.foldl (fun (s : State) e => s.takeIn e.1 e.2 0) s)
    let without := { held with plc := { s.plc with pools := drop s.plc.pools (16 * i + j) } }
    let moved := ps.foldl (fun (a : Option State) e => a.bind fun s => s.movePageOut e.1 e.2) (some without)
    let moved := rs.foldl (fun (a : Option State) e => a.bind fun s => s.moveRepOut e.1 e.2) moved
    match moved with
    | some s' => if s'.tierUsed i p.tier ≤ s'.tierTotal i p.tier then s'.plcEnd o stOk 0 0 else s.plcEnd o stNoSpace 0 0
    | none => s.plcEnd o stNoSpace 0 0

/-- SET_COPIES (R164, R175): reducing the count frees copy 1 at dispatch. -/
def State.plcSetCopies (s : State) (o : Op) : State :=
  match s.tierObj o.owner (plcHandle o.desc) with
  | none => s.plcEnd o stKeyInvalid 0 0
  | some (k, x) =>
    if x.discord then s.plcEnd o stDiscord 0 0
    else if plcCopies o.desc = 1 then
      let page := x.page.map fun g => (g.1, { g.2 with rep := none, c0 := .intact, c1 := .intact })
      let s := (s.setObj k { x with copies := 1, repTier := 0, page := page }).freed x.slice (x.page.flatMap fun g => g.2.rep.toList)
      let s : State := { s with plc := { s.plc with moves := s.plc.moves.filter fun m => m.obj != k || m.copy != 1 } }
      ({ s with mem := s.mem.clear ((Space.tierCopy (x.handle k)).at 0) (2 ^ 64) }).plcSettle o
    else
      let r := Desc.bits o.desc 82 80
      let st := if x.copies = 2 ∧ x.repTier = r then stOk else s.reserveStatus o.owner r x.pages
      if st ≠ stOk then s.plcEnd o st 0 0
      else
        if x.copies = 2 ∧ x.repTier = r then s.plcSettle o
        else
          let page := x.page.map fun g => (g.1, { g.2 with rep := none, c1 := .intact })
          let s : State := { s with plc := { s.plc with moves := s.plc.moves.filter fun m => m.obj != k || m.copy != 1 } }
          ((s.setObj k { x with copies := 2, repTier := r, page := page }).freed x.slice (x.page.flatMap fun g => g.2.rep.toList)).plcSettle o

/-- RESOLVE (R178): the other copy is rewritten from the named one, and the quarantine ends. -/
def State.plcResolve (s : State) (o : Op) : State :=
  match s.tierObj o.owner (plcHandle o.desc) with
  | none => s.plcEnd o stKeyInvalid 0 0
  | some (k, x) =>
    if !x.discord then s.plcEnd o stOk 0 0
    else
      let c := Desc.bits o.desc 88 88
      let s := (s.commitOp o.id).setObj k { x with discord := false }
      let s := (x.page.map (·.1)).foldl (fun s p =>
        (s.copyPage x k p (1 - c)).updPage k p fun g => { g with gen0 := max g.gen0 g.gen1, gen1 := max g.gen0 g.gen1 }) s
      s.plcEnd o stOk 0 0

/-- Pages of an object in a tier, copy 0. -/
def TObj.inTier (o : TObj) (t : Nat) : Nat := (o.page.filter fun g => (g.2.loc.map (·.1)) == some t).length

/-- QUERY (Table 07-8). -/
def State.plcQuery (s : State) (o : Op) : State :=
  match s.tierObj o.owner (plcHandle o.desc) with
  | none => s.plcEnd o stKeyInvalid 0 0
  | some (_, x) =>
    s.plcEnd o stOk (x.inTier 0) (x.inTier 1 + 2 ^ 32 * (x.inTier 2 + 2 ^ 32 * (min (x.inTier 3) 65535 + 2 ^ 16 * min (x.inTier 4) 65535)))

/-- A pause of H0 holds what a command reads or writes in host memory, and one of H8 holds GET and PUT (R21, Table 02-8). -/
def State.plcPaused (s : State) (o : Op) : Bool :=
  let x := plcOpcode o.desc
  s.hallPaused 0 && (x == 4 || x == 5 || x == 8) || s.hallPaused 8 && (x == 4 || x == 5)

/-- A command runs: its descriptor and master enable first, then its opcode (R182, R294). -/
def State.plcRun (s : State) (o : Op) : State :=
  if s.plcPaused o then s.plcHold o .pause
  else if o.committed && plcOpcode o.desc == 6 then s.mapGo o
  else if !plcDescOk o.desc then s.plcEnd o stPlcInvalid 0 0
  else if !s.canDma (s.ownerFn o.owner) then s.plcEnd o stMasterDisabled 0 0
  else match plcOpcode o.desc with
    | 0x01 => s.plcAlloc o
    | 0x02 => s.plcFree o
    | 0x03 => s.plcHint o
    | 0x04 => s.plcGet o
    | 0x05 => s.plcPut o
    | 0x06 => s.plcMap o
    | 0x07 => s.plcUnmap o
    | 0x08 => s.plcPoolAdd o
    | 0x09 => s.plcPoolRemove o
    | 0x0A => s.plcSetCopies o
    | 0x0B => s.plcResolve o
    | _ => s.plcQuery o

/-- Every earlier command of the ring has completed. -/
def State.ringFront (s : State) (o : Op) : Bool := (s.ops.find? (·.ring == o.ring)).map (·.id) == some o.id

/-- A fetched command is dispatched, or waits for FENCE; a fence ahead of it in the ring holds it as well (R182). -/
def State.plcDispatch (s : State) (o : Op) : State :=
  let behind := s.plc.waits.any fun w => w.2 == .fence && ((s.op w.1).map (·.ring)) == some o.ring
  if (Desc.bits o.desc 41 41 = 1 ∧ !s.ringFront o) ∨ behind then s.plcHold o .fence else s.plcRun o

/-- One waiting command tried again. -/
def State.plcRetry (s : State) (w : Nat × PlcWait) : State :=
  match s.op w.1 with
  | none => s
  | some o =>
    match w.2 with
    | .settle => s
    | .pause => s.plcRun o
    | .fetch => if o.src = 0x05 then s.wqeStart o else s.plcRun o
    | .fence => if s.ringFront o || Desc.bits o.desc 41 41 = 0 then
        let s := { s with plc := { s.plc with waits := s.plc.waits.filter (·.1 != o.id) } }
        s.plcDispatch o else s

/-! ### The aperture -/

/-- Bytes of an aperture access. -/
def BarWait.bytes (b : BarWait) : Nat := match b.data with | none => b.len | some l => l.length

/-- A host read that returns zero bytes; a write is discarded. -/
def State.barZero (s : State) (b : BarWait) : State :=
  match b.data with
  | none => s.send (.readData b.port b.off (List.replicate b.len 0#8))
  | some _ => s

/-- An access that nothing takes: counted (R172, R174). -/
def State.barMiss (s : State) (b : BarWait) : State := (s.bump F.PLC_CNT_APERTURE_MISS_COUNT).barZero b

/-- An access fails on its pool, or has waited too long for it: a read returns zero bytes, and a write is discarded and counted (R172, R173). -/
def State.barFault (s : State) (b : BarWait) : State :=
  let s := s.event F.PLC_STATUS_POOL_FAULT
  if b.data.isSome then s.barMiss b else s.barZero b

/-- A host access of the aperture (R171, R172, R173, R174, R178, R180, R299). -/
def State.bar4 (s : State) (b : BarWait) : State :=
  if s.dev.st ≠ .ready ∧ s.dev.st ≠ .shedding then s.barZero b
  else
    match s.plc.maps.find? (fun m => m.port == b.port && m.ap == b.off / pageLen) with
    | none => s.barMiss b
    | some m =>
      match s.obj m.obj with
      | none => s.barMiss b
      | some o =>
        let a := m.page * pageLen + b.off % pageLen
        if b.off % pageLen + b.bytes > pageLen ∨ (b.data.isNone ∧ !m.read) ∨ (b.data.isSome ∧ !m.write) then s.barMiss b
        else if o.discord then s.barZero b
        else
          match s.rangeReach m.obj o b.data.isSome [m.page] with
          | .ok =>
            (match b.data with
             | none => (s.heat m.obj a b.len).send (.readData b.port b.off (s.tierRead m.obj a b.len))
             | some l => (s.tierWrite m.obj a l).heat m.obj a l.length)
          | .fail st => if st = stPageLost then s.barZero b else s.barFault b
          | .wait => ({ s with plc := { s.plc with bars := s.plc.bars ++ [b] } }.begin (.op b.id)).fetchPages m.obj b.data.isSome [m.page]

/-- Accesses of the aperture that wait are tried again, in their order; those of a port that is down are gone. -/
def State.barKick (s : State) : State :=
  (s.plc.bars.filter fun b => s.linkUp (Fin.ofNat 4 b.port) 0 || s.linkUp (Fin.ofNat 4 b.port) 1).foldl State.bar4
    { s with plc := { s.plc with bars := [] } }

/-- Waiting fetches, commands, as often as there are such commands, and accesses of the aperture tried again (R173, R182). -/
def State.plcKick (s : State) : State :=
  ((List.range s.plc.waits.length).foldl (fun s _ => s.plc.waits.foldl State.plcRetry s) s.plcSweep.refetch).barKick

/-- A placement ring fetches a descriptor of an opcode, or of one that names no command (R182). -/
def State.plcFetch (s : State) (opc ring : Nat) (d : Desc) : State :=
  let x := plcOpcode d
  if x = opc ∨ (12 < x ∧ x ≠ 15) ∨ x = 0 then
    match s.fetch ring 0x07 (Desc.tag d) d with
    | some (o, s) => (s.plcDispatch o).plcKick
    | none => s
  else s

/-- ALLOC (R164). -/
def execAlloc (ring : BitVec 16) (d : Desc) (s : State) : Res := .next (s.plcFetch 0x01 ring.toNat d)

/-- FREE (R182). -/
def execFree (ring : BitVec 16) (d : Desc) (s : State) : Res := .next (s.plcFetch 0x02 ring.toNat d)

/-- HINT (R165). -/
def execHint (ring : BitVec 16) (d : Desc) (s : State) : Res := .next (s.plcFetch 0x03 ring.toNat d)

/-- GET (R182). -/
def execGet (ring : BitVec 16) (d : Desc) (s : State) : Res := .next (s.plcFetch 0x04 ring.toNat d)

/-- PUT (R182). -/
def execPut (ring : BitVec 16) (d : Desc) (s : State) : Res := .next (s.plcFetch 0x05 ring.toNat d)

/-- MAP (R174). -/
def execMap (ring : BitVec 16) (d : Desc) (s : State) : Res := .next (s.plcFetch 0x06 ring.toNat d)

/-- UNMAP (R182). -/
def execUnmap (ring : BitVec 16) (d : Desc) (s : State) : Res := .next (s.plcFetch 0x07 ring.toNat d)

/-- POOL_ADD (R161). -/
def execPoolAdd (ring : BitVec 16) (d : Desc) (s : State) : Res := .next (s.plcFetch 0x08 ring.toNat d)

/-- POOL_REMOVE (R182). -/
def execPoolRemove (ring : BitVec 16) (d : Desc) (s : State) : Res := .next (s.plcFetch 0x09 ring.toNat d)

/-- SET_COPIES (R175). -/
def execSetCopies (ring : BitVec 16) (d : Desc) (s : State) : Res := .next (s.plcFetch 0x0A ring.toNat d)

/-- RESOLVE (R178). -/
def execResolve (ring : BitVec 16) (d : Desc) (s : State) : Res := .next (s.plcFetch 0x0B ring.toNat d)

/-- QUERY (R184). -/
def execQuery (ring : BitVec 16) (d : Desc) (s : State) : Res := .next (s.plcFetch 0x0C ring.toNat d)

/-- The operation waits for WAIT_SETTLED. -/
def State.settling (s : State) (id : Nat) : Option Op := if s.plc.waits.contains (id, .settle) then s.op id else none

/-- SETTLE_DONE (R183). -/
def execSettleDone (op : Nat) (s : State) : Res :=
  .next (match s.settling op with
    | some o => if s.settled o.desc then (s.plcEnd o stOk 0 0).plcKick else s
    | none => s)

/-- SETTLE_MS of a descriptor (Table 07-6): 0 means 1,000. -/
def settleMs (d : Desc) : Nat := if Desc.field d 48 2 = 0 then 1000 else Desc.field d 48 2

/-- SETTLE_TIMEOUT (R183). -/
def execSettleTimeout (op : Nat) (s : State) : Res :=
  .next (match s.settling op with
    | some o => ((s.ripe (.op op) (10 ^ 6 * settleMs o.desc)).plcEnd o stSettleTimeout 0 0).plcKick
    | none => s)

/-- A cancel of a placement command (R96, R183). -/
def State.plcCancelTag (s : State) (i tag : Nat) : CancelResult × State :=
  match s.cancelFind i [0x08] tag with
  | (.cancelled, some o) =>
    match s.waitOf o.id with
    | some c => (.cancelled, (s.waitEnd c stCancelled).plcKick)
    | none => (.cancelled, (s.plcEnd o stCancelled 0 0).plcKick)
  | (r, _) => (r, s)

/-- PLC_CANCEL (R183). -/
def execPlcCancel (m : Master) (slice : BitVec 16) (s : State) : Res :=
  .next (s.openWrite m R.PLC_CANCEL_CTRL (.plcCancel m slice) fun s =>
    let (r, s) := (s.setF F.PLC_CANCEL_CTRL_SLICE slice.toNat).plcCancelTag slice.toNat (s.reg R.PLC_CANCEL_TAG)
    s.eventV F.PLC_CANCEL_RESULT_RESULT r.code)

/-! ### The engine's own events -/

/-- PAGE_MOVE_START (R168). -/
def execPageMoveStart (s : State) : Res := .next s.moveStart

/-- PAGE_COPY_DONE (R169). -/
def execPageCopyDone (handle : Word) (page : Nat) (s : State) : Res := .next ((s.copyDone (handle.toNat / 256) page).plcKick)

/-- MOVE_DRAIN_DONE (R169). -/
def execMoveDrainDone (handle : Word) (page : Nat) (s : State) : Res := .next ((s.drainDone (handle.toNat / 256) page).plcKick)

/-- MOVE_FAIL (R170). -/
def execMoveFail (handle : Word) (page : Nat) (s : State) : Res := .next (s.moveFail (handle.toNat / 256) page)

/-- A COPY or SEND step of a flight still waits for pages of T3 or T4. -/
def State.stepWaits (s : State) (k : Nat) (f : Flight) (j : Nat) : Bool :=
  f.stepSt j == .running false && ((flStep f.image j).kind == 1 || (flStep f.image j).kind == 6) && s.stepReach k f j == .wait

/-- R173's limit passes for a flight: a Gallery step, a COPY or a SEND that waits faults with STREAM_FAULT. -/
def State.flightWaitTimeout (s : State) (op : Nat) : State :=
  match s.flights.find? fun e => e.2.active && e.2.armOp == op with
  | none => s
  | some (k, f) =>
    let gal := s.gal.cmds.any fun c => (c.step.map (·.1)) == some k && (c.chunks.any (s.chunkWaits c) || s.lastWaits c)
    if gal || (List.range (flSteps f.image)).any (s.stepWaits k f) then s.stepFault k stStreamFault else s

/-- FETCH_WAIT_TIMEOUT (R173): a placement command or a work request ends with POOL_FAULT, a Gallery command or flight step with
STREAM_FAULT, and an access of the aperture as on a pool that cannot be reached (R172). -/
def execFetchWaitTimeout (op : Nat) (s : State) : Res :=
  .next (if s.plc.waits.contains (op, .fetch) then
      match s.op op with
      | some o =>
        let s := s.ripe (.op op) s.fetchWaitNs
        if o.src = 0x05 then (s.poolFault stPoolFault).qpError (s.wqeQpn o) (some (op, stPoolFault))
        else (if plcOpcode o.desc = 6 then s.mapFail o stPoolFault else s.plcEnd o stPoolFault 0 0).plcKick
      | none => s
    else match s.plc.bars.find? (·.id == op) with
    | some b =>
      let s := s.ripe (.op op) s.fetchWaitNs
      { s with plc := { s.plc with bars := s.plc.bars.filter (·.id != op) } }.barFault b
    | none => ((s.headTimeout op).galWaitTimeout op).flightWaitTimeout op)

/-- REPLICA_COMPARE (R176, R177): the pages' bytes that a medium has changed come first, and a copy whose read met an uncorrectable error is not intact.
PERIOD_H 0 disables the comparison that no such error asks for. -/
def execReplicaCompare (handle : Word) (page : Nat) (ok0 ok1 : Bool) (rot : List (Bool × BitVec 21 × Byte)) (s : State) : Res :=
  .next (match s.obj (handle.toNat / 256) with
    | none => s
    | some o =>
      if o.tag ≠ handle.toNat % 256 ∨ o.copies ≠ 2 ∨ (o.at page).loc.isNone ∨ (o.at page).rep.isNone ∨ s.hallPaused 8 ∨ ok0 ∧ ok1 ∧ s.getF F.PLC_SCRUB_PERIOD_H = 0 then s
      else
        let m := rot.foldl (fun (m : Mem) e =>
          m.set (s.home o (handle.toNat / 256) page (b2n e.1) (o.at page) + e.2.1.toNat) e.2.2) s.mem
        { s with mem := m }.compareCopies (handle.toNat / 256) page ok0 ok1)

/-- BAR4_ACCESS (R174). It takes a number, by which a FETCH_WAIT_TIMEOUT names it while it waits (log entry 137). -/
def execBar4Access (port : Fin 4) (off : BitVec 36) (data : Option (List Byte)) (len : Nat) (s : State) : Res :=
  .next (if s.linkUp port 0 || s.linkUp port 1 then { s with opNext := s.opNext + 1 }.bar4 ⟨s.opNext, port, off.toNat, data, len⟩ else s)

/-! ### Evacuation (R181) -/

/-- A frame in use on a pseudo-channel. -/
def State.pcHolds (s : State) (c : Nat) : Bool := s.heldFrames.any fun f => f.1 == 1 && pcOf f.2 == c

/-- An evacuation ends with a result (Table 07-13). -/
def State.evacEnd (s : State) (c r : Nat) : State :=
  ((s.eventV F.PLC_EVAC_STATUS_RESULT r).setF F.PLC_EVAC_STATUS_PC c).event F.PLC_STATUS_EVAC_DONE

/-- EVAC (R181). -/
def execEvac (m : Master) (pc : Fin 128) (retrain : Bool) (s : State) : Res :=
  .next (s.guardWrite m R.PLC_EVAC (.evac m pc retrain) fun s =>
    let s := s.setFs [(F.PLC_EVAC_PC, pc.val), (F.PLC_EVAC_RETRAIN, b2n retrain)]
    if s.plc.evac.isSome then s.eventV F.PLC_EVAC_STATUS_RESULT 3
    else
      let s := s.setFs [(F.HBM_PC_STATE pc, 1), (F.PLC_EVAC_STATUS_PC, pc.val),
        (F.PLC_EVAC_STATUS_OUT, 0)]
      { s with plc := { s.plc with evac := some (pc.val, retrain) } })

/-- EVAC_RELEASE (R181): a channel out of service returns to the pool. -/
def execEvacRelease (m : Master) (pc : Fin 128) (s : State) : Res :=
  .next (s.guardWrite m R.PLC_EVAC (.evacRelease m pc) fun s =>
    let s := s.setFs [(F.PLC_EVAC_PC, pc.val), (F.PLC_EVAC_RETRAIN, 0)]
    if s.getF (F.HBM_PC_STATE pc) ≠ 2 then s
    else
      let s := s.setF (F.HBM_PC_STATE pc) 0
      if s.getF F.PLC_EVAC_STATUS_PC = pc.val then s.setF F.PLC_EVAC_STATUS_OUT 0 else s)

/-- A page of some candidate of kind 1 finds no frame, or one of a flight's buffers (R181). -/
def State.evacStuck (s : State) : Bool :=
  ((s.moveQueue.filter (·.kind == 1)).any fun x =>
    match s.obj x.obj with
    | some o =>
      let src := if x.copy = 0 then (o.at x.page).loc else (o.at x.page).rep
      x.tiers.all fun t => !s.takesMove x o src t || ((s.frameFor x.obj x.page x.copy t).1).isNone
    | none => false) ||
    s.bufferLeaving.any fun b => (s.findFrame b.2.1 1 none).1.isNone

/-- EVAC_DONE (R181): the channel is empty, or a page on it finds no frame. -/
def execEvacDone (s : State) : Res :=
  .next (match s.plc.evac with
    | none => s
    | some (c, retrain) =>
      let off := { s with plc := { s.plc with evac := none } }
      if !s.pcHolds c then
        let s := (off.evacEnd c 0).setF F.PLC_EVAC_STATUS_OUT 1
        s.setF (F.HBM_PC_STATE c) (if retrain then 3 else 2)
      else if s.evacStuck then (off.setF (F.HBM_PC_STATE c) 0).evacEnd c 1 else s)

/-- PC_RETRAIN_DONE (R181, R382): a channel that failed stays out of service with RETRAIN_FAIL. -/
def execPcRetrainDone (pc : Fin 128) (ok : Bool) (s : State) : Res :=
  .next (if s.getF (F.HBM_PC_STATE pc) ≠ 3 then s
    else if ok then s.setFs [(F.HBM_PC_STATE pc, 2), (F.HBM_PC_FAILED pc, 0)]
    else
      let s := (s.setFs [(F.HBM_PC_STATE pc, 2), (F.HBM_PC_FAILED pc, 1)]).event F.HBM_STATUS_PC_FAIL
      (s.evacEnd pc 2).report 0x207 blkPlc 0xFFFF 0 pc.val)

end Sys2Proof.Machine
end

