-- ==== Sys2Proof/Machine/Rdma.lean ====
section
/-! DEFINITION. The commands of the RDMA transport engine: packets, timers and fetches (R128 to R146), work requests (R147 to R151), QPs and
keys (R141, R144, R152, R153), cancels (R157) and Clasp WAITs (R154 to R156). -/

namespace Sys2Proof.Machine

/-! ### Packets and timers -/

/-- PACKET_RECEIVE (R128 to R135): a data packet; those that a paused hall keeps in the MAC ingress buffers come later (Table 02-8). -/
def execPacketReceive (p : Pkt) (s : State) : Res :=
  .next (if p.op = .ack ∨ p.op = .nak ∨ p.op = .cnp then s else s.pktArrive p)

/-- SACK_RECEIVED (R137, R138): a SACK, or in RoCEv2 mode an acknowledgement. -/
def execSackReceived (p : Pkt) (s : State) : Res := .next (if p.op = .ack then s.pktArrive p else s)

/-- NAK_RECEIVED (R138, R143, R150). -/
def execNakReceived (p : Pkt) (s : State) : Res := .next (if p.op = .nak then s.pktArrive p else s)

/-- CNP_RECEIVED (R140). -/
def execCnpReceived (p : Pkt) (s : State) : Res := .next (if p.op = .cnp then s.pktArrive p else s)

/-- SACK_INTERVAL_EXPIRY (R137). -/
def execSackIntervalExpiry (qpn : BitVec 24) (s : State) : Res :=
  .next (match s.qp qpn.toNat with
    | some q =>
      if 0 < q.unreported ∧ q.resident ∧ !s.hallPaused 5 then (s.ripe (.sack qpn.toNat) (s.getF F.RTE_SACK_INTERVAL_NS)).sendSack qpn.toNat q.lastPath
      else s
    | none => s)

/-- RECOVERY_US passes with no CNP: the path's rate rises by STEP, up to the line rate (R140). -/
def State.recovery (s : State) (n path : Nat) : State :=
  match s.qp n with
  | none => s
  | some q =>
    let s := (s.ripe (.recovery n path) (10 ^ 3 * s.getF (F.RTE_CC_REC_RECOVERY_US q.cc))).begin (.recovery n path)
    s.updQp n fun q => q.updPath path fun x => { x with rate := min (s.lineRate q.port) (x.rate + s.getF (F.RTE_CC_STEP_STEP_MBPS q.cc)) }

/-- RECOVERY_TIMER_EXPIRY (R140). -/
def execRecoveryTimerExpiry (qpn : BitVec 24) (path : Nat) (s : State) : Res := .next (s.recovery qpn.toNat path)

/-- A path after a retransmission timeout on it (R131, R140). -/
def Path.timedOut (x : Path) (rate psn : Nat) : Path :=
  { x with rate := rate, timeouts := x.timeouts + 1, suspect := x.suspect || 2 ≤ x.timeouts + 1, probe := false,
           probePsn := if x.probePsn = some psn then none else x.probePsn }

/-- A PSN's timer expires (R138): after RETRY_COUNT + 1 timeouts with no change of the edge the QP enters ERROR; before that the PSN is sent
again, or in RoCEv2 mode everything from the oldest unacknowledged PSN on. The timers stop while the context is absent (R145) and at
46 V (R158). -/
def State.rtoExpire (s : State) (n psn : Nat) : State :=
  match s.qp n with
  | none => s
  | some q =>
    match q.unacked.find? (fun p => p.psn == psn && !p.placed) with
    | none => s
    | some p =>
      if !q.resident ∨ s.shedAt 4 ∨ s.hallPaused 5 ∨ q.st < 2 ∨ q.st = 5 then s
      else
        let s := s.upTo (p.sentAt + min (q.rto * 2 ^ p.timeouts) (s.getF F.RTE_RTO_MAX_US * 1000))
        let q := q.updPath p.path fun x => x.timedOut (s.getF (F.RTE_CC_LIMITS_MIN_RATE q.cc) * 100) psn
        let q := { q with unacked := q.unacked.map fun x => if x.psn = psn then { x with timeouts := x.timeouts + 1, tries := x.tries + 1 } else x }
        let s := (s.setQp n q).begin (.probe n p.path)
        if q.retries + 1 ≤ p.tries + 1 then s.qpError n (if p.work = 0 then none else some (p.work, stRetryExceeded))
        else if qpSprayed q then s.resend n psn
        else s.goBack n q.edge

/-- RTO_EXPIRY (R138). -/
def execRtoExpiry (qpn psn : BitVec 24) (s : State) : Res := .next (s.rtoExpire qpn.toNat psn.toNat)

/-- SUSPECT_PROBE_TIMER: 1 ms after the timeout on a path that is SUSPECT (R131). -/
def execSuspectProbeTimer (qpn : BitVec 24) (path : Nat) (s : State) : Res :=
  .next (((s.ripe (.probe qpn.toNat path) (10 ^ 6)).updQp qpn.toNat fun q => q.updPath path fun x => { x with probe := x.suspect && x.probePsn.isNone }).pump qpn.toNat)

/-- RNR_TIMER_EXPIRY (R138): the peer's RNR timer has passed, and the request is sent again. -/
def execRnrTimerExpiry (qpn : BitVec 24) (s : State) : Res :=
  .next (match s.qp qpn.toNat with
    | some q =>
      if q.waitRnr then ((((s.ripe (.rnr qpn.toNat) 0).setQp qpn.toNat { q with waitRnr := false })).goBack qpn.toNat q.edge).pump qpn.toNat else s
    | none => s)

/-- V goes on, and behind it fenced packets (R133, R135). -/
def State.edgeGo (s : State) (n : Nat) : State :=
  match s.qp n with
  | some q => (State.advance n (q.arrived.length + 1) s).fenceKick n
  | none => s

/-- PUSH_READ_DONE (R134): once the last zero-length read has completed, V goes on, and fenced packets are placed; where the QP's context is absent, when
it has been fetched (R145). -/
def execPushReadDone (qpn : BitVec 24) (link : Nat) (s : State) : Res :=
  .next (match s.qp qpn.toNat with
    | none => s
    | some q =>
      let s := s.setQp qpn.toNat { q with pushing := q.pushing.filter (· != link) }
      if q.resident then s.edgeGo qpn.toNat else s.fetchCtx qpn.toNat)

/-- CONTEXT_FETCH_DONE (R145): the fetch ends where a context can be evicted for it. -/
def execContextFetchDone (qpn : BitVec 24) (s : State) : Res :=
  let n := qpn.toNat
  .next (match s.qp n with
    | none => s
    | some q =>
      if !q.fetching then s
      else match s.makeRoom with
        | none => s
        | some s =>
          let s := ((s.updQp n fun q => { q with fetching := false, resident := true }).touchQp n).cacheShow
          ((((s.edgeGo n).missTake fun e => e.1.qpn == n && e.2 == .context).fenceKick n).workSettle n).pump n)

/-- Keys that the key cache holds (R141). -/
def keySlots : Nat := 65536

/-- KEY_FETCH_DONE (R146): a full key cache gives up an entry that the spec does not name (log entry 36). -/
def execKeyFetchDone (index : BitVec 24) (s : State) : Res :=
  let i := index.toNat
  .next (match look s.rte.keys i with
    | none => s
    | some k =>
      if !k.fetching then s
      else
        let held := (s.rte.keys.filter (·.2.cached)).map (·.1)
        let (w, s) := if keySlots ≤ held.length then s.drawWord else (0, s)
        let out := if keySlots ≤ held.length then held[w % held.length]? else none
        let s := { s with rte := { s.rte with keys := s.rte.keys.map fun (e : Nat × Key) =>
          (e.1, if e.1 = i then { e.2 with fetching := false, cached := true } else if some e.1 = out then { e.2 with cached := false } else e.2) } }
        s.cacheShow.keyGo)

/-- A QP's context cannot be fetched (R146): the waiting packets are dropped; the QP's first incomplete send work request, where it has one, has the
status CTX_FAULT (log entry 37). -/
def State.contextFault (s : State) (n : Nat) : State :=
  match s.qp n with
  | none => s
  | some q =>
    if !q.fetching then s
    else
      let k := (s.rte.miss.filter fun e => e.1.qpn == n).length
      let s := (s.missDrop fun e => e.1.qpn == n).bumpBy F.RTE_CNT_MISS_DROP_COUNT k
      let s := if 0 < k then s.event F.RTE_STATUS_MISS_DROP else s
      let s := ((s.setQp n { q with fetching := false }).event F.RTE_STATUS_CTX_FAULT).cacheShow
      s.qpError n ((s.ops.find? fun o => o.ring == q.sq && o.done.isNone).map fun o => (o.id, stCtxFault))

/-- CONTEXT_FETCH_FAULT (R146). -/
def execContextFetchFault (qpn : BitVec 24) (s : State) : Res := .next (s.contextFault qpn.toNat)

/-- RTE_HOLD.LIMIT_US in ns (Table 06-18). -/
def State.holdNs (s : State) : Nat := 10 ^ 3 * s.getF F.RTE_HOLD_LIMIT_US

/-- MISS_HOLD_TIMEOUT (R135, R146): the packet that has waited longest in a port's miss buffer is dropped. -/
def execMissHoldTimeout (port : Fin 16) (s : State) : Res :=
  .next (match s.rte.miss.find? (·.1.port == port.val) with
    | none => s
    | some e =>
      let i := s.rte.miss.findIdx (·.1.port == port.val)
      let s := s.ripe (.miss e.1.qpn e.1.psn) s.holdNs
      let s := { s with rte := { s.rte with miss := s.rte.miss.eraseIdx i } }.missShow port
      if e.2 = .fence then s.bump F.RTE_CNT_HOLD_DROP_COUNT else (s.bump F.RTE_CNT_MISS_DROP_COUNT).event F.RTE_STATUS_MISS_DROP)

/-- CTX_PIN_WAIT_TIMEOUT (R145). -/
def execCtxPinWaitTimeout (qpn : BitVec 24) (s : State) : Res :=
  .next (match s.qp qpn.toNat with
    | none => s
    | some q =>
      if !q.fetching ∨ s.makeRoom.isSome then s
      else match oldest (s.rte.qps.filter fun e => e.2.resident && e.2.unreported == 0 && !s.fenceWaits e.1) with
        | none => s
        | some n => ((s.ripe (.context qpn.toNat) s.holdNs).updQp n fun q => { q with resident := false }).cacheShow)

/-! ### Send and receive work requests -/

/-- Fields that a data work request uses (Tables 06-7 and 06-8). -/
def wqeFields (opc : Nat) : List (Nat × Nat) :=
  [(31, 0), (39, 32), (43, 43), (95, 64), (127, 96), (191, 128)] ++
    match opc with
    | 1 => [(42, 42), (40, 40)]
    | 2 => [(42, 42), (40, 40), (319, 288)]
    | 3 => [(42, 40), (255, 192), (287, 256)]
    | 4 => [(42, 40), (255, 192), (287, 256), (319, 288)]
    | 5 => [(42, 42), (40, 40), (255, 192), (287, 256)]
    | 6 => [(42, 42), (40, 40), (255, 192), (287, 256), (383, 320)]
    | 7 => [(42, 42), (40, 40), (255, 192), (287, 256), (383, 320), (447, 384)]
    | _ => []

/-- A data work request obeys Table 06-7. -/
def wqeOk (d : Desc) : Bool :=
  let opc := wqeOpcode d
  let len := Desc.field d 8 4
  Desc.only d (wqeFields opc) && (if 6 ≤ opc ∧ opc ≤ 7 then len == 8 else len ≤ 2 ^ 31)

/-- The QP may start its next send work request (R145, R150, R153, R158): it is in RTS or ERROR, its context is resident, no earlier one
of the ring waits for a demand fetch, and in RTS neither READ_FENCE nor MAX_RD_ATOMIC holds it. -/
def State.sendReady (s : State) (q : Qp) (d : Desc) : Bool :=
  let opc := wqeOpcode d
  let out := (q.work.filter fun w => 4 < w.opcode).length
  q.st == 5 || (q.st == 3 && !(s.plc.waits.any fun w => (s.op w.1).any (·.ring == q.sq)) &&
    (!wqeOk d || ((Desc.bits d 40 40 == 0 || out == 0) && (opc ≤ 4 || opc == 8 || out < q.maxRd))))

/-- A send ring's next work request of an opcode, or of one that the ring does not have (R147, R150, R153). -/
def State.sendFetch (s : State) (opc ring : Nat) (d : Desc) : State :=
  let x := wqeOpcode d
  if !(x = opc ∨ x = 0 ∨ (7 < x ∧ x ≠ 15)) ∨ s.hallPaused 5 then s
  else
    match s.sqOf ring with
    | none => s
    | some (n, q) =>
      if !q.resident then s.fetchCtx n
      else if !s.sendReady q d then s
      else match s.fetch ring 1 (Desc.field d 0 4) d with
        | none => s
        | some (o, s) =>
          if q.st = 5 then s.rteFail o.id stFlushed
          else if x ≠ opc ∨ !wqeOk d then s.rteFail o.id stWqeInvalid
          else s.wqeStart o

/-- SEND (R147, R150). -/
def execSend (ring : BitVec 16) (d : Desc) (s : State) : Res := .next (s.sendFetch 1 ring.toNat d)

/-- SEND_IMM (R147, R150). -/
def execSendImm (ring : BitVec 16) (d : Desc) (s : State) : Res := .next (s.sendFetch 2 ring.toNat d)

/-- WRITE (R147). -/
def execWrite (ring : BitVec 16) (d : Desc) (s : State) : Res := .next (s.sendFetch 3 ring.toNat d)

/-- WRITE_IMM (R147). -/
def execWriteImm (ring : BitVec 16) (d : Desc) (s : State) : Res := .next (s.sendFetch 4 ring.toNat d)

/-- READ (R147). -/
def execRead (ring : BitVec 16) (d : Desc) (s : State) : Res := .next (s.sendFetch 5 ring.toNat d)

/-- FETCH_ADD (R151). -/
def execFetchAdd (ring : BitVec 16) (d : Desc) (s : State) : Res := .next (s.sendFetch 6 ring.toNat d)

/-- CMP_SWAP (R151). -/
def execCmpSwap (ring : BitVec 16) (d : Desc) (s : State) : Res := .next (s.sendFetch 7 ring.toNat d)

/-- A receive ring's next work request is posted (R147, R150, R153). -/
def State.recvFetch (s : State) (ring : Nat) (d : Desc) : State :=
  if s.hallPaused 5 then s
  else match s.rqOf ring with
    | none => s
    | some (n, q) =>
      if !q.resident then s.fetchCtx n
      else match s.fetch ring 2 (Desc.field d 0 4) d with
        | none => s
        | some (o, s) =>
          if q.st = 5 then s.rteFail o.id stFlushed
          else if wqeOpcode d ≠ 8 ∨ !wqeOk d then s.rteFail o.id stWqeInvalid
          else s.updQp n fun q => { q with recvs := q.recvs ++ [o.id] }

/-- RECV (R150). -/
def execRecv (ring : BitVec 16) (d : Desc) (s : State) : Res := .next (s.recvFetch ring.toNat d)

/-! ### Control rings -/

/-- Fields that a control work request uses (Tables 06-7 and 06-8; for DEREG_MR, log entry 34). -/
def ctlFields (d : Desc) : List (Nat × Nat) :=
  [(31, 0), (39, 32), (43, 43)] ++
    match wqeOpcode d with
    | 0x10 => [(383, 320)]
    | 0x11 => [(383, 320), (471, 448)]
    | 0x12 => [(383, 320), (471, 448)]
    | 0x13 => [(471, 448)]
    | 0x14 => [(255, 192), (383, 320), (420, 416), (425, 424)] ++
        (if Desc.bits d 425 424 = 0 then [(415, 384)] else if Desc.bits d 425 424 = 2 then [(434, 432)] else [])
    | _ => [(127, 96)]

/-- A control ring's next command of an opcode, or of one that the ring does not have (R147). -/
def State.ctlFetch (s : State) (opc ring : Nat) (d : Desc) (act : Op → State → State) : State :=
  let x := wqeOpcode d
  if !(x = opc ∨ (x ≠ 15 ∧ (x < 0x10 ∨ 0x15 < x))) ∨ s.hallPaused 5 then s
  else match s.fetch ring 4 (Desc.field d 0 4) d with
    | none => s
    | some (o, s) => if x ≠ opc ∨ !Desc.only d (ctlFields d) then s.rteEnd o.id stWqeInvalid (rteWords 0 0 x 0 0 0) else act o (s.commitOp o.id)

/-- A control command ends with a QP and its state (Table 06-9). -/
def State.ctlEnd (s : State) (o : Op) (st qpn qst : Nat) : State := s.rteEnd o.id st (rteWords 0 0 (wqeOpcode o.desc) qpn 0 qst)

/-- Attribute block at OPERAND_A (R152). -/
def State.attrBlock (s : State) (o : Op) : List Byte := s.mem.read ((s.slice o.owner).space.at (Desc.field o.desc 40 8)) 128

/-- A new QP in RESET (R152). -/
def Qp.fresh (slice mode : Nat) : Qp :=
  { slice := slice, st := 0, attr := leBytes 128 mode, resident := true, fetching := false, lastUse := 0, nextPsn := 0, msgSeq := 0, sendSeq := 0,
    edge := 0, work := [], queue := [], unacked := [], order := 0, paths := [], srtt := 0, rto := 0, rnrTries := 0, waitRnr := false, credit := 0,
    v := 0, arrived := [], unreported := 0, lastPath := 0, recvs := [], claims := [], recvSeq := 0, pushLinks := [], pushing := [], nak := none,
    kept := [], roce := (0, 0, 0, 0), sqdOps := [], msn := 0, cnpSent := [] }

/-- CREATE_QP (R152): the QPN is one that is not in use (log entry 33). -/
def State.createQp (o : Op) (s : State) : State :=
  let mode := fieldAt (s.attrBlock o) 0 1
  if 1 < mode then s.ctlEnd o stWqeInvalid 0 0
  else if (s.slice o.owner).qpQuota ≤ s.qpsUsed o.owner then s.ctlEnd o stRteQuota 0 0
  else
    let (w, s) := s.drawWord
    match pickFree 2 (2 ^ 20 - 2) (s.rte.qps.length + 1) w fun n => (s.qp n).isNone with
    | none => s.ctlEnd o stRteQuota 0 0
    | some n =>
      match s.makeRoom with
      | none => ((s.setQp n { Qp.fresh o.owner mode with resident := false }).cacheShow).ctlEnd o stOk n 0
      | some s => (((s.setQp n (Qp.fresh o.owner mode)).touchQp n).cacheShow).ctlEnd o stOk n 0

/-- CREATE_QP (R152). -/
def execCreateQp (ring : BitVec 16) (d : Desc) (s : State) : Res := .next (s.ctlFetch 0x10 ring.toNat d State.createQp)

/-- Bytes of a block put into the attributes: those from `off`, n of them. -/
def attrTake (attr block : List Byte) (off n : Nat) : List Byte := attr.take off ++ cut block off n ++ attr.drop (off + n)

/-- A ring of a slice is bound with a kind. -/
def State.ringIs (s : State) (i q kind : Nat) : Bool :=
  match s.ring q with
  | some r => r.kind == kind && r.owner == i
  | none => false

/-- MODIFY to INIT: what it reads is in order (Table 06-11; log entry 38). -/
def State.initOk (s : State) (i : Nat) (sprayed : Bool) (b : List Byte) : Bool :=
  let paths := fieldAt b 3 1
  fieldAt b 2 1 < 16 && 1 ≤ paths && paths ≤ (if sprayed then 16 else 1) && s.ringIs i (fieldAt b 8 2) 1 && s.ringIs i (fieldAt b 10 2) 2 &&
    s.ringIs i (fieldAt b 12 2) 3 && s.ringIs i (fieldAt b 14 2) 3 && (s.sqOf (fieldAt b 8 2)).isNone && (s.rqOf (fieldAt b 10 2)).isNone

/-- MODIFY to RTR: what it reads is in order (Table 06-11, R131). -/
def rtrOk (sprayed : Bool) (b : List Byte) : Bool :=
  let sport := fieldAt b 18 2
  let v4 := fieldAt b 16 1 == 4
  (v4 || fieldAt b 16 1 == 6) && fieldAt b 17 1 % 4 == 0 && fieldAt b 7 1 == 0 && 1 ≤ fieldAt b 67 1 && fieldAt b 67 1 ≤ 3 &&
    (!sprayed || (0xC000 ≤ sport && sport ≤ 0xFFF0 && sport % 16 == 0)) && 1 ≤ fieldAt b 76 1 && fieldAt b 76 1 ≤ 16 &&
    allZero (cut b 28 4) && (!v4 || (allZero (cut b 36 12) && allZero (cut b 52 12)))

/-- Retry and congestion fields are in order. -/
def retryOk (b : List Byte) : Bool := fieldAt b 71 1 ≤ 7 && fieldAt b 72 1 ≤ 7 && fieldAt b 73 1 ≤ 7

/-- RTO in ns at the start (R138). -/
def State.firstRto (s : State) (attr : List Byte) : Nat :=
  1000 * (if fieldAt attr 80 4 = 0 then s.getF F.RTE_RTO_INIT_US else fieldAt attr 80 4)

/-- Paths of a QP at line rate (R140). -/
def State.freshPaths (s : State) (q : Qp) : List Path := List.replicate (fieldAt q.attr 3 1) ⟨s.lineRate q.port, 0, 0, false, false, none⟩

/-- A QP in RESET: its rings are detached, and its context is cleared, with no fetch of it left (Table 06-12). -/
def State.qpReset (s : State) (n : Nat) (q : Qp) : State :=
  let s := (s.flushRing q.sq).flushRing q.rq
  let s := q.sqdOps.foldl (fun s e => s.sqdEnd e.1 n 0) s
  ((s.missDrop fun e => e.1.qpn == n).setQp n { Qp.fresh q.slice (fieldAt q.attr 0 1) with resident := q.resident, lastUse := q.lastUse }).cacheShow

/-- MODIFY_QP (R152, R153). -/
def State.modifyQp (o : Op) (s : State) : State :=
  let n := Desc.field o.desc 56 4
  match s.qp n with
  | none => s.ctlEnd o stQpState n 0
  | some q =>
    if q.slice ≠ o.owner then s.ctlEnd o stQpState n 0
    else
      let b := s.attrBlock o
      let t := fieldAt b 1 1
      if 5 < t then s.ctlEnd o stWqeInvalid n q.st
      else match q.st, t with
        | _, 0 => (if q.st = 0 then s else s.qpReset n q).ctlEnd o stOk n 0
        | 0, 1 =>
          if !s.initOk o.owner (qpSprayed q) b then s.ctlEnd o stWqeInvalid n 0
          else if !bitAt (s.slice o.owner).netGrant (fieldAt b 2 1) then s.ctlEnd o stRights n 0
          else (s.setQp n { q with st := 1, attr := attrTake (attrTake q.attr b 2 2) b 8 8 }).ctlEnd o stOk n 1
        | 1, 2 =>
          if !rtrOk (qpSprayed q) b then s.ctlEnd o stWqeInvalid n 1
          else
            let a := attrTake (attrTake (attrTake (attrTake (attrTake q.attr b 4 4) b 16 48) b 67 4) b 74 1) b 76 1
            (s.setQp n { q with st := 2, attr := a, v := fieldAt a 68 3, paths := s.freshPaths { q with attr := a }, rto := s.firstRto a }).ctlEnd o stOk n 2
        | 2, 3 =>
          if !retryOk b ∨ fieldAt b 75 1 = 0 ∨ 16 < fieldAt b 75 1 then s.ctlEnd o stWqeInvalid n 2
          else
            let a := attrTake (attrTake (attrTake q.attr b 64 3) b 71 3) b 75 1
            let a := attrTake a b 80 4
            (s.setQp n { q with st := 3, attr := a, nextPsn := fieldAt a 64 3, edge := fieldAt a 64 3, paths := s.freshPaths { q with attr := a }, rto := s.firstRto a }).ctlEnd o stOk n 3
        | 3, 4 => (s.setQp n { q with st := 4, sqdOps := q.sqdOps ++ [(o.id, q.work.map (·.op))] }).sqdSettle n
        | 4, 3 =>
          if !retryOk b then s.ctlEnd o stWqeInvalid n 4
          else
            let a := attrTake (attrTake q.attr b 71 3) b 80 4
            ((s.setQp n { q with st := 3, attr := a, rto := s.firstRto a }).ctlEnd o stOk n 3).pump n
        | 0, 5 => s.ctlEnd o stQpState n 0
        | 5, 5 => s.ctlEnd o stQpState n 5
        | _, 5 => (s.qpError n none).ctlEnd o stOk n 5
        | x, _ => s.ctlEnd o stQpState n x

/-- MODIFY_QP (R153). -/
def execModifyQp (ring : BitVec 16) (d : Desc) (s : State) : Res := .next (s.ctlFetch 0x11 ring.toNat d State.modifyQp)

/-- QUERY_QP (R152): the block is written back with TARGET as the present state (log entry 39). -/
def State.queryQp (o : Op) (s : State) : State :=
  let n := Desc.field o.desc 56 4
  match s.qp n with
  | none => s.ctlEnd o stQpState n 0
  | some q =>
    if q.slice ≠ o.owner then s.ctlEnd o stQpState n 0
    else
      let b := q.attr.set 1 (BitVec.ofNat 8 q.st)
      ({ s with mem := s.mem.write ((s.slice o.owner).space.at (Desc.field o.desc 40 8)) b }).ctlEnd o stOk n q.st

/-- QUERY_QP (R152). -/
def execQueryQp (ring : BitVec 16) (d : Desc) (s : State) : Res := .next (s.ctlFetch 0x12 ring.toNat d State.queryQp)

/-- DESTROY_QP (R153): packets that wait for the QP find none (R128). -/
def State.destroyQp (o : Op) (s : State) : State :=
  let n := Desc.field o.desc 56 4
  match s.qp n with
  | none => s.ctlEnd o stQpState n 0
  | some q =>
    if q.slice ≠ o.owner ∨ !(q.st = 0 ∨ q.st = 5) then s.ctlEnd o stQpState n 0
    else
      let s := { s with rte := { s.rte with qps := drop s.rte.qps n } }.cacheShow
      (s.missTake fun e => e.1.qpn == n).ctlEnd o stOk n 0

/-- DESTROY_QP (R153). -/
def execDestroyQp (ring : BitVec 16) (d : Desc) (s : State) : Res := .next (s.ctlFetch 0x13 ring.toNat d State.destroyQp)

/-- Status of a region (R141; log entry 40): its object, window or address space. -/
def State.regionStatus (s : State) (i space handle pos base len : Nat) : Nat :=
  match space with
  | 0 =>
    (match s.tierObj i handle with
     | none => stKeyInvalid
     | some (_, o) => if o.pages * pageLen < base + len then stBounds else stOk)
  | 1 => if 2 ^ 64 < base + len then stBounds else stOk
  | _ => if !bitAt (s.slice i).accelGrant pos then stRights else if s.accelLen pos < base + len then stBounds else stOk

/-- REG_MR (R141). -/
def State.regMr (o : Op) (s : State) : State :=
  let d := o.desc
  let rights := Desc.bits d 420 416
  let space := Desc.bits d 425 424
  let handle := Desc.bits d 415 384
  let pos := Desc.bits d 434 432
  let base := Desc.field d 24 8
  let len := Desc.field d 40 8
  if space = 3 ∨ ((bitAt rights 3 ∨ bitAt rights 4) ∧ !bitAt rights 1) then s.ctlEnd o stWqeInvalid 0 0
  else
    let st := s.regionStatus o.owner space handle pos base len
    if st ≠ stOk then s.ctlEnd o st 0 0
    else if (s.slice o.owner).keyQuota ≤ s.keysUsed o.owner then s.ctlEnd o stRteQuota 0 0
    else
      let (w, s) := s.drawWord
      match pickFree 1 (2 ^ 24 - 1) (s.rte.keys.length + 1) w fun n => (look s.rte.keys n).isNone with
      | none => s.ctlEnd o stRteQuota 0 0
      | some n =>
        let tag := (lookD s.rte.tags n 0 + 1) % 256
        let k : Key := ⟨tag, 1, o.owner, space, handle, pos, base, len, rights, false, false, none⟩
        ({ s with rte := { s.rte with keys := put s.rte.keys n k, tags := put s.rte.tags n tag } }).rteEnd o.id stOk (rteWords 0 (256 * n + tag) 0x14 0 0 0)

/-- REG_MR (R141). -/
def execRegMr (ring : BitVec 16) (d : Desc) (s : State) : Res := .next (s.ctlFetch 0x14 ring.toNat d State.regMr)

/-- DEREG_MR (R144): the revocation point. -/
def State.deregMr (o : Op) (s : State) : State :=
  let key := Desc.field o.desc 12 4
  match look s.rte.keys (key / 256) with
  | none => s.ctlEnd o stKeyInvalid 0 0
  | some k =>
    if k.tag ≠ key % 256 ∨ k.slice ≠ o.owner then s.ctlEnd o stKeyInvalid 0 0
    else if k.st = 2 then s.ctlEnd o stKeyRevoked 0 0
    else { s with rte := { s.rte with keys := put s.rte.keys (key / 256) { k with st := 2, deregOp := some o.id } } }

/-- DEREG_MR (R144). -/
def execDeregMr (ring : BitVec 16) (d : Desc) (s : State) : Res := .next (s.ctlFetch 0x15 ring.toNat d State.deregMr)

/-- A key entry becomes free (R144): its DEREG_MR completes, and packets that waited for the entry are checked, and find no key. -/
def State.keyFree (s : State) (i : Nat) : State :=
  match look s.rte.keys i with
  | none => s
  | some k =>
    let s := { s with rte := { s.rte with keys := drop s.rte.keys i } }.cacheShow
    let s := match k.deregOp.bind s.op with
      | some o => s.ctlEnd o stOk 0 0
      | none => s
    s.keyGo

/-- A READ_REQ or atomic that passed its check of a key waits for V (R133, R144). -/
def State.keyUsed (s : State) (i : Nat) : Bool :=
  s.rte.qps.any fun e => e.2.arrived.any fun x => (x.pkt.op == .readReq || x.pkt.atomic) && x.pkt.key / 256 == i

/-- REVOKE_DRAIN_DONE (R144): the last use has finished. -/
def execRevokeDrainDone (index : BitVec 24) (s : State) : Res :=
  .next (if (look s.rte.keys index.toNat).any (·.st == 2) ∧ !s.keyUsed index.toNat then s.keyFree index.toNat else s)

/-! ### Cancels -/

/-- A cancel of an RTE command (R157): one that has not passed its commit point leaves its ring and its QP. -/
def State.rteCancelTag (s : State) (i tag : Nat) : CancelResult × State :=
  match s.cancelFind i [0x05] tag with
  | (.cancelled, some o) =>
    match s.waitOf o.id with
    | some c => (.cancelled, s.waitEnd c stCancelled)
    | none =>
      let s := { s with
        plc := { s.plc with waits := s.plc.waits.filter (·.1 != o.id) },
        rte := { s.rte with qps := s.rte.qps.map fun (e : Nat × Qp) =>
          (e.1, { e.2 with work := e.2.work.filter (·.op != o.id), queue := e.2.queue.filter (·.work != o.id), recvs := e.2.recvs.filter (· != o.id) }) } }
      let n := s.wqeQpn o
      (.cancelled, ((s.rteFail o.id stCancelled).sqdSettle n).pump n)
  | (r, _) => (r, s)

/-- RTE_CANCEL (R157). -/
def execRteCancel (m : Master) (slice : BitVec 16) (s : State) : Res :=
  .next (s.openWrite m R.RTE_CANCEL_CTRL (.rteCancel m slice) fun s =>
    let (r, s) := (s.setF F.RTE_CANCEL_CTRL_SLICE slice.toNat).rteCancelTag slice.toNat (s.reg R.RTE_CANCEL_TAG)
    s.eventV F.RTE_CANCEL_RESULT_RESULT r.code)

/-! ### Clasp (R154 to R156) -/

/-- A WAIT obeys Table 06-13. -/
def waitOk (d : Desc) : Bool :=
  Desc.only d [(31, 0), (39, 32), (40, 40), (55, 48), (63, 56), (79, 64), (95, 80), (191, 128)] && Desc.field d 6 1 ≤ 1 && Desc.field d 7 1 ≤ 7

/-- The descriptor-invalid status of a ring kind (R154). -/
def kindInvalid : Nat → Nat
  | 1 => stWqeInvalid
  | 4 => stWqeInvalid
  | 5 => stDescInvalid
  | 6 => stCmdInvalid
  | _ => stPlcInvalid

/-- What a WAIT names is the slice's own (R155). -/
def State.waitRights (s : State) (owner : Nat) (d : Desc) : Bool :=
  if Desc.field d 6 1 = 0 then s.ringIs owner (Desc.field d 8 2) 3 else bitAt (s.slice owner).accelGrant (Desc.field d 7 1)

/-- Rings that may hold a WAIT now: of the five kinds, and for a send ring those of a QP in RTS or ERROR with its context at hand. -/
def State.waitRing (s : State) (ring : Nat) : Bool :=
  match s.ring ring with
  | none => false
  | some r =>
    [4, 5, 6, 7].contains r.kind || (r.kind == 1 &&
      (match s.sqOf ring with
       | some (_, q) => q.resident && (q.st == 5 || (q.st == 3 && !(s.plc.waits.any fun w => (s.op w.1).any (·.ring == ring))))
       | none => false))

/-- A ring's next descriptor is a WAIT (R154 to R156); a send ring's doorbell that finds its QP's context absent has it fetched (R145). -/
def State.claspWait (s : State) (ring : Nat) (d : Desc) : State :=
  if (s.ring ring).any (·.kind == 1) ∧ (s.sqOf ring).any (fun e => !e.2.resident) then (s.sqOf ring).elim s fun e => s.fetchCtx e.1
  else if Desc.field d 4 1 ≠ 0x0F ∨ !s.waitRing ring then s
  else
    match s.ring ring with
    | none => s
    | some r =>
      if (r.kind = 1 ∨ r.kind = 4) ∧ s.hallPaused 5 then s
      else
        match s.fetch ring r.kind (Desc.field d 0 4) d with
        | none => s
        | some (o, s) =>
          if r.kind = 1 ∧ (s.sqOf ring).any (fun e => e.2.st == 5) then s.rteFail o.id stFlushed
          else
            let src := Desc.field d 6 1
            let c : Clasp := ⟨o.id, ring, o.owner, src, if src = 0 then Desc.field d 8 2 else Desc.field d 7 1, Desc.field d 16 8⟩
            let s := { s with clasps := s.clasps ++ [c] }.begin (.op o.id)
            let s := match s.ring ring with
              | some r => s.setRing ring { r with st := 3 }
              | none => s
            if !waitOk d then s.waitEnd c (kindInvalid r.kind)
            else if !s.waitRights o.owner d then s.waitEnd c stRights
            else State.claspSettle s.clasps.length s

/-- CLASP_WAIT (R155). -/
def execClaspWait (ring : BitVec 16) (d : Desc) (s : State) : Res := .next (s.claspWait ring.toNat d)

/-- CLASP_POLL (R155): the counter of the position's profile is read; a failed read ends the WAIT and is reported. -/
def execClaspPoll (op : Nat) (ok : Bool) (s : State) : Res :=
  .next (match s.waitOf op with
    | none => s
    | some c =>
      if c.source = 0 ∨ s.hallPaused 1 then s
      else if !ok ∨ !s.accelUp c.target then (s.waitEnd c stClaspFault).hostFault c.slice stClaspFault (s.accelBase c.target + s.accelCounterOff c.target)
      else if c.threshold ≤ s.accelCounter c.target then s.waitEnd c stOk
      else s)

/-- CLASP_TIMEOUT (R156). -/
def execClaspTimeout (op : Nat) (s : State) : Res :=
  .next (match s.waitOf op with
    | none => s
    | some c =>
      let ms := (s.op op).elim 0 fun o => Desc.field o.desc 10 2
      if s.hallPaused 1 then s else (s.ripe (.op op) (10 ^ 6 * if ms = 0 then 10000 else ms)).waitEnd c stClaspTimeout)

end Sys2Proof.Machine
end

