-- ==== Sys2Proof/Machine/Hooks.lean ====
section
/-! DEFINITION. What rings, freezes, Lockets and table entries mean to the engines: the end of a ring (R308), the operation boundaries of a
freeze (R313), the contents of a capsule (R316) and the table section (R27, Table 02-5). -/

namespace Sys2Proof.Machine

/-! ### The end of a ring (R308) -/

/-- The operations of a ring that are fetched and incomplete end without completion, and its waiting records are dropped (R308). -/
def State.clearRing (s : State) (q : Nat) : State :=
  let s := { s with ops := s.ops.filter (·.ring != q), cqWait := drop s.cqWait q, clasps := s.clasps.filter (·.ring != q) }
  let s := ((s.galSweep).progSweep).plcSweep
  { s with pp := { s.pp with txWait := s.pp.txWait.filter fun e => (s.op e.1).isSome } }

/-- Pending WAITs on the completion counter of a ring end with RIGHTS (R155). -/
def State.dropTarget (q : Nat) : Nat → State → State
  | 0, s => s
  | n + 1, s =>
    match s.clasps.find? fun c => c.source == 0 && c.target == q with
    | some c => State.dropTarget q n (s.waitEnd c stRights)
    | none => s

/-- RING_UNBIND's end: the ring is unbound and back in the pool (R308). -/
def State.endRing (s : State) (q : Nat) : State :=
  let s := s.clearRing q
  State.dropTarget q s.clasps.length { s with rings := drop s.rings q }

/-- A QP or an NVMe queue names the ring (R308). -/
def State.ringNamed (s : State) (q : Nat) : Bool :=
  s.qpNames q || s.nvs.ctrls.any fun e => e.2.cqs.any (fun c => c.2 == q) || e.2.sqs.any fun c => c.2.ring == q

/-! ### Freeze (R313) -/

/-- A sanitize or format of the slice's controller runs (R234). -/
def State.persistentRunning (s : State) (i : Nat) : Bool := (s.ctrl i).rec'.state == 1

/-- No placement command of the slice is incomplete (R185). -/
def State.plcQuiet (s : State) (i : Nat) : Bool := !s.ops.any fun o => o.owner == i && o.src == 0x08

/-- Every engine has reached the slice's operation boundary (R97, R124, R158, R185, R208, R234). -/
def State.atBoundary (s : State) (i : Nat) : Bool :=
  s.galQuiet i && s.flightsHeld i && s.rteQuiet i && s.plcQuiet i && s.framesQuiet i && s.nvQuiet i

/-- A freeze begins: flights are held (R124); the other engines see FREEZING. -/
def State.boundaryStart (s : State) (i : Nat) : State := s.holdFlights i

/-- A freeze ends: flights, sends, frames and storage go on (R124, R313). -/
def State.boundaryResume (s : State) (i : Nat) : State :=
  let s := s.resumeFlights i
  let s := (s.rte.qps.filter fun e => e.2.slice == i).foldl (fun (s : State) e => s.pump e.1) s
  (((s.galKick).txKick).nvDrain i).opKick i

/-! ### Locket (R316) -/

/-- The work requests of QPs in ERROR complete with FLUSHED at THAW (Table 13-7). -/
def State.flushAtThaw (s : State) (i : Nat) : State :=
  (s.rte.qps.filter fun e => e.2.slice == i && e.2.st == 5).foldl (fun (s : State) e => (s.flushQueued e.2.sq).flushQueued e.2.rq) s

/-- An index of the capsule is in use on the device (R316, check 5). -/
def State.restoreConflict (s : State) (c : Capsule) : Bool :=
  c.rings.any (fun e => (s.ring e.1).isSome) || c.qps.any (fun e => (s.qp e.1).isSome) || c.keys.any (fun e => (look s.rte.keys e.1).isSome) ||
    c.objs.any (fun e => (s.obj e.1).isSome) || c.sas.any (fun e => (s.sa e.1).isSome) || c.flights.any fun e => (s.flightOf e.1).isSome

/-- A restored page: heat 0, no second copy, and for a page in T0 or T1 a frame of this device. -/
def State.restorePage (s : State) (k p : Nat) (g : TPage) : State :=
  let g := { g with rep := none, heat := 0, moved := none, c0 := .intact, c1 := .intact }
  match g.loc with
  | some (t, _) =>
    if t ≤ 1 then
      let (f, s) := s.frameFor k p 0 t
      s.updPage k p fun _ => { g with loc := f.map ((t, ·)) }
    else s.updPage k p fun _ => g
  | none => s.updPage k p fun _ => g

/-- Tier objects, pools and data (Table 13-7, TYPE 0x05). -/
def State.restoreTier (s : State) (i : Nat) (c : Capsule) : State :=
  let s := { s with plc := { s.plc with
    pools := c.pools.foldl (fun t (e : Nat × Pool) => put t (16 * i + e.1 % 16) e.2) s.plc.pools,
    objs := c.objs.foldl (fun t (e : Nat × TObj) => put t e.1 { e.2 with slice := i, page := [] }) s.plc.objs,
    tags := c.objs.foldl (fun t (e : Nat × TObj) => put t e.1 e.2.tag) s.plc.tags } }
  let s := c.objs.foldl (fun s (e : Nat × TObj) => e.2.page.foldl (fun s (g : Nat × TPage) => s.restorePage e.1 g.1 g.2) s) s
  { s with mem := c.tier.foldl (fun m (e : Nat × Nat × List Byte) =>
      m.write ((Space.tier (((s.obj e.1).map fun o => o.handle e.1).getD 0)).at e.2.1) e.2.2) s.mem }

/-- An ESP SA of the capsule belongs to the target slice. -/
def Sa.forSlice (a : Sa) (i : Nat) : Sa := { a with entry := patch a.entry 2 (leBytes 2 i), cached := false }

/-- The storage controller (Table 13-7, TYPE 0x06). -/
def State.restoreCtrl (s : State) (i : Nat) (c : Capsule) : State :=
  match c.ctrl with
  | none => s
  | some x => (c.nvsRegs.foldl (fun s (e : Nat × Nat) => s.setReg (bankKey e.1 i) e.2) s).setCtrl i { x with rec' := { x.rec' with slice := i } }

/-- Loaded flight images, in free slots (Table 13-7, TYPE 0x08; log entry 13). -/
def State.restoreFlights (s : State) (i : Nat) (c : Capsule) : State :=
  c.flights.foldl (fun s (e : Nat × List Byte) => 
    let (w, t) := s.drawWord
    match pickFree 0 64 64 w (fun k => (s.flight k).isNone) with
    | some k => t.placeFlight k (Flight.fresh i e.1 e.2)
    | none => s) s

/-- CURRENT programs, in free slots (Table 13-7, TYPE 0x09; log entry 13). -/
def State.restoreProgs (s : State) (i : Nat) (c : Capsule) : State :=
  c.progs.foldl (fun s img => 
    let (w, t) := s.drawWord
    match pickFree 0 8 8 w (fun k => (s.progSlot k).st == 0) with
    | some k => t.setProg k ⟨2, i, img⟩
    | none => s) s

/-- The capsule's state copied in: QPs in ERROR, keys, objects, controller, SAs, flights and programs (Table 13-7). -/
def State.restoreInto (s : State) (i : Nat) (c : Capsule) : State :=
  let s := { s with
    rte := { s.rte with
      qps := c.qps.foldl (fun t (e : Nat × Qp) => put t e.1 { e.2 with
        slice := i, st := 5, resident := false, fetching := false, work := [], queue := [], unacked := [], arrived := [], recvs := [], claims := [],
        pushLinks := [], pushing := [], sqdOps := [], unreported := 0 }) s.rte.qps,
      keys := c.keys.foldl (fun t (e : Nat × Key) => put t e.1 { e.2 with slice := i, cached := false, fetching := false, deregOp := none }) s.rte.keys,
      tags := c.keys.foldl (fun t (e : Nat × Key) => put t e.1 e.2.tag) s.rte.tags },
    cip := { s.cip with sas := c.sas.foldl (fun t (e : Nat × Sa) => put t e.1 (e.2.forSlice i)) s.cip.sas },
    plc := { s.plc with stores := if (s.slice i).qpStore = 0 then put s.plc.stores i (ceilDiv ((s.slice i).qpQuota * 256) (2 * 2 ^ 20)) else s.plc.stores } }
  (((s.restoreTier i c).restoreCtrl i c).restoreProgs i c).restoreFlights i c

/-- The device has room for what the capsule needs, and every image passes R108 (R316, check 6): T0 and T1 hold what is used with it,
and program and flight slots are free. -/
def State.restoreRoom (s : State) (i : Nat) (c : Capsule) : Bool :=
  let t := s.restoreInto i c
  [0, 1].all (fun k => (List.range 256).foldl (fun n j => n + t.tierUsed j k) 0 ≤ t.tierTotal i k) &&
    c.progs.length ≤ ((List.range 8).filter fun k => (s.progSlot k).st == 0).length && s.flights.length + c.flights.length ≤ 64 &&
    c.flights.all fun e => (t.imageStatus i e.2 e.1).1 == stOk

/-! ### The table section (R27, Table 02-5) -/

/-- A table-section entry takes effect: a parser graph and accelerator profiles at once, initial trees into the classifier's areas, a
placement curve at the next decay boundary and an energy table at the next epoch boundary while a stream runs. -/
def State.loadTable (s : State) (t : Nat) (bs : List Byte) : State :=
  if t = 3 then
    { s with mem := (Config.initialTrees bs).foldl (fun m e => m.write ((Space.treeArea e.1).at (32 * e.2.1)) e.2.2) s.mem }
  else if t = 5 ∧ s.dev.stream then { s with pwr := { s.pwr with nextTable := some bs } }
  else { s with str := { s.str with tabs := put s.str.tabs (if t = 4 ∧ s.dev.stream then 4 + 256 else t) bs } }

/-- A placement-curve entry is as Table 07-2 states: 384 bytes, no tier above 4 (R167). -/
def curveOk (bs : List Byte) : Bool :=
  bs.length == 384 && ((List.range 256).all fun i => fieldAt bs i 1 ≤ 4) && allZero (cut bs 356 28)

/-- An accelerator profile is as Table 02-6 states. -/
def profileOk (r : List Byte) : Bool :=
  fieldAt r 0 1 ≤ 3 && fieldAt r 1 1 == 0 && fieldAt r 2 2 < 2048 && fieldAt r 4 8 % 4096 == 0 && fieldAt r 12 1 ≤ 1 && fieldAt r 13 1 ≤ 1 &&
    fieldAt r 14 2 == 0 && [128, 256, 512, 1024, 2048, 4096].contains (fieldAt r 32 2) && allZero (cut r 34 30) && allZero (cut r 96 160)

/-- An accelerator-profile entry is as R27 states: four profiles of 256 bytes, one for each PROFILE_ID. -/
def profilesOk (bs : List Byte) : Bool :=
  bs.length == 1024 && (profiles bs).all profileOk && (List.range 4).all fun p => (profiles bs).any fun r => fieldAt r 0 1 == p

/-- A table-section entry is refused with HEADER_BAD: a parser graph (R189), a curve that names a tier above 4 (Table 07-2), and a curve or profile
entry of another layout than its table's (log entry 125). -/
def tableBad (t : Nat) (bs : List Byte) : Bool :=
  (t == 2 && !graphOk bs) || (t == 4 && !curveOk bs) || (t == 6 && !profilesOk bs)

end Sys2Proof.Machine
end

