-- ==== Sys2Proof/Machine/SliceOps.lean ====
section
/-! DEFINITION. What happens to a slice: its entry (Table 13-1), its faults (R305), its reset (Table 13-5), and how an SLC command ends
(R274). -/

namespace Sys2Proof.Machine

/-- Encoding of STATE (Table 11-9). -/
def SliceState.code : SliceState → Nat
  | .free => 0
  | .bound => 1
  | .active => 2
  | .frozen => 3
  | .faulted => 4
  | .resetting => 5

/-- Encoding of FAULT_CAUSE (Table 13-1). -/
def FaultCause.code : FaultCause → Nat
  | .none => 0
  | .lease => 1
  | .unload => 2
  | .portLost => 3
  | .ringAccess => 4
  | .cqFull => 5

/-- Status codes that SLC commands use (Tables 00-9 and 13-8). -/
def stSliceState : Nat := 0xA0
def stBindingInvalid : Nat := 0xA1
def stSliceQuota : Nat := 0xA2
def stCapsuleInvalid : Nat := 0xA3
def stCapsuleAuth : Nat := 0xA4
def stCapsuleVersion : Nat := 0xA5
def stRestoreConflict : Nat := 0xA6
def stRestoreResources : Nat := 0xA7
def stCapsuleSaved : Nat := 0xA8
def stCapsuleSpace : Nat := 0xA9
def stRingInUse : Nat := 0xAA
def stCapsuleTarget : Nat := 0xAB

/-- Rings bound to an owner. -/
def State.ringsOf (s : State) (owner : Nat) : List Nat := (s.rings.filter fun e => e.2.owner == owner).map (·.1)

/-- Bytes 64 to 127 of a slice's entry (Table 13-1). -/
def State.entryRuntime (s : State) (i : Nat) : List Byte :=
  let x := s.slice i
  leBytes 1 (b2n x.saved * 16 + b2n x.freezing * 8 + x.state.code) ++ leBytes 1 x.cause.code ++ leBytes 2 0 ++
    leBytes 4 (s.ringsOf i).length ++ leBytes 4 (s.qpsUsed i) ++ leBytes 4 (s.keysUsed i) ++
    (List.range 5).flatMap (fun t => leBytes 4 (s.tierUsed i t)) ++
    leBytes 4 x.energyLast ++ leBytes 4 x.deferrals ++ leBytes 4 x.dbReject ++ leBytes 8 x.stateNewel ++ leBytes 8 0

/-- The next telemetry block has a record of the slice (R335). -/
def State.telSee (s : State) (i : Nat) : State :=
  if s.stw.tel.live.contains i then s else { s with stw := { s.stw with tel := { s.stw.tel with live := i :: s.stw.tel.live } } }

/-- A slice enters a state (Table 13-2): the Newel time of the change is kept. -/
def State.moveSlice (s : State) (i : Nat) (st : SliceState) : State :=
  let s := s.setSlice i { s.slice i with state := st, stateNewel := s.now }
  if st = .active then s.telSee i else s

/-- An SLC command ends: result, opcode and slice, and both sequences advance (Table 11-9). -/
def State.slcEnd (s : State) (op slice result : Nat) : State :=
  let s := s.eventV F.SLC_CMD_RESULT_RESULT result
  let s := s.setFs [(F.SLC_CMD_RESULT_OP, op), (F.SLC_CMD_RESULT_SLICE, slice), (F.SLC_STATUS_CMD_ACTIVE, 0)]
  { s with slcCmd := none }.event F.SLC_STATUS_CMD_DONE

/-- An SLC command goes on until a later event: CMD_ACTIVE is set. -/
def State.slcBegin (s : State) (c : SlcCmd) : State := { s with slcCmd := some c }.setF F.SLC_STATUS_CMD_ACTIVE 1

/-- The running SLC command, if it is one of the opcode on the slice, ends with a result. -/
def State.slcEndIf (s : State) (op slice result : Nat) : State :=
  match s.slcCmd with
  | some c => if c.op = op ∧ c.slice = slice then s.slcEnd op slice result else s
  | none => s

/-- The fetched operations of an owner, its waiting records and its pending WAITs end without completion (R305, R310). -/
def State.endOps (s : State) (owner : Nat) : State :=
  let rs := s.ringsOf owner
  { s with ops := s.ops.filter (·.owner != owner), cqWait := s.cqWait.filter (fun e => !rs.contains e.1),
           clasps := s.clasps.filter (·.slice != owner) }

/-- A slice enters FAULTED (R305): every operation of it ends without completion, its flights end with reason HOST_LOST and its
controller is reset; a FREEZE of it completes with HOST_LOST (R313). -/
def State.faultSlice (s : State) (i : Nat) (c : FaultCause) : State :=
  let x := s.slice i
  let s := s.setSlice i { x with state := .faulted, cause := c, freezing := false, stateNewel := s.now }
  let s := (s.endOps i).endFlights (fun f => f.slice == i) .hostLost
  let s := ((((s.galEndSlice i).rteFaultSlice i).nvReset i).plcEndSlice i).ppResetSlice i
  let s := (s.event F.SLC_STATUS_FAULTED).report 0x102 5 i 0 c.code
  s.slcEndIf 0x6 i stHostLost

/-- Every ACTIVE or FROZEN slice of a port enters FAULTED (R311). -/
def State.faultPort (s : State) (p : Nat) (c : FaultCause) : State :=
  (List.range 256).foldl (fun s i =>
    let x := s.slice i
    if x.port == p && (x.state == .active || x.state == .frozen) then s.faultSlice i c else s) s

/-- Rings returned to the pool, with what waits on them (R310). -/
def State.unbindRings (s : State) (owner : Nat) : State :=
  let rs := s.ringsOf owner
  let s := s.endOps owner
  { s with rings := s.rings.filter (fun e => !rs.contains e.1) }

/-- The effects of a slice reset (Table 13-5), as far as they are immediate; the key drain and the controller reset may go on. -/
def State.resetEffects (s : State) (i : Nat) (keep : Bool) : State :=
  let s := (s.unbindRings i).endFlights (fun f => f.slice == i) .hostLost
  let s := ((s.unloadSlice i).galResetSlice i).galFreeSlots i
  let s := (((s.rteResetSlice i).nvReset i).plcResetSlice i keep).ppResetSlice i
  let s := s.cipResetSlice i
  let s := { s with msgs := s.msgs.map fun (e : Nat × MsgEntry) => if e.1 / 64 == i then (e.1, ⟨e.2.addr, e.2.data, true, false⟩) else e }
  let s := { s with pwr := { s.pwr with sliceCharge := drop s.pwr.sliceCharge i } }
  s.setSlice i { s.slice i with deferrals := 0 }

/-- A slice that is not FREE enters RESETTING, with every effect of Table 13-5 applied or begun; a FREEZE of it completes with
CANCELLED (R313). -/
def State.resetSlice (s : State) (i : Nat) : State :=
  let x := s.slice i
  if x.state = .free ∨ x.state = .resetting then s
  else
    let s := s.setSlice i { x with state := .resetting, freezing := false, stateNewel := s.now }
    (s.resetEffects i x.keepTier).slcEndIf 0x6 i stCancelled

/-- Every effect of a reset of the slice is complete (R310): the key drain and the controller reset have ended. -/
def State.resetDone (s : State) (i : Nat) : Bool := !s.rteResetting i && !s.nvResetting i && !s.cipResetting i

/-- A RESETTING slice becomes BOUND, with FAULT_CAUSE 0 and SAVED clear (Table 13-2). -/
def State.endReset (s : State) (i : Nat) : State :=
  let x := s.slice i
  if x.state = .resetting ∧ s.resetDone i then
    (s.setSlice i { x with state := .bound, cause := .none, saved := false, target := [], capsule := [], stateNewel := s.now }).slcEndIf 0x5 i stOk
  else s

/-- R304: a bound slice may become ACTIVE. -/
def State.mayActivate (s : State) (i : Nat) : Bool :=
  let x := s.slice i
  (s.dev.st == .ready || s.dev.st == .shedding) && s.linkUp x.port x.half && s.helloAccepted x.port &&
    s.getF (F.DEV_LEASE_RUNNING x.port) == 1

/-! ### The slice page (R306, R307) -/

/-- The page of a slice answers on a link (R306). -/
def State.pageAnswers (s : State) (p h i : Nat) : Bool :=
  let x := s.slice i
  s.linkUp p h && !(s.fn x.fn).d3hot && x.port == p && x.half == h && (x.state == .bound || x.state == .active || x.state == .frozen)

/-- A write to a slice page: ignored where the page does not answer, held while H0 or H1 is paused (R306, Table 02-8), and else acted on. -/
def State.pageWrite (s : State) (p h i : Nat) (c : Instr) (act : State → State) : State :=
  if !s.pageAnswers p h i then s
  else
    let s := s.wakeLink p h
    if s.hallPaused 0 ∨ s.hallPaused 1 then { s with held := s.held ++ [c] } else act s

/-- What host software has written to its memory before it wrote to the device (log entry 6). -/
def State.hostStores (s : State) (sp : Space) (l : List (DWord × Byte)) : State :=
  { s with mem := l.foldl (fun (m : Mem) e => m.set (sp.at e.1.toNat) e.2) s.mem }

/-- A doorbell ignored, and counted (R307). -/
def State.dbReject (s : State) (i : Nat) : State :=
  let x := s.slice i
  s.setSlice i { x with dbReject := (x.dbReject + 1) % 2 ^ 32 }

end Sys2Proof.Machine
end

