-- ==== Sys2Proof/Machine/Flights.lean ====
section
/-! DEFINITION. The commands of flights: loading and arming (R103 to R110), steps (R105 to R107, R111 to R115), control messages (R113,
R121, R122), doorbells (R111) and cancels (R119). -/

namespace Sys2Proof.Machine

/-! ### LOAD (R108) -/

/-- Fields that each opcode uses (Table 05-7). -/
def fltFields (d : Desc) : List (Nat × Nat) :=
  [(31, 0), (35, 32), (40, 40), (63, 48)] ++
    match Desc.bits d 35 32 with
    | 1 => [(127, 64), (159, 128)]
    | 2 => [(127, 64), (159, 128), (223, 160), (287, 224), (319, 288), (351, 320)]
    | _ => []

/-- A flight command obeys Table 05-7 (R118). -/
def fltDescOk (d : Desc) : Bool := 1 ≤ Desc.bits d 35 32 && Desc.bits d 35 32 ≤ 3 && Desc.only d (fltFields d)

/-- LOAD of a fetched image (R104, R108) into a free slot, which one being the device's choice (log entry 13). -/
def State.loadFlight (s : State) (o : Op) : State :=
  let d := o.desc
  let b := s.mem.read ((s.slice o.owner).space.at (Desc.field d 8 8)) (min (Desc.field d 16 4) (2 ^ 24 + 1))
  let dev := flDev b
  let (st, fail) := s.imageStatus o.owner b (Desc.field d 6 2)
  if st ≠ stOk then s.fltRefuse o st 0 dev fail
  else if (s.flightOf (flId b)).isSome then s.fltRefuse o stFlightIdInUse 0 dev 0xFFFF
  else
    let (w, t) := s.drawWord
    match pickFree 0 64 64 w (fun k => (s.flight k).isNone) with
    | none => s.fltRefuse o stFlightSlotsFull 0 dev 0xFFFF
    | some k =>
      let f := Flight.fresh o.owner (flId b) b
      if s.reserveStatus o.owner 0 (f.tierPages 0) ≠ stOk ∨ s.reserveStatus o.owner 1 (f.tierPages 1) ≠ stOk then
        s.fltRefuse o stNoBufferSpace 0 dev 0xFFFF
      else ((t.commitOp o.id).placeFlight k f).fltRefuse o stOk k dev 0xFFFF

/-- A flight ring fetches a descriptor of an opcode, or of one that names no command (R118). -/
def State.fltFetch (s : State) (opc ring : Nat) (d : Desc) (act : Op → State → State) : State :=
  let x := Desc.bits d 35 32
  if (x = opc ∨ x = 0 ∨ 3 < x) ∧ Desc.field d 4 1 ≠ 0x0F then
    match s.fetch ring 0x06 (Desc.tag d) d with
    | some (o, s) => if fltDescOk d then act o s else s.fltRefuse o stCmdInvalid 0 0 0xFFFF
    | none => s
  else s

/-- LOAD (R108). -/
def execLoad (ring : BitVec 16) (d : Desc) (s : State) : Res := .next (s.fltFetch 1 ring.toNat d fun o s => s.loadFlight o)

/-- ARM (R109). -/
def execArm (ring : BitVec 16) (d : Desc) (s : State) : Res := .next (s.fltFetch 2 ring.toNat d fun o s => s.armFlight o)

/-- UNLOAD (R110). -/
def execUnload (ring : BitVec 16) (d : Desc) (s : State) : Res := .next (s.fltFetch 3 ring.toNat d fun o s => s.unloadFlight o)

/-! ### The run (R111, R115, R116) -/

/-- Newel time reaches the epoch (Table 05-8). -/
def State.epochReached (s : State) (k : Nat) : State :=
  match s.flight k with
  | some f =>
    if f.st = .armed then
      let s := s.atLeast f.epoch
      s.setFlight k { f with st := .running, epochUp := s.up }
    else s
  | none => s

/-- FLIGHT_EPOCH_REACHED (R116). -/
def execFlightEpochReached (slot : Fin 64) (s : State) : Res := .next (s.epochReached slot)

/-- A SEND or RECV of a count that its format does not allow (R50). -/
def Flight.badCount (f : Flight) (j : Nat) : Bool :=
  let x := flStep f.image j
  match x.opds.find? fun o => if x.kind = 1 then o.reads else o.writes with
  | some o => (flBuf f.image o.buf).kind == 0 && !(flBuf f.image o.buf).fmt.fits x.count
  | none => false

/-- SEND: one message to the peer, whose units of 64 KiB leave as they may (R106, R115). -/
def State.runSend (s : State) (k j : Nat) : State :=
  match s.flight k with
  | none => s
  | some f =>
    let x := flStep f.image j
    if f.badCount j then s.stepFault k stFormatInvalid
    else
      match x.opds.find? FOpd.reads with
      | some i =>
        let n := sendUnits (((s.opdSpans k f x i).headD (.accel 0, 0, 0)).2.2)
        let c := f.conn x.peer
        State.sendGo k j n (s.setFlight k { f with txLeft := put f.txLeft j (n, c.2), conns := put f.conns x.peer (c.1, c.2 + 1) })
      | none => s

/-- STEP_SEND (R106). -/
def execStepSend (slot : Fin 64) (step t : Nat) (s : State) : Res :=
  .next (match s.stepBegin slot step 1 t with | some s => s.runSend slot step | none => s)

/-- STEP_RECV (R106). -/
def execStepRecv (slot : Fin 64) (step t : Nat) (s : State) : Res :=
  .next (match s.stepBegin slot step 2 t with
    | some s => if (s.flight slot).any fun f => f.badCount step then s.stepFault slot stFormatInvalid else s
    | none => s)

/-- Status of stream j of a Gallery step at its start, behind the streams before it (R75 to R78, R88, R90). -/
def State.stepStrmStatus (s : State) (f : Flight) (x : FStep) (img : List Byte) (before : List Strm) (j : Nat) (st : Strm) : Nat :=
  let h := FHead.of img
  if x.kind = 5 ∧ j < h.streams ∧ (maskDir h j).isNone then stOk
  else
    let e := s.strmStatus f.slice st (if x.kind = 5 ∧ j = h.streams then (carried img).length else x.count)
    if e ≠ stOk then e
    else match x.kind with
      | 3 => s.reduceStatus x.inCtrl x.outCtrl x.count before st
      | 4 => convertStatus x.outCtrl before st
      | _ => programStatus img j st

/-- Status of a Gallery step at its start: its control bytes, then its streams in order (R106). Those of a PROGRAM step are not read, as its program
converts (R47, R105; log entry 127). -/
def State.stepStatus (s : State) (f : Flight) (x : FStep) (img : List Byte) (l : List Strm) : Nat :=
  let h := FHead.of img
  if ctrlStatus (x.kind - 2) x.inCtrl x.outCtrl ≠ stOk then stFormatInvalid
  else if x.kind = 5 ∧ l.length ≠ h.streams + (if h.carry = 0 then 0 else 1) then stDescInvalid
  else (((l.zipIdx.map fun e => s.stepStrmStatus f x img (l.take e.2) e.2 e.1)).find? (· != stOk)).getD stOk

/-- A REDUCE, CONVERT or PROGRAM step as a Gallery command (R106). -/
def State.stepGal (s : State) (k j : Nat) : State :=
  match s.flight k with
  | none => s
  | some f =>
    let x := flStep f.image j
    let slot := if x.kind = 5 then s.findProg f.slice x.progId x.progVer else none
    let img := match slot with | some q => (s.progSlot q).image | none => []
    let l := s.stepStrms k f x
    let st := if x.kind = 5 ∧ slot.isNone then stProgAbsent else s.stepStatus f x img l
    if st ≠ stOk then s.stepFault k st
    else
      let addends := (l.filter Strm.reads).foldl (fun n e =>
        addCount n (if e.kind = 0 then 1 else leNat (s.getBytes e.space (e.addr + 8) 8).1 % 2 ^ 33)) 0
      let tab := s.flBase k f x.scalarBuf
      let scalars := (List.range x.scalarCount).map fun n => leNat (s.getBytes tab.1 (tab.2 + 4 * n) 4).1
      let used := if x.kind = 5 then progStrms img l else l
      let c : GalCmd :=
        { op := 0, step := some (k, j), slice := f.slice, kind := x.kind - 2, count := x.count, inCtrl := x.inCtrl, outCtrl := x.outCtrl,
          key := (f.id, j, x.base), streams := used, scalars := scalars, writeBack := none, slot := slot.getD 15, image := img, mask := 0,
          start := f.sched j, next := 0, chunks := [], ranges := [],
          flags := if x.kind = 3 ∧ 2 ^ 32 < addends then flagSAT else 0, clusters := 0, addends := if x.kind = 3 then addends else 0,
          accs := List.replicate 4 Accu.empty, cnts := List.replicate 4 0, deferred := false, counted := none, fault := none }
      ({ s with gal := { s.gal with cmds := s.gal.cmds ++ [c] } }.galSettle c)

/-- STEP_REDUCE (R106). -/
def execStepReduce (slot : Fin 64) (step t : Nat) (s : State) : Res :=
  .next (match s.stepBegin slot step 3 t with | some s => s.stepGal slot step | none => s)

/-- STEP_CONVERT (R106). -/
def execStepConvert (slot : Fin 64) (step t : Nat) (s : State) : Res :=
  .next (match s.stepBegin slot step 4 t with | some s => s.stepGal slot step | none => s)

/-- STEP_PROGRAM (R106). -/
def execStepProgram (slot : Fin 64) (step t : Nat) (s : State) : Res :=
  .next (match s.stepBegin slot step 5 t with | some s => s.stepGal slot step | none => s)

/-- The copy of a COPY step where its pages can be reached: its writes, with its commit point; else fetches of T4 pages, or its fault
(R106, R173). -/
def State.runCopy (s : State) (k j : Nat) : State :=
  match s.flight k with
  | none => s
  | some f =>
    let x := flStep f.image j
    match x.opds.find? FOpd.reads, x.opds.find? FOpd.writes with
    | some i, some o =>
      let src := s.opdSpans k f x i
      let dst := s.opdSpans k f x o
      if (flBuf f.image i.buf).kind = 0 ∧ !(flBuf f.image i.buf).fmt.fits x.count then s.stepFault k stFormatInvalid
      else match s.stepReach k f j with
      | .fail st => (s.poolFault st).stepFault k (streamFail st)
      | .wait => s.stepFetch k f j
      | .ok =>
        let s := (src.zip dst).foldl (fun s e =>
          let (bs, s) := s.getBytes e.1.1 e.1.2.1 e.1.2.2
          s.putBytes e.2.1 e.2.2.1 bs) s
        s.updFlight k fun f => f.setStep j (.running true)
    | _, _ => s

/-- STEP_COPY (R106). -/
def execStepCopy (slot : Fin 64) (step t : Nat) (s : State) : Res :=
  .next (match s.stepBegin slot step 6 t with | some s => s.runCopy slot step | none => s)

/-- LANDING: its local members have arrived, and every other member device is told (R113). -/
def State.runLanding (s : State) (k j : Nat) : State :=
  match s.flight k with
  | none => s
  | some f =>
    let l := (flStep f.image j).peer
    let own := (flMembers f.image l).filter fun r => (flRank f.image r).1 == flDev f.image
    let devs := f.peers.filter fun d => (flMembers f.image l).any fun r => (flRank f.image r).1 == d
    let s := s.setFlight k { f.setStep j (.running true) with arrived := f.arrived ++ own.map fun r => (l, r) }
    s.broadcast k devs 2 j (l :: own)

/-- STEP_LANDING (R113). -/
def execStepLanding (slot : Fin 64) (step t : Nat) (s : State) : Res :=
  .next (match s.stepBegin slot step 7 t with | some s => s.runLanding slot step | none => s)

/-- The completion signal of a position (Table 02-6): a 64-bit value, which the spec leaves open, or the counter plus 1. -/
def State.signal (s : State) (a : Nat) : State :=
  let p := (Space.accel a).at (s.accelCompletionOff a)
  if s.accelCompletion a = 1 then { s with mem := s.mem.write p (leBytes 8 (leNat (s.mem.read p 8) + 1)) }
  else
    let (v, s) := s.drawWord
    { s with mem := s.mem.write p (leBytes 8 v) }

/-- SIGNAL-ACCEL (R106): each position's signal within its window (R12, R75). -/
def State.runSignal (s : State) (k j : Nat) : State :=
  match s.flight k with
  | none => s
  | some f =>
    let ps := (List.range 8).filter fun a => bitAt (flStep f.image j).signal a
    match (ps.map fun a => s.accelAccess f.slice a (s.accelCompletionOff a) 8).find? (· != stOk) with
    | some st => s.stepFault k st
    | none => (ps.foldl State.signal s).updFlight k fun f => f.setStep j (.running true)

/-- STEP_SIGNAL_ACCEL (R106). -/
def execStepSignalAccel (slot : Fin 64) (step t : Nat) (s : State) : Res :=
  .next (match s.stepBegin slot step 8 t with | some s => s.runSignal slot step | none => s)

/-- A step completes when its KIND allows (Table 05-6): a SEND whose units have all been sent, when its peer has acknowledged them; a
RECV whose data is visible; a Gallery step that has ended; a copy or signal that is written; a landing at which every member has arrived. -/
def State.stepComplete (s : State) (k j : Nat) : State :=
  match s.flight k with
  | none => s
  | some f =>
    let x := flStep f.image j
    if !f.active ∨ !(f.stepSt j == .running true || f.stepSt j == .running false) then s
    else if x.kind = 1 then
      (match look f.txLeft j with
       | some e => State.sendGo k j e.1 s
       | none => s.stepDone k j)
    else if x.kind = 2 then (if f.recvDone j then s.stepDone k j else s)
    else if x.kind ≤ 5 then
      match s.gal.ended.find? fun e => e.slot == k && e.step == j with
      | none => s
      | some e =>
        let s : State := { s with gal := { s.gal with ended := s.gal.ended.filter fun x => !(x.slot == k && x.step == j) } }
        if e.bad then (s.setFlight k ((f.absorb e).setStep j .stopped)).stepFault k e.status else (s.setFlight k (f.absorb e)).stepDone k j
    else if x.kind = 6 then
      (let s := if f.stepSt j = .running false then s.runCopy k j else s
       if (s.flight k).any fun f => f.stepSt j == .running true && f.active then s.stepDone k j else s)
    else if x.kind = 7 then (if f.landDone j then s.stepDone k j else s)
    else s.stepDone k j

/-- STEP_COMPLETE (R106). -/
def execStepComplete (slot : Fin 64) (step : Nat) (s : State) : Res := .next (s.stepComplete slot step)

/-- The flight and a step of it that waits. -/
def State.waitingStep (s : State) (k j : Nat) : Option Flight :=
  (s.flight k).filter fun f => (f.st == .running || f.st == .stalled) && j < flSteps f.image && f.stepSt j == .waiting

/-- LATE_LIMIT_EXPIRY (R115). -/
def execLateLimitExpiry (slot : Fin 64) (step : Nat) (s : State) : Res :=
  .next (match s.waitingStep slot step with
    | some f =>
      if f.st = .running then
        (((s.atLeast (f.sched step + flLateLimit f.image + 1)).setFlight slot { f with st := .stalled }).event F.FLT_STATUS_STALL)
      else s
    | none => s)

/-- LATE_ABORT_EXPIRY (R115). -/
def execLateAbortExpiry (slot : Fin 64) (step : Nat) (s : State) : Res :=
  .next (match s.waitingStep slot step with
    | some f => (s.atLeast (f.sched step + flLateAbort f.image + 1)).abortFlight slot .lateAbort stLateAbort
    | none => s)

/-! ### Control messages (R113, R121, R122) -/

/-- Progress from a device: any packet of the flight (R121). -/
def State.progress (s : State) (k d : Nat) : State :=
  match s.flight k with
  | none => s
  | some f =>
    { s.setFlight k { f with progress := put f.progress d s.up } with
      flCtl := s.flCtl.map fun c => if c.id = f.id ∧ c.dest = d then { c with since := s.up } else c }

/-- A packet of the flight opcodes arrives (Table 06-22). -/
def State.rteRx (s : State) : State := s.bump64 R.RTE_CNT_RX_LO R.RTE_CNT_RX_HI 1

/-- KEEPALIVE_TIMER (R121): the epoch, MAP_CRC and HELD go to every other device of the flight. -/
def execKeepaliveTimer (slot : Fin 64) (s : State) : Res :=
  .next (match s.flight slot with
    | some f => if f.active then f.peers.foldl (fun s d => s.sendCtl f d 3 [flMapCrc f.image, b2n f.held]) s else s
    | none => s)

/-- KEEPALIVE_RECEIVED (R121). -/
def execKeepaliveReceived (id : BitVec 16) (device : Nat) (mapCrc : Word) (s : State) : Res :=
  .next (
    let s := s.rteRx
    match s.flightOf id.toNat with
    | some (k, f) =>
      if !f.active then s
      else if mapCrc.toNat ≠ flMapCrc f.image then s.abortFlight k .peerMismatch stPeerMismatch
      else s.progress k device
    | none => s)

/-- PEER_TIMEOUT (R121): PEER_TIMEOUT after the epoch, or after the last progress, of a device that carries a rank, on the oscillator (R99). -/
def execPeerTimeout (slot : Fin 64) (device : Nat) (s : State) : Res :=
  .next (match s.flight slot with
    | some f =>
      if f.active ∧ f.st ≠ .armed ∧ f.peers.contains device ∧ !(flRanksOf f.image device).isEmpty then
        (s.upTo (max f.epochUp (lookD f.progress device 0) + flPeerTimeout f.image)).abortFlight slot .peerLost stPeerLost
      else s
    | none => s)

/-- An abort broadcast from a device (R122): acknowledged; the device has ended its run, and needs no broadcast of this one; it ends this run unless
every step is complete, and is relayed once. -/
def State.abortReceived (s : State) (id epoch src num : Nat) (r : AbortReason) (origin : Nat) : State :=
  let s := s.rteRx.bump F.FLT_CNT_ABORT_RX_COUNT
  let s := s.ackCtl id epoch src num
  let s := { s with flCtl := s.flCtl.filter fun c => !(c.id == id && c.epoch == epoch && c.dest == src && c.kind == 1) }
  match s.flights.find? fun e => e.2.id == id && e.2.epoch == epoch && e.2.st != .loaded with
  | none => s
  | some (k, f) =>
    let s := s.progress k src
    let s := if f.relayed ∨ f.allDone then s
      else f.peers.foldl (fun s d => s.sendCtl f d 1 [num, r.code, origin]) (s.updFlight k fun f => { f with relayed := true })
    s.endFlight k r r.peerStatus origin true

/-- ABORT_BROADCAST_RECEIVED (R122). -/
def execAbortBroadcastReceived (id : BitVec 16) (epoch : DWord) (src num : Nat) (reason : AbortReason) (origin : BitVec 16) (s : State) : Res :=
  .next (s.abortReceived id.toNat epoch.toNat src num reason origin.toNat)

/-- The message is still repeated: a broadcast is not, to a device without progress for PEER_TIMEOUT (R122). -/
def Ctl.alive (c : Ctl) (up : Nat) : Bool := c.kind != 1 || up ≤ c.since + c.timeout

/-- Messages of a kind from a slot that wait for their acknowledgement go out again. -/
def State.repeatCtl (s : State) (k kind : Nat) : State :=
  let s := { s with flCtl := s.flCtl.filter fun c => c.slot != k || c.kind != kind || c.alive s.up }
  (s.flCtl.filter fun c => c.slot == k && c.kind == kind).foldl State.ctlAgain s

/-- ABORT_REPEAT_TIMER (R122). -/
def execAbortRepeatTimer (slot : Fin 64) (s : State) : Res := .next (s.repeatCtl slot 1)

/-- REPORT_REPEAT_TIMER (R113). -/
def execReportRepeatTimer (slot : Fin 64) (s : State) : Res := .next (s.repeatCtl slot 2)

/-- ARRIVAL_REPORT_RECEIVED (R113): counted once in the active run of its epoch. It is acknowledged there, and where a run of its epoch or a later one has
ended; a device that has not come to the epoch answers nothing, so that the report is repeated (log entry 130). -/
def execArrivalReportReceived (id : BitVec 16) (epoch : DWord) (src num set : Nat) (ranks : List Nat) (s : State) : Res :=
  .next (
    let s := s.rteRx
    match s.flightRun id.toNat epoch.toNat with
    | none =>
      (match s.flightOf id.toNat with
       | some (k, f) => if f.st ≠ .loaded ∧ epoch.toNat ≤ f.epoch then (s.ackCtl id.toNat epoch.toNat src num).progress k src else s
       | none => s)
    | some (k, f) =>
      let s := s.ackCtl id.toNat epoch.toNat src num
      if f.seen.contains (src, num) then s.progress k src
      else (s.setFlight k { f with seen := (src, num) :: f.seen, arrived := f.arrived ++ ranks.map fun r => (set, r) }).progress k src)

/-- CONTROL_ACK_RECEIVED (R113, R122). -/
def execControlAckReceived (id : BitVec 16) (src num : Nat) (s : State) : Res :=
  .next (
    let s := { s.rteRx with flCtl := s.flCtl.filter fun c => !(c.id == id.toNat && c.dest == src && c.num == num) }
    match s.flightOf id.toNat with
    | some (k, _) => s.progress k src
    | none => s)

/-- Flight data is placed into its buffer, or dropped and counted (R112, R130); `edge`: the connection's visible-PSN edge has passed all
that its device has placed so far (R107; log entry 30). -/
def State.flightWrite (s : State) (id src buf off epoch : Nat) (bs : List Byte) (edge : Bool) : State :=
  let drop (s : State) : State := s.bump F.FLT_CNT_DROP_COUNT
  match s.flightRun id epoch with
  | none => drop s
  | some (k, f) =>
    let y := flBuf f.image buf
    let p := s.flBase k f buf
    if flBufs f.image ≤ buf ∨ y.bytes < off + bs.length then drop s
    else
      match s.spanReach f.slice true p.1 (p.2 + off) bs.length with
      | .fail st => drop (s.poolFault st)
      | .wait => (match p.1 with
        | .tier h => (s.bump F.PLC_CNT_FETCH_DROP_COUNT).fetchPages (h / 256) true (pagesIn (p.2 + off) bs.length)
        | _ => s)
      | .ok =>
        let s := (s.putBytes p.1 (p.2 + off) bs).progress k src
        s.updFlight k fun f =>
          let l := f.placed ++ [(src, buf, off, bs.length, false)]
          { f with placed := if edge then l.map fun e => if e.1 = src then (e.1, e.2.1, e.2.2.1, e.2.2.2.1, true) else e else l }

/-- FLIGHT_WRITE_RECEIVED (R112). -/
def execFlightWriteReceived (id : BitVec 16) (src : Nat) (buf : BitVec 12) (off epoch : DWord) (payload : List Byte) (edge : Bool) (s : State) :
    Res :=
  .next (s.rteRx.flightWrite id.toNat src buf.toNat off.toNat epoch.toNat payload edge)

/-! ### Doorbells and cancels -/

/-- A doorbell count of a position in an active flight (R111). -/
def State.countDoorbell (s : State) (k a n : Nat) : State :=
  match s.flight k with
  | none => s
  | some f => (s.setFlight k { f with doorbells := put f.doorbells a n }).blameNew k f 1

/-- FLIGHT_DOORBELL (R111, R306): a write to the slice page's doorbell word of a position counts in the slice's active flights. -/
def execFlightDoorbell (port : Fin 4) (half : Fin 2) (slice : Fin 256) (pos : Fin 8) (s : State) : Res :=
  .next (s.pageWrite port half slice (.flightDoorbell port half slice pos) fun s =>
    if !bitAt (s.slice slice).accelGrant pos then s.dbReject slice
    else if s.accelDoorbell pos ≠ 0 then s
    else (s.flights.filter fun e => e.2.slice == slice.val && e.2.active).foldl (fun s e =>
      s.countDoorbell e.1 pos (lookD e.2.doorbells pos 0 + 1)) s)

/-- ACCEL_COUNTER_RISE (R111): the counter in the window has a new value; each flight that captured it has had as many doorbells as it has
risen by since. -/
def execAccelCounterRise (pos : Fin 8) (value : DWord) (s : State) : Res :=
  .next (
    if !s.accelPresent pos ∨ s.accelDoorbell pos ≠ 1 then s
    else
      let s := { s with mem := s.mem.write ((Space.accel pos).at (s.accelCounterOff pos)) (leBytes 8 value.toNat) }
      (s.flights.filter fun e => e.2.active && (look e.2.counters pos).isSome).foldl (fun s e =>
        s.countDoorbell e.1 pos ((value.toNat + 2 ^ 64 - lookD e.2.counters pos 0) % 2 ^ 64)) s)

/-- FLT_CANCEL (R119). -/
def execFltCancel (m : Master) (slice : BitVec 16) (s : State) : Res :=
  .next (s.openWrite m R.FLT_CANCEL_CTRL (.fltCancel m slice) fun s =>
    let (r, s) := (s.setF F.FLT_CANCEL_CTRL_SLICE slice.toNat).fltCancelTag slice.toNat (s.reg R.FLT_CANCEL_TAG)
    s.eventV F.FLT_CANCEL_RESULT_RESULT r.code)

end Sys2Proof.Machine
end

