-- ==== Sys2Proof/Machine/Sha2.lean ====
section
/-! DEFINITION. SHA-256 and SHA-384 (FIPS 180-4), which the spec names for digests and measurements (R22, R28, R339). What the standard says is PRESUMED
(log entry 139). One definition serves both: words of 32 or of 64 bits, whose constants are the first bits behind the point of roots of primes. -/

namespace Sys2Proof.Machine

/-- The first n primes, among the numbers below 410. -/
def firstPrimes (n : Nat) : List Nat :=
  (((List.range 410).drop 2).filter fun p => ((List.range p).drop 2).all fun d => p % d != 0).take n

/-- Integer k-th root of a number below 2^(k·80), bit by bit. -/
def iroot (k n : Nat) : Nat := (List.range 80).foldl (fun r i => if (r + 2 ^ (79 - i)) ^ k ≤ n then r + 2 ^ (79 - i) else r) 0

/-- The first w bits behind the point of the k-th root of a number. -/
def rootBits (w k p : Nat) : BitVec w := BitVec.ofNat w (iroot k (p * 2 ^ (k * w)))

/-- A member of the family: word width, rounds, the rotations and shifts of its four functions, and where it starts. -/
structure ShaKind (w : Nat) where
  rounds : Nat
  big0 : Nat × Nat × Nat
  big1 : Nat × Nat × Nat
  small0 : Nat × Nat × Nat
  small1 : Nat × Nat × Nat
  start : List (BitVec w)

/-- SHA-256. -/
def sha256Kind : ShaKind 32 := ⟨64, (2, 13, 22), (6, 11, 25), (7, 18, 3), (17, 19, 10), (firstPrimes 8).map (rootBits 32 2)⟩

/-- SHA-384. -/
def sha384Kind : ShaKind 64 := ⟨80, (28, 34, 39), (14, 18, 41), (1, 8, 7), (19, 61, 6), ((firstPrimes 16).drop 8).map (rootBits 64 2)⟩

/-- Three rotations combined. -/
def shaBig {w : Nat} (r : Nat × Nat × Nat) (x : BitVec w) : BitVec w := x.rotateRight r.1 ^^^ x.rotateRight r.2.1 ^^^ x.rotateRight r.2.2

/-- Two rotations and a shift combined. -/
def shaSmall {w : Nat} (r : Nat × Nat × Nat) (x : BitVec w) : BitVec w := x.rotateRight r.1 ^^^ x.rotateRight r.2.1 ^^^ (x >>> r.2.2)

/-- Message schedule of a block: its sixteen words and n further ones. -/
def shaWords {w : Nat} (h : ShaKind w) (block : List (BitVec w)) : Nat → List (BitVec w)
  | 0 => block
  | n + 1 =>
    let l := shaWords h block n
    let at' (k : Nat) : BitVec w := l.getD (n + 16 - k) 0
    l ++ [shaSmall h.small1 (at' 2) + at' 7 + shaSmall h.small0 (at' 15) + at' 16]

/-- One round on the eight working words. -/
def shaRound {w : Nat} (h : ShaKind w) (v : List (BitVec w)) (kw : BitVec w) : List (BitVec w) :=
  match v with
  | [a, b, c, d, e, f, g, x] =>
    let t := x + shaBig h.big1 e + ((e &&& f) ^^^ (~~~e &&& g)) + kw
    [t + shaBig h.big0 a + ((a &&& b) ^^^ (a &&& c) ^^^ (b &&& c)), a, b, c, d + t, e, f, g]
  | v => v

/-- One block taken into the hash value. -/
def shaBlock {w : Nat} (h : ShaKind w) (ks v block : List (BitVec w)) : List (BitVec w) :=
  v.zipWith (· + ·) ((ks.zipWith (· + ·) (shaWords h block (h.rounds - 16))).foldl (shaRound h) v)

/-- A message with its padding: a one bit, zeros and the length in bits, up to a whole block. -/
def shaPad (w : Nat) (bs : List Byte) : List Byte :=
  bs ++ [0x80#8] ++ List.replicate (roundUp (bs.length + 1 + w / 4) (2 * w) - (bs.length + 1 + w / 4)) 0 ++ beBytes (w / 4) (8 * bs.length)

/-- The hash value of a message. -/
def sha {w : Nat} (h : ShaKind w) (bs : List Byte) : List (BitVec w) :=
  let m := shaPad w bs
  let ks := (firstPrimes h.rounds).map (rootBits w 3)
  (List.range (m.length / (2 * w))).foldl (fun v j => shaBlock h ks v ((List.range 16).map fun i =>
    BitVec.ofNat w (beNat (cut m (2 * w * j + w / 8 * i) (w / 8))))) h.start

/-- SHA-256. -/
def sha256 (bs : List Byte) : BitVec 256 := BitVec.ofNat 256 ((sha sha256Kind bs).foldl (fun n x => n * 2 ^ 32 + x.toNat) 0)

/-- SHA-384: the first six words of the value. -/
def sha384 (bs : List Byte) : BitVec 384 := BitVec.ofNat 384 (((sha sha384Kind bs).take 6).foldl (fun n x => n * 2 ^ 64 + x.toNat) 0)

end Sys2Proof.Machine
end

