-- ==== Sys2Proof/Machine/StrOps.lean ====
section
/-! DEFINITION. What STR commands do up to their first wait, what loads a full stream, and how an STR command ends (R32 to R42). -/

namespace Sys2Proof.Machine

/-- A measurement register extended (R341). -/
def State.extend (s : State) (k : Nat) (d : BitVec 384) : State :=
  let old := lookD s.sig.mr k 0
  ({ s with sig := { s.sig with mr := put s.sig.mr k (sha384 (beBytes 48 old.toNat ++ beBytes 48 d.toNat)) } }).bump F.SIG_MR_COUNT_EXTENDS

/-- PHASE as STR_STATUS encodes it (Table 02-11). -/
def StrPhase.code : StrPhase → Nat
  | .idle => 0
  | .fetch => 1
  | .verify => 2
  | .shadow => 3
  | .quiesce => 4
  | .switch => 5
  | .resume => 6
  | .done => 7

/-- The phase shown. -/
def State.strPhase (s : State) : Nat := s.getF F.STR_STATUS_PHASE

/-- The phase set. -/
def State.setPhase (s : State) (p : StrPhase) : State := s.setF F.STR_STATUS_PHASE p.code

/-- A curve or energy table that waits for its boundary is given up. -/
def State.tabDrop (s : State) : State :=
  if s.str.tabWait then
    { s with str := { s.str with tabWait := false, tabs := drop s.str.tabs (4 + 256) }, pwr := { s.pwr with nextTable := none } }
  else s

/-- DONE: the command's result is posted and nothing of it is left (R37). -/
def State.strDoneCode (s : State) (r : Nat) : State :=
  let s := s.tabDrop
  ({ s with str := { s.str with cmd := none, image := [], halls := [], touched := false, refused := 0, tables := [] } }.setPhase .done).eventV
    F.STR_STATUS_RESULT r

/-- DONE with a result. -/
def State.strDone (s : State) (r : StrResult) : State := s.strDoneCode r.code

/-- A start of an STR command that is refused posts its result and changes nothing else (R37). -/
def State.strRefuse (s : State) (r : StrResult) : State := s.eventV F.STR_STATUS_RESULT r.code

/-- A running STR command that a port serves ends with a result from outside (R294); its hall resumes on its old bank, and the writes held for
that hall stay held until the caller performs them. -/
def State.strAbort (s : State) (sel : Nat → Bool) (r : StrResult) : State :=
  match s.str.cmd with
  | none => s
  | some (_, _, p) =>
    if !sel p then s
    else
      let s := match s.str.halls.head? with
        | some h => s.setF (F.STR_HALL_PAUSED h) 0
        | none => s
      s.strDone r

/-- CANCEL (R39): before the SWITCH of the hall being processed it ends the command, and that hall resumes on its old bank; once the
last hall has switched, or a table entry has loaded, it is answered ALREADY_DONE and the command goes on. -/
def State.strCancel (s : State) : State :=
  let s := s.setF F.STR_CMD_FORCE_CLEAR 0
  match s.str.cmd with
  | none => s
  | some (op, _, _) =>
    if op = .restream ∧ s.str.halls.isEmpty ∧ s.str.touched then s.strRefuse .alreadyDone else s.strAbort (fun _ => true) .cancelled

/-- Source address of the image. -/
def State.strSrc (s : State) : Nat := s.reg R.STR_SRC_LO + 2 ^ 32 * s.reg R.STR_SRC_HI

/-- An STR command that fetches starts, or is refused (R32, R37; log entry 22 on the codes). -/
def State.strStart (s : State) (m : Master) (op : StrOp) (force : Bool) : State :=
  let s := s.setF F.STR_CMD_FORCE_CLEAR (b2n force)
  if s.str.cmd.isSome then s.strRefuse .busy
  else if op = .restream ∧ s.dev.st = .shedding then s.strRefuse .deviceState
  else if op = .loadFull ∧ s.dev.stream then s.strRefuse .deviceState
  else if 96 * 2 ^ 20 < s.reg R.STR_SRC_LEN then s.strRefuse .headerBad
  else if s.strSrc % 4096 ≠ 0 then s.strRefuse .fetchFault
  else { s with str := { s.str with cmd := some (op, force, s.cmdPort m), image := [], halls := [], touched := false, refused := 0,
                                    tables := [] } }.setPhase .fetch |>.setF F.STR_STATUS_HALL 0

/-- R29 for every wing that runs (R326). -/
def State.windowOk (s : State) (img : List Byte) : Bool :=
  (List.range 4).all fun w => fwWindowOk (s.reg (R.STW_WING_VER w)) (fwMin img)

/-- BASE_ID of the running stream. -/
def State.runBaseId (s : State) : Nat :=
  (List.range 4).foldl (fun n i => n + s.reg (R.STR_BASE_ID i) * 2 ^ (32 * i)) 0

/-- Strap value read at power-up. -/
def State.straps (s : State) : Nat := s.getF F.STR_ENV_ENTRY_STRAPS

/-- The active bank's section of a hall. -/
def State.activeBank (s : State) (h : Nat) : HallBank :=
  lookD (if s.getF (F.STR_HALL_ACTIVE_BANK h) = 0 then s.str.banks0 else s.str.banks1) h ⟨0, 0, []⟩

/-- Services that an image gives a core (Table 14-1). -/
def imgServices (img : List Byte) (c : Nat) : Nat := (Config.streamReg img (R.STW_CORE c)).toNat % 65536

/-- Wings that an image's PKT_SLOW names. -/
def imgSlow (img : List Byte) : Nat := (Config.streamReg (sectionBody img 0x13) R.PKT_SLOW).toNat % 16

/-- A full image assigns services as R318 demands: MGMT, LOADER, PTP and ERROR in wing 0 only, each service but SLOWPATH in exactly one wing, and
SLOWPATH on every core of each wing that PKT_SLOW names. -/
def servicesOk (img : List Byte) : Bool :=
  let inWing (b w : Nat) : Bool := (List.range 8).any fun k => bitAt (imgServices img (8 * w + k)) b
  ((List.range 4).all fun b => (List.range 4).all fun w => w == 0 || !inWing b w) &&
    ((List.range 8).all fun b => ((List.range 4).filter (inWing b)).length == 1) &&
    ((List.range 4).all fun w => !bitAt (imgSlow img) w || (List.range 8).all fun k => bitAt (imgServices img (8 * w + k)) 8)

/-- The table entries of an image. -/
def tablesOf (img : List Byte) : List (Nat × List Byte) :=
  let b := sectionBody img 0x20
  tableEntries b.length b

/-- The signature block as R28 lays it out: it ends at IMAGE_LEN, with ECDSA_LEN 96 and LMS_LEN 2,988 (log entry 126). -/
def sigBlockOk (img : List Byte) : Bool :=
  let o := sigOffset img
  img.length == o + 3096 && fieldAt img (o + 4) 4 == 96 && fieldAt img (o + 104) 4 == 2988

/-- Header and version checks of VERIFY (R22, R23, R29 to R31), for the kind of image that the command takes. Table entries of a full stream are
judged here, those of a partial one as they load (R37, R189; log entry 123). -/
def State.strCheck (s : State) (op : StrOp) (force : Bool) (img : List Byte) : StrResult :=
  if !headerOk img || !sectionsOk img s.straps then .headerBad
  else if isFull img ∧ (!servicesOk img ∨ (tablesOf img).any fun e => tableBad e.1 e.2) then .headerBad
  else if op = .restream ∧ isFull img ∨ (op = .loadFull ∨ op = .writeSlot) ∧ ¬ isFull img then .headerBad
  else if !s.windowOk img then .fwWindow
  else if isFull img then .ok
  else if baseId img ≠ s.runBaseId ∨ !s.dev.stream then .baseIdMismatch
  else if (hallsIn img).any (fun h => sectVer img h ≤ (s.activeBank h).ver) then .rollback
  else if !force && (hallsIn img).any (fun h => sectLayout img h != (s.activeBank h).layout) then .stateLayout
  else .ok

/-- A table entry that replaces accelerator profiles while a loaded flight names one (R42). -/
def State.profileBlocked (s : State) (e : Nat × List Byte) : Bool := e.1 == 6 && (List.range 4).any s.profileInUse

/-- The plan's domains: those whose ON is set run (R353). Without a plan entry all stay as ISLANDS_LOCKED left them (log entry 124). -/
def State.applyPlan (s : State) (p : List Byte) : State :=
  if p.isEmpty then s else
  let on := (List.range 36).filter fun d => bitAt (fieldAt p (192 + 4 * d) 4) 8
  let v := on.foldl (fun n d => n + 2 ^ d) 0
  (s.setReg R.PWR_DOM_ON_LO v).setReg R.PWR_DOM_ON_HI (v / 2 ^ 32)

/-- The energy table's initial reserve and budgets (Table 16-3), which are 0 without an energy entry (log entry 124). -/
def State.applyEnergy (s : State) (t : List Byte) : State :=
  let s := { s with pwr := { s.pwr with table := t } }
  (List.range 4).foldl (fun s e => s.setReg (R.PWR_ENG_BUDGET e) (fieldAt t (32 + 4 * e) 4)) (s.setReg R.PWR_RESERVE (fieldAt t 28 4))

/-- Steps 5 to 8 of R32, on an image whose checks have passed: the environment entry is selected, the plan applied, every hall written into bank 0 and made active, every
Stream register loaded and the tables loaded; step 9 begins. -/
def State.loadFull (s : State) (img : List Byte) (accel : BitVec 8) : State :=
  let env := sectionBody img 1
  let sel := envSelect env s.straps
  let s := s.extend 7 (sha384 (cut img 0 (sigOffset img)))
  let s := { s with str := { s.str with env := (sel.map (envEntry env)).getD [] } }
  let s := s.setFs [(F.STR_ENV_ENTRY_MATCHED, b2n sel.isSome), (F.STR_ENV_ENTRY_ENTRY, sel.getD 0)]
  let s := s.extend 9 (sha384 (s.str.env ++ leBytes 1 s.straps))
  let tabs := tablesOf img
  let s := s.applyPlan (lookD tabs 1 [])
  let s := (List.range 12).foldl (fun s h =>
    let b : HallBank := ⟨sectVer img h, sectLayout img h, sectionBody img (0x10 + h)⟩
    let s := { s with str := { s.str with banks0 := put s.str.banks0 h b } }
    (s.setReg (R.STR_HALL h) (b.ver % 65536 * 65536)).loadHall b.body h) s
  let s := [0, 1, 6, 17, 18].foldl (fun s b => s.loadBlock img b) s
  let s := (List.range 4).foldl (fun s i => s.setReg (R.STR_BASE_ID i) (baseId img / 2 ^ (32 * i))) s
  let s := (s.setReg R.STR_STREAM_VER (streamVer img)).setReg R.STR_FW_MIN (fwMin img)
  let s := (List.range 4).foldl (fun s g => s.setF (F.ETH_GROUP_STATE_MODE g) (s.groupMode g)) s
  let s := (List.range 4).foldl (fun s g => if s.groupEnabled g then s.setF (F.ETH_GROUP_STATE_STATE g) 1 else s) s
  let s := (List.range 4).foldl (fun s p => if s.getF (linkStateF p 1) = 1 ∧ !s.bifurcated p then s.setF (linkStateF p 1) 0 else s) s
  let s := (List.range 16).foldl (fun s k => if s.backendStated k then s.setF (F.NVS_BE_STATE k) 1 else s) s
  let s := tabs.foldl (fun s e => s.loadTable e.1 e.2) s
  let s := s.applyEnergy (lookD tabs 5 [])
  let s := ({ s with dev := { s.dev with stream := true, envWait := sel.isSome } }.begin .ptpStart).begin .envCheck
  match sel with
  | none => (s.envRaise 6 0 0 s.straps).setDev { s.dev with st := .limited, limitedCause := 2, stream := true, envWait := false }
  | some _ => ((s.portsCheck).accelCheck accel (fun _ => true)).envSettle

/-- Steps 1 to 4 of R32 on an image of a NOR slot, with the Signet's answer for its signatures. -/
def State.slotCheck (s : State) (img : List Byte) (sig : Bool) : StrResult :=
  if !headerOk img then .headerBad
  else if !sig ∨ !sigBlockOk img then .signatureBad
  else if !isFull img ∨ !sectionsOk img s.straps ∨ !servicesOk img ∨ (tablesOf img).any fun e => tableBad e.1 e.2 then .headerBad
  else if !s.windowOk img then .fwWindow
  else if !crcsOk img then .crcBad
  else .ok

/-- The slot is valid (Table 02-13). -/
def State.slotValid (s : State) (k : Nat) : Bool := s.getF (if k = 0 then F.STR_BOOT_SLOT_A_VALID else F.STR_BOOT_SLOT_B_VALID) == 1

/-- Image in a stream slot. -/
def State.slotImage (s : State) (k : Nat) : List Byte := if k = 0 then s.str.slotA else s.str.slotB

/-- The slot that WRITE_SLOT writes: the one that STR_BOOT_SLOT does not name (R34). -/
def State.spareSlot (s : State) : Nat := 1 - s.getF F.STR_BOOT_SLOT_SLOT

/-- A slot's valid bit set. -/
def State.setSlotValid (s : State) (k v : Nat) : State := s.setF (if k = 0 then F.STR_BOOT_SLOT_A_VALID else F.STR_BOOT_SLOT_B_VALID) v

/-- The image of a stream slot set. -/
def State.setSlotImage (s : State) (k : Nat) (img : List Byte) : State :=
  if k = 0 then { s with str := { s.str with slotA := img } } else { s with str := { s.str with slotB := img } }

/-- The hall being processed. -/
def State.curHall (s : State) : Option Nat := s.str.halls.head?

/-- A write to STR_BOOT_SLOT: kept in NOR where it names a valid slot, and else ignored (R34). -/
def State.bootSlotWrite (s : State) (k : Nat) : State := if s.slotValid k then s.setF F.STR_BOOT_SLOT_SLOT k else s

end Sys2Proof.Machine
end

