-- ==== Sys2Proof/Machine/Slices.lean ====
section
/-! DEFINITION. The commands of SLC on slices and rings, the slice page and the freeze (R274, R301 to R316). -/

namespace Sys2Proof.Machine

/-- A GO of SLC_CMD (R274): ignored and counted while a command runs; the command is active while it waits for MGMT (R322, R329). -/
def State.slcGo (s : State) (m : Master) (c : Instr) (op : Nat) (act : State → State) : State :=
  s.guardWrite m R.SLC_CMD c fun s =>
    if s.getF F.SLC_STATUS_CMD_ACTIVE = 1 then s.bump F.SLC_CNT_BUSY
    else
      let s := s.setF F.SLC_CMD_OP op
      if s.coreServes 0 0 then act s else { s.setF F.SLC_STATUS_CMD_ACTIVE 1 with mgmt := s.mgmt ++ [c] }

/-- The slice in SLC_SEL. -/
def State.slcSel (s : State) : Nat := s.getF F.SLC_SEL_SLICE

/-- n consecutive registers as one number, the first in its lowest bits. -/
def State.words (s : State) (r : Nat → Nat) (n : Nat) : Nat :=
  (List.range n).foldl (fun v w => v + s.reg (r w) * 2 ^ (32 * w)) 0

/-- n consecutive registers set from one number. -/
def State.setWords (s : State) (r : Nat → Nat) (n v : Nat) : State :=
  (List.range n).foldl (fun s w => s.setReg (r w) (v / 2 ^ (32 * w))) s

/-! ### Entries -/

/-- READ_ENTRY: the whole entry in the window (R301). -/
def State.readEntry (s : State) : State :=
  let i := s.slcSel
  let s := s.setWords R.SLC_ENTRY 16 (s.slice i).cfg.toNat
  (s.setWords (fun w => R.SLC_ENTRY (16 + w)) 16 (leNat (s.entryRuntime i))).slcEnd 0x1 i stOk

/-- READ_ENTRY (R301). -/
def execReadEntry (m : Master) (s : State) : Res := .next (s.slcGo m (.readEntry m) 0x1 State.readEntry)

/-- The configuration has no nonzero reserved bit (R302, Table 13-1). -/
def entryOk (x : Slice) : Bool :=
  x.field 0 1 / 8 == 0 && x.field 1 1 / 4 == 0 && x.field 2 2 == 0 && x.field 4 4 / 2 ^ 20 == 0 && x.field 9 1 == 0 &&
    x.field 12 4 / 2 ^ 17 == 0 && x.field 16 4 / 2 ^ 21 == 0 && x.field 20 4 / 2 ^ 24 == 0 && x.field 58 6 == 0

/-- PORT, HALF, PASID and QP_STORE are the same (R302). -/
def sameBinding (x y : Slice) : Bool :=
  x.port == y.port && x.half == y.half && x.pasid == y.pasid && x.qpStore == y.qpStore

/-- WRITE_ENTRY (R302, R303; log entry 23 on the order of its two checks). -/
def State.writeEntry (s : State) : State :=
  let i := s.slcSel
  let x := s.slice i
  let y := { x with cfg := BitVec.ofNat 512 (s.words R.SLC_ENTRY 16) }
  if !entryOk y then s.slcEnd 0x2 i stBindingInvalid
  else if x.state ≠ .free ∧ !sameBinding x y then s.slcEnd 0x2 i stSliceState
  else ((s.setSlice i y).sealTouch 5).slcEnd 0x2 i stOk

/-- WRITE_ENTRY (R302). -/
def execWriteEntry (m : Master) (s : State) : Res := .next (s.slcGo m (.writeEntry m) 0x2 State.writeEntry)

/-- The binding rules of R302 hold for a slice: its range, its PASID, its accelerator and its network grants. -/
def State.bindOk (s : State) (i : Nat) : Bool :=
  let x := s.slice i
  let r := s.sliceRange x.port x.half
  r.1 ≤ i && i < r.1 + r.2 &&
    (List.range 256).all (fun j => j == i || (s.slice j).state == .free || (s.slice j).link != x.link || (s.slice j).pasid != x.pasid) &&
    (List.range 8).all (fun a => !bitAt x.accelGrant a || (s.accelPresent a && s.accelPort a == x.port)) &&
    (List.range 16).all (fun p => !bitAt x.netGrant p || s.netUp p)

/-- Pages that the QP backing store takes of T1 (R301). -/
def Slice.storePages (x : Slice) : Nat := if x.qpStore = 0 then ceilDiv (x.qpQuota * 256) (2 * 2 ^ 20) else 0

/-- BIND (R302): FREE to BOUND after its checks and the T1 reservation. -/
def State.bindSlice (s : State) : State :=
  let i := s.slcSel
  if (s.slice i).state ≠ .free then s.slcEnd 0x3 i stSliceState
  else if !s.bindOk i then s.slcEnd 0x3 i stBindingInvalid
  else
    let (st, s) := s.reserveT1 i (s.slice i).storePages
    if st ≠ stOk then s.slcEnd 0x3 i st else (s.moveSlice i .bound).slcEnd 0x3 i stOk

/-- BIND (R302). -/
def execBind (m : Master) (s : State) : Res := .next (s.slcGo m (.bind m) 0x3 State.bindSlice)

/-- UNBIND's end: the configuration is cleared, the T1 reservation released, and the slice is FREE (Table 13-2). -/
def State.freeSlice (s : State) (i : Nat) : State :=
  let s := s.releaseT1 i
  let x := s.slice i
  ((s.setSlice i { x with cfg := 0, state := .free, cause := .none, saved := false, target := [], capsule := [], stateNewel := s.now }).sealTouch
    5).slcEnd 0x4 i stOk

/-- UNBIND: a reset with KEEP_TIER clear first; the slice is FREE once every effect is complete (Table 13-2). -/
def State.unbindSlice (s : State) (port : Nat) : State :=
  let i := s.slcSel
  if (s.slice i).state ≠ .bound then s.slcEnd 0x4 i stSliceState
  else
    let s := s.resetEffects i false
    if s.resetDone i then s.freeSlice i else s.slcBegin ⟨0x4, i, port⟩

/-- UNBIND (R304). -/
def execUnbind (m : Master) (s : State) : Res := .next (s.slcGo m (.unbind m) 0x4 fun s => s.unbindSlice (s.cmdPort m))

/-- RESET: every state but FREE and RESETTING (Table 13-2). -/
def State.resetCommand (s : State) (port : Nat) : State :=
  let i := s.slcSel
  let x := s.slice i
  if x.state = .free ∨ x.state = .resetting then s.slcEnd 0x5 i stSliceState
  else (s.resetSlice i).slcBegin ⟨0x5, i, port⟩

/-- SLICE_RESET (R310). -/
def execSliceReset (m : Master) (s : State) : Res := .next (s.slcGo m (.sliceReset m) 0x5 fun s => s.resetCommand (s.cmdPort m))

/-- Every effect of a reset is complete: the slice becomes BOUND, or FREE where UNBIND waits (R310, Table 13-2). -/
def State.resetArrived (s : State) (i : Nat) : State :=
  match s.slcCmd with
  | some c => if c.op = 0x4 ∧ c.slice = i then (if s.resetDone i then s.freeSlice i else s) else s.endReset i
  | none => s.endReset i

/-- SLICE_RESET_DONE (R310). -/
def execSliceResetDone (slice : Fin 256) (s : State) : Res := .next (s.resetArrived slice)

/-- Records and messages of a slice that becomes ACTIVE go out (Table 13-2). -/
def State.wake (s : State) (i : Nat) : State := ((s.ringsOf i).foldl State.drainCq s).boundaryResume i

/-- SLICE_ACTIVATE: a BOUND slice becomes ACTIVE when R304's conditions hold. -/
def State.activate (s : State) (i : Nat) : State :=
  if (s.slice i).state = .bound ∧ s.mayActivate i then (s.moveSlice i .active).wake i else s

/-- SLICE_ACTIVATE (R304). -/
def execSliceActivate (slice : Fin 256) (s : State) : Res := .next (s.activate slice)

/-! ### Freezing (R313) -/

/-- FREEZE: new work of the slice stops. -/
def State.freeze (s : State) (port : Nat) : State :=
  let i := s.slcSel
  let x := s.slice i
  if x.state ≠ .active ∨ x.freezing then s.slcEnd 0x6 i stSliceState
  else if s.persistentRunning i then s.slcEnd 0x6 i stFreezeBusy
  else (((s.setSlice i { x with freezing := true }).begin .freeze).boundaryStart i).slcBegin ⟨0x6, i, port⟩

/-- FREEZE (R313). -/
def execFreeze (m : Master) (s : State) : Res := .next (s.slcGo m (.freeze m) 0x6 fun s => s.freeze (s.cmdPort m))

/-- The slice of a running FREEZE. -/
def State.freezeSlice (s : State) : Option Nat :=
  match s.slcCmd with
  | some c => if c.op = 0x6 then some c.slice else none
  | none => none

/-- Every engine has reached the boundary: FROZEN. -/
def State.freezeDone (s : State) : State :=
  match s.freezeSlice with
  | some i =>
    if s.atBoundary i then
      (s.setSlice i { s.slice i with state := .frozen, freezing := false, saved := false, target := [], capsule := [],
                                     stateNewel := s.now }).slcEnd 0x6 i stOk
    else s
  | none => s

/-- FREEZE_BOUNDARIES_REACHED (R313). -/
def execFreezeBoundariesReached (s : State) : Res := .next s.freezeDone

/-- FREEZE_WAIT passes: FREEZE_BUSY, and every engine resumes. -/
def State.freezeTimeout (s : State) : State :=
  match s.freezeSlice with
  | some i =>
    let s := s.ripe .freeze (10 ^ 6 * (s.slice i).freezeWait)
    ((s.setSlice i { s.slice i with freezing := false }).wake i).slcEnd 0x6 i stFreezeBusy
  | none => s

/-- FREEZE_WAIT_TIMEOUT (R313). -/
def execFreezeWaitTimeout (s : State) : Res := .next s.freezeTimeout

/-- THAW (Table 13-2): held completions go out, in ring order. -/
def State.thaw (s : State) : State :=
  let i := s.slcSel
  let x := s.slice i
  if x.state ≠ .frozen then s.slcEnd 0x7 i stSliceState
  else if x.saved then s.slcEnd 0x7 i stCapsuleSaved
  else
    let s := s.flushAtThaw i
    let s := if s.mayActivate i then (s.moveSlice i .active).wake i else s.moveSlice i .bound
    s.slcEnd 0x7 i stOk

/-- THAW (R304). -/
def execThaw (m : Master) (s : State) : Res := .next (s.slcGo m (.thaw m) 0x7 State.thaw)

/-! ### Locket (R315, R316) -/

/-- Address in SLC_CMD_ADDR. -/
def State.slcAddr (s : State) : Nat := s.reg R.SLC_CMD_ADDR_LO + 2 ^ 32 * s.reg R.SLC_CMD_ADDR_HI

/-- What a capsule of a slice carries (R315, Table 13-7): its held records are those that wait for THAW, and those of flights that SAVE ended stand
with the images. -/
def State.contents (s : State) (i : Nat) : Capsule :=
  let rings := s.rings.filter fun e => e.2.owner == i
  let objs := s.plc.objs.filter fun e => e.2.slice == i
  let recs := rings.flatMap fun e => (lookD s.cqWait e.1 []).map fun r => (e.1, r)
  let moved (r : Nat × Rec) : Bool := r.2.source == 0x0B && r.2.status == stSliceFrozen
  { entry := (leBytes 64 (s.slice i).cfg.toNat).drop 8
    rings := rings
    qps := s.rte.qps.filter fun e => e.2.slice == i
    keys := s.rte.keys.filter fun e => e.2.slice == i
    objs := objs
    pools := (s.plc.pools.filter fun e => e.1 / 16 == i).map fun e => (e.1 % 16, e.2)
    tier := objs.flatMap fun e => e.2.page.flatMap fun g =>
      if g.2.loc.any (·.1 ≤ 1) then (s.mem.cells ((Space.tier (e.2.handle e.1)).at (g.1 * pageLen)) pageLen).map fun c => (e.1, g.1 * pageLen + c.1, [c.2]) else []
    flights := (s.flights.filter fun e => e.2.slice == i).map fun e => (e.2.id, e.2.image)
    kept := recs.filter moved
    progs := (List.range 8).filterMap fun k => let x := s.progSlot k; if x.st = 2 ∧ x.owner = i then some x.image else none
    held := recs.filter fun r => !moved r
    ctrl := look s.nvs.ctrls i
    nvsRegs := (s.regs.filter fun e => e.1 / 2 ^ 26 == 1 + i && R.NVS_C_CFG ≤ e.1 % 2 ^ 26 && e.1 % 2 ^ 26 < R.NVS_BE 0).map fun e => (e.1 % 2 ^ 26, e.2.toNat)
    sas := s.cip.sas.filter fun e => e.2.kind ≤ 2 && e.2.slice == i }

/-- A body section: TYPE, COUNT and LENGTH, then what it carries (R315). -/
def capsuleSection {α : Type} (t count : Nat) (x : α) : List Byte :=
  let b := Config.sectionBytes t x
  leBytes 4 t ++ leBytes 4 count ++ leBytes 8 b.length ++ b

/-- The body of a capsule: the sections of Table 13-7 in the order of their TYPE. -/
def State.capsuleBody (s : State) (i : Nat) : List Byte :=
  let c := s.contents i
  capsuleSection 1 1 (c.entry, (List.range 5).map (s.tierUsed i)) ++ capsuleSection 2 c.rings.length c.rings ++ capsuleSection 3 c.qps.length c.qps ++
    capsuleSection 4 c.keys.length c.keys ++ capsuleSection 5 c.objs.length (c.objs, c.pools, c.tier) ++
    capsuleSection 6 c.ctrl.toList.length (c.ctrl, c.nvsRegs) ++ capsuleSection 7 c.sas.length c.sas ++
    capsuleSection 8 (c.flights.length + c.kept.length) (c.flights, c.kept) ++ capsuleSection 9 c.progs.length c.progs ++
    capsuleSection 10 c.held.length c.held

/-- Bytes of a capsule with a body of n bytes: header, certificate block, body, tag and signature (R315). -/
def capsuleLen (n : Nat) : Nat := 192 + 4 + Config.certChain.length + n + 16 + 96

/-- The prime of the curve P-384 and its coefficient b (FIPS 186; log entry 139). -/
def p384 : Nat := 2 ^ 384 - 2 ^ 128 - 2 ^ 96 + 2 ^ 32 - 1

/-- The coefficient b of P-384. -/
def p384B : Nat := 0xb3312fa7e23ee7e4988e056be3f82d19181d9c6efe8141120314088f5013875ac656398d8a2ed19d2a85c8edd3ec2aef

/-- An uncompressed public key is a valid P-384 point: 0x04, then x and y, big-endian (R315). -/
def keyPoint (key : List Byte) : Bool :=
  let x := beNat (cut key 1 48)
  let y := beNat (cut key 49 48)
  fieldAt key 0 1 == 4 && x < p384 && y < p384 && y * y % p384 == (x * x * x + (p384 - 3) * x + p384B) % p384

/-- A capsule of a slice, whose held flights have ended MIGRATED (R315, Table 13-6): its body is encrypted under the Locket key with the header and the
certificate block as additional data; the nonce and the signature are free values (log entry 15). -/
def State.capsuleOf (s : State) (i : Nat) (target : List Byte) : List Byte :=
  let body := (s.migrateFlights i).capsuleBody i
  let head := [0x4C#8, 0x43#8, 0x4B#8, 0x54#8, 0x01#8, 0#8, 0#8, 0#8] ++ leBytes 16 s.runBaseId ++ leBytes 4 (s.reg R.STR_STREAM_VER) ++ leBytes 2 i ++ leBytes 2 0 ++
    leBytes 8 (capsuleLen body.length) ++ leBytes 4 10 ++
    leBytes 8 (Config.random s.draws).toNat ++ leBytes 4 (Config.random (s.draws + 1)).toNat ++ leBytes 8 s.now ++
    beBytes 48 (sha384 Config.identityKey).toNat ++ beBytes 48 (sha384 (cut target 0 97)).toNat ++ cut target 104 8 ++
    List.replicate 24 0#8
  let pre := head ++ leBytes 4 Config.certChain.length ++ Config.certChain
  let full := pre ++ gcmSeal (s.sig.lkey.getD []) (cut head 44 12) pre body
  full ++ (Config.capsuleSig s.draws full).toList

/-- SAVE (R315). -/
def State.save (s : State) (p : Nat) : State :=
  let i := s.slcSel
  let x := s.slice i
  let sp := Space.pf0 p
  let pf : Func := .pf0 ⟨p % 4, Nat.mod_lt _ (by decide)⟩
  let d := s.mem.read (sp.at s.slcAddr) 32
  let target := s.mem.read (sp.at (fieldAt d 24 8)) 112
  if x.state ≠ .frozen then s.slcEnd 0x8 i stSliceState
  else if !s.canDma pf then s.slcEnd 0x8 i stHostLost
  else if s.sig.lkey.isNone then s.slcEnd 0x8 i stCapsuleAuth
  else if !keyPoint target ∨ fieldAt target 97 7 ≠ 0 then s.slcEnd 0x8 i stCapsuleInvalid
  else if x.saved ∧ target ≠ x.target then s.slcEnd 0x8 i stCapsuleSaved
  else
    let cap := if x.saved then x.capsule else s.capsuleOf i target
    let s := { s with mem := s.mem.write (sp.at (s.slcAddr + 16)) (leBytes 8 cap.length) }
    if fieldAt d 8 8 < cap.length then s.slcEnd 0x8 i stCapsuleSpace
    else
      let s := if x.saved then s else { (s.migrateFlights i) with draws := s.draws + 2 }
      let s := { s with mem := s.mem.write (sp.at (fieldAt d 0 8)) cap }
      (s.setSlice i { s.slice i with saved := true, target := target, capsule := cap }).slcEnd 0x8 i stOk

/-- SAVE (R315). -/
def execSave (m : Master) (s : State) : Res :=
  .next (s.slcGo m (.save m) 0x8 fun s => s.dmaWait (.save m) fun s => s.save (s.cmdPort m))

/-- Restore nonce of a slice, as SLC_RESTORE_NONCE shows it (Table 11-9). -/
def State.restoreNonce (s : State) (i : Nat) : Nat := (Config.random (s.slice i).nonceDraw).toNat

/-- A new restore nonce of a slice (R316). -/
def State.drawNonce (s : State) (i : Nat) : State :=
  { s.setSlice i { s.slice i with nonceDraw := s.draws } with draws := s.draws + 1 }

/-- Check 1 of R316: header, certificate block and LENGTH are well formed. -/
def capsuleHeadOk (h : List Byte) (certLen : Nat) : Bool :=
  cut h 0 5 == [0x4C#8, 0x43#8, 0x4B#8, 0x54#8, 0x01#8] && fieldAt h 5 3 == 0 && fieldAt h 30 2 == 0 && fieldAt h 168 24 == 0 &&
    192 + 4 + certLen + 16 + 96 ≤ fieldAt h 32 8

/-- RESTORE's result, in the order of R316. -/
def State.restoreCheck (s : State) (p i : Nat) (authOk reachable : Bool) (c : Capsule) : Nat :=
  let sp := Space.pf0 p
  let h := s.mem.read (sp.at s.slcAddr) 192
  let certLen := leNat (s.mem.read (sp.at (s.slcAddr + 192)) 4)
  if (s.slice i).state ≠ .free then stSliceState
  else if !s.canDma (.pf0 ⟨p % 4, Nat.mod_lt _ (by decide)⟩) then stHostLost
  else if !capsuleHeadOk h certLen then stCapsuleInvalid
  else if fieldAt h 8 16 ≠ s.runBaseId ∨ fieldAt h 24 4 ≠ s.reg R.STR_STREAM_VER then stCapsuleVersion
  else if beNat (cut h 112 48) ≠ (sha384 Config.identityKey).toNat ∨ fieldAt h 160 8 ≠ s.restoreNonce i then stCapsuleTarget
  else if !authOk ∨ s.sig.lkey.isNone then stCapsuleAuth
  else if s.restoreConflict c then stRestoreConflict
  else if !reachable ∨ !s.restoreRoom i c then stRestoreResources
  else stOk

/-- A ring of a capsule under its new owner: OWNER is the target slice. -/
def Ring.forSlice (r : Ring) (i : Nat) : Ring := { r with cfg := BitVec.ofNat 256 (r.cfg.toNat / 2 ^ 16 * 2 ^ 16 + i) }

/-- The target keeps bytes 0 to 7 of its entry, and takes the capsule's from byte 8 (Table 13-7). -/
def Slice.withCapsule (x : Slice) (c : Capsule) : Slice :=
  { x with cfg := BitVec.ofNat 512 (x.cfg.toNat % 2 ^ 64 + 2 ^ 64 * leNat (cut c.entry 0 56)) }

/-- RESTORE (R316). -/
def State.restore (s : State) (p : Nat) (authOk reachable : Bool) (c : Capsule) : State :=
  let i := s.slcSel
  let r := s.restoreCheck p i authOk reachable c
  let s := if r ≠ stOk then s
    else
      let x := (s.slice i).withCapsule c
      let s := ((s.setSlice i { x with state := .frozen, saved := false, target := [], capsule := [], stateNewel := s.now }).telSee i).restoreInto i c
      let s := { s with rings := c.rings.foldl (fun t (e : Nat × Ring) => put t e.1 (e.2.forSlice i)) s.rings,
                        cqWait := (c.held ++ c.kept).foldl (fun t (e : Nat × Rec) => put t e.1 (lookD t e.1 [] ++ [e.2])) s.cqWait }
      s.sealTouch 5
  (s.drawNonce i).slcEnd 0x9 i r

/-- RESTORE (R316). -/
def execRestore (m : Master) (authOk reachable : Bool) (content : Capsule) (s : State) : Res :=
  .next (s.slcGo m (.restore m authOk reachable content) 0x9 fun s =>
    s.dmaWait (.restore m authOk reachable content) fun s => s.restore (s.cmdPort m) authOk reachable content)

/-! ### Rings (R308) -/

/-- The ring in SLC_RSEL. -/
def State.slcRing (s : State) : Nat := s.getF F.SLC_RSEL_RING

/-- STATE as RING_READ shows it: a ring whose owner takes no work is latched (Tables 13-2 and 13-4). -/
def State.ringState (s : State) (q : Nat) (r : Ring) : Nat :=
  let fw : Bool := match kindService r.kind with
    | none => true
    | some v => s.coreServes v (if v = 7 then r.owner else q)
  if r.st = 1 ∧ (!r.isPf0 && !(s.slice r.owner).takesWork || !fw) then 2 else r.st

/-- The 64 bytes of a ring context (Table 13-4). -/
def State.ringBytes (s : State) (q : Nat) : List Byte :=
  match s.ring q with
  | none => List.replicate 64 0#8
  | some r =>
    leBytes 32 r.cfg.toNat ++ leBytes 2 r.pi ++ leBytes 2 r.fi ++ leBytes 2 r.ci ++ leBytes 1 (s.ringState q r) ++ leBytes 1 0 ++
      leBytes 8 r.counter ++ leBytes 16 0

/-- RING_READ (R308). -/
def execRingRead (m : Master) (s : State) : Res :=
  .next (s.slcGo m (.ringRead m) 0xA fun s => (s.setWords R.SLC_RING 16 (leNat (s.ringBytes s.slcRing))).slcEnd 0xA s.slcSel stOk)

/-- Bytes of the whole ring (Table 13-4). -/
def Ring.bytes (r : Ring) : Nat := r.entries * (if r.kind = 0x03 then 32 else 64)

/-- The window obeys Table 13-4 for RING_BIND (R308). -/
def State.ringOk (s : State) (r : Ring) : Bool :=
  r.field 0 2 / 256 % 128 == 0 && r.field 3 1 < 12 && r.field 14 2 / 2048 % 16 == 0 && r.field 24 8 == 0 &&
    (1 ≤ r.kind && r.kind ≤ 9) && r.base % 4096 == 0 && r.base % r.bytes == 0 &&
    (if r.isPf0 then r.ownerNum < 4 && (r.kind == 3 || r.kind == 8 || r.kind == 9) else r.vector < 64) &&
    (if 4 ≤ r.kind then
      (match s.ring r.cq with
       | some q => q.kind == 3 && q.owner == r.owner
       | none => false)
     else r.cq == 0xFFFF)

/-- Result of RING_BIND (R308). -/
def State.ringBindResult (s : State) (q : Nat) (r : Ring) : Nat :=
  if (s.ring q).isSome then stRingInUse
  else if !s.ringOk r then stBindingInvalid
  else if r.isPf0 then stOk
  else
    let x := s.slice r.owner
    if x.state = .frozen then stSliceFrozen
    else if x.state ≠ .bound ∧ x.state ≠ .active then stSliceState
    else if x.ringQuota ≤ (s.ringsOf r.owner).length then stSliceQuota
    else stOk

/-- RING_BIND (R308). -/
def State.ringBind (s : State) : State :=
  let q := s.slcRing
  let r : Ring := ⟨BitVec.ofNat 256 (s.words R.SLC_RING 8), 0, 0, 0, 1, 0⟩
  let st := s.ringBindResult q r
  (if st = stOk then s.takeRing q r else s).slcEnd 0xB s.slcSel st

/-- RING_BIND (R308). -/
def execRingBind (m : Master) (s : State) : Res := .next (s.slcGo m (.ringBind m) 0xB State.ringBind)

/-- RING_UNBIND (R308). -/
def State.ringUnbind (s : State) : State :=
  let q := s.slcRing
  match s.ring q with
  | none => s.slcEnd 0xC s.slcSel stOk
  | some _ =>
    if s.ringNamed q || s.rings.any (fun e => e.1 != q && 4 ≤ e.2.kind && e.2.kind ≤ 9 && e.2.cq == q) then s.slcEnd 0xC s.slcSel stRingInUse
    else (s.endRing q).slcEnd 0xC s.slcSel stOk

/-- RING_UNBIND (R308). -/
def execRingUnbind (m : Master) (s : State) : Res := .next (s.slcGo m (.ringUnbind m) 0xC State.ringUnbind)

/-! ### The slice page (R306, R307) -/

/-- A DOORBELL write (R307). -/
def State.doorbell (s : State) (i q idx : Nat) : State :=
  let s := s.bump64 R.SLC_CNT_DOORBELL_LO R.SLC_CNT_DOORBELL_HI 1
  match s.ring q with
  | none => s.dbReject i
  | some r =>
    let cur := if r.kind = 3 then r.ci else r.pi
    let step := (idx + 65536 - cur) % 65536
    if r.owner ≠ i ∨ step = 0 ∨ r.entries < step then s.dbReject i
    else if r.kind = 3 then (s.setRing q { r with ci := idx }).drainCq q
    else s.setRing q { r with pi := idx }

/-- DOORBELL (R307). -/
def execDoorbell (port : Fin 4) (half : Fin 2) (slice : Fin 256) (ring index : BitVec 16) (stores : List (DWord × Byte)) (s : State) : Res :=
  .next ((s.hostStores (s.slice slice).space stores).pageWrite port half slice (.doorbell port half slice ring index []) fun s =>
    s.doorbell slice ring.toNat index.toNat)

/-- The engine's answer to a cancel (R96, R119, R157, R183, R202, R306). -/
def State.sliceCancelEngine (s : State) (i eng tag : Nat) : CancelResult × State :=
  if eng = 4 then s.frameCancelTag i tag
  else if eng = 5 then s.rteCancelTag i tag
  else if eng = 6 then s.galCancelTag i tag
  else if eng = 8 then s.plcCancelTag i tag
  else s.fltCancelTag i tag

/-- A CANCEL_GO write (R306). -/
def State.sliceCancel (s : State) (i tag eng : Nat) : State :=
  let (r, s) := if [4, 5, 6, 8, 11].contains eng then s.sliceCancelEngine i eng tag else (.notFound, s)
  let x := s.slice i
  s.setSlice i { x with cancelTag := tag, cancelResult := r.code, cancelSeq := (x.cancelSeq + 1) % 256 }

/-- SLICE_CANCEL (R306). -/
def execSliceCancel (port : Fin 4) (half : Fin 2) (slice : Fin 256) (tag : Word) (engine : Byte) (s : State) : Res :=
  .next (s.pageWrite port half slice (.sliceCancel port half slice tag engine) fun s => s.sliceCancel slice tag.toNat engine.toNat)

/-- 1,000 ms pass while a record waits for room in its ring: CQ_FULL (R309). -/
def State.cqTimeout (s : State) (q : Nat) : State :=
  match s.ring q with
  | none => s
  | some r =>
    if !(s.waiting q).isEmpty ∧ r.cqFull ∧ !r.isPf0 ∧ (s.slice r.owner).state = .active then (s.ripe (.ring q) (10 ^ 9)).faultSlice r.owner .cqFull else s

/-- COMPLETION_RING_FULL_TIMEOUT (R309). -/
def execCompletionRingFullTimeout (ring : BitVec 16) (s : State) : Res := .next (s.cqTimeout ring.toNat)

end Sys2Proof.Machine
end

