-- ==== Sys2Proof/Machine/Halls.lean ====
section
/-! DEFINITION. Halls under a restream: when one is quiesced (Table 02-8), and what a SWITCH with FORCE_CLEAR clears (R365, Table 16-9). -/

namespace Sys2Proof.Machine

/-- Every request that the device has issued has completed (Table 02-8, H0). -/
def State.dmaQuiet (s : State) : Bool :=
  !(s.gal.cmds.any fun c => !c.chunks.isEmpty && c.streams.any (·.space.overPcie)) && s.rte.qps.all fun e => e.2.pushing.isEmpty

/-- The clusters of a Gallery hall have finished the commands that they run (Table 02-8). -/
def State.clustersQuiet (s : State) (h : Nat) : Bool :=
  !s.gal.cmds.any fun c => c.chunks.any (fun x => galHall x.1 == h) ||
    (c.open' && (List.range 16).any fun cl => galHall cl == h && bitAt c.clusters cl)

/-- A hall is quiesced (Table 02-8). What H1 to H5 and H10 finish is one step of the model. -/
def State.hallQuiet (s : State) (h : Nat) : Bool :=
  match h with
  | 0 => s.dmaQuiet
  | 6 => s.clustersQuiet 6
  | 7 => s.clustersQuiet 7
  | 8 => s.plc.moves.all (·.draining)
  | 9 => s.nvs.ctrls.all fun e => e.2.cmds.isEmpty
  | 11 => !s.flights.any fun e => e.2.active
  | _ => true

/-- A slice reset of every slice that is not FREE (Table 16-9). -/
def State.resetAll (s : State) (sel : Nat → Bool) : State := (List.range 256).foldl (fun s i => if sel i then s.resetSlice i else s) s

/-- A slice is FREE with an empty entry, and a command that waits for it is done. -/
def State.forceFree (s : State) (i : Nat) : State :=
  let x := s.slice i
  if x.state = .free then s
  else
    let s := s.releaseT1 i
    let s := s.setSlice i { x with cfg := 0, state := .free, cause := .none, saved := false, target := [], capsule := [], stateNewel := s.now }
    (s.slcEndIf 0x5 i stOk).slcEndIf 0x4 i stOk

/-- Operations of some engines end without completion. -/
def State.endSrc (s : State) (srcs : List Nat) : State :=
  let s := { s with ops := s.ops.filter fun o => !srcs.contains o.src, clasps := s.clasps.filter fun c => match s.op c.op with
    | some o => !srcs.contains o.src
    | none => false }
  s.plcSweep

/-- Registers that show what a hall reset keeps (Table 16-8; log entry 121): links and functions, PTP, backend endpoints, an evacuation, and the
pending bits of buffered registers. -/
def hallKeeps (a : Nat) : Bool :=
  [R.HST_APPLY_STATUS, R.GAL_APPLY_STATUS, R.FLT_APPLY_STATUS, R.RTE_APPLY_STATUS, R.PLC_APPLY_STATUS, R.PKT_APPLY_STATUS, R.TXS_APPLY_STATUS,
    R.NVS_APPLY_STATUS, R.CIP_APPLY_STATUS, R.FLT_PTP_STATUS, R.FLT_PTP_OFFSET, R.FLT_NEWEL_ADJ, R.PLC_EVAC, R.PLC_EVAC_STATUS].contains a ||
  ((List.range 4).any fun p => [R.HST_LINK p, R.HST_FUNC p, R.HST_CTO p, R.HST_ATS p].contains a) || (List.range 16).any fun k => a == R.NVS_BE k

/-- The non-Stream fields of a block's registers return to their Reset values, entries behind selectors included (R365). -/
def State.hallRegs (s : State) (b : Nat) : State :=
  { s with regs := s.regs.filterMap fun e =>
      if blockOf (e.1 % 2 ^ 26) = some b ∧ !hallKeeps (e.1 % 2 ^ 26) then
        let k := ((rowOf e.1).map fun r => r.mask (·.stream)).getD 0
        if k = 0 then none else some (e.1, (e.2 &&& k) ||| (BitVec.ofNat 32 (resetOf e.1) &&& ~~~k))
      else some e }

/-- The runtime state of a hall cleared by a SWITCH with FORCE_CLEAR, besides its registers (R31, Table 16-9). -/
def State.hallState (s : State) (h : Nat) : State :=
  match h with
  | 0 =>
    let s := s.resetAll fun _ => true
    let s := { s with links := s.links.map fun (e : Nat × Link) => (e.1, { e.2 with quarantined := [] }) }
    (List.range 4).foldl (fun s p =>
      if s.irqMethod (Fin.ofNat 4 p) = .msix then s
      else { s with msix := s.msix.map fun (e : Nat × MsgEntry) => if e.1 / 2048 = p then (e.1, { e.2 with pending := false }) else e }.intxSettle
        (Fin.ofNat 4 p)) s
  | 1 =>
    let s := s.resetAll fun _ => true
    let s := (List.range 256).foldl State.forceFree s
    { (s.rings.map (·.1)).foldl State.endRing s with slcCmd := none }
  | 2 | 3 => { s with pp := { s.pp with meters := [], slow := [], reasm := [], ingress := [], tload := none, commit := false, trees := [] } }
  | 4 =>
    let s := s.endSrc [0x04]
    { s with pp := { s.pp with queueB := [], sliceB := [], queues := [], lastOwner := [], deficit := [], turn := [], txWait := [], credit := [] } }
  | 5 =>
    let s := s.resetAll fun i => s.rte.qps.any (fun e => e.2.slice == i) || s.rte.keys.any fun e => e.2.slice == i
    { s with rte := { s.rte with qps := [], keys := [], miss := [] } }
  | 6 | 7 =>
    let s := s.endSrc [0x06]
    let s := s.galDrop fun _ => true
    { s with gal := { s.gal with held := [], heads := [], slots := [] } }
  | 8 =>
    let s := s.endSrc [0x08]
    let s := { s with plc := { s.plc with maps := [], moves := [], cands := [], waits := [], fetches := [] } }
    (s.plc.objs.map (·.1)).foldl State.freeObj s
  | 9 =>
    let gone := s.nvs.ctrls.flatMap fun e => e.2.cqs.map (·.2) ++ e.2.sqs.map (·.2.ring)
    { s with nvs := s.nvSurvive, rings := s.rings.filter fun e => !gone.contains e.1 }
  | 10 =>
    { s with cip := { s.cip with sas := [], removeCmd := none, hold := [], job := none } }
  | 11 => (s.flights.map (·.1)).foldl State.unload s
  | _ => s

/-- A hall reset (R31, R365, Tables 16-8 and 16-9): the hall's runtime state, and the non-Stream fields of its blocks. -/
def State.hallClear (s : State) (h : Nat) : State := (blocksOf h).foldl State.hallRegs (s.hallState h)

end Sys2Proof.Machine
end

