-- ==== Sys2Proof/Machine/Lease.lean ====
section
/-! DEFINITION. The driver version handshake and the driver lease (R311, R312, R330, R274). -/

namespace Sys2Proof.Machine

/-- A port-bound write: taken from PF0 of the port and from steward machine mode, refused with KIND 4 from every other master
(R274). -/
def State.portBound (s : State) (m : Master) (p : Fin 4) (addr : Nat) (c : Instr) (act : State → State) : State :=
  s.openWrite m addr c fun s => if m = .pf0 p ∨ m = .stewardMachine then act s else s.violate m .portBound addr

/-- The lease stops without expiry: an orderly unload (R311). -/
def State.drvUnload (s : State) (p : Nat) : State := (s.setF (F.DEV_LEASE_RUNNING p) 0).faultPort p .unload

/-- A write to DEV_DRV_HELLO_p (R330): a nonzero version waits for judgment; 0 is an orderly unload. -/
def State.helloWrite (s : State) (p : Nat) (major minor : Nat) : State :=
  let s := s.setFs [(F.DEV_DRV_HELLO_MAJOR p, major), (F.DEV_DRV_HELLO_MINOR p, minor), (F.DEV_DRV_HELLO_ANSWERED p, 0)]
  if major = 0 ∧ minor = 0 then ((s.setF (F.DEV_DRV_HELLO_RESULT p) 0).drvUnload p).driverCheck else s

/-- DEV_DRV_HELLO_WRITE (R330). -/
def execDevDrvHelloWrite (m : Master) (port : Fin 4) (major minor : Byte) (s : State) : Res :=
  .next (s.portBound m port (R.DEV_DRV_HELLO port) (.devDrvHelloWrite m port major minor) fun s => s.helloWrite port major.toNat minor.toNat)

/-- A version lies in DEV_DRV_WINDOW, comparing MAJOR first and MINOR second (R330). -/
def State.inWindow (s : State) (v : Nat) : Bool :=
  s.reg R.DEV_DRV_WINDOW / 65536 ≤ v && v ≤ s.reg R.DEV_DRV_WINDOW % 65536

/-- Firmware judges a version that waits (R330). -/
def State.helloJudge (s : State) (p : Nat) : State :=
  let v := s.getF (F.DEV_DRV_HELLO_MAJOR p) * 256 + s.getF (F.DEV_DRV_HELLO_MINOR p)
  if !s.dev.firmware ∨ !s.dev.st.live ∨ s.dev.st = .fatal ∨ v = 0 ∨ s.getF (F.DEV_DRV_HELLO_ANSWERED p) = 1 ∨ !s.coreServes 0 0 then s
  else if s.inWindow v then
    (s.setFs [(F.DEV_DRV_HELLO_RESULT p, 0), (F.DEV_DRV_HELLO_ANSWERED p, 1)]).driverCheck
  else
    let run := s.getF (F.DEV_LEASE_RUNNING p) = 1
    let s := (s.setFs [(F.DEV_DRV_HELLO_RESULT p, 0x31), (F.DEV_DRV_HELLO_ANSWERED p, 1)]).event F.STW_STATUS_HELLO_REFUSED
    (if run then s.drvUnload p else s).driverCheck

/-- HELLO_JUDGE (R330). -/
def execHelloJudge (port : Fin 4) (s : State) : Res := .next (s.helloJudge port)

/-- Lease limit in ms as it applies (Table 11-5). -/
def State.leaseLimit (s : State) (p : Nat) : Nat :=
  let v := s.getF (F.DEV_LEASE_LIMIT_MS p)
  if 100 ≤ v ∧ v ≤ 60000 then v else 60000

/-- RENEW (R311): the lease starts once a version is accepted, and every RENEW restarts its timer. -/
def State.leaseRenew (s : State) (p : Nat) : State :=
  if s.helloAccepted p || s.getF (F.DEV_LEASE_RUNNING p) == 1 then
    { s.setFs [(F.DEV_LEASE_RUNNING p, 1), (F.DEV_LEASE_EXPIRED p, 0)] with leaseMs := put s.leaseMs p (s.leaseLimit p) }.begin (.lease p)
  else s

/-- LEASE_RENEW (R311). -/
def execLeaseRenew (m : Master) (port : Fin 4) (s : State) : Res :=
  .next (s.portBound m port (R.DEV_LEASE port) (.leaseRenew m port) fun s => s.leaseRenew port)

/-- The lease runs out (R311): every ACTIVE and FROZEN slice of the port is FAULTED. -/
def State.leaseExpire (s : State) (p : Nat) : State :=
  if s.getF (F.DEV_LEASE_RUNNING p) = 1 then
    ((s.ripe (.lease p) (10 ^ 6 * lookD s.leaseMs p 0)).setFs [(F.DEV_LEASE_RUNNING p, 0), (F.DEV_LEASE_EXPIRED p, 1)]).faultPort p .lease
  else s

/-- LEASE_EXPIRY (R311). -/
def execLeaseExpiry (port : Fin 4) (s : State) : Res := .next (s.leaseExpire port)

end Sys2Proof.Machine
end

