-- ==== Sys2Proof/Machine/Packet.lean ====
section
/-! DEFINITION. The packet path's commands: frames in and out (R188 to R206), tree commits and loads (R207), and cancels (R202). -/

namespace Sys2Proof.Machine

/-- FRAME_RECEIVE (R188, R198): the frame without its FCS, with the RDMA packet that it carries where it carries one. -/
def execFrameReceive (port : Fin 16) (bytes : List Byte) (pkt : Option Pkt) (s : State) : Res :=
  .next (if s.answers 12 ∧ s.netUp port then s.frameArrive ⟨port, bytes, pkt, false, false, false, bytes.length + 4⟩ else s)

/-- SLOWPATH_FRAME (R193). -/
def execSlowpathFrame (wing : Fin 4) (s : State) : Res := .next (s.slowFrame wing)

/-- REASM_TIMEOUT (R193): the oldest datagram of the wing is incomplete after REASM_MS. -/
def State.reasmExpire (s : State) (w : Nat) : State :=
  match s.pp.reasm.find? (·.wing == w) with
  | none => s
  | some r =>
    let s := s.upTo (r.start + 10 ^ 6 * s.getF F.PKT_SLOW_REASM_MS)
    ({ s with pp := { s.pp with reasm := s.pp.reasm.erase r } }.bump F.PKT_CNT_REASM_DROP).chargeRx none r.len

/-- REASM_TIMEOUT (R193). -/
def execReasmTimeout (wing : Fin 4) (s : State) : Res := .next (s.reasmExpire wing)

/-- A fetched descriptor of a frame transmit ring (R200). -/
def State.sendFrame (s : State) (o : Op) : State :=
  if !sendFrameOk (0x8000 ≤ o.owner) o.desc then s.frameInvalid o
  else if o.owner < 0x8000 ∧ !bitAt (s.slice o.owner).netGrant (txPort o.desc) then s.txEnd o stRights 0 0
  else s.txTry o

/-- SEND_FRAME (R200 to R203). -/
def execSendFrame (ring : BitVec 16) (d : Desc) (s : State) : Res :=
  .next (match s.fetch ring.toNat 8 (Desc.field d 0 4) d with
    | none => s
    | some (o, s) => s.sendFrame o)

/-- POST_BUFFER (R200, R201): the buffer waits for its frame. -/
def execPostBuffer (ring : BitVec 16) (d : Desc) (s : State) : Res :=
  .next (match s.fetch ring.toNat 9 (Desc.field d 0 4) d with
    | none => s
    | some (o, s) => if postBufferOk d then s else s.frameInvalid o)

/-- TX_STALLED_TIMEOUT (R203): time in which the 46 V stage holds a queue, any but queue 0, does not count. -/
def execTxStalledTimeout (op : Nat) (s : State) : Res :=
  .next (match s.op op with
    | none => s
    | some o =>
      if !s.pp.txWait.contains (op, true) ∨ s.shedAt 4 ∧ txQ o.desc ≠ 0 then s
      else
        let s := s.ripe (.op op) (10 ^ 8)
        ({ s with pp := { s.pp with txWait := s.pp.txWait.filter (·.1 != op) } }.txEnd o stTxStalled 0 0).txKick)

/-- EGRESS_SELECT (R204). -/
def execEgressSelect (port : Fin 16) (s : State) : Res := .next (s.egress port)

/-- Value that a register has once its pending write applies. -/
def State.prospect (s : State) (a : Nat) : Nat :=
  match look s.pend a with
  | none => s.reg a
  | some (m, v) => ((BitVec.ofNat 32 (s.reg a) &&& ~~~m) ||| (v &&& m)).toNat

/-- Extent of a tree: area, first unit and units, from the values of its BASE and SIZE. -/
def treeExtent (base size : Nat) : Nat × Nat × Nat := (base / 2 ^ 31, base % 2 ^ 31, size)

/-- Two extents overlap. -/
def extentsMeet (a b : Nat × Nat × Nat) : Bool := a.1 == b.1 && decide (a.2.1 < b.2.1 + b.2.2) && decide (b.2.1 < a.2.1 + a.2.2)

/-- Some pair of a list of extents overlaps. -/
def anyMeet : List (Nat × Nat × Nat) → Bool
  | [] => false
  | x :: xs => xs.any (extentsMeet x) || anyMeet xs

/-- The trees that a commit would enable may run (R207). -/
def State.treesOk (s : State) : Bool :=
  let on := (List.range 8).filter fun t => bitAt (s.prospect (R.PKT_TREE_CFG t)) 31
  let ext := on.map fun t => treeExtent (s.prospect (R.PKT_TREE_BASE t)) (s.prospect (R.PKT_TREE_SIZE t))
  decide ((on.map fun t => s.prospect (R.PKT_TREE_CFG t) % 2 ^ 21).sum ≤ 1048576) &&
    ext.all (fun e => decide (e.2.1 + e.2.2 ≤ s.reg (R.PKT_AREA_SIZE e.1))) && !anyMeet ext

/-- TREE_COMMIT (R207). -/
def execTreeCommit (m : Master) (s : State) : Res :=
  .next (s.openWrite m R.PKT_TREE_COMMIT (.treeCommit m) fun s =>
    if s.treesOk then { s with pp := { s.pp with commit := true, trees := s.pend.filter fun e => applyOf e.1 == some F.PKT_APPLY_STATUS_TREES } } else s.event F.PKT_STATUS_COMMIT_REFUSED)

/-- Extents of the active trees. -/
def State.activeExtents (s : State) : List (Nat × Nat × Nat) :=
  ((List.range 8).filter fun t => s.getF (F.PKT_TREE_CFG_EN t) == 1).map fun t => treeExtent (s.reg (R.PKT_TREE_BASE t)) (s.reg (R.PKT_TREE_SIZE t))

/-- A tree load ends with a result (Table 08-12). -/
def State.tloadEnd (s : State) (r : Nat) : State := (s.eventV F.PKT_TLOAD_STATUS_RESULT r).event F.PKT_STATUS_TLOAD_DONE

/-- A tree load starts or is refused (R207): BUSY, RANGE or IN_USE. -/
def State.treeLoad (s : State) (port : Nat) : State :=
  let len := s.reg R.PKT_TLOAD_LEN
  let e := treeExtent (s.reg R.PKT_TLOAD_DST) (len / 32)
  if s.pp.tload.isSome then s.eventV F.PKT_TLOAD_STATUS_RESULT 1
  else if len % 32 ≠ 0 ∨ 2 ^ 26 < len ∨ s.reg (R.PKT_AREA_SIZE e.1) < e.2.1 + e.2.2 then s.tloadEnd 3
  else if s.activeExtents.any (extentsMeet e) then s.tloadEnd 2
  else { s.setF F.PKT_TLOAD_STATUS_ACTIVE 1 with pp := { s.pp with
          tload := some ⟨e.1, e.2.1, len, s.reg R.PKT_TLOAD_SRC_LO + 2 ^ 32 * s.reg R.PKT_TLOAD_SRC_HI, port⟩ } }

/-- TREE_LOAD (R207). -/
def execTreeLoad (m : Master) (s : State) : Res :=
  .next (s.guardWrite m R.PKT_TLOAD_CTRL (.treeLoad m) fun s => s.treeLoad (s.cmdPort m))

/-- TREE_LOAD_DONE (R207): the load has read PF0 memory, or could not (FETCH_FAULT). -/
def execTreeLoadDone (s : State) : Res :=
  .next (match s.pp.tload with
    | none => s
    | some t =>
      if s.hallPaused 0 then s else
      let s := { s.setF F.PKT_TLOAD_STATUS_ACTIVE 0 with pp := { s.pp with tload := none } }
      if !s.canDma (.pf0 ⟨t.port % 4, Nat.mod_lt _ (by decide)⟩) then s.tloadEnd 4
      else
        let bs := s.mem.read ((Space.pf0 t.port).at t.src) t.len
        { s with mem := s.mem.write ((Space.treeArea t.area).at (32 * t.unit)) bs }.tloadEnd 0)

/-- TXS_CANCEL (R202). -/
def execTxsCancel (m : Master) (slice : BitVec 16) (s : State) : Res :=
  .next (s.openWrite m R.TXS_CANCEL_CTRL (.txsCancel m slice) fun s =>
    let (r, s) := (s.setF F.TXS_CANCEL_CTRL_SLICE slice.toNat).frameCancelTag slice.toNat (s.reg R.TXS_CANCEL_TAG)
    s.eventV F.TXS_CANCEL_RESULT_RESULT r.code)

end Sys2Proof.Machine
end

