-- ==== Sys2Proof/Machine/HstOps.lean ====
section
/-! DEFINITION. What the host endpoint does when a link, a function or an access goes away: completion timeouts and quarantined tags (R292, R293),
failed accesses (R289, Table 12-6), Bus Master Enable (R294), FLR (R295) and lost links (R296, R297). -/

namespace Sys2Proof.Machine

/-! ### Links -/

/-- A link before anything is known of it: PERST# asserted, REFCLK running. -/
def Link.reset : Link := ⟨[], [], true, true, true⟩

/-- Request state of a link, counted as 2·port + half. -/
def State.link (s : State) (l : Nat) : Link := lookD s.links l Link.reset

/-- Request state of a link set. -/
def State.setLink (s : State) (l : Nat) (x : Link) : State := { s with links := put s.links l x }

/-- Link of a function. -/
def Func.link (f : Func) : Nat := 2 * f.port + f.half

/-- The functions of a link (R276). -/
def linkFns (p : Fin 4) (h : Fin 2) : List Func := if h = 0 then [.pf0 p, .pf1 p h] else [.pf1 p h]

/-- Function 0 of a link. -/
def linkFn0 (p : Fin 4) (h : Fin 2) : Func := if h = 0 then .pf0 p else .pf1 p h

/-- Completion timeout in ns of a Device Control 2 value (Table 12-7). -/
def ctoNs : Nat → Nat
  | 1 => 100 * 10 ^ 3
  | 2 => 10 * 10 ^ 6
  | 6 => 65 * 10 ^ 6
  | 9 => 260 * 10 ^ 6
  | 10 => 10 ^ 9
  | 13 => 4 * 10 ^ 9
  | 14 => 17 * 10 ^ 9
  | _ => 16 * 10 ^ 6

/-- A request timed out (R292, R293): counted, shown and reported, and its tag quarantined for twice the timeout in force. -/
def State.tagLost (s : State) (f : Func) (tag : Nat) : State :=
  let x := s.link f.link
  let s := s.setLink f.link { x with quarantined := put x.quarantined tag (s.up + 2 * ctoNs (s.getF f.ctoF)) }
  ((s.bump (F.HST_CNT_CTO_COUNT f.port)).event F.HST_STATUS_CTO).send (.aerPcie f 1)

/-- Invalidations outstanding on a port shown (Table 12-11). -/
def State.invalShow (s : State) (p : Nat) : State :=
  s.setF (F.HST_ATS_INVAL_PENDING p) ((s.link (2 * p)).invals.length + (s.link (2 * p + 1)).invals.length)

/-- A configuration request waits for RESUME while H0 is paused (Table 02-8, Table 12-8), and is lost on a link that is down. -/
def State.cfgWrite (s : State) (f : Func) (c : Instr) (act : State → State) : State :=
  if s.hallPaused 0 then { s with held := s.held ++ [c] } else if s.linkUp f.port f.half && s.getF f.flrF == 0 then act s else s

/-! ### Failed accesses (R289, Table 12-6) -/

/-- The outcome of an access made for a descriptor as it runs: STREAM_FAULT, IMAGE_FETCH, POOL_FAULT, or RIGHTS with the QP in ERROR. -/
def State.fetchFail (s : State) (q : Nat) (d : Desc) (addr : Nat) : State :=
  match s.ring q with
  | none => s
  | some r =>
    if r.kind = 1 then
      (match s.sqOf q with
        | some (n, _) => (match s.fetch q 1 (Desc.field d 0 4) d with
          | some (o, s) => (s.qpError n (some (o.id, stRights))).hostFault o.owner stRights addr
          | none => s)
        | none => s)
    else if r.kind = 5 then
      (if !s.galReady q then s else match s.fetch q 5 (Desc.tag d) d with
        | some (o, t) => if Desc.bits d 41 41 = 1 ∧ !t.galFront o ∨ !t.galReads o then s else
          ((t.galDispatch o true).galKick).hostFault o.owner stStreamFault addr
        | none => s)
    else if r.kind = 6 then
      (match s.fetch q 6 (Desc.tag d) d with
        | some (o, s) => (s.fltRefuse o stImageFetch 0 0 0xFFFF).hostFault o.owner stImageFetch addr
        | none => s)
    else if r.kind = 7 then
      (match s.fetch q 7 (Desc.tag d) d with
        | some (o, s) => ((s.plcEnd o stPoolFault 0 0).plcKick).hostFault o.owner stPoolFault addr
        | none => s)
    else s

/-- A storage command whose data transfer fails ends with Data Transfer Error, once its backend commands have ended. -/
def State.nvmeFail (s : State) (c queue cid addr : Nat) : State :=
  match s.nvCmd c queue cid with
  | none => s
  | some m =>
    let s := if m.phase = .run then (s.cmdFail c queue cid nvTransfer).nvSettle c queue cid else s.nvEnd c queue cid nvTransfer 0
    s.hostFault c 0 addr

/-- As `nvmeFail`, for a command as it is fetched. -/
def State.nvmeFetchFail (s : State) (c queue : Nat) (d : Desc) (addr : Nat) : State :=
  let x := s.ctrl c
  match (look x.sqs queue).bind fun q => (s.ring q.ring).map fun r => (q.ring, r) with
  | none => s
  | some (k, r) =>
    if !x.rdy || !x.en || r.fi == r.pi || !(s.slice c).takesWork || !s.ctrlServes c || !s.canDma (s.slice c).fn then s
    else
      let s := s.setRing k { r with fi := (r.fi + 1) % max 1 r.entries }
      (s.cqePost c queue (sqeCid d) nvTransfer 0).hostFault c 0 addr

/-- A PF0 ring stops (Table 12-6): STATE 4, its operations end without completion, its waiting records are counted lost, and RING_STOPPED is
reported. -/
def State.stopRing (s : State) (q : Nat) : State :=
  match s.ring q with
  | none => s
  | some r =>
    if !r.isPf0 ∨ r.st = 4 then s
    else
      let s := s.bumpBy F.ERR_CNT_LOST_COUNT (s.waiting q).length
      let s := (s.clearRing q).setRing q { r with st := 4 }
      (s.event F.HST_STATUS_ACCESS_FAULT).report 0x20A 4 0xFFFF 0 (r.ownerNum % 4 * 65536 + q)

/-- A log copy ends with a result, a first sequence number and the records written (R333). -/
def State.logEnd (s : State) (result first n : Nat) : State :=
  ((({ s with stw := { s.stw with copy := none } }.setFs [(F.STW_LOG_RESULT_ACTIVE, 0), (F.STW_LOG_FIRST_SEQ, first),
    (F.STW_LOG_COPIED_RECORDS, n)]).eventV F.STW_LOG_RESULT_RESULT result).event F.STW_STATUS_LOG_DONE)

/-- The outcome of a failed access (R289, Table 12-6). An operation whose own status or RESULT is neither a shared code nor one of an engine's range
leaves STATUS 0 in the error record (R10, Table 18-3; log entry 122). -/
def State.accessFail (s : State) (a : HostAccess) (addr : Nat) : State :=
  match a with
  | .gallery op => (match s.galOf op with
    | some c => (((s.galFault c stStreamFault).galKick).flightAbsorb).hostFault c.slice stStreamFault addr
    | none => s)
  | .flightStep k j => (match s.flight k with
    | some f => if f.active ∧ (f.stepSt j = .running true ∨ f.stepSt j = .running false) then
        (s.stepFault k stStreamFault).hostFault f.slice stStreamFault addr else s
    | none => s)
  | .rteLocal op => (match s.op op with
    | some o => if o.src = 0x05 ∧ o.done.isNone ∧ (s.sqOf o.ring).isSome then
        (s.qpError (s.wqeQpn o) (some (op, stRights))).hostFault o.owner stRights addr else s
    | none => s)
  | .rteResponder n => (match s.qp n with
    | some q => if 2 ≤ q.st ∧ q.st < 5 then (s.respFail n q.v stRights).hostFault q.slice stRights addr else s
    | none => s)
  | .nvme c queue cid => s.nvmeFail c queue cid addr
  | .placement op => (match s.op op with
    | some o => if o.src = 0x08 ∧ (s.waitOf op).isNone then ((s.plcEnd o stPoolFault 0 0).plcKick).hostFault o.owner stPoolFault addr else s
    | none => s)
  | .slice i => if (s.slice i).state = .active then (s.hostFault i 0 addr).faultSlice i .ringAccess else s
  | .pf0Ring q => s.stopRing q
  | .fetched q d => s.fetchFail q d addr
  | .nvmeFetched c queue d => s.nvmeFetchFail c queue d addr
  | .clasp op => (match s.waitOf op with
    | some c => if c.source = 0 then s else (s.waitEnd c stClaspFault).hostFault c.slice stClaspFault addr
    | none => s)
  | .logCopy => (match s.stw.copy with
    | some c => (s.logEnd 3 c.start 0).hostFault 0xFFFF 0 addr
    | none => s)
  | .errRecord => { s.event F.HST_STATUS_ACCESS_FAULT with errFail := s.errFail + 1 }
  | .strImage => if s.str.cmd.isSome ∧ s.strPhase = 1 then (s.strDone .fetchFault).hostFault 0xFFFF 0 addr else s
  | .treeLoad => if s.pp.tload.isSome then
      ({ s.setF F.PKT_TLOAD_STATUS_ACTIVE 0 with pp := { s.pp with tload := none } }.tloadEnd 4).hostFault 0xFFFF 0 addr else s
  | .cvuJob => if s.cip.job.isSome then
      ({ s.setF F.CVU_JOB_STATUS_ACTIVE 0 with cip := { s.cip with job := none } }.eventV F.CVU_JOB_STATUS_RESULT 2).hostFault 0xFFFF 0 addr else s

/-! ### Bus Master Enable (R294) -/

/-- Slices of a link that are not FREE. -/
def State.slicesOn (s : State) (p h : Nat) : List Nat :=
  (List.range 256).filter fun i => (s.slice i).state != .free && (s.slice i).port == p && (s.slice i).half == h

/-- A function stops issuing requests (R294): controllers of its slices take a controller reset, and a running STR command of its port ends with
FETCH_FAULT. Other operations end when their engine next serves them. -/
def State.dmaOff (s : State) (f : Func) : State :=
  match f with
  | .pf0 p => s.strAbort (· == p.val) .fetchFault
  | .pf1 p h => (s.slicesOn p h).foldl State.nvReset s

/-- A function may issue requests again (R294): records go out in ring order, and then the interrupts that are pending. -/
def State.dmaOn (s : State) (f : Func) : State :=
  if !s.canDma f then s
  else match f with
  | .pf0 p => ((s.ringsOf (0x8000 + p)).foldl State.drainCq s).msixDrain p
  | .pf1 p h =>
    let l := s.slicesOn p h
    let s := l.foldl (fun s i => ((s.ringsOf i).foldl State.drainCq s).nvDrain i) s
    l.foldl State.sliceMsgDrain s

/-! ### FLR, Hot Reset and lost links (R295 to R297) -/

/-- A function's configuration space at its reset values (R295). -/
def State.cfgReset (s : State) (f : Func) : State :=
  let s := { s with fns := drop s.fns f.key }
  let s := (s.setF f.bmeF 0).setF f.ctoF 0
  match f with
  | .pf0 p => s.setF (F.HST_FUNC_PF0_IRQ p) (s.irqMethod p).code
  | .pf1 _ _ => match f.atsF with
    | some a => s.setF a 0
    | none => s

/-- What an FLR of PF0 does besides its configuration (R295): vectors masked, INTx deasserted, its rings unbound, the error ring off if it is on this
port, and the driver version forgotten. -/
def State.pf0Effects (s : State) (p : Fin 4) : State :=
  let s := { s with msix := s.msix.filter fun e => e.1 / 2048 != p.val }
  let s := if s.intx.contains p.val then { s.send (.deassertIntA p) with intx := s.intx.filter (· != p.val) } else s
  let s := (s.ringsOf (0x8000 + p)).foldl State.endRing s
  let s := if s.errPort = p then s.setF F.ERR_RING_CTRL_EN 0 else s
  ((s.setReg (R.DEV_DRV_HELLO p) 0).driverCheck).strAbort (· == p.val) .fetchFault

/-- An FLR begins (R295): the function is quiet, its configuration is reset, and its slices or rings with it. -/
def State.flr (s : State) (f : Func) : State :=
  let s := (s.cfgReset f).setF f.flrF 1
  match f with
  | .pf0 p => s.pf0Effects p
  | .pf1 p _ => (List.range 256).foldl (fun s i => if (s.slice i).port == p.val then s.resetSlice i else s) s

/-- A link is lost (R297): its requests time out, its slices enter FAULTED, PF0 is treated as by an FLR, and LINK_LOST is reported. -/
def State.linkLost (s : State) (p : Fin 4) (h : Fin 2) (tags : List (Func × Nat)) : State :=
  if s.getF (linkStateF p h) = 0 then s
  else
    let s := (tags.filter fun t => t.1.link == 2 * p.val + h.val).foldl (fun s t => s.tagLost t.1 t.2) s
    let s := s.setFs [(linkStateF p h, 0), (linkWidthF p h, 0), (linkRateF p h, 0), (linkFlitF p h, 0), (linkLpmF p h, 3)]
    let s := (s.setLink (2 * p.val + h.val) { s.link (2 * p.val + h.val) with invals := [] }).invalShow p
    let s := (linkFns p h).foldl State.cfgReset s
    let s := (s.slicesOn p h).foldl (fun s i =>
      let x := (s.slice i).state
      if x = .bound ∨ x = .active ∨ x = .frozen then s.faultSlice i .portLost else s) s
    let s := if h = 0 then s.pf0Effects p else s
    (s.event F.HST_STATUS_LINK).report 0x203 4 0xFFFF 0 (p.val * 256 + h.val)

/-- The port reset (R296, Table 16-8): the port's links and HST fields at their reset values. -/
def State.portReset (s : State) (p : Fin 4) : State :=
  let s := [R.HST_LINK p, R.HST_FUNC p, R.HST_LPM p, R.HST_CTO p, R.HST_ATS p, R.HST_CNT_CTO p, R.HST_CNT_UNEXP p, R.HST_CNT_DISCARD p,
    R.HST_CNT_INVAL p].foldl (fun (s : State) a => s.setReg a (resetOf a)) s
  let s := { s with pend := drop s.pend (R.HST_LPM p) }
  let s := if s.pend.any (fun e => applyOf e.1 == some F.HST_APPLY_STATUS_LPM) then s else s.setF F.HST_APPLY_STATUS_LPM 0
  (s.setLink (2 * p) { s.link (2 * p) with quarantined := [], invals := [] }).setLink (2 * p + 1) { s.link (2 * p + 1) with
    quarantined := [], invals := [] }

/-- PERST# of a port asserted. -/
def State.perstOn (s : State) (p : Nat) : State := s.setLink (2 * p) { s.link (2 * p) with perst := true }

/-- PERST# of a port deasserted with REFCLK stable: what its links train to is checked anew (R298). -/
def State.perstOff (s : State) (p : Nat) : State :=
  let s := s.setLink (2 * p) { s.link (2 * p) with perst := false, refclk := true, fresh := true }
  s.setLink (2 * p + 1) { s.link (2 * p + 1) with fresh := true }

/-- A port trains (R298, R372): MOD_PWRGD is asserted, its internal hold is over, and PERST# is deasserted; both halves where the port is bifurcated or
no stream says yet. -/
def State.portTrain (s : State) (p : Nat) : State :=
  if !s.mio.modPwrgd ∨ s.mio.portHold ∨ (s.link (2 * p)).perst then s
  else
    let s := if s.getF (linkStateF p 0) = 0 then s.setF (linkStateF p 0) 1 else s
    if (s.bifurcated p || !s.dev.stream) && s.getF (linkStateF p 1) == 0 then s.setF (linkStateF p 1) 1 else s

/-! ### Configuration requests that end work -/

/-- Bus Master Enable cleared (R294); `late` completions of requests already outstanding are discarded and counted. -/
def State.busOff (s : State) (f : Func) (late : Nat) : State :=
  ((s.setF f.bmeF 0).bumpBy (F.HST_CNT_DISCARD_COUNT f.port) late).dmaOff f

/-- D3hot on a function (R291): as Bus Master Enable and Memory Space Enable cleared; a link whose functions are all in D3hot enters L1. -/
def State.sleep (s : State) (p : Fin 4) (h : Fin 2) (f : Func) : State :=
  let s := (s.setFn f { s.fn f with d3hot := true }).dmaOff f
  if (linkFns p h).all fun g => (s.fn g).d3hot then s.setF (linkLpmF p h) 2 else s

/-- Port of a function, as a port. -/
def Func.port4 : Func → Fin 4
  | .pf0 p => p
  | .pf1 p _ => p

/-- Half of a function, as a half. -/
def Func.half2 : Func → Fin 2
  | .pf0 _ => 0
  | .pf1 _ h => h

end Sys2Proof.Machine
end

