-- ==== Sys2Proof/Machine/PwrOps.lean ====
section
/-! DEFINITION. The sequencer and the Coffer: samples, shedding, epochs (R354 to R363), and what the resets of the whole device clear (R365,
Table 16-8). -/

namespace Sys2Proof.Machine

/-! ### Device states -/

/-- Encoding of DEV_STATE.STATE and PWR_STATE.STATE (Tables 11-5 and 16-12); OFF shows nowhere. -/
def DevState.code : DevState → Nat
  | .off => 0
  | .standby => 1
  | .boot => 2
  | .limited => 3
  | .ready => 4
  | .shedding => 5
  | .fatal => 6

/-! ### Shedding (R360) -/

/-- Threshold of a stage, in units of 0.1 V. -/
def State.shedThr (s : State) (n : Nat) : Nat :=
  if n = 1 then s.getF F.PWR_SHED_A_STAGE1 else if n = 2 then s.getF F.PWR_SHED_A_STAGE2 else if n = 3 then s.getF F.PWR_SHED_B_STAGE3
  else if n = 4 then s.getF F.PWR_SHED_B_STAGE4 else s.getF F.PWR_SHED_C_STAGE5

/-- The mean of the last 4 samples lies below a stage's threshold. -/
def State.shedBelow (s : State) (n : Nat) : Bool :=
  4 ≤ s.pwr.samples.length && (s.pwr.samples.take 4).foldl (· + ·) 0 < 40 * s.shedThr n

/-- Every sample of the last 10 ms lies at or above a stage's threshold plus the hysteresis. -/
def State.shedAbove (s : State) (n : Nat) : Bool :=
  100 ≤ s.pwr.samples.length && s.pwr.samples.all fun v => 10 * (s.shedThr n + s.getF F.PWR_SHED_C_HYST) ≤ v

/-- Lanes of every group as the stage in force allows (R386). -/
def State.groupsLanes (s : State) : State := (List.range 4).foldl State.setPortLanes s

/-- Storage commands and passes that a stage held go on (R234). -/
def State.storageResume (s : State) : State := s.nvs.ctrls.foldl (fun s e => (s.nvDrain e.1).opKick e.1) s

/-- The stage shown, with READY and SHEDDING as it follows (R364, Table 16-7). -/
def State.setShed (s : State) (n : Nat) : State :=
  let st := if s.dev.st = .ready ∧ n ≠ 0 then .shedding else if s.dev.st = .shedding ∧ n = 0 then .ready else s.dev.st
  let s := (s.setDev { s.dev with st := st, shed := n }).event F.PWR_STATUS_STAGE
  { s with stw := { s.stw with tel := { s.stw.tel with shed := max s.stw.tel.shed n } } }

/-- A stage is entered (Table 16-5). -/
def State.shedEnter (s : State) (n : Nat) : State :=
  let s := s.setShed n
  if n = 2 then s.opPause
  else if n = 3 then s.groupsLanes
  else if n = 4 then (s.endFlights Flight.active .shed).event F.TXS_STATUS_SHED
  else if n = 5 then { s with pwr := { s.pwr with saving := true } }
  else s

/-- A stage is left, which undoes its action; flights that it ended stay ended (Table 16-5). -/
def State.shedLeave (s : State) (n : Nat) : State :=
  let s := (s.setShed (n - 1)).driverCheck
  if n = 2 then s.opUnpause.storageResume
  else if n = 3 then s.groupsLanes
  else if n = 4 then ((((s.event F.TXS_STATUS_SHED).rteKick).txKick).plcKick).storageResume
  else s

/-- Stages entered by one sample, each in turn. -/
def State.shedDown : Nat → State → State
  | 0, s => s
  | k + 1, s => if s.dev.shed < 5 ∧ s.shedBelow (s.dev.shed + 1) then State.shedDown k (s.shedEnter (s.dev.shed + 1)) else s

/-- Stages left by one sample, in descending order. -/
def State.shedUp : Nat → State → State
  | 0, s => s
  | k + 1, s => if 0 < s.dev.shed ∧ s.shedAbove s.dev.shed then State.shedUp k (s.shedLeave s.dev.shed) else s

/-! ### Samples (R354, R359) -/

/-- Lowest voltage of the samples of the last 10 ms, in units of 0.1 V; 0 while there is none. -/
def State.minV (s : State) : Nat :=
  match s.pwr.samples with
  | [] => 0
  | v :: l => l.foldl min v / 10

/-- A power event: PWR_EVENT names its kind and the lowest sample, and PWR_STATUS.EVENT is set. -/
def State.powerEvent (s : State) (kind minV : Nat) : State :=
  (((s.setFs [(F.PWR_EVENT_KIND, kind), (F.PWR_EVENT_MIN_V, minV)]).bump F.PWR_EVENT_SEQ)).event F.PWR_STATUS_EVENT

/-- A sample is a clamp: its power exceeds 1.15 × PWR_CAP.W, or its current 16.0 A; voltage in units of 10 mV, current in mA. -/
def State.clamps (s : State) (mv ma : Nat) : Bool := 115000 * s.pwr.cap < mv * ma || 16000 < ma

/-- The device is clamped until the end of the epoch (R359). -/
def State.clamp (s : State) (mv : Nat) : State :=
  let s := ({ s with pwr := { s.pwr with clamped := true } }.bump F.PWR_CNT_CLAMP_COUNT).event F.PWR_STATUS_CLAMP
  let s := s.powerEvent 3 (mv / 10)
  { s with stw := { s.stw with tel := { s.stw.tel with clamps := s.stw.tel.clamps + 1 } } }

/-- A sample of the input: voltage in units of 10 mV and current in mA. -/
def State.sample (s : State) (mv ma : Nat) : State :=
  let t := s.stw.tel
  let s := { s.setFs [(F.PWR_INPUT_MV, mv), (F.PWR_INPUT_MA, ma)] with
    pwr := { s.pwr with samples := (mv :: s.pwr.samples).take 100, lowNow := min s.pwr.lowNow mv, measured := s.pwr.measured + mv * ma },
    stw := { s.stw with tel := { t with vMin := if t.vCount = 0 then mv else min t.vMin mv, vSum := t.vSum + mv, vCount := t.vCount + 1 } } }
  let s : State := if s.clamps mv ma then s.clamp mv else s
  if s.dev.st = .fatal then s else State.shedUp 5 (State.shedDown 5 s)

/-! ### Epochs (R355 to R358) -/

/-- PWR_CAP.W as a new epoch uses it: values outside 100 to 650 are treated as 650. -/
def State.capNow (s : State) : Nat :=
  let w := s.getF F.PWR_CAP_W
  if 100 ≤ w ∧ w ≤ 650 then w else 650

/-- PWR_ILIM.A in units of 0.1 A: values outside 10 to 160 are treated as 160. -/
def State.ilimNow (s : State) : Nat :=
  let a := s.getF F.PWR_ILIM_A
  if 10 ≤ a ∧ a ≤ 160 then a else 160

/-- Effective cap in mW, from the lowest sample of the last epoch in units of 10 mV; over 1 ms it is as many µJ. -/
def effCap (cap low ilim : Nat) : Nat := min (1000 * cap) (low * ilim)

/-- 1 ms on the oscillator moves Newel time forward at the rate of FLT_NEWEL_ADJ, in units of 2^-16 ppb (R99, R102). -/
def State.tickMs (s : State) : State :=
  let x : Int := s.time.residue + toSigned 32 (s.reg R.FLT_NEWEL_ADJ)
  let f : Int := s.time.ns * 65536 + s.time.frac + 65536 * 10 ^ 6 + x / 1000
  { s with time := { s.time with ns := (f / 65536).toNat, up := s.time.up + 10 ^ 6, frac := (f % 65536).toNat, residue := (x % 1000).toNat } }

/-- What telemetry gathers at the end of an epoch (R335). -/
def Tel.epoch (t : Tel) (p : Pwr) (count : Nat) : Tel :=
  { t with
    epochFirst := if t.epochs = 0 then count else t.epochFirst, epochs := t.epochs + 1, energy := t.energy + 1000 * p.measured,
    eng := p.engCharge.foldl (fun l e => put l e.1 (lookD l e.1 0 + e.2)) t.eng,
    slice := p.sliceCharge.foldl (fun l e => put l e.1 (lookD l e.1 0 + e.2)) t.slice }

/-- The old epoch is shown: measured energy, an overrun, and the charges of each engine and slice. -/
def State.epochShow (s : State) : State :=
  let p := s.pwr
  let s := s.setF F.PWR_EPOCH_MEAS_MJ (min 65535 (p.measured / 10 ^ 6))
  let s := if 1000 * p.energy < p.measured then (s.bump F.PWR_CNT_OVERRUN_COUNT).event F.PWR_STATUS_OVERRUN else s
  let s := (List.range 4).foldl (fun s e => s.setReg (R.PWR_ENG_LAST e) (lookD p.engCharge e 0 / 10 ^ 6)) s
  let s := { s with slices := s.slices.map fun (e : Nat × Slice) => (e.1, { e.2 with energyLast := lookD p.sliceCharge e.1 0 / 10 ^ 6 }) }
  { s with stw := { s.stw with tel := s.stw.tel.epoch p (s.reg R.PWR_EPOCH_COUNT) } }

/-- A new epoch's cap, energy, allowance and empty ledgers (R357). -/
def State.epochStart (s : State) : State :=
  let p := s.pwr
  let carry := p.measured - 1000 * p.energy
  let e := effCap s.capNow p.lowNow s.ilimNow
  let s := { s with pwr := { p with
    lowNow := 0xFFFF, lowLast := p.lowNow, measured := 0, allowance := e * 10 ^ 6 - s.reg R.PWR_RESERVE * 10 ^ 6 - carry * 1000, devCharge := 0,
    engCharge := [], sliceCharge := [], ctrlCharge := [], unreserved := 0, offered := [], refused := [], clamped := false,
    table := p.nextTable.getD p.table, nextTable := none, cap := s.capNow, energy := e } }
  (s.setF F.PWR_EPOCH_CAP_MJ (e / 1000)).bump F.PWR_EPOCH_COUNT_COUNT

/-- Steps that an engine runs: 0 the Gallery, 1 the RTE. -/
def engSteps (e kind : Nat) : Bool := if e = 0 then 3 ≤ kind && kind ≤ 5 else e == 1 && kind == 1

/-- Due steps whose engine the Coffer refused their slice are late for its sake (R114). -/
def State.blameEnergy (s : State) (old : List (Nat × Option Nat)) : State :=
  { s with flights := s.flights.map fun (e : Nat × Flight) =>
      let f := e.2
      let due := f.readySteps.filter fun j => f.sched j ≤ s.now && old.any fun r => r.2 == some f.slice && engSteps r.1 (flStep f.image j).kind
      (e.1, s.blameAt f due 5) }

/-- Refused units are offered again: SENDs of flights, RTE, frames, the Gallery and storage (R357). -/
def State.offerAgain (s : State) : State := ((((s.txRetry).rteKick).txKick).galKick).nvEpoch.plcKick

/-- An epoch boundary: buffered writes of PWR, FLT_CONFIG and PLC_ENERGY apply (R126, R186, R367), the ledgers start anew, and refused units
are offered again. -/
def State.epoch (s : State) : State :=
  let s := s.tickMs
  let s := [F.PWR_APPLY_STATUS_RESERVE, F.PWR_APPLY_STATUS_ENG].foldl (fun s f => s.bufferedApply 2 f.lo) s
  let s := (s.bufferedApply 9 F.FLT_APPLY_STATUS_CONFIG.lo).bufferedApply 11 F.PLC_APPLY_STATUS_ENERGY.lo
  let old := s.pwr.refused
  ((((s.epochShow).epochStart).blameEnergy old).fetchEpoch).offerAgain

/-! ### The orderly save (R361) -/

/-- Every running sanitize and format record is written, and a power event. -/
def State.save5 (s : State) : State :=
  let s := (s.nvs.ctrls.filter fun e => e.2.rec'.state == 1).foldl (fun s e =>
    s.recWrite e.1 fun r => { r with progress := (s.ctrl e.1).run.progress }) s
  ({ s with pwr := { s.pwr with saving := false } }.powerEvent 4 s.minV).event F.PWR_STATUS_SAVE_DONE

/-! ### Thresholds (Table 16-5) -/

/-- Thresholds 1 to 5 and the hysteresis lie in their ranges, each threshold at least 1.0 V below the one before it. -/
def shedOk (a b c d e h : Nat) : Bool :=
  510 ≤ a && a ≤ 540 && 490 ≤ b && b ≤ 515 && 470 ≤ c && c ≤ 495 && 450 ≤ d && d ≤ 475 && 430 ≤ e && e ≤ 455 && 2 ≤ h && h ≤ 20 &&
    b + 10 ≤ a && c + 10 ≤ b && d + 10 ≤ c && e + 10 ≤ d

/-- A write to PWR_SHED_A, B or C: applied, or refused whole. -/
def State.shedWrite (s : State) (r hi lo : Nat) : State :=
  let t := s.setReg (R.PWR_SHED_A + 4 * r) (hi % 65536 * 65536 + lo % 65536)
  if shedOk (t.shedThr 1) (t.shedThr 2) (t.shedThr 3) (t.shedThr 4) (t.shedThr 5) (t.getF F.PWR_SHED_C_HYST) then t.sealTouch 2
  else s.event F.PWR_STATUS_CFG_REFUSED

/-! ### Resets of the device (R364, R365, Table 16-8) -/

/-- Registers kept in NOR (Tables 02-13, 14-6 and 15-5): boot-slot choices, valid bits, SVN, leaves and the Locket key's identifier. -/
def norRegs : List Nat := [R.STR_BOOT_SLOT, R.STW_FW_BOOT, R.SIG_SVN, R.SIG_LMS_USED, R.SIG_LKEY_ID_LO, R.SIG_LKEY_ID_HI]

/-- Registers that a cold reset keeps: those in NOR, and those that the standby domain keeps. -/
def keptCold (a : Nat) : Bool := norRegs.contains a || [R.PWR_EVENT, R.PWR_LAST_RESET, R.PWR_CNT_BROWNOUT].contains a

/-- Registers that a warm reset keeps: besides, ERR_FATAL and the PWR block; PWR_EPOCH_COUNT counts from the reset. -/
def keptWarm (a : Nat) : Bool := keptCold a || a == R.ERR_FATAL || (R.PWR_STATUS ≤ a && a < blockBase 3 && a != R.PWR_EPOCH_COUNT)

/-- Leaves of the device's LMS tree at which LMS_WARN is due (R345). -/
def lmsWarnAt : Nat := 30198989

/-- Leaves of the tree (R344). -/
def lmsLeaves : Nat := 2 ^ 25

/-- The next leaf that may sign (R344, R345): SIG_LMS_USED shows the leaves behind it; reaching 90 % is reported, and exhaustion shows. -/
def State.lmsAt (s : State) (n : Nat) : State :=
  let old := s.sig.lmsNext
  let s := { s with sig := { s.sig with lmsNext := n } }.setF F.SIG_LMS_USED_LEAVES n
  let s := if old < lmsWarnAt ∧ lmsWarnAt ≤ n then (s.event F.SIG_STATUS_LMS_WARN).report 0x209 1 0xFFFF 0 n else s
  if lmsLeaves ≤ n then s.event F.SIG_STATUS_LMS_EXHAUSTED else s

/-- What a cold or warm reset leaves of the block, in a device state: the state at reset, with NOR contents, the standby domain's registers and
endpoint, pins, and for a warm reset the straps, ERR_FATAL and the PWR block. The nonces are drawn anew. -/
def State.afterReset (s : State) (warm : Bool) (st : DevState) : State :=
  { State.reset with
    regs := s.regs.filter fun e => if warm then keptWarm e.1 else keptCold e.1
    pend := if warm then s.pend.filter fun e => blockOf e.1 == some 2 else []
    draws := s.draws + 257
    dev := { State.reset.dev with st := st, shed := if warm then s.dev.shed else 0 }
    pwr := if warm then s.pwr else State.reset.pwr
    str := { State.reset.str with slotA := s.str.slotA, slotB := s.str.slotB }
    nonceBase := s.draws + 1
    mem := s.mem.outside
    links := s.links.map fun (e : Nat × Link) => (e.1, { Link.reset with perst := e.2.perst, refclk := e.2.refclk })
    plc := { State.reset.plc with retired := s.plc.retired }
    nvs := s.nvSurvive
    cip := { State.reset.cip with rngFault := warm && s.cip.rngFault }
    stw := { State.reset.stw with slotA := s.stw.slotA, slotB := s.stw.slotB }
    sig := { s.sig with mr := [], nonceDraw := s.draws, stage1Svn := 0, spdm := [] }
    mio := { s.mio with ppsOut := false, tapIr := 0 }
    outbox := s.outbox
    pending := s.pending }

/-- Pin PPS_OUT falls with the domains that drive it, and MOD_PWRGD too where they go off. -/
def State.pinsDown (s : State) (pwrgd : Bool) : State :=
  let s := if s.mio.ppsOut then { s.send (.pin 2 0) with mio := { s.mio with ppsOut := false } } else s
  if pwrgd && s.mio.modPwrgd then { s.send (.pin 1 0) with mio := { s.mio with modPwrgd := false, portHold := false } } else s

/-- What shows after a reset: the boot slot as each wing's slot, the Locket key, commands ended by the reset (R41, R328), a record copy that fails
its CRC (R230), and the leaves that the reset skips (R344). -/
def State.resetShow (s old : State) (warm : Bool) : State :=
  let s := (List.range 4).foldl (fun s w => s.setF (F.STW_WING_STATE_SLOT w) (s.getF F.STW_FW_BOOT_SLOT)) s
  let s := s.setF F.SIG_LKEY_RESULT_PRESENT (b2n s.sig.lkey.isSome)
  let s := if warm then s.setF F.STR_ENV_ENTRY_STRAPS (old.getF F.STR_ENV_ENTRY_STRAPS) else s
  let s := if old.str.cmd.isSome then s.eventV F.STR_STATUS_RESULT StrResult.resetDuring.code else s
  let s := if old.stw.fw.isSome then (s.eventV F.STW_FW_RESULT_RESULT 8).event F.STW_STATUS_FW_DONE else s
  let s := if old.recBad then s.event F.NVS_STATUS_RECORD_FAULT else s
  s.lmsAt s.sig.lmsEnd

/-- A cold reset with its kind and source: every switched domain is off, and the device waits in STANDBY (Table 16-7). -/
def State.coldReset (s : State) (kind source : Nat) : State :=
  let s := s.pinsDown true
  ((s.afterReset false .standby).resetShow s false).setReg R.PWR_LAST_RESET (kind * 2 ^ 28 + source * 2 ^ 24)

/-- A warm reset: domains stay on, and ports whose PERST# is deasserted train again. -/
def State.warmReset (s : State) (source : Nat) : State :=
  let s := s.pinsDown false
  let t := ((s.afterReset true .boot).resetShow s true).setReg R.PWR_LAST_RESET (5 * 2 ^ 28 + source * 2 ^ 24)
  (List.range 4).foldl State.portTrain t

/-- Source of a commanded reset, as PWR_LAST_RESET shows it. -/
def Master.source : Master → Nat
  | .pf0 _ => 1
  | .stewardMachine => 2
  | _ => 0

end Sys2Proof.Machine
end

