-- ==== Sys2Proof/Machine/StwOps.lean ====
section
/-! DEFINITION. The steward complex: crashes and restarts of cores with what their services run again (R319 to R325), firmware commands (R326 to
R329), log copies (R333) and telemetry (R335). -/

namespace Sys2Proof.Machine

/-- Firmware runs on a live device. -/
def State.fwOn (s : State) : Bool := s.dev.firmware && s.dev.st.live && s.dev.st != .fatal

/-- STATE of a core: 0 running, 1 restarting, 2 held, 3 loading a new image. -/
def State.coreSt (s : State) (c : Nat) : Nat := s.getF (F.STW_CORE_STATE c)

/-! ### Firmware commands (R327, R328) -/

/-- A firmware command's phase and wing shown. -/
def State.fwPhase (s : State) (p w : Nat) : State := s.setFs [(F.STW_FW_RESULT_PHASE, p), (F.STW_FW_RESULT_WING, w)]

/-- A result posted for a firmware command. -/
def State.fwPost (s : State) (r : Nat) : State := (s.eventV F.STW_FW_RESULT_RESULT r).event F.STW_STATUS_FW_DONE

/-- The firmware command ends. -/
def State.fwEnd (s : State) (r : Nat) : State := (({ s with stw := { s.stw with fw := none } }.fwPhase 0 0).fwPost r)

/-- Source address of a firmware image. -/
def State.fwSrc (s : State) : Nat := s.reg R.STW_FW_SRC_LO + 2 ^ 32 * s.reg R.STW_FW_SRC_HI

/-- A wing runs the image of a slot, or STW_FW_BOOT names the slot (R327). -/
def State.fwSlotUsed (s : State) (k : Nat) : Bool := s.getF F.STW_FW_BOOT_SLOT == k || (List.range 4).any fun w => s.wingSlot w == k

/-- Checks of WRITE_FW; 0 where it goes on to write. -/
def State.writeFwCheck (s : State) (k port : Nat) (sigOk : Bool) : Nat :=
  if s.stw.fw.isSome ∨ s.str.cmd.isSome then 1
  else if 16 * 2 ^ 20 < s.reg R.STW_FW_LEN then 3
  else if s.fwSrc % 4096 ≠ 0 ∨ !s.canDma (.pf0 ⟨port % 4, Nat.mod_lt _ (by decide)⟩) then 7
  else if !sigOk then 2
  else if s.fwSlotUsed k then 6
  else 0

/-- WRITE_FW (R327): the image is fetched and verified, and its write begins, which leaves the slot invalid until it is checked. -/
def State.writeFw (s : State) (k port : Nat) (sigOk : Bool) : State :=
  let s := s.setFs [(F.STW_FW_CMD_SLOT, k), (F.STW_FW_CMD_WINGS, 0)]
  let r := s.writeFwCheck k port sigOk
  if r = 2 then (s.event F.SIG_STATUS_VERIFY_FAIL).fwPost 2
  else if r ≠ 0 then s.fwPost r
  else
    let img := s.mem.read ((Space.pf0 port).at s.fwSrc) (s.reg R.STW_FW_LEN)
    let s := s.setFwValid k 0
    { s with stw := { s.stw with
        fw := some ⟨1, k, [], port, img⟩, slotA := if k = 0 then img else s.stw.slotA, slotB := if k = 0 then s.stw.slotB else img } }.fwPhase 3 0

/-- The written image has been read back (R327). -/
def State.fwWritten (s : State) (ok : Bool) : State :=
  match s.stw.fw with
  | some c => if c.op ≠ 1 then s else if ok then (s.setFwValid c.slot 1).fwEnd 0 else s.fwEnd 3
  | none => s

/-- A version that a port holds accepted lies outside an image's driver window (R328). -/
def State.driverOutside (s : State) (img : List Byte) : Bool :=
  (List.range 4).any fun p =>
    let v := s.getF (F.DEV_DRV_HELLO_MAJOR p) * 256 + s.getF (F.DEV_DRV_HELLO_MINOR p)
    s.helloAccepted p && (v < fwLow img || fwHigh img < v)

/-- Checks of ACTIVATE in their order (R328); 0 where it goes on. -/
def State.activateCheck (s : State) (k : Nat) (sigOk : Bool) : Nat :=
  if s.stw.fw.isSome ∨ s.str.cmd.isSome then 1
  else if s.dev.st = .shedding then 9
  else if !s.fwValid k then 6
  else if !sigOk then 2
  else if s.dev.stream ∧ !fwWindowOk (fwVersion (s.fwImage k)) (s.reg R.STR_FW_MIN) then 4
  else if s.driverOutside (s.fwImage k) then 5
  else 0

/-- The next wing of an ACTIVATE drains, or the command is done. -/
def State.fwNext (s : State) : State :=
  match s.stw.fw with
  | none => s
  | some c =>
    match c.wings with
    | [] => s.fwEnd 0
    | w :: _ => (s.setF (F.STW_WING_STATE_DRAINING w) 1).fwPhase 4 w

/-- ACTIVATE (R328). -/
def State.fwActivate (s : State) (k port wings : Nat) (sigOk : Bool) : State :=
  let s := s.setFs [(F.STW_FW_CMD_SLOT, k), (F.STW_FW_CMD_WINGS, wings)]
  let r := s.activateCheck k sigOk
  if r = 2 then (s.event F.SIG_STATUS_VERIFY_FAIL).fwPost 2
  else if r ≠ 0 then s.fwPost r
  else { s with stw := { s.stw with fw := some ⟨2, k, (List.range 4).filter (bitAt wings), port, []⟩ } }.fwNext

/-- SWITCH of a wing: its slot is written, its measurement register extended, and its cores load the image; held cores are released into it. -/
def State.wingSwitch (s : State) (w k : Nat) : State :=
  let s := (s.setF (F.STW_WING_STATE_SLOT w) k).extend (3 + w) (sha384 (s.fwImage k))
  let s := (List.range 8).foldl (fun s i => s.setFs [(F.STW_CORE_STATE (8 * w + i), 3), (F.STW_CORE_CRASHES (8 * w + i), 0)]) s
  { s.setF (F.STW_WING_STATE_HELD w) 0 with stw := { s.stw with crashes := s.stw.crashes.filter fun e => e.1 / 8 != w } }

/-- A write to STW_FW_BOOT: kept in NOR where it names a valid slot, and else ignored. -/
def State.fwBootWrite (s : State) (k : Nat) : State := if s.fwValid k then s.setF F.STW_FW_BOOT_SLOT k else s

/-! ### Journalled commands run again (R322, R323) -/

/-- Controllers whose owner is a core. -/
def State.ctrlsOf (s : State) (c : Nat) : List Nat := (s.nvs.ctrls.map (·.1)).filter fun k => s.ownerCore 7 k == some c

/-- Journalled flight and placement commands whose owner is a core. -/
def State.journalOf (s : State) (c : Nat) : List Op :=
  s.ops.filter fun o => o.done.isNone && ((o.src == 0x0B && s.ownerCore 5 o.ring == some c) || (o.src == 0x08 && s.ownerCore 6 o.ring == some c))

/-- Commands that a core owned are executed again, and counted (Table 14-2): storage commands from their start, placement and flight commands from
their last journalled step. -/
def State.reexec (s : State) (c : Nat) : State :=
  let ks := s.ctrlsOf c
  let n := (s.journalOf c).length + ks.foldl (fun n k => n + (s.ctrl k).cmds.length) 0
  (ks.foldl State.nvRestart (s.bumpBy F.STW_CNT_REEXEC n))

/-- Latched doorbells are acted on (R322, R328). -/
def State.latchedGo (s : State) : State := (s.plcKick).storageResume

/-- A service runs on a core: the core is among those that the stream assigns it. -/
def State.runs (s : State) (svc c : Nat) : Bool := bitAt (s.getF (F.STW_CORE_SERVICES c)) svc

/-- The owner of a reassembly among the cores of its wing (R319). -/
def State.reasmOwner (s : State) (r : Reasm) : Option Nat :=
  let cs := (s.serviceCores 8).filter fun c => c / 8 == r.wing
  cs[Config.slowHash (leNat r.id) % cs.length]?

/-- What telemetry gathers starts anew, with the slices that are ACTIVE or FROZEN. -/
def State.telNew (s : State) (skipped : Nat) : State :=
  { s with stw := { s.stw with tel := { Tel.empty with
      skipped := skipped,
      live := (List.range 256).filter fun i => (s.slice i).state == .active || (s.slice i).state == .frozen } } }

/-- A telemetry block is lost, or its period skipped (R335). -/
def State.telSkip (s : State) (lost : Bool) : State :=
  let s := if lost then s.bump F.STW_CNT_TEL_DROP_COUNT else s
  s.telNew (min 65535 (s.stw.tel.skipped + 1))

/-- An ACTIVATE whose LOADER core crashes ends: a draining wing goes on with its old image, and one that has switched runs its new one. -/
def State.fwAbort (s : State) : State :=
  match s.stw.fw with
  | none => s
  | some c =>
    let s := match c.wings with
      | w :: _ =>
        let s := s.setF (F.STW_WING_STATE_DRAINING w) 0
        if s.getF F.STW_FW_RESULT_PHASE = 6 then
          ((List.range 8).foldl (fun (s : State) i => if s.coreSt (8 * w + i) = 3 then s.setF (F.STW_CORE_STATE (8 * w + i)) 0 else s) s).wingRuns w
        else s
      | [] => s
    s.fwEnd 8

/-- What a core's services lose when it stops (Table 14-2): a log copy, STR and firmware commands, the telemetry period and the core's
reassemblies. A hall that an STR command has paused resumes, and the writes held for it stay for the caller. -/
def State.coreLoses (s : State) (c : Nat) : State :=
  let s := if s.runs 0 c then (match s.stw.copy with | some x => s.logEnd 4 x.start 0 | none => s) else s
  let s := if s.runs 1 c then (s.strAbort (fun _ => true) .resetDuring).fwAbort else s
  let s := if s.runs 4 c ∧ s.getF F.STW_TEL_CTRL_EN = 1 then s.telSkip true else s
  let gone := s.pp.reasm.filter fun r => s.reasmOwner r == some c
  { s with pp := { s.pp with reasm := s.pp.reasm.filter fun r => !(s.reasmOwner r == some c) } }.bumpBy F.PKT_CNT_REASM_DROP gone.length

/-! ### Crashes and restarts (R321 to R325) -/

/-- Every restart reports a correctable event and is counted (R322). -/
def State.restartCount (s : State) (c : Nat) : State :=
  (s.bump F.STW_CNT_RESTART).report 0x003 6 0xFFFF 0 (c + 256 * s.getF (F.STW_CORE_LAST_CAUSE c))

/-- A core restarts (R322): what it owns is held until CORE_RESTART_DONE. -/
def State.coreRestart (s : State) (c : Nat) : State := ((s.setF (F.STW_CORE_STATE c) 1).begin (.core c)).restartCount c

/-- A core is held in reset (R324): its objects move to the cores that are left, which execute its commands again; a wing without a core is fatal
(R325). -/
def State.coreHold (s : State) (c : Nat) : State :=
  let w := c / 8
  let ks := s.ctrlsOf c
  let n := (s.journalOf c).length + ks.foldl (fun n k => n + (s.ctrl k).cmds.length) 0
  let s := s.setFs [(F.STW_CORE_STATE c, 2), (F.STW_WING_STATE_HELD w, s.getF (F.STW_WING_STATE_HELD w) ||| 2 ^ (c % 8))]
  let s := (s.event F.STW_STATUS_CORE_HELD).report 0x205 6 0xFFFF 0 c
  if s.getF (F.STW_WING_STATE_HELD w) = 255 then s.fatal 0x05 w 6
  else (ks.foldl State.nvRestart (s.bumpBy F.STW_CNT_REEXEC n)).latchedGo

/-- A core crashes with a cause (R321, R324): the third crash within 10 s holds it. -/
def State.coreCrash (s : State) (c cause : Nat) : State :=
  if !s.fwOn ∨ s.coreSt c = 2 ∨ cause = 0 then s
  else
    let s := s.coreLoses c
    let old := s.stw.crashes.filter fun e => s.up < e.2 + 10 * 10 ^ 9
    let s := { s with stw := { s.stw with crashes := (c, s.up) :: old } }
    let n : Nat := (s.stw.crashes.filter fun (e : Nat × Nat) => e.1 == c).length
    let s : State := s.setFs [(F.STW_CORE_LAST_CAUSE c, cause), (F.STW_CORE_CRASHES c, min 3 n)]
    if 3 ≤ n then s.coreHold c else s.coreRestart c

/-- A restarted core reaches the end of step 4 (R322): it runs its commands again and acts on the latched doorbells. -/
def State.coreBack (s : State) (c : Nat) : State :=
  if !s.fwOn ∨ s.coreSt c ≠ 1 then s
  else
    let crashed := 0 < s.getF (F.STW_CORE_CRASHES c)
    let again := crashed || s.getF (F.STW_CORE_LAST_CAUSE c) == 5
    let s := ((s.setF (F.STW_CORE_STATE c) 0).begin (.core c)).catalogue c
    let s := if crashed then s.event F.STW_STATUS_CORE_RESTART else s
    (if again then s.reexec c else s).latchedGo

/-- RESTART of a running core (R324). -/
def State.restartCmd (s : State) (c : Nat) : State :=
  let s := s.setFs [(F.STW_CORE_CTRL_OP, 1), (F.STW_CORE_CTRL_CORE, c)]
  if s.coreSt c ≠ 0 then s else ((s.coreLoses c).setF (F.STW_CORE_LAST_CAUSE c) 5).coreRestart c

/-- RELEASE of a held core (R324). -/
def State.releaseCmd (s : State) (c : Nat) : State :=
  let s := s.setFs [(F.STW_CORE_CTRL_OP, 2), (F.STW_CORE_CTRL_CORE, c)]
  if s.coreSt c ≠ 2 then s
  else
    let w := c / 8
    let s := s.setFs [(F.STW_WING_STATE_HELD w, s.getF (F.STW_WING_STATE_HELD w) - 2 ^ (c % 8)), (F.STW_CORE_CRASHES c, 0)]
    { s with stw := { s.stw with crashes := s.stw.crashes.filter (·.1 != c) } }.coreRestart c

/-- DRAIN of a wing is over, and the wing switches. -/
def State.wingDrained (s : State) : State :=
  match s.stw.fw with
  | some c =>
    (match c.wings with
      | w :: _ => if c.op = 2 ∧ s.getF F.STW_FW_RESULT_PHASE = 4 then (s.wingSwitch w c.slot).fwPhase 6 w else s
      | [] => s)
  | none => s

/-- The cores of a wing run the new image: its commands run again, latched doorbells are acted on, and the next wing follows (R328). -/
def State.wingLoaded (s : State) : State :=
  match s.stw.fw with
  | some c =>
    (match c.wings with
      | w :: l =>
        if c.op ≠ 2 ∨ s.getF F.STW_FW_RESULT_PHASE ≠ 6 then s
        else
          let cs := ((List.range 8).map fun i => 8 * w + i).filter fun i => s.coreSt i == 3
          let s := cs.foldl (fun s i => (s.setF (F.STW_CORE_STATE i) 0).restartCount i) s
          let s := (s.setF (F.STW_WING_STATE_DRAINING w) 0).wingRuns w
          let s := (cs.foldl State.reexec s).latchedGo
          { s with stw := { s.stw with fw := some { c with wings := l } } }.fwNext
      | [] => s)
  | none => s

/-! ### Log copies (R333) -/

/-- A log copy starts, or is refused with BUSY. -/
def State.logStart (s : State) (w n port : Nat) : State :=
  let s := s.setFs [(F.STW_LOG_CTRL_WING, w), (F.STW_LOG_CTRL_COUNT, n)]
  if s.stw.copy.isSome then (s.eventV F.STW_LOG_RESULT_RESULT 1).event F.STW_STATUS_LOG_DONE
  else
    let addr := s.reg R.STW_LOG_ADDR_LO + 2 ^ 32 * s.reg R.STW_LOG_ADDR_HI
    let s := s.setF F.STW_LOG_RESULT_ACTIVE 1
    { s with stw := { s.stw with copy := some ⟨w, s.reg R.STW_LOG_START, n, addr, port⟩ } }

/-- First record to copy from a ring, how many are held from it on, and whether older ones are gone: `d` records lie between START and HEAD. -/
def logFrom (head start held : Nat) : Nat × Nat × Bool :=
  let d := (head + 2 ^ 32 - start) % 2 ^ 32
  if 2 ^ 31 ≤ d then (start, 0, false) else if held < d then (head + 2 ^ 32 - held, held, true) else (start, d, false)

/-- The copy of a log ring into PF0 memory. -/
def State.logCopied (s : State) : State :=
  match s.stw.copy with
  | none => s
  | some c =>
    if s.hallPaused 0 then s
    else if c.addr % 64 ≠ 0 ∨ !s.canDma (.pf0 ⟨c.port % 4, Nat.mod_lt _ (by decide)⟩) then s.logEnd 3 c.start 0
    else
      let l := lookD s.stw.logs c.wing []
      let (first, held, gap) := logFrom (s.reg (R.STW_LOG_HEAD c.wing)) c.start l.length
      let recs := (l.take held).reverse.take c.count
      { s with mem := s.mem.write ((Space.pf0 c.port).at c.addr) recs.flatten }.logEnd (if gap then 2 else 0) (first % 2 ^ 32) recs.length

/-! ### Telemetry (R335) -/

/-- Slices that were ACTIVE or FROZEN during the period, with their entries. -/
def State.telSlices (s : State) : List (Nat × Slice) :=
  ((List.range 256).filter fun i => s.stw.tel.live.contains i).map fun i => (i, s.slice i)

/-- A slice record (Table 14-8). -/
def Tel.sliceRec (t : Tel) (e : Nat × Slice) : List Byte :=
  leBytes 2 e.1 ++ leBytes 1 e.2.state.code ++ leBytes 1 0 ++ leBytes 4 (lookD t.slice e.1 0 / 10 ^ 6) ++ leBytes 4 (lookD t.sliceDefer e.1 0) ++
    leBytes 4 (lookD t.sliceErr e.1 0)

/-- A telemetry block (Tables 14-7 and 14-8). -/
def State.telBlock (s : State) (temps : List Byte) : List Byte :=
  let t := s.stw.tel
  let host := (List.range 4).foldl (fun n p => n + b2n (s.linkUp p 0) * 2 ^ (2 * p) + b2n (s.linkUp p 1) * 2 ^ (2 * p + 1)) 0
  let net := (List.range 16).foldl (fun n p => n + b2n (s.netUp p) * 2 ^ p) 0
  leBytes 8 s.now ++ leBytes 4 t.epochFirst ++ leBytes 2 t.epochs ++ leBytes 2 t.skipped ++ leBytes 2 (t.vMin / 10) ++
    leBytes 2 (t.vSum / max 1 t.vCount / 10) ++ leBytes 4 (t.energy / 10 ^ 6) ++ ((List.range 4).map fun e => leBytes 4 (lookD t.eng e 0 / 10 ^ 6)).flatten ++
    leBytes 1 (16 * max t.shed s.dev.shed + s.dev.st.code) ++ temps ++ leBytes 2 net ++ leBytes 1 host ++ leBytes 1 0 ++
    leBytes 2 s.telSlices.length ++ leBytes 4 t.defer ++ leBytes 4 t.clamps ++ leBytes 4 t.errors ++ List.replicate 64 0#8 ++
    (s.telSlices.map t.sliceRec).flatten

/-- The end of a telemetry period: a block goes into the ring's next buffer, or is lost or skipped. -/
def State.telPeriod (s : State) (temps : List Byte) : State :=
  let s := if s.fwOn then (List.range 4).foldl (fun s k => s.setF (F.HBM_STACK_TEMP k) (temps.getD (k + 1) 0).toNat) (s.nvTemp (temps.getD 0 0)) else s
  if !s.fwOn ∨ s.getF F.STW_TEL_CTRL_EN = 0 then s
  else
  let s := (s.ripe .telemetry (10 ^ 6 * max 1 (s.getF F.STW_TEL_CTRL_PERIOD_MS))).begin .telemetry
  if s.shedAt 1 then s.telSkip false
  else
    let q := s.getF F.STW_TEL_CTRL_RING
    if !s.coreServes 4 0 || !s.isRxRing q || !(s.ring q).any (·.isPf0) then s.telSkip true
    else
      match s.fillBuffer q false (s.telBlock temps).length (s.telBlock temps) 0xFFFFFFFE 0xFF 0 0 with
      | none => s.telSkip true
      | some s => s.telNew 0

end Sys2Proof.Machine
end

