-- ==== Sys2Proof/Machine/FaultOps.lean ====
section
/-! DEFINITION. Errors by location (Table 18-2), error events and their records (R273, R380 to R383), and lane groups (R386, R387, R391). -/

namespace Sys2Proof.Machine

/-! ### Error events -/

/-- Codes of Table 18-4 outside class 3. -/
def eventCodes : List Nat :=
  [0x001, 0x002, 0x003, 0x004, 0x101, 0x102, 0x103, 0x104, 0x105, 0x201, 0x202, 0x203, 0x204, 0x205, 0x206, 0x207, 0x208, 0x209, 0x20A]

/-- An error event that the device detects: a correction in landing SRAM counts in its quadrant, and one in HBM for its frame (R381, R382). -/
def State.errorEvent (s : State) (code block slice status loc : Nat) : State :=
  if !s.dev.st.live ∨ s.dev.st = .fatal ∨ !eventCodes.contains code then s
  else
    let s := if code = 1 then s.bumpSat (F.DEV_SRAM_CE (loc / 2 ^ 56 % 4)) else if code = 2 then s.frameCe loc else s
    s.report code block slice status loc

/-- A patrol pass ends (R187, R382): words that it corrected count for their frames and are written back, and a pending period applies. -/
def State.patrolDone (s : State) (frames : List Nat) : State :=
  if !s.answers 17 then s
  else
    let s := (frames.foldl (fun s f => s.errorEvent 0x002 17 0xFFFF 0 f) s).bumpBy F.HBM_CNT_WRITEBACK frames.length
    ((s.bump F.HBM_CNT_PATROL).event F.HBM_STATUS_PATROL_DONE).bufferedApply 17 0

/-- A write to ERR_RING_CTRL that sets EN (R273). -/
def State.ringEnable (s : State) (mask port vector : Nat) : State :=
  let en := s.getF F.ERR_RING_CTRL_EN
  let s := s.setFs [(F.ERR_RING_CTRL_EN, 1), (F.ERR_RING_CTRL_CLASS_MASK, mask), (F.ERR_RING_CTRL_PORT, port), (F.ERR_RING_CTRL_VECTOR, vector)]
  if en = 0 then (s.setReg R.ERR_RING_PROD 0).setReg R.ERR_RING_CONS 0 else s

/-- A write to ERR_INJECT (R273): class 3 is ignored. -/
def State.injectWrite (s : State) (cls block slice : Nat) : State :=
  let s := s.setFs [(F.ERR_INJECT_CLASS, cls), (F.ERR_INJECT_BLOCK, block), (F.ERR_INJECT_SLICE, slice)]
  if cls < 3 then s.inject cls block slice else s

/-! ### Uncorrectable words (Table 18-2) -/

/-- An entry of a table was lost: DATA_UE, of the slice that it belongs to. -/
def State.dataUe (s : State) (block slice status loc : Nat) : State := s.report 0x105 block slice status loc

/-- A tree unit that cannot be read holds a node of KIND 3, on which a walk ends in a tree fault (R195). -/
def badUnit : List Byte := 0xC0#8 :: List.replicate 31 0#8

/-- The outcome of an uncorrectable word by its location (R381). A core's L1 or L2 is a crash, and the fatal locations end the device. -/
def State.dataUncorrectable (s : State) (l : UeLoc) : State :=
  match l with
  | .page h p c => if (s.obj (h / 256)).any (fun o => o.tag == h % 256) then s.pageUe (h / 256) p c else s
  | .flightBuffer k j =>
    (match s.flight k with
      | some f => if f.active ∧ (f.stepSt j = .running true ∨ f.stepSt j = .running false) then
          (s.stepFault k stStreamFault).dataUe 9 f.slice stStreamFault (k * 65536 + j) else s
      | none => s)
  | .galBuffer op =>
    (match s.galOf op with
      | some c => (((s.galFault c stStreamFault).galKick).flightAbsorb).dataUe 8 c.slice stStreamFault op
      | none => s)
  | .qpStore n =>
    (match s.qp n with
      | some q => if q.fetching then (s.contextFault n).dataUe 10 q.slice stCtxFault n else s
      | none => s)
  | .xtsKey c queue cid =>
    (match s.nvCmd c queue cid with
      | some m =>
        let s := s.event F.CIP_STATUS_KEY_ECC
        let s := if m.phase = .run then (s.cmdFail c queue cid nvInternal).nvSettle c queue cid else s.nvEnd c queue cid nvInternal 0
        s.dataUe 15 c 0 cid
      | none => s)
  | .keyTable i =>
    (match look s.rte.keys i with
      | some k => (s.keyFree i).dataUe 10 k.slice stKeyInvalid i
      | none => s)
  | .saTable i =>
    (match s.sa i with
      | some a => (({ s with cip := { s.cip with sas := put s.cip.sas i { a with st := 3 } } }.saFree i).holdsGo).dataUe 15 a.slice 0 i
      | none => s)
  | .flightStore k =>
    (match s.flight k with
      | some f => (s.stepFault k stInternal).dataUe 9 f.slice stInternal k
      | none => s)
  | .treeArea u => { s with mem := s.mem.write ((Space.treeArea 1).at (32 * u)) badUnit }.dataUe 12 0xFFFF 0 u
  | .stewardL2 c => s.coreCrash c 3
  | .cachedContext p => s.fatal 0x03 p 10
  | .gallery c => s.fatal 0x02 c 8
  | .sharedCache => s.fatal 0x04 0 6
  | .sram b => s.fatal 0x01 b b

/-! ### Lane groups (R386, R387, R391) -/

/-- A group that has fallen below MIN_LANES is disabled (R386). -/
def State.groupBelow (s : State) (g : Nat) : State := ((s.setF (F.ETH_GROUP_STATE_STATE g) 3).setPortLanes g).event F.ETH_STATUS_GROUP_DISABLED

/-- A lane leaves service (R386). -/
def State.laneLost (s : State) (l : Nat) : State :=
  let g := l / 8
  if s.getF (F.ETH_LANE_UP l) = 0 then s
  else
    let m := s.groupWorking g - 2 ^ (l % 8)
    let s := ((s.setWorking g m).bump F.ETH_CNT_LANE_LOST).event F.ETH_STATUS_LANE_LOST
    let s := if s.getF (F.ETH_GROUP_STATE_STATE g) = 2 then (if lanes m < s.groupMin g then s.groupBelow g else s.setPortLanes g) else s
    s.report 0x204 18 0xFFFF 0 (g * 256 + lanes m)

/-- A retrain refused. -/
def State.retrainRefuse (s : State) (r : Nat) : State := s.eventV F.ETH_RETRAIN_STATUS_RESULT r

/-- ETH_RETRAIN (R387, R391): the group carries nothing, and its pending settings take effect. -/
def State.retrain (s : State) (g : Nat) : State :=
  let s := s.setF F.ETH_RETRAIN_GROUP g
  if s.getF F.ETH_RETRAIN_STATUS_ACTIVE = 1 then s.retrainRefuse 1
  else if s.shedAt 4 then s.retrainRefuse 3
  else
    let f : Fld := ⟨R.ETH_APPLY_STATUS, g, g⟩
    let touched := s.pend.any fun e => applyOf e.1 == some f
    let s := s.applyGroup f
    let s := if touched then s.sealTouch 18 else s
    (s.setFs [(F.ETH_RETRAIN_STATUS_ACTIVE, 1), (F.ETH_RETRAIN_STATUS_GROUP, g), (F.ETH_GROUP_STATE_STATE g, 1)]).setPortLanes g

/-- A retrain ends with the lanes that it finds working, of those that LANE_EN allows (R391); a group that a mismatch keeps disabled stays so
(R17). -/
def State.retrained (s : State) (working : Nat) : State :=
  if s.getF F.ETH_RETRAIN_STATUS_ACTIVE = 0 then s
  else
    let g := s.getF F.ETH_RETRAIN_STATUS_GROUP
    let m := working &&& s.getF (F.ETH_GROUP_CFG_LANE_EN g)
    let below := lanes m < s.groupMin g
    let s := (s.setF F.ETH_RETRAIN_STATUS_ACTIVE 0).setWorking g m
    let s := if below then s.groupBelow g
      else (s.setF (F.ETH_GROUP_STATE_STATE g) (if s.str.groupOff.contains g then 3 else 2)).setPortLanes g
    ((s.bump F.ETH_CNT_RETRAIN).eventV F.ETH_RETRAIN_STATUS_RESULT (if below then 2 else 0)).event F.ETH_STATUS_RETRAIN_DONE

/-- A lane group trained at start-up (R17, R366). -/
def State.groupUp (s : State) (g working : Nat) : State :=
  if !s.dev.stream ∨ !s.groupEnabled g ∨ 2 ≤ s.getF (F.ETH_GROUP_STATE_STATE g) then s else (s.groupTrained g working).envSettle

end Sys2Proof.Machine
end

