-- ==== Sys2Proof/Machine/HostEp.lean ====
section
/-! DEFINITION. The commands of chapter 12 that end no STR command: FLR of PF1, requests and their tags, invalidations, link power and training, and
interrupts (R284 to R298). -/

namespace Sys2Proof.Machine

/-- PF1_FLR (R295): every slice of the port is reset, in both halves. -/
def execPf1Flr (port : Fin 4) (half : Fin 2) (s : State) : Res :=
  .next (s.cfgWrite (.pf1 port half) (.pf1Flr port half) fun s => s.flr (.pf1 port half))

/-- FLR_DONE (R295): requests still outstanding at 90 ms are treated as timed out. -/
def execFlrDone (fn : Func) (late : List Nat) (s : State) : Res :=
  .next (if s.getF fn.flrF = 1 then
      (((late.foldl (fun s t => s.tagLost fn t) s).setF fn.flrF 0).event F.HST_STATUS_FLR)
    else s)

/-- PERST_DEASSERT (R298, R372): with REFCLK stable, the port trains again, at the end of the internal hold if that still runs. -/
def execPerstDeassert (port : Fin 4) (s : State) : Res :=
  .next (if (s.link (2 * port)).perst then
      (s.perstOff port).portTrain port
    else s)

/-- BUS_MASTER_ENABLE (R294): with the function's other settings, which are ATS Enable, its Device Control 2 value, and L0p and ASPM L1 enabled. -/
def execBusMasterEnable (fn : Func) (ats : Bool) (enc : BitVec 4) (l0p l1 : Bool) (s : State) : Res :=
  .next (s.cfgWrite fn (.busMasterEnable fn ats enc l0p l1) fun s =>
    let s := (s.setF fn.bmeF 1).setF fn.ctoF enc.toNat
    let s := match fn.atsF with
      | some f => s.setF f (b2n ats)
      | none => s
    (s.setFn fn { s.fn fn with l0pEnable := l0p, l1Enable := l1 }).dmaOn fn)

/-- COMPLETION_TIMEOUT (R292): counted, its tag quarantined, and its access fails by R289. -/
def execCompletionTimeout (fn : Func) (tag : Nat) (access : HostAccess) (addr : DWord) (s : State) : Res :=
  .next (if s.linkUp fn.port fn.half then (s.tagLost fn tag).accessFail access addr.toNat else s)

/-- HOST_ACCESS_FAIL (R289). -/
def execHostAccessFail (access : HostAccess) (addr : DWord) (s : State) : Res := .next (s.accessFail access addr.toNat)

/-- UNEXPECTED_COMPLETION (R293). -/
def execUnexpectedCompletion (fn : Func) (_tag : Nat) (s : State) : Res :=
  .next (((s.bump (F.HST_CNT_UNEXP_COUNT fn.port)).event F.HST_STATUS_UNEXP).send (.aerPcie fn 2))

/-- TAG_QUARANTINE_EXPIRY (R293): after twice the timeout the tag is free again. -/
def execTagQuarantineExpiry (port : Fin 4) (half : Fin 2) (tag : Nat) (s : State) : Res :=
  let l := 2 * port.val + half.val
  .next (match look (s.link l).quarantined tag with
    | some t => (s.upTo t).setLink l { s.link l with quarantined := drop (s.link l).quarantined tag }
    | none => s)

/-- INVALIDATE_REQUEST (R290): at most 32 are outstanding on a link; during an H0 pause they wait in the root port. -/
def execInvalidateRequest (fn : Func) (req : Nat) (s : State) : Res :=
  .next (s.cfgWrite fn (.invalidateRequest fn req) fun s =>
    let x := s.link fn.link
    if x.invals.contains (fn, req) ∨ 32 ≤ x.invals.length then s
    else (s.setLink fn.link { x with invals := x.invals ++ [(fn, req)] }).invalShow fn.port)

/-- INVALIDATE_COMPLETE (R290). -/
def execInvalidateComplete (fn : Func) (req : Nat) (s : State) : Res :=
  .next (
    let x := s.link fn.link
    if !x.invals.contains (fn, req) ∨ s.hallPaused 0 then s
    else
      let s := (s.setLink fn.link { x with invals := x.invals.erase (fn, req) }).invalShow fn.port
      (s.bump (F.HST_CNT_INVAL_COUNT fn.port)).send (.invalDone fn.port req))

/-- L0P_IDLE_EXPIRY (R291). -/
def execL0pIdleExpiry (port : Fin 4) (half : Fin 2) (s : State) : Res :=
  .next (
    let s := s.bufferedApply 4 0
    if s.linkUp port half && s.getF (linkLpmF port half) == 0 && (s.fn (linkFn0 port half)).l0pEnable && s.getF (F.HST_LPM_L0P_IDLE_US port) != 0 then
      s.setF (linkLpmF port half) 1
    else s)

/-- L1_IDLE_EXPIRY (R291): FLIGHT_HOLD keeps the link out of L1 while a flight of its slices is active. -/
def execL1IdleExpiry (port : Fin 4) (half : Fin 2) (s : State) : Res :=
  .next (
    let s := s.bufferedApply 4 0
    let held : Bool := s.getF (F.HST_LPM_FLIGHT_HOLD port) == 1 && s.flights.any fun e => e.2.active && (s.slice e.2.slice).link == 2 * port.val + half.val
    if s.linkUp port half && s.getF (linkLpmF port half) < 2 && (s.fn (linkFn0 port half)).l1Enable && s.getF (F.HST_LPM_L1_IDLE_US port) != 0 && !held then
      s.setF (linkLpmF port half) 2
    else s)

/-- D0_RETURN (R291): all state is kept, and Bus Master Enable takes effect again. -/
def execD0Return (fn : Func) (s : State) : Res :=
  .next (s.cfgWrite fn (.d0Return fn) fun s =>
    if !(s.fn fn).d3hot then s else ((s.setFn fn { s.fn fn with d3hot := false }).wakeLink fn.port fn.half).dmaOn fn)

/-- INTERRUPT_METHOD_CHANGE (R284, R286): pending bits are kept; Function Mask cleared in MSI-X mode sends what is pending (R285). -/
def execInterruptMethodChange (port : Fin 4) (msixEnable intDisable funcMask : Bool) (s : State) : Res :=
  .next (s.cfgWrite (.pf0 port) (.interruptMethodChange port msixEnable intDisable funcMask) fun s =>
    let old := s.fn (.pf0 port)
    let s := s.setFn (.pf0 port) { old with msixEnable := msixEnable, intDisable := intDisable, funcMask := funcMask }
    let s := (s.setF (F.HST_FUNC_PF0_IRQ port) (s.irqMethod port).code).intxSettle port
    if old.msixEnable && msixEnable && old.funcMask && !funcMask then s.msixDrain port else s)

/-- MSIX_UNMASK (R285): a write of a vector's table entry; a pending vector that it unmasks sends its message. -/
def execMsixUnmask (port : Fin 4) (vector : Fin 2048) (addr : DWord) (data : Word) (mask : Bool) (s : State) : Res :=
  .next (
    if s.hallPaused 0 then { s with held := s.held ++ [.msixUnmask port vector addr data mask] }
    else if !s.linkUp port 0 ∨ (s.fn (.pf0 port)).d3hot then s
    else
      let e := s.vec port vector
      let s := (s.wakeLink port 0).setVec port vector { e with addr := addr.toNat, data := data.toNat, mask := mask }
      if e.pending && e.mask && !mask && s.irqMethod port == .msix && !(s.fn (.pf0 port)).funcMask && s.canDma (.pf0 port) then
        (s.setVec port vector { s.vec port vector with pending := false }).send (.msix port vector addr.toNat data.toNat)
      else s)

/-- SLICE_MESSAGE_UNMASK (R287): a write of a message entry of the slice page; a pending entry that it unmasks sends its message. -/
def execSliceMessageUnmask (slice : Fin 256) (entry : Fin 64) (addr : DWord) (data : Word) (mask : Bool) (s : State) : Res :=
  let x := s.slice slice
  .next (s.pageWrite x.port x.half slice (.sliceMessageUnmask slice entry addr data mask) fun s =>
    let e := lookD s.msgs (64 * slice.val + entry.val) MsgEntry.masked
    let s := { s with msgs := put s.msgs (64 * slice.val + entry.val) ⟨addr.toNat, data.toNat, mask, e.pending⟩ }
    if mask then s else s.sliceMsgDrain slice)

/-- HST_INTX_ACK (R286). -/
def execHstIntxAck (m : Master) (port : Fin 4) (vector : Fin 2048) (s : State) : Res :=
  .next (s.openWrite m R.HST_INTX_ACK (.hstIntxAck m port vector) fun s =>
    (s.setVec port vector { s.vec port vector with pending := false }).intxSettle port)

/-- LINK_TRAINED (R17, R275, R296, R298): the link is up; where a stream runs it is compared with its entry, and its accelerators are looked for.
What a mismatch keeps disabled returns only where PERST# inserted the port again. -/
def execLinkTrained (port : Fin 4) (half : Fin 2) (width rate : Nat) (flit : Bool) (accel : BitVec 8) (s : State) : Res :=
  .next (
    if s.getF (linkStateF port half) ≠ 1 then s
    else
      let s := s.setFs [(linkStateF port half, 2), (linkWidthF port half, width), (linkRateF port half, rate), (linkFlitF port half, b2n flit),
        (linkLpmF port half, 0)]
      let s := if half = 0 then s.setF (F.HST_FUNC_PF0_IRQ port) (s.irqMethod port).code else s
      let s := s.event F.HST_STATUS_LINK
      let fresh := (s.link (2 * port.val + half.val)).fresh
      let s := s.setLink (2 * port.val + half.val) { s.link (2 * port.val + half.val) with fresh := false }
      if s.dev.stream then
        ((s.linkTried port half fresh).portsClear).accelCheck accel fun a =>
          s.accelPort a == port.val && s.accelHalf a == half.val && (fresh || !s.str.accelOff.contains a)
      else s)

end Sys2Proof.Machine
end

