-- ==== Sys2Proof/Machine/ModuleIo.lean ====
section
/-! DEFINITION. The commands of chapter 17 for the management endpoint and JTAG: I3C addresses and MCTP (R374), PLDM and its sensors (R375), and the TAP
(R378). -/

namespace Sys2Proof.Machine

/-- The endpoint runs in every state but OFF. -/
def State.endpointOn (s : State) : Bool := s.dev.st != .off

/-! ### I3C and MCTP (R374) -/

/-- A dynamic address is assigned to an endpoint that has none. -/
def State.assignAddr (s : State) (a : Nat) : State :=
  if s.endpointOn && s.mio.dynAddr.isNone then { s with mio := { s.mio with dynAddr := some a } } else s

/-- SETDASA (R374): from static address 0x3A. -/
def execSetdasa (addr : BitVec 7) (s : State) : Res := .next (s.assignAddr addr.toNat)

/-- ENTDAA (R374). -/
def execEntdaa (addr : BitVec 7) (s : State) : Res := .next (s.assignAddr addr.toNat)

/-- Messages that the endpoint sends over MCTP, by kind: 16 a control response, 17 a PLDM response, 18 a PlatformEventMessage. -/
def State.mctpSend (s : State) (kind : Nat) (fields : List Nat) : State := if s.mio.dynAddr.isSome then s.send (.msg 4 kind fields) else s

/-- Response to an MCTP control command: its fields, and the endpoint ID that it leaves. Set Endpoint ID 1, Get Endpoint ID 2, Get MCTP Version
Support 4, Get Message Type Support 5; other commands are unsupported. -/
def mctpAnswer (eid cmd arg : Nat) : List Nat × Nat :=
  if cmd = 1 then ([1, 0, arg], arg)
  else if cmd = 2 then ([2, 0, eid], eid)
  else if cmd = 4 then ([4, 0, 1], eid)
  else if cmd = 5 then ([5, 0, 3, 0x00, 0x01, 0x05], eid)
  else ([cmd, 5], eid)

/-- MCTP_CONTROL (R374): the endpoint answers in every state. -/
def execMctpControl (cmd arg : Byte) (s : State) : Res :=
  .next (if !s.endpointOn ∨ s.mio.dynAddr.isNone then s
    else
      let (fields, eid) := mctpAnswer s.mio.eid cmd.toNat arg.toNat
      { s with mio := { s.mio with eid := eid } }.mctpSend 16 fields)

/-! ### PLDM (R375) -/

/-- A sensor can be read: temperatures are unavailable in STANDBY (Table 17-4). -/
def State.sensorOn (s : State) (n : Nat) : Bool := s.endpointOn && (s.dev.st != .standby || !(4 ≤ n && n ≤ 8))

/-- Reading of a sensor (Table 17-4) from the last sample, HBM_STACK_s.TEMP and the device state; the die temperature is a free value. -/
def State.reading (s : State) (n : Nat) : Nat × State :=
  let v := s.getF F.PWR_INPUT_MV
  let a := s.getF F.PWR_INPUT_MA
  if n = 1 then (v / 10, s) else if n = 2 then (a, s) else if n = 3 then (v * a / 100000, s)
  else if 5 ≤ n ∧ n ≤ 8 then (s.getF (F.HBM_STACK_TEMP (n - 5)), s)
  else if n = 9 then (s.dev.st.code, s) else if n = 10 then (s.dev.shed, s)
  else
    let (w, s) := s.drawWord
    (w % 256, s)

/-- GetSensorReading of a sensor: its number, whether it is available, its reading and its last reported state. -/
def State.sensorAnswer (s : State) (n : Nat) : State :=
  if n = 0 ∨ 10 < n then s.mctpSend 17 [2, 0x11, 0x80]
  else if !s.sensorOn n then s.mctpSend 17 [2, 0x11, 0, n, 0]
  else
    let (v, s) := s.reading n
    s.mctpSend 17 [2, 0x11, 0, n, 1, v, lookD s.mio.sensors n 0]

/-- The Device Serial Number (R337): the first 8 bytes of the SHA-384 digest of the identity public key. -/
def serialNumber : Nat := leNat ((beBytes 48 (sha384 Config.identityKey).toNat).take 8)

/-- PLDM_REQUEST (R374, R375): the sequencer answers in STANDBY, and firmware once it runs, when MGMT serves (R329): base (type 0), monitoring (type 2) and FRU data (type 4). -/
def execPldmRequest (type cmd arg : Byte) (s : State) : Res :=
  .next (if !s.endpointOn ∨ !(s.dev.st == .standby || s.dev.firmware) then s
    else s.mgmtAsk (.pldmRequest type cmd arg) fun s =>
    if type = 0 ∧ cmd = 4 then s.mctpSend 17 [0, 4, 0, 0, 2, 4]
    else if type = 2 ∧ cmd = 0x11 then s.sensorAnswer arg.toNat
    else if type = 4 ∧ cmd = 2 then s.mctpSend 17 [4, 2, 0, 0x9600, s.reg R.DEV_REV, serialNumber]
    else s.mctpSend 17 [type.toNat, cmd.toNat, 5])

/-- A sensor's new state: 0 normal, 1 warning, 2 trip for sensors 1 to 8, and the value itself for 9 and 10. -/
def State.sensorFits (s : State) (n level : Nat) : Bool :=
  if n = 9 then level == s.dev.st.code else if n = 10 then level == s.dev.shed else 1 ≤ n && n ≤ 8 && level ≤ 2

/-- SENSOR_THRESHOLD_CROSSING (R375): a change is reported by PlatformEventMessage; a temperature trip is fatal with reason THERMAL. -/
def execSensorThresholdCrossing (sensor : Fin 11) (level : Nat) (s : State) : Res :=
  .next (
    let old := lookD s.mio.sensors sensor 0
    if !s.sensorOn sensor || !s.sensorFits sensor level || old == level then s
    else
      let s := { s with mio := { s.mio with sensors := put s.mio.sensors sensor level } }.mctpSend 18 [sensor, old, level]
      if 4 ≤ sensor.val ∧ sensor.val ≤ 8 ∧ level = 2 then s.fatal 0x09 sensor 0xFF else s)

/-! ### JTAG (R378) -/

/-- IDCODE of the TAP. -/
def jtagId : Nat := 0x096003B9

/-- An instruction as the port takes it: 0 IDCODE, 1 BYPASS, and others only where a token has unlocked the port. -/
def State.tapTakes (s : State) (ir : Nat) : Nat := if ir ≤ 1 ∨ 0 < s.getF F.SIG_DBG_RESULT_LEVEL then ir else 1

/-- JTAG_INSTRUCTION (R348, R378): IDCODE and BYPASS answer always; a locked port takes any other instruction as BYPASS. -/
def execJtagInstruction (ir : Byte) (s : State) : Res :=
  .next (if s.dev.st = .off ∨ s.mio.tapReset then s
    else
      let i := s.tapTakes ir.toNat
      let s := { s with mio := { s.mio with tapIr := i } }
      if i = 0 then s.send (.msg 5 0 [jtagId]) else if i = 1 then s.send (.msg 5 1 [0]) else s)

/-- JTAG_TRST (R378): low holds the TAP in reset, with IDCODE selected, and has no other effect. -/
def execJtagTrst (low : Bool) (s : State) : Res :=
  .next { s with mio := { s.mio with tapReset := low, tapIr := if low then 0 else s.mio.tapIr } }

end Sys2Proof.Machine
end

