-- ==== Sys2Proof/Machine/Newel.lean ====
section
/-! DEFINITION. Newel time: rate and steps (R99, R102), the time state (R101) and the 1PPS signals (R100, R377). -/

namespace Sys2Proof.Machine

/-- The signed step in FLT_NEWEL_STEP (Table 05-17). -/
def State.stepNs (s : State) : Int := toSigned 64 (s.reg R.FLT_NEWEL_STEP_LO + 2 ^ 32 * s.reg R.FLT_NEWEL_STEP_HI)

/-- A STEP by a signed offset (R102): a negative one is refused while a flight is active, and any whose result leaves 64 bits. -/
def State.newelBy (s : State) (d : Int) : State :=
  let t : Int := (s.time.ns : Int) + d
  if d < 0 ∧ s.flights.any (fun e => e.2.active) ∨ t < 0 ∨ 2 ^ 64 ≤ t then s.newelRefuse
  else { s with time := { s.time with ns := t.toNat } }

/-- A STEP by FLT_NEWEL_STEP (R102). -/
def State.newelStep (s : State) : State := s.newelBy s.stepNs

/-- NEWEL_STEP (R102). -/
def execNewelStep (m : Master) (s : State) : Res :=
  .next (s.guardWrite m R.FLT_NEWEL_CTRL (.newelStep m) fun s => if s.newelOwned m then s.newelRefuse else s.newelStep)

/-- NEWEL_ADJ_WRITE (R102). -/
def execNewelAdjWrite (m : Master) (data : Word) (s : State) : Res :=
  .next (s.guardWrite m R.FLT_NEWEL_ADJ (.newelAdjWrite m data) fun s =>
    if s.newelOwned m then s.newelRefuse else s.setReg R.FLT_NEWEL_ADJ data.toNat)

/-- PPS_OUT driven to a level (R377). -/
def State.ppsOut (s : State) (high : Bool) : State :=
  if s.mio.ppsOut = high then s else { s.send (.pin 2 (b2n high)) with mio := { s.mio with ppsOut := high } }

/-- Encoding of the time state (Table 05-17). -/
def TimeState.code : TimeState → Nat
  | .acquiring => 0
  | .locked => 1
  | .holdover => 2
  | .unlocked => 3

/-- The time state changes (R101): shown, with a run count of 0 on entry to UNLOCKED; PPS_OUT stays low outside LOCKED and HOLDOVER
(R377). -/
def State.setTime (s : State) (st : TimeState) : State :=
  if s.time.st = st then s
  else
    let s := { s with time := { s.time with st := st, run := if st = TimeState.unlocked then 0 else s.time.run } }
    let s := (s.eventV F.FLT_PTP_STATUS_STATE st.code).event F.FLT_STATUS_PTP_EVENT
    let s := if st = .holdover then s.begin .holdover else s
    if st = .locked ∨ st = .holdover then s else s.ppsOut false

/-- One offset measurement (R101): good within ±LOCK_NS. -/
def State.syncOffset (s : State) (off : Int) : State :=
  let good : Bool := decide (off.natAbs ≤ s.getF F.FLT_CONFIG_LOCK_NS)
  let s := (s.setReg R.FLT_PTP_OFFSET (ofSigned 32 off)).begin .sync
  let s := { s with time := { s.time with heard := true, run := if good then s.time.run + 1 else 0 } }
  match s.time.st, good with
  | .acquiring, true => if 16 ≤ s.time.run then s.setTime .locked else s
  | .unlocked, true => if 16 ≤ s.time.run then s.setTime .locked else s
  | .holdover, true => s.setTime .locked
  | .locked, false => s.setTime .unlocked
  | .holdover, false => s.setTime .unlocked
  | _, _ => s

/-- A PTP event message is received or sent on a port: the MAC timestamps it (R100). -/
def State.ptpStamp (s : State) (port : Nat) (tx : Bool) : State :=
  { s with time := { s.time with stamps := put s.time.stamps (2 * port + b2n tx) s.now } }

/-- After a Sync, firmware of the PTP service sends a delay request when it will: an event message on queue 0 of the PTP port, which the MAC timestamps
(R100, R203). The spec gives neither the moment nor the bytes (log entry 131). -/
def State.delayReq (s : State) : State :=
  let (w, s) := s.drawWord
  if w % 2 = 0 then s
  else (s.txNet s.ptpPort 0 0xFFFF (64 + w / 2 % 64) (.net 0xFFFF 0x88F7 [1])).ptpStamp s.ptpPort true

/-- PTP_SYNC_RECEIVED (R100, R101): timestamped, and measured, in a pause of H11 too (Table 02-8); a device in role none or grandmaster makes no
measurement. -/
def execPtpSyncReceived (off : Int) (s : State) : Res :=
  .next (if !s.answers 9 then s else
    let s := s.ptpStamp s.ptpPort false
    if s.ptpRole < 2 then s else (s.syncOffset off).delayReq)

/-- SYNC_SILENCE_EXPIRY: 1 s without a Sync (R101). -/
def execSyncSilenceExpiry (s : State) : Res :=
  .next (if s.answers 9 ∧ 2 ≤ s.ptpRole ∧ s.time.st = .locked then (s.ripe .sync (10 ^ 9)).setTime .holdover else s)

/-- HOLDOVER_EXPIRY: HOLDOVER has lasted longer than FLT_CONFIG.HOLDOVER_MS (R101). -/
def execHoldoverExpiry (s : State) : Res :=
  .next (if s.answers 9 ∧ s.time.st = .holdover then (s.ripe .holdover (10 ^ 6 * s.getF F.FLT_CONFIG_HOLDOVER_MS + 1)).setTime .unlocked else s)

/-- PTP_START_TIMEOUT (R101, Table 01-5): no master heard in a stated slave role. -/
def execPtpStartTimeout (s : State) : Res :=
  .next (if s.answers 9 ∧ s.ptpRole = 2 ∧ !s.time.heard ∧ !s.str.ptpOff then
    let t := s.ripe .ptpStart (10 ^ 9 * s.ptpStartS)
    { t with str := { t.str with ptpOff := true } }.envRaise 4 0 1 0 else s)

/-- Signed offset from Newel time to its nearest whole second; half a second counts forward. -/
def State.toSecond (s : State) : Int :=
  let r : Nat := s.now % 10 ^ 9
  if r < 5 * 10 ^ 8 then -(r : Int) else Int.ofNat (10 ^ 9 - r)

/-- PPS_IN_EDGE (R100, R377): a rising edge after `low` ns low and before `high` ns high is timestamped, and a grandmaster aligns the nearest second of
Newel time to it: its servo applies a STEP, or where R102 allows none slews at a rate that the spec leaves open (log entry 131). Shorter pulses are
ignored. -/
def execPpsInEdge (low high : Nat) (s : State) : Res :=
  .next (if s.answers 9 ∧ s.ppsMode = 1 ∧ 100 ≤ low ∧ 100 ≤ high then
      let s := { s with time := { s.time with ppsAt := some s.now, ppsWarned := false } }
      if s.ptpRole ≠ 1 ∨ s.now % 10 ^ 9 = 0 then s
      else if s.toSecond < 0 ∧ s.flights.any (fun e => e.2.active) then
        let (w, s) := s.drawWord
        s.setReg R.FLT_NEWEL_ADJ (w % 2 ^ 32)
      else s.newelBy s.toSecond
    else s)

/-- PPS_IN_ABSENT (R377): firmware of the PTP service logs a warning, and nothing else changes. -/
def execPpsInAbsent (s : State) : Res :=
  .next (if s.answers 9 ∧ s.ppsMode = 1 then
      { s with time := { s.time with ppsWarned := true } }.logWrite ((s.ownerCore 2 0).getD 0) 1 0 (Config.ppsWarning % 65536) 0xFFFF []
    else s)

/-- PPS_OUT_EDGE (R377): PPS_OUT rises at the next whole second of Newel time, or falls 100 ms after one. -/
def execPpsOutEdge (high : Bool) (s : State) : Res :=
  .next (if s.answers 9 ∧ s.ppsMode = 2 ∧ (s.timeState = .locked ∨ s.timeState = .holdover) ∧ s.mio.ppsOut ≠ high then
      (s.atLeast (if high then roundUp s.now (10 ^ 9) else s.now / 10 ^ 9 * 10 ^ 9 + 10 ^ 8)).ppsOut high
    else s)

end Sys2Proof.Machine
end

