-- ==== Sys2Proof/Machine/Nvme.lean ====
section
/-! DEFINITION. The storage service's commands (R211 to R234). A command of a queue is the row of its entry, given as the entry that the
controller fetches. -/

namespace Sys2Proof.Machine

/-! ### Properties and doorbells -/

/-- A tail doorbell (R211): a queue that does not exist, or a value outside it, raises the event of log entry 49. -/
def State.sqDoorbell (s : State) (c queue tail : Nat) : State :=
  match (look (s.ctrl c).sqs queue).bind fun q => (s.ring q.ring).map fun r => (q.ring, r) with
  | none => if (s.ctrl c).en then s.nvEvent c 0 0 1 else s
  | some (k, r) => if r.entries ≤ tail then s.nvEvent c 0 1 1 else s.setRing k { r with pi := tail }

/-- NVME_SQ_DOORBELL (R211). -/
def execNvmeSqDoorbell (port : Fin 4) (half : Fin 2) (slice : Fin 256) (queue tail : BitVec 16) (stores : List (DWord × Byte)) (s : State) : Res :=
  .next ((s.hostStores (s.slice slice).space stores).pageWrite port half slice (.nvmeSqDoorbell port half slice queue tail []) fun s =>
    s.sqDoorbell slice queue.toNat tail.toNat)

/-- A head doorbell (R211): entries that wait for room go out. -/
def State.cqDoorbell (s : State) (c queue head : Nat) : State :=
  match (look (s.ctrl c).cqs queue).bind fun k => (s.ring k).map fun r => (k, r) with
  | none => if (s.ctrl c).en then s.nvEvent c 0 0 1 else s
  | some (k, r) => if r.entries ≤ head then s.nvEvent c 0 1 1 else (s.setRing k { r with ci := head }).nvDrain c

/-- NVME_CQ_DOORBELL (R211). -/
def execNvmeCqDoorbell (port : Fin 4) (half : Fin 2) (slice : Fin 256) (queue head : BitVec 16) (s : State) : Res :=
  .next (s.pageWrite port half slice (.nvmeCqDoorbell port half slice queue head) fun s => s.cqDoorbell slice queue.toNat head.toNat)

/-- CC.EN set (R211): the admin queues take two rings, and RDY rises; without them it stays 0 (log entry 50). -/
def State.ctrlEnable (s : State) (c cc aqa asq acq : Nat) : State :=
  let x := s.ctrl c
  let sn := aqa % 4096 + 1
  let cn := aqa / 65536 % 4096 + 1
  if !s.ctrlOn c ∨ x.en ∨ x.rdy ∨ cc % 2 = 0 then s
  else
    let s := s.setCtrl c { x with cc := cc, aqa := aqa, asq := asq, acq := acq, en := true, ps := 0, idleAt := s.up }
    if sn < 2 ∨ cn < 2 then s
    else match s.nvTake c (nvRing c 0x0B (acq / 4096 * 4096) cn (some 0)) with
      | (none, s) => s
      | (some k, s) =>
        match s.nvTake c (nvRing c 0x0A (asq / 4096 * 4096) sn none) with
        | (none, s) => { s with rings := drop s.rings k }
        | (some q, s) => s.updCtrl c fun x => { x with rdy := true, sqs := [(0, ⟨q, 0, none⟩)], cqs := [(0, k)] }

/-- CONTROLLER_ENABLE (R211). -/
def execControllerEnable (port : Fin 4) (half : Fin 2) (slice : Fin 256) (cc aqa : Word) (asq acq : DWord) (s : State) : Res :=
  .next (s.pageWrite port half slice (.controllerEnable port half slice cc aqa asq acq) fun s =>
    s.ctrlEnable slice cc.toNat aqa.toNat asq.toNat acq.toNat)

/-- CONTROLLER_RESET (R226): CC.EN cleared, or an NVM Subsystem Reset; a slice reset does the same. -/
def execControllerReset (port : Fin 4) (half : Fin 2) (slice : Fin 256) (s : State) : Res :=
  .next (s.pageWrite port half slice (.controllerReset port half slice) fun s => s.nvReset slice)

/-- CONTROLLER_RESET_DONE (R226): what was in flight has ended. -/
def execControllerResetDone (slice : Fin 256) (s : State) : Res :=
  .next (if s.nvResetting slice ∧ !s.beHost slice then s.updCtrl slice fun x => { x with rdy := false } else s)

/-! ### Admin commands -/

/-- CREATE_IO_SQ (R211, R212). -/
def execCreateIoSq (slice : Fin 256) (cmd : Desc) (s : State) : Res := .next (s.nvFetch slice 0 cmd (· == NvKind.createSq))

/-- CREATE_IO_CQ (R211, R212). -/
def execCreateIoCq (slice : Fin 256) (cmd : Desc) (s : State) : Res := .next (s.nvFetch slice 0 cmd (· == NvKind.createCq))

/-- DELETE_IO_SQ (R225). -/
def execDeleteIoSq (slice : Fin 256) (cmd : Desc) (s : State) : Res := .next (s.nvFetch slice 0 cmd (· == NvKind.deleteSq))

/-- DELETE_IO_CQ (R211). -/
def execDeleteIoCq (slice : Fin 256) (cmd : Desc) (s : State) : Res := .next (s.nvFetch slice 0 cmd (· == NvKind.deleteCq))

/-- GET_LOG_PAGE (R213). -/
def execGetLogPage (slice : Fin 256) (cmd : Desc) (s : State) : Res := .next (s.nvFetch slice 0 cmd (· == NvKind.getLog))

/-- IDENTIFY (R213). -/
def execIdentify (slice : Fin 256) (cmd : Desc) (s : State) : Res := .next (s.nvFetch slice 0 cmd (· == NvKind.identify))

/-- NVME_ABORT (R224). -/
def execNvmeAbort (slice : Fin 256) (cmd : Desc) (s : State) : Res := .next (s.nvFetch slice 0 cmd (· == NvKind.abort))

/-- SET_FEATURES (R213, R227). -/
def execSetFeatures (slice : Fin 256) (cmd : Desc) (s : State) : Res := .next (s.nvFetch slice 0 cmd (· == NvKind.setFeat))

/-- GET_FEATURES (R213). -/
def execGetFeatures (slice : Fin 256) (cmd : Desc) (s : State) : Res := .next (s.nvFetch slice 0 cmd (· == NvKind.getFeat))

/-- ASYNC_EVENT_REQUEST (R213). -/
def execAsyncEventRequest (slice : Fin 256) (cmd : Desc) (s : State) : Res := .next (s.nvFetch slice 0 cmd (· == NvKind.aer))

/-- NS_CREATE (R214). -/
def execNsCreate (slice : Fin 256) (cmd : Desc) (s : State) : Res := .next (s.nvFetch slice 0 cmd (· == NvKind.nsCreate))

/-- NS_DELETE (R214). -/
def execNsDelete (slice : Fin 256) (cmd : Desc) (s : State) : Res := .next (s.nvFetch slice 0 cmd (· == NvKind.nsDelete))

/-- NAMESPACE_ATTACHMENT (R214). -/
def execNamespaceAttachment (slice : Fin 256) (cmd : Desc) (s : State) : Res := .next (s.nvFetch slice 0 cmd (· == NvKind.nsAttach))

/-- FORMAT_NVM (R233). -/
def execFormatNvm (slice : Fin 256) (cmd : Desc) (s : State) : Res := .next (s.nvFetch slice 0 cmd (· == NvKind.format))

/-- SANITIZE_CRYPTO_ERASE (R229). -/
def execSanitizeCryptoErase (slice : Fin 256) (cmd : Desc) (s : State) : Res := .next (s.nvFetch slice 0 cmd (· == NvKind.sanCrypto))

/-- SANITIZE_BLOCK_ERASE (R229). -/
def execSanitizeBlockErase (slice : Fin 256) (cmd : Desc) (s : State) : Res := .next (s.nvFetch slice 0 cmd (· == NvKind.sanBlock))

/-- SANITIZE_OVERWRITE (R229). -/
def execSanitizeOverwrite (slice : Fin 256) (cmd : Desc) (s : State) : Res := .next (s.nvFetch slice 0 cmd (· == NvKind.sanOver))

/-- SANITIZE_EXIT_FAILURE (R229, R232). -/
def execSanitizeExitFailure (slice : Fin 256) (cmd : Desc) (s : State) : Res := .next (s.nvFetch slice 0 cmd (· == NvKind.sanExit))

/-! ### I/O commands -/

/-- A command of an I/O queue. -/
def State.nvIo (s : State) (c queue : Nat) (cmd : Desc) (want : NvKind → Bool) : State := if queue = 0 then s else s.nvFetch c queue cmd want

/-- NVME_READ (R216). -/
def execNvmeRead (slice : Fin 256) (queue : BitVec 16) (cmd : Desc) (s : State) : Res := .next (s.nvIo slice queue.toNat cmd (· == NvKind.read))

/-- NVME_WRITE (R217, R219). -/
def execNvmeWrite (slice : Fin 256) (queue : BitVec 16) (cmd : Desc) (s : State) : Res := .next (s.nvIo slice queue.toNat cmd (· == NvKind.write))

/-- NVME_FLUSH (R223). -/
def execNvmeFlush (slice : Fin 256) (queue : BitVec 16) (cmd : Desc) (s : State) : Res := .next (s.nvIo slice queue.toNat cmd (· == NvKind.flush))

/-- NVME_COMPARE (R213). -/
def execNvmeCompare (slice : Fin 256) (queue : BitVec 16) (cmd : Desc) (s : State) : Res := .next (s.nvIo slice queue.toNat cmd (· == NvKind.compare))

/-- WRITE_ZEROES (R215). -/
def execWriteZeroes (slice : Fin 256) (queue : BitVec 16) (cmd : Desc) (s : State) : Res := .next (s.nvIo slice queue.toNat cmd (· == NvKind.zeroes))

/-- DATASET_MANAGEMENT (R213, R215). -/
def execDatasetManagement (slice : Fin 256) (queue : BitVec 16) (cmd : Desc) (s : State) : Res := .next (s.nvIo slice queue.toNat cmd (· == NvKind.dsm))

/-! ### The device's own work -/

/-- DESTAGE (R217). -/
def execDestage (slice : Fin 256) (count : Nat) (s : State) : Res := .next (if s.ctrlServes slice then s.destage slice count else s)

/-- A backend command in flight whose controller is served. -/
def State.beFind (s : State) (id : Nat) : Option BeCmd := s.nvs.be.find? fun b => b.id == id && s.ctrlServes b.ctrl

/-- BACKEND_RESPONSE (R220): status 0 is success; a read brings its bytes. -/
def execBackendResponse (id : Nat) (status : BitVec 11) (data : List Byte) (s : State) : Res :=
  .next (match s.beFind id with
    | none => s
    | some b => if status = 0 then s.beDone b data else s.beRetry b status.toNat (hostStatus status.toNat))

/-- BACKEND_TIMEOUT (R220). -/
def execBackendTimeout (id : Nat) (s : State) : Res :=
  .next (match s.beFind id with
    | none => s
    | some b => ((s.upTo (b.at' + 10 ^ 6 * s.beTimeoutMs)).bump F.NVS_CNT_BE_TIMEOUT).beRetry b 0xFFFF nvUnavailable)

/-- CACHE_SPACE_TIMEOUT (R217). -/
def execCacheSpaceTimeout (slice : Fin 256) (queue cid : BitVec 16) (s : State) : Res :=
  .next (match s.nvCmd slice queue.toNat cid.toNat with
    | none => s
    | some m =>
      if m.phase ≠ .space then s
      else
        let s := s.upTo (m.at' + 10 ^ 6 * s.beTimeoutMs)
        if s.cacheRoom slice (sqeNs m.sqe) (sqeLba m.sqe) (sqeBlocks m.sqe) then s.nvRun slice queue.toNat cid.toNat
        else s.nvEnd slice queue.toNat cid.toNat nvUnavailable 0)

/-- A backend endpoint's connection is lost (R220): host commands on it end, and destage and sanitize wait for their timeouts (log entry
51). -/
def State.beConnLost (s : State) (k : Nat) : State :=
  if s.getF (F.NVS_BE_STATE k) ≠ 2 then s
  else
    let s := ((s.setF (F.NVS_BE_STATE k) 3).setF (F.NVS_BE_LAST_STATUS k) 0xFFFF).event F.NVS_STATUS_BACKEND_DOWN
    (s.nvs.be.filter fun b => b.ep == k && (match b.use with | .cmd _ _ => true | _ => false)).foldl (fun s b => s.beLost b 0xFFFF nvUnavailable) s

/-- BACKEND_CONNECTION_LOST (R220). -/
def execBackendConnectionLost (endpoint : Fin 16) (s : State) : Res := .next (s.beConnLost endpoint)

/-- BACKEND_RECONNECTED (R220, R366): the endpoint is up, and what a sanitize waited for it is over (R232); at start-up it is one of the answers that step 9 waits for. -/
def execBackendReconnected (endpoint : Fin 16) (s : State) : Res :=
  .next (if !s.dev.stream ∨ !s.backendStated endpoint ∨ s.getF (F.NVS_BE_STATE endpoint) = 2 then s
    else
      let s := s.setF (F.NVS_BE_STATE endpoint) 2
      let s := s.nvs.ctrls.foldl (fun s e => if s.opEp e.1 = some endpoint.val then s.updCtrl e.1 fun x => { x with run := { x.run with down := none } } else s) s
      let s := s.nvs.ctrls.foldl (fun s e => s.opKick e.1) s
      s.envSettle)

/-- APST_IDLE_EXPIRY (R227): an idle controller moves down one state; Autonomous Power State Transition is on unless Set Features cleared
it. -/
def execApstIdleExpiry (slice : Fin 256) (s : State) : Res :=
  .next (
    let x := s.ctrl slice
    if !x.rdy ∨ !x.en ∨ !x.cmds.isEmpty ∨ x.entering.isSome ∨ x.exiting.isSome ∨ 4 ≤ x.ps ∨ lookD x.feats 0x0C 1 % 2 = 0 ∨ s.psIdle slice (x.ps + 1) = 0 then s
    else
      let s := (s.upTo (x.idleAt + 10 ^ 6 * s.psIdle slice (x.ps + 1))).psEnter slice (x.ps + 1)
      (s.bufferedApply 14 2).updCtrl slice fun x => { x with idleAt := s.up })

/-- EXLAT_DONE (R228). -/
def execExlatDone (slice : Fin 256) (s : State) : Res := .next (s.nvWake slice)

/-- SANITIZE_CHECKPOINT (R230). -/
def State.opCheckpoint (s : State) (c : Nat) : State :=
  let x := s.ctrl c
  if x.rec'.state ≠ 1 ∨ !x.run.active ∨ !s.ctrlServes c then s
  else (s.upTo (x.run.recAt + 10 ^ 9 * max 1 (s.getF F.NVS_SANITIZE_CFG_CKPT_S))).recWrite c fun r => { r with progress := x.run.progress }

/-- SANITIZE_CHECKPOINT (R230). -/
def execSanitizeCheckpoint (slice : Fin 256) (s : State) : Res := .next (s.opCheckpoint slice)

/-- SANITIZE_PASS_DONE (R230). -/
def execSanitizePassDone (slice : Fin 256) (s : State) : Res := .next (s.opPass slice)

/-- SANITIZE_FAIL_TIMEOUT (R232): time paused by shedding does not count. -/
def execSanitizeFailTimeout (slice : Fin 256) (s : State) : Res :=
  .next (
    let x := s.ctrl slice
    match x.run.down with
    | none => s
    | some t =>
      if !x.rec'.sanitizing ∨ !x.run.active ∨ s.shedAt 2 then s
      else (s.upTo (t + 10 ^ 9 * s.getF F.NVS_SANITIZE_CFG_FAIL_S)).opEnd slice 3)

/-- OPERATION_RESUME (R231): the pass restarts at PROGRESS. -/
def execOperationResume (slice : Fin 256) (s : State) : Res :=
  .next (
    let x := s.ctrl slice
    let st := (s.slice slice).state
    if x.rec'.state ≠ 1 ∨ x.run.active ∨ !s.dev.stream ∨ !s.ctrlServes slice ∨ (st ≠ .bound ∧ st ≠ .active) then s
    else
      let s := s.setCtrl slice { x with run := ⟨true, x.rec'.progress, none, s.up, Config.resumedSes s.draws % 3, none⟩ }
      { s with draws := s.draws + 1 }.opKick slice)

end Sys2Proof.Machine
end

