-- ==== Sys2Proof/Machine/Power.lean ====
section
/-! DEFINITION. The commands of chapter 16: the input, start-up of the domains, the Coffer's samples and epochs, shedding and the resets (R350 to
R366, R372, R376). -/

namespace Sys2Proof.Machine

/-- INPUT_STANDBY_UP (R351, R369): the standby domain starts. -/
def execInputStandbyUp (s : State) : Res :=
  .next (if s.dev.st ≠ .off then s
    else ({ s with dev := { s.dev with st := .standby }, mio := { s.mio with stbyOk := true } }.send (.pin 0 1)).setReg R.PWR_LAST_RESET (2 ^ 28))

/-- INPUT_STANDBY_DOWN (R351, R369): the standby domain stops, and what it keeps is lost. -/
def execInputStandbyDown (s : State) : Res :=
  .next (if s.dev.st ≠ .standby then s
    else
      let t := (s.afterReset false .off).resetShow s false
      let t := { t with regs := t.regs.filter fun e => !([R.PWR_EVENT, R.PWR_LAST_RESET, R.PWR_CNT_BROWNOUT].contains e.1) }
      { t with mio := { State.reset.mio with stbyOk := false, tapReset := s.mio.tapReset } }.send (.pin 0 0))

/-- START_THRESHOLD (R351, R364, R376): BOOT, with the straps as they are sampled. -/
def execStartThreshold (straps : Fin 16) (s : State) : Res :=
  .next (if s.dev.st ≠ .standby then s else (s.setF F.STR_ENV_ENTRY_STRAPS straps).setDev { s.dev with st := .boot })

/-- ISLANDS_LOCKED (R352, R366, R369, R372): every domain is on, MOD_PWRGD is asserted, and the ports' internal hold begins. -/
def execIslandsLocked (s : State) : Res :=
  .next (if s.dev.st ≠ .boot ∨ s.mio.modPwrgd then s
    else { (s.setReg R.PWR_DOM_ON_LO (2 ^ 32 - 1)).setReg R.PWR_DOM_ON_HI 15 with
      mio := { s.mio with modPwrgd := true, portHold := true } }.send (.pin 1 1))

/-- PORT_RESET_HOLD_END (R372): ports whose PERST# is deasserted start to train. -/
def execPortResetHoldEnd (s : State) : Res :=
  .next (if !s.mio.portHold then s else (List.range 4).foldl State.portTrain { s with mio := { s.mio with portHold := false } })

/-- COFFER_SAMPLE (R354, R359, R360): `mv` counts 10 mV and `ma` mA, as PWR_INPUT shows them. -/
def execCofferSample (mv ma : Nat) (s : State) : Res := .next (if s.dev.st.live then s.sample (mv % 65536) (ma % 65536) else s)

/-- STAGE5_SAVE_DONE (R361). -/
def execStage5SaveDone (s : State) : Res := .next (if s.pwr.saving then s.save5 else s)

/-- BROWNOUT (R362). -/
def execBrownout (s : State) : Res :=
  .next (if s.dev.st = .off then s else ((s.powerEvent 1 s.minV).bump F.PWR_CNT_BROWNOUT_COUNT).coldReset 2 0)

/-- OVERVOLTAGE_TRIP (R351). -/
def execOvervoltageTrip (s : State) : Res := .next (if s.dev.st = .off then s else (s.powerEvent 2 s.minV).coldReset 3 0)

/-- PWR_RESET_COLD (R365). -/
def execPwrResetCold (m : Master) (s : State) : Res := .next (s.guardWrite m R.PWR_RESET_CMD (.pwrResetCold m) fun s => s.coldReset 4 m.source)

/-- PWR_RESET_WARM (R365). -/
def execPwrResetWarm (m : Master) (s : State) : Res := .next (s.guardWrite m R.PWR_RESET_CMD (.pwrResetWarm m) fun s => (s.setF F.PWR_RESET_CMD_KIND 2).warmReset m.source)

/-- PWR_SHED_WRITE (R360): `reg` 0, 1, 2 for PWR_SHED_A, B, C, with its two fields. -/
def execPwrShedWrite (m : Master) (reg : Fin 3) (hi lo : Nat) (s : State) : Res :=
  .next (s.guardWrite m (R.PWR_SHED_A + 4 * reg) (.pwrShedWrite m reg hi lo) fun s => s.shedWrite reg hi lo)

end Sys2Proof.Machine
end

