-- ==== Sys2Proof/Machine/Registers.lean ====
section
/-! DEFINITION. Reads and writes of BAR0 that have no row of their own, and the register seal (R7, R258 to R271). -/

namespace Sys2Proof.Machine

/-- A write of `data` to this register is a command with a row of its own, not a plain register write (log entry 8): it starts an
operation, or the register is one whose every write is that row. -/
def startsCommand (a : Nat) (data : Nat) : Bool :=
  let go := bitAt data 31
  let op (hi lo n : Nat) : Bool := 1 ≤ bits data hi lo && bits data hi lo ≤ n
  ([R.ETH_RETRAIN, R.ERR_INJECT, R.STW_LOG_CTRL, R.SIG_SVN_COMMIT, R.SIG_DBG_CMD, R.GAL_CANCEL_CTRL, R.FLT_CANCEL_CTRL, R.RTE_CANCEL_CTRL,
    R.PLC_CANCEL_CTRL, R.TXS_CANCEL_CTRL, R.PKT_TLOAD_CTRL, R.CVU_JOB_CTRL].contains a && go) ||
  (a == R.SLC_CMD && go && op 3 0 12) || ((a == R.PWR_RESET_CMD || a == R.SIG_LKEY_CMD) && go && op 1 0 2) ||
  (a == R.STW_CORE_CTRL && go && op 30 28 2) || (a == R.CIP_SA_CMD && go && op 3 0 3) || (a == R.STR_CMD && op 3 0 5) ||
  (a == R.STW_FW_CMD && op 3 0 2) || (a == R.PLC_EVAC && (go || bitAt data 30)) ||
  ((a == R.PKT_TREE_COMMIT || a == R.FLT_NEWEL_CTRL) && data % 2 == 1) ||
  [R.PWR_SHED_A, R.PWR_SHED_B, R.PWR_SHED_C, R.STR_BOOT_SLOT, R.STW_FW_BOOT, R.FLT_NEWEL_ADJ, R.HST_INTX_ACK].contains a ||
  (R.DEV_DRV_HELLO 0 ≤ a && a < R.DEV_LEASE_LIMIT 0) || (List.range 19).any fun b => sealRefAddr b == a

/-- An access of a master reaches a register: BAR0 answers, the offset is mapped and the block answers. The violation of an unmapped
offset is counted (R258, R264, R267). -/
def State.reach (s : State) (m : Master) (off : Nat) : Option Nat × State :=
  if !s.dev.st.live || s.asleep m then (none, s)
  else
    let s := s.wakeMaster m
    match ownAddr off with
    | none => (none, s.violate m .unmapped off)
    | some a =>
      match blockOf a with
      | some b => if s.answers b then (some a, s) else (none, s)
      | none => (none, s)

/-- EN of the error ring set: PROD and CONS become 0 (R273). -/
def State.errEnable (s : State) : State := (s.setReg R.ERR_RING_PROD 0).setReg R.ERR_RING_CONS 0

/-- A register belongs to the context of the active CVU job (R254). -/
def State.jobContext (s : State) (a : Nat) : Bool :=
  s.cip.job.any fun j => R.CVU_CTX_CFG j.ctx ≤ a && a < R.CVU_CTX_CFG j.ctx + 32

/-- Wings whose cores the stream assigns SLOWPATH (R193, R318), as a mask. -/
def State.slowAllowed (s : State) : Nat :=
  (List.range 4).foldl (fun n w => if (List.range 8).any fun k => bitAt (s.getF (F.STW_CORE_SERVICES (8 * w + k))) 8 then n + 2 ^ w else n) 0

/-- EN and CACHE_MIB as a write to NVS_C_CFG leaves them (R216, Table 09-12): the size stays while EN is 1, and EN stays 0 where the slice's T1
quota lacks room. -/
def State.ctrlTaken (s : State) (data : Nat) : Nat :=
  let c := s.getF F.NVS_CSEL_CTRL
  let old := s.ctrlCfg c
  if bitAt old 31 then data / 65536 * 65536 + old % 65536
  else if bitAt data 31 ∧ s.reserveStatus c 1 (ceilDiv (data % 65536) 2) ≠ stOk then data % 2 ^ 31
  else data

/-- Bits of a command register that start its operation and read 0 (R7 and each register's table). -/
def selfClearing (a : Nat) : Word :=
  if a = R.STR_CMD ∨ a = R.STW_FW_CMD then 15#32
  else if a = R.PLC_EVAC then 0xC0000000#32
  else if a = R.FLT_NEWEL_CTRL then 1#32
  else if [R.SLC_CMD, R.ETH_RETRAIN, R.PWR_RESET_CMD, R.ERR_INJECT, R.STW_CORE_CTRL, R.SIG_SVN_COMMIT, R.SIG_LKEY_CMD, R.SIG_DBG_CMD,
    R.PKT_TLOAD_CTRL, R.CIP_SA_CMD].contains a then 0x80000000#32
  else 0#32

/-- A value as a register takes it: a bit that starts an operation reads 0 afterwards, and PKT_SLOW.WINGS names only wings assigned SLOWPATH
(R193). -/
def State.taken (s : State) (a : Nat) (data : Word) : Word :=
  let data := data &&& ~~~selfClearing a
  if a = R.PKT_SLOW then data &&& BitVec.ofNat 32 (0xFFFFFFF0 + s.slowAllowed)
  else if a = R.NVS_C_CFG then BitVec.ofNat 32 (s.ctrlTaken data.toNat)
  else data

/-- A write to an extent of a controller that is present is ignored (R214). -/
def State.extLocked (s : State) (a : Nat) : Bool := R.NVS_EXT_CFG 0 ≤ a && a < R.NVS_EXT_CFG 8 && s.ctrlOn (s.getF F.NVS_CSEL_CTRL)

/-- EN of a controller cleared: it is reset, and its cache goes (log entry 52). -/
def State.ctrlOff (s : State) (c : Nat) : State := (s.nvReset c).updCtrl c fun x => { x with cache := [] }

/-- A write to a register of a command with a row of its own: it is that row's, but from a master that its privileged fields refuse it is
a violation at the offset used (R264; log entry 8). -/
def State.commandRefused (s : State) (m : Master) (a off : Nat) : State :=
  if (rowOf a).any (fun r => r.hasAcc .prw) && !s.privileged m then s.violate m .privRW off else s

/-- A BAR0 write of one DWORD (R259, R260, R264, R267). -/
def State.regWrite (s : State) (m : Master) (off : BitVec 26) (data : Word) (be : BitVec 4) : State :=
  match s.reach m off.toNat with
  | (none, s) => s
  | (some a, s) =>
    if s.writeWaits m ((blockOf a).getD 19) then { s with held := s.held ++ [.registerWrite m off data be []] }
    else if be ≠ 15#4 then s.violate m .partialWrite off.toNat
    else if startsCommand a data.toNat then s.commandRefused m a off.toNat
    else if a = R.SLC_CMD ∧ bitAt data.toNat 31 ∧ s.privileged m ∧ s.getF F.SLC_STATUS_CMD_ACTIVE = 1 then s.bump F.SLC_CNT_BUSY
    else if s.extLocked a then s
    else if s.jobContext a then s.event F.CVU_STATUS_CTX_BUSY
    else if (a = R.FLT_NEWEL_STEP_LO ∨ a = R.FLT_NEWEL_STEP_HI) ∧ s.privileged m ∧ s.newelOwned m then s.newelRefuse
    else
      let k := s.keyOf a
      match rowOf a with
      | none => s
      | some r =>
        let en := s.getF F.ERR_RING_CTRL_EN
        let c := s.getF F.NVS_CSEL_CTRL
        let on := s.ctrlOn c
        let s := s.fieldWrite m off.toNat k r (s.taken a data)
        if a = R.ERR_RING_CTRL ∧ en = 0 ∧ s.getF F.ERR_RING_CTRL_EN = 1 then s.errEnable
        else if a = R.NVS_C_CFG ∧ on ∧ !s.ctrlOn c then s.ctrlOff c
        else s

/-- REGISTER_WRITE (R7). -/
def execRegisterWrite (m : Master) (off : BitVec 26) (data : Word) (be : BitVec 4) (stores : List (DWord × Byte)) (s : State) : Res :=
  .next ((match m with
    | .pf0 p => s.hostStores (.pf0 p) stores
    | _ => s).regWrite m off data be)

/-- A write to a sequence-clear register (R265). -/
def State.sqcClear (s : State) (m : Master) (off : BitVec 26) (data : Word) : State :=
  match s.reach m off.toNat with
  | (none, s) => s
  | (some a, s) =>
    if s.writeWaits m ((blockOf a).getD 19) then { s with held := s.held ++ [.sqcWrite m off data] }
    else match rowOf a with
      | none => s
      | some r => s.sqcWrite (s.keyOf a) r data.toNat

/-- SQC_WRITE (R265). -/
def execSqcWrite (m : Master) (off : BitVec 26) (data : Word) (s : State) : Res := .next (s.sqcClear m off data)

/-- BUFFERED_APPLY (R266). -/
def execBufferedApply (block : Fin 19) (bit : Fin 32) (s : State) : Res := .next (s.bufferedApply block bit)

/-- The latch of a register for a master (R261). -/
def latchKey (m : Master) (a : Nat) : Nat := m.code * 2 ^ 27 + a

/-- A high half latched for a master. -/
def State.latch (s : State) (m : Master) (a v : Nat) : State := { s with latches := put s.latches (latchKey m a) (BitVec.ofNat 32 v) }

/-- Fraction of a nanosecond as FLT_NEWEL_FRAC shows it: bits [15:0]. -/
def State.fracReg (s : State) : Nat := s.time.frac % 65536

/-- A read of FLT_NEWEL_LO latches FLT_NEWEL_HI and FLT_NEWEL_FRAC for the master (R261, R126). -/
def State.newelRead (s : State) (m : Master) : State :=
  match s.reach m R.FLT_NEWEL_LO with
  | (none, s) => s
  | (some _, s) => (s.latch m R.FLT_NEWEL_HI (s.now / 2 ^ 32)).latch m R.FLT_NEWEL_FRAC s.fracReg

/-- NEWEL_LO_READ (R261). -/
def execNewelLoRead (m : Master) (s : State) : Res := .next (s.newelRead m)

/-- The _LO halves of the 64-bit counters. -/
def counterLos : List Nat :=
  [R.CIP_CNT_BLOCKS_LO, R.CIP_CNT_XTS_LO, R.CVU_CNT_BYTES_LO, R.FLT_CNT_STEP_LO, R.GAL_CNT_ADD_LO, R.HBM_CNT_CE_LO, R.NVS_CNT_CMD_LO,
    R.NVS_CNT_DESTAGE_LO, R.PKT_CNT_RX_LO, R.PLC_CNT_MOVE_LO, R.RTE_CNT_RX_LO, R.RTE_CNT_TX_LO, R.SLC_CNT_DOORBELL_LO,
    R.TXS_CNT_BYTES_LO, R.TXS_CNT_FRAMES_LO] ++ (List.range 4).map R.ETH_CNT_FEC_CORR_LO

/-- A read of a register by a master: the _LO half of a 64-bit counter latches its _HI half, and a read of a field that refuses
the master is a violation (R7, R261, R264). -/
def State.counterRead (s : State) (m : Master) (off : BitVec 26) : State :=
  match s.reach m off.toNat with
  | (none, s) => s
  | (some a, s) =>
    match rowOf a with
    | none => s
    | some r =>
      if r.hasAcc .prw && !s.privileged m then s.violate m .privRW off.toNat
      else if r.hasAcc .srw && m != .signet then s.violate m .signetRW off.toNat
      else if counterLos.contains a then s.latch m (a + 4) (s.reg (a + 4))
      else s

/-- COUNTER_LO_READ (R261). -/
def execCounterLoRead (m : Master) (off : BitVec 26) (s : State) : Res := .next (s.counterRead m off)

/-- SEAL_RECOMPUTE (R269, R270). -/
def execSealRecompute (block : Fin 19) (s : State) : Res := .next (s.sealTick block)

/-- HOLD_MS passes after a sealed change: comparison resumes, unless a reset or a SWITCH suspends it until SEAL_REF is written
(R270). -/
def State.sealExpire (s : State) (b : Nat) : State :=
  if s.sealOk.contains b ∧ s.getF (sealHoldF b) = 1 then
    (s.ripe (.seal b) (10 ^ 6 * inRange 1 10000 (s.getF F.DEV_SEAL_CFG_HOLD_MS) 10000)).setF (sealHoldF b) 0
  else s

/-- SEAL_HOLD_EXPIRY (R270). -/
def execSealHoldExpiry (block : Fin 19) (s : State) : Res := .next (s.sealExpire block)

/-- SEAL_REF_WRITE (R270): SEAL_REF is RW, so every master may write it; STR has none. -/
def execSealRefWrite (m : Master) (block : Fin 19) (data : Word) (s : State) : Res :=
  .next (if block.val = 3 then s else s.openWrite m (sealRefAddr block) (.sealRefWrite m block data) fun s => s.sealRef block data.toNat)

end Sys2Proof.Machine
end

