-- ==== Sys2Proof/Machine/Signet.lean ====
section
/-! DEFINITION. The commands of chapter 15: the chain of images (R336 to R341), attestation (R342 to R345), SVN, the Locket key and debug access
(R340, R346 to R348). -/

namespace Sys2Proof.Machine

/-! ### The chain of images -/

/-- A stage-1 image that the ROM accepts (R339, R340). -/
def State.stage1Ok (s : State) (x : Stage1) : Bool := x.valid && s.getF F.SIG_SVN_SVN ≤ x.svn

/-- Stage 1 runs from a NOR device: MR1 and MR2 are extended (Table 15-1), and HBM is trained at 9.6 Gb/s (Tables 07-15 and 16-10). -/
def State.stage1Run (s : State) (nor : Nat) (x : Stage1) : State :=
  let s := (s.extend 1 (sha384 (x.image ++ leBytes 2 x.svn))).extend 2 (sha384 x.manifest)
  let s := (List.range 4).foldl (fun s k => s.setFs [(F.HBM_STACK_STATE k, 2), (F.HBM_STACK_RATE k, 96)]) s
  { s.setFs [(F.SIG_BOOT_INFO_STAGE1_NOR, nor), (F.SIG_BOOT_INFO_STAGE1_SVN, x.svn)] with sig := { s.sig with stage1Svn := x.svn % 65536 } }

/-- The boot ROM: PUF secret, MR0, and stage 1 from NOR 0 and then NOR 1; LIMITED with cause 4 where neither verifies (R336, R338, R339). -/
def State.stage1Verify (s : State) (puf : Bool) (nor0 nor1 : Stage1) : State :=
  if s.dev.st ≠ .boot ∨ !s.mio.modPwrgd ∨ (look s.sig.mr 0).isSome then s
  else if !puf then s.fatal 0x0A 0 1
  else
    let s := s.extend 0 Config.romDigest
    if s.stage1Ok nor0 then s.stage1Run 0 nor0
    else
      let s := s.event F.SIG_STATUS_VERIFY_FAIL
      if s.stage1Ok nor1 then s.stage1Run 1 nor1
      else (s.event F.SIG_STATUS_VERIFY_FAIL).setDev { s.dev with st := .limited, limitedCause := 4 }

/-- STAGE1_VERIFY (R338). -/
def execStage1Verify (puf : Bool) (nor0 nor1 : Stage1) (s : State) : Res := .next (s.stage1Verify puf nor0 nor1)

/-- Firmware runs on every wing: MR3 to MR6 are extended (R338, Table 15-1). -/
def State.firmwareRun (s : State) : State :=
  let k := s.getF F.STW_FW_BOOT_SLOT
  let s := { s with dev := { s.dev with firmware := true } }
  (List.range 4).foldl (fun s w =>
    ((s.setF (F.STW_WING_STATE_SLOT w) k).extend (3 + w) (sha384 (s.fwImage k))).wingRuns w) s

/-- FIRMWARE_RELEASE (R338): `ok` is the Signet's answer for the image of the slot that STW_FW_BOOT names. A rejected image is not released. -/
def execFirmwareRelease (ok : Bool) (s : State) : Res :=
  .next (if s.dev.st ≠ .boot ∨ s.dev.firmware ∨ (look s.sig.mr 2).isNone then s
    else if ok then s.firmwareRun else s.event F.SIG_STATUS_VERIFY_FAIL)

/-! ### SPDM (R342, R343) -/

/-- Responses by kind: 0 ERROR with its code, 1 VERSION, 2 CAPABILITIES, 3 ALGORITHMS, 4 DIGESTS, 5 CERTIFICATE, 6 CHALLENGE_AUTH,
7 MEASUREMENTS, 8 GET_LMS_SIG's. The numbers are the model's. -/
def State.spdmAnswer (s : State) (t kind : Nat) (fields : List Nat) : State := s.send (.msg t kind fields)

/-- Error codes: the numbers are the model's. -/
inductive SpdmErr | busy | unsupported | unspecified | unexpected | invalid
  deriving DecidableEq, Repr

/-- Number of an error code. -/
def SpdmErr.code : SpdmErr → Nat
  | .busy => 1
  | .unsupported => 2
  | .unspecified => 3
  | .unexpected => 4
  | .invalid => 5

/-- An ERROR response. -/
def State.spdmErr (s : State) (t : Nat) (e : SpdmErr) : State := s.spdmAnswer t 0 [e.code]

/-- A transport carries requests: DOE where PF0 of its port answers on its link, MCTP once the endpoint has an address (R374), and SIG_CFG enables
it. -/
def State.spdmOpen (s : State) (t : Nat) : Bool :=
  if t < 4 then s.dev.st.live && s.linkUp t 0 && bitAt (s.getF F.SIG_CFG_DOE_EN) t
  else s.dev.st != .off && s.mio.dynAddr.isSome && s.getF F.SIG_CFG_MCTP_EN == 1

/-- Connection state of a transport. -/
def State.spdm (s : State) (t : Nat) : Spdm := lookD s.sig.spdm t ⟨false, false, false, none⟩

/-- Connection state of a transport set. -/
def State.setSpdm (s : State) (t : Nat) (x : Spdm) : State := { s with sig := { s.sig with spdm := put s.sig.spdm t x } }

/-- A request on a transport: nothing on a closed one, Busy before firmware runs (R374), UnexpectedRequest out of the order that SPDM
gives; it waits while MGMT does not serve (R329). -/
def State.spdmAsk (s : State) (t : Nat) (c : Instr) (inOrder : Spdm → Bool) (act : State → State) : State :=
  if !s.spdmOpen t then s
  else if !s.dev.firmware then s.spdmErr t .busy
  else s.mgmtAsk c fun s => if !inOrder (s.spdm t) then s.spdmErr t .unexpected else act s

/-- GET_VERSION (R342): it starts the connection anew. -/
def execGetVersion (t : Fin 5) (s : State) : Res :=
  .next (s.spdmAsk t (.getVersion t) (fun _ => true) fun s =>
    (s.setSpdm t { s.spdm t with version := true, caps := false, algs := false }).spdmAnswer t 1 [0x13])

/-- GET_CAPABILITIES (R342): CERT_CAP, CHAL_CAP and MEAS_CAP with signatures, and CTExponent 18. -/
def execGetCapabilities (t : Fin 5) (s : State) : Res :=
  .next (s.spdmAsk t (.getCapabilities t) (·.version) fun s => (s.setSpdm t { s.spdm t with caps := true }).spdmAnswer t 2 [1, 1, 2, 18])

/-- NEGOTIATE_ALGORITHMS (R342): `ok` says that the request offers ECDSA P-384, SHA-384 and DMTF measurements. -/
def execNegotiateAlgorithms (t : Fin 5) (ok : Bool) (s : State) : Res :=
  .next (s.spdmAsk t (.negotiateAlgorithms t ok) (·.caps) fun s =>
    if ok then (s.setSpdm t { s.spdm t with algs := true }).spdmAnswer t 3 [384, 384, 1] else s.spdmErr t .invalid)

/-- GET_DIGESTS (R337, R342): slot 0 holds a chain, and no other slot does. -/
def execGetDigests (t : Fin 5) (s : State) : Res :=
  .next (s.spdmAsk t (.getDigests t) (·.algs) fun s => s.spdmAnswer t 4 [1, (sha384 Config.certChain).toNat])

/-- GET_CERTIFICATE (R337, R342): a part of the chain of slot 0, and the bytes behind it. -/
def execGetCertificate (t : Fin 5) (slot : Fin 8) (off len : Nat) (s : State) : Res :=
  .next (s.spdmAsk t (.getCertificate t slot off len) (·.algs) fun s =>
    if slot ≠ 0 ∨ Config.certChain.length ≤ off then s.spdmErr t .invalid
    else
      let part := (Config.certChain.drop off).take len
      s.spdmAnswer t 5 [part.length, Config.certChain.length - (off + part.length), leNat part])

/-- A leaf for a signed response (R344, R345): the leaf, or none where the device is exhausted or the record in NOR cannot be written. -/
def State.takeLeaf (s : State) (norOk : Bool) : Option Nat × State :=
  let n := s.sig.lmsNext
  if lmsLeaves ≤ n then (none, s)
  else if s.sig.lmsEnd ≤ n then
    if !norOk then (none, s.event F.SIG_STATUS_LMS_FAULT)
    else (some n, { s with sig := { s.sig with lmsEnd := s.sig.lmsEnd + 1024 } }.lmsAt (n + 1))
  else (some n, s.lmsAt (n + 1))

/-- A signed response (R343): the ECDSA signature goes with it, and the LMS signature of its leaf is kept for the transport; ERROR with Unspecified
where there is no leaf. -/
def State.spdmSigned (s : State) (t : Nat) (norOk : Bool) (kind : Nat) (fields : List Nat) : State :=
  match s.takeLeaf norOk with
  | (none, s) => s.spdmErr t .unspecified
  | (some n, s) => (s.setSpdm t { s.spdm t with lms := some n }).spdmAnswer t kind (fields ++ [leNat (Config.ecdsaSig t n)])

/-- CHALLENGE (R342). -/
def execChallenge (t : Fin 5) (slot : Fin 8) (norOk : Bool) (s : State) : Res :=
  .next (s.spdmAsk t (.challenge t slot norOk) (·.algs) fun s =>
    if slot ≠ 0 then s.spdmErr t .invalid else s.spdmSigned t norOk 6 [(sha384 Config.certChain).toNat])

/-- A measurement block (R342): index, type (0 immutable ROM, 1 firmware, 2 hardware configuration) and digest. -/
def State.measure (s : State) (k : Nat) : List Nat :=
  [k + 1, if k = 0 then 0 else if k ≤ 6 then 1 else 2, (lookD s.sig.mr k 0).toNat]

/-- GET_MEASUREMENTS (R342): index 0 asks for their number, 0xFF for all of them, and 1 to 12 for one. -/
def execGetMeasurements (t : Fin 5) (index : Nat) (sign norOk : Bool) (s : State) : Res :=
  .next (s.spdmAsk t (.getMeasurements t index sign norOk) (·.algs) fun s =>
    if 12 < index ∧ index ≠ 255 then s.spdmErr t .invalid
    else
      let body := if index = 0 then [12] else if index = 255 then (List.range 12).flatMap s.measure else s.measure (index - 1)
      if sign then s.spdmSigned t norOk 7 body else s.spdmAnswer t 7 body)

/-- GET_LMS_SIG (R343, R345): the kept LMS signature with its leaf. -/
def execGetLmsSig (t : Fin 5) (s : State) : Res :=
  .next (s.spdmAsk t (.getLmsSig t) (·.algs) fun s =>
    match (s.spdm t).lms with
    | some n => if lmsLeaves ≤ s.sig.lmsNext then s.spdmErr t .unspecified else s.spdmAnswer t 8 [n, leNat (Config.lmsSig n)]
    | none => s.spdmErr t .unspecified)

/-- SPDM_UNSUPPORTED_REQUEST (R342). -/
def execSpdmUnsupportedRequest (t : Fin 5) (code : Nat) (s : State) : Res := .next (s.spdmAsk t (.spdmUnsupportedRequest t code) (fun _ => true) fun s => s.spdmErr t .unsupported)

/-! ### SVN, Locket key and debug access -/

/-- SVN_COMMIT (R340): the stored value takes a higher SVN of the running stage 1. -/
def execSvnCommit (m : Master) (s : State) : Res :=
  .next (s.guardWrite m R.SIG_SVN_COMMIT (.svnCommit m) fun s =>
    if s.getF F.SIG_SVN_SVN < s.sig.stage1Svn then s.setF F.SIG_SVN_SVN s.sig.stage1Svn else s)

/-- Identifier of a Locket key: the first 8 bytes of its SHA-256 digest; zeros where there is none (R346). -/
def keyIdent (k : Option (List Byte)) : List Byte :=
  match k with
  | some k => (beBytes 32 (sha256 k).toNat).take 8
  | none => List.replicate 8 0#8

/-- The Locket key in NOR replaced, with what shows of it; MR11 is extended with the identifier of the key installed or erased (R346, Table 15-1). -/
def State.setLkey (s : State) (k : Option (List Byte)) : State :=
  let named := if k.isSome then keyIdent k else keyIdent s.sig.lkey
  let s := { s with sig := { s.sig with lkey := k } }.extend 11 (sha384 named)
  s.setFs [(F.SIG_LKEY_RESULT_PRESENT, b2n k.isSome), (F.SIG_LKEY_ID_LO, fieldAt (keyIdent k) 0 4), (F.SIG_LKEY_ID_HI, fieldAt (keyIdent k) 4 4)]

/-- A Locket key command ends. -/
def State.lkeyEnd (s : State) (r : Nat) : State := (s.eventV F.SIG_LKEY_RESULT_RESULT r).event F.SIG_STATUS_LKEY_DONE

/-- LKEY_INSTALL (R346): `key` is what the blob opens to, none where its tag fails; `norOk` says that NOR takes it. -/
def execLkeyInstall (m : Master) (key : Option (List Byte)) (norOk : Bool) (s : State) : Res :=
  .next (s.guardWrite m R.SIG_LKEY_CMD (.lkeyInstall m key norOk) fun s =>
    let s := s.setF F.SIG_LKEY_CMD_OP 1
    match key with
    | none => s.lkeyEnd 2
    | some k => if norOk then (s.setLkey (some k)).lkeyEnd 0 else s.lkeyEnd 3)

/-- LKEY_ERASE (R346). -/
def execLkeyErase (m : Master) (norOk : Bool) (s : State) : Res :=
  .next (s.guardWrite m R.SIG_LKEY_CMD (.lkeyErase m norOk) fun s =>
    let s := s.setF F.SIG_LKEY_CMD_OP 2
    if norOk then (s.setLkey none).lkeyEnd 0 else s.lkeyEnd 3)

/-- The current debug nonce. -/
def State.debugNonce (s : State) : Nat := (Config.random s.sig.nonceDraw).toNat

/-- A debug token's header is as R347 lays it out. -/
def tokenOk (h : List Byte) : Bool :=
  cut h 0 4 == [0x44, 0x42, 0x47, 0x54] && (fieldAt h 4 1 == 1 || fieldAt h 4 1 == 2) && allZero (cut h 5 11) && allZero (cut h 72 56)

/-- An unlock attempt judged on a token header: its result code (Table 15-5). -/
def State.tokenJudge (s : State) (h : List Byte) (sigOk : Bool) : Nat :=
  if !sigOk || !tokenOk h then 1
  else if cut h 16 48 ≠ beBytes 48 (sha384 Config.identityKey).toNat then 2
  else if fieldAt h 64 8 ≠ s.debugNonce then 3
  else 0

/-- An unlock attempt (R347, R348): the nonce is consumed; an accepted token unlocks JTAG, extends MR10 and erases the Locket key. -/
def State.debugTry (s : State) (port : Nat) (sigOk : Bool) : State :=
  let src := s.reg R.SIG_DBG_SRC_LO + 2 ^ 32 * s.reg R.SIG_DBG_SRC_HI
  let h := s.mem.read ((Space.pf0 port).at src) 128
  let r := if src % 4096 ≠ 0 ∨ !s.canDma (.pf0 ⟨port % 4, Nat.mod_lt _ (by decide)⟩) then 4 else s.tokenJudge h sigOk
  let s := { s with sig := { s.sig with nonceDraw := s.draws }, draws := s.draws + 1 }
  let s := s.eventV F.SIG_DBG_RESULT_RESULT r
  if r ≠ 0 then s
  else (((s.setF F.SIG_DBG_RESULT_LEVEL (fieldAt h 4 1)).event F.SIG_STATUS_DEBUG_UNLOCKED).extend 10 (sha384 h)).setLkey none

/-- DEBUG_UNLOCK (R347): `sigOk` is the Signet's answer for the token's signatures. -/
def execDebugUnlock (m : Master) (sigOk : Bool) (s : State) : Res :=
  .next (s.guardWrite m R.SIG_DBG_CMD (.debugUnlock m sigOk) fun s => s.dmaWait (.debugUnlock m sigOk) fun s => s.debugTry (s.cmdPort m) sigOk)

end Sys2Proof.Machine
end

