-- ==== Sys2Proof/Machine/Replay.lean ====
section
/-! DEFINITION. Writes held for a paused hall (R37, R267): performed in arrival order when the hall resumes, with the work that the pause held. -/

namespace Sys2Proof.Machine

/-- What a command leaves. -/
def Res.after (r : Res) (s : State) : State :=
  match r with
  | .next t => t
  | _ => s

/-- A held write is performed, or held again for another hall that is paused. -/
def State.replay (s : State) (c : Instr) : State :=
  match c with
  | .loadFull m => s.guardWrite m R.STR_CMD c fun s => s.strStart m .loadFull false
  | .writeSlot m => s.guardWrite m R.STR_CMD c fun s => s.strStart m .writeSlot false
  | .restream m forceClear => s.guardWrite m R.STR_CMD c fun s => s.strStart m .restream forceClear
  | .verifyOnly m forceClear => s.guardWrite m R.STR_CMD c fun s => s.strStart m .verifyOnly forceClear
  | .strCancel m => s.guardWrite m R.STR_CMD c State.strCancel
  | .strBootSlotWrite m slot => s.guardWrite m R.STR_BOOT_SLOT c fun s => s.bootSlotWrite slot
  | .registerWrite m off data be stores => (Sys2Proof.Machine.execRegisterWrite m off data be stores s).after s
  | .sqcWrite m off data => (Sys2Proof.Machine.execSqcWrite m off data s).after s
  | .sealRefWrite m block data => (Sys2Proof.Machine.execSealRefWrite m block data s).after s
  | .devDrvHelloWrite m port major minor => (Sys2Proof.Machine.execDevDrvHelloWrite m port major minor s).after s
  | .leaseRenew m port => (Sys2Proof.Machine.execLeaseRenew m port s).after s
  | .errInject m cls block slice => s.guardWrite m R.ERR_INJECT c fun s => s.injectWrite cls block slice
  | .errRingEnable m mask port vector => s.guardWrite m R.ERR_RING_CTRL c fun s => s.ringEnable mask port vector
  | .galCancel m slice => (Sys2Proof.Machine.execGalCancel m slice s).after s
  | .flightDoorbell port half slice pos => (Sys2Proof.Machine.execFlightDoorbell port half slice pos s).after s
  | .fltCancel m slice => (Sys2Proof.Machine.execFltCancel m slice s).after s
  | .newelStep m => (Sys2Proof.Machine.execNewelStep m s).after s
  | .newelAdjWrite m data => (Sys2Proof.Machine.execNewelAdjWrite m data s).after s
  | .rteCancel m slice => (Sys2Proof.Machine.execRteCancel m slice s).after s
  | .plcCancel m slice => (Sys2Proof.Machine.execPlcCancel m slice s).after s
  | .evac m pc retrain => (Sys2Proof.Machine.execEvac m pc retrain s).after s
  | .evacRelease m pc => (Sys2Proof.Machine.execEvacRelease m pc s).after s
  | .treeCommit m => (Sys2Proof.Machine.execTreeCommit m s).after s
  | .treeLoad m => (Sys2Proof.Machine.execTreeLoad m s).after s
  | .txsCancel m slice => (Sys2Proof.Machine.execTxsCancel m slice s).after s
  | .nvmeSqDoorbell port half slice queue tail stores => (Sys2Proof.Machine.execNvmeSqDoorbell port half slice queue tail stores s).after s
  | .nvmeCqDoorbell port half slice queue head => (Sys2Proof.Machine.execNvmeCqDoorbell port half slice queue head s).after s
  | .controllerEnable port half slice cc aqa asq acq => (Sys2Proof.Machine.execControllerEnable port half slice cc aqa asq acq s).after s
  | .controllerReset port half slice => (Sys2Proof.Machine.execControllerReset port half slice s).after s
  | .saInstall m => (Sys2Proof.Machine.execSaInstall m s).after s
  | .saRemove m => (Sys2Proof.Machine.execSaRemove m s).after s
  | .saQuery m => (Sys2Proof.Machine.execSaQuery m s).after s
  | .cvuJob m ctx start => (Sys2Proof.Machine.execCvuJob m ctx start s).after s
  | .readEntry m => (Sys2Proof.Machine.execReadEntry m s).after s
  | .writeEntry m => (Sys2Proof.Machine.execWriteEntry m s).after s
  | .bind m => (Sys2Proof.Machine.execBind m s).after s
  | .unbind m => (Sys2Proof.Machine.execUnbind m s).after s
  | .sliceReset m => (Sys2Proof.Machine.execSliceReset m s).after s
  | .freeze m => (Sys2Proof.Machine.execFreeze m s).after s
  | .thaw m => (Sys2Proof.Machine.execThaw m s).after s
  | .save m => (Sys2Proof.Machine.execSave m s).after s
  | .restore m authOk reachable content => (Sys2Proof.Machine.execRestore m authOk reachable content s).after s
  | .ringRead m => (Sys2Proof.Machine.execRingRead m s).after s
  | .ringBind m => (Sys2Proof.Machine.execRingBind m s).after s
  | .ringUnbind m => (Sys2Proof.Machine.execRingUnbind m s).after s
  | .doorbell port half slice ring index stores => (Sys2Proof.Machine.execDoorbell port half slice ring index stores s).after s
  | .sliceCancel port half slice tag engine => (Sys2Proof.Machine.execSliceCancel port half slice tag engine s).after s
  | .coreRestart m core => s.guardWrite m R.STW_CORE_CTRL c fun s => s.restartCmd core
  | .coreRelease m core => s.guardWrite m R.STW_CORE_CTRL c fun s => s.releaseCmd core
  | .writeFw m slot sigOk => s.guardWrite m R.STW_FW_CMD c fun s => s.dmaWait c fun s => s.writeFw slot (s.cmdPort m) sigOk
  | .activate m slot wings sigOk => s.guardWrite m R.STW_FW_CMD c fun s => s.fwActivate slot (s.cmdPort m) wings sigOk
  | .stwFwBootWrite m slot => s.guardWrite m R.STW_FW_BOOT c fun s => s.fwBootWrite slot
  | .logCopy m wing count => s.openWrite m R.STW_LOG_CTRL c fun s => s.logStart wing count.toNat (s.cmdPort m)
  | .svnCommit m => (Sys2Proof.Machine.execSvnCommit m s).after s
  | .lkeyInstall m key norOk => (Sys2Proof.Machine.execLkeyInstall m key norOk s).after s
  | .lkeyErase m norOk => (Sys2Proof.Machine.execLkeyErase m norOk s).after s
  | .debugUnlock m sigOk => (Sys2Proof.Machine.execDebugUnlock m sigOk s).after s
  | .pwrResetCold m => (Sys2Proof.Machine.execPwrResetCold m s).after s
  | .pwrResetWarm m => (Sys2Proof.Machine.execPwrResetWarm m s).after s
  | .pwrShedWrite m reg hi lo => (Sys2Proof.Machine.execPwrShedWrite m reg hi lo s).after s
  | .pf1Flr port half => (Sys2Proof.Machine.execPf1Flr port half s).after s
  | .pf0Flr port => s.cfgWrite (.pf0 port) c fun s => s.flr (.pf0 port)
  | .busMasterDisable fn late => s.cfgWrite fn c fun s => s.busOff fn late
  | .busMasterEnable fn ats enc l0p l1 => (Sys2Proof.Machine.execBusMasterEnable fn ats enc l0p l1 s).after s
  | .invalidateRequest fn req => (Sys2Proof.Machine.execInvalidateRequest fn req s).after s
  | .d3hotEntry fn => s.cfgWrite fn c fun s => s.sleep fn.port4 fn.half2 fn
  | .interruptMethodChange port msixEnable intDisable funcMask => (Sys2Proof.Machine.execInterruptMethodChange port msixEnable intDisable funcMask s).after s
  | .msixUnmask port vector addr data mask => (Sys2Proof.Machine.execMsixUnmask port vector addr data mask s).after s
  | .sliceMessageUnmask slice entry addr data mask => (Sys2Proof.Machine.execSliceMessageUnmask slice entry addr data mask s).after s
  | .hstIntxAck m port vector => (Sys2Proof.Machine.execHstIntxAck m port vector s).after s
  | .ethRetrain m group => s.guardWrite m R.ETH_RETRAIN c fun s => s.retrain group
  | .telemetryPeriod die hbm0 hbm1 hbm2 hbm3 => s.dmaWait c fun s => s.telPeriod [die, hbm0, hbm1, hbm2, hbm3]
  | .d0Return fn => (Sys2Proof.Machine.execD0Return fn s).after s
  | .pldmRequest type cmd arg => (Sys2Proof.Machine.execPldmRequest type cmd arg s).after s
  | .getVersion t => (Sys2Proof.Machine.execGetVersion t s).after s
  | .getCapabilities t => (Sys2Proof.Machine.execGetCapabilities t s).after s
  | .negotiateAlgorithms t ok => (Sys2Proof.Machine.execNegotiateAlgorithms t ok s).after s
  | .getDigests t => (Sys2Proof.Machine.execGetDigests t s).after s
  | .getCertificate t slot off len => (Sys2Proof.Machine.execGetCertificate t slot off len s).after s
  | .challenge t slot norOk => (Sys2Proof.Machine.execChallenge t slot norOk s).after s
  | .getMeasurements t index sign norOk => (Sys2Proof.Machine.execGetMeasurements t index sign norOk s).after s
  | .getLmsSig t => (Sys2Proof.Machine.execGetLmsSig t s).after s
  | .spdmUnsupportedRequest t code => (Sys2Proof.Machine.execSpdmUnsupportedRequest t code s).after s
  | _ => s

/-- Held writes performed in arrival order, each once. -/
def State.replayN : Nat → State → State
  | 0, s => s
  | n + 1, s =>
    match s.held with
    | [] => s
    | c :: l => State.replayN n ({ s with held := l }.replay c)

/-- Due steps of flights that a hall's pause held back are late for its sake (R114). -/
def State.blameHall (s : State) (h : Nat) : State :=
  { s with flights := s.flights.map fun (e : Nat × Flight) =>
      let f := e.2
      let due := f.readySteps.filter fun j => f.sched j ≤ s.now && (h == 0 || h == 11 || (stepHalls (flStep f.image j).kind).contains h)
      (e.1, s.blameAt f due 6) }

/-- Work that a pause held goes on: arrived frames and packets, frames in the cipher engine, sends, commands, records and waits. -/
def State.workGo (s : State) : State :=
  let s := if s.hallPaused 0 then s else
    let s := (List.range 4).foldl (fun s p => s.msixDrain (Fin.ofNat 4 p)) s.errDrain
    ((s.msgs.filter (·.2.pending)).map (·.1 / 64)).eraseDups.foldl State.sliceMsgDrain s
  let s := ((((((s.ingressGo).holdsGo).rteKick).txRetry).txKick).galKick).plcKick
  let s := s.rings.foldl (fun s e => s.drainCq e.1) s
  (State.claspSettle s.clasps.length s).storageResume

/-- RESUME of a hall whose pause has ended. -/
def State.unpaused (s : State) (h : Nat) : State := (State.replayN s.held.length (s.blameHall h)).workGo

/-- A command that has ended an STR command may have ended a hall's pause with it. -/
def State.resumed (s old : State) : State :=
  match (List.range 12).find? fun h => old.hallPaused h && !s.hallPaused h with
  | some h => s.unpaused h
  | none => s

/-- What waits for MGMT is answered once the service runs again (R322, R329). -/
def State.mgmtGo (s : State) : State :=
  if s.mgmt.isEmpty || !s.coreServes 0 0 then s
  else
    let t := if s.slcCmd.isNone then s.setF F.SLC_STATUS_CMD_ACTIVE 0 else s
    s.mgmt.foldl State.replay { t with mgmt := [] }

/-- After a command of the steward complex: halls that resume, and what waits for MGMT. -/
def State.stewarded (s old : State) : State := (s.resumed old).mgmtGo

end Sys2Proof.Machine
end

