-- ==== Sys2Proof/Machine/Faults.lean ====
section
/-! DEFINITION. The commands of chapter 18: error events, injection and the error ring (R273, R380 to R384), uncorrectable and correctable words (R381,
R382), FATAL (R388) and lane groups (R386, R387, R391). -/

namespace Sys2Proof.Machine

/-- ERROR_EVENT (R380): an event of Table 18-4 that no other command stands for. -/
def execErrorEvent (code block slice status loc : Nat) (s : State) : Res := .next (s.errorEvent code block slice status loc)

/-- ERR_INJECT (R273, R383). -/
def execErrInject (m : Master) (cls : Fin 4) (block : Fin 32) (slice : Fin 256) (s : State) : Res :=
  .next (s.guardWrite m R.ERR_INJECT (.errInject m cls block slice) fun s => s.injectWrite cls block slice)

/-- ERR_RING_ENABLE (R273). -/
def execErrRingEnable (m : Master) (mask : Fin 16) (port : Fin 4) (vector : Fin 2048) (s : State) : Res :=
  .next (s.guardWrite m R.ERR_RING_CTRL (.errRingEnable m mask port vector) fun s => s.ringEnable mask port vector)

/-- FATAL_FAULT (R388): a reason of Table 18-7 with its item, and the block that reports it. -/
def execFatalFault (reason item block : Nat) (s : State) : Res := .next (if 1 ≤ reason ∧ reason ≤ 11 then s.fatal reason item block else s)

/-- DATA_UNCORRECTABLE (R381). -/
def execDataUncorrectable (loc : UeLoc) (s : State) : Res :=
  .next (if s.dev.st.live then (s.dataUncorrectable loc).resumed s else s)

/-- HBM_CORRECTABLE_ERROR (R179, R382). -/
def execHbmCorrectableError (frame : Nat) (s : State) : Res := .next (s.errorEvent 0x002 17 0xFFFF 0 frame)

/-- PATROL_PASS (R187, R382): a pass over every frame, which corrected words of the frames named. -/
def execPatrolPass (corrected : List Nat) (s : State) : Res := .next (s.patrolDone corrected)

/-- LANE_LOST (R386). -/
def execLaneLost (lane : Fin 32) (s : State) : Res := .next (s.laneLost lane)

/-- ETH_RETRAIN (R387, R391). -/
def execEthRetrain (m : Master) (group : Fin 4) (s : State) : Res :=
  .next (s.guardWrite m R.ETH_RETRAIN (.ethRetrain m group) fun s => s.retrain group)

/-- ETH_RETRAIN_DONE (R391). -/
def execEthRetrainDone (working : BitVec 8) (s : State) : Res := .next (s.retrained working.toNat)

/-- LANE_GROUP_UP (R366). -/
def execLaneGroupUp (group : Fin 4) (working : BitVec 8) (s : State) : Res := .next (s.groupUp group working.toNat)

end Sys2Proof.Machine
end

