-- ==== Sys2Proof/Machine/HostLoss.lean ====
section
/-! DEFINITION. The commands of chapter 12 that end an STR command of their port: an FLR of PF0, Hot Reset, lost links, Bus Master Enable cleared and
D3hot (R291, R294 to R297, R371). Writes held for a hall whose command ends are performed at once. -/

namespace Sys2Proof.Machine

/-- PF0_FLR (R295). -/
def execPf0Flr (port : Fin 4) (s : State) : Res :=
  .next ((s.cfgWrite (.pf0 port) (.pf0Flr port) fun s => s.flr (.pf0 port)).resumed s)

/-- HOT_RESET (R296): an FLR of every function of the link at once; the link then retrains. -/
def execHotReset (port : Fin 4) (half : Fin 2) (s : State) : Res :=
  .next (
    let st := s.getF (linkStateF port half)
    if st ≠ 2 ∧ st ≠ 3 then s
    else
      let s := ((linkFns port half).foldl State.flr s).setFs [(linkStateF port half, 1), (linkWidthF port half, 0), (linkRateF port half, 0)]
      (s.event F.HST_STATUS_LINK).resumed s)

/-- LINK_LOST (R297). -/
def execLinkLost (port : Fin 4) (half : Fin 2) (tags : List (Func × Nat)) (s : State) : Res :=
  .next ((s.linkLost port half tags).resumed s)

/-- PERST_ASSERT (R296, R372): both halves are lost, and the port is reset. -/
def execPerstAssert (port : Fin 4) (s : State) : Res :=
  .next (if (s.link (2 * port)).perst then s
    else ((((s.linkLost port 0 []).linkLost port 1 []).portReset port).perstOn port).resumed s)

/-- REFCLK_LOSS (R371): the port's links are lost. -/
def execRefclkLoss (port : Fin 4) (s : State) : Res :=
  .next (if (s.link (2 * port)).perst then s
    else
      let s := (s.linkLost port 0 []).linkLost port 1 []
      (s.setLink (2 * port) { s.link (2 * port) with refclk := false }).resumed s)

/-- BUS_MASTER_DISABLE (R294). -/
def execBusMasterDisable (fn : Func) (late : Nat) (s : State) : Res :=
  .next ((s.cfgWrite fn (.busMasterDisable fn late) fun s => s.busOff fn late).resumed s)

/-- D3HOT_ENTRY (R291). -/
def execD3hotEntry (fn : Func) (s : State) : Res :=
  .next ((s.cfgWrite fn (.d3hotEntry fn) fun s => s.sleep fn.port4 fn.half2 fn).resumed s)

end Sys2Proof.Machine
end

