-- ==== Sys2Proof/Machine/Stewards.lean ====
section
/-! DEFINITION. The commands of chapter 14: cores, firmware, log copies and telemetry (R318 to R335). Where a core's stop ends an STR command, the writes
held for its hall are performed. -/

namespace Sys2Proof.Machine

/-- CORE_CRASH (R321): cause 1 watchdog, 2 trap, 3 uncorrectable L1 or L2 error, 4 panic. -/
def execCoreCrash (core : Fin 32) (cause : Fin 5) (s : State) : Res := .next ((s.coreCrash core cause).stewarded s)

/-- WATCHDOG_EXPIRY (R321): the watchdog of a running core. -/
def execWatchdogExpiry (core : Fin 32) (s : State) : Res := .next (
  if s.coreSt core = 0 then ((s.ripe (.core core) (10 ^ 6 * inRange 1 1000 (s.getF (F.STW_WDOG_MS core)) 1000)).coreCrash core 1).stewarded s else s)

/-- CORE_RESTART_DONE (R322). -/
def execCoreRestartDone (core : Fin 32) (s : State) : Res := .next (s.coreBack core).mgmtGo

/-- CORE_RESTART_TIMEOUT (R322): a core that is still restarting has crashed again. -/
def execCoreRestartTimeout (core : Fin 32) (s : State) : Res :=
  .next (if s.coreSt core = 1 then ((s.ripe (.core core) (250 * 10 ^ 6)).coreCrash core (s.getF (F.STW_CORE_LAST_CAUSE core))).stewarded s else s)

/-- CORE_RESTART (R324). -/
def execCoreRestart (m : Master) (core : Fin 32) (s : State) : Res :=
  .next ((s.guardWrite m R.STW_CORE_CTRL (.coreRestart m core) fun s => s.restartCmd core).stewarded s)

/-- CORE_RELEASE (R324). -/
def execCoreRelease (m : Master) (core : Fin 32) (s : State) : Res :=
  .next (s.guardWrite m R.STW_CORE_CTRL (.coreRelease m core) fun s => s.releaseCmd core)

/-- WRITE_FW (R327): `sigOk` is the Signet's answer for the image's signatures. -/
def execWriteFw (m : Master) (slot : Fin 2) (sigOk : Bool) (s : State) : Res :=
  .next (s.guardWrite m R.STW_FW_CMD (.writeFw m slot sigOk) fun s =>
    s.dmaWait (.writeFw m slot sigOk) fun s => s.writeFw slot (s.cmdPort m) sigOk)

/-- FW_SLOT_WRITTEN (R327): the image has been written, and reads back as it should or not. -/
def execFwSlotWritten (ok : Bool) (s : State) : Res := .next (s.fwWritten ok)

/-- ACTIVATE (R328). -/
def execActivate (m : Master) (slot : Fin 2) (wings : Fin 16) (sigOk : Bool) (s : State) : Res :=
  .next (s.guardWrite m R.STW_FW_CMD (.activate m slot wings sigOk) fun s => s.fwActivate slot (s.cmdPort m) wings sigOk)

/-- WING_DRAIN_DONE (R328). -/
def execWingDrainDone (s : State) : Res := .next s.wingDrained

/-- WING_LOAD_DONE (R328). -/
def execWingLoadDone (s : State) : Res := .next s.wingLoaded.mgmtGo

/-- STW_FW_BOOT_WRITE (R327): a write that names a slot that is not valid is ignored. -/
def execStwFwBootWrite (m : Master) (slot : Fin 2) (s : State) : Res :=
  .next (s.guardWrite m R.STW_FW_BOOT (.stwFwBootWrite m slot) fun s => s.fwBootWrite slot)

/-- LOG_COPY (R333). -/
def execLogCopy (m : Master) (wing : Fin 4) (count : BitVec 16) (s : State) : Res :=
  .next (s.openWrite m R.STW_LOG_CTRL (.logCopy m wing count) fun s => s.logStart wing count.toNat (s.cmdPort m))

/-- LOG_COPY_DONE (R333): the copy is in PF0 memory. -/
def execLogCopyDone (s : State) : Res := .next s.logCopied

/-- TELEMETRY_PERIOD (R335), with the temperatures at its end; its block waits for RESUME of H0 (Table 02-8). -/
def execTelemetryPeriod (die hbm0 hbm1 hbm2 hbm3 : Byte) (s : State) : Res :=
  .next (s.dmaWait (.telemetryPeriod die hbm0 hbm1 hbm2 hbm3) fun s => s.telPeriod [die, hbm0, hbm1, hbm2, hbm3])

end Sys2Proof.Machine
end

