-- ==== Sys2Proof/Machine/StrStream.lean ====
section
/-! DEFINITION. The commands of chapter 02: start-up load, STR commands and their phases, and the environment check (R32 to R42, R366). -/

namespace Sys2Proof.Machine

/-! ### The hall under way -/

/-- RESUME of a hall: its pause ends, and the writes held for it are performed in arrival order (R37, R267). -/
def State.resumeHall (s : State) (h : Nat) : State := (s.setF (F.STR_HALL_PAUSED h) 0).unpaused h

/-- The next hall of the command starts SHADOW; after the last one the table entries load, or the command is done
(R37). While they load PHASE shows RESUME (log entry 124). A command that a write held for the hall has ended or begun anew is left as it is. -/
def State.nextHall (s : State) : State :=
  if s.str.cmd.isNone || s.strPhase == 1 then s
  else match s.str.halls with
  | h :: _ => (s.setPhase .shadow).setF F.STR_STATUS_HALL h
  | [] => if s.str.tables.isEmpty then s.strDone .ok else s

/-- Bank that the hall does not run. -/
def State.shadowBank (s : State) (h : Nat) : Nat := 1 - s.getF (F.STR_HALL_ACTIVE_BANK h)

/-- A section written into a bank. -/
def State.writeBank (s : State) (h k : Nat) (b : HallBank) : State :=
  if k = 0 then { s with str := { s.str with banks0 := put s.str.banks0 h b } } else { s with str := { s.str with banks1 := put s.str.banks1 h b } }

/-- MR8 extended once, when a RESTREAM first switches a hall or loads a table entry (Table 15-1). -/
def State.touchStream (s : State) : State :=
  if s.str.touched then s
  else { s with str := { s.str with touched := true } }.extend 8 (sha384 (cut s.str.image 0 (sigOffset s.str.image)))

/-- The class that a hall owns is checked again when its restream completes (R36). -/
def State.recheck (s : State) (h : Nat) (accel : BitVec 8) : State :=
  match h with
  | 0 => s.portsCheck
  | 1 => s.accelCheck accel (fun _ => true)
  | 4 => s.groupsCheck
  | 9 => s.backendsCheck
  | 11 => s.ptpCheck
  | _ => s

/-- SWITCH of a hall: the shadow bank becomes active, FORCE_CLEAR resets the hall, Stream registers load, pending writes to them go, and seal
comparison is suspended (R31, R37, R44, R266). The bank that is now the shadow shows no SHADOW_VALID (log entry 124). -/
def State.switchHall (s : State) (h : Nat) (force : Bool) : State :=
  let k := s.shadowBank h
  let b := lookD (if k = 0 then s.str.banks0 else s.str.banks1) h ⟨0, 0, []⟩
  let s := s.touchStream
  let s := s.setFs [(F.STR_HALL_ACTIVE_BANK h, k), (F.STR_HALL_VER h, b.ver), (F.STR_HALL_SHADOW_VALID h, 0), (F.STR_HALL_SEAL_PENDING h, 1)]
  let s := if force then s.hallClear h else s
  let s := (blocksOf h).foldl (fun s c => (s.dropStreamPend c).sealSuspend c) s
  let s := s.loadHall b.body h
  if h = 5 then s.cacheShow else s

/-! ### Commands that fetch -/

/-- LOAD_FULL (R32). -/
def execLoadFull (m : Master) (s : State) : Res :=
  .next (s.guardWrite m R.STR_CMD (.loadFull m) fun s => s.strStart m .loadFull false)

/-- WRITE_SLOT (R34). -/
def execWriteSlot (m : Master) (s : State) : Res :=
  .next (s.guardWrite m R.STR_CMD (.writeSlot m) fun s => s.strStart m .writeSlot false)

/-- RESTREAM (R37). -/
def execRestream (m : Master) (force : Bool) (s : State) : Res :=
  .next (s.guardWrite m R.STR_CMD (.restream m force) fun s => s.strStart m .restream force)

/-- VERIFY_ONLY (R38). -/
def execVerifyOnly (m : Master) (force : Bool) (s : State) : Res :=
  .next (s.guardWrite m R.STR_CMD (.verifyOnly m force) fun s => s.strStart m .verifyOnly force)

/-- STR_CANCEL (R39). -/
def execStrCancel (m : Master) (s : State) : Res :=
  .next ((s.guardWrite m R.STR_CMD (.strCancel m) State.strCancel).resumed s)

/-- STR_FETCH_DONE (R37, R263): the staged image meets the header and version checks of VERIFY. -/
def State.strFetched (s : State) : State :=
  match s.str.cmd with
  | none => s
  | some (op, force, port) =>
    if s.strPhase ≠ 1 ∨ s.hallPaused 0 then s
    else if !s.canDma (.pf0 ⟨port % 4, Nat.mod_lt _ (by decide)⟩) then s.strDone .fetchFault
    else
      let img := s.mem.read ((Space.pf0 port).at s.strSrc) (s.reg R.STR_SRC_LEN)
      match s.strCheck op force img with
      | .ok => { s with str := { s.str with image := img } }.setPhase .verify
      | r => s.strDone r

/-- STR_FETCH_DONE. -/
def execStrFetchDone (s : State) : Res := .next s.strFetched

/-- STR_SIGNATURES_VERIFIED (R28, R24, R42): VERIFY refuses the image, or the command goes on to its effect. VERIFY_ONLY writes STR_STATUS only
(R38). -/
def State.strVerified (s : State) (ok : Bool) (accel : BitVec 8) : State :=
  match s.str.cmd with
  | none => s
  | some (op, _, _) =>
    let img := s.str.image
    if s.strPhase ≠ 2 then s
    else if !ok ∨ !sigBlockOk img then
      let s := s.strDone .signatureBad
      if op = .verifyOnly then s else s.event F.SIG_STATUS_VERIFY_FAIL
    else if !crcsOk img then s.strDone .crcBad
    else if !isFull img && (tablesOf img).any s.profileBlocked then s.strDone .profileInUse
    else match op with
      | .verifyOnly => s.strDone .ok
      | .writeSlot => (s.setSlotValid s.spareSlot 0).setSlotImage s.spareSlot img
      | .loadFull => (s.loadFull img accel).strDone .ok
      | _ => ({ s with str := { s.str with halls := hallsIn img, tables := tablesOf img } }.setPhase .resume).nextHall

/-- STR_SIGNATURES_VERIFIED. -/
def execStrSignaturesVerified (ok : Bool) (accel : BitVec 8) (s : State) : Res := .next (s.strVerified ok accel)

/-- SHADOW_WRITTEN (R37): the shadow bank holds the section, and QUIESCE begins, which pauses the hall. -/
def State.shadowWritten (s : State) : State :=
  match s.curHall with
  | none => s
  | some h =>
    if s.strPhase ≠ 3 then s
    else
      let img := s.str.image
      let s := s.writeBank h (s.shadowBank h) ⟨sectVer img h, sectLayout img h, sectionBody img (0x10 + h)⟩
      let s : State := { s with str := { s.str with quiesceAt := s.up } }
      (s.setFs [(F.STR_HALL_SHADOW_VALID h, 1), (F.STR_HALL_PAUSED h, 1)]).setPhase .quiesce

/-- SHADOW_WRITTEN. -/
def execShadowWritten (s : State) : Res := .next s.shadowWritten

/-- HALL_QUIESCED (R37, R43): once the hall meets its condition of Table 02-8 it switches and resumes. -/
def State.hallQuiesced (s : State) (accel : BitVec 8) : State :=
  match s.str.cmd, s.str.halls with
  | some (_, force, _), h :: rest =>
    if s.strPhase ≠ 4 ∨ !s.hallQuiet h then s
    else
      let s := ((s.setPhase .switch).switchHall h force).recheck h accel
      let s : State := { s with str := { s.str with halls := rest } }
      ((s.setPhase .resume).resumeHall h).nextHall
  | _, _ => s

/-- HALL_QUIESCED. -/
def execHallQuiesced (accel : BitVec 8) (s : State) : Res := .next (s.hallQuiesced accel)

/-- The limit of QUIESCE in ms (Table 02-13). -/
def State.quiesceMs (s : State) : Nat :=
  let v := s.getF F.STR_QUIESCE_WAIT_MS
  if 1 ≤ v ∧ v ≤ 1000 then v else 1000

/-- QUIESCE_TIMEOUT, when the limit has passed since QUIESCE (R40): the hall resumes on its old bank, its shadow bank is invalid, and the command
ends. -/
def State.quiesceTimeout (s : State) : State :=
  match s.curHall with
  | none => s
  | some h =>
    if s.strPhase ≠ 4 then s
    else
      let s := s.upTo (s.str.quiesceAt + s.quiesceMs * 10 ^ 6)
      ((s.setF (F.STR_HALL_SHADOW_VALID h) 0).strDone .quiesceTimeout).resumeHall h

/-- QUIESCE_TIMEOUT. -/
def execQuiesceTimeout (s : State) : Res := .next s.quiesceTimeout

/-- The first table entry is dealt with; after the last one the command is done (R37). -/
def State.tableNext (s : State) : State :=
  let rest := s.str.tables.drop 1
  let s := { s with str := { s.str with tables := rest, tabWait := false } }
  if rest.isEmpty then s.strDoneCode s.str.refused else s

/-- TABLE_ENTRY_LOAD (R37, R40, R42): the next table entry takes effect, or is refused; a curve and an energy table wait for their boundary
(Table 02-5). -/
def State.tableEntry (s : State) : State :=
  match s.str.tables with
  | [] => s
  | e :: _ =>
    if s.strPhase ≠ 6 ∨ s.str.tabWait ∨ !s.str.halls.isEmpty then s
    else
      let r := if tableBad e.1 e.2 then StrResult.headerBad.code else if s.profileBlocked e then StrResult.profileInUse.code else 0
      if r ≠ 0 then { s with str := { s.str with refused := if s.str.refused = 0 then r else s.str.refused } }.tableNext
      else if e.1 = 4 ∨ e.1 = 5 then { s.loadTable e.1 e.2 with str := { (s.loadTable e.1 e.2).str with tabWait := true } }
      else ((s.touchStream).loadTable e.1 e.2).tableNext

/-- A boundary has passed at which a table of a type is replaced: the one that waited for it is loaded (R37, Table 02-5). -/
def State.tableDue (s : State) (t : Nat) : State :=
  if s.str.tabWait ∧ s.str.tables.head?.any (·.1 == t) then (s.touchStream).tableNext else s

/-- HEAT_DECAY_BOUNDARY (R166, R167): H8's pause holds it. -/
def execHeatDecayBoundary (s : State) : Res := .next (if s.hallPaused 8 ∨ !s.answers 11 then s else s.decayBoundary.tableDue 4)

/-- EPOCH_BOUNDARY (R357). -/
def execEpochBoundary (s : State) : Res := .next (if s.dev.st.live then s.epoch.tableDue 5 else s)

/-- TABLE_ENTRY_LOAD. -/
def execTableEntryLoad (s : State) : Res := .next s.tableEntry

/-- STREAM_SLOT_WRITTEN (R34): the slot is valid when its image reads back as written and its CRCs match; else the result is CRC_BAD (log
entry 124). -/
def State.slotWritten (s : State) (ok : Bool) : State :=
  match s.str.cmd with
  | some (.writeSlot, _, _) =>
    if s.strPhase ≠ 2 ∨ s.slotImage s.spareSlot ≠ s.str.image then s
    else if ok then (s.setSlotValid s.spareSlot 1).strDone .ok
    else s.strDone .crcBad
  | _ => s

/-- STREAM_SLOT_WRITTEN. -/
def execStreamSlotWritten (ok : Bool) (s : State) : Res := .next (s.slotWritten ok)

/-- STR_BOOT_SLOT_WRITE (R34). -/
def execStrBootSlotWrite (m : Master) (slot : Fin 2) (s : State) : Res :=
  .next (s.guardWrite m R.STR_BOOT_SLOT (.strBootSlotWrite m slot) fun s => s.bootSlotWrite slot)

/-! ### Start-up -/

/-- STREAM_LOAD (R32): steps 1 to 4 from the selected slot and then from the other one, and steps 5 to 8; with no image the device is
LIMITED with cause 1. The load posts its result as an STR command does, with DONE (log entry 124). -/
def State.streamLoad (s : State) (sigA sigB : Bool) (accel : BitVec 8) : State :=
  if s.dev.st ≠ .boot ∨ !s.dev.firmware ∨ s.dev.stream then s
  else
    let k := s.getF F.STR_BOOT_SLOT_SLOT
    let sig := fun k : Nat => if k = 0 then sigA else sigB
    /- A slot whose valid bit is clear holds no image: HEADER_BAD (log entry 124). -/
    let check := fun k : Nat => if s.slotValid k then s.slotCheck (s.slotImage k) (sig k) else .headerBad
    match check k with
    | .ok => (s.loadFull (s.slotImage k) accel).strDone .ok
    | _ =>
      match check (1 - k) with
      | .ok => (s.loadFull (s.slotImage (1 - k)) accel).strDone .ok
      | r => (s.strDone r).setDev { s.dev with st := .limited, limitedCause := 1 }

/-- STREAM_LOAD. -/
def execStreamLoad (sigA sigB : Bool) (accel : BitVec 8) (s : State) : Res := .next (s.streamLoad sigA sigB accel)

/-- ENV_CHECK_TIMEOUT (R366): every lane group and backend endpoint still unanswered raises ENV_MISMATCH, and step 10 follows. -/
def State.envTimeout (s : State) : State :=
  if !s.dev.envWait then s
  else
    let s := s.ripe .envCheck (10 * 10 ^ 9)
    let s := (List.range 4).foldl (fun s g =>
      if s.groupEnabled g && s.getF (F.ETH_GROUP_STATE_STATE g) < 2 then s.groupTrained g 0 else s) s
    let s := (List.range 16).foldl (fun s k =>
      if s.backendStated k && s.getF (F.NVS_BE_STATE k) != 2 then s.backendMiss k 0xFFFF else s) s
    s.envSettle

/-- ENV_CHECK_TIMEOUT. -/
def execEnvCheckTimeout (s : State) : Res := .next s.envTimeout

end Sys2Proof.Machine
end

