-- ==== Sys2Proof/Machine/Dispatch.lean ====
section
/-! DEFINITION. One arm per command: its meaning, or a refusal by name while it has none. -/

namespace Sys2Proof.Machine

/-- The effect of a command on everything but the queue. -/
def exec (i : Instr) (s : State) : Host.Outcome State Fault Refusal :=
  match i with
  | .inputStandbyUp => Sys2Proof.Machine.execInputStandbyUp s
  | .inputStandbyDown => Sys2Proof.Machine.execInputStandbyDown s
  | .startThreshold straps => Sys2Proof.Machine.execStartThreshold straps s
  | .islandsLocked => Sys2Proof.Machine.execIslandsLocked s
  | .portResetHoldEnd => Sys2Proof.Machine.execPortResetHoldEnd s
  | .stage1Verify puf nor0 nor1 => Sys2Proof.Machine.execStage1Verify puf nor0 nor1 s
  | .firmwareRelease ok => Sys2Proof.Machine.execFirmwareRelease ok s
  | .streamLoad sigA sigB accel => Sys2Proof.Machine.execStreamLoad sigA sigB accel s
  | .loadFull m => Sys2Proof.Machine.execLoadFull m s
  | .writeSlot m => Sys2Proof.Machine.execWriteSlot m s
  | .restream m forceClear => Sys2Proof.Machine.execRestream m forceClear s
  | .verifyOnly m forceClear => Sys2Proof.Machine.execVerifyOnly m forceClear s
  | .strCancel m => Sys2Proof.Machine.execStrCancel m s
  | .strFetchDone => Sys2Proof.Machine.execStrFetchDone s
  | .strSignaturesVerified ok accel => Sys2Proof.Machine.execStrSignaturesVerified ok accel s
  | .shadowWritten => Sys2Proof.Machine.execShadowWritten s
  | .hallQuiesced accel => Sys2Proof.Machine.execHallQuiesced accel s
  | .quiesceTimeout => Sys2Proof.Machine.execQuiesceTimeout s
  | .tableEntryLoad => Sys2Proof.Machine.execTableEntryLoad s
  | .strBootSlotWrite m slot => Sys2Proof.Machine.execStrBootSlotWrite m slot s
  | .registerWrite m off data be stores => Sys2Proof.Machine.execRegisterWrite m off data be stores s
  | .sqcWrite m off data => Sys2Proof.Machine.execSqcWrite m off data s
  | .bufferedApply block bit => Sys2Proof.Machine.execBufferedApply block bit s
  | .newelLoRead m => Sys2Proof.Machine.execNewelLoRead m s
  | .counterLoRead m off => Sys2Proof.Machine.execCounterLoRead m off s
  | .sealRecompute block => Sys2Proof.Machine.execSealRecompute block s
  | .sealHoldExpiry block => Sys2Proof.Machine.execSealHoldExpiry block s
  | .sealRefWrite m block data => Sys2Proof.Machine.execSealRefWrite m block data s
  | .devDrvHelloWrite m port major minor => Sys2Proof.Machine.execDevDrvHelloWrite m port major minor s
  | .helloJudge port => Sys2Proof.Machine.execHelloJudge port s
  | .leaseRenew m port => Sys2Proof.Machine.execLeaseRenew m port s
  | .leaseExpiry port => Sys2Proof.Machine.execLeaseExpiry port s
  | .errorEvent code block slice status loc => Sys2Proof.Machine.execErrorEvent code block slice status loc s
  | .errInject m cls block slice => Sys2Proof.Machine.execErrInject m cls block slice s
  | .errRingEnable m mask port vector => Sys2Proof.Machine.execErrRingEnable m mask port vector s
  | .fatalFault reason item block => Sys2Proof.Machine.execFatalFault reason item block s
  | .dataUncorrectable loc => Sys2Proof.Machine.execDataUncorrectable loc s
  | .hbmCorrectableError frame => Sys2Proof.Machine.execHbmCorrectableError frame s
  | .patrolPass corrected => Sys2Proof.Machine.execPatrolPass corrected s
  | .reduce ring d => Sys2Proof.Machine.execReduce ring d s
  | .convert ring d => Sys2Proof.Machine.execConvert ring d s
  | .program ring d => Sys2Proof.Machine.execProgram ring d s
  | .loadProgram ring d => Sys2Proof.Machine.execLoadProgram ring d s
  | .unloadProgram ring d => Sys2Proof.Machine.execUnloadProgram ring d s
  | .chunkTake cluster => Sys2Proof.Machine.execChunkTake cluster s
  | .chunkDone cluster => Sys2Proof.Machine.execChunkDone cluster s
  | .galStreamFault cluster => Sys2Proof.Machine.execGalStreamFault cluster s
  | .galCancel m slice => Sys2Proof.Machine.execGalCancel m slice s
  | .load ring d => Sys2Proof.Machine.execLoad ring d s
  | .arm ring d => Sys2Proof.Machine.execArm ring d s
  | .unload ring d => Sys2Proof.Machine.execUnload ring d s
  | .flightEpochReached slot => Sys2Proof.Machine.execFlightEpochReached slot s
  | .stepSend slot step t => Sys2Proof.Machine.execStepSend slot step t s
  | .stepRecv slot step t => Sys2Proof.Machine.execStepRecv slot step t s
  | .stepReduce slot step t => Sys2Proof.Machine.execStepReduce slot step t s
  | .stepConvert slot step t => Sys2Proof.Machine.execStepConvert slot step t s
  | .stepProgram slot step t => Sys2Proof.Machine.execStepProgram slot step t s
  | .stepCopy slot step t => Sys2Proof.Machine.execStepCopy slot step t s
  | .stepLanding slot step t => Sys2Proof.Machine.execStepLanding slot step t s
  | .stepSignalAccel slot step t => Sys2Proof.Machine.execStepSignalAccel slot step t s
  | .stepComplete slot step => Sys2Proof.Machine.execStepComplete slot step s
  | .lateLimitExpiry slot step => Sys2Proof.Machine.execLateLimitExpiry slot step s
  | .lateAbortExpiry slot step => Sys2Proof.Machine.execLateAbortExpiry slot step s
  | .keepaliveTimer slot => Sys2Proof.Machine.execKeepaliveTimer slot s
  | .keepaliveReceived id device mapCrc => Sys2Proof.Machine.execKeepaliveReceived id device mapCrc s
  | .peerTimeout slot device => Sys2Proof.Machine.execPeerTimeout slot device s
  | .abortBroadcastReceived id epoch src num reason origin => Sys2Proof.Machine.execAbortBroadcastReceived id epoch src num reason origin s
  | .abortRepeatTimer slot => Sys2Proof.Machine.execAbortRepeatTimer slot s
  | .arrivalReportReceived id epoch src num set ranks => Sys2Proof.Machine.execArrivalReportReceived id epoch src num set ranks s
  | .reportRepeatTimer slot => Sys2Proof.Machine.execReportRepeatTimer slot s
  | .controlAckReceived id src num => Sys2Proof.Machine.execControlAckReceived id src num s
  | .flightWriteReceived id src buf off epoch payload edge => Sys2Proof.Machine.execFlightWriteReceived id src buf off epoch payload edge s
  | .flightDoorbell port half slice pos => Sys2Proof.Machine.execFlightDoorbell port half slice pos s
  | .fltCancel m slice => Sys2Proof.Machine.execFltCancel m slice s
  | .newelStep m => Sys2Proof.Machine.execNewelStep m s
  | .newelAdjWrite m data => Sys2Proof.Machine.execNewelAdjWrite m data s
  | .ptpSyncReceived off => Sys2Proof.Machine.execPtpSyncReceived off s
  | .syncSilenceExpiry => Sys2Proof.Machine.execSyncSilenceExpiry s
  | .holdoverExpiry => Sys2Proof.Machine.execHoldoverExpiry s
  | .ptpStartTimeout => Sys2Proof.Machine.execPtpStartTimeout s
  | .ppsInEdge low high => Sys2Proof.Machine.execPpsInEdge low high s
  | .ppsInAbsent => Sys2Proof.Machine.execPpsInAbsent s
  | .ppsOutEdge high => Sys2Proof.Machine.execPpsOutEdge high s
  | .packetReceive p => Sys2Proof.Machine.execPacketReceive p s
  | .sackIntervalExpiry qpn => Sys2Proof.Machine.execSackIntervalExpiry qpn s
  | .sackReceived p => Sys2Proof.Machine.execSackReceived p s
  | .nakReceived p => Sys2Proof.Machine.execNakReceived p s
  | .cnpReceived p => Sys2Proof.Machine.execCnpReceived p s
  | .recoveryTimerExpiry qpn path => Sys2Proof.Machine.execRecoveryTimerExpiry qpn path s
  | .rtoExpiry qpn psn => Sys2Proof.Machine.execRtoExpiry qpn psn s
  | .suspectProbeTimer qpn path => Sys2Proof.Machine.execSuspectProbeTimer qpn path s
  | .rnrTimerExpiry qpn => Sys2Proof.Machine.execRnrTimerExpiry qpn s
  | .pushReadDone qpn link => Sys2Proof.Machine.execPushReadDone qpn link s
  | .contextFetchDone qpn => Sys2Proof.Machine.execContextFetchDone qpn s
  | .keyFetchDone index => Sys2Proof.Machine.execKeyFetchDone index s
  | .contextFetchFault qpn => Sys2Proof.Machine.execContextFetchFault qpn s
  | .missHoldTimeout port => Sys2Proof.Machine.execMissHoldTimeout port s
  | .ctxPinWaitTimeout qpn => Sys2Proof.Machine.execCtxPinWaitTimeout qpn s
  | .send ring d => Sys2Proof.Machine.execSend ring d s
  | .sendImm ring d => Sys2Proof.Machine.execSendImm ring d s
  | .write ring d => Sys2Proof.Machine.execWrite ring d s
  | .writeImm ring d => Sys2Proof.Machine.execWriteImm ring d s
  | .read ring d => Sys2Proof.Machine.execRead ring d s
  | .fetchAdd ring d => Sys2Proof.Machine.execFetchAdd ring d s
  | .cmpSwap ring d => Sys2Proof.Machine.execCmpSwap ring d s
  | .recv ring d => Sys2Proof.Machine.execRecv ring d s
  | .createQp ring d => Sys2Proof.Machine.execCreateQp ring d s
  | .modifyQp ring d => Sys2Proof.Machine.execModifyQp ring d s
  | .queryQp ring d => Sys2Proof.Machine.execQueryQp ring d s
  | .destroyQp ring d => Sys2Proof.Machine.execDestroyQp ring d s
  | .regMr ring d => Sys2Proof.Machine.execRegMr ring d s
  | .deregMr ring d => Sys2Proof.Machine.execDeregMr ring d s
  | .revokeDrainDone index => Sys2Proof.Machine.execRevokeDrainDone index s
  | .rteCancel m slice => Sys2Proof.Machine.execRteCancel m slice s
  | .claspWait ring d => Sys2Proof.Machine.execClaspWait ring d s
  | .claspPoll op ok => Sys2Proof.Machine.execClaspPoll op ok s
  | .claspTimeout op => Sys2Proof.Machine.execClaspTimeout op s
  | .alloc ring d => Sys2Proof.Machine.execAlloc ring d s
  | .free ring d => Sys2Proof.Machine.execFree ring d s
  | .hint ring d => Sys2Proof.Machine.execHint ring d s
  | .get ring d => Sys2Proof.Machine.execGet ring d s
  | .put ring d => Sys2Proof.Machine.execPut ring d s
  | .map ring d => Sys2Proof.Machine.execMap ring d s
  | .unmap ring d => Sys2Proof.Machine.execUnmap ring d s
  | .poolAdd ring d => Sys2Proof.Machine.execPoolAdd ring d s
  | .poolRemove ring d => Sys2Proof.Machine.execPoolRemove ring d s
  | .setCopies ring d => Sys2Proof.Machine.execSetCopies ring d s
  | .resolve ring d => Sys2Proof.Machine.execResolve ring d s
  | .query ring d => Sys2Proof.Machine.execQuery ring d s
  | .settleDone op => Sys2Proof.Machine.execSettleDone op s
  | .settleTimeout op => Sys2Proof.Machine.execSettleTimeout op s
  | .plcCancel m slice => Sys2Proof.Machine.execPlcCancel m slice s
  | .heatDecayBoundary => Sys2Proof.Machine.execHeatDecayBoundary s
  | .pageMoveStart => Sys2Proof.Machine.execPageMoveStart s
  | .pageCopyDone handle page => Sys2Proof.Machine.execPageCopyDone handle page s
  | .moveDrainDone handle page => Sys2Proof.Machine.execMoveDrainDone handle page s
  | .moveFail handle page => Sys2Proof.Machine.execMoveFail handle page s
  | .fetchWaitTimeout op => Sys2Proof.Machine.execFetchWaitTimeout op s
  | .replicaCompare handle page ok0 ok1 rot => Sys2Proof.Machine.execReplicaCompare handle page ok0 ok1 rot s
  | .evac m pc retrain => Sys2Proof.Machine.execEvac m pc retrain s
  | .evacRelease m pc => Sys2Proof.Machine.execEvacRelease m pc s
  | .evacDone => Sys2Proof.Machine.execEvacDone s
  | .pcRetrainDone pc ok => Sys2Proof.Machine.execPcRetrainDone pc ok s
  | .bar4Access port off data len => Sys2Proof.Machine.execBar4Access port off data len s
  | .frameReceive port bytes pkt => Sys2Proof.Machine.execFrameReceive port bytes pkt s
  | .slowpathFrame wing => Sys2Proof.Machine.execSlowpathFrame wing s
  | .reasmTimeout wing => Sys2Proof.Machine.execReasmTimeout wing s
  | .sendFrame ring d => Sys2Proof.Machine.execSendFrame ring d s
  | .postBuffer ring d => Sys2Proof.Machine.execPostBuffer ring d s
  | .txStalledTimeout op => Sys2Proof.Machine.execTxStalledTimeout op s
  | .egressSelect port => Sys2Proof.Machine.execEgressSelect port s
  | .treeCommit m => Sys2Proof.Machine.execTreeCommit m s
  | .treeLoad m => Sys2Proof.Machine.execTreeLoad m s
  | .treeLoadDone => Sys2Proof.Machine.execTreeLoadDone s
  | .txsCancel m slice => Sys2Proof.Machine.execTxsCancel m slice s
  | .nvmeSqDoorbell port half slice queue tail stores => Sys2Proof.Machine.execNvmeSqDoorbell port half slice queue tail stores s
  | .nvmeCqDoorbell port half slice queue head => Sys2Proof.Machine.execNvmeCqDoorbell port half slice queue head s
  | .controllerEnable port half slice cc aqa asq acq => Sys2Proof.Machine.execControllerEnable port half slice cc aqa asq acq s
  | .controllerReset port half slice => Sys2Proof.Machine.execControllerReset port half slice s
  | .controllerResetDone slice => Sys2Proof.Machine.execControllerResetDone slice s
  | .createIoSq slice cmd => Sys2Proof.Machine.execCreateIoSq slice cmd s
  | .createIoCq slice cmd => Sys2Proof.Machine.execCreateIoCq slice cmd s
  | .deleteIoSq slice cmd => Sys2Proof.Machine.execDeleteIoSq slice cmd s
  | .deleteIoCq slice cmd => Sys2Proof.Machine.execDeleteIoCq slice cmd s
  | .getLogPage slice cmd => Sys2Proof.Machine.execGetLogPage slice cmd s
  | .identify slice cmd => Sys2Proof.Machine.execIdentify slice cmd s
  | .nvmeAbort slice cmd => Sys2Proof.Machine.execNvmeAbort slice cmd s
  | .setFeatures slice cmd => Sys2Proof.Machine.execSetFeatures slice cmd s
  | .getFeatures slice cmd => Sys2Proof.Machine.execGetFeatures slice cmd s
  | .asyncEventRequest slice cmd => Sys2Proof.Machine.execAsyncEventRequest slice cmd s
  | .nsCreate slice cmd => Sys2Proof.Machine.execNsCreate slice cmd s
  | .nsDelete slice cmd => Sys2Proof.Machine.execNsDelete slice cmd s
  | .namespaceAttachment slice cmd => Sys2Proof.Machine.execNamespaceAttachment slice cmd s
  | .formatNvm slice cmd => Sys2Proof.Machine.execFormatNvm slice cmd s
  | .sanitizeCryptoErase slice cmd => Sys2Proof.Machine.execSanitizeCryptoErase slice cmd s
  | .sanitizeBlockErase slice cmd => Sys2Proof.Machine.execSanitizeBlockErase slice cmd s
  | .sanitizeOverwrite slice cmd => Sys2Proof.Machine.execSanitizeOverwrite slice cmd s
  | .sanitizeExitFailure slice cmd => Sys2Proof.Machine.execSanitizeExitFailure slice cmd s
  | .nvmeRead slice queue cmd => Sys2Proof.Machine.execNvmeRead slice queue cmd s
  | .nvmeWrite slice queue cmd => Sys2Proof.Machine.execNvmeWrite slice queue cmd s
  | .nvmeFlush slice queue cmd => Sys2Proof.Machine.execNvmeFlush slice queue cmd s
  | .nvmeCompare slice queue cmd => Sys2Proof.Machine.execNvmeCompare slice queue cmd s
  | .writeZeroes slice queue cmd => Sys2Proof.Machine.execWriteZeroes slice queue cmd s
  | .datasetManagement slice queue cmd => Sys2Proof.Machine.execDatasetManagement slice queue cmd s
  | .destage slice count => Sys2Proof.Machine.execDestage slice count s
  | .backendResponse id status data => Sys2Proof.Machine.execBackendResponse id status data s
  | .backendTimeout id => Sys2Proof.Machine.execBackendTimeout id s
  | .cacheSpaceTimeout slice queue cid => Sys2Proof.Machine.execCacheSpaceTimeout slice queue cid s
  | .backendConnectionLost endpoint => Sys2Proof.Machine.execBackendConnectionLost endpoint s
  | .backendReconnected endpoint => Sys2Proof.Machine.execBackendReconnected endpoint s
  | .apstIdleExpiry slice => Sys2Proof.Machine.execApstIdleExpiry slice s
  | .exlatDone slice => Sys2Proof.Machine.execExlatDone slice s
  | .sanitizeCheckpoint slice => Sys2Proof.Machine.execSanitizeCheckpoint slice s
  | .sanitizePassDone slice => Sys2Proof.Machine.execSanitizePassDone slice s
  | .sanitizeFailTimeout slice => Sys2Proof.Machine.execSanitizeFailTimeout slice s
  | .operationResume slice => Sys2Proof.Machine.execOperationResume slice s
  | .saInstall m => Sys2Proof.Machine.execSaInstall m s
  | .saRemove m => Sys2Proof.Machine.execSaRemove m s
  | .saRemoveDrainDone index => Sys2Proof.Machine.execSaRemoveDrainDone index s
  | .saQuery m => Sys2Proof.Machine.execSaQuery m s
  | .saFetchDone index => Sys2Proof.Machine.execSaFetchDone index s
  | .rngHealthFail => Sys2Proof.Machine.execRngHealthFail s
  | .cvuJob m ctx start => Sys2Proof.Machine.execCvuJob m ctx start s
  | .cvuJobDone => Sys2Proof.Machine.execCvuJobDone s
  | .readEntry m => Sys2Proof.Machine.execReadEntry m s
  | .writeEntry m => Sys2Proof.Machine.execWriteEntry m s
  | .bind m => Sys2Proof.Machine.execBind m s
  | .unbind m => Sys2Proof.Machine.execUnbind m s
  | .sliceReset m => Sys2Proof.Machine.execSliceReset m s
  | .sliceResetDone slice => Sys2Proof.Machine.execSliceResetDone slice s
  | .sliceActivate slice => Sys2Proof.Machine.execSliceActivate slice s
  | .freeze m => Sys2Proof.Machine.execFreeze m s
  | .freezeBoundariesReached => Sys2Proof.Machine.execFreezeBoundariesReached s
  | .freezeWaitTimeout => Sys2Proof.Machine.execFreezeWaitTimeout s
  | .thaw m => Sys2Proof.Machine.execThaw m s
  | .save m => Sys2Proof.Machine.execSave m s
  | .restore m authOk reachable content => Sys2Proof.Machine.execRestore m authOk reachable content s
  | .ringRead m => Sys2Proof.Machine.execRingRead m s
  | .ringBind m => Sys2Proof.Machine.execRingBind m s
  | .ringUnbind m => Sys2Proof.Machine.execRingUnbind m s
  | .doorbell port half slice ring index stores => Sys2Proof.Machine.execDoorbell port half slice ring index stores s
  | .sliceCancel port half slice tag engine => Sys2Proof.Machine.execSliceCancel port half slice tag engine s
  | .completionRingFullTimeout ring => Sys2Proof.Machine.execCompletionRingFullTimeout ring s
  | .coreCrash core cause => Sys2Proof.Machine.execCoreCrash core cause s
  | .watchdogExpiry core => Sys2Proof.Machine.execWatchdogExpiry core s
  | .coreRestartDone core => Sys2Proof.Machine.execCoreRestartDone core s
  | .coreRestartTimeout core => Sys2Proof.Machine.execCoreRestartTimeout core s
  | .coreRestart m core => Sys2Proof.Machine.execCoreRestart m core s
  | .coreRelease m core => Sys2Proof.Machine.execCoreRelease m core s
  | .writeFw m slot sigOk => Sys2Proof.Machine.execWriteFw m slot sigOk s
  | .activate m slot wings sigOk => Sys2Proof.Machine.execActivate m slot wings sigOk s
  | .wingDrainDone => Sys2Proof.Machine.execWingDrainDone s
  | .wingLoadDone => Sys2Proof.Machine.execWingLoadDone s
  | .stwFwBootWrite m slot => Sys2Proof.Machine.execStwFwBootWrite m slot s
  | .logCopy m wing count => Sys2Proof.Machine.execLogCopy m wing count s
  | .telemetryPeriod die hbm0 hbm1 hbm2 hbm3 => Sys2Proof.Machine.execTelemetryPeriod die hbm0 hbm1 hbm2 hbm3 s
  | .getVersion t => Sys2Proof.Machine.execGetVersion t s
  | .getCapabilities t => Sys2Proof.Machine.execGetCapabilities t s
  | .negotiateAlgorithms t ok => Sys2Proof.Machine.execNegotiateAlgorithms t ok s
  | .getDigests t => Sys2Proof.Machine.execGetDigests t s
  | .getCertificate t slot off len => Sys2Proof.Machine.execGetCertificate t slot off len s
  | .challenge t slot norOk => Sys2Proof.Machine.execChallenge t slot norOk s
  | .getMeasurements t index sign norOk => Sys2Proof.Machine.execGetMeasurements t index sign norOk s
  | .getLmsSig t => Sys2Proof.Machine.execGetLmsSig t s
  | .spdmUnsupportedRequest t code => Sys2Proof.Machine.execSpdmUnsupportedRequest t code s
  | .svnCommit m => Sys2Proof.Machine.execSvnCommit m s
  | .lkeyInstall m key norOk => Sys2Proof.Machine.execLkeyInstall m key norOk s
  | .lkeyErase m norOk => Sys2Proof.Machine.execLkeyErase m norOk s
  | .debugUnlock m sigOk => Sys2Proof.Machine.execDebugUnlock m sigOk s
  | .jtagInstruction ir => Sys2Proof.Machine.execJtagInstruction ir s
  | .jtagTrst low => Sys2Proof.Machine.execJtagTrst low s
  | .cofferSample mv ma => Sys2Proof.Machine.execCofferSample mv ma s
  | .stage5SaveDone => Sys2Proof.Machine.execStage5SaveDone s
  | .epochBoundary => Sys2Proof.Machine.execEpochBoundary s
  | .brownout => Sys2Proof.Machine.execBrownout s
  | .overvoltageTrip => Sys2Proof.Machine.execOvervoltageTrip s
  | .pwrResetCold m => Sys2Proof.Machine.execPwrResetCold m s
  | .pwrResetWarm m => Sys2Proof.Machine.execPwrResetWarm m s
  | .pwrShedWrite m reg hi lo => Sys2Proof.Machine.execPwrShedWrite m reg hi lo s
  | .sensorThresholdCrossing sensor level => Sys2Proof.Machine.execSensorThresholdCrossing sensor level s
  | .mctpControl cmd arg => Sys2Proof.Machine.execMctpControl cmd arg s
  | .pldmRequest type cmd arg => Sys2Proof.Machine.execPldmRequest type cmd arg s
  | .setdasa addr => Sys2Proof.Machine.execSetdasa addr s
  | .entdaa addr => Sys2Proof.Machine.execEntdaa addr s
  | .pf1Flr port half => Sys2Proof.Machine.execPf1Flr port half s
  | .pf0Flr port => Sys2Proof.Machine.execPf0Flr port s
  | .flrDone fn late => Sys2Proof.Machine.execFlrDone fn late s
  | .hotReset port half => Sys2Proof.Machine.execHotReset port half s
  | .linkLost port half tags => Sys2Proof.Machine.execLinkLost port half tags s
  | .perstAssert port => Sys2Proof.Machine.execPerstAssert port s
  | .perstDeassert port => Sys2Proof.Machine.execPerstDeassert port s
  | .refclkLoss port => Sys2Proof.Machine.execRefclkLoss port s
  | .busMasterDisable fn late => Sys2Proof.Machine.execBusMasterDisable fn late s
  | .busMasterEnable fn ats enc l0p l1 => Sys2Proof.Machine.execBusMasterEnable fn ats enc l0p l1 s
  | .completionTimeout fn tag access addr => Sys2Proof.Machine.execCompletionTimeout fn tag access addr s
  | .hostAccessFail access addr => Sys2Proof.Machine.execHostAccessFail access addr s
  | .unexpectedCompletion fn tag => Sys2Proof.Machine.execUnexpectedCompletion fn tag s
  | .tagQuarantineExpiry port half tag => Sys2Proof.Machine.execTagQuarantineExpiry port half tag s
  | .invalidateRequest fn req => Sys2Proof.Machine.execInvalidateRequest fn req s
  | .invalidateComplete fn req => Sys2Proof.Machine.execInvalidateComplete fn req s
  | .l0pIdleExpiry port half => Sys2Proof.Machine.execL0pIdleExpiry port half s
  | .l1IdleExpiry port half => Sys2Proof.Machine.execL1IdleExpiry port half s
  | .d3hotEntry fn => Sys2Proof.Machine.execD3hotEntry fn s
  | .interruptMethodChange port msixEnable intDisable funcMask => Sys2Proof.Machine.execInterruptMethodChange port msixEnable intDisable funcMask s
  | .msixUnmask port vector addr data mask => Sys2Proof.Machine.execMsixUnmask port vector addr data mask s
  | .sliceMessageUnmask slice entry addr data mask => Sys2Proof.Machine.execSliceMessageUnmask slice entry addr data mask s
  | .hstIntxAck m port vector => Sys2Proof.Machine.execHstIntxAck m port vector s
  | .laneLost lane => Sys2Proof.Machine.execLaneLost lane s
  | .ethRetrain m group => Sys2Proof.Machine.execEthRetrain m group s
  | .ethRetrainDone working => Sys2Proof.Machine.execEthRetrainDone working s
  | .accelCounterRise pos value => Sys2Proof.Machine.execAccelCounterRise pos value s
  | .linkTrained port half width rate flit accel => Sys2Proof.Machine.execLinkTrained port half width rate flit accel s
  | .laneGroupUp group working => Sys2Proof.Machine.execLaneGroupUp group working s
  | .envCheckTimeout => Sys2Proof.Machine.execEnvCheckTimeout s
  | .d0Return fn => Sys2Proof.Machine.execD0Return fn s
  | .logCopyDone => Sys2Proof.Machine.execLogCopyDone s
  | .streamSlotWritten ok => Sys2Proof.Machine.execStreamSlotWritten ok s
  | .fwSlotWritten ok => Sys2Proof.Machine.execFwSlotWritten ok s

end Sys2Proof.Machine
end

