-- ==== Sys2Proof/Machine/View.lean ====
section
/-! DEFINITION. What a read of BAR0 returns (R7, R258 to R268): the registers that show other state of the block, and the rest as stored. -/

namespace Sys2Proof.Machine

/-- Number of a register among n at a stride from a base. -/
def regIndex (base stride n a : Nat) : Option Nat :=
  if base ≤ a ∧ a < base + stride * n ∧ (a - base) % stride = 0 then some ((a - base) / stride) else none

/-- DEV_STATE and PWR_STATE over their stored bits (Tables 11-5 and 16-12). -/
def State.viewDev (s : State) (a : Nat) : Option Nat :=
  if a = R.DEV_STATE then
    some (setBits (setBits (setBits (setBits (s.reg a) 23 16 s.dev.fatalReason) 15 12 s.dev.shed) 11 8 s.dev.limitedCause) 3 0 s.dev.st.code)
  else if a = R.PWR_STATE then some (s.dev.st.code * 2 ^ 28 + s.dev.shed % 16 * 2 ^ 24)
  else (regIndex (R.DEV_SRAM 0) 4 4 a).map fun q => setBits (s.reg a) 0 0 (s.getF F.PWR_DOM_ON_LO_ON / 2 ^ q)

/-- Program slots of the Gallery (Table 04-17), and the ENABLED bit of a cluster. -/
def State.viewGal (s : State) (a : Nat) : Option Nat :=
  match regIndex (R.GAL_PROG_ID 0) 8 8 a with
  | some k => let h := FHead.of (s.progSlot k).image; some (if (s.progSlot k).st = 0 then 0 else h.ver * 2 ^ 16 + h.id)
  | none =>
    match regIndex (R.GAL_PROG_STATE 0) 8 8 a with
    | some k =>
      let x := s.progSlot k
      some (if x.st = 0 then 0 else x.st % 4 * 2 ^ 30 + min 255 (s.progRefs k) * 2 ^ 16 + x.owner % 256)
    | none => (regIndex (R.GAL_CLUSTER 0) 4 16 a).map fun c => setBits (s.reg a) 0 0 (b2n (s.clusterOn c))

/-- The Newel clock, the time state and the flight slots (Table 05-18). -/
def State.viewFlt (s : State) (a : Nat) : Option Nat :=
  let sel (g : Flight → Nat) : Option Nat := some (((s.flight (s.getF F.FLT_SEL_SLOT)).map g).getD 0)
  if a = R.FLT_NEWEL_LO then some (s.now % 2 ^ 32)
  else if a = R.FLT_NEWEL_HI then some (s.now / 2 ^ 32 % 2 ^ 32)
  else if a = R.FLT_NEWEL_FRAC then some s.fracReg
  else if a = R.FLT_PTP_STATUS then some (setBits (setBits (s.reg a) 7 6 s.ptpRole) 5 4 s.timeState.code)
  else if a = R.FLT_EPOCH_LO then sel fun f => f.epoch % 2 ^ 32
  else if a = R.FLT_EPOCH_HI then sel fun f => f.epoch / 2 ^ 32
  else if a = R.FLT_PROGRESS then sel fun f => f.stepsDone
  else if a = R.FLT_LATE_MAX then sel fun f => min f.maxLate (2 ^ 32 - 1)
  else if a = R.FLT_LATE_STEPS then sel fun f => f.lateSteps % 2 ^ 32
  else if a = R.FLT_LAST then sel fun f => f.lastStatus % 256 * 2 ^ 24 + f.lastOrigin % 2 ^ 16
  else (regIndex (R.FLT_SLOT 0) 4 64 a).map fun k =>
    ((s.flight k).map fun f => f.st.code * 2 ^ 29 + b2n f.held * 2 ^ 28 + f.slice % 256 * 2 ^ 16 + f.id % 2 ^ 16).getD 0

/-- The pools of placement (Table 07-14), and what a channel shows of its retired frames and corrected words (Table 07-17). -/
def State.viewPlc (s : State) (a : Nat) : Option Nat :=
  if a = R.PLC_POOL_T0_FREE then some (s.tierFree 0 0)
  else if a = R.PLC_POOL_T1_TOTAL then some (s.tierTotal 0 1)
  else if a = R.PLC_POOL_T1_FREE then some (s.tierFree 0 1)
  else if a = R.PLC_RETIRED then some s.plc.retired.length
  else (regIndex (R.HBM_PC 0) 4 128 a).map fun c =>
    setBits (setBits (s.reg a) 15 8 (min 255 (s.plc.retired.filter fun f => pcOf f == c).length)) 7 0 (min 255 (s.pcHour c))

/-- The selected storage controller (Table 09-12). -/
def State.viewNvs (s : State) (a : Nat) : Option Nat :=
  let c := s.getF F.NVS_CSEL_CTRL
  let x := s.ctrl c
  let r := x.rec'
  if a = R.NVS_C_STATE then
    some (x.ps % 8 * 2 ^ 29 + b2n x.rdy * 2 ^ 28 + b2n x.en * 2 ^ 27 + b2n r.sanitizing * 2 ^ 26 + b2n r.sanFailed * 2 ^ 25 + b2n r.formatting * 2 ^ 24 +
      (x.sqs.filter (·.1 != 0)).length % 256 * 2 ^ 16 + x.nss.length % 256 * 2 ^ 8)
  else if a = R.NVS_C_DIRTY then some (x.cache.filter (·.dirty)).length
  else if a = R.NVS_C_DEFER then some (min x.lost 65535 * 2 ^ 16 + (x.nss.filter (·.2.pend)).length % 2 ^ 16)
  else if a = R.NVS_C_REC then some (r.op % 16 * 2 ^ 28 + r.pass % 16 * 2 ^ 24 + r.state % 4 * 2 ^ 16 + (if r.op = 0 then 0 else r.sprog))
  else none

/-- Queues of the egress scheduler, and the check-value and cipher registers that show more than they store (Tables 08-15, 10-8 and 10-10). -/
def State.viewPaths (s : State) (a : Nat) : Option Nat :=
  if a = R.TXS_Q_STATE then
    let k := 16 * s.getF F.TXS_QSEL_PORT + s.getF F.TXS_QSEL_QUEUE
    some (min 65535 (s.backlog k / 1024) * 2 ^ 16 + b2n (s.queueOpen k))
  else if a = R.CIP_SA_RESULT then some (setBits (s.reg a) 3 0 (((s.sa (s.getF F.CIP_SA_SEL_INDEX)).map (·.st)).getD 0))
  else if R.CIP_SA_DATA 12 ≤ a ∧ a ≤ R.CIP_SA_DATA 19 then some 0
  else
    let res (n : Nat) : Nat := s.cvuValue n ^^^ (polyOf (s.getF (F.CVU_CTX_CFG_POLY n))).out
    match regIndex (R.CVU_CTX_RESULT_LO 0) 32 16 a with
    | some n => some (res n % 2 ^ 32)
    | none => (regIndex (R.CVU_CTX_RESULT_HI 0) 32 16 a).map fun n => res n / 2 ^ 32

/-- Slices and rings (Table 11-9), PF0's pending vectors, and the entries of a port's translation cache, whose number is open while ATS is enabled
(R288, Table 12-11; log entry 141). -/
def State.viewHost (s : State) (a : Nat) : Option Nat :=
  let p := s.getF F.HST_INTX_SEL_PORT
  let pend := s.pendingVecs p
  let ats (p : Nat) : Nat := if s.getF (F.HST_FUNC_PF1_ATS p) = 1 ∨ s.getF (F.HST_FUNC_H1_ATS p) = 1 then Config.atsValid p s.draws % 8193 else 0
  let groups (lo : Nat) : Nat := (List.range 32).foldl (fun n g => if pend.any (· / 32 == lo + g) then n + 2 ^ g else n) 0
  if a = R.SLC_RING_FREE then some s.ringFree
  else if a = R.SLC_RESTORE_NONCE_LO then some (s.restoreNonce s.slcSel % 2 ^ 32)
  else if a = R.SLC_RESTORE_NONCE_HI then some (s.restoreNonce s.slcSel / 2 ^ 32)
  else if a = R.HST_INTX_SUM0 then some (groups 0)
  else if a = R.HST_INTX_SUM1 then some (groups 32)
  else if a = R.HST_INTX_PEND then
    some ((List.range 32).foldl (fun n i => if pend.contains (32 * s.getF F.HST_INTX_SEL_GROUP + i) then n + 2 ^ i else n) 0)
  else match regIndex (R.HST_ATS 0) 4 4 a with
  | some p => some (setBits (s.reg a) 13 0 (ats p))
  | none => (regIndex (R.SLC_STATE 0) 4 32 a).map fun j =>
    (List.range 8).foldl (fun n i => n + (s.slice (8 * j + i)).state.code * 2 ^ (4 * i)) 0

/-- The Signet's registers (Table 15-5), and the crashes of a core within the last 10 s (Table 14-6). -/
def State.viewFw (s : State) (a : Nat) : Option Nat :=
  if a = R.SIG_BOOT_INFO then some (setBits (s.reg a) 31 24 Config.romVersion.toNat)
  else if a = R.SIG_DBG_NONCE_LO then some (s.debugNonce % 2 ^ 32)
  else if a = R.SIG_DBG_NONCE_HI then some (s.debugNonce / 2 ^ 32)
  else if R.SIG_LKEY_BLOB 0 ≤ a ∧ a ≤ R.SIG_LKEY_BLOB 39 then some 0
  else
    match regIndex (R.SIG_MR_DATA 0) 4 12 a with
    | some w => some (fieldAt (beBytes 48 (lookD s.sig.mr (s.getF F.SIG_MR_SEL_MR) 0).toNat) (4 * w) 4)
    | none => (regIndex (R.STW_CORE 0) 4 32 a).map fun c =>
      setBits (s.reg a) 27 24 (min (bits (s.reg a) 27 24) (s.stw.crashes.filter fun e => e.1 == c && s.up < e.2 + 10 * 10 ^ 9).length)

/-- A block's SEAL: the CRC over the active values, since a read waits for a recomputation that runs (R269); while H10 is paused, as it was computed
last. -/
def State.viewSeal (s : State) (a : Nat) : Option Nat :=
  match blockOf a with
  | none => none
  | some b => if a = sealAddr b ∧ b ≠ 3 ∧ !s.hallPaused 10 then some (s.sealOf b) else none

/-- The value of a register by its own address: derived where it shows other state, else as stored behind its selector. -/
def State.value (s : State) (a : Nat) : Nat :=
  match [s.viewDev a, s.viewGal a, s.viewFlt a, s.viewPlc a, s.viewNvs a, s.viewPaths a, s.viewHost a, s.viewFw a, s.viewSeal a].findSome? id with
  | some v => v % 2 ^ 32
  | none => s.reg (s.keyOf a)

/-- A 32-bit word of the controller properties in a slice's page (R211, R213, R306), as the NVMe base specification lays them out (PRESUMED, log entry 49):
CAP with MQES 4,095, CQR 1, TO 20, DSTRD 0, NSSRS 1 and the NVM command set; VS 2.0.0; CC, CSTS.RDY, AQA, ASQ and ACQ. What the spec states no value for
is open. -/
def State.nvmeProp (s : State) (c off : Nat) : Nat :=
  let x := s.ctrl c
  let st := (s.slice c).state
  if !(st == .bound || st == .active || st == .frozen) then 0
  else match off with
    | 0x00 => setBits (setBits (setBits (Config.nvmeCap % 2 ^ 32) 31 24 20) 16 16 1) 15 0 4095
    | 0x04 => setBits (setBits (setBits (Config.nvmeCap / 2 ^ 32 % 2 ^ 32) 3 0 0) 4 4 1) 5 5 1
    | 0x08 => 0x00020000
    | 0x14 => x.cc % 2 ^ 32
    | 0x1C => b2n x.rdy
    | 0x24 => x.aqa % 2 ^ 32
    | 0x28 => x.asq % 2 ^ 32
    | 0x2C => x.asq / 2 ^ 32 % 2 ^ 32
    | 0x30 => x.acq % 2 ^ 32
    | 0x34 => x.acq / 2 ^ 32 % 2 ^ 32
    | _ => 0

/-- Registers whose reads come from a latch of the master: FLT_NEWEL_HI, FLT_NEWEL_FRAC and the _HI halves of the 64-bit counters. Before its first
read of the _LO half a master sees the value itself (log entry 57). -/
def latched (a : Nat) : Bool := a == R.FLT_NEWEL_HI || a == R.FLT_NEWEL_FRAC || counterLos.any (· + 4 == a)

/-- Fields that read 0 while no stream runs: those whose Reset column says Stream, except DEV_PRIV_PORTS, which reads 0xF (R267). -/
def State.streamMask (s : State) (r : RegRow) : Word := if s.dev.stream then BitVec.allOnes 32 else ~~~(r.mask (·.stream))

/-- What a read of BAR0 returns to a master (R7, R259, R261, R264, R267): 0 where nothing answers, and 0 in the fields that it may not read. -/
def State.readReg (s : State) (m : Master) (off : Nat) : Word :=
  match (s.reach m off).1 with
  | none => 0
  | some a =>
    match rowOf a with
    | none => 0
    | some r =>
      if a = R.DEV_PRIV_PORTS then BitVec.ofNat 32 s.privPorts &&& s.readMask m r
      else
        let v := if latched a then ((look s.latches (latchKey m a)).map (·.toNat)).getD (s.value a) else s.value a
        BitVec.ofNat 32 v &&& s.readMask m r &&& s.streamMask r

end Sys2Proof.Machine
end

