-- ==== Sys2Proof/Safety.lean ====
section
/-! DEFINITION. What a safe run is, and the terms in which statements speak: when a register write takes effect, and what a command leaves
alone. -/

namespace Sys2Proof

open Machine

/-- A step that answers a next state. -/
def stepSafe (s : State) : Prop := ∃ t, step s = .next t

namespace Machine

/-- The state in which a write of a master to a register takes effect: none while PF0 is in D3hot, while the block does not answer and while a
paused hall holds the write; otherwise the link that carried the write is in L0 (R264, R267, R280, R291). -/
def State.writeAt (s : State) (m : Master) (a : Nat) : Option State :=
  if s.asleep m then none
  else
    match blockOf a with
    | none => none
    | some b => let w := s.wakeMaster m; if w.answers b && !w.writeWaits m b then some w else none

/-- A privileged master's write to a command register takes effect in a state. -/
def taken (s w : State) (m : Master) (a : Nat) : Prop := s.writeAt m a = some w ∧ w.privileged m = true

/-- A GO of SLC_CMD takes effect in a state, which has no command running and a core that serves MGMT (R274, R322). -/
def slcReady (s w : State) (m : Master) : Prop := taken s w m R.SLC_CMD ∧ w.getF F.SLC_STATUS_CMD_ACTIVE = 0 ∧ w.coreServes 0 0 = true

/-- An SLC command is over, with its result, opcode and slice shown (R274). -/
def slcOver (t : State) (op slice result : Nat) : Prop :=
  t.getF F.SLC_CMD_RESULT_RESULT = result ∧ t.getF F.SLC_CMD_RESULT_OP = op ∧ t.getF F.SLC_CMD_RESULT_SLICE = slice ∧
  t.getF F.SLC_STATUS_CMD_ACTIVE = 0 ∧ t.getF F.SLC_STATUS_CMD_DONE = 1 ∧ t.slcCmd = none

/-- An SLC command goes on (R274). -/
def slcOn (t : State) (c : SlcCmd) : Prop := t.slcCmd = some c ∧ t.getF F.SLC_STATUS_CMD_ACTIVE = 1

/-- A controller fetches an entry of a queue (R211, R234, R319): the queue holds it, the slice takes work, and no other command of the queue has
its CID. -/
def nvFetches (s : State) (c queue : Nat) (d : Desc) (q : NvSq) (r : Ring) : Prop :=
  look (s.ctrl c).sqs queue = some q ∧ s.ring q.ring = some r ∧ (s.ctrl c).rdy = true ∧ (s.ctrl c).en = true ∧ q.closing = none ∧ r.fi ≠ r.pi ∧
  (s.slice c).takesWork = true ∧ s.ctrlServes c = true ∧ s.hallPaused 1 = false ∧ s.shedAt 4 = false ∧ s.canDma (s.slice c).fn = true ∧
  ∀ m ∈ (s.ctrl c).cmds, m.queue = queue → m.cid ≠ sqeCid d

/-- A command as it is fetched. -/
def nvNew (s : State) (queue : Nat) (d : Desc) (p : NvPhase) : NvCmd := ⟨queue, sqeCid d, d, p, 0, false, [], [], nvOk, s.up⟩

/-- A controller in PS0 has fetched an entry of a queue: the state in which the command starts. -/
def nvFetched (s u : State) (c queue : Nat) (d : Desc) : Prop :=
  ∃ q r, nvFetches s c queue d q r ∧ (s.ctrl c).ps = 0 ∧ (s.ctrl c).entering = none ∧ (s.ctrl c).exiting = none ∧
  u = (s.setRing q.ring { r with fi := (r.fi + 1) % max 1 r.entries }).setCtrl c
    { s.ctrl c with cmds := (s.ctrl c).cmds ++ [nvNew s queue d .run] }

/-- Every byte of memory reads as before. -/
def sameBytes (s t : State) : Prop := ∀ a, t.mem.get a = s.mem.get a

/-- Every register other than those listed reads as before. -/
def regsBut (l : List Nat) (s t : State) : Prop := ∀ a, a ∉ l → t.reg a = s.reg a

/-- The engines hold what they held: Gallery, flights with their control messages, RTE, placement, packet path, storage and cipher engine. -/
def sameEngines (s t : State) : Prop :=
  t.gal = s.gal ∧ t.flights = s.flights ∧ t.flCtl = s.flCtl ∧ t.fltWait = s.fltWait ∧ t.rte = s.rte ∧ t.plc = s.plc ∧ t.pp = s.pp ∧ t.nvs = s.nvs ∧ t.cip = s.cip

/-- Slices, rings and their operations are as they were. -/
def sameTenants (s t : State) : Prop :=
  t.slices = s.slices ∧ t.rings = s.rings ∧ t.ops = s.ops ∧ t.cqWait = s.cqWait ∧ t.clasps = s.clasps ∧ t.msgs = s.msgs

/-- Device state, power, stream, time, firmware and Signet are as they were. -/
def sameDevice (s t : State) : Prop :=
  t.dev = s.dev ∧ t.pwr = s.pwr ∧ t.str = s.str ∧ t.time = s.time ∧ t.stw = s.stw ∧ t.sig = s.sig ∧ t.mio = s.mio

/-- An event of a class is counted and shown (R273, R380); its record waits for the end of an H0 pause (Table 02-8), enters the error ring at PROD
where the ring takes its class, has room and PF0 can write, and is else lost. -/
def errorShown (s t : State) (cls block slice code status loc : Nat) (inj : Bool) : Prop :=
  let n := s.getF F.ERR_RING_SIZE_ENTRIES
  let prod := s.reg R.ERR_RING_PROD
  let takes := s.errRingOn && bitAt (s.getF F.ERR_RING_CTRL_CLASS_MASK) cls
  let writes := decide ((prod + 2 ^ 32 - s.reg R.ERR_RING_CONS) % 2 ^ 32 < n) && s.canDma (.pf0 s.errPort) && s.errFail == 0
  t.getF (F.ERR_CNT_COUNT cls) = (s.getF (F.ERR_CNT_COUNT cls) + 1) % 2 ^ 32 ∧ t.getF (classF cls) = 1 ∧ t.dev = s.dev ∧ sameEngines s t ∧
  sameTenants s t ∧
  (s.hallPaused 0 = true → sameBytes s t ∧ t.errHold = s.errHold ++ [⟨s.now, cls, block, slice, code, status, loc, inj⟩]) ∧
  (s.hallPaused 0 = false → t.errHold = s.errHold ∧
    (takes = false → sameBytes s t ∧ t.reg R.ERR_RING_PROD = prod) ∧
    (takes = true → writes = false → sameBytes s t ∧ t.getF F.ERR_CNT_LOST_COUNT = (s.getF F.ERR_CNT_LOST_COUNT + 1) % 2 ^ 32 ∧
      t.getF F.ERR_STATUS_RING_OVERFLOW = 1) ∧
    (takes = true → writes = true → t.reg R.ERR_RING_PROD = (prod + 1) % 2 ^ 32 ∧
      t.mem = s.mem.write ((Space.pf0 s.errPort).at (s.reg R.ERR_RING_BASE_LO + 2 ^ 32 * s.reg R.ERR_RING_BASE_HI + 32 * (prod % n)))
        (errBytes s.now cls block slice code (shownStatus status) loc prod inj)))

/-- What no command but those of a chapter's own reaches: memory, engines and tenants. -/
def sameWork (s t : State) : Prop := sameBytes s t ∧ sameEngines s t ∧ sameTenants s t

end Machine

end Sys2Proof
end

