-- ==== Sys2Proof/WellFormed.lean ====
section
/-! DEFINITION. Which commands have operands that the block's interfaces can carry. Operands whose type fixes their range (a port, a
slice, a core) need no check. A command that is not well formed cannot be sent. -/

namespace Sys2Proof

open Machine

/-- The fields of a received packet fit its headers (R127 to R129, Tables 06-2 and 06-3). -/
def Machine.Pkt.wellFormed (p : Pkt) : Bool :=
  p.port < 16 && p.qpn < 2 ^ 24 && p.psn < 2 ^ 24 && p.path < 16 && p.vaddr < 2 ^ 64 && p.key < 2 ^ 32 && p.msgOffset < 2 ^ 32 &&
    p.msgLen < 2 ^ 32 && p.imm < 2 ^ 32 && p.argA < 2 ^ 64 && p.argB < 2 ^ 64 && p.placed.all (· < 2 ^ 24)

/-- A failed access belongs to something that the block numbers (Table 12-6). -/
def Machine.HostAccess.wellFormed : HostAccess → Bool
  | .flightStep slot step => slot < 64 && step < 65536
  | .rteResponder qpn => qpn < 2 ^ 24
  | .nvme ctrl queue cid => ctrl < 256 && queue < 65536 && cid < 65536
  | .slice i => i < 256
  | .pf0Ring ring => ring < 65536
  | .fetched ring _ => ring < 65536
  | .nvmeFetched ctrl queue _ => ctrl < 256 && queue < 65536
  | _ => true

/-- An uncorrectable word lies in a unit that the block has (Table 18-2). -/
def Machine.UeLoc.wellFormed : UeLoc → Bool
  | .page handle _ copy => handle < 2 ^ 32 && copy < 2
  | .flightBuffer slot step => slot < 64 && step < 65536
  | .qpStore qpn => qpn < 2 ^ 24
  | .xtsKey ctrl queue cid => ctrl < 256 && queue < 65536 && cid < 65536
  | .keyTable index => index < 2 ^ 24
  | .saTable index => index < 65536
  | .flightStore slot => slot < 64
  | .stewardL2 core => core < 32
  | .cachedContext port => port < 16
  | .gallery cluster => cluster < 16
  | .sram block => block < 19
  | _ => true

/-- Numbers that a record, a message or a register carries fit their fields (Tables 18-3, 12-5, 16-12 and the layouts of each chapter). -/
def Instr.wellFormed : Instr → Bool
  | .errorEvent code block slice status loc => code < 0x300 && block < 256 && slice < 65536 && status < 256 && loc < 2 ^ 64
  | .fatalFault reason item block => reason < 256 && item < 256 && block < 256
  | .dataUncorrectable loc => loc.wellFormed
  | .hbmCorrectableError frame => frame < 2 ^ 18
  | .patrolPass frames => frames.all (· < 2 ^ 18)
  | .stepSend _ step t | .stepRecv _ step t | .stepReduce _ step t | .stepConvert _ step t | .stepProgram _ step t | .stepCopy _ step t
  | .stepLanding _ step t | .stepSignalAccel _ step t => step < 65536 && t < 2 ^ 64
  | .stepComplete _ step | .lateLimitExpiry _ step | .lateAbortExpiry _ step => step < 65536
  | .keepaliveReceived _ device _ | .peerTimeout _ device => device < 65536
  | .abortBroadcastReceived _ _ src _ _ _ | .controlAckReceived _ src _ | .flightWriteReceived _ src _ _ _ _ _ => src < 65536
  | .arrivalReportReceived _ _ src _ set ranks => src < 65536 && set < 65536 && ranks.all (· < 65536)
  | .ppsInEdge low high => low ≤ 10 ^ 9 && high ≤ 10 ^ 9
  | .packetReceive p | .sackReceived p | .nakReceived p | .cnpReceived p => p.wellFormed
  | .frameReceive _ bytes pkt => 14 ≤ bytes.length && (pkt.map Pkt.wellFormed).getD true
  | .recoveryTimerExpiry _ path | .suspectProbeTimer _ path => path < 16
  | .pushReadDone _ link => link < 8
  | .bar4Access _ _ data len => (data.map List.length).getD len ≤ 4096
  | .cofferSample mv ma => mv < 65536 && ma < 65536
  | .pwrShedWrite _ _ hi lo => hi < 65536 && lo < 65536
  | .flrDone _ late => late.all (· < 2 ^ 14)
  | .linkLost _ _ tags => tags.all (·.2 < 2 ^ 14)
  | .busMasterDisable _ late => late ≤ 8192
  | .completionTimeout _ tag access _ => tag < 2 ^ 14 && access.wellFormed
  | .hostAccessFail access _ => access.wellFormed
  | .unexpectedCompletion _ tag | .tagQuarantineExpiry _ _ tag => tag < 2 ^ 14
  | .invalidateRequest _ req | .invalidateComplete _ req => req < 32
  | .linkTrained _ _ width rate _ _ => width ≤ 16 && rate < 256
  | .getCertificate _ _ off len => off < 65536 && len < 65536
  | .getMeasurements _ index _ _ => index < 256
  | .spdmUnsupportedRequest _ code => code < 256
  | _ => true

end Sys2Proof
end

