-- ==== Sys2Proof/Certificates/Slice0/Obligations.lean ====
section
/-! DEFINITION. The statements about the model, family by family. Each docstring names the rules of the spec that its statement formalises, and
any clause that is the model's own choice with its log entry. -/

open Sys2Proof Sys2Proof.Machine

/-! ### The queue, reset, and the register interface -/

/-- A step runs the command at the front of the queue on the state with the queue's rest; on an empty queue the block idles, which is the model's
own choice (log entry 1). -/
def Obligations.StepRunsFrontCommand : Prop :=
  (∀ (c : Instr) (cs : List Instr) (s : State), s.pending = c :: cs → step s = exec c { s with pending := cs }) ∧
  ∀ s : State, s.pending = [] → step s = .next s

/-- What reset leaves (R8, R364, Table 16-12): BOOT, every register at the value of its Reset column but for PWR_LAST_RESET, which names a
power-up, memory blank, slices FREE and nothing bound or running. -/
def Obligations.ResetLeavesResetValues : Prop :=
  State.reset.dev.st = .boot ∧ State.reset.readReg .stewardMachine R.DEV_STATE = 2 ∧ State.reset.reg R.PWR_LAST_RESET = 2 ^ 28 ∧
  (∀ a, a ≠ R.PWR_LAST_RESET → State.reset.reg a = resetOf a) ∧ (∀ a, State.reset.mem.get a = Mem.blank) ∧
  (∀ i, (State.reset.slice i).state = .free ∧ (State.reset.slice i).cfg = 0) ∧ State.reset.rings = [] ∧ State.reset.ops = [] ∧
  State.reset.flights = [] ∧ State.reset.pending = []

/-- Violations (R258, R260, R264, R262): a partial write, a write to an unmapped offset and a write to a privileged register by a master that is
not privileged each add 1 to their counter and show master, kind and offset, and change nothing else. -/
def Obligations.ViolationsCountedAndShown : Prop :=
  (∀ (s w : State) (m : Master) (off : BitVec 26) (data : Word) (be : BitVec 4) (a : Nat),
    s.reach m off.toNat = (some a, w) → w.writeWaits m ((blockOf a).getD 19) = false → be ≠ 15#4 →
    ∃ t, exec (.registerWrite m off data be []) s = .next t ∧ t.getF F.DEV_CNT_PARTIAL = (w.getF F.DEV_CNT_PARTIAL + 1) % 2 ^ 32 ∧
      t.reg R.DEV_VIOL_LAST = m.code * 2 ^ 29 + 2 * 2 ^ 26 + off.toNat ∧ regsBut [R.DEV_CNT_PARTIAL, R.DEV_VIOL_LAST] w t ∧
      sameWork w t ∧ sameDevice w t) ∧
  (∀ (s w : State) (m : Master) (off : BitVec 26) (data : Word) (a : Nat) (r : RegRow),
    s.reach m off.toNat = (some a, w) → w.writeWaits m ((blockOf a).getD 19) = false → rowOf a = some r →
    r.fields.all (fun f => f.acc == .prw || f.acc == .resv) = true → r.hasAcc .prw = true → w.privileged m = false →
    w.extLocked a = false → w.jobContext a = false →
    ∃ t, exec (.registerWrite m off data 15#4 []) s = .next t ∧ t.getF F.DEV_CNT_PRIV = (w.getF F.DEV_CNT_PRIV + 1) % 2 ^ 32 ∧
      t.reg R.DEV_VIOL_LAST = m.code * 2 ^ 29 + off.toNat ∧ regsBut [R.DEV_CNT_PRIV, R.DEV_VIOL_LAST] w t ∧ sameWork w t ∧ sameDevice w t) ∧
  (∀ (s v : State) (m : Master) (off : BitVec 26) (data : Word) (be : BitVec 4), s.dev.st.live = true → s.asleep m = false →
    v = s.wakeMaster m → ownAddr off.toNat = none →
    ∃ t, exec (.registerWrite m off data be []) s = .next t ∧ t.getF F.DEV_CNT_UNMAPPED = (v.getF F.DEV_CNT_UNMAPPED + 1) % 2 ^ 32 ∧
      t.reg R.DEV_VIOL_LAST = m.code * 2 ^ 29 + 3 * 2 ^ 26 + off.toNat ∧ regsBut [R.DEV_CNT_UNMAPPED, R.DEV_VIOL_LAST] v t ∧
      sameWork v t ∧ sameDevice v t)

/-- A full write of a register whose every field is RW or reserved takes effect at once: the RW bits take the written value, and no other register,
byte of memory, engine or slice changes but for the suspension of the block's seal (R7, R259, R260, R270); what PF0's host has stored in its own
memory before is there first. -/
def Obligations.PlainWriteTakesEffect : Prop :=
  (∀ (s : State) (p : Fin 4) (off : BitVec 26) (data : Word) (be : BitVec 4) (stores : List (DWord × Byte)),
    exec (.registerWrite (.pf0 p) off data be stores) s = exec (.registerWrite (.pf0 p) off data be []) (s.hostStores (.pf0 p) stores)) ∧
  ∀ (s w : State) (m : Master) (off : BitVec 26) (data : Word) (a : Nat) (r : RegRow),
    s.reach m off.toNat = (some a, w) → w.writeWaits m ((blockOf a).getD 19) = false → rowOf a = some r →
    r.fields.all (fun f => f.acc == .rw || f.acc == .resv) = true → startsCommand a data.toNat = false → w.extLocked a = false →
    w.jobContext a = false →
    let mask := r.mask fun f => f.acc == .rw
    ∃ t, exec (.registerWrite m off data 15#4 []) s = .next t ∧
      BitVec.ofNat 32 (t.reg (w.keyOf a)) = ((BitVec.ofNat 32 (w.reg (w.keyOf a)) &&& ~~~mask) ||| (data &&& mask)) ∧
      regsBut [w.keyOf a, R.DEV_SEAL_HOLD] w t ∧ sameWork w t ∧ sameDevice w t

/-- Sequence-clear registers (R265): SEQ is 0 at reset and every event advances it by 1 modulo 256, also when its field is already set; a write
whose [31:24] equals SEQ returns every SQC field but SEQ to its Reset value and leaves SEQ and every other field; any other write is ignored. -/
def Obligations.SequenceClearWrite : Prop :=
  (∀ b < 19, ∀ r ∈ blockRows b, r.hasAcc .sqc = true → ∀ i < r.count, State.reset.getF (seqOf (r.addr + r.stride * i)) = 0) ∧
  (∀ (s : State) (f : Fld) (v : Nat), f.ok = true → f.hi < 24 →
    (s.eventV f v).getF f = v % 2 ^ (f.hi + 1 - f.lo) ∧ (s.eventV f v).getF (seqOf f.reg) = (s.getF (seqOf f.reg) + 1) % 256) ∧
  (∀ (s w : State) (m : Master) (off : BitVec 26) (data : Word) (a : Nat) (r : RegRow),
    s.reach m off.toNat = (some a, w) → w.writeWaits m ((blockOf a).getD 19) = false → rowOf a = some r →
    (data.toNat / 2 ^ 24 ≠ w.getF (seqOf (w.keyOf a)) → exec (.sqcWrite m off data) s = .next w) ∧
    (data.toNat / 2 ^ 24 = w.getF (seqOf (w.keyOf a)) → ∃ t, exec (.sqcWrite m off data) s = .next t ∧
      (∀ f ∈ r.fields, f.acc = .sqc → ¬(f.hi = 31 ∧ f.lo = 24) → t.getF ⟨w.keyOf a, f.hi, f.lo⟩ = f.rst) ∧
      (∀ f ∈ r.fields, f.acc ≠ .sqc ∨ (f.hi = 31 ∧ f.lo = 24) → t.getF ⟨w.keyOf a, f.hi, f.lo⟩ = w.getF ⟨w.keyOf a, f.hi, f.lo⟩) ∧
      regsBut [w.keyOf a] w t ∧ sameWork w t ∧ sameDevice w t))

/-- Buffered writes and seals (R266, R269, R270): at a block's boundary every pending write of the group becomes active and its APPLY_STATUS bit
clears, with nothing else changed but the buckets whose rates change, and where nothing is pending nothing changes; a recomputation leaves SEAL at
the CRC of the sealed values and, unless comparison is suspended, reports a mismatch in the block's STATUS and in DEV_SEAL_SUMMARY once;
the end of HOLD_MS resumes comparison once the reference has been written; and a write of SEAL_REF commits the reference and resumes it. The
boundaries of GAL, PKT's trees and ETH have statements of their own. -/
def Obligations.ApplyAndSealCommands : Prop :=
  (∀ (s : State) (b : Fin 19) (bit : Fin 32),
    let f : Fld := ⟨applyAddr b, bit, bit⟩
    let mine := fun e : Nat × (Word × Word) => applyOf e.1 == some f
    b.val ≠ 18 → f ≠ F.PKT_APPLY_STATUS_TREES → (b.val = 8 → ∀ c ∈ s.gal.cmds, c.clusters = 0) → (hallsOf b).any s.hallPaused = false →
    s.answers b = true → (s.pend.map (·.1)).Nodup → (∀ e ∈ s.pend, e.1 ≠ applyAddr b) →
    (s.pend.any mine = false → exec (.bufferedApply b bit) s = .next s) ∧
    (s.pend.any mine = true → ∃ t, exec (.bufferedApply b bit) s = .next t ∧ t.getF f = 0 ∧ t.pend = s.pend.filter (fun e => !mine e) ∧
      (∀ e ∈ s.pend, mine e = true →
        BitVec.ofNat 32 (t.reg e.1) = ((BitVec.ofNat 32 (s.reg e.1) &&& ~~~e.2.1) ||| (e.2.2 &&& e.2.1))) ∧
      regsBut ([applyAddr b, R.DEV_SEAL_HOLD] ++ (s.pend.filter mine).map (·.1)) s t ∧
      t = { s with regs := t.regs, pend := t.pend, pp := t.pp, since := t.since })) ∧
  (∀ (s : State) (b : Fin 19), b.val ≠ 3 → s.hallPaused 10 = false →
    let u := s.setReg (sealAddr b) (s.sealOf b)
    let same := u.reg (sealAddr b) = u.reg (sealRefAddr b)
    ∃ t, exec (.sealRecompute b) s = .next t ∧ t.reg (sealAddr b) = s.sealOf b % 2 ^ 32 ∧
      (s.getF (sealHoldF b) = 1 → t = u) ∧
      (s.getF (sealHoldF b) = 0 → same → t = { u with sealBad := s.sealBad.filter (· != b.val) }) ∧
      (s.getF (sealHoldF b) = 0 → ¬same → s.sealBad.contains b.val = true → t = u) ∧
      (s.getF (sealHoldF b) = 0 → ¬same → s.sealBad.contains b.val = false → t.sealBad = b.val :: s.sealBad ∧
        t.getF ⟨R.DEV_SEAL_SUMMARY, b, b⟩ = 1 ∧ t.getF F.ERR_STATUS_DEGRADED = 1 ∧ ∀ f, sealStatusF b = some f → t.getF f = 1)) ∧
  (∀ (s : State) (b : Fin 19), s.sealOk.contains b.val = true → s.getF (sealHoldF b) = 1 → ∃ t, exec (.sealHoldExpiry b) s = .next t ∧
    t.getF (sealHoldF b) = 0 ∧ s.up ≤ t.up ∧ (∀ e, s.since.find? (·.1 == .seal b) = some e →
      e.2 + 10 ^ 6 * inRange 1 10000 (s.getF F.DEV_SEAL_CFG_HOLD_MS) 10000 ≤ t.up) ∧
    regsBut [R.DEV_SEAL_HOLD] s t ∧ t = { s with regs := t.regs, time := t.time, since := t.since }) ∧
  (∀ (s w : State) (m : Master) (b : Fin 19) (data : Word), b.val ≠ 3 → s.writeAt m (sealRefAddr b) = some w →
    ∃ t, exec (.sealRefWrite m b data) s = .next t ∧ t.reg (sealRefAddr b) = data.toNat ∧ t.getF (sealHoldF b) = 0 ∧
      t.sealOk.contains b.val = true ∧ regsBut ([sealRefAddr b.val, R.DEV_SEAL_HOLD] ++ (hallsOf b).map R.STR_HALL) w t ∧ sameWork w t ∧
      sameDevice w t)

/-- Reads with a side effect (R126, R261): a read of FLT_NEWEL_LO latches FLT_NEWEL_HI and FLT_NEWEL_FRAC for its master, a read of the _LO half
of a 64-bit counter latches its _HI half, and no other master's latch changes. -/
def Obligations.ReadsLatchHighHalves : Prop :=
  (∀ (s w : State) (m : Master) (a : Nat), s.reach m R.FLT_NEWEL_LO = (some a, w) →
    ∃ t, exec (.newelLoRead m) s = .next t ∧ look t.latches (latchKey m R.FLT_NEWEL_HI) = some (BitVec.ofNat 32 (w.now / 2 ^ 32)) ∧
      look t.latches (latchKey m R.FLT_NEWEL_FRAC) = some (BitVec.ofNat 32 w.fracReg) ∧
      (∀ k, k ≠ latchKey m R.FLT_NEWEL_HI → k ≠ latchKey m R.FLT_NEWEL_FRAC → look t.latches k = look w.latches k) ∧
      t = { w with latches := t.latches }) ∧
  (∀ (s w : State) (m : Master) (off : BitVec 26) (a : Nat) (r : RegRow), s.reach m off.toNat = (some a, w) → rowOf a = some r →
    r.hasAcc .prw = false → r.hasAcc .srw = false → counterLos.contains a = true →
    ∃ t, exec (.counterLoRead m off) s = .next t ∧ look t.latches (latchKey m (a + 4)) = some (BitVec.ofNat 32 (w.reg (a + 4))) ∧
      (∀ k, k ≠ latchKey m (a + 4) → look t.latches k = look w.latches k) ∧ t = { w with latches := t.latches })

/-! ### Power, reset, driver lease and Newel time -/

/-- Start-up (R351, R352, R364, R366, R369, R372, R376): the standby domain starts and stops, the input threshold enters BOOT with the straps as
they are sampled, the locked islands assert MOD_PWRGD with every domain on, and the ports' internal hold ends. -/
def Obligations.StartUpSequence : Prop :=
  (∀ s : State, s.dev.st = .off → ∃ t, exec .inputStandbyUp s = .next t ∧ t.dev.st = .standby ∧ t.mio.stbyOk = true ∧
    t.outbox = .pin 0 1 :: s.outbox ∧ sameWork s t) ∧
  (∀ s : State, s.dev.st = .standby → ∃ t, exec .inputStandbyDown s = .next t ∧ t.dev.st = .off ∧ t.mio.stbyOk = false ∧
    t.outbox.head? = some (.pin 0 0)) ∧
  (∀ (s : State) (straps : Fin 16), s.dev.st = .standby → ∃ t, exec (.startThreshold straps) s = .next t ∧ t.dev.st = .boot ∧
    t.getF F.STR_ENV_ENTRY_STRAPS = straps ∧ t.getF F.DEV_STATE_SEQ = (s.getF F.DEV_STATE_SEQ + 1) % 256 ∧ sameWork s t) ∧
  (∀ s : State, s.dev.st = .boot → s.mio.modPwrgd = false → ∃ t, exec .islandsLocked s = .next t ∧ t.mio.modPwrgd = true ∧
    t.mio.portHold = true ∧ t.reg R.PWR_DOM_ON_LO = 2 ^ 32 - 1 ∧ t.reg R.PWR_DOM_ON_HI = 15 ∧ t.outbox = .pin 1 1 :: s.outbox ∧
    regsBut [R.PWR_DOM_ON_LO, R.PWR_DOM_ON_HI] s t ∧ sameWork s t) ∧
  (∀ s : State, s.mio.portHold = true → ∃ t, exec .portResetHoldEnd s = .next t ∧ t.mio.portHold = false ∧ sameWork s t ∧ t.dev = s.dev)

/-- Resets of the device (R351, R362, R365, Table 16-12): a trip or a cold reset leaves STANDBY with PWR_LAST_RESET naming its kind and source,
nothing bound, no flight loaded and the memory inside the device blank, while that of hosts and accelerators stays (log entry 5); a warm reset
leaves BOOT. -/
def Obligations.DeviceResets : Prop :=
  (∀ s : State, s.dev.st ≠ .off → ∃ t, exec .brownout s = .next t ∧ t.dev.st = .standby ∧ t.reg R.PWR_LAST_RESET = 2 * 2 ^ 28 ∧
    t.rings = [] ∧ t.flights = [] ∧ t.slices = [] ∧ t.mem = s.mem.outside) ∧
  (∀ s : State, s.dev.st ≠ .off → ∃ t, exec .overvoltageTrip s = .next t ∧ t.dev.st = .standby ∧ t.reg R.PWR_LAST_RESET = 3 * 2 ^ 28 ∧
    t.rings = [] ∧ t.flights = [] ∧ t.slices = [] ∧ t.mem = s.mem.outside) ∧
  (∀ (s w : State) (m : Master), s.writeAt m R.PWR_RESET_CMD = some w → w.privileged m = true →
    ∃ t, exec (.pwrResetCold m) s = .next t ∧ t.dev.st = .standby ∧ t.reg R.PWR_LAST_RESET = 4 * 2 ^ 28 + m.source * 2 ^ 24 ∧
      t.rings = [] ∧ t.flights = [] ∧ t.slices = [] ∧ t.mem = w.mem.outside) ∧
  (∀ (s w : State) (m : Master), s.writeAt m R.PWR_RESET_CMD = some w → w.privileged m = true →
    ∃ t, exec (.pwrResetWarm m) s = .next t ∧ t.dev.st = .boot ∧ t.dev.stream = false ∧
      t.reg R.PWR_LAST_RESET = 5 * 2 ^ 28 + m.source * 2 ^ 24 ∧ t.rings = [] ∧ t.flights = [] ∧ t.slices = [] ∧ t.mem = w.mem.outside)

/-- The Coffer (R354, R357, R359, R360, R361): a sample shows in PWR_INPUT and leads the samples kept, and one beyond the cap or the current limit
clamps the device, before any stage changes; an epoch boundary moves the oscillator on by 1 ms, advances PWR_EPOCH_COUNT and starts empty ledgers,
before refused units are offered again and an energy table that waited is in force; the orderly save ends with its power event; and
thresholds in their ranges are taken whole, others refused whole. -/
def Obligations.CofferCommands : Prop :=
  (∀ (s : State) (mv ma : Nat), s.dev.st.live = true → ∃ u t : State,
    exec (.cofferSample mv ma) s = .next t ∧ (s.dev.st = .fatal → t = u) ∧ (s.dev.st ≠ .fatal → t = State.shedUp 5 (State.shedDown 5 u)) ∧
    u.getF F.PWR_INPUT_MV = mv % 65536 ∧ u.getF F.PWR_INPUT_MA = ma % 65536 ∧ u.pwr.samples = (mv % 65536 :: s.pwr.samples).take 100 ∧
    u.pwr.lowNow = min s.pwr.lowNow (mv % 65536) ∧ u.pwr.measured = s.pwr.measured + mv % 65536 * (ma % 65536) ∧
    (s.clamps (mv % 65536) (ma % 65536) = false → u.pwr.clamped = s.pwr.clamped ∧ regsBut [R.PWR_INPUT] s u) ∧
    (s.clamps (mv % 65536) (ma % 65536) = true → u.pwr.clamped = true ∧
      u.getF F.PWR_CNT_CLAMP_COUNT = (s.getF F.PWR_CNT_CLAMP_COUNT + 1) % 2 ^ 32 ∧ u.getF F.PWR_STATUS_CLAMP = 1 ∧ u.getF F.PWR_EVENT_KIND = 3) ∧
    u.dev = s.dev ∧ sameWork s u) ∧
  (∀ s : State, s.dev.st.live = true → ∃ u t : State, exec .epochBoundary s = .next t ∧ t = ((u.fetchEpoch).offerAgain).tableDue 5 ∧
    u.time.up = s.time.up + 10 ^ 6 ∧
    ((∀ e ∈ s.pend, e.1 ≠ R.PWR_EPOCH_COUNT) → u.getF F.PWR_EPOCH_COUNT_COUNT = (s.getF F.PWR_EPOCH_COUNT_COUNT + 1) % 2 ^ 32) ∧
    u.pwr.devCharge = 0 ∧ u.pwr.engCharge = [] ∧ u.pwr.sliceCharge = [] ∧ u.pwr.measured = 0 ∧ u.pwr.clamped = false ∧
    u.pwr.lowLast = s.pwr.lowNow ∧ u.pwr.nextTable = none) ∧
  (∀ s : State, s.pwr.saving = true → ∃ t, exec .stage5SaveDone s = .next t ∧ t.pwr.saving = false ∧ t.getF F.PWR_EVENT_KIND = 4 ∧
    t.getF F.PWR_STATUS_SAVE_DONE = 1 ∧ t.getF F.PWR_STATUS_EVENT = 1) ∧
  (∀ (s w : State) (m : Master) (r : Fin 3) (hi lo : Nat), hi < 65536 → lo < 65536 → s.writeAt m (R.PWR_SHED_A + 4 * r) = some w →
    w.privileged m = true →
    let v := w.setReg (R.PWR_SHED_A + 4 * r) (hi * 65536 + lo)
    let ok := shedOk (v.shedThr 1) (v.shedThr 2) (v.shedThr 3) (v.shedThr 4) (v.shedThr 5) (v.getF F.PWR_SHED_C_HYST)
    ∃ t, exec (.pwrShedWrite m r hi lo) s = .next t ∧
      (ok = true → t.reg (R.PWR_SHED_A + 4 * r) = hi * 65536 + lo ∧ regsBut [R.PWR_SHED_A + 4 * r, R.DEV_SEAL_HOLD] w t) ∧
      (ok = false → t.getF F.PWR_STATUS_CFG_REFUSED = 1 ∧ regsBut [R.PWR_STATUS] w t) ∧ sameWork w t ∧ sameDevice w t)

/-- The driver handshake and lease (R311, R330): a nonzero version waits for judgment; a version in DEV_DRV_WINDOW is accepted and one outside it
refused with 0x31; RENEW on an accepted port starts the lease at its limit; and expiry stops it and faults the port's slices. -/
def Obligations.DriverLease : Prop :=
  (∀ (s w : State) (m : Master) (p : Fin 4) (major minor : Byte), s.writeAt m (R.DEV_DRV_HELLO p) = some w → m = .pf0 p ∨ m = .stewardMachine →
    ¬(major = 0 ∧ minor = 0) → ∃ t, exec (.devDrvHelloWrite m p major minor) s = .next t ∧ t.getF (F.DEV_DRV_HELLO_MAJOR p) = major.toNat ∧
      t.getF (F.DEV_DRV_HELLO_MINOR p) = minor.toNat ∧ t.getF (F.DEV_DRV_HELLO_ANSWERED p) = 0 ∧ regsBut [R.DEV_DRV_HELLO p] w t ∧
      sameWork w t ∧ sameDevice w t) ∧
  (∀ (s w : State) (m : Master) (p : Fin 4) (major minor : Byte), s.writeAt m (R.DEV_DRV_HELLO p) = some w → m ≠ .pf0 p → m ≠ .stewardMachine →
    ∃ t, exec (.devDrvHelloWrite m p major minor) s = .next t ∧ t.reg R.DEV_VIOL_LAST = (m.code * 2 ^ 29 + 4 * 2 ^ 26 + R.DEV_DRV_HELLO p) ∧
      regsBut [R.DEV_VIOL_LAST, R.DEV_CNT_PRIV] w t ∧ sameWork w t ∧ sameDevice w t) ∧
  (∀ (s : State) (p : Fin 4), s.dev.firmware = true → s.dev.st.live = true → s.dev.st ≠ .fatal → s.coreServes 0 0 = true →
    s.getF (F.DEV_DRV_HELLO_ANSWERED p) = 0 →
    let v := s.getF (F.DEV_DRV_HELLO_MAJOR p) * 256 + s.getF (F.DEV_DRV_HELLO_MINOR p)
    v ≠ 0 → (s.inWindow v = false → s.getF (F.DEV_LEASE_RUNNING p) = 0) →
    ∃ t, exec (.helloJudge p) s = .next t ∧ t.getF (F.DEV_DRV_HELLO_ANSWERED p) = 1 ∧
      t.getF (F.DEV_DRV_HELLO_RESULT p) = (if s.inWindow v then 0 else 0x31) ∧ sameWork s t) ∧
  (∀ (s w : State) (m : Master) (p : Fin 4), s.writeAt m (R.DEV_LEASE p) = some w → m = .pf0 p ∨ m = .stewardMachine →
    w.helloAccepted p = true ∨ w.getF (F.DEV_LEASE_RUNNING p) = 1 → ∃ t, exec (.leaseRenew m p) s = .next t ∧ t.getF (F.DEV_LEASE_RUNNING p) = 1 ∧
      t.getF (F.DEV_LEASE_EXPIRED p) = 0 ∧ look t.leaseMs p = some (w.leaseLimit p) ∧ regsBut [R.DEV_LEASE p] w t ∧ sameWork w t ∧ sameDevice w t) ∧
  (∀ (s : State) (p : Fin 4), s.getF (F.DEV_LEASE_RUNNING p) = 1 → ∃ u t : State, exec (.leaseExpiry p) s = .next t ∧
    t = u.faultPort p .lease ∧ u.getF (F.DEV_LEASE_RUNNING p) = 0 ∧ u.getF (F.DEV_LEASE_EXPIRED p) = 1 ∧ regsBut [R.DEV_LEASE p] s u ∧
    sameWork s u ∧ ((∀ i < 256, (s.slice i).port = p → (s.slice i).state ≠ .active ∧ (s.slice i).state ≠ .frozen) → t = u))

/-- Newel time (R100 to R102, R377): steps and rates, what one measurement does to the run count and the time state, and the 1PPS signals. Time moves as log entry 7 says. -/
def Obligations.NewelTime : Prop :=
  (∀ (s w : State) (m : Master), s.writeAt m R.FLT_NEWEL_CTRL = some w → w.privileged m = true → w.newelOwned m = false →
    (0 ≤ w.stepNs ∨ w.flights.any (fun e => e.2.active) = false) → 0 ≤ (w.time.ns : Int) + w.stepNs → (w.time.ns : Int) + w.stepNs < 2 ^ 64 →
    ∃ t, exec (.newelStep m) s = .next t ∧ (t.time.ns : Int) = w.time.ns + w.stepNs ∧ t = { w with time := t.time } ∧
      t.time = { w.time with ns := t.time.ns }) ∧
  (∀ (s w : State) (m : Master) (data : Word), s.writeAt m R.FLT_NEWEL_ADJ = some w → w.privileged m = true → w.newelOwned m = false →
    ∃ t, exec (.newelAdjWrite m data) s = .next t ∧ t.reg R.FLT_NEWEL_ADJ = data.toNat ∧ regsBut [R.FLT_NEWEL_ADJ] w t ∧ sameWork w t ∧
      sameDevice w t) ∧
  (∀ (s : State) (off : Int), s.answers 9 = true → 2 ≤ s.ptpRole → -(2 ^ 31) ≤ off → off < 2 ^ 31 →
    let good := off.natAbs ≤ s.getF F.FLT_CONFIG_LOCK_NS
    ∃ u : State, exec (.ptpSyncReceived off) s = .next u.delayReq ∧ u.reg R.FLT_PTP_OFFSET = ofSigned 32 off ∧
      look u.time.stamps (2 * s.ptpPort) = some s.now ∧
      (good → (s.time.st = .holdover ∨ (s.time.st = .acquiring ∨ s.time.st = .unlocked) ∧ 16 ≤ s.time.run + 1) → u.time.st = .locked) ∧
      (good → u.time.run = s.time.run + 1) ∧
      (¬good → (s.time.st = .locked ∨ s.time.st = .holdover) → u.time.st = .unlocked) ∧ (¬good → u.time.run = 0) ∧ sameWork s u) ∧
  (∀ (s : State) (off : Int), s.answers 9 = true → s.ptpRole < 2 → exec (.ptpSyncReceived off) s = .next (s.ptpStamp s.ptpPort false)) ∧
  (∀ s : State, s.answers 9 = true → 2 ≤ s.ptpRole → s.time.st = .locked → ∃ t, exec .syncSilenceExpiry s = .next t ∧ t.time.st = .holdover ∧
    t.getF F.FLT_PTP_STATUS_STATE = 2 ∧ sameWork s t) ∧
  (∀ s : State, s.answers 9 = true → s.time.st = .holdover → ∃ t, exec .holdoverExpiry s = .next t ∧ t.time.st = .unlocked ∧ t.time.run = 0 ∧
    t.getF F.FLT_PTP_STATUS_STATE = 3 ∧ sameWork s t) ∧
  (∀ s : State, s.answers 9 = true → s.ptpRole = 2 → s.time.heard = false → s.str.ptpOff = false →
    ∃ u : State, exec .ptpStartTimeout s = .next (u.envRaise 4 0 1 0) ∧ u.str = { s.str with ptpOff := true } ∧ s.up ≤ u.up ∧
      u = { s with str := u.str, time := u.time, since := u.since }) ∧
  (∀ (s : State) (low high : Nat), s.answers 9 = true → s.ppsMode = 1 → 100 ≤ low → 100 ≤ high →
    let u := { s with time := { s.time with ppsAt := some s.now, ppsWarned := false } }
    (s.ptpRole ≠ 1 ∨ s.now % 10 ^ 9 = 0 → exec (.ppsInEdge low high) s = .next u) ∧
    (s.ptpRole = 1 → s.now % 10 ^ 9 ≠ 0 → (5 * 10 ^ 8 ≤ s.now % 10 ^ 9 ∨ s.flights.any (fun e => e.2.active) = false) → s.now + 10 ^ 9 < 2 ^ 64 →
      ∃ t, exec (.ppsInEdge low high) s = .next t ∧ t.now % 10 ^ 9 = 0 ∧ (t.now : Int) = s.now + s.toSecond ∧ t = { u with time := t.time }) ∧
    (s.ptpRole = 1 → 0 < s.now % 10 ^ 9 → s.now % 10 ^ 9 < 5 * 10 ^ 8 → s.flights.any (fun e => e.2.active) = true →
      ∃ t, exec (.ppsInEdge low high) s = .next t ∧ t.time = u.time ∧ regsBut [R.FLT_NEWEL_ADJ] s t ∧ sameWork s t)) ∧
  (∀ s : State, s.answers 9 = true → s.ppsMode = 1 → ∃ t, exec .ppsInAbsent s = .next t ∧ t.time = { s.time with ppsWarned := true } ∧ sameWork s t) ∧
  (∀ (s : State) (high : Bool), s.answers 9 = true → s.ppsMode = 2 → (s.timeState = .locked ∨ s.timeState = .holdover) → s.mio.ppsOut ≠ high →
    ∃ t, exec (.ppsOutEdge high) s = .next t ∧ t.mio.ppsOut = high ∧ t.outbox = .pin 2 (b2n high) :: s.outbox ∧ s.now ≤ t.now ∧
      (high = true → t.now % 10 ^ 9 = 0) ∧ (high = false → 10 ^ 8 ≤ t.now % 10 ^ 9) ∧ sameWork s t)

/-! ### Signet -/

/-- The chain of images (R336, R338, R339, R340, R325): the ROM without its PUF secret is fatal; stage 1 runs from the first NOR device whose
image verifies with an SVN that is not below the stored one, and LIMITED with cause 4 follows where neither does; firmware is released on the
Signet's answer alone. -/
def Obligations.BootChain : Prop :=
  (∀ (s : State) (puf : Bool) (a b : Stage1), s.dev.st = .boot → s.mio.modPwrgd = true → look s.sig.mr 0 = none → a.svn < 65536 → b.svn < 65536 →
    ∃ t, exec (.stage1Verify puf a b) s = .next t ∧
      (puf = false → t.dev.st = .fatal ∧ t.dev.fatalReason = 0x0A) ∧
      (puf = true → s.stage1Ok a = true → t.dev = s.dev ∧ t.sig.stage1Svn = a.svn ∧ t.getF F.SIG_BOOT_INFO_STAGE1_NOR = 0 ∧
        t.getF F.SIG_BOOT_INFO_STAGE1_SVN = a.svn ∧ sameWork s t) ∧
      (puf = true → s.stage1Ok a = false → s.stage1Ok b = true → t.dev = s.dev ∧ t.sig.stage1Svn = b.svn ∧
        t.getF F.SIG_BOOT_INFO_STAGE1_NOR = 1 ∧ t.getF F.SIG_BOOT_INFO_STAGE1_SVN = b.svn ∧ t.getF F.SIG_STATUS_VERIFY_FAIL = 1 ∧ sameWork s t) ∧
      (puf = true → s.stage1Ok a = false → s.stage1Ok b = false → t.dev = { s.dev with st := .limited, limitedCause := 4 } ∧
        t.getF F.SIG_STATUS_VERIFY_FAIL = 1 ∧ sameWork s t)) ∧
  (∀ (s : State) (d : BitVec 384), s.dev.st = .boot → s.dev.firmware = false → look s.sig.mr 2 = some d →
    (∃ t, exec (.firmwareRelease true) s = .next t ∧ t.dev = { s.dev with firmware := true } ∧ sameWork s t ∧
      ∀ w < 4, t.getF (F.STW_WING_STATE_SLOT w) = s.getF F.STW_FW_BOOT_SLOT) ∧
    ∃ t, exec (.firmwareRelease false) s = .next t ∧ t.getF F.SIG_STATUS_VERIFY_FAIL = 1 ∧ regsBut [R.SIG_STATUS] s t ∧ sameWork s t ∧
      sameDevice s t)

/-- Attestation (R329, R337, R342, R343, R345): each SPDM request in its order on an open transport, with firmware running and serving MGMT, gets its
response; a signed one takes the next leaf and keeps it for GET_LMS_SIG; a request out of order, or with an operand that has no answer, and any
other request get ERROR; and while MGMT does not serve, every request waits. The order and the response numbers are the model's (log entries
58 and 59). -/
def Obligations.SpdmResponses : Prop :=
  ∀ (s : State) (t : Fin 5), s.spdmOpen t = true → s.dev.firmware = true →
    let err := fun code : Nat => Host.Outcome.next (φ := Fault) (ρ := Refusal) { s with outbox := .msg t 0 [code] :: s.outbox }
    (s.coreServes 0 0 = false → ∀ c ∈ [Instr.getVersion t, .getCapabilities t, .negotiateAlgorithms t true, .getDigests t, .getCertificate t 0 0 0,
      .challenge t 0 true, .getMeasurements t 0 true true, .getLmsSig t, .spdmUnsupportedRequest t 0],
      exec c s = .next { s with mgmt := s.mgmt ++ [c] }) ∧
    (s.coreServes 0 0 = true →
    (∃ u, exec (.getVersion t) s = .next u ∧ u = { s with sig := u.sig, outbox := .msg t 1 [0x13] :: s.outbox } ∧
      u.spdm t = { s.spdm t with version := true, caps := false, algs := false } ∧ ∀ k ≠ t.val, u.spdm k = s.spdm k) ∧
    ((s.spdm t).version = false → exec (.getCapabilities t) s = err 4) ∧
    ((s.spdm t).version = true → ∃ u, exec (.getCapabilities t) s = .next u ∧
      u = { s with sig := u.sig, outbox := .msg t 2 [1, 1, 2, 18] :: s.outbox } ∧ u.spdm t = { s.spdm t with caps := true } ∧
      ∀ k ≠ t.val, u.spdm k = s.spdm k) ∧
    ((s.spdm t).caps = false → ∀ ok : Bool, exec (.negotiateAlgorithms t ok) s = err 4) ∧
    ((s.spdm t).caps = true → exec (.negotiateAlgorithms t false) s = err 5) ∧
    ((s.spdm t).caps = true → ∃ u, exec (.negotiateAlgorithms t true) s = .next u ∧
      u = { s with sig := u.sig, outbox := .msg t 3 [384, 384, 1] :: s.outbox } ∧ u.spdm t = { s.spdm t with algs := true } ∧
      ∀ k ≠ t.val, u.spdm k = s.spdm k) ∧
    (∀ code : Nat, exec (.spdmUnsupportedRequest t code) s = err 2) ∧
    ((s.spdm t).algs = false → ∀ c ∈ [Instr.getDigests t, .getCertificate t 0 0 0, .challenge t 0 true, .getMeasurements t 0 true true,
      .getLmsSig t], exec c s = err 4) ∧
    ((s.spdm t).algs = true →
      exec (.getDigests t) s = .next { s with outbox := .msg t 4 [1, (sha384 Config.certChain).toNat] :: s.outbox } ∧
      (∀ (slot : Fin 8) (off len : Nat),
        let part := (Config.certChain.drop off).take len
        (slot ≠ 0 ∨ Config.certChain.length ≤ off → exec (.getCertificate t slot off len) s = err 5) ∧
        (slot = 0 → off < Config.certChain.length → exec (.getCertificate t slot off len) s = .next { s with
          outbox := .msg t 5 [part.length, Config.certChain.length - (off + part.length), leNat part] :: s.outbox })) ∧
      (∀ (i : Nat) (sign nor : Bool), 12 < i → i ≠ 255 → exec (.getMeasurements t i sign nor) s = err 5) ∧
      (∀ (i : Nat) (sign nor : Bool), i ≤ 12 ∨ i = 255 →
        let body := if i = 0 then [12] else if i = 255 then (List.range 12).flatMap s.measure else s.measure (i - 1)
        (sign = false → exec (.getMeasurements t i sign nor) s = .next { s with outbox := .msg t 7 body :: s.outbox }) ∧
        (sign = true → s.sig.lmsNext < lmsLeaves → nor = true ∨ s.sig.lmsNext < s.sig.lmsEnd →
          ∃ u : State, exec (.getMeasurements t i sign nor) s = .next u ∧
            u.outbox.head? = some (.msg t 7 (body ++ [leNat (Config.ecdsaSig t s.sig.lmsNext)])) ∧
            (u.spdm t).lms = some s.sig.lmsNext ∧ u.sig.lmsNext = s.sig.lmsNext + 1 ∧ u.sig.mr = s.sig.mr)) ∧
      (∀ (slot : Fin 8) (nor : Bool), slot ≠ 0 → exec (.challenge t slot nor) s = err 5) ∧
      (∀ nor : Bool, s.sig.lmsNext < lmsLeaves → nor = true ∨ s.sig.lmsNext < s.sig.lmsEnd →
        ∃ u : State, exec (.challenge t 0 nor) s = .next u ∧
          u.outbox.head? = some (.msg t 6 [(sha384 Config.certChain).toNat, leNat (Config.ecdsaSig t s.sig.lmsNext)]) ∧
          (u.spdm t).lms = some s.sig.lmsNext ∧ u.sig.lmsNext = s.sig.lmsNext + 1 ∧ u.sig.mr = s.sig.mr) ∧
      (lmsLeaves ≤ s.sig.lmsNext → ∀ nor : Bool, exec (.challenge t 0 nor) s = err 3) ∧
      (∀ n : Nat, (s.spdm t).lms = some n → s.sig.lmsNext < lmsLeaves →
        exec (.getLmsSig t) s = .next { s with outbox := .msg t 8 [n, leNat (Config.lmsSig n)] :: s.outbox }) ∧
      ((s.spdm t).lms = none → exec (.getLmsSig t) s = err 3)))

/-- SVN, Locket key and debug access (R340, R346, R347, R348): a commit takes the SVN of the running stage 1 and never lowers the stored one; a
key is installed, replaced or erased with its identifier shown, and stays where the blob does not open or NOR does not take it; and an unlock attempt consumes the nonce, posts its result and, accepted, shows
the token's level and erases the key. -/
def Obligations.LocketKeyAndDebug : Prop :=
  (∀ (s w : State) (m : Master), taken s w m R.SIG_SVN_COMMIT → w.sig.stage1Svn < 65536 → ∃ t, exec (.svnCommit m) s = .next t ∧
    t.getF F.SIG_SVN_SVN = max (w.getF F.SIG_SVN_SVN) w.sig.stage1Svn ∧ regsBut [R.SIG_SVN] w t ∧ sameWork w t ∧ sameDevice w t) ∧
  (∀ (s w : State) (m : Master) (k : List Byte), taken s w m R.SIG_LKEY_CMD → ∃ t, exec (.lkeyInstall m (some k) true) s = .next t ∧
    t.sig.lkey = some k ∧ t.getF F.SIG_LKEY_RESULT_PRESENT = 1 ∧ t.getF F.SIG_LKEY_RESULT_RESULT = 0 ∧ t.getF F.SIG_STATUS_LKEY_DONE = 1 ∧
    t.reg R.SIG_LKEY_ID_LO = fieldAt (keyIdent (some k)) 0 4 ∧ t.reg R.SIG_LKEY_ID_HI = fieldAt (keyIdent (some k)) 4 4 ∧ sameWork w t) ∧
  (∀ (s w : State) (m : Master) (nor : Bool) (k : List Byte), taken s w m R.SIG_LKEY_CMD →
    ∀ e ∈ [(Instr.lkeyInstall m none nor, 2), (.lkeyInstall m (some k) false, 3), (.lkeyErase m false, 3)], ∃ t, exec e.1 s = .next t ∧
    t.sig.lkey = w.sig.lkey ∧ t.getF F.SIG_LKEY_RESULT_RESULT = e.2 ∧ t.getF F.SIG_STATUS_LKEY_DONE = 1 ∧
    regsBut [R.SIG_LKEY_CMD, R.SIG_LKEY_RESULT, R.SIG_STATUS] w t ∧ sameWork w t ∧ sameDevice w t) ∧
  (∀ (s w : State) (m : Master), taken s w m R.SIG_LKEY_CMD → ∃ t, exec (.lkeyErase m true) s = .next t ∧ t.sig.lkey = none ∧
    t.getF F.SIG_LKEY_RESULT_PRESENT = 0 ∧ t.getF F.SIG_LKEY_RESULT_RESULT = 0 ∧ t.getF F.SIG_STATUS_LKEY_DONE = 1 ∧
    t.reg R.SIG_LKEY_ID_LO = 0 ∧ t.reg R.SIG_LKEY_ID_HI = 0 ∧ sameWork w t) ∧
  (∀ (s w : State) (m : Master) (ok : Bool), taken s w m R.SIG_DBG_CMD →
    let src := w.reg R.SIG_DBG_SRC_LO + 2 ^ 32 * w.reg R.SIG_DBG_SRC_HI
    let h := w.mem.read ((Space.pf0 (w.cmdPort m)).at src) 128
    w.hallPaused 0 = false →
    ∃ (r : Nat) (t : State), exec (.debugUnlock m ok) s = .next t ∧ t.getF F.SIG_DBG_RESULT_RESULT = r ∧ t.sig.nonceDraw = w.draws ∧
      t.draws = w.draws + 1 ∧ sameWork w t ∧
      (src % 4096 ≠ 0 ∨ (∀ p : Fin 4, p.val = w.cmdPort m → w.canDma (.pf0 p) = false) → r = 4) ∧
      (src % 4096 = 0 → (∀ p : Fin 4, p.val = w.cmdPort m → w.canDma (.pf0 p) = true) → r = w.tokenJudge h ok) ∧
      if r = 0 then t.getF F.SIG_DBG_RESULT_LEVEL = fieldAt h 4 1 ∧ t.getF F.SIG_STATUS_DEBUG_UNLOCKED = 1 ∧ t.sig.lkey = none
      else t.sig.lkey = w.sig.lkey ∧ regsBut [R.SIG_DBG_RESULT] w t)

/-! ### The stream (chapter 02) -/

/-- STR commands start and are cancelled (R32, R34, R37 to R39, R263): a start that nothing stands against leads to FETCH with hall 0 shown and its port
kept; one that the device's state, the image's length or its address forbids posts its result, and one while a command runs posts BUSY, and
changes nothing else; CANCEL ends a command before the SWITCH of its hall, which resumes on its old bank, and is answered ALREADY_DONE behind it.
Codes follow log entry 22. -/
def Obligations.StreamCommandsStart : Prop :=
  (∀ (s w : State) (m : Master) (force : Bool), taken s w m R.STR_CMD →
    ∀ c op f, (c, op, f) ∈ [(Instr.writeSlot m, StrOp.writeSlot, false), (.restream m force, .restream, force),
      (.verifyOnly m force, .verifyOnly, force), (.loadFull m, .loadFull, false)] →
    let refusal : Option StrResult :=
      if w.str.cmd.isSome then some .busy
      else if op = .restream ∧ w.dev.st = .shedding ∨ op = .loadFull ∧ w.dev.stream = true then some .deviceState
      else if 96 * 2 ^ 20 < w.reg R.STR_SRC_LEN then some .headerBad
      else if w.strSrc % 4096 ≠ 0 then some .fetchFault else none
    (refusal = none → ∃ t, exec c s = .next t ∧ t.str.cmd = some (op, f, w.cmdPort m) ∧ t.strPhase = 1 ∧ t.getF F.STR_STATUS_HALL = 0 ∧
      t.getF F.STR_CMD_FORCE_CLEAR = b2n f ∧ regsBut [R.STR_STATUS, R.STR_CMD] w t ∧ t = { w with str := t.str, regs := t.regs }) ∧
    (∀ r, refusal = some r → ∃ t, exec c s = .next t ∧ t.getF F.STR_STATUS_RESULT = r.code ∧ regsBut [R.STR_STATUS, R.STR_CMD] w t ∧
      t = { w with regs := t.regs })) ∧
  (∀ (s w : State) (m : Master), taken s w m R.STR_CMD → w.str.cmd = none → exec (.strCancel m) s = .next (w.setF F.STR_CMD_FORCE_CLEAR 0)) ∧
  (∀ (s w : State) (m : Master), taken s w m R.STR_CMD → w.str.cmd ≠ none → w.str.halls = [] → w.str.touched = false →
    ∃ t, exec (.strCancel m) s = .next t ∧ t.str.cmd = none ∧ t.strPhase = 7 ∧ t.getF F.STR_STATUS_RESULT = StrResult.cancelled.code ∧
      regsBut [R.STR_STATUS, R.STR_CMD] w t ∧ sameWork w t) ∧
  (∀ (s w : State) (m : Master) (h : Nat) (l : List Nat), taken s w m R.STR_CMD → w.str.cmd ≠ none → w.str.halls = h :: l → h < 12 →
    ∃ u : State, exec (.strCancel m) s = .next (u.resumed s) ∧ u.str.cmd = none ∧ u.strPhase = 7 ∧
      u.getF F.STR_STATUS_RESULT = StrResult.cancelled.code ∧ u.hallPaused h = false ∧ u.activeBank h = w.activeBank h ∧
      regsBut [R.STR_STATUS, R.STR_CMD, R.STR_HALL h] w u ∧ sameWork w u) ∧
  (∀ (s w : State) (m : Master) (f : Bool) (p : Nat), taken s w m R.STR_CMD → w.str.cmd = some (.restream, f, p) → w.str.halls = [] →
    w.str.touched = true → ∃ t, exec (.strCancel m) s = .next t ∧ t.getF F.STR_STATUS_RESULT = StrResult.alreadyDone.code ∧ t.str = w.str ∧
      regsBut [R.STR_STATUS, R.STR_CMD] w t ∧ sameWork w t)

/-- A fetched image is judged (R22 to R24, R28 to R32, R34, R37, R38, R42): FETCH stages it when the checks of VERIFY pass and else posts their result; a
failed signature posts SIGNATURE_BAD, which VERIFY_ONLY shows in STR_STATUS alone, and a bad section CRC_BAD; behind them VERIFY_ONLY ends with OK,
WRITE_SLOT writes the slot, LOAD_FULL loads the stream and a restream begins its first hall; a stream slot is valid once its write reads back; and
STR_BOOT_SLOT takes a valid slot. Codes follow log entry 22. -/
def Obligations.StreamImageJudged : Prop :=
  (∀ (s : State) (op : StrOp) (f : Bool) (p : Fin 4), s.str.cmd = some (op, f, p.val) → s.strPhase = 1 → s.hallPaused 0 = false →
    s.canDma (.pf0 p) = true →
    let img := s.mem.read ((Space.pf0 p).at s.strSrc) (s.reg R.STR_SRC_LEN)
    ∃ t, exec .strFetchDone s = .next t ∧ regsBut [R.STR_STATUS] s t ∧ sameWork s t ∧
      (s.strCheck op f img = .ok → t.str = { s.str with image := img } ∧ t.strPhase = 2) ∧
      (s.strCheck op f img ≠ .ok → t.str.cmd = none ∧ t.strPhase = 7 ∧ t.getF F.STR_STATUS_RESULT = (s.strCheck op f img).code)) ∧
  (∀ (s : State) (op : StrOp) (f : Bool) (p : Fin 4), s.str.cmd = some (op, f, p.val) → s.strPhase = 1 → s.hallPaused 0 = false →
    s.canDma (.pf0 p) = false → ∃ t, exec .strFetchDone s = .next t ∧ t.str.cmd = none ∧ t.getF F.STR_STATUS_RESULT = StrResult.fetchFault.code ∧
      regsBut [R.STR_STATUS] s t ∧ sameWork s t) ∧
  (∀ (s : State) (op : StrOp) (f : Bool) (p : Nat) (accel : BitVec 8), s.str.cmd = some (op, f, p) → s.strPhase = 2 →
    (∀ ok : Bool, (ok && sigBlockOk s.str.image) = false → ∃ t, exec (.strSignaturesVerified ok accel) s = .next t ∧ t.str.cmd = none ∧
      t.getF F.STR_STATUS_RESULT = StrResult.signatureBad.code ∧ (op ≠ .verifyOnly → t.getF F.SIG_STATUS_VERIFY_FAIL = 1) ∧
      regsBut (R.STR_STATUS :: if op = .verifyOnly then [] else [R.SIG_STATUS]) s t ∧ sameWork s t) ∧
    (sigBlockOk s.str.image = true → crcsOk s.str.image = false → ∃ t, exec (.strSignaturesVerified true accel) s = .next t ∧ t.str.cmd = none ∧
      t.getF F.STR_STATUS_RESULT = StrResult.crcBad.code ∧ regsBut [R.STR_STATUS] s t ∧ sameWork s t) ∧
    (sigBlockOk s.str.image = true → crcsOk s.str.image = true →
      (isFull s.str.image = true ∨ (tablesOf s.str.image).any s.profileBlocked = false) →
      (op = .verifyOnly → ∃ t, exec (.strSignaturesVerified true accel) s = .next t ∧ t.str.cmd = none ∧ t.strPhase = 7 ∧
        t.getF F.STR_STATUS_RESULT = 0 ∧ regsBut [R.STR_STATUS] s t ∧ sameWork s t) ∧
      (op = .writeSlot → ∃ t, exec (.strSignaturesVerified true accel) s = .next t ∧ t.slotImage s.spareSlot = s.str.image ∧
        t.slotValid s.spareSlot = false ∧ t.str.cmd = s.str.cmd ∧ regsBut [R.STR_BOOT_SLOT] s t ∧ sameWork s t) ∧
      (op = .loadFull → exec (.strSignaturesVerified true accel) s = .next ((s.loadFull s.str.image accel).strDone .ok)) ∧
      (op = .restream → hallsIn s.str.image ≠ [] → ∃ t, exec (.strSignaturesVerified true accel) s = .next t ∧
        t.str = { s.str with halls := hallsIn s.str.image, tables := tablesOf s.str.image } ∧ t.strPhase = 3 ∧
        regsBut [R.STR_STATUS] s t ∧ t = { s with str := t.str, regs := t.regs }))) ∧
  (∀ (s : State) (f ok : Bool) (p : Nat), s.str.cmd = some (.writeSlot, f, p) → s.strPhase = 2 → s.slotImage s.spareSlot = s.str.image →
    ∃ t, exec (.streamSlotWritten ok) s = .next t ∧ t.str.cmd = none ∧ t.strPhase = 7 ∧
      t.getF F.STR_STATUS_RESULT = (if ok then 0 else StrResult.crcBad.code) ∧ (ok = true → t.slotValid s.spareSlot = true) ∧
      regsBut [R.STR_STATUS, R.STR_BOOT_SLOT] s t ∧ sameWork s t) ∧
  (∀ (s w : State) (m : Master) (k : Fin 2), taken s w m R.STR_BOOT_SLOT →
    (w.slotValid k = true → ∃ t, exec (.strBootSlotWrite m k) s = .next t ∧ t.getF F.STR_BOOT_SLOT_SLOT = k ∧ regsBut [R.STR_BOOT_SLOT] w t ∧
      sameWork w t ∧ sameDevice w t) ∧
    (w.slotValid k = false → exec (.strBootSlotWrite m k) s = .next w))

/-- A hall's restream (R37, R39, R40, R42, R43): SHADOW pauses the hall with its section in the bank that it does not run; QUIESCE switches the banks and
resumes it, or times out and resumes it on its old bank; and each table entry takes effect, waits for its boundary or is refused, the last one
ending the command. Codes follow log entry 22. -/
def Obligations.HallRestream : Prop :=
  (∀ (s : State) (h : Nat) (l : List Nat), s.str.halls = h :: l → h < 12 → s.strPhase = 3 → ∃ t, exec .shadowWritten s = .next t ∧
    t.hallPaused h = true ∧ t.getF (F.STR_HALL_SHADOW_VALID h) = 1 ∧ t.strPhase = 4 ∧
    look (if s.shadowBank h = 0 then t.str.banks0 else t.str.banks1) h =
      some ⟨sectVer s.str.image h, sectLayout s.str.image h, sectionBody s.str.image (0x10 + h)⟩ ∧ t.activeBank h = s.activeBank h ∧
    regsBut [R.STR_HALL h, R.STR_STATUS] s t ∧ sameWork s t) ∧
  (∀ (s : State) (h p : Nat) (l : List Nat) (op : StrOp) (f : Bool) (accel : BitVec 8), s.str.cmd = some (op, f, p) → s.str.halls = h :: l →
    h < 12 → s.strPhase = 4 → s.hallQuiet h = true → ∃ u v t : State, exec (.hallQuiesced accel) s = .next t ∧
      t = (v.resumeHall h).nextHall ∧ 
      v = { u.recheck h accel with str := { (u.recheck h accel).str with halls := l } }.setPhase .resume ∧ u = (s.setPhase .switch).switchHall h f ∧
      (f = false → u.getF (F.STR_HALL_ACTIVE_BANK h) = s.shadowBank h ∧ u.getF (F.STR_HALL_SHADOW_VALID h) = 0 ∧
        u.getF (F.STR_HALL_SEAL_PENDING h) = 1 ∧ sameWork s u)) ∧
  (∀ (s : State) (h : Nat) (l : List Nat), s.str.halls = h :: l → h < 12 → s.strPhase = 4 → ∃ u t : State,
    exec .quiesceTimeout s = .next t ∧ t = u.resumeHall h ∧ u.getF (F.STR_HALL_SHADOW_VALID h) = 0 ∧ u.str.cmd = none ∧ u.strPhase = 7 ∧
    u.getF F.STR_STATUS_RESULT = StrResult.quiesceTimeout.code ∧ u.activeBank h = s.activeBank h ∧ s.up ≤ u.up ∧
    s.str.quiesceAt + s.quiesceMs * 10 ^ 6 ≤ u.up ∧ regsBut [R.STR_HALL h, R.STR_STATUS] s u ∧ sameWork s u) ∧
  (∀ (s : State) (e : Nat × List Byte) (l : List (Nat × List Byte)), s.str.tables = e :: l → s.strPhase = 6 → s.str.tabWait = false →
    s.str.halls = [] →
    (tableBad e.1 e.2 = false → s.profileBlocked e = false → e.1 ≠ 3 → e.1 ≠ 4 → e.1 ≠ 5 → ∃ t, exec .tableEntryLoad s = .next t ∧
      look t.str.tabs e.1 = some e.2 ∧ t.str.tables = l ∧ sameWork s t ∧
      (l = [] → t.str.cmd = none ∧ t.strPhase = 7 ∧ t.getF F.STR_STATUS_RESULT = s.str.refused % 256)) ∧
    (e.1 = 3 → ∃ t, exec .tableEntryLoad s = .next t ∧ t.str.tables = l ∧
      t.mem = (Config.initialTrees e.2).foldl (fun m x => m.write ((Space.treeArea x.1).at (32 * x.2.1)) x.2.2) s.mem ∧ sameEngines s t ∧
      sameTenants s t) ∧
    (tableBad e.1 e.2 = false → e.1 = 4 ∨ e.1 = 5 → ∃ t, exec .tableEntryLoad s = .next t ∧ t.str.tabWait = true ∧ t.str.tables = e :: l ∧
      (s.dev.stream = true → e.1 = 4 → look t.str.tabs (4 + 256) = some e.2) ∧ (s.dev.stream = true → e.1 = 5 → t.pwr.nextTable = some e.2) ∧
      regsBut [] s t ∧ sameWork s t) ∧
    (tableBad e.1 e.2 = true ∨ s.profileBlocked e = true → ∃ t, exec .tableEntryLoad s = .next t ∧ t.str.tabs = s.str.tabs ∧
      t.str.tables = l ∧ sameWork s t ∧ (l = [] → s.str.refused = 0 → t.getF F.STR_STATUS_RESULT =
        if tableBad e.1 e.2 then StrResult.headerBad.code else StrResult.profileInUse.code)))

/-- Start-up of the stream (R32, R364, R366): the selected slot's image loads where it passes its checks, else the other slot's, else the device is
LIMITED with cause 1; and once the environment check has ended, after 10 s unanswered, the device is READY, or SHEDDING with a stage in force,
before the driver versions judged so far count (R330). -/
def Obligations.StreamStartUp : Prop :=
  (∀ (s : State) (sa sb : Bool) (accel : BitVec 8), s.dev.st = .boot → s.dev.firmware = true → s.dev.stream = false →
    let k := s.getF F.STR_BOOT_SLOT_SLOT
    let ok := fun k : Nat => s.slotValid k && s.slotCheck (s.slotImage k) (if k = 0 then sa else sb) == .ok
    ∃ t, exec (.streamLoad sa sb accel) s = .next t ∧
      if ok k || ok (1 - k) then t = (s.loadFull (s.slotImage (if ok k then k else 1 - k)) accel).strDone .ok ∧ t.dev.stream = true ∧
        t.getF F.STR_STATUS_RESULT = 0
      else t.dev = { s.dev with st := .limited, limitedCause := 1 } ∧ t.strPhase = 7 ∧ regsBut [R.STR_STATUS, R.DEV_STATE] s t ∧ sameWork s t) ∧
  (∀ s : State, s.dev.envWait = true → s.str.env ≠ [] → s.dev.st = .boot ∨ s.dev.st = .limited → ∃ u : State,
    exec .envCheckTimeout s = .next u.driverCheck ∧
    u.dev = { s.dev with st := if s.dev.shed = 0 then .ready else .shedding, limitedCause := 0, envWait := false } ∧
    (∀ e, s.since.find? (·.1 == .envCheck) = some e → e.2 + 10 ^ 10 ≤ u.up) ∧
    (∀ k < 16, s.backendStated k = true → s.getF (F.NVS_BE_STATE k) ≠ 2 → u.str.beOff.contains k = true) ∧ sameEngines s u ∧ sameTenants s u)


/-! ### Errors and lane groups (chapter 18) -/

/-- Error events (R273, R380 to R383, Table 02-8): every event counts in its class, shows there and is recorded, one in landing SRAM or HBM behind what it
counts for its place; an injected event of class 0 to 2 counts, shows and is recorded as such, and one of class 3 is ignored; setting EN takes mask,
port and vector and starts PROD and CONS at 0. -/
def Obligations.ErrorEventsRecorded : Prop :=
  (∀ (s : State) (code block slice status loc : Nat), s.dev.st.live = true → s.dev.st ≠ .fatal → eventCodes.contains code = true →
    ∃ u t : State, exec (.errorEvent code block slice status loc) s = .next t ∧ errorShown u t (codeClass code) block slice code status loc false ∧
      (code = 1 → u = s.bumpSat (F.DEV_SRAM_CE (loc / 2 ^ 56 % 4))) ∧ (code = 2 → u = s.frameCe loc) ∧ (code ≠ 1 → code ≠ 2 → u = s)) ∧
  (∀ (s w : State) (m : Master) (cls : Fin 4) (block : Fin 32) (slice : Fin 256), taken s w m R.ERR_INJECT → ∃ u : State,
    u.getF F.ERR_INJECT_CLASS = cls ∧ u.getF F.ERR_INJECT_BLOCK = block ∧ u.getF F.ERR_INJECT_SLICE = slice ∧ regsBut [R.ERR_INJECT] w u ∧
    u = { w with regs := u.regs } ∧
    (cls < 3 → ∃ t, exec (.errInject m cls block slice) s = .next t ∧ errorShown u t cls block slice (256 * cls + 0xFF) 0 0 true ∧
      sameDevice u t) ∧
    (cls = 3 → exec (.errInject m cls block slice) s = .next u)) ∧
  (∀ (s w : State) (m : Master) (mask : Fin 16) (p : Fin 4) (v : Fin 2048), taken s w m R.ERR_RING_CTRL →
    ∃ t, exec (.errRingEnable m mask p v) s = .next t ∧ t.getF F.ERR_RING_CTRL_EN = 1 ∧ t.getF F.ERR_RING_CTRL_CLASS_MASK = mask ∧
      t.getF F.ERR_RING_CTRL_PORT = p ∧ t.getF F.ERR_RING_CTRL_VECTOR = v ∧
      (w.getF F.ERR_RING_CTRL_EN = 0 → t.reg R.ERR_RING_PROD = 0 ∧ t.reg R.ERR_RING_CONS = 0) ∧
      (w.getF F.ERR_RING_CTRL_EN = 1 → t.reg R.ERR_RING_PROD = w.reg R.ERR_RING_PROD ∧ t.reg R.ERR_RING_CONS = w.reg R.ERR_RING_CONS) ∧
      regsBut [R.ERR_RING_CTRL, R.ERR_RING_PROD, R.ERR_RING_CONS] w t ∧ sameWork w t ∧ sameDevice w t)

/-- Memory errors and FATAL (R179, R187, R381, R382, R388): a fatal reason ends the device with its reason, item and block shown, domains PD18 to PD35
off and every operation gone; fatal locations do the same; a tree unit reads as a node that faults; HBM corrections count for their
frame; and a patrol pass counts its write-backs. -/
def Obligations.MemoryErrorsAndFatal : Prop :=
  (∀ (s : State) (reason item block : Nat), 1 ≤ reason → reason ≤ 11 → s.dev.st = .boot ∨ s.dev.st = .limited ∨ s.dev.st = .ready ∨
      s.dev.st = .shedding → ∃ t, exec (.fatalFault reason item block) s = .next t ∧ t.dev.st = .fatal ∧ t.dev.fatalReason = reason ∧
    t.getF F.ERR_FATAL_REASON = item % 256 * 256 + reason ∧ t.getF F.ERR_FATAL_BLOCK = block % 256 ∧
    t.reg R.PWR_DOM_ON_LO = s.reg R.PWR_DOM_ON_LO % 2 ^ 18 ∧ t.getF F.PWR_DOM_ON_HI_ON = 0 ∧ t.getF F.ERR_STATUS_FATAL = 1 ∧ t.ops = [] ∧
    t.rings = [] ∧ t.slices = [] ∧ t.flights = [] ∧ t.held = []) ∧
  (∀ (s : State) (b c p : Nat), s.dev.st = .ready ∨ s.dev.st = .shedding → ∀ l r, (l, r) ∈ [(UeLoc.sram b, 1), (.gallery c, 2),
      (.cachedContext p, 3), (.sharedCache, 4)] → ∃ u t : State, exec (.dataUncorrectable l) s = .next t ∧ t = u.resumed s ∧ u.dev.st = .fatal ∧
    u.dev.fatalReason = r) ∧
  (∀ (s : State) (n : Nat), s.dev.st.live = true → ∃ t, exec (.dataUncorrectable (.treeArea n)) s = .next t ∧
    errorShown { s with mem := s.mem.write ((Space.treeArea 1).at (32 * n)) badUnit } t 1 12 0xFFFF 0x105 0 n false) ∧
  (∀ (s : State) (f : Nat), s.dev.st.live = true → s.dev.st ≠ .fatal → ∃ t, exec (.hbmCorrectableError f) s = .next t ∧
    errorShown (s.frameCe f) t 0 17 0xFFFF 0x002 0 f false) ∧
  (∀ (s : State) (l : List Nat), s.answers 17 = true → ∃ u t : State, exec (.patrolPass l) s = .next t ∧ t = u.bufferedApply 17 0 ∧
    u.getF F.HBM_STATUS_PATROL_DONE = 1 ∧
    (l = [] → u.getF F.HBM_CNT_PATROL = (s.getF F.HBM_CNT_PATROL + 1) % 2 ^ (F.HBM_CNT_PATROL.hi + 1 - F.HBM_CNT_PATROL.lo) ∧
      regsBut [R.HBM_CNT_PATROL, R.HBM_CNT_WRITEBACK, R.HBM_STATUS] s u ∧ sameWork s u ∧ sameDevice s u))

/-- Lane groups (R17, R366, R386, R387, R391): a lost lane leaves WORKING, is counted and reported, and a group below its minimum is disabled; a
retrain starts unless one runs or stage 4 of a shed forbids it, and ends with the lanes it found working, the group up unless they are too few or a
mismatch keeps it disabled; and a group that trains at start-up with
all its lanes is up. -/
def Obligations.LaneGroups : Prop :=
  (∀ (s : State) (l : Fin 32), s.getF (F.ETH_LANE_UP l) = 1 → bitAt (s.groupWorking (l / 8)) (l % 8) = true →
    let g := l.val / 8
    let m := s.groupWorking g - 2 ^ (l.val % 8)
    ∃ t, exec (.laneLost l) s = .next t ∧ t.groupWorking g = m ∧ t.getF (F.ETH_LANE_UP l) = 0 ∧
      t.getF F.ETH_CNT_LANE_LOST = (s.getF F.ETH_CNT_LANE_LOST + 1) % 2 ^ 32 ∧ t.getF F.ETH_STATUS_LANE_LOST = 1 ∧
      (s.getF (F.ETH_GROUP_STATE_STATE g) = 2 → lanes m < s.groupMin g → t.getF (F.ETH_GROUP_STATE_STATE g) = 3 ∧
        t.getF (F.ETH_GROUP_STATE_PORT_LANES g) = 0 ∧ t.getF F.ETH_STATUS_GROUP_DISABLED = 1) ∧
      (s.groupMin g ≤ lanes m → t.getF (F.ETH_GROUP_STATE_STATE g) = s.getF (F.ETH_GROUP_STATE_STATE g)) ∧ sameEngines s t ∧ sameTenants s t) ∧
  (∀ (s w : State) (m : Master) (g : Fin 4), taken s w m R.ETH_RETRAIN → w.getF F.ETH_RETRAIN_STATUS_ACTIVE = 0 → w.shedAt 4 = false →
    ∃ t, exec (.ethRetrain m g) s = .next t ∧ t.getF F.ETH_RETRAIN_STATUS_ACTIVE = 1 ∧ t.getF F.ETH_RETRAIN_STATUS_GROUP = g ∧
      t.getF (F.ETH_GROUP_STATE_STATE g) = 1 ∧ t.getF (F.ETH_GROUP_STATE_PORT_LANES g) = 0 ∧ sameWork w t ∧ sameDevice w t) ∧
  (∀ (s w : State) (m : Master) (g : Fin 4), taken s w m R.ETH_RETRAIN → w.getF F.ETH_RETRAIN_STATUS_ACTIVE = 1 ∨ w.shedAt 4 = true →
    ∃ t, exec (.ethRetrain m g) s = .next t ∧
      t.getF F.ETH_RETRAIN_STATUS_RESULT = (if w.getF F.ETH_RETRAIN_STATUS_ACTIVE = 1 then 1 else 3) ∧
      regsBut [R.ETH_RETRAIN_STATUS, R.ETH_RETRAIN] w t ∧
      sameWork w t ∧ sameDevice w t) ∧
  (∀ (s : State) (found : BitVec 8), s.getF F.ETH_RETRAIN_STATUS_ACTIVE = 1 →
    let g := s.getF F.ETH_RETRAIN_STATUS_GROUP
    let m := found.toNat &&& s.getF (F.ETH_GROUP_CFG_LANE_EN g)
    ∃ t, exec (.ethRetrainDone found) s = .next t ∧ t.getF F.ETH_RETRAIN_STATUS_ACTIVE = 0 ∧ t.groupWorking g = m ∧
      t.getF (F.ETH_GROUP_STATE_STATE g) = (if lanes m < s.groupMin g ∨ s.str.groupOff.contains g = true then 3 else 2) ∧
      t.getF F.ETH_RETRAIN_STATUS_RESULT = (if lanes m < s.groupMin g then 2 else 0) ∧ t.getF F.ETH_STATUS_RETRAIN_DONE = 1 ∧ sameWork s t ∧
      sameDevice s t) ∧
  (∀ (s : State) (g : Fin 4) (found : BitVec 8), s.dev.stream = true → s.groupEnabled g = true → s.getF (F.ETH_GROUP_STATE_STATE g) < 2 →
    ∃ t, exec (.laneGroupUp g found) s = .next t ∧ t.groupWorking g = found.toNat ∧
      t.getF (F.ETH_GROUP_STATE_STATE g) = (if lanes found.toNat < 8 then 3 else 2) ∧ sameEngines s t ∧ sameTenants s t)

/-! ### The host endpoint (chapter 12) -/

/-- Links (R275, R291, R296 to R298, R371, R372): a trained link shows its width, rate and Flit mode; a link that is lost, reset by Hot Reset, by
PERST# or by a lost REFCLK shows it, its event or its port's reset values, before an STR command of the port that ended lets its hall go on;
PERST# released trains the port; and idle links enter L0p and L1. -/
def Obligations.LinkStates : Prop :=
  (∀ (s : State) (p : Fin 4) (h : Fin 2) (width rate : Nat) (flit : Bool) (accel : BitVec 8), s.getF (linkStateF p h) = 1 → width < 64 →
    rate < 16 → ∃ u t : State, exec (.linkTrained p h width rate flit accel) s = .next t ∧ u.getF (linkStateF p h) = 2 ∧
      u.getF (linkWidthF p h) = width ∧ u.getF (linkRateF p h) = rate ∧ u.getF (linkFlitF p h) = b2n flit ∧ u.getF (linkLpmF p h) = 0 ∧
      u.getF F.HST_STATUS_LINK = 1 ∧ regsBut [R.HST_LINK p, R.HST_FUNC p, R.HST_STATUS] s u ∧ sameWork s u ∧ sameDevice s u ∧
      (s.dev.stream = false → t = u) ∧
      (u.link (2 * p + h)).fresh = false ∧
      (s.dev.stream = true → t = ((u.linkTried p h (s.link (2 * p + h)).fresh).portsClear).accelCheck accel fun a => u.accelPort a == p.val &&
        u.accelHalf a == h.val && ((s.link (2 * p + h)).fresh || !u.str.accelOff.contains a))) ∧
  (∀ (s : State) (p : Fin 4) (h : Fin 2) (tags : List (Func × Nat)), s.getF (linkStateF p h) ≠ 0 → ∃ u v t : State,
    exec (.linkLost p h tags) s = .next t ∧ t = v.resumed s ∧ v = u.report 0x203 4 0xFFFF 0 (p.val * 256 + h.val) ∧
    u.getF F.HST_STATUS_LINK = 1 ∧
    (h = 1 → s.slicesOn p h = [] → tags = [] → v.getF (linkStateF p h) = 0 ∧ v.getF (linkWidthF p h) = 0 ∧ v.getF (linkRateF p h) = 0 ∧
      v.getF (linkLpmF p h) = 3 ∧ (v.link (2 * p + h)).invals = [] ∧ v.getF (Func.pf1 p h).bmeF = 0 ∧ sameEngines s v ∧ sameTenants s v)) ∧
  (∀ (s : State) (p : Fin 4) (h : Fin 2), s.getF (linkStateF p h) = 2 ∨ s.getF (linkStateF p h) = 3 → ∃ u t : State,
    exec (.hotReset p h) s = .next t ∧ t = u.resumed s ∧ u.getF (linkStateF p h) = 1 ∧ u.getF (linkWidthF p h) = 0 ∧
    u.getF (linkRateF p h) = 0 ∧ u.getF F.HST_STATUS_LINK = 1) ∧
  (∀ (s : State) (p : Fin 4), (s.link (2 * p)).perst = false → ∃ u t : State, exec (.perstAssert p) s = .next t ∧ t = u.resumed s ∧
    (u.link (2 * p)).perst = true ∧ u.reg (R.HST_LINK p) = resetOf (R.HST_LINK p) ∧ u.reg (R.HST_FUNC p) = resetOf (R.HST_FUNC p) ∧
    (u.link (2 * p)).invals = [] ∧ (u.link (2 * p)).quarantined = []) ∧
  (∀ (s : State) (p : Fin 4), (s.link (2 * p)).perst = false → ∃ u t : State, exec (.refclkLoss p) s = .next t ∧ t = u.resumed s ∧
    (u.link (2 * p)).refclk = false) ∧
  (∀ (s : State) (p : Fin 4), (s.link (2 * p)).perst = true → ∃ t, exec (.perstDeassert p) s = .next t ∧ (t.link (2 * p)).perst = false ∧
    (t.link (2 * p)).refclk = true ∧ (s.mio.modPwrgd = true → s.mio.portHold = false → s.getF (linkStateF p 0) = 0 →
      t.getF (linkStateF p 0) = 1) ∧ regsBut [R.HST_LINK p] s t ∧ sameWork s t ∧ sameDevice s t) ∧
  (∀ (s : State) (p : Fin 4) (h : Fin 2),
    let u := s.bufferedApply 4 0
    u.linkUp p h = true → (u.getF (linkLpmF p h) = 0 → (u.fn (linkFn0 p h)).l0pEnable = true → u.getF (F.HST_LPM_L0P_IDLE_US p) ≠ 0 →
      exec (.l0pIdleExpiry p h) s = .next (u.setF (linkLpmF p h) 1)) ∧
    (u.getF (linkLpmF p h) < 2 → (u.fn (linkFn0 p h)).l1Enable = true → u.getF (F.HST_LPM_L1_IDLE_US p) ≠ 0 →
      (u.getF (F.HST_LPM_FLIGHT_HOLD p) = 0 ∨ ∀ e ∈ u.flights, e.2.active = true → (u.slice e.2.slice).link ≠ 2 * p + h) → exec (.l1IdleExpiry p h) s = .next (u.setF (linkLpmF p h) 2)))

/-- Functions (R284, R291, R294, R295): an FLR quiets its function, resets its configuration and begins its effects, and ends with FLR cleared and shown; Bus
Master Enable and D3hot stop a function's requests, and Bus Master Enable and D0 let them go on. -/
def Obligations.FunctionStates : Prop :=
  (∀ (s : State) (p : Fin 4), s.hallPaused 0 = false → s.linkUp p 0 = true → s.getF (Func.pf0 p).flrF = 0 → ∃ u t : State,
    exec (.pf0Flr p) s = .next t ∧ t = (u.pf0Effects p).resumed s ∧ u.getF (Func.pf0 p).flrF = 1 ∧ u.getF (Func.pf0 p).bmeF = 0 ∧
    u.getF (Func.pf0 p).ctoF = 0 ∧ u.fn (.pf0 p) = FnCfg.reset ∧ sameWork s u ∧ sameDevice s u) ∧
  (∀ (s : State) (p : Fin 4) (h : Fin 2), s.hallPaused 0 = false → s.linkUp p h = true → s.getF (Func.pf1 p h).flrF = 0 → ∃ u t : State,
    exec (.pf1Flr p h) s = .next t ∧
    t = (List.range 256).foldl (fun v i => if (v.slice i).port == p.val then v.resetSlice i else v) u ∧ u.getF (Func.pf1 p h).flrF = 1 ∧
    u.getF (Func.pf1 p h).bmeF = 0 ∧ u.fn (.pf1 p h) = FnCfg.reset ∧ sameWork s u ∧ sameDevice s u) ∧
  (∀ (s : State) (f : Func) (late : List Nat), s.getF f.flrF = 1 → ∃ t, exec (.flrDone f late) s = .next t ∧ t.getF f.flrF = 0 ∧
    t.getF F.HST_STATUS_FLR = 1 ∧ (∀ g ∈ late, (look (t.link f.link).quarantined g).isSome = true) ∧ sameWork s t ∧ sameDevice s t) ∧
  (∀ (s : State) (f : Func) (ats l0p l1 : Bool) (enc : BitVec 4), s.hallPaused 0 = false → s.linkUp f.port f.half = true → s.getF f.flrF = 0 →
    ∃ u t : State, exec (.busMasterEnable f ats enc l0p l1) s = .next t ∧ t = u.dmaOn f ∧ u.getF f.bmeF = 1 ∧ u.getF f.ctoF = enc.toNat ∧
      (∀ a, f.atsF = some a → u.getF a = b2n ats) ∧ u.fn f = { s.fn f with l0pEnable := l0p, l1Enable := l1 } ∧
      regsBut [R.HST_FUNC f.port, R.HST_CTO f.port] s u ∧ sameWork s u ∧ sameDevice s u) ∧
  (∀ (s : State) (f : Func) (late : Nat), s.hallPaused 0 = false → s.linkUp f.port f.half = true → s.getF f.flrF = 0 → ∃ u t : State,
    exec (.busMasterDisable f late) s = .next t ∧ t = (u.dmaOff f).resumed s ∧ u.getF f.bmeF = 0 ∧
    u.getF (F.HST_CNT_DISCARD_COUNT f.port) = (s.getF (F.HST_CNT_DISCARD_COUNT f.port) + late) % 2 ^ 32 ∧
    regsBut [R.HST_FUNC f.port, R.HST_CNT_DISCARD f.port] s u ∧ sameWork s u ∧ sameDevice s u) ∧
  (∀ (s : State) (f : Func), s.hallPaused 0 = false → s.linkUp f.port f.half = true → s.getF f.flrF = 0 → ∃ u v t : State,
    exec (.d3hotEntry f) s = .next t ∧ u = s.setFn f { s.fn f with d3hot := true } ∧ (u.fn f).d3hot = true ∧ u.canDma f = false ∧
    (v = u.dmaOff f ∨ v = (u.dmaOff f).setF (linkLpmF f.port4 f.half2) 2) ∧ t = v.resumed s) ∧
  (∀ (s : State) (f : Func), s.hallPaused 0 = false → s.linkUp f.port f.half = true → s.getF f.flrF = 0 → (s.fn f).d3hot = true →
    ∃ u t : State, exec (.d0Return f) s = .next t ∧ t = u.dmaOn f ∧ u.fn f = { s.fn f with d3hot := false } ∧
      regsBut [R.HST_LINK f.port] s u ∧ sameWork s u ∧ sameDevice s u)

/-- Requests and their failures (R289, R290, R292, R293, Table 12-6): a completion timeout and an unexpected completion are counted, shown and reported, and the tag
of the first is quarantined until its time; failed accesses have the outcome of their row; and ATS invalidations are kept, at most 32 of
them on a link, until they complete. -/
def Obligations.RequestsAndFailures : Prop :=
  (∀ (s : State) (f : Func) (tag : Nat) (a : HostAccess) (addr : DWord), s.linkUp f.port f.half = true → ∃ u t : State,
    exec (.completionTimeout f tag a addr) s = .next t ∧ t = u.accessFail a addr.toNat ∧
    u.getF (F.HST_CNT_CTO_COUNT f.port) = (s.getF (F.HST_CNT_CTO_COUNT f.port) + 1) % 2 ^ 32 ∧ u.getF F.HST_STATUS_CTO = 1 ∧
    look (u.link f.link).quarantined tag = some (s.up + 2 * ctoNs (s.getF f.ctoF)) ∧ u.outbox = .aerPcie f 1 :: s.outbox ∧ sameWork s u ∧
    sameDevice s u) ∧
  (∀ (s : State) (f : Func) (tag : Nat), ∃ t, exec (.unexpectedCompletion f tag) s = .next t ∧
    t.getF (F.HST_CNT_UNEXP_COUNT f.port) = (s.getF (F.HST_CNT_UNEXP_COUNT f.port) + 1) % 2 ^ 32 ∧ t.getF F.HST_STATUS_UNEXP = 1 ∧
    t.outbox = .aerPcie f 2 :: s.outbox ∧ regsBut [R.HST_CNT_UNEXP f.port, R.HST_STATUS] s t ∧ sameWork s t ∧ sameDevice s t) ∧
  (∀ (s : State) (p : Fin 4) (h : Fin 2) (tag at' : Nat), look (s.link (2 * p + h)).quarantined tag = some at' →
    ∃ t, exec (.tagQuarantineExpiry p h tag) s = .next t ∧ look (t.link (2 * p + h)).quarantined tag = none ∧ t.up = max s.up at' ∧
      regsBut [] s t ∧ sameWork s t) ∧
  (∀ (s : State) (addr : DWord), ∃ t, exec (.hostAccessFail .errRecord addr) s = .next t ∧ t.errFail = s.errFail + 1 ∧
    t.getF F.HST_STATUS_ACCESS_FAULT = 1 ∧ regsBut [R.HST_STATUS] s t ∧ sameWork s t ∧ sameDevice s t) ∧
  (∀ (s : State) (addr : DWord), s.str.cmd ≠ none → s.strPhase = 1 → ∃ t, exec (.hostAccessFail .strImage addr) s = .next t ∧
    t.str.cmd = none ∧ t.getF F.STR_STATUS_RESULT = StrResult.fetchFault.code ∧ t.getF F.HST_STATUS_ACCESS_FAULT = 1 ∧ sameEngines s t ∧
    sameTenants s t) ∧
  (∀ (s : State) (i : Nat) (addr : DWord), (s.slice i).state = .active → ∃ u t : State, exec (.hostAccessFail (.slice i) addr) s = .next t ∧
    t = u.faultSlice i .ringAccess ∧ u = s.hostFault i 0 addr.toNat ∧ u.getF F.HST_STATUS_ACCESS_FAULT = 1) ∧
  (∀ (s : State) (f : Func) (req : Nat), s.hallPaused 0 = false → s.linkUp f.port f.half = true → s.getF f.flrF = 0 →
    (s.link f.link).invals.contains (f, req) = false → (s.link f.link).invals.length < 32 → ∃ t,
    exec (.invalidateRequest f req) s = .next t ∧ (t.link f.link).invals = (s.link f.link).invals ++ [(f, req)] ∧
    regsBut [R.HST_ATS f.port] s t ∧ sameWork s t ∧ sameDevice s t) ∧
  (∀ (s : State) (f : Func) (req : Nat), s.hallPaused 0 = false → (s.link f.link).invals.contains (f, req) = true → ∃ t,
    exec (.invalidateComplete f req) s = .next t ∧ (t.link f.link).invals = (s.link f.link).invals.erase (f, req) ∧
    t.getF (F.HST_CNT_INVAL_COUNT f.port) = (s.getF (F.HST_CNT_INVAL_COUNT f.port) + 1) % 2 ^ 32 ∧
    t.outbox = .invalDone f.port req :: s.outbox ∧ regsBut [R.HST_ATS f.port, R.HST_CNT_INVAL f.port] s t ∧ sameWork s t ∧ sameDevice s t)

/-- Interrupts (R284 to R287): the method of PF0 follows its configuration; an unmasked vector or message entry that is pending sends its
message and stops being pending; and an acknowledged INTx vector is no longer pending. -/
def Obligations.InterruptDelivery : Prop :=
  (∀ (s : State) (p : Fin 4) (en dis mask : Bool), s.hallPaused 0 = false → s.linkUp p 0 = true → s.getF (Func.pf0 p).flrF = 0 → ∃ t,
    exec (.interruptMethodChange p en dis mask) s = .next t ∧
    t.fn (.pf0 p) = { s.fn (.pf0 p) with msixEnable := en, intDisable := dis, funcMask := mask } ∧
    t.getF (F.HST_FUNC_PF0_IRQ p) = (if en then 2 else if dis then 0 else 1) ∧ regsBut [R.HST_FUNC p] s t ∧ sameWork s t ∧ sameDevice s t) ∧
  (∀ (s : State) (p : Fin 4) (v : Fin 2048) (addr : DWord) (data : Word) (mask : Bool), s.hallPaused 0 = false → s.linkUp p 0 = true →
    (s.fn (.pf0 p)).d3hot = false →
    let send := (s.vec p v).pending && (s.vec p v).mask && !mask && s.irqMethod p == .msix && !(s.fn (.pf0 p)).funcMask && s.canDma (.pf0 p)
    ∃ t, exec (.msixUnmask p v addr data mask) s = .next t ∧
      t.vec p v = ⟨addr.toNat, data.toNat, mask, (s.vec p v).pending && !send⟩ ∧
      t.outbox = (if send then [Out.msix p v addr.toNat data.toNat] else []) ++ s.outbox ∧ regsBut [R.HST_LINK p] s t ∧ sameWork s t ∧
      sameDevice s t) ∧
  (∀ (s : State) (i : Fin 256) (e : Fin 64) (addr : DWord) (data : Word) (mask : Bool),
    s.pageAnswers (s.slice i).port (s.slice i).half i = true → s.hallPaused 0 = false → s.hallPaused 1 = false → ∃ t,
    exec (.sliceMessageUnmask i e addr data mask) s = .next t ∧
    (mask = true → look t.msgs (64 * i + e) = some ⟨addr.toNat, data.toNat, true, (lookD s.msgs (64 * i + e) MsgEntry.masked).pending⟩) ∧
    t.rings = s.rings ∧ t.ops = s.ops ∧ t.slices = s.slices ∧ sameBytes s t ∧ sameEngines s t ∧ sameDevice s t) ∧
  (∀ (s w : State) (m : Master) (p : Fin 4) (v : Fin 2048), s.writeAt m R.HST_INTX_ACK = some w → ∃ t, exec (.hstIntxAck m p v) s = .next t ∧
    (t.vec p v).pending = false ∧ (t.intx.contains p.val = true → s.irqMethod p = .intx ∧ t.pendingVecs p ≠ []) ∧ regsBut [] w t ∧
    sameWork w t ∧ sameDevice w t)
/-! ### Slices, Locket and rings (chapter 13) -/

/-- SLC_CMD while it cannot act (R274, R322, R329): a GO while a command runs is ignored and counted, whatever its opcode; and while no core serves MGMT
a GO waits for it with CMD_ACTIVE set. -/
def Obligations.SlcBusyIgnored : Prop :=
  ∀ (s w : State) (m : Master) (r1 r2 : Bool) (c : Capsule), taken s w m R.SLC_CMD →
    ∀ i ∈ [Instr.readEntry m, .writeEntry m, .bind m, .unbind m, .sliceReset m, .freeze m, .thaw m, .save m, .restore m r1 r2 c, .ringRead m,
      .ringBind m, .ringUnbind m],
    (w.getF F.SLC_STATUS_CMD_ACTIVE = 1 → ∃ t, exec i s = .next t ∧ t.getF F.SLC_CNT_BUSY = (w.getF F.SLC_CNT_BUSY + 1) % 2 ^ 32 ∧
      regsBut [R.SLC_CNT_BUSY] w t ∧ sameWork w t ∧ sameDevice w t) ∧
    (w.getF F.SLC_STATUS_CMD_ACTIVE = 0 → w.coreServes 0 0 = false → ∃ t, exec i s = .next t ∧ t.getF F.SLC_STATUS_CMD_ACTIVE = 1 ∧
      t.mgmt = w.mgmt ++ [i] ∧ t.slcCmd = w.slcCmd ∧ regsBut [R.SLC_STATUS, R.SLC_CMD] w t ∧ sameWork w t ∧ sameDevice w t)

/-- Slice entries (R301 to R304, R310, Tables 13-1, 13-2): READ_ENTRY shows an entry, WRITE_ENTRY takes one that obeys Table 13-1, BIND takes a FREE slice to BOUND,
UNBIND and RESET end its work with every effect of Table 13-5 and leave it FREE and BOUND, at once or when the effects are complete; and a
BOUND slice that meets R304 becomes ACTIVE. The order of WRITE_ENTRY's checks is log entry 23's. -/
def Obligations.SliceEntryCommands : Prop :=
  (∀ (s w : State) (m : Master), slcReady s w m → ∃ t, exec (.readEntry m) s = .next t ∧ slcOver t 0x1 w.slcSel stOk ∧
    t.words R.SLC_ENTRY 16 = (w.slice w.slcSel).cfg.toNat ∧
    t.words (fun k => R.SLC_ENTRY (16 + k)) 16 = leNat (w.entryRuntime w.slcSel) ∧ sameWork w t ∧ sameDevice w t) ∧
  (∀ (s w : State) (m : Master), slcReady s w m →
    let x := w.slice w.slcSel
    let y := { x with cfg := BitVec.ofNat 512 (w.words R.SLC_ENTRY 16) }
    ∃ t, exec (.writeEntry m) s = .next t ∧ slcOver t 0x2 w.slcSel (if entryOk y = false then stBindingInvalid else
        if x.state ≠ .free ∧ sameBinding x y = false then stSliceState else stOk) ∧
      (entryOk y = true → x.state = .free ∨ sameBinding x y = true → t.slice w.slcSel = y) ∧
      (entryOk y = false → t.slices = w.slices) ∧ sameBytes w t ∧ sameEngines w t ∧ t.rings = w.rings ∧ sameDevice w t) ∧
  (∀ (s w v : State) (m : Master), slcReady s w m → v = w.setF F.SLC_CMD_OP 0x3 → (w.slice w.slcSel).state = .free → v.bindOk w.slcSel = true →
    let r := (v.reserveT1 w.slcSel (w.slice w.slcSel).storePages).1
    ∃ t, exec (.bind m) s = .next t ∧ slcOver t 0x3 w.slcSel r ∧
      (r = stOk → t.slice w.slcSel = { w.slice w.slcSel with state := .bound, stateNewel := w.now }) ∧ (r ≠ stOk → t.slices = w.slices) ∧
      sameBytes w t ∧ sameDevice w t) ∧
  (∀ (s w : State) (m : Master), slcReady s w m → (w.slice w.slcSel).state = .bound → ∃ u t : State, exec (.unbind m) s = .next t ∧
    u = (w.setF F.SLC_CMD_OP 0x4).resetEffects w.slcSel false ∧
    (u.resetDone w.slcSel = true → slcOver t 0x4 w.slcSel stOk ∧ (t.slice w.slcSel).state = .free ∧ (t.slice w.slcSel).cfg = 0) ∧
    (u.resetDone w.slcSel = false → slcOn t ⟨0x4, w.slcSel, w.cmdPort m⟩)) ∧
  (∀ (s w : State) (m : Master), slcReady s w m → (w.slice w.slcSel).state ≠ .free → (w.slice w.slcSel).state ≠ .resetting → ∃ u t : State,
    exec (.sliceReset m) s = .next t ∧ (u.slice w.slcSel).state = .resetting ∧ u.now = w.now ∧
    t = ((u.resetEffects w.slcSel (w.slice w.slcSel).keepTier).slcEndIf 0x6 w.slcSel stCancelled).slcBegin ⟨0x5, w.slcSel, w.cmdPort m⟩ ∧
    slcOn t ⟨0x5, w.slcSel, w.cmdPort m⟩) ∧
  (∀ (s : State) (i : Fin 256) (p : Nat), s.resetDone i = true →
    (s.slcCmd = some ⟨0x5, i, p⟩ → (s.slice i).state = .resetting → ∃ t, exec (.sliceResetDone i) s = .next t ∧ slcOver t 0x5 i stOk ∧
      (t.slice i).state = .bound ∧ (t.slice i).cause = .none ∧ (t.slice i).saved = false ∧ (t.slice i).cfg = (s.slice i).cfg) ∧
    (s.slcCmd = some ⟨0x4, i, p⟩ → ∃ t, exec (.sliceResetDone i) s = .next t ∧ slcOver t 0x4 i stOk ∧ (t.slice i).state = .free ∧
      (t.slice i).cfg = 0)) ∧
  (∀ (s : State) (i : Fin 256), (s.slice i).state = .bound → s.mayActivate i = true → ∃ u t : State, exec (.sliceActivate i) s = .next t ∧
    t = u.wake i ∧ u.slice i = { s.slice i with state := .active, stateNewel := s.now } ∧ regsBut [] s u ∧ sameBytes s u ∧ sameEngines s u)

/-- Freeze and Locket (R304, R313, R315, R316): FREEZE starts on an ACTIVE slice, ends with FROZEN at the boundaries of every engine or with FREEZE_BUSY at its time;
THAW of a slice that was not saved runs it again; SAVE is refused without a host, a Locket key or a valid target key, and else writes a capsule or the
size that it needs and marks the slice SAVED; and RESTORE
posts the result of its checks, draws a new nonce, and leaves a slice that passed them FROZEN. The capsule's bytes are log entry 21's. -/
def Obligations.FreezeAndLocket : Prop :=
  (∀ (s w : State) (m : Master), slcReady s w m → (w.slice w.slcSel).state = .active → (w.slice w.slcSel).freezing = false →
    (w.persistentRunning w.slcSel = false → ∃ t, exec (.freeze m) s = .next t ∧ slcOn t ⟨0x6, w.slcSel, w.cmdPort m⟩ ∧
      t.slice w.slcSel = { w.slice w.slcSel with freezing := true } ∧ sameBytes w t ∧ sameDevice w t) ∧
    (w.persistentRunning w.slcSel = true → ∃ t, exec (.freeze m) s = .next t ∧ slcOver t 0x6 w.slcSel stFreezeBusy ∧ sameWork w t ∧
      sameDevice w t)) ∧
  (∀ (s : State) (i p : Nat), s.slcCmd = some ⟨0x6, i, p⟩ → i < 256 →
    (s.atBoundary i = true → ∃ t, exec .freezeBoundariesReached s = .next t ∧ slcOver t 0x6 i stOk ∧ (t.slice i).state = .frozen ∧
      (t.slice i).freezing = false ∧ (t.slice i).saved = false ∧ (t.slice i).stateNewel = s.now ∧ sameBytes s t ∧ sameEngines s t) ∧
    ∃ u t : State, exec .freezeWaitTimeout s = .next t ∧ slcOver t 0x6 i stFreezeBusy ∧
      u = (s.ripe .freeze (10 ^ 6 * (s.slice i).freezeWait)).setSlice i { s.slice i with freezing := false } ∧
      (u.slice i).freezing = false ∧ t = (u.wake i).slcEnd 0x6 i stFreezeBusy) ∧
  (∀ (s w : State) (m : Master), slcReady s w m → (w.slice w.slcSel).state = .frozen → ∃ u t : State, exec (.thaw m) s = .next t ∧
    u = (w.setF F.SLC_CMD_OP 0x7).flushAtThaw w.slcSel ∧
    ((w.slice w.slcSel).saved = true → slcOver t 0x7 w.slcSel stCapsuleSaved ∧ sameWork w t) ∧
    ((w.slice w.slcSel).saved = false → slcOver t 0x7 w.slcSel stOk ∧
      (u.mayActivate w.slcSel = true → t = ((u.moveSlice w.slcSel .active).wake w.slcSel).slcEnd 0x7 w.slcSel stOk) ∧
      (u.mayActivate w.slcSel = false → (t.slice w.slcSel).state = .bound))) ∧
  (∀ (s w v : State) (m : Master) (p : Fin 4), slcReady s w m → w.hallPaused 0 = false → v = w.setF F.SLC_CMD_OP 0x8 →
    (w.slice w.slcSel).state = .frozen → w.cmdPort m = p →
    let d := w.mem.read ((Space.pf0 p).at w.slcAddr) 32
    let target := w.mem.read ((Space.pf0 p).at (fieldAt d 24 8)) 112
    let refusal : Option Nat :=
      if w.canDma (.pf0 p) = false then some stHostLost
      else if w.sig.lkey = none then some stCapsuleAuth
      else if keyPoint target = false ∨ fieldAt target 97 7 ≠ 0 then some stCapsuleInvalid
      else if (w.slice w.slcSel).saved = true ∧ target ≠ (w.slice w.slcSel).target then some stCapsuleSaved else none
    (∀ r, refusal = some r → ∃ t, exec (.save m) s = .next t ∧ slcOver t 0x8 w.slcSel r ∧ sameWork w t) ∧
    (refusal = none →
    ((w.slice w.slcSel).saved = true → fieldAt d 8 8 < (w.slice w.slcSel).capsule.length →
      ∃ t, exec (.save m) s = .next t ∧ slcOver t 0x8 w.slcSel stCapsuleSpace ∧ t.slices = w.slices ∧
        t.mem = w.mem.write ((Space.pf0 p).at (w.slcAddr + 16)) (leBytes 8 (w.slice w.slcSel).capsule.length)) ∧
    ((w.slice w.slcSel).saved = true → (w.slice w.slcSel).capsule.length ≤ fieldAt d 8 8 →
      ∃ t, exec (.save m) s = .next t ∧ slcOver t 0x8 w.slcSel stOk ∧ (t.slice w.slcSel).saved = true ∧
        t.mem = (w.mem.write ((Space.pf0 p).at (w.slcAddr + 16)) (leBytes 8 (w.slice w.slcSel).capsule.length)).write
          ((Space.pf0 p).at (fieldAt d 0 8)) (w.slice w.slcSel).capsule) ∧
    ((w.slice w.slcSel).saved = false → ∃ (t : State) (cap : List Byte), exec (.save m) s = .next t ∧
      cap = v.capsuleOf w.slcSel target ∧
      (fieldAt d 8 8 < cap.length → slcOver t 0x8 w.slcSel stCapsuleSpace ∧ t.slices = w.slices) ∧
      (cap.length ≤ fieldAt d 8 8 → slcOver t 0x8 w.slcSel stOk ∧ (t.slice w.slcSel).saved = true ∧ (t.slice w.slcSel).target = target ∧
        (t.slice w.slcSel).capsule = cap)))) ∧
  (∀ (s w : State) (m : Master) (auth reach : Bool) (c : Capsule), slcReady s w m → w.hallPaused 0 = false →
    let r := (w.setF F.SLC_CMD_OP 0x9).restoreCheck (w.cmdPort m) w.slcSel auth reach c
    ∃ t, exec (.restore m auth reach c) s = .next t ∧ slcOver t 0x9 w.slcSel r ∧ t.draws = (t.slice w.slcSel).nonceDraw + 1 ∧
      (r = stOk → (t.slice w.slcSel).state = .frozen ∧ (t.slice w.slcSel).saved = false ∧ (t.slice w.slcSel).stateNewel = w.now) ∧
      (r ≠ stOk → t.slice w.slcSel = { w.slice w.slcSel with nonceDraw := w.draws } ∧ t.draws = w.draws + 1 ∧ sameBytes w t ∧
        sameEngines w t ∧ t.rings = w.rings ∧ t.ops = w.ops))

/-- Rings and the slice page (R306 to R309): RING_READ shows a context; RING_BIND posts its check and binds an empty ring; RING_UNBIND takes one that is not in use from
its owner; a DOORBELL that names a ring of the slice and moves its index by 1 to its entries takes effect, and any other is ignored and counted;
a cancel shows its tag and result with CANCEL_SEQ advanced; and 1 s of a full completion ring faults an ACTIVE slice. -/
def Obligations.RingsAndPages : Prop :=
  (∀ (s w : State) (m : Master), slcReady s w m → ∃ t, exec (.ringRead m) s = .next t ∧ slcOver t 0xA w.slcSel stOk ∧
    t.words R.SLC_RING 16 = leNat (w.ringBytes w.slcRing) ∧ sameWork w t ∧ sameDevice w t) ∧
  (∀ (s w : State) (m : Master), slcReady s w m →
    let r : Ring := ⟨BitVec.ofNat 256 (w.words R.SLC_RING 8), 0, 0, 0, 1, 0⟩
    let st := w.ringBindResult w.slcRing r
    ∃ t, exec (.ringBind m) s = .next t ∧ slcOver t 0xB w.slcSel st ∧ (st = stOk → t.ring w.slcRing = some r) ∧
      (st ≠ stOk → t.rings = w.rings) ∧ (∀ q, q ≠ w.slcRing → t.ring q = w.ring q) ∧ sameBytes w t ∧ sameEngines w t ∧ t.slices = w.slices ∧
      t.ops = w.ops ∧ sameDevice w t) ∧
  (∀ (s w : State) (m : Master), slcReady s w m →
    (w.ring w.slcRing = none → ∃ t, exec (.ringUnbind m) s = .next t ∧ slcOver t 0xC w.slcSel stOk ∧ sameWork w t ∧ sameDevice w t) ∧
    (w.ring w.slcRing ≠ none → w.ringNamed w.slcRing = true ∨
      (w.rings.any fun e => e.1 != w.slcRing && 4 ≤ e.2.kind && e.2.kind ≤ 9 && e.2.cq == w.slcRing) = true → ∃ t, exec (.ringUnbind m) s = .next t ∧ slcOver t 0xC w.slcSel stRingInUse ∧
      sameWork w t ∧ sameDevice w t) ∧
    (w.ring w.slcRing ≠ none → w.ringNamed w.slcRing = false →
      (w.rings.any fun e => e.1 != w.slcRing && 4 ≤ e.2.kind && e.2.kind ≤ 9 && e.2.cq == w.slcRing) = false → ∃ (u t : State) (n : Nat),
      exec (.ringUnbind m) s = .next t ∧ slcOver t 0xC w.slcSel stOk ∧ u.ring w.slcRing = none ∧ (∀ o ∈ u.ops, o.ring ≠ w.slcRing) ∧
      t = (State.dropTarget w.slcRing n u).slcEnd 0xC w.slcSel stOk)) ∧
  (∀ (s : State) (p : Fin 4) (h : Fin 2) (i : Fin 256) (q idx : BitVec 16) (stores : List (DWord × Byte)), s.pageAnswers p h i = true →
    s.hallPaused 0 = false → s.hallPaused 1 = false →
    let v := (s.hostStores (s.slice i).space stores).wakeLink p h
    let n := v.reg R.SLC_CNT_DOORBELL_LO + 2 ^ 32 * v.reg R.SLC_CNT_DOORBELL_HI + 1
    ∃ u t : State, exec (.doorbell p h i q idx stores) s = .next t ∧ u.reg R.SLC_CNT_DOORBELL_LO = n % 2 ^ 32 ∧
      u.reg R.SLC_CNT_DOORBELL_HI = n / 2 ^ 32 % 2 ^ 32 ∧ regsBut [R.SLC_CNT_DOORBELL_LO, R.SLC_CNT_DOORBELL_HI] v u ∧ sameWork v u ∧
      (v.ring q.toNat = none → t = u.dbReject i) ∧
      (∀ r : Ring, v.ring q.toNat = some r →
        let step := (idx.toNat + 65536 - (if r.kind = 3 then r.ci else r.pi)) % 65536
        (r.owner ≠ i ∨ step = 0 ∨ r.entries < step → t = u.dbReject i) ∧
        (r.owner = i → 0 < step → step ≤ r.entries → r.kind ≠ 3 → t = u.setRing q.toNat { r with pi := idx.toNat }) ∧
        (r.owner = i → 0 < step → step ≤ r.entries → r.kind = 3 → t = (u.setRing q.toNat { r with ci := idx.toNat }).drainCq q.toNat))) ∧
  (∀ (s : State) (p : Fin 4) (h : Fin 2) (i : Fin 256) (tag : Word) (eng : Byte), s.pageAnswers p h i = true → s.hallPaused 0 = false →
    s.hallPaused 1 = false →
    let v := s.wakeLink p h
    ∃ (u t : State) (r : CancelResult), exec (.sliceCancel p h i tag eng) s = .next t ∧
      (r, u) = (if eng ∈ [4, 5, 6, 8, 11] then v.sliceCancelEngine i eng.toNat tag.toNat else (.notFound, v)) ∧
      t.slice i = { u.slice i with cancelTag := tag.toNat, cancelResult := r.code, cancelSeq := ((u.slice i).cancelSeq + 1) % 256 } ∧
      t = { u with slices := t.slices }) ∧
  (∀ (s : State) (q : BitVec 16) (r : Ring), s.ring q.toNat = some r → s.waiting q.toNat ≠ [] → r.cqFull = true → r.isPf0 = false →
    (s.slice r.owner).state = .active → exec (.completionRingFullTimeout q) s = .next ((s.ripe (.ring q.toNat) (10 ^ 9)).faultSlice r.owner .cqFull))
/-! ### Rings' operations (R80, R307, R308, R309) -/

/-- Fetching (R80, R308, R313): a bound ring of the kind fetches when work is ahead of its index, its owner takes work, its function may issue
requests, its core runs and neither H0 nor H1 is paused; the descriptor becomes the newest operation of its ring, with a number of its own, the
ring's owner and the tag; the fetch index moves by 1; and nothing else changes but the power state of the owner's link. -/
def Obligations.FetchTakesNextDescriptor : Prop :=
  (∀ (s : State) (q kind tag : Nat) (d : Desc) (r : Ring), s.ring q = some r → r.kind = kind → r.st = 1 → r.pi ≠ r.fi →
    s.canDma (s.ownerFn r.owner) = true → (r.isPf0 = false → (s.slice r.owner).takesWork = true) →
    (∀ v, kindService kind = some v → s.coreServes v q = true) → s.hallPaused 0 = false → s.hallPaused 1 = false →
    ∃ o u, s.fetch q kind tag d = some (o, u)) ∧
  (∀ (s u : State) (q kind tag : Nat) (d : Desc) (o : Op), s.fetch q kind tag d = some (o, u) → ∃ r : Ring, s.ring q = some r ∧ r.kind = kind ∧
    r.st = 1 ∧ r.pi ≠ r.fi ∧ s.canDma (s.ownerFn r.owner) = true ∧ (r.isPf0 = false → (s.slice r.owner).takesWork = true) ∧
    s.hallPaused 0 = false ∧ s.hallPaused 1 = false ∧
    u.ring q = some { r with fi := (r.fi + 1) % 65536 } ∧ u.ops = s.ops ++ [o] ∧ u.opNext = s.opNext + 1 ∧ o.id = s.opNext ∧ o.ring = q ∧
    o.owner = r.owner ∧ o.tag = tag ∧ o.desc = d ∧ o.done = none ∧ o.committed = false ∧ (∀ k, k ≠ q → u.ring k = s.ring k) ∧
    regsBut [R.HST_LINK (s.ownerFn r.owner).port] s u ∧ sameBytes s u ∧ sameEngines s u ∧ sameDevice s u ∧ u.slices = s.slices ∧
    u.cqWait = s.cqWait ∧ u.clasps = s.clasps)

/-- Completion records (R9, R80, R307, R309, Table 00-8): an operation that ends first in its ring leaves the list and hands its record of 32 bytes to
its completion ring, and one that ends behind others keeps it. A record stands in the ring's next entry where the ring takes it, whose index, counter
and counter copy move by 1; a full or stopped PF0 ring loses it, and another ring keeps it waiting. -/
def Obligations.CompletionRecordPosted : Prop :=
  (∀ (s : State) (o p : Op) (st res eng : Nat), s.op o.id = some o → s.ops.find? (·.ring == o.ring) = some p →
    let x := s.recOf o st res eng
    (p.id ≠ o.id → p.done = none → s.finish o.id st res eng =
      State.claspSettle s.clasps.length (s.setOp { o with done := some x, committed := true })) ∧
    (p = o → (∀ n, (s.dropOp o.id).ops.find? (·.ring == o.ring) = some n → n.done = none) →
      s.finish o.id st res eng = State.claspSettle s.clasps.length ((s.dropOp o.id).postRaw o.cq x))) ∧
  (∀ (s : State) (q : Nat) (r : Ring) (x : Rec), s.ring q = some r → s.waiting q = [] →
    let t := s.postRaw q x
    let lost := r.isPf0 && (r.st == 4 || r.cqFull)
    t.recent = (x.slice, x.source, x.tag) :: s.recent ∧ t.ops = s.ops ∧ t.clasps = s.clasps ∧ sameEngines s t ∧ sameDevice s t ∧
    (lost = true → t.getF F.ERR_CNT_LOST_COUNT = (s.getF F.ERR_CNT_LOST_COUNT + 1) % 2 ^ 32 ∧ t.ring q = some r ∧ t.waiting q = [] ∧ sameBytes s t) ∧
    (lost = false → s.cqOpen r = true → r.cqFull = false → s.rxHeld r x = false →
      let n := (r.counter + 1) % 2 ^ 64
      let m := s.mem.write ((s.ownerSpace r.owner).at (r.base + 32 * (r.fi % r.entries))) x.bytes
      t.ring q = some { r with fi := (r.fi + 1) % 65536, counter := n } ∧ t.waiting q = [] ∧
      t.mem = (if r.counterAddr = 0 then m else m.write ((s.ownerSpace r.owner).at r.counterAddr) (leBytes 8 n))) ∧
    (lost = false → (s.cqOpen r = false ∨ r.cqFull = true ∨ s.rxHeld r x = true) → t.waiting q = [x] ∧ t.ring q = some r ∧ sameBytes s t))

/-! ### The Gallery (chapter 04) -/

/-- Gallery descriptors (R73, R80, R90, R92, R94, R392): a ring that is ready fetches one; FENCE keeps it back behind commands of its ring; the checks
run in order, the first that fails refuses it with its status, and one that waits for a page of T4 under a group header is kept; one that passes
becomes a command of its kind, count, control bytes, seed and streams, of which nothing is handed out. -/
def Obligations.GalleryDispatch : Prop :=
  ∀ (s : State) (q : BitVec 16) (d : Desc) (c : Instr) (op : Nat),
    (c, op) ∈ [(Instr.reduce q d, 1), (.convert q d, 2), (.program q d, 3), (.loadProgram q d, 4), (.unloadProgram q d, 5)] →
    (galOpcode d = op ∨ galOpcode d = 0 ∨ 5 < galOpcode d) → Desc.field d 4 1 ≠ 0x0F →
    ((s.galReady q.toNat = false ∨ s.fetch q.toNat 0x05 (Desc.tag d) d = none) → exec c s = .next s) ∧
    (∀ (o : Op) (u : State), s.fetch q.toNat 0x05 (Desc.tag d) d = some (o, u) → s.galReady q.toNat = true →
      (Desc.bits d 41 41 = 1 → u.galFront o = false → exec c s = .next { u with gal := { u.gal with held := u.gal.held ++ [o.id] } }) ∧
      ((Desc.bits d 41 41 = 0 ∨ u.galFront o = true) →
        let able := (List.range 16).any fun k => u.clusterOn k && u.galReserve ≤ k && (Desc.field d 40 2 == 0 || bitAt (Desc.field d 40 2) k)
        let absent := (u.findProg o.owner (Desc.field d 6 2) (Desc.field d 8 2)).isNone
        (galDescStatus d ≠ stOk → exec c s = .next (u.galRefuse o (galDescStatus d) 0 0).galKick) ∧
        ((galOpcode d = 0 ∨ 5 < galOpcode d) → galDescStatus d = stDescInvalid) ∧
        (galDescStatus d = stOk → u.galWeight o.owner = 0 → exec c s = .next (u.galRefuse o stRights 0 0).galKick) ∧
        (galDescStatus d = stOk → u.galWeight o.owner ≠ 0 → op ≤ 3 → able = false → exec c s = .next (u.galRefuse o stNoCluster 0 0).galKick) ∧
        (galDescStatus d = stOk → u.galWeight o.owner ≠ 0 → able = true → op = 3 → absent = true →
          exec c s = .next (u.galRefuse o stProgAbsent 0 0).galKick) ∧
        (galDescStatus d = stOk → u.galWeight o.owner ≠ 0 → able = true → op ≤ 3 → (op = 3 → absent = false) →
          let slot := if op = 3 then u.findProg o.owner (Desc.field d 6 2) (Desc.field d 8 2) else none
          let img := match slot with | some k => (u.progSlot k).image | none => []
          let h := FHead.of img
          let ver := if op = 3 then h.ver else 0
          (op = 1 → u.headWaits o = true → ∃ w t : State, exec c s = .next t ∧ t = w.galKick ∧ w.gal.heads = u.gal.heads ++ [o.id] ∧
            w.ops = u.ops ∧ sameBytes u w) ∧
          ((op = 1 → u.headWaits o = false) →
            (op = 3 → galSrc d ≠ h.streams + (if h.carry = 0 then 0 else 1) → exec c s = .next (u.galRefuse o stDescInvalid 0 0 ver).galKick) ∧
            ((op = 3 → galSrc d = h.streams + (if h.carry = 0 then 0 else 1)) →
              (∀ e j, u.tableCheck o.owner d img (galSrc d) [] = .error (e, some j) → exec c s = .next (u.galRefuse o e j 4 ver).galKick) ∧
              (∀ e, u.tableCheck o.owner d img (galSrc d) [] = .error (e, none) → exec c s = .next (u.galRefuse o e 0 0 ver).galKick) ∧
              (∀ l, u.tableCheck o.owner d img (galSrc d) [] = .ok l → ∃ v t : State, exec c s = .next t ∧ t = v.galKick ∧
                v = u.galStart o (slot.getD 15) img l ∧ (0 < galCount d → ∃ x : GalCmd, v.galOf o.id = some x ∧ x.kind = op ∧
                  x.count = galCount d ∧ x.slice = o.owner ∧ x.inCtrl = galInCtrl d ∧ x.outCtrl = galOutCtrl d ∧ x.mask = Desc.field d 40 2 ∧
                  x.key = (0xFFFF, Desc.field d 10 2, Desc.field d 20 4) ∧ x.image = img ∧ x.slot = slot.getD 15 ∧
                  x.streams = (if op = 3 then progStrms img l else l) ∧ x.next = 0 ∧ x.chunks = [] ∧ x.fault = none ∧
                  sameBytes u v ∧ v.ops = u.ops)))))))

/-- LOAD_PROGRAM and UNLOAD_PROGRAM (R90, R91): a faulty image, one not newer than the loaded one and a full store are refused by name;
a good image becomes CURRENT in a free slot with its operation committed, and the version before it RETIRING; and an unloaded program's slot stops being
CURRENT. -/
def Obligations.GalleryPrograms : Prop :=
  ∀ (s u : State) (q : BitVec 16) (d : Desc) (o : Op), s.fetch q.toNat 0x05 (Desc.tag d) d = some (o, u) → Desc.field d 4 1 ≠ 0x0F →
    s.galReady q.toNat = true → (Desc.bits d 41 41 = 0 ∨ u.galFront o = true) → galDescStatus d = stOk → u.galWeight o.owner ≠ 0 →
    let img := u.mem.read ((u.slice o.owner).space.at (galTable d)) (if galCount d < 64 ∨ 2112 < galCount d then 64 else galCount d)
    let old := u.findProg o.owner (FHead.of img).id 0
    let stale := (old.map fun k => (FHead.of (u.progSlot k).image).ver).any (fun v => (FHead.of img).ver ≤ v)
    (galOpcode d = 4 →
      (∀ k i, imageFault img (galCount d) = some (k, i) → exec (.loadProgram q d) s = .next (u.galRefuse o stProgInvalid i k).galKick) ∧
      (imageFault img (galCount d) = none → stale = true → exec (.loadProgram q d) s = .next (u.galRefuse o stProgInvalid 0 3).galKick) ∧
      (imageFault img (galCount d) = none → stale = false → (∀ k < 8, (u.progSlot k).st ≠ 0) →
        exec (.loadProgram q d) s = .next (u.galRefuse o stStoreFull 0 0).galKick) ∧
      (imageFault img (galCount d) = none → stale = false → (∃ k < 8, (u.progSlot k).st = 0) →
        ∃ (k : Nat) (v t : State), k < 8 ∧ (u.progSlot k).st = 0 ∧ exec (.loadProgram q d) s = .next t ∧
        t = (((v.commitOp o.id).galEndOp o.id stOk (galWords 0 0 0 0 0 0 (FHead.of img).ver)).progSweep).galKick ∧
        v.progSlot k = ⟨2, o.owner, img⟩ ∧ (∀ j, old = some j → v.progSlot j = { u.progSlot j with st := 3 }) ∧
        (∀ j, j ≠ k → old ≠ some j → v.progSlot j = u.progSlot j) ∧ sameBytes u v ∧ v.ops = u.ops)) ∧
    (galOpcode d = 5 →
      (u.findProg o.owner (Desc.field d 6 2) 0 = none → exec (.unloadProgram q d) s = .next (u.galRefuse o stProgAbsent 0 0).galKick) ∧
      (∀ k, u.findProg o.owner (Desc.field d 6 2) 0 = some k → ∃ v t : State, exec (.unloadProgram q d) s = .next t ∧
        t = ((v.galEndOp o.id stOk (0, 0)).progSweep).galKick ∧ v.progSlot k = { u.progSlot k with st := 3 } ∧
        (∀ j, j ≠ k → v.progSlot j = u.progSlot j) ∧ sameBytes u v ∧ v.ops = u.ops))

/-- Chunks and cancels (R82, R92, R95, R96, R98): a free cluster takes the next chunk of the first command in its order that the Coffer admits, and shows
it, buffered registers having applied where it takes up the command; a refused chunk is deferred and counted once in an epoch; a chunk that ends frees
its cluster and adds its range, one that waits for pages of T4 has them fetched, and one that cannot be reached stops its command; and a cancel posts
its result. -/
def Obligations.GalleryChunks : Prop :=
  (∀ (s u : State) (cl : Fin 16), u = (s.galKick).noCluster →
    let busy := u.gal.cmds.any (fun x => x.chunks.any (·.1 == cl.val))
    ((busy = true ∨ u.clusterOn cl = false ∨ u.dev.st = .fatal ∨ u.serveOrder cl = []) → exec (.chunkTake cl) s = .next u) ∧
    (busy = false → u.clusterOn cl = true → u.dev.st ≠ .fatal → ∀ (c : GalCmd) (cs : List GalCmd), u.serveOrder cl = c :: cs →
      let w := if bitAt c.clusters cl then u else u.galApply
      let n := min c.chunkLen (c.count - c.next)
      let r := w.offer 0 (some c.slice) (w.chunkCost c n)
      (w.mayRun c cl = false → exec (.chunkTake cl) s = .next (State.takeFrom cl cs w)) ∧
      (w.mayRun c cl = true → r.1 = false → exec (.chunkTake cl) s = .next (State.takeFrom cl cs
        ((if c.counted = some (w.epochNo, c.next) then r.2 else r.2.bump F.GAL_CNT_DEFER_COUNT).galPut
          { c with deferred := true, counted := some (w.epochNo, c.next) }))) ∧
      (w.mayRun c cl = true → r.1 = true → ∃ t : State, exec (.chunkTake cl) s = .next t ∧ t.getF (F.GAL_CLUSTER_BUSY cl) = 1 ∧
        t.getF (F.GAL_CLUSTER_SLICE cl) = c.slice % 256 ∧ sameBytes w t ∧ t.ops = w.ops ∧
        t.gal.cmds = w.gal.cmds.map (fun x => if x.op == c.op && x.step == c.step then { c with
          chunks := c.chunks ++ [(cl.val, c.next, n)], next := c.next + n,
          clusters := if bitAt c.clusters cl then c.clusters else c.clusters + 2 ^ cl.val } else x)))) ∧
  (∀ (s : State) (cl : Fin 16), s.chunkOn cl = none → ∀ c ∈ [Instr.chunkDone cl, .galStreamFault cl], exec c s = .next ((s.galKick).flightAbsorb)) ∧
  (∀ (s : State) (cl : Fin 16) (c : GalCmd) (a n : Nat), s.chunkOn cl = some (c, a, n) →
    let rest := c.chunks.filter (·.1 != cl.val)
    let u := s.clusterIdle cl
    u.getF (F.GAL_CLUSTER_BUSY cl) = 0 ∧ regsBut [R.GAL_CLUSTER cl] s u ∧ sameWork s u ∧
    (s.chunkReach c a n = .wait →
      exec (.chunkDone cl) s = .next ((((s.chunkFetch c a n).beginOnce (.op c.op)).galKick).flightAbsorb)) ∧
    (∀ st, s.chunkReach c a n = .fail st → exec (.chunkDone cl) s =
      .next (((((u.poolFault st).galSettle { c with chunks := rest, fault := some (c.fault.getD (streamFail st)) }).galKick).flightAbsorb))) ∧
    (s.chunkReach c a n = .ok → (u.runChunk c a n).2.ranges = c.ranges ++ [(a, n)] ∧ exec (.chunkDone cl) s =
      .next ((((((u.runChunk c a n).1.galSettle { (u.runChunk c a n).2 with chunks := rest }).noCluster).galKick).flightAbsorb))) ∧
    (rest = [] → exec (.galStreamFault cl) s =
      .next (((u.galComplete { c with chunks := [], fault := some (c.fault.getD stStreamFault) }).galKick).flightAbsorb)) ∧
    (rest ≠ [] → exec (.galStreamFault cl) s =
      .next (((u.galPut { c with chunks := rest, fault := some (c.fault.getD stStreamFault) }).galKick).flightAbsorb))) ∧
  (∀ (s w : State) (m : Master) (i : BitVec 16), s.writeAt m R.GAL_CANCEL_CTRL = some w →
    let v := w.setF F.GAL_CANCEL_CTRL_SLICE i.toNat
    ∃ (u t : State) (r : CancelResult), exec (.galCancel m i) s = .next t ∧ (r, u) = v.galCancelTag i.toNat (v.reg R.GAL_CANCEL_TAG) ∧
      t.getF F.GAL_CANCEL_RESULT_RESULT = r.code ∧ regsBut [R.GAL_CANCEL_RESULT] u t ∧ sameWork u t ∧
      r = (v.cancelFind i.toNat [0x06] (v.reg R.GAL_CANCEL_TAG)).1 ∧
      ((v.cancelFind i.toNat [0x06] (v.reg R.GAL_CANCEL_TAG)).2 = none → u = v))
/-! ### Flights (chapter 05) -/

/-- Flight commands (R101, R104, R108 to R110, R116, R118, R119): LOAD checks an image and takes a free slot with its buffers, ARM starts a run of a loaded
flight under its conditions, UNLOAD frees an idle one, each refusing by name; an ARMED flight runs from its epoch; and a cancel posts its result. Checks
of the binding table follow log entry 29, and the wait for a run that has ended log entry 128. -/
def Obligations.FlightCommands : Prop :=
  (∀ (s : State) (q : BitVec 16) (d : Desc) (c : Instr) (op : Nat), (c, op) ∈ [(Instr.load q d, 1), (.arm q d, 2), (.unload q d, 3)] →
    (Desc.bits d 35 32 = op ∨ Desc.bits d 35 32 = 0 ∨ 3 < Desc.bits d 35 32) → Desc.field d 4 1 ≠ 0x0F →
    (s.fetch q.toNat 0x06 (Desc.tag d) d = none → exec c s = .next s) ∧
    (∀ o u, s.fetch q.toNat 0x06 (Desc.tag d) d = some (o, u) → fltDescOk d = false → exec c s = .next (u.fltRefuse o stCmdInvalid 0 0 0xFFFF))) ∧
  (∀ (s u : State) (q : BitVec 16) (d : Desc) (o : Op), s.fetch q.toNat 0x06 (Desc.tag d) d = some (o, u) → Desc.field d 4 1 ≠ 0x0F →
    fltDescOk d = true →
    (Desc.bits d 35 32 = 1 →
      let b := u.mem.read ((u.slice o.owner).space.at (Desc.field d 8 8)) (min (Desc.field d 16 4) (2 ^ 24 + 1))
      let st := (u.imageStatus o.owner b (Desc.field d 6 2)).1
      let room := u.reserveStatus o.owner 0 ((Flight.fresh o.owner (flId b) b).tierPages 0) = stOk ∧
        u.reserveStatus o.owner 1 ((Flight.fresh o.owner (flId b) b).tierPages 1) = stOk
      (st ≠ stOk → exec (.load q d) s = .next (u.fltRefuse o st 0 (flDev b) (u.imageStatus o.owner b (Desc.field d 6 2)).2)) ∧
      (st = stOk → u.flightOf (flId b) ≠ none → exec (.load q d) s = .next (u.fltRefuse o stFlightIdInUse 0 (flDev b) 0xFFFF)) ∧
      (st = stOk → u.flightOf (flId b) = none → (∀ k < 64, u.flight k ≠ none) → exec (.load q d) s =
        .next (u.fltRefuse o stFlightSlotsFull 0 (flDev b) 0xFFFF)) ∧
      (st = stOk → u.flightOf (flId b) = none → (∃ k < 64, u.flight k = none) → ¬ room → exec (.load q d) s =
        .next (u.fltRefuse o stNoBufferSpace 0 (flDev b) 0xFFFF)) ∧
      (st = stOk → u.flightOf (flId b) = none → (∃ k < 64, u.flight k = none) → room → ∃ (k : Nat) (v t : State) (l : List Nat),
        k < 64 ∧ u.flight k = none ∧ exec (.load q d) s = .next t ∧ t = v.fltRefuse o stOk k (flDev b) 0xFFFF ∧
        v.flight k = some { Flight.fresh o.owner (flId b) b with frames := l } ∧ (∀ j, j ≠ k → v.flight j = u.flight j) ∧ v.rings = u.rings ∧
        v.slices = u.slices)) ∧
    (Desc.bits d 35 32 = 2 →
      (u.flightOf (Desc.field d 6 2) = none → exec (.arm q d) s = .next (u.fltRefuse o stFlightState 0 0 0xFFFF)) ∧
      (∀ k f, u.flightOf (Desc.field d 6 2) = some (k, f) →
        let n := (u.flights.filter fun e => e.2.active).length
        let l := if Desc.field d 8 8 = 0 then [] else
          (List.range (Desc.field d 16 4)).map fun j => u.mem.read ((u.slice o.owner).space.at (Desc.field d 8 8 + 16 * j)) 16
        let dev := flDev f.image
        let off := u.str.ptpOff = true ∨ (flPositions f.image).any u.str.accelOff.contains = true
        let timed := u.timeState = .locked ∨ u.timeState = .holdover
        (f.slice ≠ o.owner → exec (.arm q d) s = .next (u.fltRefuse o stFlightState 0 0 0xFFFF)) ∧
        (f.slice = o.owner → f.active = true → exec (.arm q d) s = .next (u.fltRefuse o stFlightState 0 dev 0xFFFF)) ∧
        (f.slice = o.owner → f.active = false → 16 ≤ n → exec (.arm q d) s = .next (u.fltRefuse o stFlightSlotsFull 0 dev 0xFFFF)) ∧
        (f.slice = o.owner → f.active = false → n < 16 → f.ending ≠ none → exec (.arm q d) s = .next { u with fltWait := u.fltWait ++ [o.id] }) ∧
        (f.slice = o.owner → f.active = false → n < 16 → f.ending = none →
          (off → exec (.arm q d) s = .next (u.fltRefuse o stEnvMismatch 0 dev 0xFFFF)) ∧
          (¬ off → ¬ timed → exec (.arm q d) s = .next (u.fltRefuse o stTimeUnlocked 0 dev 0xFFFF)) ∧
          (¬ off → timed → l.all (bindOkAt f.image) = false → exec (.arm q d) s = .next (u.fltRefuse o stCmdInvalid 0 dev 0xFFFF)) ∧
          (¬ off → timed → l.all (bindOkAt f.image) = true → u.bindsStatus o.owner f.image l ≠ stOk →
            exec (.arm q d) s = .next (u.fltRefuse o (u.bindsStatus o.owner f.image l) 0 dev 0xFFFF)) ∧
          (¬ off → timed → l.all (bindOkAt f.image) = true → u.bindsStatus o.owner f.image l = stOk → ∃ t g, exec (.arm q d) s = .next t ∧
            t.flight k = some g ∧ g.st = .armed ∧ g.epoch = Desc.field d 20 8 ∧ g.armOp = o.id ∧ g.steps = [] ∧ g.held = false ∧
            g.slice = f.slice ∧ g.image = f.image ∧ g.lateLog = Desc.field d 28 8 ∧ (∀ j, j ≠ k → t.flight j = u.flight j) ∧
            t = { u with flights := t.flights })))) ∧
    (Desc.bits d 35 32 = 3 →
      (u.flightOf (Desc.field d 6 2) = none → exec (.unload q d) s = .next (u.fltRefuse o stFlightState 0 0 0xFFFF)) ∧
      (∀ k f, u.flightOf (Desc.field d 6 2) = some (k, f) →
        (f.slice ≠ o.owner ∨ f.active = true → exec (.unload q d) s = .next (u.fltRefuse o stFlightState 0 (flDev f.image) 0xFFFF)) ∧
        (f.slice = o.owner → f.active = false → f.ending ≠ none → exec (.unload q d) s = .next { u with fltWait := u.fltWait ++ [o.id] }) ∧
        (f.slice = o.owner → f.active = false → f.ending = none → ∃ v t : State, exec (.unload q d) s = .next t ∧
          t = v.fltRefuse o stOk 0 (flDev f.image) 0xFFFF ∧ v.flight k = none ∧ (∀ j, j ≠ k → v.flight j = u.flight j) ∧ v.ops = u.ops)))) ∧
  (∀ (s : State) (k : Fin 64) (f : Flight), s.flight k = some f →
    (f.st = .armed → exec (.flightEpochReached k) s =
      .next ((s.atLeast f.epoch).setFlight k { f with st := .running, epochUp := (s.atLeast f.epoch).up })) ∧
    (f.st ≠ .armed → exec (.flightEpochReached k) s = .next s)) ∧
  (∀ (s w : State) (m : Master) (i : BitVec 16), s.writeAt m R.FLT_CANCEL_CTRL = some w →
    let v := w.setF F.FLT_CANCEL_CTRL_SLICE i.toNat
    ∃ (u t : State) (r : CancelResult), exec (.fltCancel m i) s = .next t ∧ (r, u) = v.fltCancelTag i.toNat (v.reg R.FLT_CANCEL_TAG) ∧
      t.getF F.FLT_CANCEL_RESULT_RESULT = r.code ∧ regsBut [R.FLT_CANCEL_RESULT] u t ∧ sameWork u t)

/-- Steps (R50, R106, R107, R111, R113, R115, R116): a step starts, no earlier than its schedule, on a flight that runs and is not held, with its inputs ready
and its engine not paused; each KIND then does its part, a Gallery step as a command of the Gallery, or ends the flight where its count, streams or access
fail; and a step that has done it completes, counts and may land its flight. -/
def Obligations.FlightSteps : Prop :=
  (∀ (s : State) (k j kind t : Nat) (f : Flight), s.flight k = some f →
    (s.stepBegin k j kind t ≠ none ↔ j < flSteps f.image ∧ (flStep f.image j).kind = kind ∧ f.stepSt j = .waiting ∧
      (f.st = .running ∨ f.st = .stalled) ∧ f.held = false ∧ f.inputsReady j = true ∧ s.stepPaused kind = false) ∧
    (∀ u, s.stepBegin k j kind t = some u → ∃ g : Flight, u.flight k = some g ∧ g.stepSt j = .running false ∧ g.image = f.image ∧
      (∀ i, i ≠ j → g.stepSt i = f.stepSt i) ∧ u.now = max s.now (max t (f.epoch + (flStep f.image j).start)))) ∧
  (∀ (s : State) (k : Fin 64) (j t kind : Nat) (c : Instr), (c, kind) ∈ [(Instr.stepSend k j t, 1), (.stepRecv k j t, 2), (.stepReduce k j t, 3),
    (.stepConvert k j t, 4), (.stepProgram k j t, 5), (.stepCopy k j t, 6), (.stepLanding k j t, 7), (.stepSignalAccel k j t, 8)] →
    s.stepBegin k j kind t = none → exec c s = .next s) ∧
  (∀ (s u : State) (k : Fin 64) (j t : Nat) (f : Flight), s.stepBegin k j 2 t = some u → u.flight k = some f →
    (f.badCount j = false → exec (.stepRecv k j t) s = .next u) ∧
    (f.badCount j = true → exec (.stepRecv k j t) s = .next (u.stepFault k stFormatInvalid))) ∧
  (∀ (s u : State) (k : Fin 64) (j t : Nat) (f : Flight) (i : FOpd), s.stepBegin k j 1 t = some u → u.flight k = some f →
    (flStep f.image j).opds.find? FOpd.reads = some i →
    let n := sendUnits (((u.opdSpans k f (flStep f.image j) i).headD (.accel 0, 0, 0)).2.2)
    let c := f.conn (flStep f.image j).peer
    (f.badCount j = true → exec (.stepSend k j t) s = .next (u.stepFault k stFormatInvalid)) ∧
    (f.badCount j = false → exec (.stepSend k j t) s = .next (State.sendGo k j n (u.setFlight k { f with
      txLeft := put f.txLeft j (n, c.2), conns := put f.conns (flStep f.image j).peer (c.1, c.2 + 1) })))) ∧
  (∀ (s : State) (k j left seq : Nat) (f : Flight) (i o : FOpd) (e : Space × Nat × Nat) (l : List (Space × Nat × Nat)),
    s.flight k = some f → look f.txLeft j = some (left, seq) → (flStep f.image j).opds.find? FOpd.reads = some i →
    (flStep f.image j).opds.find? FOpd.writes = some o → s.opdSpans k f (flStep f.image j) i = e :: l → s.stepPaused 1 = false →
    s.shedAt 4 = false → s.txFits (s.flightQueue f (flStep f.image j).peer) (f.unitWire (flStep f.image j).peer (min 65536 e.2.2)) = true →
    s.stepReach k f j = .ok → ∃ ok t g, s.sendOne k j = (ok, t) ∧ ok = (s.offer 1 (some f.slice) s.txCost).1 ∧ t.flight k = some g ∧
      sameBytes s t ∧ t.rings = s.rings ∧ (ok = true → g.stepSt j = .running true ∧ look g.txLeft j = if left ≤ 1 then none else some (left - 1, seq)) ∧
      (ok = false → g.anyDeferred = true ∧ g.stepSt j = f.stepSt j ∧ g.txLeft = f.txLeft)) ∧
  (∀ (s u : State) (k : Fin 64) (j t kind : Nat) (c : Instr) (f : Flight),
    (c, kind) ∈ [(Instr.stepReduce k j t, 3), (.stepConvert k j t, 4), (.stepProgram k j t, 5)] → s.stepBegin k j kind t = some u →
    u.flight k = some f →
    let y := flStep f.image j
    let slot := if kind = 5 then u.findProg f.slice y.progId y.progVer else none
    let img := match slot with | some q => (u.progSlot q).image | none => []
    let st := u.stepStatus f y img (u.stepStrms k f y)
    (kind = 5 → slot = none → exec c s = .next (u.stepFault k stProgAbsent)) ∧
    ((kind = 5 → slot ≠ none) → st ≠ stOk → exec c s = .next (u.stepFault k st)) ∧
    ((kind = 5 → slot ≠ none) → st = stOk → ∃ (v t' : State) (x : GalCmd), exec c s = .next t' ∧ t' = v.galSettle x ∧
      v = { u with gal := { u.gal with cmds := u.gal.cmds ++ [x] } } ∧ x.step = some (k.val, j) ∧ x.kind = kind - 2 ∧ x.count = y.count ∧
      x.inCtrl = y.inCtrl ∧ x.outCtrl = y.outCtrl ∧ x.slot = slot.getD 15 ∧ x.image = img ∧ x.slice = f.slice ∧ x.start = f.sched j ∧
      x.next = 0 ∧ x.chunks = [] ∧ x.fault = none ∧ (0 < y.count → x ∈ t'.gal.cmds ∧ sameBytes u t' ∧ t'.flights = u.flights))) ∧
  (∀ (s u : State) (k : Fin 64) (j t : Nat) (f : Flight) (i o : FOpd), s.stepBegin k j 6 t = some u → u.flight k = some f →
    (flStep f.image j).opds.find? FOpd.reads = some i → (flStep f.image j).opds.find? FOpd.writes = some o →
    let fits := (flBuf f.image i.buf).kind ≠ 0 ∨ (flBuf f.image i.buf).fmt.fits (flStep f.image j).count = true
    (¬ fits → exec (.stepCopy k j t) s = .next (u.stepFault k stFormatInvalid)) ∧
    (fits → ∀ st, u.stepReach k f j = .fail st → exec (.stepCopy k j t) s = .next ((u.poolFault st).stepFault k (streamFail st))) ∧
    (fits → u.stepReach k f j = .wait → exec (.stepCopy k j t) s = .next (u.stepFetch k f j)) ∧
    (fits → u.stepReach k f j = .ok → ∃ v t' g, exec (.stepCopy k j t) s = .next t' ∧ v =
        ((u.opdSpans k f (flStep f.image j) i).zip (u.opdSpans k f (flStep f.image j) o)).foldl (fun v e =>
          let r := v.getBytes e.1.1 e.1.2.1 e.1.2.2
          r.2.putBytes e.2.1 e.2.2.1 r.1) u ∧
      t' = v.updFlight k (fun f => f.setStep j (.running true)) ∧ t'.flight k = some g ∧ g.stepSt j = .running true)) ∧
  (∀ (s u : State) (k : Fin 64) (j t : Nat) (f : Flight), s.stepBegin k j 7 t = some u → u.flight k = some f →
    let own := (flMembers f.image (flStep f.image j).peer).filter fun r => (flRank f.image r).1 == flDev f.image
    ∃ t' g, exec (.stepLanding k j t) s = .next t' ∧ t'.flight k = some g ∧ g.stepSt j = .running true ∧
    g.arrived = f.arrived ++ own.map (fun r => ((flStep f.image j).peer, r)) ∧ t'.flCtlNext = u.flCtlNext + 1 ∧
    (∀ d ∈ f.peers, (∃ r ∈ flMembers f.image (flStep f.image j).peer, (flRank f.image r).1 = d) → ∃ c ∈ t'.flCtl, c.dest = d ∧ c.kind = 2 ∧
      c.id = f.id ∧ c.epoch = f.epoch ∧ c.num = u.flCtlNext ∧ c.fields = (flStep f.image j).peer :: own) ∧ sameBytes u t' ∧ t'.rings = u.rings) ∧
  (∀ (s u : State) (k : Fin 64) (j t : Nat) (f : Flight), s.stepBegin k j 8 t = some u → u.flight k = some f →
    let ps := (List.range 8).filter fun a => bitAt (flStep f.image j).signal a
    (∀ st, (ps.map fun a => u.accelAccess f.slice a (u.accelCompletionOff a) 8).find? (· != stOk) = some st →
      exec (.stepSignalAccel k j t) s = .next (u.stepFault k st)) ∧
    ((∀ a ∈ ps, u.accelAccess f.slice a (u.accelCompletionOff a) 8 = stOk) → ∃ t' g, exec (.stepSignalAccel k j t) s = .next t' ∧
      t'.mem = (ps.foldl State.signal u).mem ∧ t'.flight k = some g ∧ g.stepSt j = .running true)) ∧
  (∀ (s : State) (a : Nat), let p := (Space.accel a).at (s.accelCompletionOff a)
    (s.accelCompletion a = 1 → (s.signal a).mem = s.mem.write p (leBytes 8 (leNat (s.mem.read p 8) + 1))) ∧
    (s.accelCompletion a ≠ 1 → (s.signal a).mem = s.mem.write p (leBytes 8 (Config.freeWord s.draws).toNat))) ∧
  (∀ (s : State) (k : Fin 64) (j : Nat) (f : Flight), s.flight k = some f →
    let x := flStep f.image j
    let on := f.active = true ∧ (f.stepSt j = .running true ∨ f.stepSt j = .running false)
    (¬ on → exec (.stepComplete k j) s = .next s) ∧
    (on → (x.kind = 1 ∧ look f.txLeft j = none) ∨ (x.kind = 2 ∧ f.recvDone j = true) ∨ (x.kind = 6 ∧ f.stepSt j = .running true) ∨
      (x.kind = 7 ∧ f.landDone j = true) ∨ 8 ≤ x.kind → exec (.stepComplete k j) s = .next (s.stepDone k j)) ∧
    (on → (x.kind = 2 ∧ f.recvDone j = false) ∨ (x.kind = 7 ∧ f.landDone j = false) → exec (.stepComplete k j) s = .next s) ∧
    (on → x.kind = 1 → ∀ e, look f.txLeft j = some e → exec (.stepComplete k j) s = .next (State.sendGo k j e.1 s)) ∧
    (on → x.kind = 6 → f.stepSt j = .running false → exec (.stepComplete k j) s = .next (
      if ((s.runCopy k j).flight k).any (fun g => g.stepSt j == .running true && g.active) then (s.runCopy k j).stepDone k j else s.runCopy k j)) ∧
    (on → 3 ≤ x.kind → x.kind ≤ 5 →
      let v : State := { s with gal := { s.gal with ended := s.gal.ended.filter fun e => !(e.slot == k.val && e.step == j) } }
      ((s.gal.ended.find? fun e => e.slot == k.val && e.step == j) = none → exec (.stepComplete k j) s = .next s) ∧
      (∀ e, (s.gal.ended.find? fun e => e.slot == k.val && e.step == j) = some e →
        (e.bad = true → exec (.stepComplete k j) s = .next ((v.setFlight k ((f.absorb e).setStep j .stopped)).stepFault k e.status)) ∧
        (e.bad = false → exec (.stepComplete k j) s = .next ((v.setFlight k (f.absorb e)).stepDone k j)))) ∧
    (let n := s.reg R.FLT_CNT_STEP_LO + 2 ^ 32 * s.reg R.FLT_CNT_STEP_HI + 1
      ∃ u g, s.stepDone k j = u.flightLand k ∧ u.flight k = some g ∧ g.stepSt j = .complete ∧ g.st = f.st ∧
      u.reg R.FLT_CNT_STEP_LO = n % 2 ^ 32 ∧ u.reg R.FLT_CNT_STEP_HI = n / 2 ^ 32 % 2 ^ 32 ∧ sameBytes s u ∧ u.ops = s.ops ∧
      (g.allDone = true → g.st = .running ∨ g.st = .stalled → ∃ x st, u.flightLand k = u.flightEnd k x st (flDev g.image) ∧ x.st = .landed) ∧
      (g.allDone = false → u.flightLand k = u)))

/-- Lateness, peers and aborts (R113, R115, R121, R122): a step that waits past LATE_LIMIT stalls its flight and one past LATE_ABORT ends it; keepalives go to
every peer and name a mismatch or progress; a peer silent for PEER_TIMEOUT ends the flight; an abort broadcast counts, is acknowledged and ends the
run it names; reports repeat, count once and stop with their acknowledgement. Acknowledging a report of an ended run follows log entry 130. -/
def Obligations.FlightControl : Prop :=
  (∀ (s : State) (k : Fin 64) (j : Nat), (s.waitingStep k j = none → ∀ c ∈ [Instr.lateLimitExpiry k j, .lateAbortExpiry k j], exec c s = .next s) ∧
    ∀ f, s.waitingStep k j = some f →
      (f.st = .running → ∃ t, exec (.lateLimitExpiry k j) s = .next t ∧ t.flight k = some { f with st := .stalled } ∧ t.getF F.FLT_STATUS_STALL = 1 ∧
        t.now = max s.now (f.sched j + flLateLimit f.image + 1) ∧ regsBut [R.FLT_STATUS] s t ∧ sameBytes s t ∧ sameTenants s t) ∧
      (f.st ≠ .running → exec (.lateLimitExpiry k j) s = .next s) ∧
      ∃ u t : State, exec (.lateAbortExpiry k j) s = .next t ∧
        t = u.abortFlight k .lateAbort stLateAbort ∧ u.now = max s.now (f.sched j + flLateAbort f.image + 1) ∧ u = { s with time := u.time }) ∧
  (∀ (s : State) (k d : Nat) (f : Flight), s.flight k = some f → (s.progress k d).flight k = some { f with progress := put f.progress d s.up } ∧
    (∀ j, j ≠ k → (s.progress k d).flight j = s.flight j) ∧ s.progress k d = { s with flights := (s.progress k d).flights, flCtl := (s.progress k d).flCtl }) ∧
  (∀ (s : State) (k : Fin 64) (f : Flight), s.flight k = some f →
    (f.active = true → ∃ t, exec (.keepaliveTimer k) s = .next t ∧
      t = f.peers.foldl (fun v d => v.sendCtl f d 3 [flMapCrc f.image, b2n f.held]) s ∧ t.flights = s.flights ∧ t.flCtl = s.flCtl ∧
      sameBytes s t ∧ sameTenants s t) ∧
    (f.active = false → exec (.keepaliveTimer k) s = .next s)) ∧
  (∀ (s : State) (id : BitVec 16) (d : Nat) (crc : Word),
    (∀ k f, s.flightOf id.toNat = some (k, f) → f.active = true →
      (crc.toNat ≠ flMapCrc f.image → exec (.keepaliveReceived id d crc) s = .next ((s.rteRx).abortFlight k .peerMismatch stPeerMismatch)) ∧
      (crc.toNat = flMapCrc f.image → exec (.keepaliveReceived id d crc) s = .next ((s.rteRx).progress k d))) ∧
    ((∀ k f, s.flightOf id.toNat = some (k, f) → f.active = false) → exec (.keepaliveReceived id d crc) s = .next s.rteRx)) ∧
  (∀ (s : State) (k : Fin 64) (d : Nat) (f : Flight), s.flight k = some f →
    let counts := f.active = true ∧ f.st ≠ .armed ∧ f.peers.contains d = true ∧ flRanksOf f.image d ≠ []
    (counts → ∃ u t : State, exec (.peerTimeout k d) s = .next t ∧ t = u.abortFlight k .peerLost stPeerLost ∧
      u.up = max s.up (max f.epochUp (lookD f.progress d 0) + flPeerTimeout f.image) ∧ u = { s with time := u.time }) ∧
    (¬ counts → exec (.peerTimeout k d) s = .next s)) ∧
  (∀ (s : State) (id origin : BitVec 16) (epoch : DWord) (src num : Nat) (r : AbortReason), ∃ v t : State,
    exec (.abortBroadcastReceived id epoch src num r origin) s = .next t ∧
    v.flights = s.flights ∧ sameBytes s v ∧ v.getF F.FLT_CNT_ABORT_RX_COUNT = (s.getF F.FLT_CNT_ABORT_RX_COUNT + 1) % 2 ^ 32 ∧
    v.flCtl = ((((s.rteRx).bump F.FLT_CNT_ABORT_RX_COUNT).ackCtl id.toNat epoch.toNat src num).flCtl.filter fun c =>
      !(c.id == id.toNat && c.epoch == epoch.toNat && c.dest == src && c.kind == 1)) ∧
    v.pp = (((s.rteRx).bump F.FLT_CNT_ABORT_RX_COUNT).ackCtl id.toNat epoch.toNat src num).pp ∧
    ((v.flights.find? fun e => e.2.id == id.toNat && e.2.epoch == epoch.toNat && e.2.st != .loaded) = none → t = v) ∧
    (∀ k f, (v.flights.find? fun e => e.2.id == id.toNat && e.2.epoch == epoch.toNat && e.2.st != .loaded) = some (k, f) → v.flight k = some f →
      ∃ (x : State) (g : Flight), t = x.endFlight k r r.peerStatus origin.toNat true ∧ x.flight k = some g ∧ g.st = f.st ∧ g.steps = f.steps ∧
        (f.relayed = true ∨ f.allDone = true → x = v.progress k src) ∧
        (f.relayed = false → f.allDone = false → g.relayed = true ∧ x = f.peers.foldl (fun y d =>
            y.sendCtl f d 1 [num, r.code, origin.toNat])
          ((v.progress k src).updFlight k fun f => { f with relayed := true })))) ∧
  (∀ (s : State) (k : Fin 64),
    exec (.reportRepeatTimer k) s = .next ((s.flCtl.filter fun c => c.slot == k.val && c.kind == 2).foldl State.ctlAgain s) ∧
    ∃ v t, exec (.abortRepeatTimer k) s = .next t ∧
      v = { s with flCtl := s.flCtl.filter fun c => c.slot != k.val || c.kind != 1 || decide (s.up ≤ c.since + c.timeout) } ∧
      t = (v.flCtl.filter fun c => c.slot == k.val && c.kind == 1).foldl State.ctlAgain v) ∧
  (∀ (s : State) (id : BitVec 16) (epoch : DWord) (src num set : Nat) (ranks : List Nat),
    let v := (s.rteRx).ackCtl id.toNat epoch.toNat src num
    v.flights = s.flights ∧ sameBytes s v ∧
    (∀ k f, s.flightRun id.toNat epoch.toNat = some (k, f) →
      (f.seen.contains (src, num) = true → exec (.arrivalReportReceived id epoch src num set ranks) s = .next (v.progress k src)) ∧
      (f.seen.contains (src, num) = false → exec (.arrivalReportReceived id epoch src num set ranks) s = .next ((v.setFlight k
        { f with seen := (src, num) :: f.seen, arrived := f.arrived ++ ranks.map (fun r => (set, r)) }).progress k src))) ∧
    (s.flightRun id.toNat epoch.toNat = none → ∀ k f, s.flightOf id.toNat = some (k, f) →
      (f.st ≠ .loaded → epoch.toNat ≤ f.epoch → exec (.arrivalReportReceived id epoch src num set ranks) s = .next (v.progress k src)) ∧
      (f.st = .loaded ∨ f.epoch < epoch.toNat → exec (.arrivalReportReceived id epoch src num set ranks) s = .next s.rteRx)) ∧
    (s.flightOf id.toNat = none → s.flightRun id.toNat epoch.toNat = none →
      exec (.arrivalReportReceived id epoch src num set ranks) s = .next s.rteRx)) ∧
  (∀ (s : State) (id : BitVec 16) (src num : Nat),
    let v : State := { s.rteRx with flCtl := s.flCtl.filter fun c => !(c.id == id.toNat && c.dest == src && c.num == num) }
    (∀ k f, s.flightOf id.toNat = some (k, f) → exec (.controlAckReceived id src num) s = .next (v.progress k src)) ∧
    (s.flightOf id.toNat = none → exec (.controlAckReceived id src num) s = .next v))

/-- Flight data and doorbells (R107, R111, R112, R173, R306): data for no run, that a buffer cannot hold, or whose bytes cannot be reached, is dropped and
counted; other data is placed, not yet visible but for the edge; and a doorbell, or a rise of a counter, counts in the active flights that it is
for. Buffers and edges follow log entries 28 and 30. -/
def Obligations.FlightDataAndDoorbells : Prop :=
  (∀ (s : State) (id : BitVec 16) (src : Nat) (buf : BitVec 12) (off epoch : DWord) (bs : List Byte) (edge : Bool),
    let v := s.rteRx
    let c := Instr.flightWriteReceived id src buf off epoch bs edge
    (s.flightRun id.toNat epoch.toNat = none → exec c s = .next (v.bump F.FLT_CNT_DROP_COUNT)) ∧
    (∀ k f, s.flightRun id.toNat epoch.toNat = some (k, f) →
      let y := flBuf f.image buf.toNat
      let p := s.flBase k f buf.toNat
      let reach := v.spanReach f.slice true p.1 (p.2 + off.toNat) bs.length
      let inside := buf.toNat < flBufs f.image ∧ off.toNat + bs.length ≤ y.bytes
      (¬ inside → exec c s = .next (v.bump F.FLT_CNT_DROP_COUNT)) ∧
      (inside → ∀ st, reach = .fail st → exec c s = .next ((v.poolFault st).bump F.FLT_CNT_DROP_COUNT)) ∧
      (inside → ∀ h, p.1 = .tier h → reach = .wait → exec c s =
        .next ((v.bump F.PLC_CNT_FETCH_DROP_COUNT).fetchPages (h / 256) true (pagesIn (p.2 + off.toNat) bs.length))) ∧
      (inside → reach = .ok → ∃ u t, exec c s = .next t ∧ u = (v.putBytes p.1 (p.2 + off.toNat) bs).progress k src ∧
        ((∀ h, p.1 ≠ .tier h) → t.mem = s.mem.write (p.1.at (p.2 + off.toNat)) bs ∧ t.rings = s.rings ∧ t.regs = v.regs) ∧ t.mem = u.mem ∧
        ∀ g, u.flight k = some g → let l := g.placed ++ [(src, buf.toNat, off.toNat, bs.length, false)]
          let l := if edge then l.map (fun e => if e.1 = src then (e.1, e.2.1, e.2.2.1, e.2.2.2.1, true) else e) else l
          t.flight k = some { g with placed := l }))) ∧
  (∀ (s : State) (p : Fin 4) (h : Fin 2) (i : Fin 256) (a : Fin 8),
    (s.pageAnswers p h i = false → exec (.flightDoorbell p h i a) s = .next s) ∧
    (s.pageAnswers p h i = true → s.hallPaused 0 = true ∨ s.hallPaused 1 = true → exec (.flightDoorbell p h i a) s =
      .next { s.wakeLink p h with held := s.held ++ [.flightDoorbell p h i a] }) ∧
    (s.pageAnswers p h i = true → s.hallPaused 0 = false → s.hallPaused 1 = false →
      let v := s.wakeLink p h
      (bitAt (s.slice i).accelGrant a = false → exec (.flightDoorbell p h i a) s = .next (v.dbReject i)) ∧
      (bitAt (s.slice i).accelGrant a = true → s.accelDoorbell a ≠ 0 → exec (.flightDoorbell p h i a) s = .next v) ∧
      (bitAt (s.slice i).accelGrant a = true → s.accelDoorbell a = 0 → exec (.flightDoorbell p h i a) s =
        .next ((s.flights.filter fun e => e.2.slice == i.val && e.2.active).foldl (fun u e =>
          u.countDoorbell e.1 a (lookD e.2.doorbells a 0 + 1)) v)))) ∧
  (∀ (s : State) (k a n : Nat) (f : Flight), s.flight k = some f → ∃ g, (s.countDoorbell k a n).flight k = some g ∧ lookD g.doorbells a 0 = n ∧
    (∀ b, b ≠ a → lookD g.doorbells b 0 = lookD f.doorbells b 0) ∧ g.steps = f.steps ∧ g.st = f.st ∧
    (∀ j, j ≠ k → (s.countDoorbell k a n).flight j = s.flight j) ∧ s.countDoorbell k a n = { s with flights := (s.countDoorbell k a n).flights }) ∧
  (∀ (s : State) (a : Fin 8) (n : DWord),
    (s.accelPresent a = false ∨ s.accelDoorbell a ≠ 1 → exec (.accelCounterRise a n) s = .next s) ∧
    (s.accelPresent a = true → s.accelDoorbell a = 1 → exec (.accelCounterRise a n) s =
      .next ((s.flights.filter fun e => e.2.active && (look e.2.counters a).isSome).foldl (fun u e =>
        u.countDoorbell e.1 a ((n.toNat + 2 ^ 64 - lookD e.2.counters a 0) % 2 ^ 64))
        { s with mem := s.mem.write ((Space.accel a).at (s.accelCounterOff a)) (leBytes 8 n.toNat) })))
/-! ### The steward complex (chapter 14) -/

/-- Cores (R321 to R325, R329): a crash restarts its core with its cause shown, and the third within 10 s holds it; a watchdog and a late restart are
crashes; a restarted core runs again what it owned; RESTART and RELEASE act on running and on held cores; and what waits for MGMT is answered then. -/
def Obligations.CoreCrashesAndRestarts : Prop :=
  (∀ (s : State) (c : Fin 32) (cause : Fin 5),
    (s.fwOn = false ∨ s.coreSt c = 2 ∨ cause = 0 → exec (.coreCrash c cause) s = .next s.mgmtGo) ∧
    (s.fwOn = true → s.coreSt c ≠ 2 → cause ≠ 0 →
      let recent := (s.stw.crashes.filter fun e => s.up < e.2 + 10 * 10 ^ 9 && e.1 == c.val).length
      ∃ u : State, exec (.coreCrash c cause) s = .next (u.stewarded s) ∧ u = s.coreCrash c cause ∧
        (recent < 2 → u.coreSt c = 1 ∧ u.getF (F.STW_CORE_LAST_CAUSE c) = cause ∧ u.getF (F.STW_CORE_CRASHES c) = recent + 1) ∧
        (2 ≤ recent → ∃ v : State, u = v.coreHold c ∧ v.getF (F.STW_CORE_LAST_CAUSE c) = cause ∧ v.getF (F.STW_CORE_CRASHES c) = 3))) ∧
  (∀ (s : State) (c : Fin 32), (s.coreSt c ≠ 0 → exec (.watchdogExpiry c) s = .next s) ∧
    (s.coreSt c = 0 → ∃ v : State, exec (.watchdogExpiry c) s = .next ((v.coreCrash c 1).stewarded s) ∧
      v = s.ripe (.core c) (10 ^ 6 * inRange 1 1000 (s.getF (F.STW_WDOG_MS c)) 1000))) ∧
  (∀ (s : State) (c : Fin 32), (s.coreSt c ≠ 1 → exec (.coreRestartTimeout c) s = .next s) ∧
    (s.coreSt c = 1 → ∃ v : State, exec (.coreRestartTimeout c) s = .next ((v.coreCrash c (s.getF (F.STW_CORE_LAST_CAUSE c))).stewarded s) ∧
      v = s.ripe (.core c) (250 * 10 ^ 6))) ∧
  (∀ (s : State) (c : Fin 32), (s.fwOn = false ∨ s.coreSt c ≠ 1 → exec (.coreRestartDone c) s = .next s.mgmtGo) ∧
    (s.fwOn = true → s.coreSt c = 1 → ∃ u t : State, exec (.coreRestartDone c) s = .next t ∧ u.coreSt c = 0 ∧
      (s.getF (F.STW_CORE_CRASHES c) = 0 → s.getF (F.STW_CORE_LAST_CAUSE c) ≠ 5 → t = (u.latchedGo).mgmtGo) ∧
      (0 < s.getF (F.STW_CORE_CRASHES c) ∨ s.getF (F.STW_CORE_LAST_CAUSE c) = 5 → t = ((u.reexec c).latchedGo).mgmtGo) ∧
      (0 < s.getF (F.STW_CORE_CRASHES c) → u.getF F.STW_STATUS_CORE_RESTART = 1) ∧ sameWork s u ∧ u.dev = s.dev)) ∧
  (∀ (s w : State) (m : Master) (c : Fin 32), taken s w m R.STW_CORE_CTRL →
    (w.coreSt c = 0 → ∃ u : State, exec (.coreRestart m c) s = .next (u.stewarded s) ∧ u.coreSt c = 1 ∧
      u.getF (F.STW_CORE_LAST_CAUSE c) = 5 ∧ u.getF F.STW_CNT_RESTART = (w.getF F.STW_CNT_RESTART + 1) % 2 ^ 32) ∧
    (w.coreSt c ≠ 0 → ∃ u : State, exec (.coreRestart m c) s = .next (u.stewarded s) ∧ regsBut [R.STW_CORE_CTRL] w u ∧ u = { w with regs := u.regs }) ∧
    (w.coreSt c = 2 → ∃ t : State, exec (.coreRelease m c) s = .next t ∧ t.coreSt c = 1 ∧ t.getF (F.STW_CORE_CRASHES c) = 0 ∧
      (bitAt (w.getF (F.STW_WING_STATE_HELD (c / 8))) (c % 8) = true →
        t.getF (F.STW_WING_STATE_HELD (c / 8)) = w.getF (F.STW_WING_STATE_HELD (c / 8)) - 2 ^ (c.val % 8)) ∧
      t.getF F.STW_CNT_RESTART = (w.getF F.STW_CNT_RESTART + 1) % 2 ^ 32 ∧ sameEngines w t ∧ sameTenants w t) ∧
    (w.coreSt c ≠ 2 → ∃ t : State, exec (.coreRelease m c) s = .next t ∧ regsBut [R.STW_CORE_CTRL] w t ∧ t = { w with regs := t.regs }))

/-- A wing without a core (R325): the crash that leaves every core of a wing held takes the device to FATAL, with reason WING_LOST and the wing
as its item. -/
def Obligations.LostWingIsFatal : Prop :=
  ∀ (s : State) (c : Fin 32) (cause : Fin 5), s.fwOn = true → s.coreSt c ≠ 2 → cause ≠ 0 →
    2 ≤ (s.stw.crashes.filter fun e => s.up < e.2 + 10 * 10 ^ 9 && e.1 == c.val).length →
    s.getF (F.STW_WING_STATE_HELD (c / 8)) ||| 2 ^ (c.val % 8) = 255 → ∃ u : State, exec (.coreCrash c cause) s = .next (u.stewarded s) ∧
    u.getF (F.STW_WING_STATE_HELD (c / 8)) = 255 ∧ u.dev.st = .fatal ∧ u.dev.fatalReason = 5 ∧
    u.getF F.ERR_FATAL_REASON = c.val / 8 * 256 + 5 ∧ ((∀ h < 12, s.hallPaused h = false) → u.stewarded s = u)

/-- Firmware updates (R326 to R328): WRITE_FW, which waits while H0 is paused, and ACTIVATE post the first check that fails; a good image is written into
its slot, which is valid again once it reads back; ACTIVATE drains, switches and reloads its wings in order; and STW_FW_BOOT takes a valid slot. -/
def Obligations.FirmwareUpdates : Prop :=
  (∀ (s w : State) (m : Master) (k : Fin 2) (sig : Bool), taken s w m R.STW_FW_CMD →
    (w.hallPaused 0 = true → exec (.writeFw m k sig) s = .next { w with held := w.held ++ [.writeFw m k sig] }) ∧
    (w.hallPaused 0 = false →
      let r := w.writeFwCheck k (w.cmdPort m) sig
      ∃ t, exec (.writeFw m k sig) s = .next t ∧ sameWork w t ∧
        (r ≠ 0 → t.getF F.STW_FW_RESULT_RESULT = r ∧ t.getF F.STW_STATUS_FW_DONE = 1 ∧ t.stw = w.stw ∧
          (r = 2 → t.getF F.SIG_STATUS_VERIFY_FAIL = 1)) ∧
        (r = 0 → t.stw.fw = some ⟨1, k, [], w.cmdPort m, t.fwImage k⟩ ∧ t.fwValid k = false ∧ t.getF F.STW_FW_RESULT_PHASE = 3 ∧
          t.fwImage k = w.mem.read ((Space.pf0 (w.cmdPort m)).at w.fwSrc) (w.reg R.STW_FW_LEN) ∧
          (∀ j : Fin 2, j ≠ k → t.fwImage j = w.fwImage j) ∧ regsBut [R.STW_FW_CMD, R.STW_FW_BOOT, R.STW_FW_RESULT] w t))) ∧
  (∀ (s : State) (ok : Bool), ((∀ c, s.stw.fw = some c → c.op ≠ 1) → exec (.fwSlotWritten ok) s = .next s) ∧
    ∀ c : FwCmd, s.stw.fw = some c → c.op = 1 → ∃ t, exec (.fwSlotWritten ok) s = .next t ∧
      t.stw.fw = none ∧ t.getF F.STW_FW_RESULT_RESULT = (if ok then 0 else 3) ∧ t.getF F.STW_STATUS_FW_DONE = 1 ∧
      (ok = true → t.fwValid c.slot = true) ∧ regsBut [R.STW_FW_BOOT, R.STW_FW_RESULT, R.STW_STATUS] s t ∧ sameWork s t) ∧
  (∀ (s w : State) (m : Master) (k : Fin 2) (wings : Fin 16) (sig : Bool), taken s w m R.STW_FW_CMD →
    let r := w.activateCheck k sig
    ∃ t, exec (.activate m k wings sig) s = .next t ∧ sameWork w t ∧
      (r ≠ 0 → t.getF F.STW_FW_RESULT_RESULT = r ∧ t.getF F.STW_STATUS_FW_DONE = 1 ∧ t.stw = w.stw ∧
        (r = 2 → t.getF F.SIG_STATUS_VERIFY_FAIL = 1)) ∧
      (r = 0 → wings = 0 → t.getF F.STW_FW_RESULT_RESULT = 0 ∧ t.stw.fw = none) ∧
      (∀ x l, r = 0 → (List.range 4).filter (bitAt wings) = x :: l → t.stw.fw = some ⟨2, k, x :: l, w.cmdPort m, []⟩ ∧
        t.getF (F.STW_WING_STATE_DRAINING x) = 1 ∧ t.getF F.STW_FW_RESULT_PHASE = 4 ∧ t.getF F.STW_FW_RESULT_WING = x)) ∧
  (∀ (s : State) (c : FwCmd) (x : Fin 4) (l : List Nat), s.stw.fw = some c → c.wings = x.val :: l → c.op = 2 →
    (s.getF F.STW_FW_RESULT_PHASE = 4 → ∃ t, exec .wingDrainDone s = .next t ∧ t.wingSlot x = c.slot % 2 ∧
      (∀ i < 8, t.coreSt (8 * x + i) = 3) ∧ t.getF (F.STW_WING_STATE_HELD x) = 0 ∧ t.getF F.STW_FW_RESULT_PHASE = 6 ∧ sameWork s t) ∧
    (s.getF F.STW_FW_RESULT_PHASE ≠ 4 → exec .wingDrainDone s = .next s) ∧
    (s.getF F.STW_FW_RESULT_PHASE = 6 → ∃ t : State, exec .wingLoadDone s = .next t.mgmtGo ∧
      (l = [] → t.stw.fw = none ∧ t.getF F.STW_FW_RESULT_RESULT = 0 ∧ t.getF F.STW_STATUS_FW_DONE = 1) ∧
      (∀ (y : Fin 4) r, l = y.val :: r → t.stw.fw = some { c with wings := l } ∧ t.getF (F.STW_WING_STATE_DRAINING y) = 1 ∧
        t.getF F.STW_FW_RESULT_PHASE = 4 ∧ t.getF F.STW_FW_RESULT_WING = y)) ∧
    (s.getF F.STW_FW_RESULT_PHASE ≠ 6 → exec .wingLoadDone s = .next s.mgmtGo)) ∧
  (∀ (s w : State) (m : Master) (k : Fin 2), taken s w m R.STW_FW_BOOT →
    (w.fwValid k = true → ∃ t, exec (.stwFwBootWrite m k) s = .next t ∧ t.getF F.STW_FW_BOOT_SLOT = k ∧ regsBut [R.STW_FW_BOOT] w t ∧
      sameWork w t ∧ sameDevice w t) ∧
    (w.fwValid k = false → exec (.stwFwBootWrite m k) s = .next w))

/-- Log copies and telemetry (R333, R335): LOG_COPY starts unless one runs; its records reach PF0 memory with the result of their gap, once H0 is not
paused; and a telemetry period shows the temperatures, then fills the next buffer, loses its block with no ring that takes it, or is skipped while stage 1
of a shed is in force. -/
def Obligations.LogsAndTelemetry : Prop :=
  (∀ (s w : State) (m : Master) (x : Fin 4) (n : BitVec 16), s.writeAt m R.STW_LOG_CTRL = some w → ∃ t, exec (.logCopy m x n) s = .next t ∧
    sameWork w t ∧
    (w.stw.copy ≠ none → t.stw = w.stw ∧ t.getF F.STW_LOG_RESULT_RESULT = 1 ∧ t.getF F.STW_STATUS_LOG_DONE = 1 ∧
      regsBut [R.STW_LOG_CTRL, R.STW_LOG_RESULT, R.STW_STATUS] w t) ∧
    (w.stw.copy = none → t.getF F.STW_LOG_RESULT_ACTIVE = 1 ∧ t.stw.copy = some ⟨x, w.reg R.STW_LOG_START, n.toNat,
      w.reg R.STW_LOG_ADDR_LO + 2 ^ 32 * w.reg R.STW_LOG_ADDR_HI, w.cmdPort m⟩ ∧ regsBut [R.STW_LOG_CTRL, R.STW_LOG_RESULT] w t)) ∧
  (∀ s : State, (s.stw.copy = none ∨ s.hallPaused 0 = true → exec .logCopyDone s = .next s) ∧
    ∀ (c : LogCopy) (p : Fin 4), s.stw.copy = some c → c.port = p → s.hallPaused 0 = false → ∃ t, exec .logCopyDone s = .next t ∧ t.stw.copy = none ∧
    t.getF F.STW_LOG_RESULT_ACTIVE = 0 ∧ t.getF F.STW_STATUS_LOG_DONE = 1 ∧
    (c.addr % 64 ≠ 0 ∨ s.canDma (.pf0 p) = false → t.getF F.STW_LOG_RESULT_RESULT = 3 ∧ t.reg R.STW_LOG_FIRST = c.start % 2 ^ 32 ∧ sameWork s t) ∧
    (c.addr % 64 = 0 → s.canDma (.pf0 p) = true →
      let l := lookD s.stw.logs c.wing []
      let x := logFrom (s.reg (R.STW_LOG_HEAD c.wing)) c.start l.length
      let recs := (l.take x.2.1).reverse.take c.count
      t.getF F.STW_LOG_RESULT_RESULT = (if x.2.2 then 2 else 0) ∧ t.reg R.STW_LOG_FIRST = x.1 % 2 ^ 32 ∧
      t.getF F.STW_LOG_COPIED_RECORDS = recs.length % 2 ^ 17 ∧ t.mem = s.mem.write ((Space.pf0 p).at c.addr) recs.flatten ∧ sameEngines s t ∧
      sameTenants s t)) ∧
  (∀ (s : State) (die a b c d : Byte), s.hallPaused 0 = true →
    exec (.telemetryPeriod die a b c d) s = .next { s with held := s.held ++ [.telemetryPeriod die a b c d] }) ∧
  (∀ (s : State) (die a b c d : Byte), s.hallPaused 0 = false →
    let e := exec (.telemetryPeriod die a b c d) s
    (s.fwOn = false → e = .next s) ∧
    (s.fwOn = true → ∃ v : State, v.getF (F.HBM_STACK_TEMP 0) = a.toNat ∧ v.getF (F.HBM_STACK_TEMP 1) = b.toNat ∧
      v.getF (F.HBM_STACK_TEMP 2) = c.toNat ∧ v.getF (F.HBM_STACK_TEMP 3) = d.toNat ∧ v = { s.nvTemp die with regs := v.regs } ∧
      (v.getF F.STW_TEL_CTRL_EN = 0 → e = .next v) ∧
      (v.getF F.STW_TEL_CTRL_EN = 1 →
        let u := (v.ripe .telemetry (10 ^ 6 * max 1 (v.getF F.STW_TEL_CTRL_PERIOD_MS))).begin .telemetry
        let q := u.getF F.STW_TEL_CTRL_RING
        let takes := u.coreServes 4 0 && u.isRxRing q && (u.ring q).any (·.isPf0)
        let bs := u.telBlock [die, a, b, c, d]
        let r := u.fillBuffer q false bs.length bs 0xFFFFFFFE 0xFF 0 0
        (u.shedAt 1 = true → e = .next (u.telSkip false)) ∧
        (u.shedAt 1 = false → takes = false ∨ r = none → e = .next (u.telSkip true)) ∧
        (∀ x, u.shedAt 1 = false → takes = true → r = some x → e = .next (x.telNew 0))))) ∧
  (∀ (s : State) (lost : Bool), (s.telSkip lost).stw.tel.skipped = min 65535 (s.stw.tel.skipped + 1) ∧
    (s.telSkip lost).getF F.STW_CNT_TEL_DROP_COUNT = (s.getF F.STW_CNT_TEL_DROP_COUNT + b2n lost) % 2 ^ 32 ∧ sameWork s (s.telSkip lost))

/-! ### The module (chapter 17) -/

/-- Management and JTAG (R329, R348, R374, R375, R378): an endpoint takes one dynamic address, answers MCTP control in every state but OFF and PLDM in
STANDBY and with firmware, once MGMT serves; a sensor's change is reported, a temperature trip is fatal; the TAP answers IDCODE and BYPASS, keeps to
them while it is locked, and TRST_N selects IDCODE. The message and instruction numbers are the model's (log entries 60 and 61). -/
def Obligations.ModuleEndpoints : Prop :=
  (∀ (s : State) (a : BitVec 7), ∀ c ∈ [Instr.setdasa a, .entdaa a],
    (s.dev.st ≠ .off → s.mio.dynAddr = none → exec c s = .next { s with mio := { s.mio with dynAddr := some a.toNat } }) ∧
    (s.dev.st = .off ∨ s.mio.dynAddr ≠ none → exec c s = .next s)) ∧
  (∀ (s : State) (cmd arg : Byte),
    (s.dev.st = .off ∨ s.mio.dynAddr = none → exec (.mctpControl cmd arg) s = .next s) ∧
    (s.dev.st ≠ .off → s.mio.dynAddr ≠ none → ∃ t, exec (.mctpControl cmd arg) s = .next t ∧
      t.outbox = .msg 4 16 (mctpAnswer s.mio.eid cmd.toNat arg.toNat).1 :: s.outbox ∧ t.mio.eid = (if cmd = 1 then arg.toNat else s.mio.eid) ∧
      t = { s with mio := t.mio, outbox := t.outbox })) ∧
  (∀ (s : State) (type cmd arg : Byte),
    let speaks := s.dev.st = .standby ∨ (s.dev.st ≠ .off ∧ s.dev.firmware = true)
    (¬ speaks → exec (.pldmRequest type cmd arg) s = .next s) ∧
    (speaks → s.dev.firmware = true → s.coreServes 0 0 = false →
      exec (.pldmRequest type cmd arg) s = .next { s with mgmt := s.mgmt ++ [.pldmRequest type cmd arg] }) ∧
    (speaks → s.dev.firmware = false ∨ s.coreServes 0 0 = true → s.mio.dynAddr ≠ none →
      ∃ t f, exec (.pldmRequest type cmd arg) s = .next t ∧ t.outbox = .msg 4 17 f :: s.outbox ∧ t = { s with outbox := t.outbox, draws := t.draws } ∧
      (type = 4 → cmd = 2 → f = [4, 2, 0, 0x9600, s.reg R.DEV_REV, serialNumber]) ∧
      (type = 2 → cmd = 0x11 → arg = 1 → s.dev.st ≠ .standby → f = [2, 0x11, 0, 1, 1, s.getF F.PWR_INPUT_MV / 10, lookD s.mio.sensors 1 0]) ∧
      (type = 2 → cmd = 0x11 → arg = 5 → s.dev.st = .standby → f = [2, 0x11, 0, 5, 0]))) ∧
  (∀ (s : State) (n : Fin 11) (l : Nat),
    (s.sensorOn n = false ∨ s.sensorFits n l = false ∨ lookD s.mio.sensors n 0 = l → exec (.sensorThresholdCrossing n l) s = .next s) ∧
    (s.sensorOn n = true → s.sensorFits n l = true → lookD s.mio.sensors n 0 ≠ l → ∃ u t : State,
      exec (.sensorThresholdCrossing n l) s = .next t ∧ lookD u.mio.sensors n 0 = l ∧
      (s.mio.dynAddr ≠ none → u.outbox = .msg 4 18 [n.val, lookD s.mio.sensors n 0, l] :: s.outbox) ∧
      u = { s with mio := u.mio, outbox := u.outbox } ∧
      (4 ≤ n.val → n.val ≤ 8 → l = 2 → t = u.fatal 0x09 n 0xFF) ∧ (n.val < 4 ∨ 8 < n.val ∨ l ≠ 2 → t = u))) ∧
  (∀ (s : State) (ir : Byte), (s.dev.st = .off ∨ s.mio.tapReset = true → exec (.jtagInstruction ir) s = .next s) ∧
    (s.dev.st ≠ .off → s.mio.tapReset = false → ∃ t, exec (.jtagInstruction ir) s = .next t ∧
      (ir = 0 → t.mio.tapIr = 0 ∧ t.outbox = .msg 5 0 [jtagId] :: s.outbox) ∧ (ir = 1 → t.mio.tapIr = 1 ∧ t.outbox = .msg 5 1 [0] :: s.outbox) ∧
      (1 < ir.toNat → s.getF F.SIG_DBG_RESULT_LEVEL = 0 → t.mio.tapIr = 1 ∧ t.outbox = .msg 5 1 [0] :: s.outbox) ∧
      (1 < ir.toNat → 0 < s.getF F.SIG_DBG_RESULT_LEVEL → t.mio.tapIr = ir.toNat) ∧ t = { s with mio := t.mio, outbox := t.outbox })) ∧
  (∀ (s : State) (low : Bool), exec (.jtagTrst low) s =
    .next { s with mio := { s.mio with tapReset := low, tapIr := if low then 0 else s.mio.tapIr } })
/-! ### The RDMA transport engine (chapter 06) -/

/-- Packets (R128, R132, R135, R138 to R140, R142, R143, R145, R146, R158): every packet counts; one that no QP may take is dropped and counted; one whose
context is absent waits while the context is fetched; a packet marked CE draws a CNP, at most one of a path in its interval; edges, NAKs and CNPs act on the
sender; a WRITE at V is placed and V passes it, and one above V is placed; a duplicate and a PSN beyond the window place nothing; a key or a fence may
keep a packet waiting; and a key that fails its check puts the QP into ERROR. Where the spec leaves a choice it is that of log entries 32, 35 and 36. -/
def Obligations.RdmaPackets : Prop :=
  (∀ (s : State) (p : Pkt) (c : Instr), (c = .packetReceive p ∧ p.op ≠ .ack ∧ p.op ≠ .nak ∧ p.op ≠ .cnp) ∨ (c = .sackReceived p ∧ p.op = .ack) ∨
      (c = .nakReceived p ∧ p.op = .nak) ∨ (c = .cnpReceived p ∧ p.op = .cnp) →
    (s.answers 10 = false → exec c s = .next s) ∧
    (s.answers 10 = true → s.hallPaused 0 = true ∨ s.hallPaused 5 = true → exec c s = .next (s.ingressPut (.pkt p) p.port (s.frameLen p))) ∧
    (s.answers 10 = true → s.hallPaused 0 = false → s.hallPaused 5 = false →
      let b := (s.bufferedApply 10 0).bufferedApply 10 1
      let v := b.rteRx
      let cnt := b.reg R.RTE_CNT_RX_LO + 2 ^ 32 * b.reg R.RTE_CNT_RX_HI + 1
      let taken (q : Qp) : Prop := (qpSprayed q = p.sprayed ∨ p.op = .cnp) ∧ 2 ≤ q.st ∧ (v.slice q.slice).state ≠ .faulted ∧
        (v.slice q.slice).state ≠ .resetting
      v.reg R.RTE_CNT_RX_LO = cnt % 2 ^ 32 ∧ v.reg R.RTE_CNT_RX_HI = cnt / 2 ^ 32 % 2 ^ 32 ∧
      (v.shedAt 4 = true → exec c s = .next (v.fenceKick p.qpn)) ∧
      (v.shedAt 4 = false → p.icrcOk = false ∨ p.op = .unknown ∨ (∀ q, v.qp p.qpn = some q → ¬ taken q) →
        exec c s = .next ((v.bump F.RTE_CNT_RX_DROP_COUNT).fenceKick p.qpn)) ∧
      (∀ q, v.shedAt 4 = false → p.icrcOk = true → p.op ≠ .unknown → v.qp p.qpn = some q → taken q →
        let w := (if p.ce then v.cnpBack p.qpn p.path else v).touchQp p.qpn
        (q.resident = false → exec c s = .next (((w.fetchCtx p.qpn).missPut p .context).fenceKick p.qpn)) ∧
        (q.resident = true → exec c s = .next ((w.pktGo p).fenceKick p.qpn))))) ∧
  (∀ (v : State) (n : Nat), (∀ e ∈ v.rte.miss, e.1.qpn = n → e.2 ≠ .fence) → v.fenceKick n = v) ∧
  (∀ (v : State) (p : Pkt) (y : MissWhy), (v.missUsed p.port + v.frameLen p ≤ 4 * 2 ^ 20 → (v.missPut p y).rte.miss = v.rte.miss ++ [(p, y)] ∧
      (v.missPut p y).rte.qps = v.rte.qps ∧ sameBytes v (v.missPut p y) ∧ sameTenants v (v.missPut p y)) ∧
    (4 * 2 ^ 20 < v.missUsed p.port + v.frameLen p → (v.missPut p y).rte = v.rte)) ∧
  (∀ (v : State) (n path : Nat) (q : Qp), v.qp n = some q →
    (v.fetchCtx n).qp n = some { q with fetching := q.fetching || !q.resident } ∧
    (let k := if qpSprayed q then path else 0
     let recent := (look q.cnpSent k).any fun t => v.up < t + v.getF (F.RTE_CC_LIMITS_CNP_INTERVAL_NS q.cc)
     (recent = true → v.cnpBack n path = v) ∧
     (recent = false → (v.cnpBack n path).getF F.RTE_CNT_CNP_TX_COUNT = (v.getF F.RTE_CNT_CNP_TX_COUNT + 1) % 2 ^ 32 ∧
       (v.cnpBack n path).qp n = some { q with cnpSent := put q.cnpSent k v.up } ∧ sameBytes v (v.cnpBack n path)))) ∧
  (∀ (v : State) (p : Pkt) (q : Qp), v.qp p.qpn = some q →
    (p.op = .ack → q.st < 2 ∨ q.st = 5 → v.pktGo p = v) ∧
    (p.op = .ack → 2 ≤ q.st → q.st ≠ 5 → ∃ g, (v.pktGo p).qp p.qpn = some g ∧ g.st = q.st ∧
      g.edge = (if psnSub p.argA q.edge < 2 ^ 23 then p.argA % 2 ^ 24 else q.edge) ∧
      ∀ x ∈ g.unacked, psnBelow x.psn g.edge = false ∨ q.order ≤ x.order) ∧
    (p.op = .nak → 2 ≤ q.st → q.st < 5 → (∃ k, p.nak = some (.status k)) ∨ p.nak = some .remoteAccess ∨ p.nak = some .invalidRequest ∨
        (q.rnrRetry ≤ q.rnrTries ∧ ∃ k, p.nak = some (.rnr k)) → ∃ g, (v.pktGo p).qp p.qpn = some g ∧ g.st = 5 ∧ g.work = [] ∧
      g.unacked = [] ∧ g.recvs = [] ∧ (v.pktGo p).getF F.RTE_STATUS_QP_ERROR = 1) ∧
    (p.op = .nak → 2 ≤ q.st → q.st < 5 → q.edge < 2 ^ 24 → q.rnrTries < q.rnrRetry → qpSprayed q = true → ∀ k, p.nak = some (.rnr k) → ∃ g,
      (v.pktGo p).qp p.qpn = some g ∧ g.waitRnr = true ∧ g.rnrTries = q.rnrTries + 1 ∧ g.st = q.st) ∧
    (p.op = .cnp → ∃ g, (v.pktGo p).qp p.qpn = some g ∧ (v.pktGo p).getF F.RTE_CNT_CNP_RX_COUNT = (v.getF F.RTE_CNT_CNP_RX_COUNT + 1) % 2 ^ 32 ∧
      sameBytes v (v.pktGo p) ∧ sameTenants v (v.pktGo p) ∧
      ∀ (i : Nat) (x : Path), q.paths[i]? = some x → g.paths[i]? = some (if i = (if qpSprayed q then p.path else 0) then { x with
        rate := max (v.getF (F.RTE_CC_LIMITS_MIN_RATE q.cc) * 100) (x.rate * (256 - v.getF (F.RTE_CC_DEC_FACTOR q.cc)) / 256) } else x)) ∧
    (p.op = .write → q.st = 5 → (∀ k, q.nak = some k → v.pktGo p = (v.bump F.RTE_CNT_NAK_COUNT).sendNak p.qpn p.psn k) ∧
      (q.nak = none → v.pktGo p = v)) ∧
    (p.op = .write → q.st ≠ 5 → p.psn < 2 ^ 24 →
      let x := q.resolve p
      let d := psnSub p.psn q.v
      let again := 2 ^ 23 ≤ d ∨ q.arrived.any (fun y => y.pkt.psn == p.psn) = true
      let held := ((v.slice q.slice).freezing = true ∨ (v.slice q.slice).state ≠ .active) ∧ q.begun x = false
      (again → ∃ g, (v.pktGo p).qp p.qpn = some g ∧ g.v = q.v ∧ g.arrived = q.arrived ∧ sameBytes v (v.pktGo p) ∧ sameTenants v (v.pktGo p)) ∧
      (¬ again → 1024 ≤ d → v.pktGo p = v.bump F.RTE_CNT_RX_DROP_COUNT) ∧
      (¬ again → d < 1024 → held → v.pktGo p = v.sendNak p.qpn p.psn (.rnr (fieldAt q.attr 74 1))) ∧
      (¬ again → d < 1024 → ¬ held → qpSprayed q = false → d ≠ 0 → v.pktGo p = (v.bump F.RTE_CNT_RX_DROP_COUNT).sendNak p.qpn q.v .sequence) ∧
      (¬ again → d < 1024 → ¬ held → qpSprayed q = true ∨ d = 0 →
        (v.keyCached x.key = false → v.pktGo p = (v.fetchKey (x.key / 256)).missPut x (.key (x.key / 256))) ∧
        (v.keyCached x.key = true → p.fence = true → psnBelow q.v (q.firstPsn x) = true ∨ q.pushing ≠ [] → v.pktGo p = v.missPut x .fence) ∧
        (v.keyCached x.key = true → p.fence = false →
          let st := v.keyCheck q.slice x.key .remoteWrite x.vaddr x.payload.length false
          let a := v.keyAt x.key x.vaddr
          (st ≠ stOk → ∃ g, (v.pktGo p).qp p.qpn = some g ∧ g.st = 5 ∧ g.v = q.v ∧ g.nak = some (nakFor q st) ∧
            (v.pktGo p).getF F.RTE_CNT_NAK_COUNT = (v.getF F.RTE_CNT_NAK_COUNT + 1) % 2 ^ 32) ∧
          (st = stOk → x.payload ≠ [] → v.rteReach q.slice true a x.payload.length = .ok →
            v.pktGo p = v.placeAt p.qpn x (some a) x.payload none ∧
            ((∀ h, a.1 ≠ .tier h) → q.arrived.any (fun y => y.pkt.psn == q.v) = false →
              (p.psn ≠ q.v → ∃ g y, (v.pktGo p).qp p.qpn = some g ∧ g.v = q.v ∧ g.arrived = q.arrived ++ [y] ∧ y.pkt = x ∧
                (v.pktGo p).mem = v.mem.write (a.1.at a.2) x.payload) ∧
              (p.psn = q.v → q.arrived = [] → q.pushing = [] → p.last = false ∨ q.pushLinks = [] → ∃ g, (v.pktGo p).qp p.qpn = some g ∧
                g.v = psnAdd q.v 1 ∧ g.arrived = [] ∧ g.st = q.st ∧ (v.pktGo p).mem = v.mem.write (a.1.at a.2) x.payload ∧
                (p.last = false → g.unreported = (if v.getF F.RTE_SACK_PACKETS ≤ q.unreported + 1 then 0 else q.unreported + 1)))))))))

/-- Timers and fetches of the RTE (R131, R134, R137, R138, R140, R144 to R146): each timer acts on the QP, path or packet that it names; a fetched context
is resident and a fetched key cached; a failed fetch puts the QP into ERROR; a packet that waits too long is dropped and counted; and a
drained key is free. Where the spec leaves a choice it is that of log entries 36 and 37. -/
def Obligations.RdmaTimersAndFetches : Prop :=
  (∀ (s : State) (k : BitVec 24) (q : Qp), s.qp k.toNat = some q →
    (0 < q.unreported → q.resident = true → s.hallPaused 5 = false → ∃ t, exec (.sackIntervalExpiry k) s = .next t ∧
      t.qp k.toNat = some { q with unreported := 0 } ∧ sameBytes s t ∧ sameTenants s t) ∧
    (q.unreported = 0 ∨ q.resident = false ∨ s.hallPaused 5 = true → exec (.sackIntervalExpiry k) s = .next s) ∧
    (∀ p, ∃ t g, exec (.recoveryTimerExpiry k p) s = .next t ∧ t = { s with rte := t.rte, time := t.time, since := t.since } ∧
      t.qp k.toNat = some g ∧ ∀ (i : Nat) (x : Path), q.paths[i]? = some x → g.paths[i]? = some (if i = p then
        { x with rate := min (s.lineRate q.port) (x.rate + s.getF (F.RTE_CC_STEP_STEP_MBPS q.cc)) } else x)) ∧
    (∀ m : BitVec 24, q.unacked.find? (fun y => y.psn == m.toNat && !y.placed) = none → exec (.rtoExpiry k m) s = .next s) ∧
    (∀ (m : BitVec 24) (x : SentPkt), q.unacked.find? (fun y => y.psn == m.toNat && !y.placed) = some x →
      let runs := q.resident = true ∧ s.shedAt 4 = false ∧ s.hallPaused 5 = false ∧ 2 ≤ q.st ∧ q.st ≠ 5
      (¬ runs → exec (.rtoExpiry k m) s = .next s) ∧
      (runs → q.retries ≤ x.tries → ∃ t g, exec (.rtoExpiry k m) s = .next t ∧ t.qp k.toNat = some g ∧ g.st = 5 ∧
        t.getF F.RTE_STATUS_QP_ERROR = 1) ∧
      (runs → x.tries < q.retries → ∃ t g y, exec (.rtoExpiry k m) s = .next t ∧ t.qp k.toNat = some g ∧ g.st = q.st ∧ y ∈ g.unacked ∧
        y.psn = m.toNat ∧ y.timeouts = x.timeouts + 1 ∧ y.tries = x.tries + 1 ∧ sameBytes s t)) ∧
    (∀ p, ∃ (w : State) (g : Qp), exec (.suspectProbeTimer k p) s = .next (w.pump k.toNat) ∧
      w = { s with rte := w.rte, time := w.time, since := w.since } ∧ w.qp k.toNat = some g ∧
      ∀ (i : Nat) (x : Path), q.paths[i]? = some x → g.paths[i]? = some (if i = p then { x with probe := x.suspect && x.probePsn.isNone } else x)) ∧
    (q.waitRnr = false → exec (.rnrTimerExpiry k) s = .next s) ∧
    (q.waitRnr = true → ∃ w : State, exec (.rnrTimerExpiry k) s = .next ((w.goBack k.toNat q.edge).pump k.toNat) ∧
      w = { s with rte := w.rte, time := w.time, since := w.since } ∧ w.qp k.toNat = some { q with waitRnr := false }) ∧
    (∀ l, let w := s.setQp k.toNat { q with pushing := q.pushing.filter (· != l) }
      (q.resident = true → exec (.pushReadDone k l) s = .next (w.edgeGo k.toNat)) ∧
      (q.resident = false → exec (.pushReadDone k l) s = .next (w.fetchCtx k.toNat))) ∧
    (q.fetching = false ∨ s.makeRoom = none → exec (.contextFetchDone k) s = .next s) ∧
    (∀ u, q.fetching = true → s.makeRoom = some u → ∃ (w : State) (g : Qp), exec (.contextFetchDone k) s =
        .next (((((w.edgeGo k.toNat).missTake fun e => e.1.qpn == k.toNat && e.2 == .context).fenceKick k.toNat).workSettle k.toNat).pump k.toNat) ∧
      w.qp k.toNat = some g ∧ g.resident = true ∧ g.fetching = false ∧ g.st = q.st ∧ g.v = q.v ∧ w.rte.miss = s.rte.miss ∧ sameBytes s w) ∧
    (q.fetching = false → exec (.contextFetchFault k) s = .next s) ∧
    (q.fetching = true → ∃ t g, exec (.contextFetchFault k) s = .next t ∧ t.qp k.toNat = some g ∧
      g.fetching = false ∧ t.getF F.RTE_STATUS_CTX_FAULT = 1 ∧ (q.st ≠ 5 → t.getF F.RTE_STATUS_QP_ERROR = 1) ∧ g.st = 5 ∧
      t.rte.miss = s.rte.miss.filter (fun e => !(e.1.qpn == k.toNat)) ∧ t.getF F.RTE_CNT_MISS_DROP_COUNT =
        (s.getF F.RTE_CNT_MISS_DROP_COUNT + (s.rte.miss.filter fun e => e.1.qpn == k.toNat).length) % 2 ^ 32) ∧
    (let l := s.rte.qps.filter (fun e => e.2.resident && e.2.unreported == 0 && !s.fenceWaits e.1);
      (q.fetching = false ∨ s.makeRoom ≠ none ∨ oldest l = none → exec (.ctxPinWaitTimeout k) s = .next s) ∧
      (∀ (i : Nat) (g : Qp), q.fetching = true → s.makeRoom = none → s.qp i = some g → oldest l = some i → ∃ t,
        exec (.ctxPinWaitTimeout k) s = .next t ∧ t.qp i = some { g with resident := false } ∧ (∀ j, j ≠ i → t.qp j = s.qp j) ∧ sameBytes s t))) ∧
  (∀ (s : State) (k : BitVec 24), look s.rte.keys k.toNat = none → ∀ c ∈ [Instr.keyFetchDone k, .revokeDrainDone k], exec c s = .next s) ∧
  (∀ (s : State) (k : BitVec 24) (y : Key), look s.rte.keys k.toNat = some y →
    (y.fetching = false → exec (.keyFetchDone k) s = .next s) ∧
    (y.fetching = true → ∃ w : State, exec (.keyFetchDone k) s = .next w.keyGo ∧
      look w.rte.keys k.toNat = some { y with fetching := false, cached := true } ∧ w.rte.qps = s.rte.qps ∧ w.rte.miss = s.rte.miss ∧ sameBytes s w ∧
      sameTenants s w ∧ (∃ out, ∀ j, j ≠ k.toNat → j ≠ out → look w.rte.keys j = look s.rte.keys j) ∧
      ((s.rte.keys.filter (·.2.cached)).length < keySlots → ∀ j, j ≠ k.toNat → look w.rte.keys j = look s.rte.keys j)) ∧
    (y.st ≠ 2 ∨ s.keyUsed k.toNat = true → exec (.revokeDrainDone k) s = .next s) ∧
    (y.st = 2 → s.keyUsed k.toNat = false → ∃ w : State, look w.rte.keys k.toNat = none ∧
      (∀ j, j ≠ k.toNat → look w.rte.keys j = look s.rte.keys j) ∧ w.rte.qps = s.rte.qps ∧ sameBytes s w ∧ sameTenants s w ∧
      (y.deregOp.bind s.op = none → exec (.revokeDrainDone k) s = .next w.keyGo) ∧
      (∀ o, y.deregOp.bind s.op = some o → exec (.revokeDrainDone k) s = .next ((w.ctlEnd o stOk 0 0).keyGo)))) ∧
  (∀ (s : State) (p : Fin 16), (s.rte.miss.find? (·.1.port == p.val) = none → exec (.missHoldTimeout p) s = .next s) ∧
    ∀ e, s.rte.miss.find? (·.1.port == p.val) = some e → ∃ t, exec (.missHoldTimeout p) s = .next t ∧
      t.rte.miss = s.rte.miss.eraseIdx (s.rte.miss.findIdx (·.1.port == p.val)) ∧ sameBytes s t ∧ sameTenants s t ∧
      (e.2 = .fence → t.getF F.RTE_CNT_HOLD_DROP_COUNT = (s.getF F.RTE_CNT_HOLD_DROP_COUNT + 1) % 2 ^ 32) ∧
      (e.2 ≠ .fence → t.getF F.RTE_CNT_MISS_DROP_COUNT = (s.getF F.RTE_CNT_MISS_DROP_COUNT + 1) % 2 ^ 32 ∧ t.getF F.RTE_STATUS_MISS_DROP = 1))

/-- Work requests, cancels and Clasp (R142, R145, R147, R150, R153 to R157, R173): a send ring's next work request starts when its QP may, is refused by name
when it breaks its table, is flushed in ERROR, or waits for its context or for a page; RECV joins the QP's receives; a WAIT holds its ring until its
counter reaches its threshold, its poll fails or it times out; and a cancel posts its result. Where the spec leaves a choice it is that of log entries 31,
32 and 37. -/
def Obligations.RdmaWorkRequests : Prop :=
  (∀ (s : State) (ring : BitVec 16) (d : Desc) (c : Instr) (opc : Nat),
    (c, opc) ∈ [(Instr.send ring d, 1), (.sendImm ring d, 2), (.write ring d, 3), (.writeImm ring d, 4), (.read ring d, 5),
      (.fetchAdd ring d, 6), (.cmpSwap ring d, 7)] → (wqeOpcode d = opc ∨ wqeOpcode d = 0 ∨ (7 < wqeOpcode d ∧ wqeOpcode d ≠ 15)) →
    (s.hallPaused 5 = true ∨ s.sqOf ring.toNat = none → exec c s = .next s) ∧
    (∀ n q, s.hallPaused 5 = false → s.sqOf ring.toNat = some (n, q) →
      (q.resident = false → exec c s = .next (s.fetchCtx n)) ∧
      (q.resident = true → s.sendReady q d = false ∨ s.fetch ring.toNat 1 (Desc.field d 0 4) d = none → exec c s = .next s) ∧
      (∀ (o : Op) (u : State), q.resident = true → s.sendReady q d = true → s.fetch ring.toNat 1 (Desc.field d 0 4) d = some (o, u) →
        (q.st = 5 → exec c s = .next (u.rteFail o.id stFlushed)) ∧
        (q.st ≠ 5 → wqeOpcode d ≠ opc ∨ wqeOk d = false → exec c s = .next (u.rteFail o.id stWqeInvalid)) ∧
        (q.st ≠ 5 → wqeOpcode d = opc → wqeOk d = true → exec c s = .next (u.wqeStart o))))) ∧
  (∀ (u : State) (o : Op) (n : Nat) (q : Qp), u.sqOf o.ring = some (n, q) → u.qp n = some q → (∀ w ∈ q.work, w.op ≠ o.id) →
    let opc := wqeOpcode o.desc
    let len := Desc.field o.desc 8 4
    let key := Desc.field o.desc 12 4
    let off := Desc.field o.desc 16 8
    let st := u.keyCheck q.slice key (if opc ≤ 4 then .localRead else .localWrite) off len false
    let reach := u.rteReach q.slice false (u.keyAt key off) len
    let reads := len ≠ 0 ∧ opc ≤ 4
    (q.st ≠ 5 → st ≠ stOk ∨ (reads ∧ ∃ e, reach = .fail e) → ∃ g, (u.wqeStart o).qp n = some g ∧ g.st = 5 ∧
      (u.wqeStart o).getF F.RTE_STATUS_QP_ERROR = 1) ∧
    (st = stOk → reads → reach = .wait → (o.id, PlcWait.fetch) ∈ (u.wqeStart o).plc.waits ∧ (u.wqeStart o).qp n = some q) ∧
    (st = stOk → ¬ reads ∨ reach = .ok → ∃ g w, (u.wqeStart o).qp n = some g ∧ w ∈ g.work ∧ w.op = o.id ∧ w.opcode = opc ∧ w.len = len ∧
      g.st = q.st ∧ sameBytes u (u.wqeStart o) ∧ (u.wqeStart o).rings = u.rings)) ∧
  (∀ (s : State) (ring : BitVec 16) (d : Desc),
    (s.hallPaused 5 = true ∨ s.rqOf ring.toNat = none → exec (.recv ring d) s = .next s) ∧
    ∀ (n : Nat) (q : Qp), s.rqOf ring.toNat = some (n, q) → s.hallPaused 5 = false →
      (q.resident = false → exec (.recv ring d) s = .next (s.fetchCtx n)) ∧
      (q.resident = true → s.fetch ring.toNat 2 (Desc.field d 0 4) d = none → exec (.recv ring d) s = .next s) ∧
      (∀ (o : Op) (u : State), q.resident = true → s.fetch ring.toNat 2 (Desc.field d 0 4) d = some (o, u) →
        (q.st = 5 → exec (.recv ring d) s = .next (u.rteFail o.id stFlushed)) ∧
        (q.st ≠ 5 → wqeOpcode d ≠ 8 ∨ wqeOk d = false → exec (.recv ring d) s = .next (u.rteFail o.id stWqeInvalid)) ∧
        (q.st ≠ 5 → wqeOpcode d = 8 → wqeOk d = true → s.qp n = some q → ∃ t, exec (.recv ring d) s = .next t ∧ t = { u with rte := t.rte } ∧
          t.qp n = some { q with recvs := q.recvs ++ [o.id] } ∧ ∀ j, j ≠ n → t.qp j = u.qp j))) ∧
  (∀ (s w : State) (m : Master) (i : BitVec 16), s.writeAt m R.RTE_CANCEL_CTRL = some w →
    let v := w.setF F.RTE_CANCEL_CTRL_SLICE i.toNat
    ∃ (u t : State) (r : CancelResult), exec (.rteCancel m i) s = .next t ∧ (r, u) = v.rteCancelTag i.toNat (v.reg R.RTE_CANCEL_TAG) ∧
      t.getF F.RTE_CANCEL_RESULT_RESULT = r.code ∧ regsBut [R.RTE_CANCEL_RESULT] u t ∧ sameWork u t ∧ (r ≠ .cancelled → u = v)) ∧
  (∀ (s : State) (ring : BitVec 16) (d : Desc) (r : Ring) (o : Op) (u : State), Desc.field d 4 1 = 0x0F → s.waitRing ring.toNat = true →
    s.ring ring.toNat = some r → ((r.kind = 1 ∨ r.kind = 4) → s.hallPaused 5 = false) → s.fetch ring.toNat r.kind (Desc.field d 0 4) d = some (o, u) →
    let flushed := r.kind == 1 && (u.sqOf ring.toNat).any (fun e => e.2.st == 5)
    let src := Desc.field d 6 1
    let x : Clasp := ⟨o.id, ring.toNat, o.owner, src, if src = 0 then Desc.field d 8 2 else Desc.field d 7 1, Desc.field d 16 8⟩
    (flushed = true → exec (.claspWait ring d) s = .next (u.rteFail o.id stFlushed)) ∧
    (flushed = false → ∃ v : State, v.clasps = u.clasps ++ [x] ∧ v.ring ring.toNat = some { r with fi := (r.fi + 1) % 65536, st := 3 } ∧
      v.ops = u.ops ∧ sameBytes u v ∧ sameEngines u v ∧
      (waitOk d = false → exec (.claspWait ring d) s = .next (v.waitEnd x (kindInvalid r.kind))) ∧
      (waitOk d = true → u.waitRights o.owner d = false → exec (.claspWait ring d) s = .next (v.waitEnd x stRights)) ∧
      (waitOk d = true → u.waitRights o.owner d = true → exec (.claspWait ring d) s = .next (State.claspSettle v.clasps.length v)))) ∧
  (∀ (s : State) (ring : BitVec 16) (d : Desc), s.waitRing ring.toNat = false →
    (∀ r n q, s.ring ring.toNat = some r → r.kind = 1 → s.sqOf ring.toNat = some (n, q) → q.resident = false →
      exec (.claspWait ring d) s = .next (s.fetchCtx n)) ∧
    ((∀ r n q, s.ring ring.toNat = some r → r.kind = 1 → s.sqOf ring.toNat = some (n, q) → q.resident = true) →
      exec (.claspWait ring d) s = .next s)) ∧
  (∀ (v : State) (n : Nat), (v.waitReady = none → State.claspSettle n v = v) ∧
    ∀ c, v.waitReady = some c → State.claspSettle (n + 1) v = State.claspSettle n (v.waitRecord c stOk)) ∧
  (∀ (s : State) (k : Nat), (s.waitOf k = none ∨ s.hallPaused 1 = true → exec (.claspTimeout k) s = .next s ∧ ∀ ok, exec (.claspPoll k ok) s = .next s) ∧
    ∀ c : Clasp, s.waitOf k = some c → s.hallPaused 1 = false →
    (c.source = 0 → ∀ ok, exec (.claspPoll k ok) s = .next s) ∧
    (c.source ≠ 0 → s.accelUp c.target = true → s.accelCounter c.target < c.threshold → exec (.claspPoll k true) s = .next s) ∧
    (c.source ≠ 0 → s.accelUp c.target = true → c.threshold ≤ s.accelCounter c.target → exec (.claspPoll k true) s = .next (s.waitEnd c stOk)) ∧
    (∀ ok, c.source ≠ 0 → ok = false ∨ s.accelUp c.target = false → ∃ t, exec (.claspPoll k ok) s = .next t ∧
      t.getF F.HST_STATUS_ACCESS_FAULT = 1 ∧ t.waitOf k = none ∧
      t = (s.waitEnd c stClaspFault).hostFault c.slice stClaspFault (s.accelBase c.target + s.accelCounterOff c.target)) ∧
    (let ms := (s.op k).elim 0 fun o => Desc.field o.desc 10 2
      ∃ u t : State, exec (.claspTimeout k) s = .next t ∧ t = u.waitEnd c stClaspTimeout ∧
        u = s.ripe (.op k) (10 ^ 6 * if ms = 0 then 10000 else ms) ∧ t.waitOf k = none ∧
        (∀ (r : Ring) (o : Op), s.ring c.ring = some r → s.op k = some o →
          t.getF F.SLC_CNT_CLASP_TIMEOUT = (s.getF F.SLC_CNT_CLASP_TIMEOUT + 1) % 2 ^ 32)))

/-- Control rings (R141, R144, R147, R152, R153; the choice of a QPN and of a key is log entry 33's): a command with a field that its opcode does not use, or
of an opcode that the ring does not have, ends with WQE_INVALID; QPs are made, move between the states of Table 06-12 alone, are queried and destroyed;
keys are made with a tag of their own and revoked. Order of checks and results follow log entries 34 and 38 to 40. -/
def Obligations.RdmaControlCommands : Prop :=
  (∀ (s : State) (ring : BitVec 16) (d : Desc) (c : Instr) (opc : Nat),
    (c, opc) ∈ [(Instr.createQp ring d, 0x10), (.modifyQp ring d, 0x11), (.queryQp ring d, 0x12), (.destroyQp ring d, 0x13),
      (.regMr ring d, 0x14), (.deregMr ring d, 0x15)] →
    let foreign := wqeOpcode d ≠ 15 ∧ (wqeOpcode d < 0x10 ∨ 0x15 < wqeOpcode d)
    (wqeOpcode d = opc ∨ foreign) →
    (s.hallPaused 5 = true ∨ s.fetch ring.toNat 4 (Desc.field d 0 4) d = none → exec c s = .next s) ∧
    (∀ o u, s.hallPaused 5 = false → s.fetch ring.toNat 4 (Desc.field d 0 4) d = some (o, u) → foreign ∨ Desc.only d (ctlFields d) = false →
      exec c s = .next (u.rteEnd o.id stWqeInvalid (rteWords 0 0 (wqeOpcode d) 0 0 0)))) ∧
  (∀ (s u : State) (ring : BitVec 16) (d : Desc) (o : Op), s.fetch ring.toNat 4 (Desc.field d 0 4) d = some (o, u) → s.hallPaused 5 = false →
    let v := u.commitOp o.id
    let n := Desc.field d 56 4
    let b := v.attrBlock o
    Desc.only d (ctlFields d) = true →
      (wqeOpcode d = 0x10 → (1 < fieldAt b 0 1 → exec (.createQp ring d) s = .next (v.ctlEnd o stWqeInvalid 0 0)) ∧
        (fieldAt b 0 1 ≤ 1 → (v.slice o.owner).qpQuota ≤ v.qpsUsed o.owner → exec (.createQp ring d) s = .next (v.ctlEnd o stRteQuota 0 0)) ∧
        (fieldAt b 0 1 ≤ 1 → v.qpsUsed o.owner < (v.slice o.owner).qpQuota → v.rte.qps.length < 2 ^ 20 - 2 → ∃ (w t : State) (j : Nat) (g : Qp),
          exec (.createQp ring d) s = .next t ∧ t = w.ctlEnd o stOk j 0 ∧ 2 ≤ j ∧ j < 2 ^ 20 ∧ v.qp j = none ∧ w.qp j = some g ∧ g.st = 0 ∧
          g.slice = o.owner ∧ fieldAt g.attr 0 1 = fieldAt b 0 1 ∧
          (∀ i, i ≠ j → w.qp i = v.qp i ∨ ∃ x, v.qp i = some x ∧ w.qp i = some { x with resident := false }) ∧ sameBytes v w ∧ sameTenants v w)) ∧
      (∀ c opc, (c, opc) ∈ [(Instr.modifyQp ring d, 0x11), (.queryQp ring d, 0x12), (.destroyQp ring d, 0x13)] → wqeOpcode d = opc →
        (v.qp n = none → exec c s = .next (v.ctlEnd o stQpState n 0)) ∧
        (∀ q, v.qp n = some q → q.slice ≠ o.owner → exec c s = .next (v.ctlEnd o stQpState n 0))) ∧
      (∀ q, v.qp n = some q → q.slice = o.owner →
        (wqeOpcode d = 0x11 →
          (5 < fieldAt b 1 1 → exec (.modifyQp ring d) s = .next (v.ctlEnd o stWqeInvalid n q.st)) ∧
          (fieldAt b 1 1 ≤ 5 → fieldAt b 1 1 ≠ 0 → q.st ≤ 5 → (q.st, fieldAt b 1 1) ∉ [(0, 1), (1, 2), (2, 3), (3, 4), (4, 3), (1, 5), (2, 5), (3, 5), (4, 5)] →
            exec (.modifyQp ring d) s = .next (v.ctlEnd o stQpState n q.st)) ∧
          (fieldAt b 1 1 = 0 → ∃ (w t : State) (g : Qp), exec (.modifyQp ring d) s = .next t ∧ t = w.ctlEnd o stOk n 0 ∧ w.qp n = some g ∧ g.st = 0 ∧
            g.slice = q.slice) ∧
          (q.st = 0 → fieldAt b 1 1 = 1 → v.initOk o.owner (qpSprayed q) b = false → exec (.modifyQp ring d) s =
            .next (v.ctlEnd o stWqeInvalid n 0)) ∧
          (q.st = 0 → fieldAt b 1 1 = 1 → v.initOk o.owner (qpSprayed q) b = true → bitAt (v.slice o.owner).netGrant (fieldAt b 2 1) = false →
            exec (.modifyQp ring d) s = .next (v.ctlEnd o stRights n 0)) ∧
          (q.st = 0 → fieldAt b 1 1 = 1 → v.initOk o.owner (qpSprayed q) b = true → bitAt (v.slice o.owner).netGrant (fieldAt b 2 1) = true →
            exec (.modifyQp ring d) s =
              .next ((v.setQp n { q with st := 1, attr := attrTake (attrTake q.attr b 2 2) b 8 8 }).ctlEnd o stOk n 1)) ∧
          (q.st = 1 → fieldAt b 1 1 = 2 → (rtrOk (qpSprayed q) b = false → exec (.modifyQp ring d) s = .next (v.ctlEnd o stWqeInvalid n 1)) ∧
            (rtrOk (qpSprayed q) b = true → ∃ (w t : State) (g : Qp), exec (.modifyQp ring d) s = .next t ∧ t = w.ctlEnd o stOk n 2 ∧
              w.qp n = some g ∧ g.st = 2 ∧ g.v = fieldAt g.attr 68 3 ∧ g.paths = v.freshPaths g ∧ w = v.setQp n g)) ∧
          (q.st = 2 → fieldAt b 1 1 = 3 →
            let fits := retryOk b = true ∧ 1 ≤ fieldAt b 75 1 ∧ fieldAt b 75 1 ≤ 16
            (¬ fits → exec (.modifyQp ring d) s = .next (v.ctlEnd o stWqeInvalid n 2)) ∧
            (fits → ∃ (w t : State) (g : Qp),
              exec (.modifyQp ring d) s = .next t ∧ t = w.ctlEnd o stOk n 3 ∧ g.st = 3 ∧ g.nextPsn = fieldAt g.attr 64 3 ∧
              g.edge = g.nextPsn ∧ g.paths = v.freshPaths g ∧ g.rto = v.firstRto g.attr ∧ w = v.setQp n g)) ∧
          (q.st = 3 → fieldAt b 1 1 = 4 → ∃ g : Qp, exec (.modifyQp ring d) s = .next ((v.setQp n g).sqdSettle n) ∧ g.st = 4 ∧ g.work = q.work ∧
            g.sqdOps = q.sqdOps ++ [(o.id, q.work.map (·.op))]) ∧
          (q.st = 4 → fieldAt b 1 1 = 3 → (retryOk b = false → exec (.modifyQp ring d) s = .next (v.ctlEnd o stWqeInvalid n 4)) ∧
            (retryOk b = true → ∃ g : Qp, exec (.modifyQp ring d) s = .next (((v.setQp n g).ctlEnd o stOk n 3).pump n) ∧ g.st = 3 ∧
              g.rto = v.firstRto g.attr ∧ g.work = q.work)) ∧
          (1 ≤ q.st → q.st ≤ 4 → fieldAt b 1 1 = 5 → ∃ (w t : State) (g : Qp), exec (.modifyQp ring d) s = .next t ∧ t = w.ctlEnd o stOk n 5 ∧
            w.qp n = some g ∧ g.st = 5 ∧ w.getF F.RTE_STATUS_QP_ERROR = 1)) ∧
        (wqeOpcode d = 0x12 → ∃ w t : State, exec (.queryQp ring d) s = .next t ∧ t = w.ctlEnd o stOk n q.st ∧
          w.mem = v.mem.write ((v.slice o.owner).space.at (Desc.field d 40 8)) (q.attr.set 1 (BitVec.ofNat 8 q.st)) ∧ w = { v with mem := w.mem }) ∧
        (wqeOpcode d = 0x13 → (q.st ≠ 0 → q.st ≠ 5 → exec (.destroyQp ring d) s = .next (v.ctlEnd o stQpState n 0)) ∧
          (q.st = 0 ∨ q.st = 5 → ∃ w t : State, exec (.destroyQp ring d) s = .next t ∧ t = w.ctlEnd o stOk n 0 ∧
            w.qp n = none ∧ (∀ i, i ≠ n → w.qp i = v.qp i) ∧ sameBytes v w ∧ sameTenants v w))) ∧
      (wqeOpcode d = 0x14 →
        let rights := Desc.bits d 420 416
        let space := Desc.bits d 425 424
        let bad := space = 3 ∨ ((bitAt rights 3 ∨ bitAt rights 4) ∧ !bitAt rights 1)
        let st := v.regionStatus o.owner space (Desc.bits d 415 384) (Desc.bits d 434 432) (Desc.field d 24 8) (Desc.field d 40 8)
        (bad → exec (.regMr ring d) s = .next (v.ctlEnd o stWqeInvalid 0 0)) ∧
        (¬ bad → st ≠ stOk → exec (.regMr ring d) s = .next (v.ctlEnd o st 0 0)) ∧
        (¬ bad → st = stOk → (v.slice o.owner).keyQuota ≤ v.keysUsed o.owner → exec (.regMr ring d) s = .next (v.ctlEnd o stRteQuota 0 0)) ∧
        (¬ bad → st = stOk → v.keysUsed o.owner < (v.slice o.owner).keyQuota → v.rte.keys.length < 2 ^ 24 - 1 → ∃ (w t : State) (j : Nat) (k : Key),
          exec (.regMr ring d) s = .next t ∧ t = w.rteEnd o.id stOk (rteWords 0 (256 * j + k.tag) 0x14 0 0 0) ∧ 1 ≤ j ∧ j < 2 ^ 24 ∧
          look v.rte.keys j = none ∧ look w.rte.keys j = some k ∧ k.tag = (lookD v.rte.tags j 0 + 1) % 256 ∧ k.st = 1 ∧ k.slice = o.owner ∧
          k.rights = rights ∧ k.base = Desc.field d 24 8 ∧ k.len = Desc.field d 40 8 ∧ (∀ i, i ≠ j → look w.rte.keys i = look v.rte.keys i) ∧
          sameBytes v w ∧ sameTenants v w)) ∧
      (wqeOpcode d = 0x15 →
        let key := Desc.field d 12 4
        (look v.rte.keys (key / 256) = none → exec (.deregMr ring d) s = .next (v.ctlEnd o stKeyInvalid 0 0)) ∧
        (∀ k, look v.rte.keys (key / 256) = some k →
          (k.tag ≠ key % 256 ∨ k.slice ≠ o.owner → exec (.deregMr ring d) s = .next (v.ctlEnd o stKeyInvalid 0 0)) ∧
          (k.tag = key % 256 → k.slice = o.owner → k.st = 2 → exec (.deregMr ring d) s = .next (v.ctlEnd o stKeyRevoked 0 0)) ∧
          (k.tag = key % 256 → k.slice = o.owner → k.st ≠ 2 → ∃ t, exec (.deregMr ring d) s = .next t ∧ t = { v with rte := t.rte } ∧
            look t.rte.keys (key / 256) = some { k with st := 2, deregOp := some o.id } ∧
            ∀ i, i ≠ key / 256 → look t.rte.keys i = look v.rte.keys i))))
/-! ### The placement engine (chapter 07) -/

/-- Placement commands (R160 to R165, R172 to R175, R178, R182, R183): a ring fetches the next; FENCE holds it behind earlier commands of its ring, and a
pause of H0 or H8 what reads or writes memory; one that its fields do not allow, or whose object, tiers or pages refuse it, completes with the status of its
first failing check; another does its work and completes, waits for demand fetches, or for its pages to settle. A
page in T2 stands in the host memory of its pool (R160). Fields that log entry 27 settles, the free index and frames of entries 26 and 33, and what
entry 137 says of the pools of T3 and T4 are the model's choices. -/
def Obligations.PlacementCommands : Prop :=
  (∀ (s : State) (q : BitVec 16) (d : Desc) (x : Instr) (opc : Nat),
    (x, opc) ∈ [(Instr.alloc q d, 1), (.free q d, 2), (.hint q d, 3), (.get q d, 4), (.put q d, 5), (.map q d, 6), (.unmap q d, 7),
      (.poolAdd q d, 8), (.poolRemove q d, 9), (.setCopies q d, 10), (.resolve q d, 11), (.query q d, 12)] →
    let mine := plcOpcode d = opc ∨ plcOpcode d = 0 ∨ (12 < plcOpcode d ∧ plcOpcode d ≠ 15)
    (¬ mine → exec x s = .next s) ∧
    (mine → s.fetch q.toNat 0x07 (Desc.tag d) d = none → exec x s = .next s) ∧
    (∀ (o : Op) (u : State), mine → s.fetch q.toNat 0x07 (Desc.tag d) d = some (o, u) →
      let fenced := (Desc.bits d 41 41 = 1 ∧ u.ringFront o = false) ∨
        u.plc.waits.any (fun w => w.2 == .fence && ((u.op w.1).map (·.ring)) == some o.ring) = true
      (fenced → exec x s = .next (u.plcHold o .fence).plcKick) ∧
      (¬ fenced → u.plcPaused o = true → exec x s = .next (u.plcHold o .pause).plcKick) ∧
      (¬ fenced → u.plcPaused o = false → plcDescOk d = false → exec x s = .next (u.plcEnd o stPlcInvalid 0 0).plcKick) ∧
      (plcOpcode d ≠ opc → plcDescOk d = false) ∧
      (¬ fenced → u.plcPaused o = false → plcDescOk d = true → u.canDma (u.ownerFn o.owner) = false →
        exec x s = .next (u.plcEnd o stMasterDisabled 0 0).plcKick) ∧
      (¬ fenced → u.plcPaused o = false → plcDescOk d = true → u.canDma (u.ownerFn o.owner) = true →
        exec x s = .next (match opc with
          | 1 => u.plcAlloc o | 2 => u.plcFree o | 3 => u.plcHint o | 4 => u.plcGet o | 5 => u.plcPut o | 6 => u.plcMap o | 7 => u.plcUnmap o
          | 8 => u.plcPoolAdd o | 9 => u.plcPoolRemove o | 10 => u.plcSetCopies o | 11 => u.plcResolve o | _ => u.plcQuery o : State).plcKick))) ∧
  (∀ (u : State) (o : Op),
    let d := o.desc
    let n := plcLength d
    let off := plcOffset d
    let i := o.owner
    let pages := ceilDiv n pageLen
    let c := (plcHints d).1
    let f := (plcHints d).2
    let ap := (apRange d).1
    let len := (apRange d).2
    let host := (u.slice i).space.at (plcHost d)
    let blk := u.mem.read host 64
    let busy := u.plc.maps.any (fun m => m.port == (u.slice i).port && ap ≤ m.ap && m.ap < ap + len)
    let set := Desc.bits d 42 42 = 1
    let stF := u.reserveStatus i f (if plcCopies d = 2 ∧ Desc.bits d 82 80 = f then 2 * pages else pages)
    let stR := if plcCopies d = 2 then u.reserveStatus i (Desc.bits d 82 80) pages else stOk
    ((f < c ∨ 4 < f → u.plcAlloc o = u.plcEnd o stHintConflict 0 0) ∧
      (c ≤ f → f ≤ 4 → stF ≠ stOk → u.plcAlloc o = u.plcEnd o stF 0 0) ∧
      (c ≤ f → f ≤ 4 → stF = stOk → stR ≠ stOk → u.plcAlloc o = u.plcEnd o stR 0 0) ∧
      (c ≤ f → f ≤ 4 → stF = stOk → stR = stOk → (∀ k, 1 ≤ k → k < 2 ^ 20 → u.obj k ≠ none) → u.plcAlloc o = u.plcEnd o stNoSpace 0 0) ∧
      (c ≤ f → f ≤ 4 → stF = stOk → stR = stOk → u.plc.objs.length < 2 ^ 20 - 1 → ∃ (k : Nat) (v : State) (x : TObj),
        1 ≤ k ∧ k < 2 ^ 20 ∧ u.obj k = none ∧ u.plcAlloc o = v.plcEnd o stOk (k * 256 + x.tag) 0 ∧ v.obj k = some x ∧
        x = ⟨(lookD u.plc.tags k 255 + 1) % 256, i, pages, Desc.bits d 51 48, c, f, Desc.bits d 79 79 == 1, Desc.bits d 86 84, plcCopies d,
          if plcCopies d = 2 then Desc.bits d 82 80 else 0, false, []⟩ ∧ (∀ j, j ≠ k → v.obj j = u.obj j) ∧
        v.regs = u.regs ∧ sameBytes u v ∧ sameTenants u v)) ∧
    (u.tierObj i (plcHandle d) = none →
      u.plcFree o = u.plcEnd o stKeyInvalid 0 0 ∧ u.plcHint o = u.plcEnd o stKeyInvalid 0 0 ∧ u.plcGet o = u.plcEnd o stKeyInvalid 0 0 ∧
      u.plcPut o = u.plcEnd o stKeyInvalid 0 0 ∧ u.plcMap o = u.plcEnd o stKeyInvalid 0 0 ∧ u.plcUnmap o = u.plcEnd o stKeyInvalid 0 0 ∧
      u.plcSetCopies o = u.plcEnd o stKeyInvalid 0 0 ∧ u.plcResolve o = u.plcEnd o stKeyInvalid 0 0 ∧ u.plcQuery o = u.plcEnd o stKeyInvalid 0 0) ∧
    (∀ k x, u.tierObj i (plcHandle d) = some (k, x) →
      let st := u.tierCheck i (plcHandle d) off n
      let at0 := (Space.tier (plcHandle d)).at off
      let at1 := (Space.tierCopy (plcHandle d)).at off
      (u.flights.any (fun e => e.2.bindsObj k) = true → u.plcFree o = u.plcEnd o stObjectBusy 0 0) ∧
      (u.flights.any (fun e => e.2.bindsObj k) = false → ∃ v : State, u.plcFree o = v.plcEnd o stOk 0 0 ∧ v.obj k = none ∧
        v.mapped k = false ∧ (∀ j, j ≠ k → v.obj j = u.obj j) ∧ sameTenants u v) ∧
      (x.discord = true → ∀ w ∈ [u.plcHint o, u.plcUnmap o, u.plcSetCopies o], w = u.plcEnd o stDiscord 0 0) ∧
      (x.discord = false →
        (f < c ∨ 4 < f ∨ (u.mapped k = true ∧ 3 < f) → u.plcHint o = u.plcEnd o stHintConflict 0 0) ∧
        (c ≤ f → f ≤ 4 → (u.mapped k = true → f ≤ 3) →
          let v := u.setObj k { x with ceil := c, floor := f, pin := Desc.bits d 79 79 == 1 }
          (f ≠ u.floorOf k x → v.fitStatus i f ≠ stOk → u.plcHint o = u.plcEnd o (v.fitStatus i f) 0 0) ∧
          (f = u.floorOf k x ∨ v.fitStatus i f = stOk →
            (¬ set ∨ v.settled d = true → u.plcHint o = (v.commitOp o.id).plcEnd o stOk 0 0) ∧
            (set → v.settled d = false → u.plcHint o = (v.commitOp o.id).plcHold o .settle))) ∧
        (u.plcUnmap o = ({ u with plc := { u.plc with maps := u.plc.maps.filter fun m =>
          !(m.port == (u.slice i).port && m.obj == k && ap ≤ m.ap && m.ap < ap + len) } } : State).plcEnd o stOk 0 0) ∧
        (plcCopies d = 1 → ∃ v : State, v.obj k = some { x with
            copies := 1, repTier := 0, page := x.page.map fun g => (g.1, { g.2 with rep := none, c0 := .intact, c1 := .intact }) } ∧
          (∀ j, j ≠ k → v.obj j = u.obj j) ∧ (u.plc.retiring = [] → v.mem = u.mem.clear ((Space.tierCopy (x.handle k)).at 0) (2 ^ 64) ∧ v.regs = u.regs) ∧
          (¬ set ∨ v.settled d = true → u.plcSetCopies o = (v.commitOp o.id).plcEnd o stOk 0 0) ∧
          (set → v.settled d = false → u.plcSetCopies o = (v.commitOp o.id).plcHold o .settle)) ∧
        (plcCopies d = 2 →
          let r := Desc.bits d 82 80
          (¬ (x.copies = 2 ∧ x.repTier = r) → u.reserveStatus i r x.pages ≠ stOk →
            u.plcSetCopies o = u.plcEnd o (u.reserveStatus i r x.pages) 0 0) ∧
          ((x.copies = 2 ∧ x.repTier = r) ∨ u.reserveStatus i r x.pages = stOk → ∃ v : State,
            (x.copies = 2 ∧ x.repTier = r → v = u) ∧
            (¬ (x.copies = 2 ∧ x.repTier = r) → v.obj k = some { x with
              copies := 2, repTier := r, page := x.page.map fun g => (g.1, { g.2 with rep := none, c1 := .intact }) } ∧
              (∀ j, j ≠ k → v.obj j = u.obj j) ∧ (u.plc.retiring = [] → v.mem = u.mem ∧ v.regs = u.regs)) ∧
            (¬ set ∨ v.settled d = true → u.plcSetCopies o = (v.commitOp o.id).plcEnd o stOk 0 0) ∧
            (set → v.settled d = false → u.plcSetCopies o = (v.commitOp o.id).plcHold o .settle)))) ∧
      (¬ (st = stOk ∨ (st = stDiscord ∧ Desc.bits d 89 89 = 1)) → u.plcGet o = u.plcEnd o st 0 0) ∧
      (st = stOk ∨ (st = stDiscord ∧ Desc.bits d 89 89 = 1) →
        let src := if Desc.bits d 89 89 = 1 ∧ Desc.bits d 88 88 = 1 ∧ x.copies = 2 then 1 else 0
        (∀ e, u.rangeReach k x false (pagesIn off n) = .fail e → u.plcGet o = u.plcEnd o e 0 0) ∧
        (u.rangeReach k x false (pagesIn off n) = .wait → u.plcGet o = u.plcFetches o k false (pagesIn off n)) ∧
        (u.rangeReach k x false (pagesIn off n) = .ok → ∃ v : State, u.plcGet o = v.plcEnd o stOk n 0 ∧
          v.mem = u.mem.write host (u.objBytes x k src off n) ∧ v.rings = u.rings ∧ v.regs = u.regs ∧ (∀ j, j ≠ k → v.obj j = u.obj j) ∧
          ∃ y, v.obj k = some y ∧ y = { x with page := y.page } ∧ ∀ p, y.at p = if p ∈ pagesIn off n then
            { x.at p with heat := min 65535 ((x.at p).heat + blocksIn off n p) } else x.at p)) ∧
      (st ≠ stOk → u.plcPut o = u.plcEnd o st 0 0) ∧
      (st = stOk →
        (∀ e, u.rangeReach k x true (pagesIn off n) = .fail e → u.plcPut o = u.plcEnd o e 0 0) ∧
        (u.rangeReach k x true (pagesIn off n) = .wait → u.plcPut o = u.plcFetches o k true (pagesIn off n)) ∧
        (u.rangeReach k x true (pagesIn off n) = .ok → off + n ≤ 2 ^ 64 → ∃ v : State, u.plcPut o = v.plcEnd o stOk n 0 ∧ v.rings = u.rings ∧
          (∀ p b q, off / pageLen = p → off % pageLen + n ≤ pageLen → (x.at p).loc = some (2, b) → (x.at p).c0 = .intact → (x.at p).lost = false →
            x.copies = 1 → look u.plc.pools (b / 2 ^ 48) = some q →
            v.mem = u.mem.write ((u.slice (b / 2 ^ 48 / 16)).space.at (q.base + b % 2 ^ 48 * pageLen) + off % pageLen) (u.mem.read host n)) ∧
          (x.inHost = false → (∀ e ∈ u.plc.pools, e.1 / 16 = i → e.2.tier ≠ 2) →
          (∀ a, (a < at0 ∨ at0 + n ≤ a) → (a < at1 ∨ at1 + n ≤ a ∨ x.copies ≠ 2) → v.mem.get a = u.mem.get a) ∧
          ∀ j < n,
            let p := (off + j) / pageLen
            let part := min (off + n) ((p + 1) * pageLen) - max off (p * pageLen)
            let kept := (x.at p).lost = true ∧ part < pageLen
            (kept → v.mem.get (at0 + j) = u.mem.get (at0 + j)) ∧
            (¬ kept → v.mem.get (at0 + j) = u.mem.get (host + j)) ∧
            (¬ kept → x.copies = 2 → (x.at p).loc ≠ none → u.copyTakes (x.at p) = true → v.mem.get (at1 + j) = u.mem.get (host + j)) ∧
            (¬ kept → x.copies = 2 → (x.at p).loc ≠ none → u.copyTakes (x.at p) = false → v.mem.get (at1 + j) = u.mem.get (at1 + j))))) ∧
      (st ≠ stOk → u.plcMap o = u.plcEnd o st 0 0) ∧
      (st = stOk → 32768 < ap + len → u.plcMap o = u.plcEnd o stBounds 0 0) ∧
      (st = stOk → ap + len ≤ 32768 → busy = true → u.plcMap o = u.plcEnd o stObjectBusy 0 0) ∧
      (st = stOk → ap + len ≤ 32768 → busy = false →
        let v : State := { u with plc := { u.plc with maps := u.plc.maps ++ (List.range len).map (fun j =>
          (⟨(u.slice i).port, ap + j, k, off / pageLen + j, Desc.bits d 336 336 == 1, Desc.bits d 337 337 == 1⟩ : ApMap)) } }
        let w := v.commitOp o.id
        let low := ((List.range len).map (off / pageLen + ·)).filter fun p => (x.at p).loc.any fun u => u.1 == 4
        let fit := if u.floorOf k x = 4 then v.fitStatus i 3 else stOk
        (x.ceil = 4 → u.plcMap o = u.plcEnd o stHintConflict 0 0) ∧
        (x.ceil ≠ 4 → fit ≠ stOk → u.plcMap o = u.plcEnd o fit 0 0) ∧
        (x.ceil ≠ 4 → fit = stOk →
          (w.pagesReach x false low = .ok → u.plcMap o = w.plcEnd o stOk 0 0) ∧
          (∀ e, w.pagesReach x false low = .fail e → u.plcMap o = w.mapFail o e) ∧
          (w.pagesReach x false low = .wait → u.plcMap o = w.plcFetches o k false low))) ∧
      (x.discord = false → u.plcResolve o = u.plcEnd o stOk 0 0) ∧
      (x.discord = true → u.mem.wf = true → ∃ (v : State) (y : TObj), u.plcResolve o = v.plcEnd o stOk 0 0 ∧ v.obj k = some y ∧
        y = { x with discord := false, page := y.page } ∧ (∀ j, j ≠ k → v.obj j = u.obj j) ∧
        (let c := Desc.bits d 88 88;
          v.mem = (x.page.map (·.1)).foldl (fun m p => m.carry (u.home x k p c (x.at p)) (u.home x k p (1 - c) (x.at p)) pageLen) u.mem) ∧
        ∀ p g, look x.page p = some g → look y.page p = some { g with gen0 := max g.gen0 g.gen1, gen1 := max g.gen0 g.gen1 } ∧
          (x.inHost = false → (p + 1) * pageLen ≤ 2 ^ 64 → ∀ j < pageLen,
            let a := (Space.tier (plcHandle d)).at (p * pageLen) + j
            let b := (Space.tierCopy (plcHandle d)).at (p * pageLen) + j
            let r := u.mem.get (if Desc.bits d 88 88 = 0 then a else b)
            v.mem.get a = r ∧ v.mem.get b = r)) ∧
      (u.plcQuery o = u.plcEnd o stOk (x.inTier 0)
        (x.inTier 1 + 2 ^ 32 * (x.inTier 2 + 2 ^ 32 * (min (x.inTier 3) 65535 + 2 ^ 16 * min (x.inTier 4) 65535))))) ∧
    (let t := fieldAt blk 0 1
      let qpOk := ∃ y, look u.rte.qps (fieldAt blk 4 4) = some y ∧ y.slice = i ∧ qpSprayed y = true
      let beOk := u.backendStated (fieldAt blk 1 1) = true ∧ u.getF (F.NVS_BE_STATE (fieldAt blk 1 1)) = 2
      (poolBlockOk blk = false → u.plcPoolAdd o = u.plcEnd o stPlcInvalid 0 0) ∧
      (poolBlockOk blk = true → (t = 3 ∧ ¬ qpOk) ∨ (t = 4 ∧ ¬ beOk) → u.plcPoolAdd o = u.plcEnd o stPoolFault 0 0) ∧
      (poolBlockOk blk = true → (t = 3 → qpOk) → (t = 4 → beOk) →
        ((∀ j < 16, look u.plc.pools (16 * i + j) ≠ none) → u.plcPoolAdd o = u.plcEnd o stNoSpace 0 0) ∧
        (∀ j < 16, look u.plc.pools (16 * i + j) = none → (∀ g < j, look u.plc.pools (16 * i + g) ≠ none) → u.plcPoolAdd o =
          ({ u with plc := { u.plc with pools := (put u.plc.pools (16 * i + j)
            (⟨t, fieldAt blk 1 1, fieldAt blk 4 4, fieldAt blk 8 8, fieldAt blk 16 8 / pageLen, fieldAt blk 24 4⟩ : Pool)) } } : State).plcEnd o stOk j 0))) ∧
    (let j := Desc.bits d 335 320
      let key := 16 * i + j
      (16 ≤ j ∨ look u.plc.pools key = none → u.plcPoolRemove o = u.plcEnd o stKeyInvalid 0 0) ∧
      (∀ p, j < 16 → look u.plc.pools key = some p →
        let mine := u.plc.objs.filter fun e => e.2.slice == i
        let ps := mine.flatMap fun e => (pagesInPool key e.2).map fun g => (e.1, g)
        let rs := mine.flatMap fun e => (repsInPool key e.2).map fun g => (e.1, g)
        let h := rs.foldl (fun (s : State) e => s.takeIn e.1 e.2 1) (ps.foldl (fun (s : State) e => s.takeIn e.1 e.2 0) u)
        let v : State := { h with plc := { u.plc with pools := drop u.plc.pools key } }
        let moved := ps.foldl (fun (a : Option State) e => a.bind fun s => s.movePageOut e.1 e.2) (some v)
        let moved := rs.foldl (fun (a : Option State) e => a.bind fun s => s.moveRepOut e.1 e.2) moved
        (moved = none → u.plcPoolRemove o = u.plcEnd o stNoSpace 0 0) ∧
        (∀ w, moved = some w → w.tierTotal i p.tier < w.tierUsed i p.tier → u.plcPoolRemove o = u.plcEnd o stNoSpace 0 0) ∧
        (∀ w, moved = some w → w.tierUsed i p.tier ≤ w.tierTotal i p.tier → u.plcPoolRemove o = w.plcEnd o stOk 0 0) ∧
        ((∀ e ∈ mine, pagesInPool key e.2 = [] ∧ repsInPool key e.2 = []) → moved = some v)))) ∧
  (∀ (s w : State) (k p : Nat) (x : TObj), s.obj k = some x → s.movePageOut k p = some w → ∃ t f, s.floorOf k x = t ∨ x.ceil ≤ t ∧ t ≤ s.floorOf k x ∧
    ∃ y, w.obj k = some y ∧ y.at p = { x.at p with loc := some (t, f) } ∧ (∀ j, j ≠ p → y.at j = x.at j) ∧
    w.mem = s.mem.carry (s.home x k p 0 (x.at p)) (s.home x k p 0 (y.at p)) pageLen) ∧
  (∀ (s : State) (x : TObj) (k p c : Nat) (g : TPage), c < 2 →
    let l := if c = 0 then g.loc else g.rep
    let here := (if c = 0 then Space.tier (x.handle k) else Space.tierCopy (x.handle k)).at (p * pageLen)
    (l.map (·.1) ≠ some 2 ∨ (if c = 0 then g.c0 else g.c1) ≠ .intact → s.home x k p c g = here) ∧
    (∀ b q, l = some (2, b) → (if c = 0 then g.c0 else g.c1) = .intact → look s.plc.pools (b / 2 ^ 48) = some q →
      s.home x k p c g = (s.slice (b / 2 ^ 48 / 16)).space.at (q.base + b % 2 ^ 48 * pageLen))) ∧
  (∀ (s : State) (x : TObj) (k c off n : Nat), c < 2 →
    (x.inHost = false → off + n ≤ 2 ^ 64 →
      s.objBytes x k c off n = s.mem.read ((if c = 0 then Space.tier (x.handle k) else Space.tierCopy (x.handle k)).at off) n) ∧
    (off % pageLen + n ≤ pageLen →
      s.objBytes x k c off n = s.mem.read (s.home x k (off / pageLen) c (x.at (off / pageLen)) + off % pageLen) n)) ∧
  (∀ (s : State) (o : Op) (st value engine : Nat), ∃ w : State, w.ops = s.ops ∧ w.plc = { s.plc with waits := s.plc.waits.filter (·.1 != o.id) } ∧
    w.mem = s.mem ∧ w.rings = s.rings ∧ (st ≠ stPoolFault → w.regs = s.regs) ∧ (st = stPoolFault → w.getF F.PLC_STATUS_POOL_FAULT = 1) ∧
    let late := ((s.op o.id).map (·.deferred)).getD false = true ∧ plcOpcode o.desc ∈ [3, 4, 5, 10]
    (st = stOk → late → s.plcEnd o st value engine =
      w.finish o.id stEnergyDeferred (value + 2 ^ 32 * (engine % 2 ^ 32)) (engine / 2 ^ 32)) ∧
    (st ≠ stOk ∨ ¬ late → s.plcEnd o st value engine = w.finish o.id st (value + 2 ^ 32 * (engine % 2 ^ 32)) (engine / 2 ^ 32)))

/-- The placement engine's own events (R163, R166 to R170, R173, R175 to R180, R183). A command that waits for its pages ends once they have settled or its
limit passes; the limit of a demand fetch ends a placement command or a work request with POOL_FAULT and an aperture access as on a pool out of reach; a
fetch waits for a stage, a pause, a frame or the Coffer, or begins as a move to the highest tier with room, charged to its slice; and a cancel posts its
result. A decay lowers the heat of every page and gives the candidates of the curve; moves start in the order of their kinds, one a command, when the
Coffer admits them, the next of the queue that finds a destination first; a full tier demotes a colder page for a promotion; a move switches the page map at
its last block, frees its source once drained, which retires a retiring frame, or is abandoned. A comparison of the copies of a page, which PERIOD_H 0
disables unless a read met an uncorrectable error, finds them equal, rewrites the older, quarantines the object of two of one age, uses the good one where a
copy failed, whose frame is retired, and makes the page LOST where both did. Model's choices: which frame is taken (log entry 26), how time moves (7), a
failed MAP leaves no mapping (27), a promotion that its own quota blocks is dropped and reads see the intact copy until a repair has run (137). -/
def Obligations.PlacementEvents : Prop :=
  (∀ (s : State) (k : Nat) (o : Op), s.op k = some o →
    (s.plc.waits.contains (k, .settle) = true →
      (s.settled o.desc = true → exec (.settleDone k) s = .next (s.plcEnd o stOk 0 0).plcKick) ∧
      (s.settled o.desc = false → exec (.settleDone k) s = .next s) ∧
      exec (.settleTimeout k) s = .next ((s.ripe (.op k) (10 ^ 6 * settleMs o.desc)).plcEnd o stSettleTimeout 0 0).plcKick) ∧
    (s.plc.waits.contains (k, .fetch) = true →
      let v := s.ripe (.op k) s.fetchWaitNs
      (o.src = 0x05 → exec (.fetchWaitTimeout k) s = .next ((v.poolFault stPoolFault).qpError (v.wqeQpn o) (some (k, stPoolFault)))) ∧
      (o.src ≠ 0x05 → plcOpcode o.desc = 6 → exec (.fetchWaitTimeout k) s = .next (v.mapFail o stPoolFault).plcKick) ∧
      (o.src ≠ 0x05 → plcOpcode o.desc ≠ 6 → exec (.fetchWaitTimeout k) s = .next (v.plcEnd o stPoolFault 0 0).plcKick))) ∧
  (∀ (s : State) (k : Nat), (s.op k = none ∨ s.plc.waits.contains (k, .settle) = false) →
    ∀ c ∈ [Instr.settleDone k, .settleTimeout k], exec c s = .next s) ∧
  (∀ (s : State) (k : Nat), s.plc.waits.contains (k, .fetch) = false →
    (∀ b, s.plc.bars.find? (·.id == k) = some b → exec (.fetchWaitTimeout k) s =
      let v := s.ripe (.op k) s.fetchWaitNs
      .next (({ v with plc := { v.plc with bars := v.plc.bars.filter (·.id != k) } } : State).barFault b)) ∧
    (s.plc.bars.find? (·.id == k) = none →
      exec (.fetchWaitTimeout k) s = .next (((s.headTimeout k).galWaitTimeout k).flightWaitTimeout k))) ∧
  (∀ (s : State) (o : Op) (st : Nat), let ap := (apRange o.desc).1; s.mapFail o st = ({ s with plc := { s.plc with maps := s.plc.maps.filter fun m =>
    !(m.port == (s.slice o.owner).port && ap ≤ m.ap && m.ap < ap + (apRange o.desc).2) } } : State).plcEnd o st 0 0) ∧
  (∀ (s : State) (k p u : Nat) (x : TObj), s.obj k = some x → (x.at p).loc = some (4, u) → s.moving k p = false →
    s.plc.fetches.contains (k, p, true) = false →
    let room := ((List.range 4).filter (fun t => x.ceil ≤ t && t ≤ s.floorOf k x)).find? (s.hasRoom k x)
    (s.shedAt 4 = true ∨ s.hallPaused 8 = true ∨ room = none → s.startFetch k p = s.fetchLater k p false) ∧
    (∀ t, s.shedAt 4 = false → s.hallPaused 8 = false → room = some t →
      let c := s.moveCost 4 t * 10 ^ 6
      let fits := s.sliceRoom x.slice c = true ∧ s.pwr.devCharge + c ≤ s.pwr.allowance
      (¬ fits → s.startFetch k p = (((s.bump F.PLC_CNT_DEFER_COUNT).deferUnit (some x.slice)).markDeferred [k]).fetchLater k p true) ∧
      (∀ f v, fits → s.frameFor k p 0 t = (some f, v) → ∃ w : State, s.startFetch k p = w ∧
        w.plc.moves = s.plc.moves ++ [⟨k, p, 0, 5, some (4, u), (t, f), false⟩] ∧ w.plc.objs = s.plc.objs ∧
        w.plc.fetches = s.plc.fetches.filter (fun e => e.1 != k || e.2.1 != p) ∧ sameBytes s w ∧ w.rings = s.rings))) ∧
  (∀ (s w : State) (m : Master) (i : BitVec 16), s.writeAt m R.PLC_CANCEL_CTRL = some w →
    let v := w.setF F.PLC_CANCEL_CTRL_SLICE i.toNat
    let tag := v.reg R.PLC_CANCEL_TAG
    ∃ (u t : State) (r : CancelResult), exec (.plcCancel m i) s = .next t ∧ (r, u) = v.plcCancelTag i.toNat tag ∧
      t.getF F.PLC_CANCEL_RESULT_RESULT = r.code ∧ regsBut [R.PLC_CANCEL_RESULT] u t ∧ sameWork u t ∧
      r = (v.cancelFind i.toNat [0x08] tag).1 ∧ (r ≠ .cancelled → u = v) ∧
      (∀ o, v.cancelFind i.toNat [0x08] tag = (.cancelled, some o) →
        (v.waitOf o.id = none → u = (v.plcEnd o stCancelled 0 0).plcKick) ∧
        (∀ c, v.waitOf o.id = some c → u = (v.waitEnd c stCancelled).plcKick))) ∧
  (∀ s : State, s.hallPaused 8 = true ∨ s.answers 11 = false → exec .heatDecayBoundary s = .next s) ∧
  (∀ s : State, s.hallPaused 8 = false → s.answers 11 = true → exec .heatDecayBoundary s = .next (s.decayBoundary.tableDue 4)) ∧
  (∀ s : State, let t := s.decayBoundary; t.plc.cands = t.candidates ∧ sameBytes s t ∧ sameTenants s t ∧
    ∀ k x, s.obj k = some x → ∃ y, t.obj k = some y ∧ y = { x with page := y.page } ∧
      ∀ p g, look x.page p = some g → look y.page p = some { g with heat := decayed t.decayShift g.heat }) ∧
  (∀ s : State, (s.shedAt 2 = true ∨ s.reg R.PLC_ENERGY = 0 ∨ s.hallPaused 8 = true ∨ s.pwr.refused.any (·.1 == 4) = true) →
    exec .pageMoveStart s = .next s) ∧
  (∀ s : State, s.shedAt 2 = false → s.reg R.PLC_ENERGY ≠ 0 → s.hallPaused 8 = false → s.pwr.refused.any (·.1 == 4) = false →
    (s.bufferLeaving = none → exec .pageMoveStart s = .next (State.startFrom s.moveQueue s)) ∧
    (∀ b, s.bufferLeaving = some b → exec .pageMoveStart s = .next ((s.bufferMove b.1 b.2.1 b.2.2).getD (State.startFrom s.moveQueue s)))) ∧
  (∀ s : State, s.moveQueue.Pairwise fun a b => a.kind ≤ b.kind) ∧
  (∀ s : State, State.startFrom [] s = s) ∧
  (∀ (s : State) (c : Cand) (cs : List Cand), s.obj c.obj = none → State.startFrom (c :: cs) s = State.startFrom cs s) ∧
  (∀ (s : State) (c : Cand) (cs : List Cand) (x : TObj), s.obj c.obj = some x →
    let g := x.at c.page
    let src := if c.copy = 0 then g.loc else g.rep
    let reads := if c.kind = 3 then (if c.copy = 0 then g.rep else g.loc) else src
    let a := (reads.map (·.1)).getD (c.tiers.headD 0)
    let behind := c.obj :: cs.map (·.obj)
    let stays := c.kind = 3 ∧ (if c.copy = 0 then g.c0 else g.c1) = .stale ∧ src.isSome = true
    let dst := c.tiers.find? fun t => (c.kind == 1 || c.kind == 3 || some t != src.map (·.1)) && s.takesMove c x src t
    (∀ l, stays → src = some l → State.startFrom (c :: cs) s = s.beginMove x.slice a behind ⟨c.obj, c.page, c.copy, 3, none, l, false⟩) ∧
    (∀ t f v, ¬ stays → dst = some t → s.frameFor c.obj c.page c.copy t = (some f, v) →
      State.startFrom (c :: cs) s = v.beginMove x.slice a behind ⟨c.obj, c.page, c.copy, c.kind, src, (t, f), false⟩) ∧
    (∀ t v, ¬ stays → dst = some t → s.frameFor c.obj c.page c.copy t = (none, v) → State.startFrom (c :: cs) s = State.startFrom cs v) ∧
    (¬ stays → dst = none →
      let t := c.tiers.headD 0
      let promotion := c.kind = 4 ∧ c.tiers.any (fun t => src.any fun u => t < u.1) = true
      let dropped : State := { s with plc := { s.plc with cands := s.plc.cands.filter (· != (c.obj, c.page, t)) } }
      (¬ promotion → State.startFrom (c :: cs) s = State.startFrom cs s) ∧
      (promotion → (s.inQuota x t = false ∨ s.demote x.slice t (bucketOf g.heat) behind = none) →
        State.startFrom (c :: cs) s = State.startFrom cs dropped) ∧
      (∀ v, promotion → s.inQuota x t = true → s.demote x.slice t (bucketOf g.heat) behind = some v → State.startFrom (c :: cs) s = v))) ∧
  (∀ (s : State) (payer a : Nat) (behind : List Nat) (m : Move),
    let r := s.offer 4 (some payer) (s.moveCost a m.dst.1 * 10 ^ 6)
    let t := s.beginMove payer a behind m
    (r.1 = true → t.plc.moves = s.plc.moves ++ [m] ∧ t.plc.objs = s.plc.objs ∧ sameBytes s t ∧ t.ops = s.ops) ∧
    (r.1 = false → t.plc = s.plc ∧ sameBytes s t ∧ t = (r.2.bump F.PLC_CNT_DEFER_COUNT).markDeferred behind)) ∧
  (∀ (s : State) (h : Word) (p : Nat), exec (.pageCopyDone h p) s = .next ((s.copyDone (h.toNat / 256) p).plcKick) ∧
    exec (.moveDrainDone h p) s = .next ((s.drainDone (h.toNat / 256) p).plcKick) ∧ exec (.moveFail h p) s = .next (s.moveFail (h.toNat / 256) p)) ∧
  (∀ (s : State) (k p : Nat), s.plc.moves.find? (fun y => y.obj == k && y.page == p && !y.draining) = none → s.copyDone k p = s ∧ s.moveFail k p = s) ∧
  (∀ (s : State) (k p : Nat), s.plc.moves.find? (fun y => y.obj == k && y.page == p && y.draining) = none → s.drainDone k p = s) ∧
  (∀ (s : State) (k p : Nat) (x : TObj) (m : Move), s.obj k = some x →
    s.plc.moves.find? (fun y => y.obj == k && y.page == p && !y.draining) = some m →
    let n := s.reg R.PLC_CNT_MOVE_LO + 2 ^ 32 * s.reg R.PLC_CNT_MOVE_HI + 1
    let g := x.at p
    let repair := m.kind = 3 ∧ (if m.copy = 0 then g.c0 else g.c1) ≠ .intact
    let t := s.copyDone k p
    ∃ y, t.obj k = some y ∧ y = { x with page := y.page } ∧ (∀ j, j ≠ p → y.at j = x.at j) ∧ (∀ j, j ≠ k → t.obj j = s.obj j) ∧
      (m.copy = 0 → (y.at p).loc = some m.dst ∧ (y.at p).rep = g.rep ∧ (m.kind = 4 → (y.at p).moved = some s.up) ∧
        (m.kind = 3 → (y.at p).c0 = .intact ∧ (y.at p).gen0 = g.gen1)) ∧
      (m.copy ≠ 0 → (y.at p).rep = some m.dst ∧ (y.at p).loc = g.loc ∧ (m.kind = 3 → (y.at p).c1 = .intact ∧ (y.at p).gen1 = g.gen0)) ∧
      (m.src ≠ none → { m with draining := true } ∈ t.plc.moves) ∧
      (¬ repair → t.reg R.PLC_CNT_MOVE_LO = n % 2 ^ 32 ∧ t.reg R.PLC_CNT_MOVE_HI = n / 2 ^ 32 % 2 ^ 32 ∧
        t.mem = s.mem.carry (if m.copy ≠ 0 ∧ m.kind = 3 then s.home x k p 0 g else s.home x k p m.copy g) (s.home x k p m.copy (y.at p)) pageLen) ∧
      (repair → t.getF F.PLC_CNT_REPAIR_COUNT = (s.getF F.PLC_CNT_REPAIR_COUNT + 1) % 2 ^ 32) ∧ t.rings = s.rings) ∧
  (∀ (s : State) (k p : Nat) (m : Move), s.plc.moves.find? (fun y => y.obj == k && y.page == p && y.draining) = some m →
    let v : State := { s with plc := { s.plc with moves := s.plc.moves.filter (· != m) } }
    ((∀ f, m.src = some (1, f) → s.plc.retiring.contains f = false) → s.drainDone k p = v) ∧
    (∀ f, m.src = some (1, f) → s.plc.retiring.contains f = true → s.drainDone k p = v.retire' f ((s.obj k).elim 0xFFFF TObj.slice))) ∧
  (∀ (s : State) (f i : Nat), let t := s.retire' f i
    t.plc.retiring = s.plc.retiring.filter (· != f) ∧ t.plc.objs = s.plc.objs ∧ t.plc.moves = s.plc.moves ∧
    (s.plc.retired.contains f = true → t.plc.retired = s.plc.retired) ∧
    (s.plc.retired.contains f = false → s.plc.retired.length < 4096 → t.plc.retired = s.plc.retired ++ [f] ∧ sameBytes s t ∧
      (s.plc.retired.length = 3686 → t.getF F.PLC_STATUS_RETIRE_WARN = 1)) ∧
    (s.plc.retired.contains f = false → 4096 ≤ s.plc.retired.length → t.plc.retired = s.plc.retired ∧ t.plc.kept.contains f = true ∧
      (s.plc.kept.contains f = false → t.getF (F.ERR_CNT_COUNT 2) = (s.getF (F.ERR_CNT_COUNT 2) + 1) % 2 ^ 32))) ∧
  (∀ (s : State) (k p : Nat) (m : Move), s.plc.moves.find? (fun y => y.obj == k && y.page == p && !y.draining) = some m →
    let t := s.moveFail k p
    t.plc = { s.plc with moves := s.plc.moves.filter (· != m) } ∧ sameBytes s t ∧ sameTenants s t ∧
    t.getF F.PLC_CNT_MOVE_FAIL_COUNT = (s.getF F.PLC_CNT_MOVE_FAIL_COUNT + 1) % 2 ^ 32 ∧
    (2 ≤ m.dst.1 ∨ m.src.any (fun u => 2 ≤ u.1) = true → t.getF F.PLC_STATUS_POOL_FAULT = 1)) ∧
  (∀ (s : State) (h : Word) (p : Nat) (ok0 ok1 : Bool) (rot : List (Bool × BitVec 21 × Byte)), let c := Instr.replicaCompare h p ok0 ok1 rot
    let k := h.toNat / 256
    (s.obj k = none → exec c s = .next s) ∧
    (∀ x, s.obj k = some x →
      let idle := x.tag ≠ h.toNat % 256 ∨ x.copies ≠ 2 ∨ (x.at p).loc = none ∨ (x.at p).rep = none ∨ s.hallPaused 8 = true ∨
        (ok0 = true ∧ ok1 = true ∧ s.getF F.PLC_SCRUB_PERIOD_H = 0)
      (idle → exec c s = .next s) ∧
      (¬ idle → ∃ v : State, v = { s with mem := v.mem } ∧ (rot = [] → v = s) ∧ exec c s = .next (v.compareCopies k p ok0 ok1)))) ∧
  (∀ (s : State) (k p : Nat) (x : TObj) (ok0 ok1 : Bool), s.obj k = some x →
    let g := x.at p
    let good0 := ok0 = true ∧ g.readable 0 = true
    let good1 := ok1 = true ∧ g.readable 1 = true
    let t := s.compareCopies k p ok0 ok1
    (¬ good0 → ¬ good1 → t = s.losePage k p) ∧
    (¬ good0 → good1 → g.readable 0 = true → t = s.copyFailed k p 0) ∧ (¬ good0 → good1 → g.readable 0 = false → t = s) ∧
    (good0 → ¬ good1 → g.readable 1 = true → t = s.copyFailed k p 1) ∧ (good0 → ¬ good1 → g.readable 1 = false → t = s) ∧
    (good0 → good1 → g.c0 ≠ .intact ∨ g.c1 ≠ .intact → t = s) ∧
    (good0 → good1 → g.c0 = .intact → g.c1 = .intact →
      (s.copiesEqual x k p = true → ∃ y, t = { s with plc := t.plc } ∧ t.obj k = some y ∧ y = { x with page := y.page } ∧
        y.at p = { g with gen0 := max g.gen0 g.gen1, gen1 := max g.gen0 g.gen1 } ∧ ∀ j, j ≠ p → y.at j = x.at j) ∧
      (s.copiesEqual x k p = false → g.gen0 = g.gen1 → t.obj k = some { x with discord := true } ∧ t.getF F.PLC_STATUS_DISCORD = 1 ∧
        t.getF F.PLC_CNT_DISCORD_COUNT = (s.getF F.PLC_CNT_DISCORD_COUNT + 1) % 2 ^ 32 ∧
        t.getF (F.ERR_CNT_COUNT 1) = (s.getF (F.ERR_CNT_COUNT 1) + 1) % 2 ^ 32 ∧ sameTenants s t) ∧
      (s.copiesEqual x k p = false → g.gen1 < g.gen0 → t = s.markCopy x k p 1 .stale) ∧
      (s.copiesEqual x k p = false → g.gen0 < g.gen1 → t = s.markCopy x k p 0 .stale))) ∧
  (∀ (s : State) (x : TObj) (k p c : Nat) (st : CopySt), s.obj k = some x → c < 2 → ∃ y, (s.markCopy x k p c st).obj k = some y ∧
    y.at p = (if c = 0 then { x.at p with c0 := st } else { x.at p with c1 := st }) ∧ (∀ j, j ≠ p → y.at j = x.at j) ∧
    (s.markCopy x k p c st).mem = if c = 0 then
      s.mem.carry (s.home x k p 1 (x.at p)) ((Space.tier (x.handle k)).at (p * pageLen)) pageLen else s.mem) ∧
  (∀ (s : State) (x : TObj) (k p c : Nat), s.obj k = some x →
    s.copyFailed k p c = (s.markCopy x k p c .failed).retireLoc (if c = 0 then (x.at p).loc else (x.at p).rep) x.slice) ∧
  (∀ (s : State) (k p : Nat) (x : TObj), s.obj k = some x → let t := s.losePage k p
    ∃ y, t.obj k = some y ∧ y.at p = { x.at p with loc := none, rep := none, lost := true, c0 := .intact, c1 := .intact } ∧
      (∀ j, j ≠ p → y.at j = x.at j) ∧ t.plc.moves = s.plc.moves.filter (fun m => m.obj != k || m.page != p) ∧
      t.getF F.PLC_STATUS_PAGE_LOST = 1 ∧ sameTenants s t ∧
      (t.errHold = s.errHold ∨ s.hallPaused 0 = true))

/-- The aperture and evacuation (R172 to R174, R178, R180, R181, R299): a host access of a page that nothing maps, or that its mapping does not allow, is a
miss; a mapped one reads or writes its object, waits for its page, or fails on its pool; an evacuation starts on a free engine, ends when its channel
holds no frame or a page on it finds none, and its channel retrains or is released. -/
def Obligations.ApertureAndEvacuation : Prop :=
  (∀ (s : State) (p : Fin 4) (off : BitVec 36) (data : Option (List Byte)) (len : Nat),
    (s.linkUp p 0 = false → s.linkUp p 1 = false → exec (.bar4Access p off data len) s = .next s) ∧
    (s.linkUp p 0 = true ∨ s.linkUp p 1 = true → exec (.bar4Access p off data len) s =
      .next ({ s with opNext := s.opNext + 1 }.bar4 ⟨s.opNext, p, off.toNat, data, len⟩))) ∧
  (∀ (s : State) (b : BarWait),
    let live := s.dev.st = .ready ∨ s.dev.st = .shedding
    let map := s.plc.maps.find? (fun m => m.port == b.port && m.ap == b.off / pageLen)
    (¬ live → s.bar4 b = s.barZero b) ∧
    (live → map = none → s.bar4 b = s.barMiss b) ∧
    (∀ m, live → map = some m →
      let a := m.page * pageLen + b.off % pageLen
      let bad := pageLen < b.off % pageLen + b.bytes ∨ (b.data = none ∧ m.read = false) ∨ (b.data ≠ none ∧ m.write = false)
      (s.obj m.obj = none ∨ bad → s.bar4 b = s.barMiss b) ∧
      (∀ x, s.obj m.obj = some x → ¬ bad →
        let reach := s.rangeReach m.obj x b.data.isSome [m.page]
        (x.discord = true → s.bar4 b = s.barZero b) ∧
        (x.discord = false → reach = .fail stPageLost → s.bar4 b = s.barZero b) ∧
        (∀ st, x.discord = false → reach = .fail st → st ≠ stPageLost → s.bar4 b = s.barFault b) ∧
        (x.discord = false → reach = .wait → s.bar4 b =
          ({ s with plc := { s.plc with bars := s.plc.bars ++ [b] } }.begin (.op b.id)).fetchPages m.obj b.data.isSome [m.page]) ∧
        (x.discord = false → reach = .ok → b.data = none → ∃ t, s.bar4 b = t ∧ sameBytes s t ∧ t.regs = s.regs ∧ sameTenants s t ∧
          t.outbox = .readData b.port b.off (s.mem.read (s.home x m.obj m.page 0 (x.at m.page) + a % pageLen) b.len) :: s.outbox) ∧
        (∀ l, x.discord = false → reach = .ok → b.data = some l → s.bar4 b = (s.tierWrite m.obj a l).heat m.obj a l.length)))) ∧
  (∀ (s : State) (b : BarWait), (b.data ≠ none → s.barZero b = s) ∧
    (b.data = none → s.barZero b = s.send (.readData b.port b.off (List.replicate b.len 0#8))) ∧
    (s.barMiss b = (s.bump F.PLC_CNT_APERTURE_MISS_COUNT).barZero b) ∧
    (b.data ≠ none → s.barFault b = (s.event F.PLC_STATUS_POOL_FAULT).bump F.PLC_CNT_APERTURE_MISS_COUNT) ∧
    (b.data = none → s.barFault b = (s.event F.PLC_STATUS_POOL_FAULT).barZero b)) ∧
  (∀ (s w : State) (m : Master) (c : Fin 128) (r : Bool), taken s w m R.PLC_EVAC →
    (w.plc.evac ≠ none → ∃ t, exec (.evac m c r) s = .next t ∧ t.getF F.PLC_EVAC_STATUS_RESULT = 3 ∧ t.plc = w.plc ∧ sameBytes w t ∧
      regsBut [R.PLC_EVAC, R.PLC_EVAC_STATUS] w t) ∧
    (w.plc.evac = none → ∃ t, exec (.evac m c r) s = .next t ∧ t.plc = { w.plc with evac := some (c.val, r) } ∧ t.getF (F.HBM_PC_STATE c) = 1 ∧
      t.getF F.PLC_EVAC_STATUS_PC = c ∧ t.getF F.PLC_EVAC_STATUS_OUT = 0 ∧ t.getF F.PLC_EVAC_PC = c ∧ t.getF F.PLC_EVAC_RETRAIN = b2n r ∧
      regsBut [R.PLC_EVAC, R.PLC_EVAC_STATUS, R.HBM_PC c] w t ∧ sameBytes w t) ∧
    (w.getF (F.HBM_PC_STATE c) ≠ 2 → ∃ t, exec (.evacRelease m c) s = .next t ∧ t.getF F.PLC_EVAC_PC = c ∧ t.getF F.PLC_EVAC_RETRAIN = 0 ∧
      regsBut [R.PLC_EVAC] w t ∧ sameWork w t) ∧
    (w.getF (F.HBM_PC_STATE c) = 2 → ∃ t, exec (.evacRelease m c) s = .next t ∧ t.getF (F.HBM_PC_STATE c) = 0 ∧
      t.getF (F.HBM_PC_FAILED c) = w.getF (F.HBM_PC_FAILED c) ∧ regsBut [R.PLC_EVAC, R.PLC_EVAC_STATUS, R.HBM_PC c] w t ∧ sameWork w t ∧
      (w.getF F.PLC_EVAC_STATUS_PC = c → t.getF F.PLC_EVAC_STATUS_OUT = 0))) ∧
  (∀ s : State, s.plc.evac = none → exec .evacDone s = .next s) ∧
  (∀ (s : State) (c : Fin 128) (r : Bool), s.plc.evac = some (c.val, r) →
    (s.pcHolds c = false → ∃ t, exec .evacDone s = .next t ∧
      t.plc = { s.plc with evac := none } ∧ t.getF (F.HBM_PC_STATE c) = (if r then 3 else 2) ∧ t.getF F.PLC_EVAC_STATUS_RESULT = 0 ∧
      t.getF F.PLC_EVAC_STATUS_PC = c ∧ t.getF F.PLC_EVAC_STATUS_OUT = 1 ∧ t.getF F.PLC_STATUS_EVAC_DONE = 1 ∧
      regsBut [R.PLC_EVAC_STATUS, R.PLC_STATUS, R.HBM_PC c] s t ∧ sameBytes s t ∧ sameTenants s t) ∧
    (s.pcHolds c = true → s.evacStuck = true → ∃ t, exec .evacDone s = .next t ∧ t.plc = { s.plc with evac := none } ∧
      t.getF (F.HBM_PC_STATE c) = 0 ∧ t.getF F.PLC_EVAC_STATUS_RESULT = 1 ∧ t.getF F.PLC_EVAC_STATUS_PC = c ∧ t.getF F.PLC_STATUS_EVAC_DONE = 1 ∧
      regsBut [R.PLC_EVAC_STATUS, R.PLC_STATUS, R.HBM_PC c] s t ∧ sameBytes s t ∧ sameTenants s t) ∧
    (s.pcHolds c = true → s.evacStuck = false → exec .evacDone s = .next s)) ∧
  (∀ (s : State) (c : Fin 128), (s.getF (F.HBM_PC_STATE c) ≠ 3 → ∀ ok, exec (.pcRetrainDone c ok) s = .next s) ∧
    (s.getF (F.HBM_PC_STATE c) = 3 → (∃ t, exec (.pcRetrainDone c true) s = .next t ∧ t.getF (F.HBM_PC_STATE c) = 2 ∧
      t.getF (F.HBM_PC_FAILED c) = 0 ∧ regsBut [R.HBM_PC c] s t ∧ sameWork s t ∧ sameDevice s t) ∧
    ∃ u t, exec (.pcRetrainDone c false) s = .next t ∧ sameWork s u ∧ errorShown u t 2 blkPlc 0xFFFF 0x207 0 c false ∧
      t.getF (F.HBM_PC_STATE c) = 2 ∧ t.getF (F.HBM_PC_FAILED c) = 1 ∧
      t.getF F.HBM_STATUS_PC_FAIL = 1 ∧ t.getF F.PLC_EVAC_STATUS_RESULT = 2 ∧ t.getF F.PLC_EVAC_STATUS_PC = c ∧
      t.getF F.PLC_STATUS_EVAC_DONE = 1))
/-! ### The packet path (chapters 08 and 09) -/

/-- Reception (R188, R192 to R195, R198 to R201, R245, R247, Table 02-8). A frame that a paused hall cannot take waits at its MAC while the buffers hold
it; another applies what waits for a frame boundary, waits behind a holding buffer, or passes MACsec, is counted and parsed, and goes to the slow path, to a
tree fault or to its merged action: mirrored, policed, decrypted, and delivered by DISP into a posted buffer, to the RTE, or dropped and counted. Every
frame's bytes are charged. Firmware takes slow frames in order and reassembles datagrams, which end incomplete at a limit. Model's choices: log entries 43
to 47 and 138, and 132 on the RDMA packet in a frame. -/
def Obligations.FrameReception : Prop :=
  (∀ (s : State) (port : Fin 16) (bytes : List Byte) (k : Option Pkt),
    (s.answers 12 = false ∨ s.netUp port = false → exec (.frameReceive port bytes k) s = .next s) ∧
    (s.answers 12 = true → s.netUp port = true → exec (.frameReceive port bytes k) s =
      .next (s.frameArrive ⟨port, bytes, k, false, false, false, bytes.length + 4⟩))) ∧
  (∀ (s : State) (f : RxFrame),
    let paused := s.hallPaused 0 = true ∨ s.hallPaused 2 = true ∨ s.hallPaused 3 = true
    let full := 2 ^ 21 < s.ingressUsed (f.port / 4) + (f.bytes.length + 4)
    let g := f.port / 4
    (paused → ¬ full → s.frameArrive f = { s with pp := { s.pp with ingress := s.pp.ingress ++ [.frame f] } }) ∧
    (paused → full → s.frameArrive f = { s with pp := { s.pp with ingressDrops := put s.pp.ingressDrops g (lookD s.pp.ingressDrops g 0 + 1) } }) ∧
    (¬ paused →
      let v := (((s.bufferedApply 12 0).bufferedApply 12 1).bufferedApply 12 2).bufferedApply 15 0
      let secured := v.getF (F.CIP_MACSEC_RX_EN f.port) = 1 ∧ etherType f.bytes 12 = 0x88E5
      let waits := v.holding f.port 0 ≠ [] ∨ (secured ∧ v.hallPaused 10 = true)
      (¬ waits → s.frameArrive f = v.frameGo f) ∧
      (∀ w, waits → v.holdPut f.port 0 (.rx f) = some w → s.frameArrive f = w) ∧
      (waits → v.holdPut f.port 0 (.rx f) = none → s.frameArrive f = (v.bump F.CIP_CNT_MISS_DROP).rxLost f))) ∧
  (∀ (s : State) (f : RxFrame), (∀ w, s.macIn f.port f.bytes = (none, w) → s.frameGo f = w.rxLost f) ∧
    (∀ bs w, s.macIn f.port f.bytes = (some bs, w) → s.frameGo f = w.parseFrame { f with bytes := bs })) ∧
  (∀ (s : State) (port : Nat) (bs : List Byte),
    let on := s.getF (F.CIP_MACSEC_RX_EN port) ≠ 0
    let strict := s.getF (F.CIP_MACSEC_STRICT port) = 1 ∧ isEapol bs = false
    let tci := fieldAt bs 14 1
    let hd := if bitAt tci 5 then 28 else 20
    let x := s.macSa port (tci % 4) (if bitAt tci 5 then cut bs 20 8 else cut bs 6 6 ++ [0, 1])
    (¬ on → s.macIn port bs = (some bs, s)) ∧
    (on → etherType bs 12 ≠ 0x88E5 → ¬ strict → s.macIn port bs = (some bs, s)) ∧
    (on → etherType bs 12 ≠ 0x88E5 → strict → s.macIn port bs = (none, s.bump F.CIP_CNT_RX_UNPROT)) ∧
    (on → etherType bs 12 = 0x88E5 → x = none → s.macIn port bs = (none, s.bump F.CIP_CNT_RX_NOSA)) ∧
    (∀ i a, on → etherType bs 12 = 0x88E5 → x = some (i, a) →
      let n := a.infer (beNat (cut bs 16 4))
      let v := s.countBlocks (bs.length - hd - 16)
      (a.fresh n = false → s.macIn port bs = (none, s.bump F.CIP_CNT_RX_REPLAY)) ∧
      (a.fresh n = true → gcmOpen a.key (a.macNonce n) (bs.take hd) (bs.drop hd) = none → s.macIn port bs = (none, v.bump F.CIP_CNT_RX_AUTH)) ∧
      (∀ pay, a.fresh n = true → gcmOpen a.key (a.macNonce n) (bs.take hd) (bs.drop hd) = some pay →
        s.macIn port bs = (some (bs.take 12 ++ cut pay 0 (bs.length - hd - 16)), v.setSa i (a.accept n))))) ∧
  (∀ (s : State) (f : RxFrame), ∃ v : State,
    let n := s.reg R.PKT_CNT_RX_LO + 2 ^ 32 * s.reg R.PKT_CNT_RX_HI + 1
    let p := v.parse f.bytes false
    v.reg R.PKT_CNT_RX_LO = n % 2 ^ 32 ∧ v.reg R.PKT_CNT_RX_HI = n / 2 ^ 32 % 2 ^ 32 ∧ v = { s with regs := v.regs } ∧
    regsBut [R.PKT_CNT_RX_LO, R.PKT_CNT_RX_HI] s v ∧
    (p.reason ≠ none → s.parseFrame f = v.slowIn f p) ∧
    (p.reason = none → v.classify f.port (p.key f) = none → s.parseFrame f = v.treeFault f) ∧
    (∀ a, p.reason = none → v.classify f.port (p.key f) = some a → s.parseFrame f = v.handleAct f p a)) ∧
  (∀ (s : State) (f : RxFrame), s.treeFault f = ((s.bump F.PKT_CNT_TREE_FAULT).event F.PKT_STATUS_TREE_FAULT).rxLost f) ∧
  (∀ (s : State) (f : RxFrame) (p : Parse),
    let v := s.bump F.PKT_CNT_SLOW
    let w := v.slowWings[Config.slowHash (leNat p.fields) % v.slowWings.length]?
    let lost := ((v.bump F.PKT_CNT_SLOW_DROP).event F.PKT_STATUS_SLOW_DROP).rxLost f
    (w = none → s.slowIn f p = lost) ∧
    (∀ i, w = some i → 32768 ≤ (lookD s.pp.slow i []).length → s.slowIn f p = lost) ∧
    (∀ i, w = some i → (lookD s.pp.slow i []).length < 32768 →
      s.slowIn f p = { v with pp := { v.pp with slow := put v.pp.slow i (lookD v.pp.slow i [] ++ [f]) } })) ∧
  (∀ (s : State) (f : RxFrame) (p : Parse) (a : Act),
    let m := if a.mirror then s.mirrorFrame f p a else s
    let r := match a.meter with | some i => m.police i f.len | none => (true, m)
    (r.1 = false → s.handleAct f p a = r.2.rxLost f) ∧
    (r.1 = true → a.sa = none ∨ f.decrypted = true → s.handleAct f p a = r.2.deliverFrame f p a) ∧
    (∀ i, r.1 = true → a.sa = some i → f.decrypted = false →
      let waits := r.2.saAbsent i = true ∨ r.2.hallPaused 10 = true
      (¬ waits → s.handleAct f p a = r.2.espGo f a) ∧
      (∀ w, waits → r.2.holdPut f.port 0 (.esp f a) = some w → s.handleAct f p a = w) ∧
      (waits → r.2.holdPut f.port 0 (.esp f a) = none → s.handleAct f p a = (r.2.bump F.CIP_CNT_MISS_DROP).rxLost f))) ∧
  (∀ (s : State) (m L : Nat), let b := s.meter m
    (tokenUnits L ≤ b.tokens → ∃ t, s.police m L = (true, t) ∧ t.meter m = b.spend L ∧
      t.reg (bankKey R.PKT_METER_PASS m) = (s.reg (bankKey R.PKT_METER_PASS m) + 1) % 2 ^ 32 ∧ t = { s with pp := t.pp, regs := t.regs }) ∧
    (b.tokens < tokenUnits L → ∃ t, s.police m L = (false, t) ∧ t.meter m = b ∧
      t.reg (bankKey R.PKT_METER_DROP m) = (s.reg (bankKey R.PKT_METER_DROP m) + 1) % 2 ^ 32 ∧
      t.getF F.PKT_CNT_POLICE_DROP = (s.getF F.PKT_CNT_POLICE_DROP + 1) % 2 ^ 32 ∧ t = { s with pp := t.pp, regs := t.regs })) ∧
  (∀ (s : State) (f : RxFrame) (p : Parse) (a : Act),
    let bs := (a.rewrite p f.bytes).1
    let gone := (a.rewrite p f.bytes).2
    let v := s.chargeRx (s.actSlice a f) f.len
    let shed := v.shedAt 4 = true ∧ p.ptp f.bytes = false ∧ ¬ (a.disp = 1 ∧ (v.ring a.target).any Ring.isPf0 = true)
    let dropped := v.bump F.PKT_CNT_ACTION_DROP
    (shed → s.deliverFrame f p a = v.bump F.PKT_CNT_SHED_DROP) ∧
    (¬ shed →
      (a.disp ≠ 1 → a.disp ≠ 2 → a.disp ≠ 3 → s.deliverFrame f p a = dropped) ∧
      (a.disp = 1 ∨ a.disp = 3 → v.isRxRing a.target = false → s.deliverFrame f p a = dropped) ∧
      (a.disp = 1 → v.isRxRing a.target = true → s.deliverFrame f p a =
        (v.fillBuffer a.target false bs.length bs a.rule f.port (p.flags f) p.payload).getD (v.bump F.PKT_CNT_NOBUF)) ∧
      (a.disp = 3 → v.isRxRing a.target = true → s.deliverFrame f p a =
        (v.fillBuffer a.target true bs.length (bs.drop (p.payload - gone)) a.rule f.port (p.flags f) p.payload).getD (v.bump F.PKT_CNT_NOBUF)) ∧
      (a.disp = 2 → f.whole = true → s.deliverFrame f p a = dropped) ∧
      (∀ x, a.disp = 2 → f.whole = false → f.pkt.or (rdmaOf f.port f.bytes) = some x → s.deliverFrame f p a = v.pktArrive x))) ∧
  (∀ (s : State) (q : Nat) (capture : Bool) (len : Nat) (bs : List Byte) (rule port flags off : Nat),
    (s.buffer q = none → s.fillBuffer q capture len bs rule port flags off = none) ∧
    (∀ o, s.buffer q = some o →
      let room := Desc.field o.desc 8 4
      let x := len + 2 ^ 32 * rule
      let y := 2 ^ 32 * port + 2 ^ 40 * flags + 2 ^ 48 * off
      let st := if room < bs.length then stFrameTooLong else stOk
      let v := s.commitOp o.id
      (capture = false → s.canDma (s.ownerFn o.owner) = false → s.fillBuffer q capture len bs rule port flags off =
        some (v.finish o.id stMasterDisabled x y)) ∧
      (capture = false → s.canDma (s.ownerFn o.owner) = true → s.fillBuffer q capture len bs rule port flags off =
        some (({ v with mem := s.mem.write ((s.ownerSpace o.owner).at (Desc.field o.desc 16 8)) (bs.take room) } : State).finish o.id st x y)) ∧
      (capture = true →
        let h := Config.captureObject q
        let n := (bs.take room).length
        let at' := Desc.field o.desc 16 8
        let k := v.tierCheck o.owner h at' n
        (k ≠ stOk → s.fillBuffer q capture len bs rule port flags off = some (v.finish o.id k x y)) ∧
        (k = stOk → v.spanReach o.owner true (.tier h) at' n = .ok →
          s.fillBuffer q capture len bs rule port flags off = some ((v.putBytes (.tier h) at' (bs.take room)).finish o.id st x y)) ∧
        (k = stOk → v.spanReach o.owner true (.tier h) at' n = .wait → s.fillBuffer q capture len bs rule port flags off =
          some ((v.fetchPages (h / 256) true (pagesIn at' n)).finish o.id stStreamFault x y)) ∧
        (∀ e, k = stOk → v.spanReach o.owner true (.tier h) at' n = .fail e → s.fillBuffer q capture len bs rule port flags off =
          some ((v.poolFault e).finish o.id (streamFail e) x y))))) ∧
  (∀ (s : State) (who : Option Nat) (n : Nat), let t := s.chargeRx who n
    let owed := lookD s.pp.rxDebt (who.getD 0xFFFF) 0
    t = { s with pp := { s.pp with rxDebt := t.pp.rxDebt }, pwr := t.pwr } ∧
    (n ≤ owed → lookD t.pp.rxDebt (who.getD 0xFFFF) 0 = owed - n ∧ t.pwr = s.pwr) ∧
    (owed < n → lookD t.pp.rxDebt (who.getD 0xFFFF) 0 = owed + 65536 - n ∧ t.pwr.devCharge = s.pwr.devCharge + s.energyTable 24 * 1000)) ∧
  (∀ (s : State) (f : RxFrame), s.rxLost f = s.chargeRx none f.len) ∧
  (∀ (s : State) (w : Fin 4),
    (lookD s.pp.slow w [] = [] ∨ s.slowServes w = false ∨ s.hallPaused 3 = true → exec (.slowpathFrame w) s = .next s) ∧
    (∀ f l, lookD s.pp.slow w [] = f :: l → s.slowServes w = true → s.hallPaused 3 = false →
      let p := s.parse f.bytes true
      ∃ u : State, lookD u.pp.slow w [] = l ∧ u = { s with pp := { s.pp with slow := u.pp.slow } } ∧ (∀ i, i ≠ w.val → lookD u.pp.slow i [] = lookD s.pp.slow i []) ∧
        (p.reason ≠ some 1 → exec (.slowpathFrame w) s = .next (u.slowOut f)) ∧
        (∀ v, p.reason = some 1 → u.reassemble w f (p.fragment f.bytes) = (none, v) → exec (.slowpathFrame w) s = .next v) ∧
        (∀ g v, p.reason = some 1 → u.reassemble w f (p.fragment f.bytes) = (some g, v) → exec (.slowpathFrame w) s = .next (v.slowOut g)))) ∧
  (∀ (s : State) (w : Nat) (f : RxFrame) (x : Frag),
    let mine := fun r : Reasm => r.wing == w && r.port == f.port && r.id == x.id && r.decrypted == f.decrypted
    let old := s.pp.reasm.find? mine
    let r := (old.getD ⟨w, f.port, x.id, s.up, f.decrypted, none, none, [], 0⟩).join f x
    let whole := ∃ ip h n, r.head = some (ip, h) ∧ r.total = some n ∧ n ≤ (joinPieces r.pieces).length
    let t := s.reassemble w f x
    (¬ whole → old ≠ none → t = (none, { s with pp := { s.pp with reasm := s.pp.reasm.map fun y => if mine y then r else y } })) ∧
    (¬ whole → old = none → (s.pp.reasm.filter (·.wing == w)).length < 4096 → t = (none, { s with pp := { s.pp with reasm := s.pp.reasm ++ [r] } })) ∧
    (¬ whole → old = none → 4096 ≤ (s.pp.reasm.filter (·.wing == w)).length → t = (none, (s.bump F.PKT_CNT_REASM_DROP).chargeRx none f.len)) ∧
    (∀ ip h n, r.head = some (ip, h) → r.total = some n → n ≤ (joinPieces r.pieces).length →
      t.2.pp.reasm = s.pp.reasm.filter (fun y => !mine y) ∧
      (65535 < r.total' ip n h → t.1 = none ∧ t.2.getF F.PKT_CNT_REASM_DROP = (s.getF F.PKT_CNT_REASM_DROP + 1) % 2 ^ 32) ∧
      (r.total' ip n h ≤ 65535 → t.2 = { s with pp := t.2.pp } ∧
        t.1 = some { f with bytes := r.frame ip h ((joinPieces r.pieces).take n), pkt := none, slow := true, whole := true, len := r.len }))) ∧
  (∀ (s : State) (w : Fin 4), (s.pp.reasm.find? (·.wing == w.val) = none → exec (.reasmTimeout w) s = .next s) ∧
    ∀ r, s.pp.reasm.find? (·.wing == w.val) = some r → ∃ v t : State, exec (.reasmTimeout w) s = .next t ∧ t = v.chargeRx none r.len ∧
    v.pp = { s.pp with reasm := s.pp.reasm.erase r } ∧ v.getF F.PKT_CNT_REASM_DROP = (s.getF F.PKT_CNT_REASM_DROP + 1) % 2 ^ 32 ∧
    regsBut [R.PKT_CNT_REASM_DROP] s v ∧ sameBytes s v ∧ sameTenants s v ∧ v.time = (s.upTo (r.start + 10 ^ 6 * s.getF F.PKT_SLOW_REASM_MS)).time) ∧
  (∀ (s : State) (q : BitVec 16) (d : Desc), (s.fetch q.toNat 9 (Desc.field d 0 4) d = none → exec (.postBuffer q d) s = .next s) ∧
    ∀ o u, s.fetch q.toNat 9 (Desc.field d 0 4) d = some (o, u) →
    (postBufferOk d = true → exec (.postBuffer q d) s = .next u) ∧
    (postBufferOk d = false → ∃ v t : State, exec (.postBuffer q d) s = .next t ∧ t = v.finish o.id stFrameInvalid 0 0 ∧
      v.getF F.TXS_CNT_INVALID_COUNT = (u.getF F.TXS_CNT_INVALID_COUNT + 1) % 2 ^ 32 ∧ v.getF F.TXS_STATUS_INVALID = 1 ∧
      regsBut [R.TXS_CNT_INVALID, R.TXS_STATUS] u v ∧ sameWork u v))

/-- Transmission and trees (R200, R202 to R208, R210). A SEND_FRAME is refused by name, waits for its slice, for an earlier one of its ring, for credit or for
queue memory, or joins its queue past its commit point; the scheduler sends a port's next frame, which leaves the queue, is charged to the shapers that are
on, and passes the cipher engine; a sent frame counts and completes; a stalled one ends; a cancel posts its result; and trees are committed and loaded
only where they may be. Model's choices: log entries 41, 42 and 44. -/
def Obligations.FrameTransmission : Prop :=
  (∀ (s : State) (q : BitVec 16) (d : Desc), (s.fetch q.toNat 8 (Desc.field d 0 4) d = none → exec (.sendFrame q d) s = .next s) ∧
    ∀ o u, s.fetch q.toNat 8 (Desc.field d 0 4) d = some (o, u) →
    (sendFrameOk (0x8000 ≤ o.owner) d = false → ∃ v t : State, exec (.sendFrame q d) s = .next t ∧ t = v.finish o.id stFrameInvalid 0 0 ∧
      v.getF F.TXS_CNT_INVALID_COUNT = (u.getF F.TXS_CNT_INVALID_COUNT + 1) % 2 ^ 32 ∧ v.getF F.TXS_STATUS_INVALID = 1 ∧
      regsBut [R.TXS_CNT_INVALID, R.TXS_STATUS] u v ∧ sameWork u v) ∧
    (sendFrameOk (0x8000 ≤ o.owner) d = true →
      let granted := 0x8000 ≤ o.owner ∨ bitAt (u.slice o.owner).netGrant (txPort d) = true
      (¬ granted → exec (.sendFrame q d) s = .next (u.txEnd o stRights 0 0)) ∧ (granted → exec (.sendFrame q d) s = .next (u.txTry o)))) ∧
  (∀ (u : State) (o : Op),
    let d := o.desc
    let n := Desc.field d 8 4 + 4
    let k := 16 * txPort d + txQ d
    let waits := u.pp.txWait.any (·.1 == o.id) = true
    let behind := u.pp.txWait.any (fun e => e.1 < o.id && (u.op e.1).any (·.ring == o.ring)) = true
    let c := if u.pp.txWait.contains (o.id, true) then (true, u) else u.frameCredit o.owner n
    (u.txPaused o = true → waits → u.txTry o = u) ∧ (u.txPaused o = true → ¬ waits → u.txTry o = u.txHold o.id false) ∧
    (u.txPaused o = false → behind → u.txTry o = u.txHold o.id false) ∧
    (u.txPaused o = false → ¬ behind →
      (c.1 = false → waits → u.txTry o = c.2.txHold o.id false) ∧
      (c.1 = false → ¬ waits → u.txTry o = ((c.2.bump F.TXS_CNT_DEFER_COUNT).deferOp o.id).txHold o.id false) ∧
      (c.1 = true → c.2.txFits k n = false → u.txTry o = c.2.txHold o.id true) ∧
      (c.1 = true → c.2.txFits k n = true →
        let v : State := { c.2 with pp := { c.2.pp with txWait := c.2.pp.txWait.filter (·.1 != o.id) } }
        (v.canDma (v.ownerFn o.owner) = false → u.txTry o = v.txEnd o stMasterDisabled 0 0) ∧
        (v.canDma (v.ownerFn o.owner) = true → ∃ t : State, u.txTry o = t ∧
          t.txQueue k = v.txQueue k ++ [⟨o.id, txOwner o.owner, 0, v.mem.read ((v.ownerSpace o.owner).at (Desc.field d 16 8)) (n - 4), txSaOf d, none⟩] ∧
          (∀ j, j ≠ k → t.txQueue j = v.txQueue j) ∧ t.ops = v.ops.map (fun x => if x.id == o.id then { x with committed := true } else x) ∧
          t.rings = v.rings ∧ sameBytes v t)))) ∧
  (∀ (s : State) (owner n : Nat), let owed := lookD s.pp.credit owner 0
    (n ≤ owed → s.frameCredit owner n = (true, { s with pp := { s.pp with credit := put s.pp.credit owner (owed - n) } })) ∧
    (owed < n →
      let r := s.offer 2 (if owner < 256 then some owner else none) (s.energyTable 16 * 1000)
      (r.1 = false → s.frameCredit owner n = (false, r.2)) ∧
      (r.1 = true → s.frameCredit owner n = (true, { r.2 with pp := { r.2.pp with credit := put r.2.pp.credit owner (owed + 65536 - n) } })))) ∧
  (∀ (s : State) (k : Nat) (o : Op), s.op k = some o →
    let held := s.shedAt 4 = true ∧ txQ o.desc ≠ 0
    (s.pp.txWait.contains (k, true) = false ∨ held → exec (.txStalledTimeout k) s = .next s) ∧
    (s.pp.txWait.contains (k, true) = true → ¬ held →
      let v := s.ripe (.op k) (10 ^ 8)
      exec (.txStalledTimeout k) s =
        .next ((({ v with pp := { v.pp with txWait := v.pp.txWait.filter (·.1 != k) } } : State).txEnd o stTxStalled 0 0).txKick))) ∧
  (∀ (s : State) (k : Nat), s.op k = none → exec (.txStalledTimeout k) s = .next s) ∧
  (∀ (s : State) (port : Fin 16), (s.hallPaused 4 = true ∨ s.netUp port = false → exec (.egressSelect port) s = .next s) ∧
    (s.hallPaused 4 = false → s.netUp port = true →
      let v := ((((s.bufferedApply 13 0).bufferedApply 13 1).bufferedApply 13 2).bufferedApply 15 0).txKick
      (∀ w, v.txPick port = (none, w) → exec (.egressSelect port) s = .next v) ∧
      (∀ q f w, v.txPick port = (some (q, f), w) →
        let k := 16 * port.val + q
        let L := w.txLen port f
        let held := v.txCiphered port f = true ∧ v.hallPaused 10 = true
        (held → exec (.egressSelect port) s = .next v) ∧
        (¬ held → ∃ t : State, exec (.egressSelect port) s = .next ((((t.txStage port q f).txKick).rteKick).txRetry) ∧
          t.txQueue k = (w.txQueue k).eraseIdx ((w.txQueue k).findIdx (· == f)) ∧ (∀ j, j ≠ k → t.txQueue j = w.txQueue j) ∧
          t = { w with pp := t.pp } ∧ lookD t.pp.lastOwner k 0x10000 = f.owner ∧
          (w.reg (bankKey R.TXS_Q_RATE k) = 0 → t.pp.queueB = w.pp.queueB) ∧
          (w.reg (bankKey R.TXS_Q_RATE k) ≠ 0 → t.queueBucket k = (w.queueBucket k).spend L) ∧
          (f.owner < 256 → w.reg (bankKey R.TXS_S_RATE f.owner) ≠ 0 → t.sliceBucket f.owner = (w.sliceBucket f.owner).spend L) ∧
          (256 ≤ f.owner ∨ w.reg (bankKey R.TXS_S_RATE f.owner) = 0 → t.pp.sliceB = w.pp.sliceB))))) ∧
  (∀ (s : State) (port q : Nat) (f : TxFrame),
    let waits := s.holding port 1 ≠ [] ∨ f.sa.any s.saAbsent = true
    (¬ waits → s.txStage port q f = s.txFinal port f) ∧
    (∀ w, waits → s.holdPut port 1 (.tx q f) = some w → s.txStage port q f = w) ∧
    (waits → s.holdPut port 1 (.tx q f) = none → ∃ v, v = s.bump F.CIP_CNT_MISS_DROP ∧ (f.op = 0 → s.txStage port q f = v) ∧
      (f.op ≠ 0 → s.txStage port q f = v.setTxQueue (16 * port + q) (v.txQueue (16 * port + q) ++ [f])))) ∧
  (∀ (s : State) (port : Nat) (f : TxFrame), f.sa = none → s.getF (F.CIP_MACSEC_TX_EN port) = 0 →
    let L := s.txLen port f
    (f.out = none → s.txFinal port f = (s.send (.frame port f.data)).txSent f L 0) ∧ (∀ x, f.out = some x → s.txFinal port f = (s.send x).txSent f L 0)) ∧
  (∀ (s : State) (f : TxFrame) (L pn : Nat),
    let n := s.reg R.TXS_CNT_FRAMES_LO + 2 ^ 32 * s.reg R.TXS_CNT_FRAMES_HI + 1
    let b := s.reg R.TXS_CNT_BYTES_LO + 2 ^ 32 * s.reg R.TXS_CNT_BYTES_HI + L
    ∃ w : State, w.reg R.TXS_CNT_FRAMES_LO = n % 2 ^ 32 ∧ w.reg R.TXS_CNT_FRAMES_HI = n / 2 ^ 32 % 2 ^ 32 ∧ w.reg R.TXS_CNT_BYTES_LO = b % 2 ^ 32 ∧
      w.reg R.TXS_CNT_BYTES_HI = b / 2 ^ 32 % 2 ^ 32 ∧ w = { s with regs := w.regs } ∧ (s.op f.op = none → s.txSent f L pn = w) ∧
      (∀ o, s.op f.op = some o → s.txSent f L pn = w.txEnd o stOk L pn)) ∧
  (∀ (s w : State) (m : Master) (i : BitVec 16), s.writeAt m R.TXS_CANCEL_CTRL = some w →
    let v := w.setF F.TXS_CANCEL_CTRL_SLICE i.toNat
    let x := v.cancelFind i.toNat [0x03, 0x04] (v.reg R.TXS_CANCEL_TAG)
    ∃ (u t : State) (r : CancelResult), exec (.txsCancel m i) s = .next t ∧ (r, u) = v.frameCancelTag i.toNat (v.reg R.TXS_CANCEL_TAG) ∧ r = x.1 ∧
      t.getF F.TXS_CANCEL_RESULT_RESULT = r.code ∧ regsBut [R.TXS_CANCEL_RESULT] u t ∧ sameWork u t ∧ (r ≠ .cancelled → u = v) ∧
      (∀ o, x = (.cancelled, some o) → u =
        ((({ v with pp := { v.pp with txWait := v.pp.txWait.filter (·.1 != o.id) } } : State).finish o.id stCancelled 0 0).txKick))) ∧
  (∀ (s w : State) (m : Master), s.writeAt m R.PKT_TREE_COMMIT = some w →
    (w.treesOk = true → ∃ t, exec (.treeCommit m) s = .next t ∧ t = { w with pp := t.pp } ∧
      t.pp = { w.pp with commit := true, trees := w.pend.filter fun e => applyOf e.1 == some F.PKT_APPLY_STATUS_TREES }) ∧
    (w.treesOk = false → ∃ t, exec (.treeCommit m) s = .next t ∧ t.getF F.PKT_STATUS_COMMIT_REFUSED = 1 ∧ regsBut [R.PKT_STATUS] w t ∧
      sameWork w t ∧ sameDevice w t)) ∧
  (∀ (s w : State) (m : Master), taken s w m R.PKT_TLOAD_CTRL →
    let len := w.reg R.PKT_TLOAD_LEN
    let e := treeExtent (w.reg R.PKT_TLOAD_DST) (len / 32)
    let bad := len % 32 ≠ 0 ∨ 2 ^ 26 < len ∨ w.reg (R.PKT_AREA_SIZE e.1) < e.2.1 + e.2.2
    ∃ t, exec (.treeLoad m) s = .next t ∧ regsBut [R.PKT_TLOAD_STATUS, R.PKT_STATUS] w t ∧ sameBytes w t ∧ sameTenants w t ∧
      (w.pp.tload ≠ none → t.getF F.PKT_TLOAD_STATUS_RESULT = 1 ∧ t.pp = w.pp) ∧
      (w.pp.tload = none → bad → t.getF F.PKT_TLOAD_STATUS_RESULT = 3 ∧ t.getF F.PKT_STATUS_TLOAD_DONE = 1 ∧ t.pp = w.pp) ∧
      (w.pp.tload = none → ¬bad → w.activeExtents.any (extentsMeet e) = true → t.getF F.PKT_TLOAD_STATUS_RESULT = 2 ∧ t.pp = w.pp) ∧
      (w.pp.tload = none → ¬bad → w.activeExtents.any (extentsMeet e) = false → t.getF F.PKT_TLOAD_STATUS_ACTIVE = 1 ∧
        t.pp.tload = some ⟨e.1, e.2.1, len, w.reg R.PKT_TLOAD_SRC_LO + 2 ^ 32 * w.reg R.PKT_TLOAD_SRC_HI, w.cmdPort m⟩)) ∧
  (∀ s : State, s.pp.tload = none ∨ s.hallPaused 0 = true → exec .treeLoadDone s = .next s) ∧
  (∀ (s : State) (x : TLoad), s.pp.tload = some x → s.hallPaused 0 = false →
    let ok := s.canDma (.pf0 ⟨x.port % 4, Nat.mod_lt _ (by decide)⟩)
    ∃ t, exec .treeLoadDone s = .next t ∧ t.pp = { s.pp with tload := none } ∧ t.getF F.PKT_TLOAD_STATUS_ACTIVE = 0 ∧
      t.getF F.PKT_STATUS_TLOAD_DONE = 1 ∧ t.getF F.PKT_TLOAD_STATUS_RESULT = (if ok then 0 else 4) ∧ sameTenants s t ∧
      regsBut [R.PKT_TLOAD_STATUS, R.PKT_STATUS] s t ∧
      t.mem = (if ok then s.mem.write ((Space.treeArea x.area).at (32 * x.unit)) (s.mem.read ((Space.pf0 x.port).at x.src) x.len) else s.mem))

/-! ### The cipher engine and the check-value units (chapter 10) -/

/-- Security associations, noise and check values (R238, R240 to R242, R247, R250 to R252, R254). An SA is installed at a free index, cached and shown without
its key, and removed in two stages; an outbound SA gives its numbers until it is EXHAUSTED; a fetched SA lets the frames on that wait for it; a failed noise
test shows; and a CVU job feeds its bytes to its context's CRC. REMOVE of a free index, QUERY of one and which fields an entry must have are log entry
48's choices. -/
def Obligations.SecurityAndCheckValues : Prop :=
  (∀ (s w : State) (m : Master), taken s w m R.CIP_SA_CMD →
    let i := w.getF F.CIP_SA_SEL_INDEX
    let e := w.saWindow
    let twin := w.cip.sas.any fun x => x.2.kind == 4 && x.2.port == fieldAt e 46 1 && x.2.sci == cut e 24 8 && x.2.an == fieldAt e 1 1 % 4
    let bad := saEntryOk e = false ∨ (fieldAt e 0 1 / 16 = 4 ∧ twin = true)
    let same := fun t : State => regsBut [R.CIP_SA_CMD, R.CIP_SA_RESULT] w t ∧ sameBytes w t ∧ sameTenants w t
    (w.sa i ≠ none → ∃ t, exec (.saInstall m) s = .next t ∧ t.getF F.CIP_SA_RESULT_RESULT = 1 ∧ t.cip = w.cip ∧ same t) ∧
    (w.sa i = none → bad → ∃ t, exec (.saInstall m) s = .next t ∧ t.getF F.CIP_SA_RESULT_RESULT = 2 ∧ t.cip = w.cip ∧ same t) ∧
    (w.sa i = none → ¬ bad → ∃ t, exec (.saInstall m) s = .next t ∧ t.getF F.CIP_SA_RESULT_RESULT = 0 ∧
      t.sa i = some ⟨e, if fieldAt e 0 1 / 16 % 2 = 1 then 1 else 0, [], 1, true, w.cip.useClock + 1⟩ ∧ same t ∧
      (∃ out, ∀ j, j ≠ i → out ≠ some j → t.sa j = w.sa j) ∧
      ((w.cip.sas.filter fun x => x.2.cached).length < saSlots → ∀ j, j ≠ i → t.sa j = w.sa j)) ∧
    (w.sa i = none → ∃ t, exec (.saRemove m) s = .next t ∧ t.getF F.CIP_SA_RESULT_RESULT = 2 ∧ t.cip = w.cip ∧ same t) ∧
    (∀ a, w.sa i = some a →
      let busy := a.st = 3 ∨ w.cip.removeCmd ≠ none ∨ (a.kind = 3 ∧ ∃ p < 16, w.getF (F.CIP_MACSEC_TX_SA p) = i)
      (busy → ∃ t, exec (.saRemove m) s = .next t ∧ t.getF F.CIP_SA_RESULT_RESULT = 1 ∧ t.cip = w.cip ∧ same t) ∧
      (¬ busy → ∃ v : State, exec (.saRemove m) s = .next v.holdsGo ∧ v.sa i = some { a with st := 3 } ∧
        v.cip.removeCmd = some i ∧ (∀ j, j ≠ i → v.sa j = w.sa j) ∧ v.pp = w.pp ∧ same v)) ∧
    (let x := ((w.sa i).map Sa.shown).getD (List.replicate 128 0)
      ∃ t, exec (.saQuery m) s = .next t ∧ (∀ k < 32, t.reg (R.CIP_SA_DATA k) = fieldAt x (4 * k) 4) ∧ t.getF F.CIP_SA_RESULT_RESULT = 0 ∧
        sameWork w t ∧ sameDevice w t)) ∧
  (∀ (s : State) (i : BitVec 16), (s.sa i.toNat = none → exec (.saRemoveDrainDone i) s = .next s) ∧
    (∀ a, s.sa i.toNat = some a → a.st ≠ 3 → exec (.saRemoveDrainDone i) s = .next s) ∧
    (∀ a, s.sa i.toNat = some a → a.st = 3 → ∃ t, exec (.saRemoveDrainDone i) s = .next t ∧ t.sa i.toNat = none ∧
      (∀ j, j ≠ i.toNat → t.sa j = s.sa j) ∧ sameBytes s t ∧ sameTenants s t ∧ regsBut [R.CIP_SA_RESULT] s t ∧
      (s.cip.removeCmd = some i.toNat → t.cip.removeCmd = none ∧ t.getF F.CIP_SA_RESULT_RESULT = 0) ∧
      (s.cip.removeCmd ≠ some i.toNat → t.regs = s.regs))) ∧
  (∀ (s : State) (i : BitVec 16),
    let wanted := s.saAbsent i.toNat = true ∧ s.cip.hold.any (fun e => e.2.any (HoldItem.wants i.toNat)) = true
    (¬ wanted → exec (.saFetchDone i) s = .next s) ∧
    (∀ a, wanted → s.sa i.toNat = some a → ∃ u : State, exec (.saFetchDone i) s = .next u.holdsGo ∧
      u.sa i.toNat = some { a with cached := true, lastUse := s.cip.useClock + 1 } ∧ u.saAbsent i.toNat = false ∧ u = { s with cip := u.cip })) ∧
  (∀ (s : State) (i : Nat) (a : Sa), (a.st = 2 → s.takeNumber i a = (none, s.bump F.CIP_CNT_TX_EXHAUST)) ∧
    (a.st ≠ 2 → ∃ t, s.takeNumber i a = (some a.pn, t) ∧ t.sa i = some { a with pn := a.pn + 1, st := if a.pn = a.last then 2 else a.st } ∧
      (∀ j, j ≠ i → t.sa j = s.sa j) ∧ (a.pn = a.last → t.getF F.CIP_STATUS_SA_EXHAUSTED = 1) ∧
      (a.soft ≠ 0 → a.pn = a.soft → t.getF F.CIP_STATUS_SA_SOFT = 1) ∧ regsBut [R.CIP_STATUS] s t ∧ sameBytes s t ∧ sameTenants s t)) ∧
  (∀ s : State, (s.answers 15 = false ∨ s.cip.rngFault = true → exec .rngHealthFail s = .next s) ∧
    (s.answers 15 = true → s.cip.rngFault = false → ∃ u t : State, exec .rngHealthFail s = .next t ∧ u.cip = { s.cip with rngFault := true } ∧
      u.getF F.CIP_STATUS_RNG_FAULT = 1 ∧ regsBut [R.CIP_STATUS] s u ∧ sameBytes s u ∧ sameTenants s u ∧ errorShown u t 2 15 0xFFFF 0x208 0 0 false)) ∧
  (∀ (s w : State) (m : Master) (n : Fin 16) (b : Bool), s.writeAt m R.CVU_JOB_CTRL = some w →
    let p := polyOf (w.getF (F.CVU_CTX_CFG_POLY n))
    (w.cip.job ≠ none → ∃ t, exec (.cvuJob m n b) s = .next t ∧ t.getF F.CVU_JOB_STATUS_RESULT = 1 ∧ regsBut [R.CVU_JOB_STATUS] w t ∧
      sameWork w t ∧ sameDevice w t) ∧
    (w.cip.job = none → ∃ t, exec (.cvuJob m n b) s = .next t ∧ t.getF F.CVU_JOB_STATUS_ACTIVE = 1 ∧ sameBytes w t ∧ sameTenants w t ∧
      t.cip = { w.cip with job := some ⟨n, w.reg R.CVU_JOB_SRC_LO + 2 ^ 32 * w.reg R.CVU_JOB_SRC_HI, w.reg R.CVU_JOB_LEN, w.cmdPort m⟩ } ∧
      (b = false → t.cvuValue n = w.cvuValue n) ∧
      (b = true → t.cvuValue n = (if w.getF (F.CVU_CTX_CFG_FOLD n) = 1 then crcFeed p p.init (leBytes 4 (w.reg (R.CVU_CTX_PREFIX n))) else p.init) %
        2 ^ p.width) ∧ regsBut [R.CVU_JOB_STATUS, R.CVU_CTX_VALUE_LO n, R.CVU_CTX_VALUE_HI n] w t)) ∧
  (∀ s : State, s.cip.job = none ∨ s.hallPaused 0 = true → exec .cvuJobDone s = .next s) ∧
  (∀ (s : State) (j : CvuJob), s.cip.job = some j → s.hallPaused 0 = false → j.ctx < 16 →
    let p := polyOf (s.getF (F.CVU_CTX_CFG_POLY j.ctx))
    let n := s.reg R.CVU_CNT_BYTES_LO + 2 ^ 32 * s.reg R.CVU_CNT_BYTES_HI + j.len
    ∃ t, exec .cvuJobDone s = .next t ∧ t.cip = { s.cip with job := none } ∧ t.getF F.CVU_JOB_STATUS_ACTIVE = 0 ∧ sameBytes s t ∧ sameTenants s t ∧
      (s.canDma (.pf0 ⟨j.port % 4, Nat.mod_lt _ (by decide)⟩) = false → t.getF F.CVU_JOB_STATUS_RESULT = 2 ∧ t.cvuValue j.ctx = s.cvuValue j.ctx) ∧
      (s.canDma (.pf0 ⟨j.port % 4, Nat.mod_lt _ (by decide)⟩) = true → t.getF F.CVU_JOB_STATUS_RESULT = 0 ∧
        t.cvuValue j.ctx = crcFeed p (s.cvuValue j.ctx) (s.mem.read ((Space.pf0 j.port).at j.src) j.len) % 2 ^ p.width ∧
        t.reg R.CVU_CNT_BYTES_LO = n % 2 ^ 32 ∧ t.reg R.CVU_CNT_BYTES_HI = n / 2 ^ 32 % 2 ^ 32))

/-! ### Storage (chapter 09) -/

/-- Doorbells, enable and reset of controllers (R211, R212, R226). A write of a page that does not answer is gone, one that a paused hall holds waits, and
another takes effect: a doorbell of a queue moves its index, a value outside the queue raises an event; CC.EN set takes two rings for the admin queues and
raises RDY, which stays 0 without them (log entry 50); a reset drops queues and commands and keeps namespaces, cache and a running operation, and RDY
falls when nothing of a host command is in flight. Stores of the host's own come first (log entry 6). -/
def Obligations.NvmeQueuesAndControllers : Prop :=
  (∀ (s : State) (p : Fin 4) (h : Fin 2) (c : Fin 256) (q tail head : BitVec 16) (cc aqa : Word) (asq acq : DWord) (stores : List (DWord × Byte)),
    let rows := [(Instr.nvmeSqDoorbell p h c q tail stores, Instr.nvmeSqDoorbell p h c q tail [], stores),
      (.nvmeCqDoorbell p h c q head, .nvmeCqDoorbell p h c q head, []),
      (.controllerEnable p h c cc aqa asq acq, .controllerEnable p h c cc aqa asq acq, []), (.controllerReset p h c, .controllerReset p h c, [])]
    (∀ i w l, (i, w, l) ∈ rows →
      let u := s.hostStores (s.slice c).space l
      (u.pageAnswers p h c = false → exec i s = .next u) ∧
      (u.pageAnswers p h c = true → u.hallPaused 0 = true ∨ u.hallPaused 1 = true → exec i s =
        .next { u.wakeLink p h with held := u.held ++ [w] })) ∧
    (s.hallPaused 0 = false → s.hallPaused 1 = false → s.pageAnswers p h c = true →
      let u := (s.hostStores (s.slice c).space stores).wakeLink p h
      let v := s.wakeLink p h
      exec (.nvmeSqDoorbell p h c q tail stores) s = .next (u.sqDoorbell c q.toNat tail.toNat) ∧
      exec (.nvmeCqDoorbell p h c q head) s = .next (v.cqDoorbell c q.toNat head.toNat) ∧
      exec (.controllerEnable p h c cc aqa asq acq) s = .next (v.ctrlEnable c cc.toNat aqa.toNat asq.toNat acq.toNat) ∧
      exec (.controllerReset p h c) s = .next (v.nvReset c))) ∧
  (∀ (s : State) (c q n : Nat),
    let sq := (look (s.ctrl c).sqs q).bind fun x => (s.ring x.ring).map fun r => (x.ring, r)
    let cq := (look (s.ctrl c).cqs q).bind fun k => (s.ring k).map fun r => (k, r)
    let absent := if (s.ctrl c).en then s.nvEvent c 0 0 1 else s
    (sq = none → s.sqDoorbell c q n = absent) ∧ (cq = none → s.cqDoorbell c q n = absent) ∧
    (∀ k r, sq = some (k, r) → (r.entries ≤ n → s.sqDoorbell c q n = s.nvEvent c 0 1 1) ∧
      (n < r.entries → (s.sqDoorbell c q n).ring k = some { r with pi := n } ∧ s.sqDoorbell c q n = { s with rings := (s.sqDoorbell c q n).rings } ∧
        ∀ j, j ≠ k → (s.sqDoorbell c q n).ring j = s.ring j)) ∧
    (∀ k r, cq = some (k, r) → (r.entries ≤ n → s.cqDoorbell c q n = s.nvEvent c 0 1 1) ∧
      (n < r.entries → ∃ u : State, s.cqDoorbell c q n = u.nvDrain c ∧ u.ring k = some { r with ci := n } ∧ u = { s with rings := u.rings } ∧
        ∀ j, j ≠ k → u.ring j = s.ring j))) ∧
  (∀ (s : State) (c cc aqa asq acq : Nat),
    let x := s.ctrl c
    let t := s.ctrlEnable c cc aqa asq acq
    let sn := aqa % 4096 + 1
    let cn := aqa / 65536 % 4096 + 1
    let rc := nvRing c 0x0B (acq / 4096 * 4096) cn (some 0)
    let rs := nvRing c 0x0A (asq / 4096 * 4096) sn none
    let idle := s.ctrlOn c = false ∨ x.en = true ∨ x.rdy = true ∨ cc % 2 = 0
    (idle → t = s) ∧
    (¬ idle →
      let w := s.setCtrl c { x with cc := cc, aqa := aqa, asq := asq, acq := acq, en := true, ps := 0, idleAt := s.up }
      (sn < 2 ∨ cn < 2 → t = w) ∧
      (∀ y, 2 ≤ sn → 2 ≤ cn → w.nvTake c rc = (none, y) → t = y) ∧
      (∀ k y z, 2 ≤ sn → 2 ≤ cn → w.nvTake c rc = (some k, y) → y.nvTake c rs = (none, z) → t = { z with rings := drop z.rings k } ∧ (t.ctrl c).rdy = false) ∧
      (∀ k q y z, 2 ≤ sn → 2 ≤ cn → w.nvTake c rc = (some k, y) → y.nvTake c rs = (some q, z) → (t.ctrl c).rdy = true ∧ q ≠ k ∧
        (t.ctrl c).sqs = [(0, ⟨q, 0, none⟩)] ∧ (t.ctrl c).cqs = [(0, k)] ∧ t.ring k = some rc ∧ t.ring q = some rs ∧ (t.ctrl c).nss = x.nss ∧
        (t.ctrl c).cache = x.cache ∧ sameBytes s t))) ∧
  (∀ (s : State) (c : Nat) (r : Ring), ((s.slice c).ringQuota ≤ (s.rings.filter fun e => e.2.owner == c).length → s.nvTake c r = (none, s)) ∧
    (∀ k y, s.nvTake c r = (some k, y) → k < 65536 ∧ s.ring k = none ∧ y.ring k = some r ∧ (∀ j, j ≠ k → y.ring j = s.ring j) ∧ y.nvs = s.nvs ∧
      sameBytes s y)) ∧
  (∀ (s : State) (c : Nat), let x := s.ctrl c
    let t := s.nvReset c
    let y := t.ctrl c
    (x.en = false → t = s) ∧
    (x.en = true → y.en = false ∧ y.rdy = x.rdy ∧ y.sqs = [] ∧ y.cqs = [] ∧ y.wait = [] ∧ y.cmds = [] ∧ y.feats = [] ∧ y.aers = [] ∧ y.ps = 0 ∧
      y.nss = x.nss ∧ y.cache = x.cache ∧ y.deferred = x.deferred ∧ y.errors = x.errors ∧ y.rec' = x.rec' ∧ y.run.active = x.run.active ∧
      y.run.progress = x.run.progress ∧ t.nvs.be = s.nvs.be ∧ (∀ e ∈ x.cqs, t.ring e.2 = none) ∧ (∀ e ∈ x.sqs, t.ring e.2.ring = none) ∧
      t.mem = s.mem ∧ t.regs = s.regs)) ∧
  (∀ (s : State) (c : Fin 256),
    (s.nvResetting c = true → s.beHost c = false → ∃ t, exec (.controllerResetDone c) s = .next t ∧
      t.ctrl c = { s.ctrl c with rdy := false } ∧ t = { s with nvs := t.nvs } ∧ t.nvs.be = s.nvs.be) ∧
    (s.nvResetting c = false ∨ s.beHost c = true → exec (.controllerResetDone c) s = .next s))

/-- Admin commands (R211 to R214, R225, R227 to R229, R231 to R233, Tables 09-2 and 09-4). A controller that may fetch one takes it: in PS0 it runs, in a
lower state it waits for the exit latency. A command that the table, a sanitize or a format refuses ends with that status; another does what the rules
say and ends, and its completion entry goes to the completion queue with its phase bit, or waits for room. Order of checks and what the NVMe base
specification alone lays out follow log entry 49, rings entry 50, and the end of a format entry 53. -/
def Obligations.NvmeAdminCommands : Prop :=
  (∀ (s : State) (c : Fin 256) (d : Desc) (i : Instr) (k : NvKind),
    (i, k) ∈ [(Instr.createIoSq c d, NvKind.createSq), (.createIoCq c d, .createCq), (.deleteIoSq c d, .deleteSq), (.deleteIoCq c d, .deleteCq),
      (.getLogPage c d, .getLog), (.identify c d, .identify), (.nvmeAbort c d, .abort), (.setFeatures c d, .setFeat), (.getFeatures c d, .getFeat),
      (.asyncEventRequest c d, .aer), (.nsCreate c d, .nsCreate), (.nsDelete c d, .nsDelete), (.namespaceAttachment c d, .nsAttach),
      (.formatNvm c d, .format), (.sanitizeCryptoErase c d, .sanCrypto), (.sanitizeBlockErase c d, .sanBlock), (.sanitizeOverwrite c d, .sanOver),
      (.sanitizeExitFailure c d, .sanExit)] →
    let mine := nvKind 0 d = k ∨ ∃ e, nvKind 0 d = .bad e
    let x := s.ctrl c
    (¬ mine ∨ (∀ q r, ¬ nvFetches s c 0 d q r) → exec i s = .next s) ∧
    (∀ u, mine → nvFetched s u c 0 d → exec i s = .next (u.nvRun c 0 (sqeCid d)) ∧ u.nvCmd c 0 (sqeCid d) = some (nvNew s 0 d .run)) ∧
    (∀ q r, mine → nvFetches s c 0 d q r → x.ps ≠ 0 ∨ x.entering ≠ none ∨ x.exiting ≠ none → ∃ t, exec i s = .next t ∧
      (t.ctrl c).exiting ≠ none ∧ (t.ctrl c).cmds = x.cmds ++ [nvNew s 0 d .exit] ∧ (t.ctrl c).entering = none ∧ sameBytes s t)) ∧
  (∀ (s : State) (c q cid : Nat) (m : NvCmd), s.nvCmd c q cid = some m →
    let k := nvKind q m.sqe
    let v := s.updCmd c q cid fun y => { y with phase := .run }
    let st := v.nvRefuse c k m.sqe
    (k.frees = true → s.nvRun c q cid = (s.nvExec c q cid).nvSpace c) ∧ (k.frees = false → s.nvRun c q cid = s.nvExec c q cid) ∧
    (st = nvDeferred → s.nvExec c q cid = (v.pendClear c (sqeNs m.sqe)).nvEnd c q cid st 0) ∧
    (st ≠ nvOk → st ≠ nvDeferred → s.nvExec c q cid = v.nvEnd c q cid st 0) ∧
    (∀ e, st = nvOk → k = .bad e → s.nvExec c q cid = v.nvEnd c q cid e 0)) ∧
  (∀ (s : State) (c cid : Nat) (m : NvCmd), s.nvCmd c 0 cid = some m →
    let d := m.sqe
    let v := s.updCmd c 0 cid fun y => { y with phase := .run }
    let k := nvKind 0 d
    let run := s.nvExec c 0 cid
    let q := cdw d 10 % 65536
    let n := cdw d 10 / 65536 + 1
    let w := cdw d 11
    let x := v.ctrl c
    let fid := cdw d 10 % 256
    let ns := sqeNs d
    let fin : State → Nat → Nat → State := fun v st dw => v.nvEnd c 0 cid st dw
    v.nvRefuse c k d = nvOk →
    (k = .createCq →
      let st := if q = 0 ∨ v.ioqLimit c < q ∨ (look x.cqs q).isSome then nvQueueId else if n < 2 ∨ 4096 < n then nvQueueSize
        else if bitAt w 0 = false then nvField else if sqePrp1 d % x.page ≠ 0 then nvPrpOffset else if 64 ≤ w / 65536 then nvVector else nvOk
      let ring := nvRing c 0x0B (sqePrp1 d) n (if bitAt w 1 then some (w / 65536) else none)
      (st ≠ nvOk → run = fin v st 0) ∧ (∀ y, st = nvOk → v.nvTake c ring = (none, y) → run = fin y nvRings 0) ∧
      (∀ r y, st = nvOk → v.nvTake c ring = (some r, y) → run = fin (y.updCtrl c fun x => { x with cqs := put x.cqs q r }) nvOk 0)) ∧
    (k = .createSq →
      let st := if q = 0 ∨ v.ioqLimit c < q ∨ (look x.sqs q).isSome then nvQueueId else if w / 65536 = 0 ∨ look x.cqs (w / 65536) = none then nvCqInvalid
        else if n < 2 ∨ 4096 < n then nvQueueSize else if bitAt w 0 = false then nvField else if sqePrp1 d % x.page ≠ 0 then nvPrpOffset else nvOk
      let ring := nvRing c 0x0A (sqePrp1 d) n none
      (st ≠ nvOk → run = fin v st 0) ∧ (∀ y, st = nvOk → v.nvTake c ring = (none, y) → run = fin y nvRings 0) ∧
      (∀ r y, st = nvOk → v.nvTake c ring = (some r, y) → run = fin (y.updCtrl c fun x => { x with sqs := put x.sqs q ⟨r, w / 65536, none⟩ }) nvOk 0)) ∧
    (k = .deleteCq →
      (q = 0 ∨ look x.cqs q = none → run = fin v nvQueueId 0) ∧
      (∀ r, q ≠ 0 → look x.cqs q = some r → (x.sqs.any fun e => e.2.cq == q) = true → run = fin v nvQueueDelete 0) ∧
      (∀ r, q ≠ 0 → look x.cqs q = some r → (x.sqs.any fun e => e.2.cq == q) = false → ∃ y : State, run = fin y nvOk 0 ∧
        y.ring r = none ∧ (∀ j, j ≠ r → y.ring j = v.ring j) ∧ look (y.ctrl c).cqs q = none ∧ lookD (y.ctrl c).wait q [] = [] ∧ y.mem = v.mem)) ∧
    (k = .deleteSq →
      (q = 0 ∨ look x.sqs q = none → run = fin v nvQueueId 0) ∧
      (∀ y, q ≠ 0 → look x.sqs q = some y → y.closing ≠ none → run = fin v nvQueueId 0) ∧
      (∀ y, q ≠ 0 → look x.sqs q = some y → y.closing = none →
        let u := (v.updCtrl c fun z => { z with sqs := put z.sqs q { y with closing := some cid } }).cmdCommit c 0 cid
        let gone := (u.ctrl c).cmds.filter fun z => z.queue == q && !z.committed
        run = (((gone.foldl (fun s z => s.nvEnd c q z.cid nvSqDeleted 0) u).sqClose c q).nvIdle c) ∧
        ((x.cmds.any fun m => m.queue == q) = false → ∃ z : State, run = (z.cqePost c 0 cid nvOk 0).nvIdle c ∧ z.ring y.ring = none ∧
          look (z.ctrl c).sqs q = none ∧ z.nvCmd c 0 cid = none) ∧
        ((x.cmds.any fun m => m.queue == q) = true → gone = [] → look (run.ctrl c).sqs q = some { y with closing := some cid } ∧ run.rings = v.rings))) ∧
    (k = .getLog →
      (v.logPage c fid = none → run = fin v nvLogInvalid 0) ∧
      (∀ b, v.logPage c fid = some b →
        let size := 4 * (cdw d 10 / 65536 + 65536 * (w % 65536) + 1)
        (v.prpOk c d size = false → run = fin v nvPrpOffset 0) ∧
        (v.prpOk c d size = true →
          let y := v.prpWrite c d (cut b (cdw d 12 + 2 ^ 32 * cdw d 13) size)
          let z := if bitAt (cdw d 10) 15 then y else y.updCtrl c fun x => { x with masked := x.masked.filter (·.2 != fid) }
          run = State.aerSettle c ((fin z nvOk 0).ctrl c).events.length (fin z nvOk 0)))) ∧
    (k = .identify →
      let page (b : List Byte) : Prop := (v.prpOk c d 4096 = false → run = fin v nvPrpOffset 0) ∧ (v.prpOk c d 4096 = true → run = fin (v.prpWrite c d b) nvOk 0)
      (fid ∉ [0x00, 0x01, 0x02, 0x03, 0x10, 0x11, 0x12, 0x13] → run = fin v nvField 0) ∧
      (fid ∈ [0x03, 0x11, 0x12] → look x.nss ns = none → run = fin v nvNamespace 0) ∧
      (fid = 0x00 → look x.nss ns = none → ns = 0 ∨ v.nsLimit c < ns → run = fin v nvNamespace 0) ∧
      (fid = 0x00 → look x.nss ns = none → 1 ≤ ns → ns ≤ v.nsLimit c → page (List.replicate 4096 0)) ∧
      (∀ y, look x.nss ns = some y →
        (fid = 0x00 → page (if y.attached then identifyNs c ns (some y) else List.replicate 4096 0)) ∧ (fid = 0x11 → page (identifyNs c ns (some y))) ∧
        (fid = 0x03 → page (cut (Config.identify 3 c ns) 0 4096)) ∧ (fid = 0x12 → page (ctrlPage (if y.attached then [Config.cntlid c] else [])))) ∧
      (fid = 0x01 → page (v.identifyCtrl c)) ∧ (fid = 0x02 → page (idPage ((x.nss.filter (·.2.attached)).map (·.1)) ns)) ∧
      (fid = 0x10 → page (idPage (x.nss.map (·.1)) ns)) ∧ (fid = 0x13 → page (ctrlPage [Config.cntlid c]))) ∧
    (k = .abort → run = fin v nvOk 1) ∧
    (k = .setFeat →
      let set := v.updCtrl c fun x => { x with feats := put x.feats (featureKey fid w) w }
      (bitAt (cdw d 10) 31 = true → run = fin v nvNotSaveable 0) ∧
      (bitAt (cdw d 10) 31 = false → v.featureOk c fid = false → run = fin v nvField 0) ∧
      (bitAt (cdw d 10) 31 = false → v.featureOk c fid = true →
        (fid ∉ [0x02, 0x07, 0x0C] → run = fin set nvOk 0) ∧
        (fid = 0x02 → (4 < w % 32 → run = fin v nvField 0) ∧ (w % 32 ≤ 4 → run = fin (set.psEnter c (w % 32)) nvOk 0)) ∧
        (fid = 0x07 → (w % 65536 = 65535 ∨ w / 65536 = 65535 → run = fin v nvField 0) ∧
          (w % 65536 ≠ 65535 → w / 65536 ≠ 65535 → run = fin v nvOk ((v.ioqLimit c - 1) * 65537))) ∧
        (fid = 0x0C → (v.prpOk c d 256 = false → run = fin v nvPrpOffset 0) ∧ (v.prpOk c d 256 = true → ∃ y : State, run = fin y nvOk 0 ∧
          (y.ctrl c).apst = v.prpRead c d 256 ∧ look (y.ctrl c).feats 0x0C = some w ∧ y.mem = v.mem)))) ∧
    (k = .getFeat →
      let sel := bits (cdw d 10) 10 8
      let dflt := v.featureDefault c fid
      let now := if fid = 0x02 then x.ps else if fid = 0x07 then dflt else lookD x.feats (featureKey fid w) dflt
      (v.featureOk c fid = false ∨ 3 < sel → run = fin v nvField 0) ∧
      (v.featureOk c fid = true → sel = 3 → run = fin v nvOk 4) ∧
      (v.featureOk c fid = true → sel < 3 →
        run = fin (if fid = 0x0C then v.prpWrite c d (v.apstTable c) else v) nvOk (if sel = 0 then now else dflt))) ∧
    (k = .aer →
      (4 ≤ x.aers.length → run = fin v nvAerLimit 0) ∧
      (x.aers.length < 4 → ∃ y : State, run = (State.aerSettle c x.events.length y).nvIdle c ∧ (y.ctrl c).aers = x.aers ++ [cid] ∧
        y.nvCmd c 0 cid = none ∧ y = { v with nvs := y.nvs })) ∧
    (k = .nsCreate →
      let b := v.prpRead c d 384
      let full := (List.range (v.nsLimit c)).all fun k => (look x.nss (k + 1)).isSome
      let st := if fieldAt b 26 1 % 16 ≠ 0 then nvFormatInvalid else if fieldAt b 0 8 = 0 then nvField
        else if segBlocks (v.poolGaps c) < fieldAt b 0 8 then nvCapacity else if full then nvNoNsid else nvOk
      (st ≠ nvOk → run = fin v st 0) ∧
      (st = nvOk → ∃ (j key : Nat) (y : State), 1 ≤ j ∧ j ≤ v.nsLimit c ∧ look x.nss j = none ∧ run = fin y nvOk j ∧
        look (y.ctrl c).nss j = some ⟨takeBlocks (v.poolGaps c) (fieldAt b 0 8), false, key, false⟩ ∧
        (∀ i, i ≠ j → look (y.ctrl c).nss i = look x.nss i) ∧ y.mem = v.mem)) ∧
    (k = .nsDelete →
      (x.formats ns = true → run = fin v nvFormatting 0) ∧
      (x.formats ns = false → ns = 0xFFFFFFFF → run = fin (x.nss.foldl (fun s e => s.nsDrop c e.1) v) nvOk 0) ∧
      (x.formats ns = false → ns ≠ 0xFFFFFFFF → look x.nss ns = none → run = fin v nvNamespace 0) ∧
      (x.formats ns = false → ns ≠ 0xFFFFFFFF → look x.nss ns ≠ none → run = fin (v.nsDrop c ns) nvOk 0 ∧
        look ((v.nsDrop c ns).ctrl c).nss ns = none ∧ ∀ b ∈ ((v.nsDrop c ns).ctrl c).cache, b.ns ≠ ns)) ∧
    (k = .nsAttach →
      let b := v.prpRead c d 4096
      let sel := cdw d 10 % 16
      (look x.nss ns = none → run = fin v nvNamespace 0) ∧
      (∀ y, look x.nss ns = some y →
        let st := if x.formats ns then nvFormatting else if 1 < sel then nvField
          else if fieldAt b 0 2 ≠ 1 ∨ fieldAt b 2 2 ≠ Config.cntlid c % 65536 then nvCtrlList
          else if sel = 0 ∧ y.attached = true then nvAttached else if sel = 1 ∧ y.attached = false then nvNotAttached else nvOk
        (st ≠ nvOk → run = fin v st 0) ∧
        (st = nvOk → run = fin (v.updCtrl c fun z => { z with nss := put z.nss ns { y with attached := decide (sel = 0) } }) nvOk 0))) ∧
    (k = .format →
      let st := if ns ≠ 0xFFFFFFFF ∧ look x.nss ns = none then nvNamespace else if x.rec'.formatting then nvFormatting
        else if cdw d 10 % 16 ≠ 0 ∨ bits (cdw d 10) 13 12 ≠ 0 then nvFormatInvalid else if 2 < bits (cdw d 10) 11 9 then nvField else nvOk
      (st ≠ nvOk → run = fin v st 0) ∧
      (st = nvOk → run = (v.opStart c 4 ns d (bits (cdw d 10) 11 9) (some cid)).opKick c)) ∧
    (∀ op, (k, op) ∈ [(NvKind.sanCrypto, 1), (.sanBlock, 2), (.sanOver, 3)] →
      (x.rec'.formatting = true → run = fin v nvFormatting 0) ∧
      (x.rec'.formatting = false → bitAt (cdw d 10) 9 = true → run = fin v nvField 0) ∧
      (x.rec'.formatting = false → bitAt (cdw d 10) 9 = false → run = (fin (v.opStart c op 0xFFFFFFFF d 0 none) nvOk 0).opKick c)) ∧
    (k = .sanExit → (x.rec'.sanFailed = false → run = fin v nvOk 0) ∧
      (x.rec'.sanFailed = true → ∃ y : State, run = fin y nvOk 0 ∧ (y.ctrl c).rec' = { x.rec' with state := 0, seq := (x.rec'.seq + 1) % 2 ^ 32 } ∧
        look y.nvs.nor (2 * c + (y.ctrl c).rec'.seq % 2) = some (y.ctrl c).rec'.bytes))) ∧
  (∀ (s : State) (c op ns ses : Nat) (d : Desc) (fmt : Option Nat), let y := s.opStart c op ns d ses fmt
    let r := (y.ctrl c).rec'
    let passes := if op = 3 then (cdw d 10 / 16 + 15) % 16 else 0
    r.op = op ∧ r.state = 1 ∧ r.nsid = ns ∧ r.pass = 0 ∧ r.passes = passes ∧ r.progress = 0 ∧ r.keysSet = false ∧
    r.pattern = (if op = 3 then cdw d 11 else 0) ∧ r.oipbp = (decide (op = 3) && bitAt (cdw d 10) 8) ∧
    (y.ctrl c).run.active = true ∧ (y.ctrl c).run.progress = 0 ∧ (y.ctrl c).run.fmt = fmt ∧ (y.ctrl c).run.ses = ses ∧
    look y.nvs.nor (2 * c + r.seq % 2) = some r.bytes ∧ (ns = 0xFFFFFFFF → (y.ctrl c).cache = []) ∧ (∀ b ∈ (y.ctrl c).cache, b.ns ≠ ns)) ∧
  (∀ (s : State) (c queue cid status dw0 : Nat) (q : NvSq) (k : Nat) (g : Ring), look (s.ctrl c).sqs queue = some q → look (s.ctrl c).cqs q.cq = some k →
    s.ring k = some g →
    let w := dw0 % 2 ^ 32 + ((s.ring q.ring).map (·.fi)).getD 0 * 2 ^ 64 + queue * 2 ^ 80 + cid * 2 ^ 96 + status * 2 ^ 113 +
      (if status ≠ nvOk ∧ Config.doNotRetry status = true then 2 ^ 127 else 0)
    let t := s.cqePost c queue cid status dw0
    (g.nvFull = true ∨ s.cqOpen g = false → lookD (t.ctrl c).wait q.cq [] = lookD (s.ctrl c).wait q.cq [] ++ [w] ∧ t.mem = s.mem ∧ t.ring k = some g) ∧
    (lookD (s.ctrl c).wait q.cq [] = [] → g.nvFull = false → s.cqOpen g = true →
      t.mem = s.mem.write ((s.slice c).space.at (g.base + 16 * g.fi)) (leBytes 16 (w + (1 - g.counter / max 1 g.entries % 2) * 2 ^ 112)) ∧
      t.ring k = some { g with fi := (g.fi + 1) % max 1 g.entries, counter := (g.counter + 1) % 2 ^ 64 } ∧ lookD (t.ctrl c).wait q.cq [] = [])) ∧
  (∀ (s : State) (c queue cid status dw0 : Nat), (s.nvCmd c queue cid = none → s.nvEnd c queue cid status dw0 = s) ∧
    (∀ m, s.nvCmd c queue cid = some m → ∃ v : State, s.nvEnd c queue cid status dw0 = ((v.cqePost c queue cid status dw0).sqClose c queue).nvIdle c ∧
      v = { s with nvs := v.nvs } ∧ v.nvCmd c queue cid = none ∧ (v.ctrl c).sqs = (s.ctrl c).sqs ∧ (v.ctrl c).cqs = (s.ctrl c).cqs ∧
      (v.ctrl c).cache = (s.ctrl c).cache ∧ v.beOf c queue cid = []))

/-- I/O commands (R213, R215 to R220, R222, R223, R234, R357). A controller that may fetch one takes it: in PS0 it starts, in a lower state it waits for the
exit latency; a Read, Write or Compare is offered to the Coffer in units of 64 KiB and waits for an epoch where one is refused. Run, it ends with the
status that refuses it; hits come from the cache, and misses and writes through it go to the endpoints of their extents, one that is down failing the
command; a cached Write leaves dirty blocks or waits for space; a Flush waits for the blocks dirty now; Dataset Management deallocates. The order of checks
and NVMe's own layouts are log entry 49's. -/
def Obligations.NvmeIoCommands : Prop :=
  (∀ (s : State) (c : Fin 256) (queue : BitVec 16) (d : Desc) (i : Instr) (k : NvKind),
    (i, k) ∈ [(Instr.nvmeRead c queue d, NvKind.read), (.nvmeWrite c queue d, .write), (.nvmeFlush c queue d, .flush), (.nvmeCompare c queue d, .compare),
      (.writeZeroes c queue d, .zeroes), (.datasetManagement c queue d, .dsm)] →
    let qn := queue.toNat
    let mine := queue ≠ 0 ∧ (nvKind qn d = k ∨ ∃ e, nvKind qn d = .bad e)
    let x := s.ctrl c
    (¬ mine ∨ (∀ q r, ¬ nvFetches s c qn d q r) → exec i s = .next s) ∧
    (∀ u, mine → nvFetched s u c qn d → exec i s = .next (u.nvStart c qn (sqeCid d)) ∧ u.nvCmd c qn (sqeCid d) = some (nvNew s qn d .run)) ∧
    (∀ q r, mine → nvFetches s c qn d q r → x.ps ≠ 0 ∨ x.entering ≠ none ∨ x.exiting ≠ none → ∃ t, exec i s = .next t ∧
      (t.ctrl c).exiting ≠ none ∧ (t.ctrl c).cmds = x.cmds ++ [nvNew s qn d .exit] ∧ (t.ctrl c).entering = none ∧ sameBytes s t)) ∧
  (∀ (s : State) (c q cid : Nat) (m : NvCmd), s.nvCmd c q cid = some m →
    let k := nvKind q m.sqe
    let units := ceilDiv (4096 * sqeBlocks m.sqe) 65536
    (s.nvRefuse c k m.sqe ≠ nvOk ∨ k.moves = false → s.nvStart c q cid = s.nvRun c q cid) ∧
    (s.nvRefuse c k m.sqe = nvOk → k.moves = true → s.nvStart c q cid = State.nvEnergy c q cid units s)) ∧
  (∀ (s : State) (c q cid n : Nat), State.nvEnergy c q cid 0 s = s.nvRun c q cid ∧
    (∀ v, s.nvAdmit c = (true, v) → State.nvEnergy c q cid (n + 1) s = State.nvEnergy c q cid n v) ∧
    (∀ v, s.nvAdmit c = (false, v) → State.nvEnergy c q cid (n + 1) s = v.updCmd c q cid fun y => { y with phase := .energy, units := n + 1 })) ∧
  (∀ (s : State) (c q cid : Nat) (m : NvCmd), q ≠ 0 → s.nvCmd c q cid = some m →
    let d := m.sqe
    let v := s.updCmd c q cid fun y => { y with phase := .run }
    let k := nvKind q d
    let run := s.nvExec c q cid
    let ns := sqeNs d
    let lba := sqeLba d
    let n := sqeBlocks d
    let fin : State → Nat → State := fun v st => v.nvEnd c q cid st 0
    let mine := (v.ctrl c).cache.filter (·.within ns lba n)
    let bad (b : NvBlk) : Bool := b.guard != nvGuard b.lba b.data
    let spoiled := mine.filter fun b => bad b && (b.dirty || b.busy)
    let hits := mine.filter fun b => !bad b
    let clock := (v.ctrl c).clock + 1
    let seen := (v.updCtrl c fun x => { x with
      clock := clock,
      cache := (x.cache.filter fun b => !(b.within ns lba n && bad b && b.clean)).map fun b =>
        if b.within ns lba n then (if bad b then { b with failed := true, dirty := false } else { b with used := clock }) else b }).flushGone c fun e =>
      spoiled.any fun b => b.ns == e.1 && b.lba == e.2.1
    let found := ((seen.bumpBy F.NVS_CNT_READ_HIT hits.length).bumpBy F.NVS_CNT_READ_MISS (n - hits.length)).updCmd c q cid fun y =>
      { y with got := hits.map fun b => (b.lba, b.data) }
    let lost := mine.any (·.failed) = true ∨ spoiled ≠ []
    let held := (∀ b ∈ mine, b.failed = false ∧ b.guard = nvGuard b.lba b.data) ∧ ∀ j < n, (v.ctrl c).blk ns (lba + j) ≠ none
    let alone := ∀ y ∈ (s.ctrl c).cmds, y.queue = q → y.cid = cid → y = m
    let bytes := (List.range n).flatMap fun j => (((v.ctrl c).blk ns (lba + j)).map (·.data)).getD []
    v.nvRefuse c k d = nvOk →
    (k = .flush →
      let l := if v.wce c then ((v.ctrl c).dirtyOf ns).map fun b => (b.ns, b.lba, b.ver) else []
      (l = [] → run = fin v nvOk) ∧ (l ≠ [] → run = v.updCmd c q cid fun y => { y with flush := l, committed := true })) ∧
    (k = .dsm →
      let l := dsmRanges (v.prpRead c d (16 * (cdw d 10 % 256 + 1))) (cdw d 10 % 256 + 1)
      let size := ((look (v.ctrl c).nss ns).map Ns.size).getD 0
      (bitAt (cdw d 11) 2 = false → run = fin v nvOk) ∧
      (bitAt (cdw d 11) 2 = true → (∃ e ∈ l, size < e.1 + e.2) → run = fin v nvLbaRange) ∧
      (bitAt (cdw d 11) 2 = true → (∀ e ∈ l, e.1 + e.2 ≤ size) →
        run = (l.foldl (fun s e => s.nvIssue c q cid ns e.1 e.2 .zero []) v).nvSettle c q cid)) ∧
    (k = .zeroes → run = (v.nvIssue c q cid ns lba n .zero []).nvSettle c q cid) ∧
    (k = .write → v.wce c = false →
      run = ((v.cmdCommit c q cid).nvIssue c q cid ns lba n .write (v.prpRead c d (4096 * n))).nvSettle c q cid) ∧
    (k = .write → v.wce c = true → v.cacheRoom c ns lba n = false →
      run = v.updCmd c q cid fun y => { y with phase := .space, at' := if m.phase = .space then y.at' else v.up }) ∧
    (k = .write → v.wce c = true → v.cacheRoom c ns lba n = true → ∃ y : State, run = fin (y.cmdCommit c q cid) nvOk ∧ y = { v with nvs := y.nvs } ∧
      (n = 1 → ∃ b, (y.ctrl c).blk ns lba = some b ∧ b.dirty = true ∧
        b.failed = false ∧ b.data = cut (v.prpRead c d 4096) 0 4096 ∧ b.guard = nvGuard lba b.data)) ∧
    (k = .read ∨ k = .compare → lost → run = fin seen nvUnrecovered) ∧
    (k = .read → held → m.fail = nvOk → alone → v.beOf c q cid = [] → run = fin ((found.cmdCommit c q cid).prpWrite c d bytes) nvOk) ∧
    (k = .compare → held → m.fail = nvOk → alone → v.beOf c q cid = [] →
      run = fin found (if found.prpRead c d (4096 * n) = bytes then nvOk else nvCompareFail)) ∧
    (k = .read ∨ k = .compare → mine = [] → run = (found.nvIssue c q cid ns lba n .read []).nvSettle c q cid)) ∧
  (∀ (s : State) (c q cid ns lba n : Nat) (kind : BeKind) (bs : List Byte),
    (look (s.ctrl c).nss ns = none → s.nvIssue c q cid ns lba n kind bs = s.cmdFail c q cid nvNamespace) ∧
    (∀ x, look (s.ctrl c).nss ns = some x → ∃ go : State → Nat × Nat × Nat × Nat → State,
      s.nvIssue c q cid ns lba n kind bs = (segRuns x.segs 0 lba n).foldl go s ∧
      ∀ (s : State) (ext off m l : Nat), let part := cut bs (4096 * (l - lba)) (4096 * m)
        (s.ext c ext = none → go s (ext, off, m, l) = s.cmdFail c q cid nvInternal) ∧
        (∀ ep a, s.ext c ext = some (ep, a) → s.epUp ep = false → go s (ext, off, m, l) = s.cmdFail c q cid nvUnavailable) ∧
        (∀ ep a, s.ext c ext = some (ep, a) → s.epUp ep = true → kind = .write →
          go s (ext, off, m, l) = s.beIssue c ext off m .write ns l (.cmd q cid) (xtsBlocks x.key l part m) part []) ∧
        (∀ ep a, s.ext c ext = some (ep, a) → s.epUp ep = true → kind ≠ .write →
          go s (ext, off, m, l) = s.beIssue c ext off m kind ns l (.cmd q cid) [] [] []))) ∧
  (∀ (s : State) (c ext off n : Nat) (kind : BeKind) (ns nlba : Nat) (use : BeUse) (wire data : List Byte) (vers : List Nat),
    let v := (s.bufferedApply 14 0).bufferedApply 14 1
    let t := s.beIssue c ext off n kind ns nlba use wire data vers
    (v.ext c ext = none → t = v) ∧
    (∀ ep nsid lba size, v.ext c ext = some (ep, nsid, lba, size) → (∀ b ∈ v.nvs.be, b.id ≠ v.nvs.next) →
      t.nvs.be = v.nvs.be ++ [⟨v.nvs.next, c, ep, nsid, lba + off, n, kind, ns, nlba, use, wire, data, 1, v.up, true, vers⟩] ∧
      t.nvs.next = v.nvs.next + 1 ∧ t.nvs.ctrls = v.nvs.ctrls ∧ t.mem = v.mem ∧
      t.outbox = .backend v.nvs.next ep kind.code nsid (lba + off) n wire :: v.outbox ∧ (kind ≠ .write → t.regs = v.regs))) ∧
  (∀ (s : State) (c q cid : Nat) (m : NvCmd), s.nvCmd c q cid = some m →
    let n := sqeBlocks m.sqe
    let bytes : List Byte := (List.range n).flatMap fun j => lookD m.got (sqeLba m.sqe + j) (List.replicate 4096 0)
    let t := s.nvSettle c q cid
    (m.phase ≠ .run ∨ s.beOf c q cid ≠ [] → t = s) ∧
    (m.phase = .run → s.beOf c q cid = [] → m.fail ≠ nvOk → t = s.nvEnd c q cid m.fail 0) ∧
    (m.phase = .run → s.beOf c q cid = [] → m.fail = nvOk →
      (nvKind q m.sqe = .read → t = ((s.cmdCommit c q cid).prpWrite c m.sqe bytes).nvEnd c q cid nvOk 0) ∧
      (nvKind q m.sqe = .compare → t = s.nvEnd c q cid (if s.prpRead c m.sqe (4096 * n) = bytes then nvOk else nvCompareFail) 0) ∧
      (nvKind q m.sqe ≠ .read → nvKind q m.sqe ≠ .compare → t = s.nvEnd c q cid nvOk 0)))

/-- Backends, power states and long operations (R215, R217 to R220, R222, R223, R226 to R232). Destage sends dirty blocks in LBA order, and one whose guard CRC
fails becomes FAILED; an answer ends what its command serves, and a failed try is tried again and then ends it with a status; an endpoint is lost and comes
back; an idle controller moves down a state and wakes after its exit latency; a sanitize or format is checkpointed, passes on, ends, fails or resumes, with
its record in NOR at each. Model's choices: log entries 51 to 53, and 7 on how time moves. -/
def Obligations.NvmeBackendAndOperations : Prop :=
  (∀ (s : State) (c : Fin 256) (count : Nat), (s.ctrlServes c = false → exec (.destage c count) s = .next s) ∧
    (s.ctrlServes c = true → exec (.destage c count) s = .next (s.destage c count))) ∧
  (∀ (s : State) (c count : Nat), let x := s.ctrl c
    let up (b : NvBlk) : Bool := match (look x.nss b.ns).bind (·.at' b.lba) with
      | some (e, _) => (s.ext c e).any fun t => s.epUp t.1
      | none => false
    let l := sortBy (fun (a b : NvBlk) => a.ns < b.ns || (a.ns == b.ns && a.lba < b.lba)) (x.cache.filter fun b => b.dirty && !b.busy)
    let bad := l.filter fun b => b.guard != nvGuard b.lba b.data
    (bad ≠ [] → s.destage c count =
      (s.setCtrl c { x with cache := x.cache.map fun b => if bad.contains b then { b with dirty := false, failed := true } else b }).flushGone c fun e =>
        bad.any fun b => b.ns == e.1 && b.lba == e.2.1) ∧
    (bad = [] → l.find? up = none → s.destage c count = s) ∧
    (∀ b y ext off k a rest, bad = [] → l.find? up = some b → look x.nss b.ns = some y → segRuns y.segs 0 b.lba (max 1 count) = (ext, off, k, a) :: rest →
      let run := ((List.range k).map fun j => l.find? fun z => z.ns == b.ns && z.lba == b.lba + j).takeWhile Option.isSome |>.filterMap id
      let bs := run.flatMap (·.data)
      s.destage c count = (s.setCtrl c { x with cache := x.cache.map fun z => if run.contains z then { z with busy := true } else z }).beIssue c ext off
        run.length .write b.ns b.lba .destage (xtsBlocks y.key b.lba bs run.length) bs (run.map (·.ver)))) ∧
  (∀ (s : State) (id : Nat) (st : BitVec 11) (data : List Byte), (s.beFind id = none → ∀ i ∈ [Instr.backendResponse id st data, .backendTimeout id],
      exec i s = .next s) ∧
    (∀ b, s.beFind id = some b → (st = 0 → exec (.backendResponse id st data) s = .next (s.beDone b data)) ∧
      (st ≠ 0 → exec (.backendResponse id st data) s = .next (s.beRetry b st.toNat (if st.toNat / 256 = 2 then st.toNat else nvInternal))) ∧
      exec (.backendTimeout id) s =
        .next (((s.upTo (b.at' + 10 ^ 6 * s.beTimeoutMs)).bump F.NVS_CNT_BE_TIMEOUT).beRetry b 0xFFFF nvUnavailable))) ∧
  (∀ (s : State) (b : BeCmd) (data : List Byte), ∃ v : State, let c := b.ctrl
    v.nvs = { s.nvs with be := s.nvs.be.filter (·.id != b.id) } ∧ v.mem = s.mem ∧ v.rings = s.rings ∧
    (b.use = .free → b.kind ≠ .read → s.beDone b data = v.cacheTake c b.ns b.nlba b.n b.data) ∧
    (b.use = .free → b.kind = .read → look (s.ctrl c).nss b.ns = none → s.beDone b data = v) ∧
    (∀ x, b.use = .free → b.kind = .read → look (s.ctrl c).nss b.ns = some x → s.beDone b data = v.beFill b (beBlocks x.key b data)) ∧
    (b.use = .op → ∃ y : State, s.beDone b data = y.opKick c ∧ (y.ctrl c).run.progress = (s.ctrl c).run.progress + b.n ∧ (y.ctrl c).run.down = none) ∧
    (b.use = .destage → s.beDone b data = v.destaged b) ∧
    (∀ q cid, b.use = .cmd q cid → b.kind ≠ .read → s.beDone b data = ((v.cmdCommit c q cid).cacheTake c b.ns b.nlba b.n b.data).nvSettle c q cid) ∧
    (∀ q cid, b.use = .cmd q cid → b.kind = .read → look (s.ctrl c).nss b.ns = none → s.beDone b data = (v.cmdFail c q cid nvNamespace).nvSettle c q cid) ∧
    (∀ q cid x, b.use = .cmd q cid → b.kind = .read → look (s.ctrl c).nss b.ns = some x →
      let l := beBlocks x.key b data
      s.beDone b data = ((v.updCmd c q cid fun m => { m with got := m.got ++ l }).beFill b l).nvSettle c q cid)) ∧
  (∀ (s : State) (b : BeCmd) (l : List (Nat × List Byte)), (b.fill = false → s.beFill b l = s) ∧
    (b.fill = true → s.beFill b l = s.updCtrl b.ctrl fun y => l.foldl (fun (y : NvCtrl) (e : Nat × List Byte) => y.putBlk (s.cacheCap b.ctrl) b.ns e.1 e.2 false) y)) ∧
  (∀ (s : State) (b : BeCmd), let c := b.ctrl
    ∃ v : State, s.destaged b = (v.flushGone c fun e =>
        e.1 == b.ns && b.nlba ≤ e.2.1 && e.2.1 < b.nlba + b.n && e.2.2 ≤ b.vers.getD (e.2.1 - b.nlba) 0).nvSpace c ∧
      (v.ctrl c).cache = (s.ctrl c).cache.map (fun y => if y.within b.ns b.nlba b.n then
        { y with busy := false, dirty := y.dirty && y.ver != b.vers.getD (y.lba - b.nlba) 0 } else y) ∧
      (v.ctrl c).cmds = (s.ctrl c).cmds ∧ v.mem = s.mem ∧ v.nvs.be = s.nvs.be) ∧
  (∀ (s : State) (b : BeCmd) (status host : Nat),
    let v := s.setF (F.NVS_BE_LAST_STATUS b.ep) status
    (b.tries < 1 + v.getF F.NVS_BACKEND_CFG_RETRIES → s.beRetry b status host = v.beSend b) ∧
    (1 + v.getF F.NVS_BACKEND_CFG_RETRIES ≤ b.tries → s.beRetry b status host = v.beLost b status host)) ∧
  (∀ (s : State) (b : BeCmd), let t := s.beSend b
    t.outbox = .backend b.id b.ep b.kind.code b.nsid b.lba b.n b.wire :: s.outbox ∧ t = { s with nvs := t.nvs, outbox := t.outbox } ∧
    t.nvs.ctrls = s.nvs.ctrls ∧ t.nvs.be = s.nvs.be.map fun x => if x.id = b.id then { b with tries := b.tries + 1, at' := s.up } else x) ∧
  (∀ (s : State) (b : BeCmd) (status host : Nat), let c := b.ctrl
    let v := s.beDrop b.id
    (∀ x ∈ v.nvs.be, x.id ≠ b.id) ∧ v = { s with nvs := v.nvs } ∧
    (b.use = .free → s.beLost b status host = v) ∧
    (b.use = .op → ∃ y : State, s.beLost b status host = y.opKick c ∧
      (y.ctrl c).run = { (s.ctrl c).run with down := some ((s.ctrl c).run.down.getD s.up) }) ∧
    (b.use = .destage → s.beLost b status host = v.destageFail b status) ∧
    (∀ q cid, b.use = .cmd q cid → s.beLost b status host = (v.cmdFail c q cid host).nvSettle c q cid)) ∧
  (∀ (s : State) (b : BeCmd) (status : Nat), let c := b.ctrl
    let x := s.ctrl c
    let hit (y : NvBlk) : Bool := y.within b.ns b.nlba b.n && y.ver == b.vers.getD (y.lba - b.nlba) 0
    let waits (m : NvCmd) : Bool := m.flush.any fun e => e.1 == b.ns && b.nlba ≤ e.2.1 && e.2.1 < b.nlba + b.n
    ∃ v : State, s.destageFail b status = (((((v.nvEvent c 7 0xC0 0xC0).ctrl c).cmds.filter waits).foldl (fun s m =>
        (s.pendClear c (sqeNs m.sqe)).nvEnd c m.queue m.cid nvDeferred 0) (v.nvEvent c 7 0xC0 0xC0)).psSettle c) ∧
      (v.ctrl c).cache = x.cache.map (fun y => if hit y then { y with busy := false, dirty := false, failed := true }
        else if y.within b.ns b.nlba b.n then { y with busy := false } else y) ∧
      (x.deferred.length < 64 → (v.ctrl c).deferred = x.deferred ++ [⟨b.ns, b.nlba, b.n, status, s.now⟩] ∧
        v.getF F.NVS_CNT_DEFERRED = (s.getF F.NVS_CNT_DEFERRED + 1) % 2 ^ 32) ∧
      (64 ≤ x.deferred.length → (v.ctrl c).deferred = x.deferred ∧ (v.ctrl c).lost = min 65535 (x.lost + 1)) ∧
      (∀ n, look x.nss b.ns = some n → look (v.ctrl c).nss b.ns = some { n with pend := true }) ∧ v.getF F.NVS_STATUS_DEFERRED = 1 ∧ v.mem = s.mem) ∧
  (∀ (s : State) (c : Fin 256) (q cid : BitVec 16),
    (s.nvCmd c q.toNat cid.toNat = none → exec (.cacheSpaceTimeout c q cid) s = .next s) ∧
    (∀ m, s.nvCmd c q.toNat cid.toNat = some m →
      let v := s.upTo (m.at' + 10 ^ 6 * s.beTimeoutMs)
      let room := v.cacheRoom c (sqeNs m.sqe) (sqeLba m.sqe) (sqeBlocks m.sqe) = true
      (m.phase ≠ .space → exec (.cacheSpaceTimeout c q cid) s = .next s) ∧
      (m.phase = .space → room → exec (.cacheSpaceTimeout c q cid) s = .next (v.nvRun c q.toNat cid.toNat)) ∧
      (m.phase = .space → ¬ room → exec (.cacheSpaceTimeout c q cid) s = .next (v.nvEnd c q.toNat cid.toNat nvUnavailable 0)))) ∧
  (∀ (s : State) (k : Fin 16),
    (s.getF (F.NVS_BE_STATE k) ≠ 2 → exec (.backendConnectionLost k) s = .next s) ∧
    (s.getF (F.NVS_BE_STATE k) = 2 → ∃ v : State, v.getF (F.NVS_BE_STATE k) = 3 ∧ v.getF (F.NVS_BE_LAST_STATUS k) = 0xFFFF ∧
      v.getF F.NVS_STATUS_BACKEND_DOWN = 1 ∧ v = { s with regs := v.regs } ∧ regsBut [R.NVS_BE k, R.NVS_STATUS] s v ∧
      exec (.backendConnectionLost k) s = .next ((s.nvs.be.filter fun b => b.ep == k.val && (match b.use with | .cmd _ _ => true | _ => false)).foldl
        (fun s b => s.beLost b 0xFFFF nvUnavailable) v)) ∧
    (s.dev.stream = false ∨ s.backendStated k = false ∨ s.getF (F.NVS_BE_STATE k) = 2 → exec (.backendReconnected k) s = .next s) ∧
    (s.dev.stream = true → s.backendStated k = true → s.getF (F.NVS_BE_STATE k) ≠ 2 → ∃ v : State,
      exec (.backendReconnected k) s = .next (v.nvs.ctrls.foldl (fun s e => s.opKick e.1) v).envSettle ∧ v.getF (F.NVS_BE_STATE k) = 2 ∧
      regsBut [R.NVS_BE k] s v ∧ v = { s with regs := v.regs, nvs := v.nvs } ∧ v.nvs.be = s.nvs.be ∧
      ∀ c, (v.ctrl c).run.down = none ∨ (v.ctrl c).run.down = (s.ctrl c).run.down)) ∧
  (∀ (s : State) (c : Fin 256), let x := s.ctrl c
    let stays := x.rdy = false ∨ x.en = false ∨ x.cmds ≠ [] ∨ x.entering ≠ none ∨ x.exiting ≠ none ∨ 4 ≤ x.ps ∨ lookD x.feats 0x0C 1 % 2 = 0 ∨
      s.psIdle c (x.ps + 1) = 0
    (stays → exec (.apstIdleExpiry c) s = .next s) ∧
    (¬ stays → ∃ v t : State, exec (.apstIdleExpiry c) s = .next t ∧ t = (v.bufferedApply 14 2).updCtrl c (fun x => { x with idleAt := v.up }) ∧
      v.time = (s.upTo (x.idleAt + 10 ^ 6 * s.psIdle c (x.ps + 1))).time ∧ (v.ctrl c).cmds = [] ∧ v.regs = s.regs ∧ v.mem = s.mem ∧
      (x.ps + 1 < 3 ∨ x.dirtyOf 0xFFFFFFFF = [] → (v.ctrl c).ps = x.ps + 1 ∧ (v.ctrl c).entering = none) ∧
      (3 ≤ x.ps + 1 → x.dirtyOf 0xFFFFFFFF ≠ [] → (v.ctrl c).ps = x.ps ∧ (v.ctrl c).entering = some (x.ps + 1)))) ∧
  (∀ (s : State) (c : Fin 256), let x := s.ctrl c
    (x.exiting = none → exec (.exlatDone c) s = .next s) ∧
    (x.exiting ≠ none → ∃ v : State, v.ctrl c = { x with ps := 0, exiting := none } ∧ v = { s with nvs := v.nvs } ∧
      exec (.exlatDone c) s = .next ((x.cmds.filter fun m => m.phase == NvPhase.exit).foldl (fun s m => s.nvStart c m.queue m.cid) v))) ∧
  (∀ (s : State) (c : Fin 256), let x := s.ctrl c
    let idle := x.rec'.state ≠ 1 ∨ x.run.active = false ∨ s.ctrlServes c = false
    (idle → exec (.sanitizeCheckpoint c) s = .next s ∧ exec (.sanitizePassDone c) s = .next s) ∧
    (¬ idle → ∃ t y, exec (.sanitizeCheckpoint c) s = .next t ∧ y = t.ctrl c ∧ y.rec'.progress = x.run.progress ∧
      y.rec'.seq = (x.rec'.seq + 1) % 2 ^ 32 ∧ y.rec'.state = 1 ∧ look t.nvs.nor (2 * c + y.rec'.seq % 2) = some y.rec'.bytes ∧
      t.getF F.NVS_CNT_REC_WRITE = (s.getF F.NVS_CNT_REC_WRITE + 1) % 2 ^ 32 ∧
      t.time = (s.upTo (x.run.recAt + 10 ^ 9 * max 1 (s.getF F.NVS_SANITIZE_CFG_CKPT_S))).time ∧ sameBytes s t) ∧
    (¬ idle → s.shedAt 2 = true ∨ (x.opWrites = true ∧ x.run.progress < x.rec'.total) → exec (.sanitizePassDone c) s = .next s) ∧
    (¬ idle → s.shedAt 2 = false → (x.opWrites = true → x.rec'.total ≤ x.run.progress) →
      (x.rec'.pass < x.rec'.passes → ∃ y : State, exec (.sanitizePassDone c) s = .next (y.opKick c) ∧ (y.ctrl c).rec'.pass = x.rec'.pass + 1 ∧
        (y.ctrl c).rec'.progress = 0 ∧ (y.ctrl c).run.progress = 0 ∧ (y.ctrl c).rec'.state = 1 ∧
        look y.nvs.nor (2 * c + (y.ctrl c).rec'.seq % 2) = some (y.ctrl c).rec'.bytes) ∧
      (x.rec'.passes ≤ x.rec'.pass → ∃ y : State, exec (.sanitizePassDone c) s = .next (y.opEnd c 2) ∧ (y.ctrl c).rec'.progress = x.rec'.total ∧
        (x.rec'.op ≠ 4 ∨ x.run.ses ≠ 0 → (y.ctrl c).rec'.keysSet = true) ∧ (y.ctrl c).run.fmt = x.run.fmt))) ∧
  (∀ (s : State) (c state : Nat), ∃ v : State, let x := s.ctrl c
    (v.ctrl c).rec' = { x.rec' with state := state, seq := (x.rec'.seq + 1) % 2 ^ 32 } ∧ (v.ctrl c).run = NvOp.idle ∧
    look v.nvs.nor (2 * c + (v.ctrl c).rec'.seq % 2) = some (v.ctrl c).rec'.bytes ∧ v.getF F.NVS_STATUS_SANITIZE_DONE = 1 ∧
    (∀ b ∈ v.nvs.be, b.ctrl ≠ c ∨ b.use ≠ .op) ∧ v.mem = s.mem ∧
    let w := if x.rec'.op = 4 then v else v.nvEvent c 6 1 0x81
    (x.run.fmt = none → s.opEnd c state = w) ∧ (∀ cid, x.run.fmt = some cid → s.opEnd c state = w.nvEnd c 0 cid nvOk 0)) ∧
  (∀ (s : State) (c : Fin 256), let x := s.ctrl c
    (x.run.down = none ∨ x.rec'.sanitizing = false ∨ x.run.active = false ∨ s.shedAt 2 = true → exec (.sanitizeFailTimeout c) s = .next s) ∧
    (∀ t0, x.run.down = some t0 → x.rec'.sanitizing = true → x.run.active = true → s.shedAt 2 = false →
      exec (.sanitizeFailTimeout c) s = .next ((s.upTo (t0 + 10 ^ 9 * s.getF F.NVS_SANITIZE_CFG_FAIL_S)).opEnd c 3))) ∧
  (∀ (s : State) (c : Fin 256), let x := s.ctrl c
    let able := x.rec'.state = 1 ∧ x.run.active = false ∧ s.dev.stream = true ∧ s.ctrlServes c = true ∧
      ((s.slice c).state = .bound ∨ (s.slice c).state = .active)
    (¬ able → exec (.operationResume c) s = .next s) ∧
    (able → ∃ y : State, exec (.operationResume c) s = .next (y.opKick c) ∧ (y.ctrl c).run.active = true ∧
      (y.ctrl c).run.progress = x.rec'.progress ∧ (y.ctrl c).run.fmt = none ∧ (y.ctrl c).rec' = x.rec' ∧ (y.ctrl c).nss = x.nss ∧ sameBytes s y))

/-! ### What every step keeps -/

/-- Memory at reset is in the canonical form: no cell is listed. -/
def Obligations.MemoryCanonicalAtReset : Prop := Mem.wf State.reset.mem = true

/-- Every step keeps the canonical form of memory: addresses strictly rise, and no listed byte is what an unlisted one reads as (R5, R163;
log entry 5). -/
def Obligations.EveryStepKeepsMemoryCanonical : Prop :=
  ∀ s t : State, Mem.wf s.mem = true → step s = .next t → Mem.wf t.mem = true
end

