-- ==== Sys2Proof/Laws/Tables.lean ====
section
/-! SUPPORT. Sparse tables: what a look-up finds after a change, and that a free number is found. -/

namespace Sys2Proof.Machine

@[simp] theorem look_put_same {α : Type} (t : List (Nat × α)) (j : Nat) (v : α) : look (put t j v) j = some v := by
  induction t with
  | nil => simp [put, look]
  | cons e t ih =>
    obtain ⟨k, w⟩ := e
    simp only [put]
    split
    · simp [look]
    · split
      · simp [look]
      · rename_i h _; simp [look, h, ih]

theorem look_put_ne {α : Type} (t : List (Nat × α)) (j i : Nat) (v : α) (h : j ≠ i) : look (put t j v) i = look t i := by
  induction t with
  | nil => simp [put, look, h]
  | cons e t ih =>
    obtain ⟨k, w⟩ := e
    simp only [put]
    split
    · rename_i hk; subst hk; simp [look, h]
    · split
      · simp [look, h]
      · by_cases hk : k = i
        · simp [look, hk]
        · simp [look, hk, ih]

@[simp] theorem lookD_put_same {α : Type} (t : List (Nat × α)) (j : Nat) (v d : α) : lookD (put t j v) j d = v := by simp [lookD]

theorem lookD_put_ne {α : Type} (t : List (Nat × α)) (j i : Nat) (v d : α) (h : j ≠ i) : lookD (put t j v) i d = lookD t i d := by
  simp [lookD, look_put_ne t j i v h]

@[simp] theorem look_drop_same {α : Type} (t : List (Nat × α)) (j : Nat) : look (drop t j) j = none := by
  induction t with
  | nil => rfl
  | cons e t ih =>
    obtain ⟨k, w⟩ := e
    by_cases hk : k = j <;> simp_all [drop, look]

theorem look_drop_ne {α : Type} (t : List (Nat × α)) (j i : Nat) (h : j ≠ i) : look (drop t j) i = look t i := by
  induction t with
  | nil => rfl
  | cons e t ih =>
    obtain ⟨k, w⟩ := e
    by_cases hk : k = j
    · subst hk; simp_all [drop, look]
    · by_cases hi : k = i <;> simp_all [drop, look]

/-- A value found in a table stands in it with its key. -/
theorem mem_of_look {α : Type} (t : List (Nat × α)) (j : Nat) (v : α) (h : look t j = some v) : (j, v) ∈ t := by
  induction t with
  | nil => cases h
  | cons e t ih =>
    obtain ⟨k, w⟩ := e
    unfold look at h
    split at h
    · next hk => cases h; rw [hk]; exact List.mem_cons_self
    · exact List.mem_cons_of_mem _ (ih h)

/-- More candidates than a table has keys: one that is no key is found, where it is admitted. -/
theorem pickFree_some {α : Type} (t : List (Nat × α)) (lo n k start : Nat) (ok : Nat → Bool) (ht : t.length < k) (hk : k ≤ n)
    (hok : ∀ j, lo ≤ j → j < lo + n → look t j = none → ok j = true) : ∃ q, pickFree lo n k start ok = some q := by
  by_contra hn
  rw [not_exists] at hn
  have hx := Option.eq_none_iff_forall_ne_some.mpr hn
  unfold pickFree at hx
  rw [List.find?_eq_none] at hx
  have hsub : (List.range k).map (fun j => lo + (start + j) % n) ⊆ t.map (·.1) := by
    intro x hm
    have hb := hx x hm
    obtain ⟨j, hj, rfl⟩ := List.mem_map.mp hm
    have hlt : (start + j) % n < n := Nat.mod_lt _ (by rw [List.mem_range] at hj; omega)
    cases hl : look t (lo + (start + j) % n) with
    | none => exact absurd (hok _ (by omega) (by omega) hl) hb
    | some v => exact List.mem_map.mpr ⟨_, mem_of_look t _ v hl, rfl⟩
  have hnd : ((List.range k).map (fun j => lo + (start + j) % n)).Nodup := by
    refine List.Nodup.map_on ?_ List.nodup_range
    intro a ha b hb hab
    rw [List.mem_range] at ha hb
    have h1 : start + a ≡ start + b [MOD n] := Nat.add_left_cancel hab
    have h2 : a ≡ b [MOD n] := Nat.ModEq.add_left_cancel' start h1
    exact h2.eq_of_lt_of_lt (by omega) (by omega)
  have hle := (hnd.subperm hsub).length_le
  rw [List.length_map, List.length_map, List.length_range] at hle
  omega

/-- What is found is admitted, and lies among the candidates. -/
theorem pickFree_spec {lo n k start q : Nat} {ok : Nat → Bool} (h : pickFree lo n k start ok = some q) (hn : 0 < n) :
    ok q = true ∧ lo ≤ q ∧ q < lo + n := by
  unfold pickFree at h
  obtain ⟨j, -, rfl⟩ := List.mem_map.mp (List.mem_of_find?_eq_some h)
  have := Nat.mod_lt (start + j) hn
  exact ⟨List.find?_some h, by omega, by omega⟩

/-- Over a whole round, one that is admitted is found. -/
theorem pickFree_round {lo n start j : Nat} {ok : Nat → Bool} (hl : lo ≤ j) (hj : j < lo + n) (hok : ok j = true) :
    ∃ q, pickFree lo n n start ok = some q := by
  refine Option.isSome_iff_exists.mp (List.find?_isSome.mpr ⟨j, List.mem_map.mpr ⟨(j - lo + (n - start % n)) % n, ?_, ?_⟩, hok⟩)
  · exact List.mem_range.mpr (Nat.mod_lt _ (by omega))
  · have hs : start % n < n := Nat.mod_lt _ (by omega)
    have h1 : (start + (j - lo + (n - start % n)) % n) % n = (j - lo) % n := by
      rw [Nat.add_mod, Nat.mod_mod, ← Nat.add_mod]
      have h2 : start + (j - lo + (n - start % n)) = (j - lo) + n * (start / n + 1) := by
        have := Nat.div_add_mod start n
        rw [Nat.mul_add, Nat.mul_one]; omega
      rw [h2, Nat.add_mul_mod_self_left]
    rw [h1, Nat.mod_eq_of_lt (by omega)]; omega

/-- Where none is admitted, none is found. -/
theorem pickFree_none {lo n k start : Nat} {ok : Nat → Bool} (hn : 0 < n) (h : ∀ j, lo ≤ j → j < lo + n → ok j = false) :
    pickFree lo n k start ok = none := by
  refine List.find?_eq_none.mpr fun x hx => ?_
  obtain ⟨j, -, rfl⟩ := List.mem_map.mp hx
  have := Nat.mod_lt (start + j) hn
  simp [h _ (by omega : lo ≤ lo + (start + j) % n) (by omega)]

end Sys2Proof.Machine
end

