-- ==== Sys2Proof/Laws/Registers.lean ====
section
/-! SUPPORT. What a register or a field reads after another is written: the laws through which every statement about a register goes (R7, R265). -/

namespace Sys2Proof.Machine

theorem reg_setReg_same (s : State) (a v : Nat) : (s.setReg a v).reg a = v % 2 ^ 32 := by
  simp [State.reg, State.setReg]

theorem reg_setReg_ne (s : State) (a b v : Nat) (h : a ≠ b) : (s.setReg a v).reg b = s.reg b := by
  simp [State.reg, State.setReg, look_put_ne _ _ _ _ h]

theorem reg_setReg (s : State) (a b v : Nat) : (s.setReg a v).reg b = if a = b then v % 2 ^ 32 else s.reg b := by
  split
  · rename_i h; subst h; exact reg_setReg_same s a v
  · rename_i h; exact reg_setReg_ne s a b v h

/-- Bits of a number read back after they are set. -/
theorem bits_setBits_same (x hi lo v : Nat) (h : lo ≤ hi) : bits (setBits x hi lo v) hi lo = v % 2 ^ (hi + 1 - lo) := by
  unfold bits setBits
  have hp : 2 ^ (hi + 1) = 2 ^ lo * 2 ^ (hi + 1 - lo) := by rw [← pow_add]; congr 1; omega
  have h1 : x % 2 ^ lo < 2 ^ lo := Nat.mod_lt _ (by positivity)
  rw [hp, show x / (2 ^ lo * 2 ^ (hi + 1 - lo)) * (2 ^ lo * 2 ^ (hi + 1 - lo)) + v % 2 ^ (hi + 1 - lo) * 2 ^ lo + x % 2 ^ lo =
    x % 2 ^ lo + 2 ^ lo * (x / (2 ^ lo * 2 ^ (hi + 1 - lo)) * 2 ^ (hi + 1 - lo) + v % 2 ^ (hi + 1 - lo)) by ring]
  rw [Nat.add_mul_div_left _ _ (by positivity), Nat.div_eq_of_lt h1, zero_add, Nat.add_comm, Nat.add_mul_mod_self_right, Nat.mod_mod]

/-- Bits below or above the ones set stay. -/
theorem bits_setBits_ne (x hi lo v h' l' : Nat) (hl : lo ≤ hi) (hl' : l' ≤ h') (h : h' < lo ∨ hi < l') :
    bits (setBits x hi lo v) h' l' = bits x h' l' := by
  unfold bits setBits
  have hp : 2 ^ (hi + 1) = 2 ^ lo * 2 ^ (hi + 1 - lo) := by rw [← pow_add]; congr 1; omega
  have hv : v % 2 ^ (hi + 1 - lo) < 2 ^ (hi + 1 - lo) := Nat.mod_lt _ (by positivity)
  have hx : x % 2 ^ lo < 2 ^ lo := Nat.mod_lt _ (by positivity)
  rcases h with h | h
  · -- the field lies below
    have e1 : 2 ^ lo = 2 ^ l' * 2 ^ (h' + 1 - l') * 2 ^ (lo - (h' + 1)) := by
      rw [← pow_add, ← pow_add]; congr 1; omega
    have : x / 2 ^ (hi + 1) * 2 ^ (hi + 1) + v % 2 ^ (hi + 1 - lo) * 2 ^ lo + x % 2 ^ lo =
        x % 2 ^ lo + 2 ^ l' * (2 ^ (h' + 1 - l') * (2 ^ (lo - (h' + 1)) * (x / 2 ^ (hi + 1) * 2 ^ (hi + 1 - lo) + v % 2 ^ (hi + 1 - lo)))) := by
      rw [hp, e1]; ring
    rw [this, Nat.add_mul_div_left _ _ (by positivity), Nat.add_mul_mod_self_left]
    have e2 : x = x % 2 ^ lo + 2 ^ l' * (2 ^ (h' + 1 - l') * (2 ^ (lo - (h' + 1)) * (x / 2 ^ lo))) := by
      conv_lhs => rw [← Nat.mod_add_div x (2 ^ lo)]
      congr 1
      rw [← mul_assoc, ← mul_assoc, ← e1]
    conv_rhs => rw [e2, Nat.add_mul_div_left _ _ (by positivity), Nat.add_mul_mod_self_left]
  · -- the field lies above
    have hlow : v % 2 ^ (hi + 1 - lo) * 2 ^ lo + x % 2 ^ lo < 2 ^ (hi + 1) := by
      rw [hp]; nlinarith [hv, hx, show 0 < 2 ^ lo by positivity]
    have e3 : 2 ^ l' = 2 ^ (hi + 1) * 2 ^ (l' - (hi + 1)) := by rw [← pow_add]; congr 1; omega
    congr 1
    rw [e3, ← Nat.div_div_eq_div_mul, ← Nat.div_div_eq_div_mul, add_assoc, Nat.add_comm, Nat.add_mul_div_right _ _ (by positivity),
      Nat.div_eq_of_lt hlow, zero_add]

/-- Bits of a number below 2^32 are bits of the register that holds it. -/
theorem bits_mod (x hi lo : Nat) (h : hi < 32) (hl : lo ≤ hi) : bits (x % 2 ^ 32) hi lo = bits x hi lo := by
  unfold bits
  have e : 2 ^ 32 = 2 ^ lo * (2 ^ (hi + 1 - lo) * 2 ^ (31 - hi)) := by rw [← pow_add, ← pow_add]; congr 1; omega
  rw [e, Nat.mod_mul_right_div_self, Nat.mod_mul_right_mod]

theorem getF_setF_same (s : State) (f : Fld) (v : Nat) (h : f.ok = true) : (s.setF f v).getF f = v % 2 ^ (f.hi + 1 - f.lo) := by
  simp [Fld.ok] at h
  simp only [State.getF, State.setF, reg_setReg_same]
  rw [bits_mod _ _ _ h.2 h.1, bits_setBits_same _ _ _ _ h.1]

theorem getF_setF_apart (s : State) (f g : Fld) (v : Nat) (hf : f.ok = true) (hg : g.ok = true) (h : f.apart g = true) :
    (s.setF f v).getF g = s.getF g := by
  simp [Fld.ok] at hf hg
  simp [Fld.apart] at h
  simp only [State.getF, State.setF, reg_setReg]
  split
  · rename_i e
    rw [bits_mod _ _ _ hg.2 hg.1, bits_setBits_ne _ _ _ _ _ _ hf.1 hg.1 (by rcases h with (h | h) | h <;> [exact absurd e h; exact .inl h; exact .inr h]), e]
  · rfl

theorem getF_setReg_ne (s : State) (a v : Nat) (g : Fld) (h : a ≠ g.reg) : (s.setReg a v).getF g = s.getF g := by
  simp [State.getF, reg_setReg_ne s a g.reg v h]

theorem reg_setF_ne (s : State) (f : Fld) (v a : Nat) (h : f.reg ≠ a) : (s.setF f v).reg a = s.reg a := by
  simp [State.setF, reg_setReg_ne s f.reg a _ h]

theorem getF_bump_same (s : State) (f : Fld) (h : f.ok = true) : (s.bump f).getF f = (s.getF f + 1) % 2 ^ (f.hi + 1 - f.lo) := by
  simp [State.bump, State.bumpBy, getF_setF_same _ _ _ h]

theorem getF_bump_apart (s : State) (f g : Fld) (hf : f.ok = true) (hg : g.ok = true) (h : f.apart g = true) : (s.bump f).getF g = s.getF g := by
  simp [State.bump, State.bumpBy, getF_setF_apart _ _ _ _ hf hg h]

theorem reg_bump_ne (s : State) (f : Fld) (a : Nat) (h : f.reg ≠ a) : (s.bump f).reg a = s.reg a := by
  simp [State.bump, State.bumpBy, reg_setF_ne _ _ _ _ h]

theorem seqOf_ok (a : Nat) : (seqOf a).ok = true := rfl

theorem seqOf_apart (f g : Fld) (h : g.hi < 24) : (seqOf f.reg).apart g = true := by
  simp [Fld.apart, seqOf, h]

theorem apart_seqOf (f : Fld) (h : f.hi < 24) : f.apart (seqOf f.reg) = true := by
  simp [Fld.apart, seqOf, h]

/-- An event reports its value: the field holds it (R265). -/
theorem getF_eventV_same (s : State) (f : Fld) (v : Nat) (h : f.ok = true) (hs : f.hi < 24) :
    (s.eventV f v).getF f = v % 2 ^ (f.hi + 1 - f.lo) := by
  rw [State.eventV, getF_bump_apart _ _ _ (seqOf_ok _) h (seqOf_apart f f hs), getF_setF_same _ _ _ h]

/-- An event advances SEQ by one, and SEQ wraps at 256 (R265). -/
theorem seq_eventV (s : State) (f : Fld) (v : Nat) (h : f.ok = true) (hs : f.hi < 24) :
    (s.eventV f v).getF (seqOf f.reg) = (s.getF (seqOf f.reg) + 1) % 256 := by
  rw [State.eventV, getF_bump_same _ _ (seqOf_ok _), getF_setF_apart _ _ _ _ h (seqOf_ok _) (apart_seqOf f hs)]
  rfl

theorem getF_eventV_apart (s : State) (f g : Fld) (v : Nat) (hf : f.ok = true) (hg : g.ok = true) (h : f.apart g = true)
    (hs : g.hi < 24 ∨ g.reg ≠ f.reg) : (s.eventV f v).getF g = s.getF g := by
  have ha : (seqOf f.reg).apart g = true := by
    rcases hs with hs | hs
    · exact seqOf_apart f g hs
    · simp [Fld.apart, seqOf, Ne.symm hs]
  rw [State.eventV, getF_bump_apart _ _ _ (seqOf_ok _) hg ha, getF_setF_apart _ _ _ _ hf hg h]

theorem reg_eventV_ne (s : State) (f : Fld) (v a : Nat) (h : f.reg ≠ a) : (s.eventV f v).reg a = s.reg a := by
  rw [State.eventV, reg_bump_ne _ _ _ (by simpa [seqOf] using h), reg_setF_ne _ _ _ _ h]

end Sys2Proof.Machine
end

