-- ==== Sys2Proof/Laws/State.lean ====
section
/-! SUPPORT. One lemma per field and named update of the state: what the update does not touch reads as before. -/

namespace Sys2Proof.Machine

@[simp] theorem State.setReg_pend (s : State) (a v : Nat) : (s.setReg a v).pend = s.pend := (rfl)
@[simp] theorem State.setReg_latches (s : State) (a v : Nat) : (s.setReg a v).latches = s.latches := (rfl)
@[simp] theorem State.setReg_sealOk (s : State) (a v : Nat) : (s.setReg a v).sealOk = s.sealOk := (rfl)
@[simp] theorem State.setReg_sealBad (s : State) (a v : Nat) : (s.setReg a v).sealBad = s.sealBad := (rfl)
@[simp] theorem State.setReg_draws (s : State) (a v : Nat) : (s.setReg a v).draws = s.draws := (rfl)
@[simp] theorem State.setReg_dev (s : State) (a v : Nat) : (s.setReg a v).dev = s.dev := (rfl)
@[simp] theorem State.setReg_pwr (s : State) (a v : Nat) : (s.setReg a v).pwr = s.pwr := (rfl)
@[simp] theorem State.setReg_str (s : State) (a v : Nat) : (s.setReg a v).str = s.str := (rfl)
@[simp] theorem State.setReg_time (s : State) (a v : Nat) : (s.setReg a v).time = s.time := (rfl)
@[simp] theorem State.setReg_since (s : State) (a v : Nat) : (s.setReg a v).since = s.since := (rfl)
@[simp] theorem State.setReg_leaseMs (s : State) (a v : Nat) : (s.setReg a v).leaseMs = s.leaseMs := (rfl)
@[simp] theorem State.setReg_slcCmd (s : State) (a v : Nat) : (s.setReg a v).slcCmd = s.slcCmd := (rfl)
@[simp] theorem State.setReg_slices (s : State) (a v : Nat) : (s.setReg a v).slices = s.slices := (rfl)
@[simp] theorem State.setReg_nonceBase (s : State) (a v : Nat) : (s.setReg a v).nonceBase = s.nonceBase := (rfl)
@[simp] theorem State.setReg_rings (s : State) (a v : Nat) : (s.setReg a v).rings = s.rings := (rfl)
@[simp] theorem State.setReg_ops (s : State) (a v : Nat) : (s.setReg a v).ops = s.ops := (rfl)
@[simp] theorem State.setReg_opNext (s : State) (a v : Nat) : (s.setReg a v).opNext = s.opNext := (rfl)
@[simp] theorem State.setReg_cqWait (s : State) (a v : Nat) : (s.setReg a v).cqWait = s.cqWait := (rfl)
@[simp] theorem State.setReg_recent (s : State) (a v : Nat) : (s.setReg a v).recent = s.recent := (rfl)
@[simp] theorem State.setReg_clasps (s : State) (a v : Nat) : (s.setReg a v).clasps = s.clasps := (rfl)
@[simp] theorem State.setReg_errFail (s : State) (a v : Nat) : (s.setReg a v).errFail = s.errFail := (rfl)
@[simp] theorem State.setReg_errHold (s : State) (a v : Nat) : (s.setReg a v).errHold = s.errHold := (rfl)
@[simp] theorem State.setReg_msgs (s : State) (a v : Nat) : (s.setReg a v).msgs = s.msgs := (rfl)
@[simp] theorem State.setReg_msix (s : State) (a v : Nat) : (s.setReg a v).msix = s.msix := (rfl)
@[simp] theorem State.setReg_intx (s : State) (a v : Nat) : (s.setReg a v).intx = s.intx := (rfl)
@[simp] theorem State.setReg_links (s : State) (a v : Nat) : (s.setReg a v).links = s.links := (rfl)
@[simp] theorem State.setReg_fns (s : State) (a v : Nat) : (s.setReg a v).fns = s.fns := (rfl)
@[simp] theorem State.setReg_mem (s : State) (a v : Nat) : (s.setReg a v).mem = s.mem := (rfl)
@[simp] theorem State.setReg_gal (s : State) (a v : Nat) : (s.setReg a v).gal = s.gal := (rfl)
@[simp] theorem State.setReg_flights (s : State) (a v : Nat) : (s.setReg a v).flights = s.flights := (rfl)
@[simp] theorem State.setReg_flCtl (s : State) (a v : Nat) : (s.setReg a v).flCtl = s.flCtl := (rfl)
@[simp] theorem State.setReg_flCtlNext (s : State) (a v : Nat) : (s.setReg a v).flCtlNext = s.flCtlNext := (rfl)
@[simp] theorem State.setReg_fltWait (s : State) (a v : Nat) : (s.setReg a v).fltWait = s.fltWait := (rfl)
@[simp] theorem State.setReg_rte (s : State) (a v : Nat) : (s.setReg a v).rte = s.rte := (rfl)
@[simp] theorem State.setReg_plc (s : State) (a v : Nat) : (s.setReg a v).plc = s.plc := (rfl)
@[simp] theorem State.setReg_pp (s : State) (a v : Nat) : (s.setReg a v).pp = s.pp := (rfl)
@[simp] theorem State.setReg_nvs (s : State) (a v : Nat) : (s.setReg a v).nvs = s.nvs := (rfl)
@[simp] theorem State.setReg_cip (s : State) (a v : Nat) : (s.setReg a v).cip = s.cip := (rfl)
@[simp] theorem State.setReg_stw (s : State) (a v : Nat) : (s.setReg a v).stw = s.stw := (rfl)
@[simp] theorem State.setReg_sig (s : State) (a v : Nat) : (s.setReg a v).sig = s.sig := (rfl)
@[simp] theorem State.setReg_mio (s : State) (a v : Nat) : (s.setReg a v).mio = s.mio := (rfl)
@[simp] theorem State.setReg_outbox (s : State) (a v : Nat) : (s.setReg a v).outbox = s.outbox := (rfl)
@[simp] theorem State.setReg_held (s : State) (a v : Nat) : (s.setReg a v).held = s.held := (rfl)
@[simp] theorem State.setReg_mgmt (s : State) (a v : Nat) : (s.setReg a v).mgmt = s.mgmt := (rfl)
@[simp] theorem State.setReg_pending (s : State) (a v : Nat) : (s.setReg a v).pending = s.pending := (rfl)

@[simp] theorem State.setF_pend (s : State) (f : Fld) (v : Nat) : (s.setF f v).pend = s.pend := (rfl)
@[simp] theorem State.setF_latches (s : State) (f : Fld) (v : Nat) : (s.setF f v).latches = s.latches := (rfl)
@[simp] theorem State.setF_sealOk (s : State) (f : Fld) (v : Nat) : (s.setF f v).sealOk = s.sealOk := (rfl)
@[simp] theorem State.setF_sealBad (s : State) (f : Fld) (v : Nat) : (s.setF f v).sealBad = s.sealBad := (rfl)
@[simp] theorem State.setF_draws (s : State) (f : Fld) (v : Nat) : (s.setF f v).draws = s.draws := (rfl)
@[simp] theorem State.setF_dev (s : State) (f : Fld) (v : Nat) : (s.setF f v).dev = s.dev := (rfl)
@[simp] theorem State.setF_pwr (s : State) (f : Fld) (v : Nat) : (s.setF f v).pwr = s.pwr := (rfl)
@[simp] theorem State.setF_str (s : State) (f : Fld) (v : Nat) : (s.setF f v).str = s.str := (rfl)
@[simp] theorem State.setF_time (s : State) (f : Fld) (v : Nat) : (s.setF f v).time = s.time := (rfl)
@[simp] theorem State.setF_since (s : State) (f : Fld) (v : Nat) : (s.setF f v).since = s.since := (rfl)
@[simp] theorem State.setF_leaseMs (s : State) (f : Fld) (v : Nat) : (s.setF f v).leaseMs = s.leaseMs := (rfl)
@[simp] theorem State.setF_slcCmd (s : State) (f : Fld) (v : Nat) : (s.setF f v).slcCmd = s.slcCmd := (rfl)
@[simp] theorem State.setF_slices (s : State) (f : Fld) (v : Nat) : (s.setF f v).slices = s.slices := (rfl)
@[simp] theorem State.setF_nonceBase (s : State) (f : Fld) (v : Nat) : (s.setF f v).nonceBase = s.nonceBase := (rfl)
@[simp] theorem State.setF_rings (s : State) (f : Fld) (v : Nat) : (s.setF f v).rings = s.rings := (rfl)
@[simp] theorem State.setF_ops (s : State) (f : Fld) (v : Nat) : (s.setF f v).ops = s.ops := (rfl)
@[simp] theorem State.setF_opNext (s : State) (f : Fld) (v : Nat) : (s.setF f v).opNext = s.opNext := (rfl)
@[simp] theorem State.setF_cqWait (s : State) (f : Fld) (v : Nat) : (s.setF f v).cqWait = s.cqWait := (rfl)
@[simp] theorem State.setF_recent (s : State) (f : Fld) (v : Nat) : (s.setF f v).recent = s.recent := (rfl)
@[simp] theorem State.setF_clasps (s : State) (f : Fld) (v : Nat) : (s.setF f v).clasps = s.clasps := (rfl)
@[simp] theorem State.setF_errFail (s : State) (f : Fld) (v : Nat) : (s.setF f v).errFail = s.errFail := (rfl)
@[simp] theorem State.setF_errHold (s : State) (f : Fld) (v : Nat) : (s.setF f v).errHold = s.errHold := (rfl)
@[simp] theorem State.setF_msgs (s : State) (f : Fld) (v : Nat) : (s.setF f v).msgs = s.msgs := (rfl)
@[simp] theorem State.setF_msix (s : State) (f : Fld) (v : Nat) : (s.setF f v).msix = s.msix := (rfl)
@[simp] theorem State.setF_intx (s : State) (f : Fld) (v : Nat) : (s.setF f v).intx = s.intx := (rfl)
@[simp] theorem State.setF_links (s : State) (f : Fld) (v : Nat) : (s.setF f v).links = s.links := (rfl)
@[simp] theorem State.setF_fns (s : State) (f : Fld) (v : Nat) : (s.setF f v).fns = s.fns := (rfl)
@[simp] theorem State.setF_mem (s : State) (f : Fld) (v : Nat) : (s.setF f v).mem = s.mem := (rfl)
@[simp] theorem State.setF_gal (s : State) (f : Fld) (v : Nat) : (s.setF f v).gal = s.gal := (rfl)
@[simp] theorem State.setF_flights (s : State) (f : Fld) (v : Nat) : (s.setF f v).flights = s.flights := (rfl)
@[simp] theorem State.setF_flCtl (s : State) (f : Fld) (v : Nat) : (s.setF f v).flCtl = s.flCtl := (rfl)
@[simp] theorem State.setF_flCtlNext (s : State) (f : Fld) (v : Nat) : (s.setF f v).flCtlNext = s.flCtlNext := (rfl)
@[simp] theorem State.setF_fltWait (s : State) (f : Fld) (v : Nat) : (s.setF f v).fltWait = s.fltWait := (rfl)
@[simp] theorem State.setF_rte (s : State) (f : Fld) (v : Nat) : (s.setF f v).rte = s.rte := (rfl)
@[simp] theorem State.setF_plc (s : State) (f : Fld) (v : Nat) : (s.setF f v).plc = s.plc := (rfl)
@[simp] theorem State.setF_pp (s : State) (f : Fld) (v : Nat) : (s.setF f v).pp = s.pp := (rfl)
@[simp] theorem State.setF_nvs (s : State) (f : Fld) (v : Nat) : (s.setF f v).nvs = s.nvs := (rfl)
@[simp] theorem State.setF_cip (s : State) (f : Fld) (v : Nat) : (s.setF f v).cip = s.cip := (rfl)
@[simp] theorem State.setF_stw (s : State) (f : Fld) (v : Nat) : (s.setF f v).stw = s.stw := (rfl)
@[simp] theorem State.setF_sig (s : State) (f : Fld) (v : Nat) : (s.setF f v).sig = s.sig := (rfl)
@[simp] theorem State.setF_mio (s : State) (f : Fld) (v : Nat) : (s.setF f v).mio = s.mio := (rfl)
@[simp] theorem State.setF_outbox (s : State) (f : Fld) (v : Nat) : (s.setF f v).outbox = s.outbox := (rfl)
@[simp] theorem State.setF_held (s : State) (f : Fld) (v : Nat) : (s.setF f v).held = s.held := (rfl)
@[simp] theorem State.setF_mgmt (s : State) (f : Fld) (v : Nat) : (s.setF f v).mgmt = s.mgmt := (rfl)
@[simp] theorem State.setF_pending (s : State) (f : Fld) (v : Nat) : (s.setF f v).pending = s.pending := (rfl)

@[simp] theorem State.bumpBy_pend (s : State) (f : Fld) (n : Nat) : (s.bumpBy f n).pend = s.pend := (rfl)
@[simp] theorem State.bumpBy_latches (s : State) (f : Fld) (n : Nat) : (s.bumpBy f n).latches = s.latches := (rfl)
@[simp] theorem State.bumpBy_sealOk (s : State) (f : Fld) (n : Nat) : (s.bumpBy f n).sealOk = s.sealOk := (rfl)
@[simp] theorem State.bumpBy_sealBad (s : State) (f : Fld) (n : Nat) : (s.bumpBy f n).sealBad = s.sealBad := (rfl)
@[simp] theorem State.bumpBy_draws (s : State) (f : Fld) (n : Nat) : (s.bumpBy f n).draws = s.draws := (rfl)
@[simp] theorem State.bumpBy_dev (s : State) (f : Fld) (n : Nat) : (s.bumpBy f n).dev = s.dev := (rfl)
@[simp] theorem State.bumpBy_pwr (s : State) (f : Fld) (n : Nat) : (s.bumpBy f n).pwr = s.pwr := (rfl)
@[simp] theorem State.bumpBy_str (s : State) (f : Fld) (n : Nat) : (s.bumpBy f n).str = s.str := (rfl)
@[simp] theorem State.bumpBy_time (s : State) (f : Fld) (n : Nat) : (s.bumpBy f n).time = s.time := (rfl)
@[simp] theorem State.bumpBy_since (s : State) (f : Fld) (n : Nat) : (s.bumpBy f n).since = s.since := (rfl)
@[simp] theorem State.bumpBy_leaseMs (s : State) (f : Fld) (n : Nat) : (s.bumpBy f n).leaseMs = s.leaseMs := (rfl)
@[simp] theorem State.bumpBy_slcCmd (s : State) (f : Fld) (n : Nat) : (s.bumpBy f n).slcCmd = s.slcCmd := (rfl)
@[simp] theorem State.bumpBy_slices (s : State) (f : Fld) (n : Nat) : (s.bumpBy f n).slices = s.slices := (rfl)
@[simp] theorem State.bumpBy_nonceBase (s : State) (f : Fld) (n : Nat) : (s.bumpBy f n).nonceBase = s.nonceBase := (rfl)
@[simp] theorem State.bumpBy_rings (s : State) (f : Fld) (n : Nat) : (s.bumpBy f n).rings = s.rings := (rfl)
@[simp] theorem State.bumpBy_ops (s : State) (f : Fld) (n : Nat) : (s.bumpBy f n).ops = s.ops := (rfl)
@[simp] theorem State.bumpBy_opNext (s : State) (f : Fld) (n : Nat) : (s.bumpBy f n).opNext = s.opNext := (rfl)
@[simp] theorem State.bumpBy_cqWait (s : State) (f : Fld) (n : Nat) : (s.bumpBy f n).cqWait = s.cqWait := (rfl)
@[simp] theorem State.bumpBy_recent (s : State) (f : Fld) (n : Nat) : (s.bumpBy f n).recent = s.recent := (rfl)
@[simp] theorem State.bumpBy_clasps (s : State) (f : Fld) (n : Nat) : (s.bumpBy f n).clasps = s.clasps := (rfl)
@[simp] theorem State.bumpBy_errFail (s : State) (f : Fld) (n : Nat) : (s.bumpBy f n).errFail = s.errFail := (rfl)
@[simp] theorem State.bumpBy_errHold (s : State) (f : Fld) (n : Nat) : (s.bumpBy f n).errHold = s.errHold := (rfl)
@[simp] theorem State.bumpBy_msgs (s : State) (f : Fld) (n : Nat) : (s.bumpBy f n).msgs = s.msgs := (rfl)
@[simp] theorem State.bumpBy_msix (s : State) (f : Fld) (n : Nat) : (s.bumpBy f n).msix = s.msix := (rfl)
@[simp] theorem State.bumpBy_intx (s : State) (f : Fld) (n : Nat) : (s.bumpBy f n).intx = s.intx := (rfl)
@[simp] theorem State.bumpBy_links (s : State) (f : Fld) (n : Nat) : (s.bumpBy f n).links = s.links := (rfl)
@[simp] theorem State.bumpBy_fns (s : State) (f : Fld) (n : Nat) : (s.bumpBy f n).fns = s.fns := (rfl)
@[simp] theorem State.bumpBy_mem (s : State) (f : Fld) (n : Nat) : (s.bumpBy f n).mem = s.mem := (rfl)
@[simp] theorem State.bumpBy_gal (s : State) (f : Fld) (n : Nat) : (s.bumpBy f n).gal = s.gal := (rfl)
@[simp] theorem State.bumpBy_flights (s : State) (f : Fld) (n : Nat) : (s.bumpBy f n).flights = s.flights := (rfl)
@[simp] theorem State.bumpBy_flCtl (s : State) (f : Fld) (n : Nat) : (s.bumpBy f n).flCtl = s.flCtl := (rfl)
@[simp] theorem State.bumpBy_flCtlNext (s : State) (f : Fld) (n : Nat) : (s.bumpBy f n).flCtlNext = s.flCtlNext := (rfl)
@[simp] theorem State.bumpBy_fltWait (s : State) (f : Fld) (n : Nat) : (s.bumpBy f n).fltWait = s.fltWait := (rfl)
@[simp] theorem State.bumpBy_rte (s : State) (f : Fld) (n : Nat) : (s.bumpBy f n).rte = s.rte := (rfl)
@[simp] theorem State.bumpBy_plc (s : State) (f : Fld) (n : Nat) : (s.bumpBy f n).plc = s.plc := (rfl)
@[simp] theorem State.bumpBy_pp (s : State) (f : Fld) (n : Nat) : (s.bumpBy f n).pp = s.pp := (rfl)
@[simp] theorem State.bumpBy_nvs (s : State) (f : Fld) (n : Nat) : (s.bumpBy f n).nvs = s.nvs := (rfl)
@[simp] theorem State.bumpBy_cip (s : State) (f : Fld) (n : Nat) : (s.bumpBy f n).cip = s.cip := (rfl)
@[simp] theorem State.bumpBy_stw (s : State) (f : Fld) (n : Nat) : (s.bumpBy f n).stw = s.stw := (rfl)
@[simp] theorem State.bumpBy_sig (s : State) (f : Fld) (n : Nat) : (s.bumpBy f n).sig = s.sig := (rfl)
@[simp] theorem State.bumpBy_mio (s : State) (f : Fld) (n : Nat) : (s.bumpBy f n).mio = s.mio := (rfl)
@[simp] theorem State.bumpBy_outbox (s : State) (f : Fld) (n : Nat) : (s.bumpBy f n).outbox = s.outbox := (rfl)
@[simp] theorem State.bumpBy_held (s : State) (f : Fld) (n : Nat) : (s.bumpBy f n).held = s.held := (rfl)
@[simp] theorem State.bumpBy_mgmt (s : State) (f : Fld) (n : Nat) : (s.bumpBy f n).mgmt = s.mgmt := (rfl)
@[simp] theorem State.bumpBy_pending (s : State) (f : Fld) (n : Nat) : (s.bumpBy f n).pending = s.pending := (rfl)

@[simp] theorem State.bump_pend (s : State) (f : Fld) : (s.bump f).pend = s.pend := (rfl)
@[simp] theorem State.bump_latches (s : State) (f : Fld) : (s.bump f).latches = s.latches := (rfl)
@[simp] theorem State.bump_sealOk (s : State) (f : Fld) : (s.bump f).sealOk = s.sealOk := (rfl)
@[simp] theorem State.bump_sealBad (s : State) (f : Fld) : (s.bump f).sealBad = s.sealBad := (rfl)
@[simp] theorem State.bump_draws (s : State) (f : Fld) : (s.bump f).draws = s.draws := (rfl)
@[simp] theorem State.bump_dev (s : State) (f : Fld) : (s.bump f).dev = s.dev := (rfl)
@[simp] theorem State.bump_pwr (s : State) (f : Fld) : (s.bump f).pwr = s.pwr := (rfl)
@[simp] theorem State.bump_str (s : State) (f : Fld) : (s.bump f).str = s.str := (rfl)
@[simp] theorem State.bump_time (s : State) (f : Fld) : (s.bump f).time = s.time := (rfl)
@[simp] theorem State.bump_since (s : State) (f : Fld) : (s.bump f).since = s.since := (rfl)
@[simp] theorem State.bump_leaseMs (s : State) (f : Fld) : (s.bump f).leaseMs = s.leaseMs := (rfl)
@[simp] theorem State.bump_slcCmd (s : State) (f : Fld) : (s.bump f).slcCmd = s.slcCmd := (rfl)
@[simp] theorem State.bump_slices (s : State) (f : Fld) : (s.bump f).slices = s.slices := (rfl)
@[simp] theorem State.bump_nonceBase (s : State) (f : Fld) : (s.bump f).nonceBase = s.nonceBase := (rfl)
@[simp] theorem State.bump_rings (s : State) (f : Fld) : (s.bump f).rings = s.rings := (rfl)
@[simp] theorem State.bump_ops (s : State) (f : Fld) : (s.bump f).ops = s.ops := (rfl)
@[simp] theorem State.bump_opNext (s : State) (f : Fld) : (s.bump f).opNext = s.opNext := (rfl)
@[simp] theorem State.bump_cqWait (s : State) (f : Fld) : (s.bump f).cqWait = s.cqWait := (rfl)
@[simp] theorem State.bump_recent (s : State) (f : Fld) : (s.bump f).recent = s.recent := (rfl)
@[simp] theorem State.bump_clasps (s : State) (f : Fld) : (s.bump f).clasps = s.clasps := (rfl)
@[simp] theorem State.bump_errFail (s : State) (f : Fld) : (s.bump f).errFail = s.errFail := (rfl)
@[simp] theorem State.bump_errHold (s : State) (f : Fld) : (s.bump f).errHold = s.errHold := (rfl)
@[simp] theorem State.bump_msgs (s : State) (f : Fld) : (s.bump f).msgs = s.msgs := (rfl)
@[simp] theorem State.bump_msix (s : State) (f : Fld) : (s.bump f).msix = s.msix := (rfl)
@[simp] theorem State.bump_intx (s : State) (f : Fld) : (s.bump f).intx = s.intx := (rfl)
@[simp] theorem State.bump_links (s : State) (f : Fld) : (s.bump f).links = s.links := (rfl)
@[simp] theorem State.bump_fns (s : State) (f : Fld) : (s.bump f).fns = s.fns := (rfl)
@[simp] theorem State.bump_mem (s : State) (f : Fld) : (s.bump f).mem = s.mem := (rfl)
@[simp] theorem State.bump_gal (s : State) (f : Fld) : (s.bump f).gal = s.gal := (rfl)
@[simp] theorem State.bump_flights (s : State) (f : Fld) : (s.bump f).flights = s.flights := (rfl)
@[simp] theorem State.bump_flCtl (s : State) (f : Fld) : (s.bump f).flCtl = s.flCtl := (rfl)
@[simp] theorem State.bump_flCtlNext (s : State) (f : Fld) : (s.bump f).flCtlNext = s.flCtlNext := (rfl)
@[simp] theorem State.bump_fltWait (s : State) (f : Fld) : (s.bump f).fltWait = s.fltWait := (rfl)
@[simp] theorem State.bump_rte (s : State) (f : Fld) : (s.bump f).rte = s.rte := (rfl)
@[simp] theorem State.bump_plc (s : State) (f : Fld) : (s.bump f).plc = s.plc := (rfl)
@[simp] theorem State.bump_pp (s : State) (f : Fld) : (s.bump f).pp = s.pp := (rfl)
@[simp] theorem State.bump_nvs (s : State) (f : Fld) : (s.bump f).nvs = s.nvs := (rfl)
@[simp] theorem State.bump_cip (s : State) (f : Fld) : (s.bump f).cip = s.cip := (rfl)
@[simp] theorem State.bump_stw (s : State) (f : Fld) : (s.bump f).stw = s.stw := (rfl)
@[simp] theorem State.bump_sig (s : State) (f : Fld) : (s.bump f).sig = s.sig := (rfl)
@[simp] theorem State.bump_mio (s : State) (f : Fld) : (s.bump f).mio = s.mio := (rfl)
@[simp] theorem State.bump_outbox (s : State) (f : Fld) : (s.bump f).outbox = s.outbox := (rfl)
@[simp] theorem State.bump_held (s : State) (f : Fld) : (s.bump f).held = s.held := (rfl)
@[simp] theorem State.bump_mgmt (s : State) (f : Fld) : (s.bump f).mgmt = s.mgmt := (rfl)
@[simp] theorem State.bump_pending (s : State) (f : Fld) : (s.bump f).pending = s.pending := (rfl)

@[simp] theorem State.bumpSat_pend (s : State) (f : Fld) : (s.bumpSat f).pend = s.pend := (rfl)
@[simp] theorem State.bumpSat_latches (s : State) (f : Fld) : (s.bumpSat f).latches = s.latches := (rfl)
@[simp] theorem State.bumpSat_sealOk (s : State) (f : Fld) : (s.bumpSat f).sealOk = s.sealOk := (rfl)
@[simp] theorem State.bumpSat_sealBad (s : State) (f : Fld) : (s.bumpSat f).sealBad = s.sealBad := (rfl)
@[simp] theorem State.bumpSat_draws (s : State) (f : Fld) : (s.bumpSat f).draws = s.draws := (rfl)
@[simp] theorem State.bumpSat_dev (s : State) (f : Fld) : (s.bumpSat f).dev = s.dev := (rfl)
@[simp] theorem State.bumpSat_pwr (s : State) (f : Fld) : (s.bumpSat f).pwr = s.pwr := (rfl)
@[simp] theorem State.bumpSat_str (s : State) (f : Fld) : (s.bumpSat f).str = s.str := (rfl)
@[simp] theorem State.bumpSat_time (s : State) (f : Fld) : (s.bumpSat f).time = s.time := (rfl)
@[simp] theorem State.bumpSat_since (s : State) (f : Fld) : (s.bumpSat f).since = s.since := (rfl)
@[simp] theorem State.bumpSat_leaseMs (s : State) (f : Fld) : (s.bumpSat f).leaseMs = s.leaseMs := (rfl)
@[simp] theorem State.bumpSat_slcCmd (s : State) (f : Fld) : (s.bumpSat f).slcCmd = s.slcCmd := (rfl)
@[simp] theorem State.bumpSat_slices (s : State) (f : Fld) : (s.bumpSat f).slices = s.slices := (rfl)
@[simp] theorem State.bumpSat_nonceBase (s : State) (f : Fld) : (s.bumpSat f).nonceBase = s.nonceBase := (rfl)
@[simp] theorem State.bumpSat_rings (s : State) (f : Fld) : (s.bumpSat f).rings = s.rings := (rfl)
@[simp] theorem State.bumpSat_ops (s : State) (f : Fld) : (s.bumpSat f).ops = s.ops := (rfl)
@[simp] theorem State.bumpSat_opNext (s : State) (f : Fld) : (s.bumpSat f).opNext = s.opNext := (rfl)
@[simp] theorem State.bumpSat_cqWait (s : State) (f : Fld) : (s.bumpSat f).cqWait = s.cqWait := (rfl)
@[simp] theorem State.bumpSat_recent (s : State) (f : Fld) : (s.bumpSat f).recent = s.recent := (rfl)
@[simp] theorem State.bumpSat_clasps (s : State) (f : Fld) : (s.bumpSat f).clasps = s.clasps := (rfl)
@[simp] theorem State.bumpSat_errFail (s : State) (f : Fld) : (s.bumpSat f).errFail = s.errFail := (rfl)
@[simp] theorem State.bumpSat_errHold (s : State) (f : Fld) : (s.bumpSat f).errHold = s.errHold := (rfl)
@[simp] theorem State.bumpSat_msgs (s : State) (f : Fld) : (s.bumpSat f).msgs = s.msgs := (rfl)
@[simp] theorem State.bumpSat_msix (s : State) (f : Fld) : (s.bumpSat f).msix = s.msix := (rfl)
@[simp] theorem State.bumpSat_intx (s : State) (f : Fld) : (s.bumpSat f).intx = s.intx := (rfl)
@[simp] theorem State.bumpSat_links (s : State) (f : Fld) : (s.bumpSat f).links = s.links := (rfl)
@[simp] theorem State.bumpSat_fns (s : State) (f : Fld) : (s.bumpSat f).fns = s.fns := (rfl)
@[simp] theorem State.bumpSat_mem (s : State) (f : Fld) : (s.bumpSat f).mem = s.mem := (rfl)
@[simp] theorem State.bumpSat_gal (s : State) (f : Fld) : (s.bumpSat f).gal = s.gal := (rfl)
@[simp] theorem State.bumpSat_flights (s : State) (f : Fld) : (s.bumpSat f).flights = s.flights := (rfl)
@[simp] theorem State.bumpSat_flCtl (s : State) (f : Fld) : (s.bumpSat f).flCtl = s.flCtl := (rfl)
@[simp] theorem State.bumpSat_flCtlNext (s : State) (f : Fld) : (s.bumpSat f).flCtlNext = s.flCtlNext := (rfl)
@[simp] theorem State.bumpSat_fltWait (s : State) (f : Fld) : (s.bumpSat f).fltWait = s.fltWait := (rfl)
@[simp] theorem State.bumpSat_rte (s : State) (f : Fld) : (s.bumpSat f).rte = s.rte := (rfl)
@[simp] theorem State.bumpSat_plc (s : State) (f : Fld) : (s.bumpSat f).plc = s.plc := (rfl)
@[simp] theorem State.bumpSat_pp (s : State) (f : Fld) : (s.bumpSat f).pp = s.pp := (rfl)
@[simp] theorem State.bumpSat_nvs (s : State) (f : Fld) : (s.bumpSat f).nvs = s.nvs := (rfl)
@[simp] theorem State.bumpSat_cip (s : State) (f : Fld) : (s.bumpSat f).cip = s.cip := (rfl)
@[simp] theorem State.bumpSat_stw (s : State) (f : Fld) : (s.bumpSat f).stw = s.stw := (rfl)
@[simp] theorem State.bumpSat_sig (s : State) (f : Fld) : (s.bumpSat f).sig = s.sig := (rfl)
@[simp] theorem State.bumpSat_mio (s : State) (f : Fld) : (s.bumpSat f).mio = s.mio := (rfl)
@[simp] theorem State.bumpSat_outbox (s : State) (f : Fld) : (s.bumpSat f).outbox = s.outbox := (rfl)
@[simp] theorem State.bumpSat_held (s : State) (f : Fld) : (s.bumpSat f).held = s.held := (rfl)
@[simp] theorem State.bumpSat_mgmt (s : State) (f : Fld) : (s.bumpSat f).mgmt = s.mgmt := (rfl)
@[simp] theorem State.bumpSat_pending (s : State) (f : Fld) : (s.bumpSat f).pending = s.pending := (rfl)

@[simp] theorem State.bump64_pend (s : State) (lo hi n : Nat) : (s.bump64 lo hi n).pend = s.pend := (rfl)
@[simp] theorem State.bump64_latches (s : State) (lo hi n : Nat) : (s.bump64 lo hi n).latches = s.latches := (rfl)
@[simp] theorem State.bump64_sealOk (s : State) (lo hi n : Nat) : (s.bump64 lo hi n).sealOk = s.sealOk := (rfl)
@[simp] theorem State.bump64_sealBad (s : State) (lo hi n : Nat) : (s.bump64 lo hi n).sealBad = s.sealBad := (rfl)
@[simp] theorem State.bump64_draws (s : State) (lo hi n : Nat) : (s.bump64 lo hi n).draws = s.draws := (rfl)
@[simp] theorem State.bump64_dev (s : State) (lo hi n : Nat) : (s.bump64 lo hi n).dev = s.dev := (rfl)
@[simp] theorem State.bump64_pwr (s : State) (lo hi n : Nat) : (s.bump64 lo hi n).pwr = s.pwr := (rfl)
@[simp] theorem State.bump64_str (s : State) (lo hi n : Nat) : (s.bump64 lo hi n).str = s.str := (rfl)
@[simp] theorem State.bump64_time (s : State) (lo hi n : Nat) : (s.bump64 lo hi n).time = s.time := (rfl)
@[simp] theorem State.bump64_since (s : State) (lo hi n : Nat) : (s.bump64 lo hi n).since = s.since := (rfl)
@[simp] theorem State.bump64_leaseMs (s : State) (lo hi n : Nat) : (s.bump64 lo hi n).leaseMs = s.leaseMs := (rfl)
@[simp] theorem State.bump64_slcCmd (s : State) (lo hi n : Nat) : (s.bump64 lo hi n).slcCmd = s.slcCmd := (rfl)
@[simp] theorem State.bump64_slices (s : State) (lo hi n : Nat) : (s.bump64 lo hi n).slices = s.slices := (rfl)
@[simp] theorem State.bump64_nonceBase (s : State) (lo hi n : Nat) : (s.bump64 lo hi n).nonceBase = s.nonceBase := (rfl)
@[simp] theorem State.bump64_rings (s : State) (lo hi n : Nat) : (s.bump64 lo hi n).rings = s.rings := (rfl)
@[simp] theorem State.bump64_ops (s : State) (lo hi n : Nat) : (s.bump64 lo hi n).ops = s.ops := (rfl)
@[simp] theorem State.bump64_opNext (s : State) (lo hi n : Nat) : (s.bump64 lo hi n).opNext = s.opNext := (rfl)
@[simp] theorem State.bump64_cqWait (s : State) (lo hi n : Nat) : (s.bump64 lo hi n).cqWait = s.cqWait := (rfl)
@[simp] theorem State.bump64_recent (s : State) (lo hi n : Nat) : (s.bump64 lo hi n).recent = s.recent := (rfl)
@[simp] theorem State.bump64_clasps (s : State) (lo hi n : Nat) : (s.bump64 lo hi n).clasps = s.clasps := (rfl)
@[simp] theorem State.bump64_errFail (s : State) (lo hi n : Nat) : (s.bump64 lo hi n).errFail = s.errFail := (rfl)
@[simp] theorem State.bump64_errHold (s : State) (lo hi n : Nat) : (s.bump64 lo hi n).errHold = s.errHold := (rfl)
@[simp] theorem State.bump64_msgs (s : State) (lo hi n : Nat) : (s.bump64 lo hi n).msgs = s.msgs := (rfl)
@[simp] theorem State.bump64_msix (s : State) (lo hi n : Nat) : (s.bump64 lo hi n).msix = s.msix := (rfl)
@[simp] theorem State.bump64_intx (s : State) (lo hi n : Nat) : (s.bump64 lo hi n).intx = s.intx := (rfl)
@[simp] theorem State.bump64_links (s : State) (lo hi n : Nat) : (s.bump64 lo hi n).links = s.links := (rfl)
@[simp] theorem State.bump64_fns (s : State) (lo hi n : Nat) : (s.bump64 lo hi n).fns = s.fns := (rfl)
@[simp] theorem State.bump64_mem (s : State) (lo hi n : Nat) : (s.bump64 lo hi n).mem = s.mem := (rfl)
@[simp] theorem State.bump64_gal (s : State) (lo hi n : Nat) : (s.bump64 lo hi n).gal = s.gal := (rfl)
@[simp] theorem State.bump64_flights (s : State) (lo hi n : Nat) : (s.bump64 lo hi n).flights = s.flights := (rfl)
@[simp] theorem State.bump64_flCtl (s : State) (lo hi n : Nat) : (s.bump64 lo hi n).flCtl = s.flCtl := (rfl)
@[simp] theorem State.bump64_flCtlNext (s : State) (lo hi n : Nat) : (s.bump64 lo hi n).flCtlNext = s.flCtlNext := (rfl)
@[simp] theorem State.bump64_fltWait (s : State) (lo hi n : Nat) : (s.bump64 lo hi n).fltWait = s.fltWait := (rfl)
@[simp] theorem State.bump64_rte (s : State) (lo hi n : Nat) : (s.bump64 lo hi n).rte = s.rte := (rfl)
@[simp] theorem State.bump64_plc (s : State) (lo hi n : Nat) : (s.bump64 lo hi n).plc = s.plc := (rfl)
@[simp] theorem State.bump64_pp (s : State) (lo hi n : Nat) : (s.bump64 lo hi n).pp = s.pp := (rfl)
@[simp] theorem State.bump64_nvs (s : State) (lo hi n : Nat) : (s.bump64 lo hi n).nvs = s.nvs := (rfl)
@[simp] theorem State.bump64_cip (s : State) (lo hi n : Nat) : (s.bump64 lo hi n).cip = s.cip := (rfl)
@[simp] theorem State.bump64_stw (s : State) (lo hi n : Nat) : (s.bump64 lo hi n).stw = s.stw := (rfl)
@[simp] theorem State.bump64_sig (s : State) (lo hi n : Nat) : (s.bump64 lo hi n).sig = s.sig := (rfl)
@[simp] theorem State.bump64_mio (s : State) (lo hi n : Nat) : (s.bump64 lo hi n).mio = s.mio := (rfl)
@[simp] theorem State.bump64_outbox (s : State) (lo hi n : Nat) : (s.bump64 lo hi n).outbox = s.outbox := (rfl)
@[simp] theorem State.bump64_held (s : State) (lo hi n : Nat) : (s.bump64 lo hi n).held = s.held := (rfl)
@[simp] theorem State.bump64_mgmt (s : State) (lo hi n : Nat) : (s.bump64 lo hi n).mgmt = s.mgmt := (rfl)
@[simp] theorem State.bump64_pending (s : State) (lo hi n : Nat) : (s.bump64 lo hi n).pending = s.pending := (rfl)

@[simp] theorem State.event_pend (s : State) (f : Fld) : (s.event f).pend = s.pend := (rfl)
@[simp] theorem State.event_latches (s : State) (f : Fld) : (s.event f).latches = s.latches := (rfl)
@[simp] theorem State.event_sealOk (s : State) (f : Fld) : (s.event f).sealOk = s.sealOk := (rfl)
@[simp] theorem State.event_sealBad (s : State) (f : Fld) : (s.event f).sealBad = s.sealBad := (rfl)
@[simp] theorem State.event_draws (s : State) (f : Fld) : (s.event f).draws = s.draws := (rfl)
@[simp] theorem State.event_dev (s : State) (f : Fld) : (s.event f).dev = s.dev := (rfl)
@[simp] theorem State.event_pwr (s : State) (f : Fld) : (s.event f).pwr = s.pwr := (rfl)
@[simp] theorem State.event_str (s : State) (f : Fld) : (s.event f).str = s.str := (rfl)
@[simp] theorem State.event_time (s : State) (f : Fld) : (s.event f).time = s.time := (rfl)
@[simp] theorem State.event_since (s : State) (f : Fld) : (s.event f).since = s.since := (rfl)
@[simp] theorem State.event_leaseMs (s : State) (f : Fld) : (s.event f).leaseMs = s.leaseMs := (rfl)
@[simp] theorem State.event_slcCmd (s : State) (f : Fld) : (s.event f).slcCmd = s.slcCmd := (rfl)
@[simp] theorem State.event_slices (s : State) (f : Fld) : (s.event f).slices = s.slices := (rfl)
@[simp] theorem State.event_nonceBase (s : State) (f : Fld) : (s.event f).nonceBase = s.nonceBase := (rfl)
@[simp] theorem State.event_rings (s : State) (f : Fld) : (s.event f).rings = s.rings := (rfl)
@[simp] theorem State.event_ops (s : State) (f : Fld) : (s.event f).ops = s.ops := (rfl)
@[simp] theorem State.event_opNext (s : State) (f : Fld) : (s.event f).opNext = s.opNext := (rfl)
@[simp] theorem State.event_cqWait (s : State) (f : Fld) : (s.event f).cqWait = s.cqWait := (rfl)
@[simp] theorem State.event_recent (s : State) (f : Fld) : (s.event f).recent = s.recent := (rfl)
@[simp] theorem State.event_clasps (s : State) (f : Fld) : (s.event f).clasps = s.clasps := (rfl)
@[simp] theorem State.event_errFail (s : State) (f : Fld) : (s.event f).errFail = s.errFail := (rfl)
@[simp] theorem State.event_errHold (s : State) (f : Fld) : (s.event f).errHold = s.errHold := (rfl)
@[simp] theorem State.event_msgs (s : State) (f : Fld) : (s.event f).msgs = s.msgs := (rfl)
@[simp] theorem State.event_msix (s : State) (f : Fld) : (s.event f).msix = s.msix := (rfl)
@[simp] theorem State.event_intx (s : State) (f : Fld) : (s.event f).intx = s.intx := (rfl)
@[simp] theorem State.event_links (s : State) (f : Fld) : (s.event f).links = s.links := (rfl)
@[simp] theorem State.event_fns (s : State) (f : Fld) : (s.event f).fns = s.fns := (rfl)
@[simp] theorem State.event_mem (s : State) (f : Fld) : (s.event f).mem = s.mem := (rfl)
@[simp] theorem State.event_gal (s : State) (f : Fld) : (s.event f).gal = s.gal := (rfl)
@[simp] theorem State.event_flights (s : State) (f : Fld) : (s.event f).flights = s.flights := (rfl)
@[simp] theorem State.event_flCtl (s : State) (f : Fld) : (s.event f).flCtl = s.flCtl := (rfl)
@[simp] theorem State.event_flCtlNext (s : State) (f : Fld) : (s.event f).flCtlNext = s.flCtlNext := (rfl)
@[simp] theorem State.event_fltWait (s : State) (f : Fld) : (s.event f).fltWait = s.fltWait := (rfl)
@[simp] theorem State.event_rte (s : State) (f : Fld) : (s.event f).rte = s.rte := (rfl)
@[simp] theorem State.event_plc (s : State) (f : Fld) : (s.event f).plc = s.plc := (rfl)
@[simp] theorem State.event_pp (s : State) (f : Fld) : (s.event f).pp = s.pp := (rfl)
@[simp] theorem State.event_nvs (s : State) (f : Fld) : (s.event f).nvs = s.nvs := (rfl)
@[simp] theorem State.event_cip (s : State) (f : Fld) : (s.event f).cip = s.cip := (rfl)
@[simp] theorem State.event_stw (s : State) (f : Fld) : (s.event f).stw = s.stw := (rfl)
@[simp] theorem State.event_sig (s : State) (f : Fld) : (s.event f).sig = s.sig := (rfl)
@[simp] theorem State.event_mio (s : State) (f : Fld) : (s.event f).mio = s.mio := (rfl)
@[simp] theorem State.event_outbox (s : State) (f : Fld) : (s.event f).outbox = s.outbox := (rfl)
@[simp] theorem State.event_held (s : State) (f : Fld) : (s.event f).held = s.held := (rfl)
@[simp] theorem State.event_mgmt (s : State) (f : Fld) : (s.event f).mgmt = s.mgmt := (rfl)
@[simp] theorem State.event_pending (s : State) (f : Fld) : (s.event f).pending = s.pending := (rfl)

@[simp] theorem State.eventV_pend (s : State) (f : Fld) (v : Nat) : (s.eventV f v).pend = s.pend := (rfl)
@[simp] theorem State.eventV_latches (s : State) (f : Fld) (v : Nat) : (s.eventV f v).latches = s.latches := (rfl)
@[simp] theorem State.eventV_sealOk (s : State) (f : Fld) (v : Nat) : (s.eventV f v).sealOk = s.sealOk := (rfl)
@[simp] theorem State.eventV_sealBad (s : State) (f : Fld) (v : Nat) : (s.eventV f v).sealBad = s.sealBad := (rfl)
@[simp] theorem State.eventV_draws (s : State) (f : Fld) (v : Nat) : (s.eventV f v).draws = s.draws := (rfl)
@[simp] theorem State.eventV_dev (s : State) (f : Fld) (v : Nat) : (s.eventV f v).dev = s.dev := (rfl)
@[simp] theorem State.eventV_pwr (s : State) (f : Fld) (v : Nat) : (s.eventV f v).pwr = s.pwr := (rfl)
@[simp] theorem State.eventV_str (s : State) (f : Fld) (v : Nat) : (s.eventV f v).str = s.str := (rfl)
@[simp] theorem State.eventV_time (s : State) (f : Fld) (v : Nat) : (s.eventV f v).time = s.time := (rfl)
@[simp] theorem State.eventV_since (s : State) (f : Fld) (v : Nat) : (s.eventV f v).since = s.since := (rfl)
@[simp] theorem State.eventV_leaseMs (s : State) (f : Fld) (v : Nat) : (s.eventV f v).leaseMs = s.leaseMs := (rfl)
@[simp] theorem State.eventV_slcCmd (s : State) (f : Fld) (v : Nat) : (s.eventV f v).slcCmd = s.slcCmd := (rfl)
@[simp] theorem State.eventV_slices (s : State) (f : Fld) (v : Nat) : (s.eventV f v).slices = s.slices := (rfl)
@[simp] theorem State.eventV_nonceBase (s : State) (f : Fld) (v : Nat) : (s.eventV f v).nonceBase = s.nonceBase := (rfl)
@[simp] theorem State.eventV_rings (s : State) (f : Fld) (v : Nat) : (s.eventV f v).rings = s.rings := (rfl)
@[simp] theorem State.eventV_ops (s : State) (f : Fld) (v : Nat) : (s.eventV f v).ops = s.ops := (rfl)
@[simp] theorem State.eventV_opNext (s : State) (f : Fld) (v : Nat) : (s.eventV f v).opNext = s.opNext := (rfl)
@[simp] theorem State.eventV_cqWait (s : State) (f : Fld) (v : Nat) : (s.eventV f v).cqWait = s.cqWait := (rfl)
@[simp] theorem State.eventV_recent (s : State) (f : Fld) (v : Nat) : (s.eventV f v).recent = s.recent := (rfl)
@[simp] theorem State.eventV_clasps (s : State) (f : Fld) (v : Nat) : (s.eventV f v).clasps = s.clasps := (rfl)
@[simp] theorem State.eventV_errFail (s : State) (f : Fld) (v : Nat) : (s.eventV f v).errFail = s.errFail := (rfl)
@[simp] theorem State.eventV_errHold (s : State) (f : Fld) (v : Nat) : (s.eventV f v).errHold = s.errHold := (rfl)
@[simp] theorem State.eventV_msgs (s : State) (f : Fld) (v : Nat) : (s.eventV f v).msgs = s.msgs := (rfl)
@[simp] theorem State.eventV_msix (s : State) (f : Fld) (v : Nat) : (s.eventV f v).msix = s.msix := (rfl)
@[simp] theorem State.eventV_intx (s : State) (f : Fld) (v : Nat) : (s.eventV f v).intx = s.intx := (rfl)
@[simp] theorem State.eventV_links (s : State) (f : Fld) (v : Nat) : (s.eventV f v).links = s.links := (rfl)
@[simp] theorem State.eventV_fns (s : State) (f : Fld) (v : Nat) : (s.eventV f v).fns = s.fns := (rfl)
@[simp] theorem State.eventV_mem (s : State) (f : Fld) (v : Nat) : (s.eventV f v).mem = s.mem := (rfl)
@[simp] theorem State.eventV_gal (s : State) (f : Fld) (v : Nat) : (s.eventV f v).gal = s.gal := (rfl)
@[simp] theorem State.eventV_flights (s : State) (f : Fld) (v : Nat) : (s.eventV f v).flights = s.flights := (rfl)
@[simp] theorem State.eventV_flCtl (s : State) (f : Fld) (v : Nat) : (s.eventV f v).flCtl = s.flCtl := (rfl)
@[simp] theorem State.eventV_flCtlNext (s : State) (f : Fld) (v : Nat) : (s.eventV f v).flCtlNext = s.flCtlNext := (rfl)
@[simp] theorem State.eventV_fltWait (s : State) (f : Fld) (v : Nat) : (s.eventV f v).fltWait = s.fltWait := (rfl)
@[simp] theorem State.eventV_rte (s : State) (f : Fld) (v : Nat) : (s.eventV f v).rte = s.rte := (rfl)
@[simp] theorem State.eventV_plc (s : State) (f : Fld) (v : Nat) : (s.eventV f v).plc = s.plc := (rfl)
@[simp] theorem State.eventV_pp (s : State) (f : Fld) (v : Nat) : (s.eventV f v).pp = s.pp := (rfl)
@[simp] theorem State.eventV_nvs (s : State) (f : Fld) (v : Nat) : (s.eventV f v).nvs = s.nvs := (rfl)
@[simp] theorem State.eventV_cip (s : State) (f : Fld) (v : Nat) : (s.eventV f v).cip = s.cip := (rfl)
@[simp] theorem State.eventV_stw (s : State) (f : Fld) (v : Nat) : (s.eventV f v).stw = s.stw := (rfl)
@[simp] theorem State.eventV_sig (s : State) (f : Fld) (v : Nat) : (s.eventV f v).sig = s.sig := (rfl)
@[simp] theorem State.eventV_mio (s : State) (f : Fld) (v : Nat) : (s.eventV f v).mio = s.mio := (rfl)
@[simp] theorem State.eventV_outbox (s : State) (f : Fld) (v : Nat) : (s.eventV f v).outbox = s.outbox := (rfl)
@[simp] theorem State.eventV_held (s : State) (f : Fld) (v : Nat) : (s.eventV f v).held = s.held := (rfl)
@[simp] theorem State.eventV_mgmt (s : State) (f : Fld) (v : Nat) : (s.eventV f v).mgmt = s.mgmt := (rfl)
@[simp] theorem State.eventV_pending (s : State) (f : Fld) (v : Nat) : (s.eventV f v).pending = s.pending := (rfl)

@[simp] theorem State.violate_pend (s : State) (m : Master) (v : Viol) (o : Nat) : (s.violate m v o).pend = s.pend := (rfl)
@[simp] theorem State.violate_latches (s : State) (m : Master) (v : Viol) (o : Nat) : (s.violate m v o).latches = s.latches := (rfl)
@[simp] theorem State.violate_sealOk (s : State) (m : Master) (v : Viol) (o : Nat) : (s.violate m v o).sealOk = s.sealOk := (rfl)
@[simp] theorem State.violate_sealBad (s : State) (m : Master) (v : Viol) (o : Nat) : (s.violate m v o).sealBad = s.sealBad := (rfl)
@[simp] theorem State.violate_draws (s : State) (m : Master) (v : Viol) (o : Nat) : (s.violate m v o).draws = s.draws := (rfl)
@[simp] theorem State.violate_dev (s : State) (m : Master) (v : Viol) (o : Nat) : (s.violate m v o).dev = s.dev := (rfl)
@[simp] theorem State.violate_pwr (s : State) (m : Master) (v : Viol) (o : Nat) : (s.violate m v o).pwr = s.pwr := (rfl)
@[simp] theorem State.violate_str (s : State) (m : Master) (v : Viol) (o : Nat) : (s.violate m v o).str = s.str := (rfl)
@[simp] theorem State.violate_time (s : State) (m : Master) (v : Viol) (o : Nat) : (s.violate m v o).time = s.time := (rfl)
@[simp] theorem State.violate_since (s : State) (m : Master) (v : Viol) (o : Nat) : (s.violate m v o).since = s.since := (rfl)
@[simp] theorem State.violate_leaseMs (s : State) (m : Master) (v : Viol) (o : Nat) : (s.violate m v o).leaseMs = s.leaseMs := (rfl)
@[simp] theorem State.violate_slcCmd (s : State) (m : Master) (v : Viol) (o : Nat) : (s.violate m v o).slcCmd = s.slcCmd := (rfl)
@[simp] theorem State.violate_slices (s : State) (m : Master) (v : Viol) (o : Nat) : (s.violate m v o).slices = s.slices := (rfl)
@[simp] theorem State.violate_nonceBase (s : State) (m : Master) (v : Viol) (o : Nat) : (s.violate m v o).nonceBase = s.nonceBase := (rfl)
@[simp] theorem State.violate_rings (s : State) (m : Master) (v : Viol) (o : Nat) : (s.violate m v o).rings = s.rings := (rfl)
@[simp] theorem State.violate_ops (s : State) (m : Master) (v : Viol) (o : Nat) : (s.violate m v o).ops = s.ops := (rfl)
@[simp] theorem State.violate_opNext (s : State) (m : Master) (v : Viol) (o : Nat) : (s.violate m v o).opNext = s.opNext := (rfl)
@[simp] theorem State.violate_cqWait (s : State) (m : Master) (v : Viol) (o : Nat) : (s.violate m v o).cqWait = s.cqWait := (rfl)
@[simp] theorem State.violate_recent (s : State) (m : Master) (v : Viol) (o : Nat) : (s.violate m v o).recent = s.recent := (rfl)
@[simp] theorem State.violate_clasps (s : State) (m : Master) (v : Viol) (o : Nat) : (s.violate m v o).clasps = s.clasps := (rfl)
@[simp] theorem State.violate_errFail (s : State) (m : Master) (v : Viol) (o : Nat) : (s.violate m v o).errFail = s.errFail := (rfl)
@[simp] theorem State.violate_errHold (s : State) (m : Master) (v : Viol) (o : Nat) : (s.violate m v o).errHold = s.errHold := (rfl)
@[simp] theorem State.violate_msgs (s : State) (m : Master) (v : Viol) (o : Nat) : (s.violate m v o).msgs = s.msgs := (rfl)
@[simp] theorem State.violate_msix (s : State) (m : Master) (v : Viol) (o : Nat) : (s.violate m v o).msix = s.msix := (rfl)
@[simp] theorem State.violate_intx (s : State) (m : Master) (v : Viol) (o : Nat) : (s.violate m v o).intx = s.intx := (rfl)
@[simp] theorem State.violate_links (s : State) (m : Master) (v : Viol) (o : Nat) : (s.violate m v o).links = s.links := (rfl)
@[simp] theorem State.violate_fns (s : State) (m : Master) (v : Viol) (o : Nat) : (s.violate m v o).fns = s.fns := (rfl)
@[simp] theorem State.violate_mem (s : State) (m : Master) (v : Viol) (o : Nat) : (s.violate m v o).mem = s.mem := (rfl)
@[simp] theorem State.violate_gal (s : State) (m : Master) (v : Viol) (o : Nat) : (s.violate m v o).gal = s.gal := (rfl)
@[simp] theorem State.violate_flights (s : State) (m : Master) (v : Viol) (o : Nat) : (s.violate m v o).flights = s.flights := (rfl)
@[simp] theorem State.violate_flCtl (s : State) (m : Master) (v : Viol) (o : Nat) : (s.violate m v o).flCtl = s.flCtl := (rfl)
@[simp] theorem State.violate_flCtlNext (s : State) (m : Master) (v : Viol) (o : Nat) : (s.violate m v o).flCtlNext = s.flCtlNext := (rfl)
@[simp] theorem State.violate_fltWait (s : State) (m : Master) (v : Viol) (o : Nat) : (s.violate m v o).fltWait = s.fltWait := (rfl)
@[simp] theorem State.violate_rte (s : State) (m : Master) (v : Viol) (o : Nat) : (s.violate m v o).rte = s.rte := (rfl)
@[simp] theorem State.violate_plc (s : State) (m : Master) (v : Viol) (o : Nat) : (s.violate m v o).plc = s.plc := (rfl)
@[simp] theorem State.violate_pp (s : State) (m : Master) (v : Viol) (o : Nat) : (s.violate m v o).pp = s.pp := (rfl)
@[simp] theorem State.violate_nvs (s : State) (m : Master) (v : Viol) (o : Nat) : (s.violate m v o).nvs = s.nvs := (rfl)
@[simp] theorem State.violate_cip (s : State) (m : Master) (v : Viol) (o : Nat) : (s.violate m v o).cip = s.cip := (rfl)
@[simp] theorem State.violate_stw (s : State) (m : Master) (v : Viol) (o : Nat) : (s.violate m v o).stw = s.stw := (rfl)
@[simp] theorem State.violate_sig (s : State) (m : Master) (v : Viol) (o : Nat) : (s.violate m v o).sig = s.sig := (rfl)
@[simp] theorem State.violate_mio (s : State) (m : Master) (v : Viol) (o : Nat) : (s.violate m v o).mio = s.mio := (rfl)
@[simp] theorem State.violate_outbox (s : State) (m : Master) (v : Viol) (o : Nat) : (s.violate m v o).outbox = s.outbox := (rfl)
@[simp] theorem State.violate_held (s : State) (m : Master) (v : Viol) (o : Nat) : (s.violate m v o).held = s.held := (rfl)
@[simp] theorem State.violate_mgmt (s : State) (m : Master) (v : Viol) (o : Nat) : (s.violate m v o).mgmt = s.mgmt := (rfl)
@[simp] theorem State.violate_pending (s : State) (m : Master) (v : Viol) (o : Nat) : (s.violate m v o).pending = s.pending := (rfl)

@[simp] theorem State.send_regs (s : State) (o : Out) : (s.send o).regs = s.regs := (rfl)
@[simp] theorem State.send_pend (s : State) (o : Out) : (s.send o).pend = s.pend := (rfl)
@[simp] theorem State.send_latches (s : State) (o : Out) : (s.send o).latches = s.latches := (rfl)
@[simp] theorem State.send_sealOk (s : State) (o : Out) : (s.send o).sealOk = s.sealOk := (rfl)
@[simp] theorem State.send_sealBad (s : State) (o : Out) : (s.send o).sealBad = s.sealBad := (rfl)
@[simp] theorem State.send_draws (s : State) (o : Out) : (s.send o).draws = s.draws := (rfl)
@[simp] theorem State.send_dev (s : State) (o : Out) : (s.send o).dev = s.dev := (rfl)
@[simp] theorem State.send_pwr (s : State) (o : Out) : (s.send o).pwr = s.pwr := (rfl)
@[simp] theorem State.send_str (s : State) (o : Out) : (s.send o).str = s.str := (rfl)
@[simp] theorem State.send_time (s : State) (o : Out) : (s.send o).time = s.time := (rfl)
@[simp] theorem State.send_since (s : State) (o : Out) : (s.send o).since = s.since := (rfl)
@[simp] theorem State.send_leaseMs (s : State) (o : Out) : (s.send o).leaseMs = s.leaseMs := (rfl)
@[simp] theorem State.send_slcCmd (s : State) (o : Out) : (s.send o).slcCmd = s.slcCmd := (rfl)
@[simp] theorem State.send_slices (s : State) (o : Out) : (s.send o).slices = s.slices := (rfl)
@[simp] theorem State.send_nonceBase (s : State) (o : Out) : (s.send o).nonceBase = s.nonceBase := (rfl)
@[simp] theorem State.send_rings (s : State) (o : Out) : (s.send o).rings = s.rings := (rfl)
@[simp] theorem State.send_ops (s : State) (o : Out) : (s.send o).ops = s.ops := (rfl)
@[simp] theorem State.send_opNext (s : State) (o : Out) : (s.send o).opNext = s.opNext := (rfl)
@[simp] theorem State.send_cqWait (s : State) (o : Out) : (s.send o).cqWait = s.cqWait := (rfl)
@[simp] theorem State.send_recent (s : State) (o : Out) : (s.send o).recent = s.recent := (rfl)
@[simp] theorem State.send_clasps (s : State) (o : Out) : (s.send o).clasps = s.clasps := (rfl)
@[simp] theorem State.send_errFail (s : State) (o : Out) : (s.send o).errFail = s.errFail := (rfl)
@[simp] theorem State.send_errHold (s : State) (o : Out) : (s.send o).errHold = s.errHold := (rfl)
@[simp] theorem State.send_msgs (s : State) (o : Out) : (s.send o).msgs = s.msgs := (rfl)
@[simp] theorem State.send_msix (s : State) (o : Out) : (s.send o).msix = s.msix := (rfl)
@[simp] theorem State.send_intx (s : State) (o : Out) : (s.send o).intx = s.intx := (rfl)
@[simp] theorem State.send_links (s : State) (o : Out) : (s.send o).links = s.links := (rfl)
@[simp] theorem State.send_fns (s : State) (o : Out) : (s.send o).fns = s.fns := (rfl)
@[simp] theorem State.send_mem (s : State) (o : Out) : (s.send o).mem = s.mem := (rfl)
@[simp] theorem State.send_gal (s : State) (o : Out) : (s.send o).gal = s.gal := (rfl)
@[simp] theorem State.send_flights (s : State) (o : Out) : (s.send o).flights = s.flights := (rfl)
@[simp] theorem State.send_flCtl (s : State) (o : Out) : (s.send o).flCtl = s.flCtl := (rfl)
@[simp] theorem State.send_flCtlNext (s : State) (o : Out) : (s.send o).flCtlNext = s.flCtlNext := (rfl)
@[simp] theorem State.send_fltWait (s : State) (o : Out) : (s.send o).fltWait = s.fltWait := (rfl)
@[simp] theorem State.send_rte (s : State) (o : Out) : (s.send o).rte = s.rte := (rfl)
@[simp] theorem State.send_plc (s : State) (o : Out) : (s.send o).plc = s.plc := (rfl)
@[simp] theorem State.send_pp (s : State) (o : Out) : (s.send o).pp = s.pp := (rfl)
@[simp] theorem State.send_nvs (s : State) (o : Out) : (s.send o).nvs = s.nvs := (rfl)
@[simp] theorem State.send_cip (s : State) (o : Out) : (s.send o).cip = s.cip := (rfl)
@[simp] theorem State.send_stw (s : State) (o : Out) : (s.send o).stw = s.stw := (rfl)
@[simp] theorem State.send_sig (s : State) (o : Out) : (s.send o).sig = s.sig := (rfl)
@[simp] theorem State.send_mio (s : State) (o : Out) : (s.send o).mio = s.mio := (rfl)
@[simp] theorem State.send_held (s : State) (o : Out) : (s.send o).held = s.held := (rfl)
@[simp] theorem State.send_mgmt (s : State) (o : Out) : (s.send o).mgmt = s.mgmt := (rfl)
@[simp] theorem State.send_pending (s : State) (o : Out) : (s.send o).pending = s.pending := (rfl)

@[simp] theorem State.setFn_regs (s : State) (f : Func) (c : FnCfg) : (s.setFn f c).regs = s.regs := (rfl)
@[simp] theorem State.setFn_pend (s : State) (f : Func) (c : FnCfg) : (s.setFn f c).pend = s.pend := (rfl)
@[simp] theorem State.setFn_latches (s : State) (f : Func) (c : FnCfg) : (s.setFn f c).latches = s.latches := (rfl)
@[simp] theorem State.setFn_sealOk (s : State) (f : Func) (c : FnCfg) : (s.setFn f c).sealOk = s.sealOk := (rfl)
@[simp] theorem State.setFn_sealBad (s : State) (f : Func) (c : FnCfg) : (s.setFn f c).sealBad = s.sealBad := (rfl)
@[simp] theorem State.setFn_draws (s : State) (f : Func) (c : FnCfg) : (s.setFn f c).draws = s.draws := (rfl)
@[simp] theorem State.setFn_dev (s : State) (f : Func) (c : FnCfg) : (s.setFn f c).dev = s.dev := (rfl)
@[simp] theorem State.setFn_pwr (s : State) (f : Func) (c : FnCfg) : (s.setFn f c).pwr = s.pwr := (rfl)
@[simp] theorem State.setFn_str (s : State) (f : Func) (c : FnCfg) : (s.setFn f c).str = s.str := (rfl)
@[simp] theorem State.setFn_time (s : State) (f : Func) (c : FnCfg) : (s.setFn f c).time = s.time := (rfl)
@[simp] theorem State.setFn_since (s : State) (f : Func) (c : FnCfg) : (s.setFn f c).since = s.since := (rfl)
@[simp] theorem State.setFn_leaseMs (s : State) (f : Func) (c : FnCfg) : (s.setFn f c).leaseMs = s.leaseMs := (rfl)
@[simp] theorem State.setFn_slcCmd (s : State) (f : Func) (c : FnCfg) : (s.setFn f c).slcCmd = s.slcCmd := (rfl)
@[simp] theorem State.setFn_slices (s : State) (f : Func) (c : FnCfg) : (s.setFn f c).slices = s.slices := (rfl)
@[simp] theorem State.setFn_nonceBase (s : State) (f : Func) (c : FnCfg) : (s.setFn f c).nonceBase = s.nonceBase := (rfl)
@[simp] theorem State.setFn_rings (s : State) (f : Func) (c : FnCfg) : (s.setFn f c).rings = s.rings := (rfl)
@[simp] theorem State.setFn_ops (s : State) (f : Func) (c : FnCfg) : (s.setFn f c).ops = s.ops := (rfl)
@[simp] theorem State.setFn_opNext (s : State) (f : Func) (c : FnCfg) : (s.setFn f c).opNext = s.opNext := (rfl)
@[simp] theorem State.setFn_cqWait (s : State) (f : Func) (c : FnCfg) : (s.setFn f c).cqWait = s.cqWait := (rfl)
@[simp] theorem State.setFn_recent (s : State) (f : Func) (c : FnCfg) : (s.setFn f c).recent = s.recent := (rfl)
@[simp] theorem State.setFn_clasps (s : State) (f : Func) (c : FnCfg) : (s.setFn f c).clasps = s.clasps := (rfl)
@[simp] theorem State.setFn_errFail (s : State) (f : Func) (c : FnCfg) : (s.setFn f c).errFail = s.errFail := (rfl)
@[simp] theorem State.setFn_errHold (s : State) (f : Func) (c : FnCfg) : (s.setFn f c).errHold = s.errHold := (rfl)
@[simp] theorem State.setFn_msgs (s : State) (f : Func) (c : FnCfg) : (s.setFn f c).msgs = s.msgs := (rfl)
@[simp] theorem State.setFn_msix (s : State) (f : Func) (c : FnCfg) : (s.setFn f c).msix = s.msix := (rfl)
@[simp] theorem State.setFn_intx (s : State) (f : Func) (c : FnCfg) : (s.setFn f c).intx = s.intx := (rfl)
@[simp] theorem State.setFn_links (s : State) (f : Func) (c : FnCfg) : (s.setFn f c).links = s.links := (rfl)
@[simp] theorem State.setFn_mem (s : State) (f : Func) (c : FnCfg) : (s.setFn f c).mem = s.mem := (rfl)
@[simp] theorem State.setFn_gal (s : State) (f : Func) (c : FnCfg) : (s.setFn f c).gal = s.gal := (rfl)
@[simp] theorem State.setFn_flights (s : State) (f : Func) (c : FnCfg) : (s.setFn f c).flights = s.flights := (rfl)
@[simp] theorem State.setFn_flCtl (s : State) (f : Func) (c : FnCfg) : (s.setFn f c).flCtl = s.flCtl := (rfl)
@[simp] theorem State.setFn_flCtlNext (s : State) (f : Func) (c : FnCfg) : (s.setFn f c).flCtlNext = s.flCtlNext := (rfl)
@[simp] theorem State.setFn_fltWait (s : State) (f : Func) (c : FnCfg) : (s.setFn f c).fltWait = s.fltWait := (rfl)
@[simp] theorem State.setFn_rte (s : State) (f : Func) (c : FnCfg) : (s.setFn f c).rte = s.rte := (rfl)
@[simp] theorem State.setFn_plc (s : State) (f : Func) (c : FnCfg) : (s.setFn f c).plc = s.plc := (rfl)
@[simp] theorem State.setFn_pp (s : State) (f : Func) (c : FnCfg) : (s.setFn f c).pp = s.pp := (rfl)
@[simp] theorem State.setFn_nvs (s : State) (f : Func) (c : FnCfg) : (s.setFn f c).nvs = s.nvs := (rfl)
@[simp] theorem State.setFn_cip (s : State) (f : Func) (c : FnCfg) : (s.setFn f c).cip = s.cip := (rfl)
@[simp] theorem State.setFn_stw (s : State) (f : Func) (c : FnCfg) : (s.setFn f c).stw = s.stw := (rfl)
@[simp] theorem State.setFn_sig (s : State) (f : Func) (c : FnCfg) : (s.setFn f c).sig = s.sig := (rfl)
@[simp] theorem State.setFn_mio (s : State) (f : Func) (c : FnCfg) : (s.setFn f c).mio = s.mio := (rfl)
@[simp] theorem State.setFn_outbox (s : State) (f : Func) (c : FnCfg) : (s.setFn f c).outbox = s.outbox := (rfl)
@[simp] theorem State.setFn_held (s : State) (f : Func) (c : FnCfg) : (s.setFn f c).held = s.held := (rfl)
@[simp] theorem State.setFn_mgmt (s : State) (f : Func) (c : FnCfg) : (s.setFn f c).mgmt = s.mgmt := (rfl)
@[simp] theorem State.setFn_pending (s : State) (f : Func) (c : FnCfg) : (s.setFn f c).pending = s.pending := (rfl)

@[simp] theorem State.setVec_regs (s : State) (p v : Nat) (e : MsgEntry) : (s.setVec p v e).regs = s.regs := (rfl)
@[simp] theorem State.setVec_pend (s : State) (p v : Nat) (e : MsgEntry) : (s.setVec p v e).pend = s.pend := (rfl)
@[simp] theorem State.setVec_latches (s : State) (p v : Nat) (e : MsgEntry) : (s.setVec p v e).latches = s.latches := (rfl)
@[simp] theorem State.setVec_sealOk (s : State) (p v : Nat) (e : MsgEntry) : (s.setVec p v e).sealOk = s.sealOk := (rfl)
@[simp] theorem State.setVec_sealBad (s : State) (p v : Nat) (e : MsgEntry) : (s.setVec p v e).sealBad = s.sealBad := (rfl)
@[simp] theorem State.setVec_draws (s : State) (p v : Nat) (e : MsgEntry) : (s.setVec p v e).draws = s.draws := (rfl)
@[simp] theorem State.setVec_dev (s : State) (p v : Nat) (e : MsgEntry) : (s.setVec p v e).dev = s.dev := (rfl)
@[simp] theorem State.setVec_pwr (s : State) (p v : Nat) (e : MsgEntry) : (s.setVec p v e).pwr = s.pwr := (rfl)
@[simp] theorem State.setVec_str (s : State) (p v : Nat) (e : MsgEntry) : (s.setVec p v e).str = s.str := (rfl)
@[simp] theorem State.setVec_time (s : State) (p v : Nat) (e : MsgEntry) : (s.setVec p v e).time = s.time := (rfl)
@[simp] theorem State.setVec_since (s : State) (p v : Nat) (e : MsgEntry) : (s.setVec p v e).since = s.since := (rfl)
@[simp] theorem State.setVec_leaseMs (s : State) (p v : Nat) (e : MsgEntry) : (s.setVec p v e).leaseMs = s.leaseMs := (rfl)
@[simp] theorem State.setVec_slcCmd (s : State) (p v : Nat) (e : MsgEntry) : (s.setVec p v e).slcCmd = s.slcCmd := (rfl)
@[simp] theorem State.setVec_slices (s : State) (p v : Nat) (e : MsgEntry) : (s.setVec p v e).slices = s.slices := (rfl)
@[simp] theorem State.setVec_nonceBase (s : State) (p v : Nat) (e : MsgEntry) : (s.setVec p v e).nonceBase = s.nonceBase := (rfl)
@[simp] theorem State.setVec_rings (s : State) (p v : Nat) (e : MsgEntry) : (s.setVec p v e).rings = s.rings := (rfl)
@[simp] theorem State.setVec_ops (s : State) (p v : Nat) (e : MsgEntry) : (s.setVec p v e).ops = s.ops := (rfl)
@[simp] theorem State.setVec_opNext (s : State) (p v : Nat) (e : MsgEntry) : (s.setVec p v e).opNext = s.opNext := (rfl)
@[simp] theorem State.setVec_cqWait (s : State) (p v : Nat) (e : MsgEntry) : (s.setVec p v e).cqWait = s.cqWait := (rfl)
@[simp] theorem State.setVec_recent (s : State) (p v : Nat) (e : MsgEntry) : (s.setVec p v e).recent = s.recent := (rfl)
@[simp] theorem State.setVec_clasps (s : State) (p v : Nat) (e : MsgEntry) : (s.setVec p v e).clasps = s.clasps := (rfl)
@[simp] theorem State.setVec_errFail (s : State) (p v : Nat) (e : MsgEntry) : (s.setVec p v e).errFail = s.errFail := (rfl)
@[simp] theorem State.setVec_errHold (s : State) (p v : Nat) (e : MsgEntry) : (s.setVec p v e).errHold = s.errHold := (rfl)
@[simp] theorem State.setVec_msgs (s : State) (p v : Nat) (e : MsgEntry) : (s.setVec p v e).msgs = s.msgs := (rfl)
@[simp] theorem State.setVec_intx (s : State) (p v : Nat) (e : MsgEntry) : (s.setVec p v e).intx = s.intx := (rfl)
@[simp] theorem State.setVec_links (s : State) (p v : Nat) (e : MsgEntry) : (s.setVec p v e).links = s.links := (rfl)
@[simp] theorem State.setVec_fns (s : State) (p v : Nat) (e : MsgEntry) : (s.setVec p v e).fns = s.fns := (rfl)
@[simp] theorem State.setVec_mem (s : State) (p v : Nat) (e : MsgEntry) : (s.setVec p v e).mem = s.mem := (rfl)
@[simp] theorem State.setVec_gal (s : State) (p v : Nat) (e : MsgEntry) : (s.setVec p v e).gal = s.gal := (rfl)
@[simp] theorem State.setVec_flights (s : State) (p v : Nat) (e : MsgEntry) : (s.setVec p v e).flights = s.flights := (rfl)
@[simp] theorem State.setVec_flCtl (s : State) (p v : Nat) (e : MsgEntry) : (s.setVec p v e).flCtl = s.flCtl := (rfl)
@[simp] theorem State.setVec_flCtlNext (s : State) (p v : Nat) (e : MsgEntry) : (s.setVec p v e).flCtlNext = s.flCtlNext := (rfl)
@[simp] theorem State.setVec_fltWait (s : State) (p v : Nat) (e : MsgEntry) : (s.setVec p v e).fltWait = s.fltWait := (rfl)
@[simp] theorem State.setVec_rte (s : State) (p v : Nat) (e : MsgEntry) : (s.setVec p v e).rte = s.rte := (rfl)
@[simp] theorem State.setVec_plc (s : State) (p v : Nat) (e : MsgEntry) : (s.setVec p v e).plc = s.plc := (rfl)
@[simp] theorem State.setVec_pp (s : State) (p v : Nat) (e : MsgEntry) : (s.setVec p v e).pp = s.pp := (rfl)
@[simp] theorem State.setVec_nvs (s : State) (p v : Nat) (e : MsgEntry) : (s.setVec p v e).nvs = s.nvs := (rfl)
@[simp] theorem State.setVec_cip (s : State) (p v : Nat) (e : MsgEntry) : (s.setVec p v e).cip = s.cip := (rfl)
@[simp] theorem State.setVec_stw (s : State) (p v : Nat) (e : MsgEntry) : (s.setVec p v e).stw = s.stw := (rfl)
@[simp] theorem State.setVec_sig (s : State) (p v : Nat) (e : MsgEntry) : (s.setVec p v e).sig = s.sig := (rfl)
@[simp] theorem State.setVec_mio (s : State) (p v : Nat) (e : MsgEntry) : (s.setVec p v e).mio = s.mio := (rfl)
@[simp] theorem State.setVec_outbox (s : State) (p v : Nat) (e : MsgEntry) : (s.setVec p v e).outbox = s.outbox := (rfl)
@[simp] theorem State.setVec_held (s : State) (p v : Nat) (e : MsgEntry) : (s.setVec p v e).held = s.held := (rfl)
@[simp] theorem State.setVec_mgmt (s : State) (p v : Nat) (e : MsgEntry) : (s.setVec p v e).mgmt = s.mgmt := (rfl)
@[simp] theorem State.setVec_pending (s : State) (p v : Nat) (e : MsgEntry) : (s.setVec p v e).pending = s.pending := (rfl)

@[simp] theorem State.setSlice_regs (s : State) (i : Nat) (x : Slice) : (s.setSlice i x).regs = s.regs := (rfl)
@[simp] theorem State.setSlice_pend (s : State) (i : Nat) (x : Slice) : (s.setSlice i x).pend = s.pend := (rfl)
@[simp] theorem State.setSlice_latches (s : State) (i : Nat) (x : Slice) : (s.setSlice i x).latches = s.latches := (rfl)
@[simp] theorem State.setSlice_sealOk (s : State) (i : Nat) (x : Slice) : (s.setSlice i x).sealOk = s.sealOk := (rfl)
@[simp] theorem State.setSlice_sealBad (s : State) (i : Nat) (x : Slice) : (s.setSlice i x).sealBad = s.sealBad := (rfl)
@[simp] theorem State.setSlice_draws (s : State) (i : Nat) (x : Slice) : (s.setSlice i x).draws = s.draws := (rfl)
@[simp] theorem State.setSlice_dev (s : State) (i : Nat) (x : Slice) : (s.setSlice i x).dev = s.dev := (rfl)
@[simp] theorem State.setSlice_pwr (s : State) (i : Nat) (x : Slice) : (s.setSlice i x).pwr = s.pwr := (rfl)
@[simp] theorem State.setSlice_str (s : State) (i : Nat) (x : Slice) : (s.setSlice i x).str = s.str := (rfl)
@[simp] theorem State.setSlice_time (s : State) (i : Nat) (x : Slice) : (s.setSlice i x).time = s.time := (rfl)
@[simp] theorem State.setSlice_since (s : State) (i : Nat) (x : Slice) : (s.setSlice i x).since = s.since := (rfl)
@[simp] theorem State.setSlice_leaseMs (s : State) (i : Nat) (x : Slice) : (s.setSlice i x).leaseMs = s.leaseMs := (rfl)
@[simp] theorem State.setSlice_slcCmd (s : State) (i : Nat) (x : Slice) : (s.setSlice i x).slcCmd = s.slcCmd := (rfl)
@[simp] theorem State.setSlice_nonceBase (s : State) (i : Nat) (x : Slice) : (s.setSlice i x).nonceBase = s.nonceBase := (rfl)
@[simp] theorem State.setSlice_rings (s : State) (i : Nat) (x : Slice) : (s.setSlice i x).rings = s.rings := (rfl)
@[simp] theorem State.setSlice_ops (s : State) (i : Nat) (x : Slice) : (s.setSlice i x).ops = s.ops := (rfl)
@[simp] theorem State.setSlice_opNext (s : State) (i : Nat) (x : Slice) : (s.setSlice i x).opNext = s.opNext := (rfl)
@[simp] theorem State.setSlice_cqWait (s : State) (i : Nat) (x : Slice) : (s.setSlice i x).cqWait = s.cqWait := (rfl)
@[simp] theorem State.setSlice_recent (s : State) (i : Nat) (x : Slice) : (s.setSlice i x).recent = s.recent := (rfl)
@[simp] theorem State.setSlice_clasps (s : State) (i : Nat) (x : Slice) : (s.setSlice i x).clasps = s.clasps := (rfl)
@[simp] theorem State.setSlice_errFail (s : State) (i : Nat) (x : Slice) : (s.setSlice i x).errFail = s.errFail := (rfl)
@[simp] theorem State.setSlice_errHold (s : State) (i : Nat) (x : Slice) : (s.setSlice i x).errHold = s.errHold := (rfl)
@[simp] theorem State.setSlice_msgs (s : State) (i : Nat) (x : Slice) : (s.setSlice i x).msgs = s.msgs := (rfl)
@[simp] theorem State.setSlice_msix (s : State) (i : Nat) (x : Slice) : (s.setSlice i x).msix = s.msix := (rfl)
@[simp] theorem State.setSlice_intx (s : State) (i : Nat) (x : Slice) : (s.setSlice i x).intx = s.intx := (rfl)
@[simp] theorem State.setSlice_links (s : State) (i : Nat) (x : Slice) : (s.setSlice i x).links = s.links := (rfl)
@[simp] theorem State.setSlice_fns (s : State) (i : Nat) (x : Slice) : (s.setSlice i x).fns = s.fns := (rfl)
@[simp] theorem State.setSlice_mem (s : State) (i : Nat) (x : Slice) : (s.setSlice i x).mem = s.mem := (rfl)
@[simp] theorem State.setSlice_gal (s : State) (i : Nat) (x : Slice) : (s.setSlice i x).gal = s.gal := (rfl)
@[simp] theorem State.setSlice_flights (s : State) (i : Nat) (x : Slice) : (s.setSlice i x).flights = s.flights := (rfl)
@[simp] theorem State.setSlice_flCtl (s : State) (i : Nat) (x : Slice) : (s.setSlice i x).flCtl = s.flCtl := (rfl)
@[simp] theorem State.setSlice_flCtlNext (s : State) (i : Nat) (x : Slice) : (s.setSlice i x).flCtlNext = s.flCtlNext := (rfl)
@[simp] theorem State.setSlice_fltWait (s : State) (i : Nat) (x : Slice) : (s.setSlice i x).fltWait = s.fltWait := (rfl)
@[simp] theorem State.setSlice_rte (s : State) (i : Nat) (x : Slice) : (s.setSlice i x).rte = s.rte := (rfl)
@[simp] theorem State.setSlice_plc (s : State) (i : Nat) (x : Slice) : (s.setSlice i x).plc = s.plc := (rfl)
@[simp] theorem State.setSlice_pp (s : State) (i : Nat) (x : Slice) : (s.setSlice i x).pp = s.pp := (rfl)
@[simp] theorem State.setSlice_nvs (s : State) (i : Nat) (x : Slice) : (s.setSlice i x).nvs = s.nvs := (rfl)
@[simp] theorem State.setSlice_cip (s : State) (i : Nat) (x : Slice) : (s.setSlice i x).cip = s.cip := (rfl)
@[simp] theorem State.setSlice_stw (s : State) (i : Nat) (x : Slice) : (s.setSlice i x).stw = s.stw := (rfl)
@[simp] theorem State.setSlice_sig (s : State) (i : Nat) (x : Slice) : (s.setSlice i x).sig = s.sig := (rfl)
@[simp] theorem State.setSlice_mio (s : State) (i : Nat) (x : Slice) : (s.setSlice i x).mio = s.mio := (rfl)
@[simp] theorem State.setSlice_outbox (s : State) (i : Nat) (x : Slice) : (s.setSlice i x).outbox = s.outbox := (rfl)
@[simp] theorem State.setSlice_held (s : State) (i : Nat) (x : Slice) : (s.setSlice i x).held = s.held := (rfl)
@[simp] theorem State.setSlice_mgmt (s : State) (i : Nat) (x : Slice) : (s.setSlice i x).mgmt = s.mgmt := (rfl)
@[simp] theorem State.setSlice_pending (s : State) (i : Nat) (x : Slice) : (s.setSlice i x).pending = s.pending := (rfl)

@[simp] theorem State.setRing_regs (s : State) (q : Nat) (r : Ring) : (s.setRing q r).regs = s.regs := (rfl)
@[simp] theorem State.setRing_pend (s : State) (q : Nat) (r : Ring) : (s.setRing q r).pend = s.pend := (rfl)
@[simp] theorem State.setRing_latches (s : State) (q : Nat) (r : Ring) : (s.setRing q r).latches = s.latches := (rfl)
@[simp] theorem State.setRing_sealOk (s : State) (q : Nat) (r : Ring) : (s.setRing q r).sealOk = s.sealOk := (rfl)
@[simp] theorem State.setRing_sealBad (s : State) (q : Nat) (r : Ring) : (s.setRing q r).sealBad = s.sealBad := (rfl)
@[simp] theorem State.setRing_draws (s : State) (q : Nat) (r : Ring) : (s.setRing q r).draws = s.draws := (rfl)
@[simp] theorem State.setRing_dev (s : State) (q : Nat) (r : Ring) : (s.setRing q r).dev = s.dev := (rfl)
@[simp] theorem State.setRing_pwr (s : State) (q : Nat) (r : Ring) : (s.setRing q r).pwr = s.pwr := (rfl)
@[simp] theorem State.setRing_str (s : State) (q : Nat) (r : Ring) : (s.setRing q r).str = s.str := (rfl)
@[simp] theorem State.setRing_time (s : State) (q : Nat) (r : Ring) : (s.setRing q r).time = s.time := (rfl)
@[simp] theorem State.setRing_since (s : State) (q : Nat) (r : Ring) : (s.setRing q r).since = s.since := (rfl)
@[simp] theorem State.setRing_leaseMs (s : State) (q : Nat) (r : Ring) : (s.setRing q r).leaseMs = s.leaseMs := (rfl)
@[simp] theorem State.setRing_slcCmd (s : State) (q : Nat) (r : Ring) : (s.setRing q r).slcCmd = s.slcCmd := (rfl)
@[simp] theorem State.setRing_slices (s : State) (q : Nat) (r : Ring) : (s.setRing q r).slices = s.slices := (rfl)
@[simp] theorem State.setRing_nonceBase (s : State) (q : Nat) (r : Ring) : (s.setRing q r).nonceBase = s.nonceBase := (rfl)
@[simp] theorem State.setRing_ops (s : State) (q : Nat) (r : Ring) : (s.setRing q r).ops = s.ops := (rfl)
@[simp] theorem State.setRing_opNext (s : State) (q : Nat) (r : Ring) : (s.setRing q r).opNext = s.opNext := (rfl)
@[simp] theorem State.setRing_cqWait (s : State) (q : Nat) (r : Ring) : (s.setRing q r).cqWait = s.cqWait := (rfl)
@[simp] theorem State.setRing_recent (s : State) (q : Nat) (r : Ring) : (s.setRing q r).recent = s.recent := (rfl)
@[simp] theorem State.setRing_clasps (s : State) (q : Nat) (r : Ring) : (s.setRing q r).clasps = s.clasps := (rfl)
@[simp] theorem State.setRing_errFail (s : State) (q : Nat) (r : Ring) : (s.setRing q r).errFail = s.errFail := (rfl)
@[simp] theorem State.setRing_errHold (s : State) (q : Nat) (r : Ring) : (s.setRing q r).errHold = s.errHold := (rfl)
@[simp] theorem State.setRing_msgs (s : State) (q : Nat) (r : Ring) : (s.setRing q r).msgs = s.msgs := (rfl)
@[simp] theorem State.setRing_msix (s : State) (q : Nat) (r : Ring) : (s.setRing q r).msix = s.msix := (rfl)
@[simp] theorem State.setRing_intx (s : State) (q : Nat) (r : Ring) : (s.setRing q r).intx = s.intx := (rfl)
@[simp] theorem State.setRing_links (s : State) (q : Nat) (r : Ring) : (s.setRing q r).links = s.links := (rfl)
@[simp] theorem State.setRing_fns (s : State) (q : Nat) (r : Ring) : (s.setRing q r).fns = s.fns := (rfl)
@[simp] theorem State.setRing_mem (s : State) (q : Nat) (r : Ring) : (s.setRing q r).mem = s.mem := (rfl)
@[simp] theorem State.setRing_gal (s : State) (q : Nat) (r : Ring) : (s.setRing q r).gal = s.gal := (rfl)
@[simp] theorem State.setRing_flights (s : State) (q : Nat) (r : Ring) : (s.setRing q r).flights = s.flights := (rfl)
@[simp] theorem State.setRing_flCtl (s : State) (q : Nat) (r : Ring) : (s.setRing q r).flCtl = s.flCtl := (rfl)
@[simp] theorem State.setRing_flCtlNext (s : State) (q : Nat) (r : Ring) : (s.setRing q r).flCtlNext = s.flCtlNext := (rfl)
@[simp] theorem State.setRing_fltWait (s : State) (q : Nat) (r : Ring) : (s.setRing q r).fltWait = s.fltWait := (rfl)
@[simp] theorem State.setRing_rte (s : State) (q : Nat) (r : Ring) : (s.setRing q r).rte = s.rte := (rfl)
@[simp] theorem State.setRing_plc (s : State) (q : Nat) (r : Ring) : (s.setRing q r).plc = s.plc := (rfl)
@[simp] theorem State.setRing_pp (s : State) (q : Nat) (r : Ring) : (s.setRing q r).pp = s.pp := (rfl)
@[simp] theorem State.setRing_nvs (s : State) (q : Nat) (r : Ring) : (s.setRing q r).nvs = s.nvs := (rfl)
@[simp] theorem State.setRing_cip (s : State) (q : Nat) (r : Ring) : (s.setRing q r).cip = s.cip := (rfl)
@[simp] theorem State.setRing_stw (s : State) (q : Nat) (r : Ring) : (s.setRing q r).stw = s.stw := (rfl)
@[simp] theorem State.setRing_sig (s : State) (q : Nat) (r : Ring) : (s.setRing q r).sig = s.sig := (rfl)
@[simp] theorem State.setRing_mio (s : State) (q : Nat) (r : Ring) : (s.setRing q r).mio = s.mio := (rfl)
@[simp] theorem State.setRing_outbox (s : State) (q : Nat) (r : Ring) : (s.setRing q r).outbox = s.outbox := (rfl)
@[simp] theorem State.setRing_held (s : State) (q : Nat) (r : Ring) : (s.setRing q r).held = s.held := (rfl)
@[simp] theorem State.setRing_mgmt (s : State) (q : Nat) (r : Ring) : (s.setRing q r).mgmt = s.mgmt := (rfl)
@[simp] theorem State.setRing_pending (s : State) (q : Nat) (r : Ring) : (s.setRing q r).pending = s.pending := (rfl)

@[simp] theorem State.setOp_regs (s : State) (o : Op) : (s.setOp o).regs = s.regs := (rfl)
@[simp] theorem State.setOp_pend (s : State) (o : Op) : (s.setOp o).pend = s.pend := (rfl)
@[simp] theorem State.setOp_latches (s : State) (o : Op) : (s.setOp o).latches = s.latches := (rfl)
@[simp] theorem State.setOp_sealOk (s : State) (o : Op) : (s.setOp o).sealOk = s.sealOk := (rfl)
@[simp] theorem State.setOp_sealBad (s : State) (o : Op) : (s.setOp o).sealBad = s.sealBad := (rfl)
@[simp] theorem State.setOp_draws (s : State) (o : Op) : (s.setOp o).draws = s.draws := (rfl)
@[simp] theorem State.setOp_dev (s : State) (o : Op) : (s.setOp o).dev = s.dev := (rfl)
@[simp] theorem State.setOp_pwr (s : State) (o : Op) : (s.setOp o).pwr = s.pwr := (rfl)
@[simp] theorem State.setOp_str (s : State) (o : Op) : (s.setOp o).str = s.str := (rfl)
@[simp] theorem State.setOp_time (s : State) (o : Op) : (s.setOp o).time = s.time := (rfl)
@[simp] theorem State.setOp_since (s : State) (o : Op) : (s.setOp o).since = s.since := (rfl)
@[simp] theorem State.setOp_leaseMs (s : State) (o : Op) : (s.setOp o).leaseMs = s.leaseMs := (rfl)
@[simp] theorem State.setOp_slcCmd (s : State) (o : Op) : (s.setOp o).slcCmd = s.slcCmd := (rfl)
@[simp] theorem State.setOp_slices (s : State) (o : Op) : (s.setOp o).slices = s.slices := (rfl)
@[simp] theorem State.setOp_nonceBase (s : State) (o : Op) : (s.setOp o).nonceBase = s.nonceBase := (rfl)
@[simp] theorem State.setOp_rings (s : State) (o : Op) : (s.setOp o).rings = s.rings := (rfl)
@[simp] theorem State.setOp_opNext (s : State) (o : Op) : (s.setOp o).opNext = s.opNext := (rfl)
@[simp] theorem State.setOp_cqWait (s : State) (o : Op) : (s.setOp o).cqWait = s.cqWait := (rfl)
@[simp] theorem State.setOp_recent (s : State) (o : Op) : (s.setOp o).recent = s.recent := (rfl)
@[simp] theorem State.setOp_clasps (s : State) (o : Op) : (s.setOp o).clasps = s.clasps := (rfl)
@[simp] theorem State.setOp_errFail (s : State) (o : Op) : (s.setOp o).errFail = s.errFail := (rfl)
@[simp] theorem State.setOp_errHold (s : State) (o : Op) : (s.setOp o).errHold = s.errHold := (rfl)
@[simp] theorem State.setOp_msgs (s : State) (o : Op) : (s.setOp o).msgs = s.msgs := (rfl)
@[simp] theorem State.setOp_msix (s : State) (o : Op) : (s.setOp o).msix = s.msix := (rfl)
@[simp] theorem State.setOp_intx (s : State) (o : Op) : (s.setOp o).intx = s.intx := (rfl)
@[simp] theorem State.setOp_links (s : State) (o : Op) : (s.setOp o).links = s.links := (rfl)
@[simp] theorem State.setOp_fns (s : State) (o : Op) : (s.setOp o).fns = s.fns := (rfl)
@[simp] theorem State.setOp_mem (s : State) (o : Op) : (s.setOp o).mem = s.mem := (rfl)
@[simp] theorem State.setOp_gal (s : State) (o : Op) : (s.setOp o).gal = s.gal := (rfl)
@[simp] theorem State.setOp_flights (s : State) (o : Op) : (s.setOp o).flights = s.flights := (rfl)
@[simp] theorem State.setOp_flCtl (s : State) (o : Op) : (s.setOp o).flCtl = s.flCtl := (rfl)
@[simp] theorem State.setOp_flCtlNext (s : State) (o : Op) : (s.setOp o).flCtlNext = s.flCtlNext := (rfl)
@[simp] theorem State.setOp_fltWait (s : State) (o : Op) : (s.setOp o).fltWait = s.fltWait := (rfl)
@[simp] theorem State.setOp_rte (s : State) (o : Op) : (s.setOp o).rte = s.rte := (rfl)
@[simp] theorem State.setOp_plc (s : State) (o : Op) : (s.setOp o).plc = s.plc := (rfl)
@[simp] theorem State.setOp_pp (s : State) (o : Op) : (s.setOp o).pp = s.pp := (rfl)
@[simp] theorem State.setOp_nvs (s : State) (o : Op) : (s.setOp o).nvs = s.nvs := (rfl)
@[simp] theorem State.setOp_cip (s : State) (o : Op) : (s.setOp o).cip = s.cip := (rfl)
@[simp] theorem State.setOp_stw (s : State) (o : Op) : (s.setOp o).stw = s.stw := (rfl)
@[simp] theorem State.setOp_sig (s : State) (o : Op) : (s.setOp o).sig = s.sig := (rfl)
@[simp] theorem State.setOp_mio (s : State) (o : Op) : (s.setOp o).mio = s.mio := (rfl)
@[simp] theorem State.setOp_outbox (s : State) (o : Op) : (s.setOp o).outbox = s.outbox := (rfl)
@[simp] theorem State.setOp_held (s : State) (o : Op) : (s.setOp o).held = s.held := (rfl)
@[simp] theorem State.setOp_mgmt (s : State) (o : Op) : (s.setOp o).mgmt = s.mgmt := (rfl)
@[simp] theorem State.setOp_pending (s : State) (o : Op) : (s.setOp o).pending = s.pending := (rfl)

@[simp] theorem State.commitOp_regs (s : State) (i : Nat) : (s.commitOp i).regs = s.regs := (rfl)
@[simp] theorem State.commitOp_pend (s : State) (i : Nat) : (s.commitOp i).pend = s.pend := (rfl)
@[simp] theorem State.commitOp_latches (s : State) (i : Nat) : (s.commitOp i).latches = s.latches := (rfl)
@[simp] theorem State.commitOp_sealOk (s : State) (i : Nat) : (s.commitOp i).sealOk = s.sealOk := (rfl)
@[simp] theorem State.commitOp_sealBad (s : State) (i : Nat) : (s.commitOp i).sealBad = s.sealBad := (rfl)
@[simp] theorem State.commitOp_draws (s : State) (i : Nat) : (s.commitOp i).draws = s.draws := (rfl)
@[simp] theorem State.commitOp_dev (s : State) (i : Nat) : (s.commitOp i).dev = s.dev := (rfl)
@[simp] theorem State.commitOp_pwr (s : State) (i : Nat) : (s.commitOp i).pwr = s.pwr := (rfl)
@[simp] theorem State.commitOp_str (s : State) (i : Nat) : (s.commitOp i).str = s.str := (rfl)
@[simp] theorem State.commitOp_time (s : State) (i : Nat) : (s.commitOp i).time = s.time := (rfl)
@[simp] theorem State.commitOp_since (s : State) (i : Nat) : (s.commitOp i).since = s.since := (rfl)
@[simp] theorem State.commitOp_leaseMs (s : State) (i : Nat) : (s.commitOp i).leaseMs = s.leaseMs := (rfl)
@[simp] theorem State.commitOp_slcCmd (s : State) (i : Nat) : (s.commitOp i).slcCmd = s.slcCmd := (rfl)
@[simp] theorem State.commitOp_slices (s : State) (i : Nat) : (s.commitOp i).slices = s.slices := (rfl)
@[simp] theorem State.commitOp_nonceBase (s : State) (i : Nat) : (s.commitOp i).nonceBase = s.nonceBase := (rfl)
@[simp] theorem State.commitOp_rings (s : State) (i : Nat) : (s.commitOp i).rings = s.rings := (rfl)
@[simp] theorem State.commitOp_opNext (s : State) (i : Nat) : (s.commitOp i).opNext = s.opNext := (rfl)
@[simp] theorem State.commitOp_cqWait (s : State) (i : Nat) : (s.commitOp i).cqWait = s.cqWait := (rfl)
@[simp] theorem State.commitOp_recent (s : State) (i : Nat) : (s.commitOp i).recent = s.recent := (rfl)
@[simp] theorem State.commitOp_clasps (s : State) (i : Nat) : (s.commitOp i).clasps = s.clasps := (rfl)
@[simp] theorem State.commitOp_errFail (s : State) (i : Nat) : (s.commitOp i).errFail = s.errFail := (rfl)
@[simp] theorem State.commitOp_errHold (s : State) (i : Nat) : (s.commitOp i).errHold = s.errHold := (rfl)
@[simp] theorem State.commitOp_msgs (s : State) (i : Nat) : (s.commitOp i).msgs = s.msgs := (rfl)
@[simp] theorem State.commitOp_msix (s : State) (i : Nat) : (s.commitOp i).msix = s.msix := (rfl)
@[simp] theorem State.commitOp_intx (s : State) (i : Nat) : (s.commitOp i).intx = s.intx := (rfl)
@[simp] theorem State.commitOp_links (s : State) (i : Nat) : (s.commitOp i).links = s.links := (rfl)
@[simp] theorem State.commitOp_fns (s : State) (i : Nat) : (s.commitOp i).fns = s.fns := (rfl)
@[simp] theorem State.commitOp_mem (s : State) (i : Nat) : (s.commitOp i).mem = s.mem := (rfl)
@[simp] theorem State.commitOp_gal (s : State) (i : Nat) : (s.commitOp i).gal = s.gal := (rfl)
@[simp] theorem State.commitOp_flights (s : State) (i : Nat) : (s.commitOp i).flights = s.flights := (rfl)
@[simp] theorem State.commitOp_flCtl (s : State) (i : Nat) : (s.commitOp i).flCtl = s.flCtl := (rfl)
@[simp] theorem State.commitOp_flCtlNext (s : State) (i : Nat) : (s.commitOp i).flCtlNext = s.flCtlNext := (rfl)
@[simp] theorem State.commitOp_fltWait (s : State) (i : Nat) : (s.commitOp i).fltWait = s.fltWait := (rfl)
@[simp] theorem State.commitOp_rte (s : State) (i : Nat) : (s.commitOp i).rte = s.rte := (rfl)
@[simp] theorem State.commitOp_plc (s : State) (i : Nat) : (s.commitOp i).plc = s.plc := (rfl)
@[simp] theorem State.commitOp_pp (s : State) (i : Nat) : (s.commitOp i).pp = s.pp := (rfl)
@[simp] theorem State.commitOp_nvs (s : State) (i : Nat) : (s.commitOp i).nvs = s.nvs := (rfl)
@[simp] theorem State.commitOp_cip (s : State) (i : Nat) : (s.commitOp i).cip = s.cip := (rfl)
@[simp] theorem State.commitOp_stw (s : State) (i : Nat) : (s.commitOp i).stw = s.stw := (rfl)
@[simp] theorem State.commitOp_sig (s : State) (i : Nat) : (s.commitOp i).sig = s.sig := (rfl)
@[simp] theorem State.commitOp_mio (s : State) (i : Nat) : (s.commitOp i).mio = s.mio := (rfl)
@[simp] theorem State.commitOp_outbox (s : State) (i : Nat) : (s.commitOp i).outbox = s.outbox := (rfl)
@[simp] theorem State.commitOp_held (s : State) (i : Nat) : (s.commitOp i).held = s.held := (rfl)
@[simp] theorem State.commitOp_mgmt (s : State) (i : Nat) : (s.commitOp i).mgmt = s.mgmt := (rfl)
@[simp] theorem State.commitOp_pending (s : State) (i : Nat) : (s.commitOp i).pending = s.pending := (rfl)

@[simp] theorem State.deferOp_regs (s : State) (i : Nat) : (s.deferOp i).regs = s.regs := (rfl)
@[simp] theorem State.deferOp_pend (s : State) (i : Nat) : (s.deferOp i).pend = s.pend := (rfl)
@[simp] theorem State.deferOp_latches (s : State) (i : Nat) : (s.deferOp i).latches = s.latches := (rfl)
@[simp] theorem State.deferOp_sealOk (s : State) (i : Nat) : (s.deferOp i).sealOk = s.sealOk := (rfl)
@[simp] theorem State.deferOp_sealBad (s : State) (i : Nat) : (s.deferOp i).sealBad = s.sealBad := (rfl)
@[simp] theorem State.deferOp_draws (s : State) (i : Nat) : (s.deferOp i).draws = s.draws := (rfl)
@[simp] theorem State.deferOp_dev (s : State) (i : Nat) : (s.deferOp i).dev = s.dev := (rfl)
@[simp] theorem State.deferOp_pwr (s : State) (i : Nat) : (s.deferOp i).pwr = s.pwr := (rfl)
@[simp] theorem State.deferOp_str (s : State) (i : Nat) : (s.deferOp i).str = s.str := (rfl)
@[simp] theorem State.deferOp_time (s : State) (i : Nat) : (s.deferOp i).time = s.time := (rfl)
@[simp] theorem State.deferOp_since (s : State) (i : Nat) : (s.deferOp i).since = s.since := (rfl)
@[simp] theorem State.deferOp_leaseMs (s : State) (i : Nat) : (s.deferOp i).leaseMs = s.leaseMs := (rfl)
@[simp] theorem State.deferOp_slcCmd (s : State) (i : Nat) : (s.deferOp i).slcCmd = s.slcCmd := (rfl)
@[simp] theorem State.deferOp_slices (s : State) (i : Nat) : (s.deferOp i).slices = s.slices := (rfl)
@[simp] theorem State.deferOp_nonceBase (s : State) (i : Nat) : (s.deferOp i).nonceBase = s.nonceBase := (rfl)
@[simp] theorem State.deferOp_rings (s : State) (i : Nat) : (s.deferOp i).rings = s.rings := (rfl)
@[simp] theorem State.deferOp_opNext (s : State) (i : Nat) : (s.deferOp i).opNext = s.opNext := (rfl)
@[simp] theorem State.deferOp_cqWait (s : State) (i : Nat) : (s.deferOp i).cqWait = s.cqWait := (rfl)
@[simp] theorem State.deferOp_recent (s : State) (i : Nat) : (s.deferOp i).recent = s.recent := (rfl)
@[simp] theorem State.deferOp_clasps (s : State) (i : Nat) : (s.deferOp i).clasps = s.clasps := (rfl)
@[simp] theorem State.deferOp_errFail (s : State) (i : Nat) : (s.deferOp i).errFail = s.errFail := (rfl)
@[simp] theorem State.deferOp_errHold (s : State) (i : Nat) : (s.deferOp i).errHold = s.errHold := (rfl)
@[simp] theorem State.deferOp_msgs (s : State) (i : Nat) : (s.deferOp i).msgs = s.msgs := (rfl)
@[simp] theorem State.deferOp_msix (s : State) (i : Nat) : (s.deferOp i).msix = s.msix := (rfl)
@[simp] theorem State.deferOp_intx (s : State) (i : Nat) : (s.deferOp i).intx = s.intx := (rfl)
@[simp] theorem State.deferOp_links (s : State) (i : Nat) : (s.deferOp i).links = s.links := (rfl)
@[simp] theorem State.deferOp_fns (s : State) (i : Nat) : (s.deferOp i).fns = s.fns := (rfl)
@[simp] theorem State.deferOp_mem (s : State) (i : Nat) : (s.deferOp i).mem = s.mem := (rfl)
@[simp] theorem State.deferOp_gal (s : State) (i : Nat) : (s.deferOp i).gal = s.gal := (rfl)
@[simp] theorem State.deferOp_flights (s : State) (i : Nat) : (s.deferOp i).flights = s.flights := (rfl)
@[simp] theorem State.deferOp_flCtl (s : State) (i : Nat) : (s.deferOp i).flCtl = s.flCtl := (rfl)
@[simp] theorem State.deferOp_flCtlNext (s : State) (i : Nat) : (s.deferOp i).flCtlNext = s.flCtlNext := (rfl)
@[simp] theorem State.deferOp_fltWait (s : State) (i : Nat) : (s.deferOp i).fltWait = s.fltWait := (rfl)
@[simp] theorem State.deferOp_rte (s : State) (i : Nat) : (s.deferOp i).rte = s.rte := (rfl)
@[simp] theorem State.deferOp_plc (s : State) (i : Nat) : (s.deferOp i).plc = s.plc := (rfl)
@[simp] theorem State.deferOp_pp (s : State) (i : Nat) : (s.deferOp i).pp = s.pp := (rfl)
@[simp] theorem State.deferOp_nvs (s : State) (i : Nat) : (s.deferOp i).nvs = s.nvs := (rfl)
@[simp] theorem State.deferOp_cip (s : State) (i : Nat) : (s.deferOp i).cip = s.cip := (rfl)
@[simp] theorem State.deferOp_stw (s : State) (i : Nat) : (s.deferOp i).stw = s.stw := (rfl)
@[simp] theorem State.deferOp_sig (s : State) (i : Nat) : (s.deferOp i).sig = s.sig := (rfl)
@[simp] theorem State.deferOp_mio (s : State) (i : Nat) : (s.deferOp i).mio = s.mio := (rfl)
@[simp] theorem State.deferOp_outbox (s : State) (i : Nat) : (s.deferOp i).outbox = s.outbox := (rfl)
@[simp] theorem State.deferOp_held (s : State) (i : Nat) : (s.deferOp i).held = s.held := (rfl)
@[simp] theorem State.deferOp_mgmt (s : State) (i : Nat) : (s.deferOp i).mgmt = s.mgmt := (rfl)
@[simp] theorem State.deferOp_pending (s : State) (i : Nat) : (s.deferOp i).pending = s.pending := (rfl)

@[simp] theorem State.dropOp_regs (s : State) (i : Nat) : (s.dropOp i).regs = s.regs := (rfl)
@[simp] theorem State.dropOp_pend (s : State) (i : Nat) : (s.dropOp i).pend = s.pend := (rfl)
@[simp] theorem State.dropOp_latches (s : State) (i : Nat) : (s.dropOp i).latches = s.latches := (rfl)
@[simp] theorem State.dropOp_sealOk (s : State) (i : Nat) : (s.dropOp i).sealOk = s.sealOk := (rfl)
@[simp] theorem State.dropOp_sealBad (s : State) (i : Nat) : (s.dropOp i).sealBad = s.sealBad := (rfl)
@[simp] theorem State.dropOp_draws (s : State) (i : Nat) : (s.dropOp i).draws = s.draws := (rfl)
@[simp] theorem State.dropOp_dev (s : State) (i : Nat) : (s.dropOp i).dev = s.dev := (rfl)
@[simp] theorem State.dropOp_pwr (s : State) (i : Nat) : (s.dropOp i).pwr = s.pwr := (rfl)
@[simp] theorem State.dropOp_str (s : State) (i : Nat) : (s.dropOp i).str = s.str := (rfl)
@[simp] theorem State.dropOp_time (s : State) (i : Nat) : (s.dropOp i).time = s.time := (rfl)
@[simp] theorem State.dropOp_since (s : State) (i : Nat) : (s.dropOp i).since = s.since := (rfl)
@[simp] theorem State.dropOp_leaseMs (s : State) (i : Nat) : (s.dropOp i).leaseMs = s.leaseMs := (rfl)
@[simp] theorem State.dropOp_slcCmd (s : State) (i : Nat) : (s.dropOp i).slcCmd = s.slcCmd := (rfl)
@[simp] theorem State.dropOp_slices (s : State) (i : Nat) : (s.dropOp i).slices = s.slices := (rfl)
@[simp] theorem State.dropOp_nonceBase (s : State) (i : Nat) : (s.dropOp i).nonceBase = s.nonceBase := (rfl)
@[simp] theorem State.dropOp_rings (s : State) (i : Nat) : (s.dropOp i).rings = s.rings := (rfl)
@[simp] theorem State.dropOp_opNext (s : State) (i : Nat) : (s.dropOp i).opNext = s.opNext := (rfl)
@[simp] theorem State.dropOp_cqWait (s : State) (i : Nat) : (s.dropOp i).cqWait = s.cqWait := (rfl)
@[simp] theorem State.dropOp_recent (s : State) (i : Nat) : (s.dropOp i).recent = s.recent := (rfl)
@[simp] theorem State.dropOp_clasps (s : State) (i : Nat) : (s.dropOp i).clasps = s.clasps := (rfl)
@[simp] theorem State.dropOp_errFail (s : State) (i : Nat) : (s.dropOp i).errFail = s.errFail := (rfl)
@[simp] theorem State.dropOp_errHold (s : State) (i : Nat) : (s.dropOp i).errHold = s.errHold := (rfl)
@[simp] theorem State.dropOp_msgs (s : State) (i : Nat) : (s.dropOp i).msgs = s.msgs := (rfl)
@[simp] theorem State.dropOp_msix (s : State) (i : Nat) : (s.dropOp i).msix = s.msix := (rfl)
@[simp] theorem State.dropOp_intx (s : State) (i : Nat) : (s.dropOp i).intx = s.intx := (rfl)
@[simp] theorem State.dropOp_links (s : State) (i : Nat) : (s.dropOp i).links = s.links := (rfl)
@[simp] theorem State.dropOp_fns (s : State) (i : Nat) : (s.dropOp i).fns = s.fns := (rfl)
@[simp] theorem State.dropOp_mem (s : State) (i : Nat) : (s.dropOp i).mem = s.mem := (rfl)
@[simp] theorem State.dropOp_gal (s : State) (i : Nat) : (s.dropOp i).gal = s.gal := (rfl)
@[simp] theorem State.dropOp_flights (s : State) (i : Nat) : (s.dropOp i).flights = s.flights := (rfl)
@[simp] theorem State.dropOp_flCtl (s : State) (i : Nat) : (s.dropOp i).flCtl = s.flCtl := (rfl)
@[simp] theorem State.dropOp_flCtlNext (s : State) (i : Nat) : (s.dropOp i).flCtlNext = s.flCtlNext := (rfl)
@[simp] theorem State.dropOp_fltWait (s : State) (i : Nat) : (s.dropOp i).fltWait = s.fltWait := (rfl)
@[simp] theorem State.dropOp_rte (s : State) (i : Nat) : (s.dropOp i).rte = s.rte := (rfl)
@[simp] theorem State.dropOp_plc (s : State) (i : Nat) : (s.dropOp i).plc = s.plc := (rfl)
@[simp] theorem State.dropOp_pp (s : State) (i : Nat) : (s.dropOp i).pp = s.pp := (rfl)
@[simp] theorem State.dropOp_nvs (s : State) (i : Nat) : (s.dropOp i).nvs = s.nvs := (rfl)
@[simp] theorem State.dropOp_cip (s : State) (i : Nat) : (s.dropOp i).cip = s.cip := (rfl)
@[simp] theorem State.dropOp_stw (s : State) (i : Nat) : (s.dropOp i).stw = s.stw := (rfl)
@[simp] theorem State.dropOp_sig (s : State) (i : Nat) : (s.dropOp i).sig = s.sig := (rfl)
@[simp] theorem State.dropOp_mio (s : State) (i : Nat) : (s.dropOp i).mio = s.mio := (rfl)
@[simp] theorem State.dropOp_outbox (s : State) (i : Nat) : (s.dropOp i).outbox = s.outbox := (rfl)
@[simp] theorem State.dropOp_held (s : State) (i : Nat) : (s.dropOp i).held = s.held := (rfl)
@[simp] theorem State.dropOp_mgmt (s : State) (i : Nat) : (s.dropOp i).mgmt = s.mgmt := (rfl)
@[simp] theorem State.dropOp_pending (s : State) (i : Nat) : (s.dropOp i).pending = s.pending := (rfl)

@[simp] theorem State.atLeast_regs (s : State) (n : Nat) : (s.atLeast n).regs = s.regs := (rfl)
@[simp] theorem State.atLeast_pend (s : State) (n : Nat) : (s.atLeast n).pend = s.pend := (rfl)
@[simp] theorem State.atLeast_latches (s : State) (n : Nat) : (s.atLeast n).latches = s.latches := (rfl)
@[simp] theorem State.atLeast_sealOk (s : State) (n : Nat) : (s.atLeast n).sealOk = s.sealOk := (rfl)
@[simp] theorem State.atLeast_sealBad (s : State) (n : Nat) : (s.atLeast n).sealBad = s.sealBad := (rfl)
@[simp] theorem State.atLeast_draws (s : State) (n : Nat) : (s.atLeast n).draws = s.draws := (rfl)
@[simp] theorem State.atLeast_dev (s : State) (n : Nat) : (s.atLeast n).dev = s.dev := (rfl)
@[simp] theorem State.atLeast_pwr (s : State) (n : Nat) : (s.atLeast n).pwr = s.pwr := (rfl)
@[simp] theorem State.atLeast_str (s : State) (n : Nat) : (s.atLeast n).str = s.str := (rfl)
@[simp] theorem State.atLeast_since (s : State) (n : Nat) : (s.atLeast n).since = s.since := (rfl)
@[simp] theorem State.atLeast_leaseMs (s : State) (n : Nat) : (s.atLeast n).leaseMs = s.leaseMs := (rfl)
@[simp] theorem State.atLeast_slcCmd (s : State) (n : Nat) : (s.atLeast n).slcCmd = s.slcCmd := (rfl)
@[simp] theorem State.atLeast_slices (s : State) (n : Nat) : (s.atLeast n).slices = s.slices := (rfl)
@[simp] theorem State.atLeast_nonceBase (s : State) (n : Nat) : (s.atLeast n).nonceBase = s.nonceBase := (rfl)
@[simp] theorem State.atLeast_rings (s : State) (n : Nat) : (s.atLeast n).rings = s.rings := (rfl)
@[simp] theorem State.atLeast_ops (s : State) (n : Nat) : (s.atLeast n).ops = s.ops := (rfl)
@[simp] theorem State.atLeast_opNext (s : State) (n : Nat) : (s.atLeast n).opNext = s.opNext := (rfl)
@[simp] theorem State.atLeast_cqWait (s : State) (n : Nat) : (s.atLeast n).cqWait = s.cqWait := (rfl)
@[simp] theorem State.atLeast_recent (s : State) (n : Nat) : (s.atLeast n).recent = s.recent := (rfl)
@[simp] theorem State.atLeast_clasps (s : State) (n : Nat) : (s.atLeast n).clasps = s.clasps := (rfl)
@[simp] theorem State.atLeast_errFail (s : State) (n : Nat) : (s.atLeast n).errFail = s.errFail := (rfl)
@[simp] theorem State.atLeast_errHold (s : State) (n : Nat) : (s.atLeast n).errHold = s.errHold := (rfl)
@[simp] theorem State.atLeast_msgs (s : State) (n : Nat) : (s.atLeast n).msgs = s.msgs := (rfl)
@[simp] theorem State.atLeast_msix (s : State) (n : Nat) : (s.atLeast n).msix = s.msix := (rfl)
@[simp] theorem State.atLeast_intx (s : State) (n : Nat) : (s.atLeast n).intx = s.intx := (rfl)
@[simp] theorem State.atLeast_links (s : State) (n : Nat) : (s.atLeast n).links = s.links := (rfl)
@[simp] theorem State.atLeast_fns (s : State) (n : Nat) : (s.atLeast n).fns = s.fns := (rfl)
@[simp] theorem State.atLeast_mem (s : State) (n : Nat) : (s.atLeast n).mem = s.mem := (rfl)
@[simp] theorem State.atLeast_gal (s : State) (n : Nat) : (s.atLeast n).gal = s.gal := (rfl)
@[simp] theorem State.atLeast_flights (s : State) (n : Nat) : (s.atLeast n).flights = s.flights := (rfl)
@[simp] theorem State.atLeast_flCtl (s : State) (n : Nat) : (s.atLeast n).flCtl = s.flCtl := (rfl)
@[simp] theorem State.atLeast_flCtlNext (s : State) (n : Nat) : (s.atLeast n).flCtlNext = s.flCtlNext := (rfl)
@[simp] theorem State.atLeast_fltWait (s : State) (n : Nat) : (s.atLeast n).fltWait = s.fltWait := (rfl)
@[simp] theorem State.atLeast_rte (s : State) (n : Nat) : (s.atLeast n).rte = s.rte := (rfl)
@[simp] theorem State.atLeast_plc (s : State) (n : Nat) : (s.atLeast n).plc = s.plc := (rfl)
@[simp] theorem State.atLeast_pp (s : State) (n : Nat) : (s.atLeast n).pp = s.pp := (rfl)
@[simp] theorem State.atLeast_nvs (s : State) (n : Nat) : (s.atLeast n).nvs = s.nvs := (rfl)
@[simp] theorem State.atLeast_cip (s : State) (n : Nat) : (s.atLeast n).cip = s.cip := (rfl)
@[simp] theorem State.atLeast_stw (s : State) (n : Nat) : (s.atLeast n).stw = s.stw := (rfl)
@[simp] theorem State.atLeast_sig (s : State) (n : Nat) : (s.atLeast n).sig = s.sig := (rfl)
@[simp] theorem State.atLeast_mio (s : State) (n : Nat) : (s.atLeast n).mio = s.mio := (rfl)
@[simp] theorem State.atLeast_outbox (s : State) (n : Nat) : (s.atLeast n).outbox = s.outbox := (rfl)
@[simp] theorem State.atLeast_held (s : State) (n : Nat) : (s.atLeast n).held = s.held := (rfl)
@[simp] theorem State.atLeast_mgmt (s : State) (n : Nat) : (s.atLeast n).mgmt = s.mgmt := (rfl)
@[simp] theorem State.atLeast_pending (s : State) (n : Nat) : (s.atLeast n).pending = s.pending := (rfl)

@[simp] theorem State.setFs_pend (s : State) (l : List (Fld × Nat)) : (s.setFs l).pend = s.pend := by
  induction l generalizing s with
  | nil => rfl
  | cons e l ih => exact ih _
@[simp] theorem State.setFs_latches (s : State) (l : List (Fld × Nat)) : (s.setFs l).latches = s.latches := by
  induction l generalizing s with
  | nil => rfl
  | cons e l ih => exact ih _
@[simp] theorem State.setFs_sealOk (s : State) (l : List (Fld × Nat)) : (s.setFs l).sealOk = s.sealOk := by
  induction l generalizing s with
  | nil => rfl
  | cons e l ih => exact ih _
@[simp] theorem State.setFs_sealBad (s : State) (l : List (Fld × Nat)) : (s.setFs l).sealBad = s.sealBad := by
  induction l generalizing s with
  | nil => rfl
  | cons e l ih => exact ih _
@[simp] theorem State.setFs_draws (s : State) (l : List (Fld × Nat)) : (s.setFs l).draws = s.draws := by
  induction l generalizing s with
  | nil => rfl
  | cons e l ih => exact ih _
@[simp] theorem State.setFs_dev (s : State) (l : List (Fld × Nat)) : (s.setFs l).dev = s.dev := by
  induction l generalizing s with
  | nil => rfl
  | cons e l ih => exact ih _
@[simp] theorem State.setFs_pwr (s : State) (l : List (Fld × Nat)) : (s.setFs l).pwr = s.pwr := by
  induction l generalizing s with
  | nil => rfl
  | cons e l ih => exact ih _
@[simp] theorem State.setFs_str (s : State) (l : List (Fld × Nat)) : (s.setFs l).str = s.str := by
  induction l generalizing s with
  | nil => rfl
  | cons e l ih => exact ih _
@[simp] theorem State.setFs_time (s : State) (l : List (Fld × Nat)) : (s.setFs l).time = s.time := by
  induction l generalizing s with
  | nil => rfl
  | cons e l ih => exact ih _
@[simp] theorem State.setFs_since (s : State) (l : List (Fld × Nat)) : (s.setFs l).since = s.since := by
  induction l generalizing s with
  | nil => rfl
  | cons e l ih => exact ih _
@[simp] theorem State.setFs_leaseMs (s : State) (l : List (Fld × Nat)) : (s.setFs l).leaseMs = s.leaseMs := by
  induction l generalizing s with
  | nil => rfl
  | cons e l ih => exact ih _
@[simp] theorem State.setFs_slcCmd (s : State) (l : List (Fld × Nat)) : (s.setFs l).slcCmd = s.slcCmd := by
  induction l generalizing s with
  | nil => rfl
  | cons e l ih => exact ih _
@[simp] theorem State.setFs_slices (s : State) (l : List (Fld × Nat)) : (s.setFs l).slices = s.slices := by
  induction l generalizing s with
  | nil => rfl
  | cons e l ih => exact ih _
@[simp] theorem State.setFs_nonceBase (s : State) (l : List (Fld × Nat)) : (s.setFs l).nonceBase = s.nonceBase := by
  induction l generalizing s with
  | nil => rfl
  | cons e l ih => exact ih _
@[simp] theorem State.setFs_rings (s : State) (l : List (Fld × Nat)) : (s.setFs l).rings = s.rings := by
  induction l generalizing s with
  | nil => rfl
  | cons e l ih => exact ih _
@[simp] theorem State.setFs_ops (s : State) (l : List (Fld × Nat)) : (s.setFs l).ops = s.ops := by
  induction l generalizing s with
  | nil => rfl
  | cons e l ih => exact ih _
@[simp] theorem State.setFs_opNext (s : State) (l : List (Fld × Nat)) : (s.setFs l).opNext = s.opNext := by
  induction l generalizing s with
  | nil => rfl
  | cons e l ih => exact ih _
@[simp] theorem State.setFs_cqWait (s : State) (l : List (Fld × Nat)) : (s.setFs l).cqWait = s.cqWait := by
  induction l generalizing s with
  | nil => rfl
  | cons e l ih => exact ih _
@[simp] theorem State.setFs_recent (s : State) (l : List (Fld × Nat)) : (s.setFs l).recent = s.recent := by
  induction l generalizing s with
  | nil => rfl
  | cons e l ih => exact ih _
@[simp] theorem State.setFs_clasps (s : State) (l : List (Fld × Nat)) : (s.setFs l).clasps = s.clasps := by
  induction l generalizing s with
  | nil => rfl
  | cons e l ih => exact ih _
@[simp] theorem State.setFs_errFail (s : State) (l : List (Fld × Nat)) : (s.setFs l).errFail = s.errFail := by
  induction l generalizing s with
  | nil => rfl
  | cons e l ih => exact ih _
@[simp] theorem State.setFs_errHold (s : State) (l : List (Fld × Nat)) : (s.setFs l).errHold = s.errHold := by
  induction l generalizing s with
  | nil => rfl
  | cons e l ih => exact ih _
@[simp] theorem State.setFs_msgs (s : State) (l : List (Fld × Nat)) : (s.setFs l).msgs = s.msgs := by
  induction l generalizing s with
  | nil => rfl
  | cons e l ih => exact ih _
@[simp] theorem State.setFs_msix (s : State) (l : List (Fld × Nat)) : (s.setFs l).msix = s.msix := by
  induction l generalizing s with
  | nil => rfl
  | cons e l ih => exact ih _
@[simp] theorem State.setFs_intx (s : State) (l : List (Fld × Nat)) : (s.setFs l).intx = s.intx := by
  induction l generalizing s with
  | nil => rfl
  | cons e l ih => exact ih _
@[simp] theorem State.setFs_links (s : State) (l : List (Fld × Nat)) : (s.setFs l).links = s.links := by
  induction l generalizing s with
  | nil => rfl
  | cons e l ih => exact ih _
@[simp] theorem State.setFs_fns (s : State) (l : List (Fld × Nat)) : (s.setFs l).fns = s.fns := by
  induction l generalizing s with
  | nil => rfl
  | cons e l ih => exact ih _
@[simp] theorem State.setFs_mem (s : State) (l : List (Fld × Nat)) : (s.setFs l).mem = s.mem := by
  induction l generalizing s with
  | nil => rfl
  | cons e l ih => exact ih _
@[simp] theorem State.setFs_gal (s : State) (l : List (Fld × Nat)) : (s.setFs l).gal = s.gal := by
  induction l generalizing s with
  | nil => rfl
  | cons e l ih => exact ih _
@[simp] theorem State.setFs_flights (s : State) (l : List (Fld × Nat)) : (s.setFs l).flights = s.flights := by
  induction l generalizing s with
  | nil => rfl
  | cons e l ih => exact ih _
@[simp] theorem State.setFs_flCtl (s : State) (l : List (Fld × Nat)) : (s.setFs l).flCtl = s.flCtl := by
  induction l generalizing s with
  | nil => rfl
  | cons e l ih => exact ih _
@[simp] theorem State.setFs_flCtlNext (s : State) (l : List (Fld × Nat)) : (s.setFs l).flCtlNext = s.flCtlNext := by
  induction l generalizing s with
  | nil => rfl
  | cons e l ih => exact ih _
@[simp] theorem State.setFs_fltWait (s : State) (l : List (Fld × Nat)) : (s.setFs l).fltWait = s.fltWait := by
  induction l generalizing s with
  | nil => rfl
  | cons e l ih => exact ih _
@[simp] theorem State.setFs_rte (s : State) (l : List (Fld × Nat)) : (s.setFs l).rte = s.rte := by
  induction l generalizing s with
  | nil => rfl
  | cons e l ih => exact ih _
@[simp] theorem State.setFs_plc (s : State) (l : List (Fld × Nat)) : (s.setFs l).plc = s.plc := by
  induction l generalizing s with
  | nil => rfl
  | cons e l ih => exact ih _
@[simp] theorem State.setFs_pp (s : State) (l : List (Fld × Nat)) : (s.setFs l).pp = s.pp := by
  induction l generalizing s with
  | nil => rfl
  | cons e l ih => exact ih _
@[simp] theorem State.setFs_nvs (s : State) (l : List (Fld × Nat)) : (s.setFs l).nvs = s.nvs := by
  induction l generalizing s with
  | nil => rfl
  | cons e l ih => exact ih _
@[simp] theorem State.setFs_cip (s : State) (l : List (Fld × Nat)) : (s.setFs l).cip = s.cip := by
  induction l generalizing s with
  | nil => rfl
  | cons e l ih => exact ih _
@[simp] theorem State.setFs_stw (s : State) (l : List (Fld × Nat)) : (s.setFs l).stw = s.stw := by
  induction l generalizing s with
  | nil => rfl
  | cons e l ih => exact ih _
@[simp] theorem State.setFs_sig (s : State) (l : List (Fld × Nat)) : (s.setFs l).sig = s.sig := by
  induction l generalizing s with
  | nil => rfl
  | cons e l ih => exact ih _
@[simp] theorem State.setFs_mio (s : State) (l : List (Fld × Nat)) : (s.setFs l).mio = s.mio := by
  induction l generalizing s with
  | nil => rfl
  | cons e l ih => exact ih _
@[simp] theorem State.setFs_outbox (s : State) (l : List (Fld × Nat)) : (s.setFs l).outbox = s.outbox := by
  induction l generalizing s with
  | nil => rfl
  | cons e l ih => exact ih _
@[simp] theorem State.setFs_held (s : State) (l : List (Fld × Nat)) : (s.setFs l).held = s.held := by
  induction l generalizing s with
  | nil => rfl
  | cons e l ih => exact ih _
@[simp] theorem State.setFs_mgmt (s : State) (l : List (Fld × Nat)) : (s.setFs l).mgmt = s.mgmt := by
  induction l generalizing s with
  | nil => rfl
  | cons e l ih => exact ih _
@[simp] theorem State.setFs_pending (s : State) (l : List (Fld × Nat)) : (s.setFs l).pending = s.pending := by
  induction l generalizing s with
  | nil => rfl
  | cons e l ih => exact ih _

@[simp] theorem State.send_outbox (s : State) (o : Out) : (s.send o).outbox = o :: s.outbox := (rfl)

/-- A register as a table of registers gives it: through this, a read after an update of other fields is a read of the state before it. -/
def regOf (t : List (Nat × Word)) (a : Nat) : Nat :=
  match look t a with
  | some w => w.toNat
  | none => resetOf a

@[simp] theorem regOf_regs (s : State) (a : Nat) : regOf s.regs a = s.reg a := (rfl)

/-- A field as a table of registers gives it. -/
def getFOf (t : List (Nat × Word)) (f : Fld) : Nat := bits (regOf t f.reg) f.hi f.lo

@[simp] theorem getFOf_regs (s : State) (f : Fld) : getFOf s.regs f = s.getF f := (rfl)

@[simp] theorem reg_mk x0 x1 x2 x3 x4 x5 x6 x7 x8 x9 x10 x11 x12 x13 x14 x15 x16 x17 x18 x19 x20 x21 x22 x23 x24 x25 x26 x27 x28 x29 x30 x31 x32 x33 x34 x35 x36 x37 x38 x39 x40 x41 x42 x43 x44 x45 (a : Nat) : State.reg (State.mk x0 x1 x2 x3 x4 x5 x6 x7 x8 x9 x10 x11 x12 x13 x14 x15 x16 x17 x18 x19 x20 x21 x22 x23 x24 x25 x26 x27 x28 x29 x30 x31 x32 x33 x34 x35 x36 x37 x38 x39 x40 x41 x42 x43 x44 x45) a =
    regOf x0 a := (rfl)
@[simp] theorem getF_mk x0 x1 x2 x3 x4 x5 x6 x7 x8 x9 x10 x11 x12 x13 x14 x15 x16 x17 x18 x19 x20 x21 x22 x23 x24 x25 x26 x27 x28 x29 x30 x31 x32 x33 x34 x35 x36 x37 x38 x39 x40 x41 x42 x43 x44 x45 (f : Fld) : State.getF (State.mk x0 x1 x2 x3 x4 x5 x6 x7 x8 x9 x10 x11 x12 x13 x14 x15 x16 x17 x18 x19 x20 x21 x22 x23 x24 x25 x26 x27 x28 x29 x30 x31 x32 x33 x34 x35 x36 x37 x38 x39 x40 x41 x42 x43 x44 x45) f = getFOf x0 f := (rfl)
@[simp] theorem reg_send (s : State) (o : Out) (k : Nat) : (s.send o).reg k = s.reg k := (rfl)
@[simp] theorem getF_send (s : State) (o : Out) (k : Fld) : (s.send o).getF k = s.getF k := (rfl)
@[simp] theorem reg_setFn (s : State) (f : Func) (c : FnCfg) (k : Nat) : (s.setFn f c).reg k = s.reg k := (rfl)
@[simp] theorem getF_setFn (s : State) (f : Func) (c : FnCfg) (k : Fld) : (s.setFn f c).getF k = s.getF k := (rfl)
@[simp] theorem reg_setVec (s : State) (p v : Nat) (e : MsgEntry) (k : Nat) : (s.setVec p v e).reg k = s.reg k := (rfl)
@[simp] theorem getF_setVec (s : State) (p v : Nat) (e : MsgEntry) (k : Fld) : (s.setVec p v e).getF k = s.getF k := (rfl)
@[simp] theorem reg_setSlice (s : State) (i : Nat) (x : Slice) (k : Nat) : (s.setSlice i x).reg k = s.reg k := (rfl)
@[simp] theorem getF_setSlice (s : State) (i : Nat) (x : Slice) (k : Fld) : (s.setSlice i x).getF k = s.getF k := (rfl)
@[simp] theorem reg_setRing (s : State) (q : Nat) (r : Ring) (k : Nat) : (s.setRing q r).reg k = s.reg k := (rfl)
@[simp] theorem getF_setRing (s : State) (q : Nat) (r : Ring) (k : Fld) : (s.setRing q r).getF k = s.getF k := (rfl)
@[simp] theorem reg_setOp (s : State) (o : Op) (k : Nat) : (s.setOp o).reg k = s.reg k := (rfl)
@[simp] theorem getF_setOp (s : State) (o : Op) (k : Fld) : (s.setOp o).getF k = s.getF k := (rfl)
@[simp] theorem reg_commitOp (s : State) (i : Nat) (k : Nat) : (s.commitOp i).reg k = s.reg k := (rfl)
@[simp] theorem getF_commitOp (s : State) (i : Nat) (k : Fld) : (s.commitOp i).getF k = s.getF k := (rfl)
@[simp] theorem reg_deferOp (s : State) (i : Nat) (k : Nat) : (s.deferOp i).reg k = s.reg k := (rfl)
@[simp] theorem getF_deferOp (s : State) (i : Nat) (k : Fld) : (s.deferOp i).getF k = s.getF k := (rfl)
@[simp] theorem reg_dropOp (s : State) (i : Nat) (k : Nat) : (s.dropOp i).reg k = s.reg k := (rfl)
@[simp] theorem getF_dropOp (s : State) (i : Nat) (k : Fld) : (s.dropOp i).getF k = s.getF k := (rfl)
@[simp] theorem reg_atLeast (s : State) (n : Nat) (k : Nat) : (s.atLeast n).reg k = s.reg k := (rfl)
@[simp] theorem getF_atLeast (s : State) (n : Nat) (k : Fld) : (s.atLeast n).getF k = s.getF k := (rfl)
@[simp] theorem slice_mk x0 x1 x2 x3 x4 x5 x6 x7 x8 x9 x10 x11 x12 x13 x14 x15 x16 x17 x18 x19 x20 x21 x22 x23 x24 x25 x26 x27 x28 x29 x30 x31 x32 x33 x34 x35 x36 x37 x38 x39 x40 x41 x42 x43 x44 x45 (k : Nat) : State.slice (State.mk x0 x1 x2 x3 x4 x5 x6 x7 x8 x9 x10 x11 x12 x13 x14 x15 x16 x17 x18 x19 x20 x21 x22 x23 x24 x25 x26 x27 x28 x29 x30 x31 x32 x33 x34 x35 x36 x37 x38 x39 x40 x41 x42 x43 x44 x45) k = lookD x13 k (Slice.free (x14 + k)) := (rfl)
@[simp] theorem slice_fold (s : State) (k : Nat) : lookD s.slices k (Slice.free (s.nonceBase + k)) = s.slice k := (rfl)
@[simp] theorem slice_setReg (s : State) (a v : Nat) (k : Nat) : (s.setReg a v).slice k = s.slice k := (rfl)
@[simp] theorem slice_setF (s : State) (f : Fld) (v : Nat) (k : Nat) : (s.setF f v).slice k = s.slice k := (rfl)
@[simp] theorem slice_bumpBy (s : State) (f : Fld) (n : Nat) (k : Nat) : (s.bumpBy f n).slice k = s.slice k := (rfl)
@[simp] theorem slice_bump (s : State) (f : Fld) (k : Nat) : (s.bump f).slice k = s.slice k := (rfl)
@[simp] theorem slice_bumpSat (s : State) (f : Fld) (k : Nat) : (s.bumpSat f).slice k = s.slice k := (rfl)
@[simp] theorem slice_bump64 (s : State) (lo hi n : Nat) (k : Nat) : (s.bump64 lo hi n).slice k = s.slice k := (rfl)
@[simp] theorem slice_event (s : State) (f : Fld) (k : Nat) : (s.event f).slice k = s.slice k := (rfl)
@[simp] theorem slice_eventV (s : State) (f : Fld) (v : Nat) (k : Nat) : (s.eventV f v).slice k = s.slice k := (rfl)
@[simp] theorem slice_violate (s : State) (m : Master) (v : Viol) (o : Nat) (k : Nat) : (s.violate m v o).slice k = s.slice k := (rfl)
@[simp] theorem slice_send (s : State) (o : Out) (k : Nat) : (s.send o).slice k = s.slice k := (rfl)
@[simp] theorem slice_setFn (s : State) (f : Func) (c : FnCfg) (k : Nat) : (s.setFn f c).slice k = s.slice k := (rfl)
@[simp] theorem slice_setVec (s : State) (p v : Nat) (e : MsgEntry) (k : Nat) : (s.setVec p v e).slice k = s.slice k := (rfl)
@[simp] theorem slice_setRing (s : State) (q : Nat) (r : Ring) (k : Nat) : (s.setRing q r).slice k = s.slice k := (rfl)
@[simp] theorem slice_setOp (s : State) (o : Op) (k : Nat) : (s.setOp o).slice k = s.slice k := (rfl)
@[simp] theorem slice_commitOp (s : State) (i : Nat) (k : Nat) : (s.commitOp i).slice k = s.slice k := (rfl)
@[simp] theorem slice_deferOp (s : State) (i : Nat) (k : Nat) : (s.deferOp i).slice k = s.slice k := (rfl)
@[simp] theorem slice_dropOp (s : State) (i : Nat) (k : Nat) : (s.dropOp i).slice k = s.slice k := (rfl)
@[simp] theorem slice_atLeast (s : State) (n : Nat) (k : Nat) : (s.atLeast n).slice k = s.slice k := (rfl)

end Sys2Proof.Machine
end

