-- ==== Sys2Proof/Laws/Flags.lean ====
section
/-! SUPPORT. What signalling and error reporting leave alone: an interrupt touches PF0's vectors and the outbox, and a report besides them the
registers, the error ring in memory and what telemetry counts (R273, R284 to R287, R380). -/

namespace Sys2Proof.Machine

@[simp] theorem State.wakeLink_pend (s : State) (p h : Nat) : (s.wakeLink p h).pend = s.pend := by
  unfold State.wakeLink; split <;> rfl
@[simp] theorem State.wakeLink_latches (s : State) (p h : Nat) : (s.wakeLink p h).latches = s.latches := by
  unfold State.wakeLink; split <;> rfl
@[simp] theorem State.wakeLink_sealOk (s : State) (p h : Nat) : (s.wakeLink p h).sealOk = s.sealOk := by
  unfold State.wakeLink; split <;> rfl
@[simp] theorem State.wakeLink_sealBad (s : State) (p h : Nat) : (s.wakeLink p h).sealBad = s.sealBad := by
  unfold State.wakeLink; split <;> rfl
@[simp] theorem State.wakeLink_draws (s : State) (p h : Nat) : (s.wakeLink p h).draws = s.draws := by
  unfold State.wakeLink; split <;> rfl
@[simp] theorem State.wakeLink_dev (s : State) (p h : Nat) : (s.wakeLink p h).dev = s.dev := by
  unfold State.wakeLink; split <;> rfl
@[simp] theorem State.wakeLink_pwr (s : State) (p h : Nat) : (s.wakeLink p h).pwr = s.pwr := by
  unfold State.wakeLink; split <;> rfl
@[simp] theorem State.wakeLink_str (s : State) (p h : Nat) : (s.wakeLink p h).str = s.str := by
  unfold State.wakeLink; split <;> rfl
@[simp] theorem State.wakeLink_time (s : State) (p h : Nat) : (s.wakeLink p h).time = s.time := by
  unfold State.wakeLink; split <;> rfl
@[simp] theorem State.wakeLink_since (s : State) (p h : Nat) : (s.wakeLink p h).since = s.since := by
  unfold State.wakeLink; split <;> rfl
@[simp] theorem State.wakeLink_leaseMs (s : State) (p h : Nat) : (s.wakeLink p h).leaseMs = s.leaseMs := by
  unfold State.wakeLink; split <;> rfl
@[simp] theorem State.wakeLink_slcCmd (s : State) (p h : Nat) : (s.wakeLink p h).slcCmd = s.slcCmd := by
  unfold State.wakeLink; split <;> rfl
@[simp] theorem State.wakeLink_slices (s : State) (p h : Nat) : (s.wakeLink p h).slices = s.slices := by
  unfold State.wakeLink; split <;> rfl
@[simp] theorem State.wakeLink_nonceBase (s : State) (p h : Nat) : (s.wakeLink p h).nonceBase = s.nonceBase := by
  unfold State.wakeLink; split <;> rfl
@[simp] theorem State.wakeLink_rings (s : State) (p h : Nat) : (s.wakeLink p h).rings = s.rings := by
  unfold State.wakeLink; split <;> rfl
@[simp] theorem State.wakeLink_ops (s : State) (p h : Nat) : (s.wakeLink p h).ops = s.ops := by
  unfold State.wakeLink; split <;> rfl
@[simp] theorem State.wakeLink_opNext (s : State) (p h : Nat) : (s.wakeLink p h).opNext = s.opNext := by
  unfold State.wakeLink; split <;> rfl
@[simp] theorem State.wakeLink_cqWait (s : State) (p h : Nat) : (s.wakeLink p h).cqWait = s.cqWait := by
  unfold State.wakeLink; split <;> rfl
@[simp] theorem State.wakeLink_recent (s : State) (p h : Nat) : (s.wakeLink p h).recent = s.recent := by
  unfold State.wakeLink; split <;> rfl
@[simp] theorem State.wakeLink_clasps (s : State) (p h : Nat) : (s.wakeLink p h).clasps = s.clasps := by
  unfold State.wakeLink; split <;> rfl
@[simp] theorem State.wakeLink_errFail (s : State) (p h : Nat) : (s.wakeLink p h).errFail = s.errFail := by
  unfold State.wakeLink; split <;> rfl
@[simp] theorem State.wakeLink_errHold (s : State) (p h : Nat) : (s.wakeLink p h).errHold = s.errHold := by
  unfold State.wakeLink; split <;> rfl
@[simp] theorem State.wakeLink_msgs (s : State) (p h : Nat) : (s.wakeLink p h).msgs = s.msgs := by
  unfold State.wakeLink; split <;> rfl
@[simp] theorem State.wakeLink_msix (s : State) (p h : Nat) : (s.wakeLink p h).msix = s.msix := by
  unfold State.wakeLink; split <;> rfl
@[simp] theorem State.wakeLink_intx (s : State) (p h : Nat) : (s.wakeLink p h).intx = s.intx := by
  unfold State.wakeLink; split <;> rfl
@[simp] theorem State.wakeLink_links (s : State) (p h : Nat) : (s.wakeLink p h).links = s.links := by
  unfold State.wakeLink; split <;> rfl
@[simp] theorem State.wakeLink_fns (s : State) (p h : Nat) : (s.wakeLink p h).fns = s.fns := by
  unfold State.wakeLink; split <;> rfl
@[simp] theorem State.wakeLink_mem (s : State) (p h : Nat) : (s.wakeLink p h).mem = s.mem := by
  unfold State.wakeLink; split <;> rfl
@[simp] theorem State.wakeLink_gal (s : State) (p h : Nat) : (s.wakeLink p h).gal = s.gal := by
  unfold State.wakeLink; split <;> rfl
@[simp] theorem State.wakeLink_flights (s : State) (p h : Nat) : (s.wakeLink p h).flights = s.flights := by
  unfold State.wakeLink; split <;> rfl
@[simp] theorem State.wakeLink_flCtl (s : State) (p h : Nat) : (s.wakeLink p h).flCtl = s.flCtl := by
  unfold State.wakeLink; split <;> rfl
@[simp] theorem State.wakeLink_flCtlNext (s : State) (p h : Nat) : (s.wakeLink p h).flCtlNext = s.flCtlNext := by
  unfold State.wakeLink; split <;> rfl
@[simp] theorem State.wakeLink_fltWait (s : State) (p h : Nat) : (s.wakeLink p h).fltWait = s.fltWait := by
  unfold State.wakeLink; split <;> rfl
@[simp] theorem State.wakeLink_rte (s : State) (p h : Nat) : (s.wakeLink p h).rte = s.rte := by
  unfold State.wakeLink; split <;> rfl
@[simp] theorem State.wakeLink_plc (s : State) (p h : Nat) : (s.wakeLink p h).plc = s.plc := by
  unfold State.wakeLink; split <;> rfl
@[simp] theorem State.wakeLink_pp (s : State) (p h : Nat) : (s.wakeLink p h).pp = s.pp := by
  unfold State.wakeLink; split <;> rfl
@[simp] theorem State.wakeLink_nvs (s : State) (p h : Nat) : (s.wakeLink p h).nvs = s.nvs := by
  unfold State.wakeLink; split <;> rfl
@[simp] theorem State.wakeLink_cip (s : State) (p h : Nat) : (s.wakeLink p h).cip = s.cip := by
  unfold State.wakeLink; split <;> rfl
@[simp] theorem State.wakeLink_stw (s : State) (p h : Nat) : (s.wakeLink p h).stw = s.stw := by
  unfold State.wakeLink; split <;> rfl
@[simp] theorem State.wakeLink_sig (s : State) (p h : Nat) : (s.wakeLink p h).sig = s.sig := by
  unfold State.wakeLink; split <;> rfl
@[simp] theorem State.wakeLink_mio (s : State) (p h : Nat) : (s.wakeLink p h).mio = s.mio := by
  unfold State.wakeLink; split <;> rfl
@[simp] theorem State.wakeLink_outbox (s : State) (p h : Nat) : (s.wakeLink p h).outbox = s.outbox := by
  unfold State.wakeLink; split <;> rfl
@[simp] theorem State.wakeLink_held (s : State) (p h : Nat) : (s.wakeLink p h).held = s.held := by
  unfold State.wakeLink; split <;> rfl
@[simp] theorem State.wakeLink_mgmt (s : State) (p h : Nat) : (s.wakeLink p h).mgmt = s.mgmt := by
  unfold State.wakeLink; split <;> rfl
@[simp] theorem State.wakeLink_pending (s : State) (p h : Nat) : (s.wakeLink p h).pending = s.pending := by
  unfold State.wakeLink; split <;> rfl

@[simp] theorem State.wakeMaster_pend (s : State) (m : Master) : (s.wakeMaster m).pend = s.pend := by
  cases m <;> simp [State.wakeMaster]
@[simp] theorem State.wakeMaster_latches (s : State) (m : Master) : (s.wakeMaster m).latches = s.latches := by
  cases m <;> simp [State.wakeMaster]
@[simp] theorem State.wakeMaster_sealOk (s : State) (m : Master) : (s.wakeMaster m).sealOk = s.sealOk := by
  cases m <;> simp [State.wakeMaster]
@[simp] theorem State.wakeMaster_sealBad (s : State) (m : Master) : (s.wakeMaster m).sealBad = s.sealBad := by
  cases m <;> simp [State.wakeMaster]
@[simp] theorem State.wakeMaster_draws (s : State) (m : Master) : (s.wakeMaster m).draws = s.draws := by
  cases m <;> simp [State.wakeMaster]
@[simp] theorem State.wakeMaster_dev (s : State) (m : Master) : (s.wakeMaster m).dev = s.dev := by
  cases m <;> simp [State.wakeMaster]
@[simp] theorem State.wakeMaster_pwr (s : State) (m : Master) : (s.wakeMaster m).pwr = s.pwr := by
  cases m <;> simp [State.wakeMaster]
@[simp] theorem State.wakeMaster_str (s : State) (m : Master) : (s.wakeMaster m).str = s.str := by
  cases m <;> simp [State.wakeMaster]
@[simp] theorem State.wakeMaster_time (s : State) (m : Master) : (s.wakeMaster m).time = s.time := by
  cases m <;> simp [State.wakeMaster]
@[simp] theorem State.wakeMaster_since (s : State) (m : Master) : (s.wakeMaster m).since = s.since := by
  cases m <;> simp [State.wakeMaster]
@[simp] theorem State.wakeMaster_leaseMs (s : State) (m : Master) : (s.wakeMaster m).leaseMs = s.leaseMs := by
  cases m <;> simp [State.wakeMaster]
@[simp] theorem State.wakeMaster_slcCmd (s : State) (m : Master) : (s.wakeMaster m).slcCmd = s.slcCmd := by
  cases m <;> simp [State.wakeMaster]
@[simp] theorem State.wakeMaster_slices (s : State) (m : Master) : (s.wakeMaster m).slices = s.slices := by
  cases m <;> simp [State.wakeMaster]
@[simp] theorem State.wakeMaster_nonceBase (s : State) (m : Master) : (s.wakeMaster m).nonceBase = s.nonceBase := by
  cases m <;> simp [State.wakeMaster]
@[simp] theorem State.wakeMaster_rings (s : State) (m : Master) : (s.wakeMaster m).rings = s.rings := by
  cases m <;> simp [State.wakeMaster]
@[simp] theorem State.wakeMaster_ops (s : State) (m : Master) : (s.wakeMaster m).ops = s.ops := by
  cases m <;> simp [State.wakeMaster]
@[simp] theorem State.wakeMaster_opNext (s : State) (m : Master) : (s.wakeMaster m).opNext = s.opNext := by
  cases m <;> simp [State.wakeMaster]
@[simp] theorem State.wakeMaster_cqWait (s : State) (m : Master) : (s.wakeMaster m).cqWait = s.cqWait := by
  cases m <;> simp [State.wakeMaster]
@[simp] theorem State.wakeMaster_recent (s : State) (m : Master) : (s.wakeMaster m).recent = s.recent := by
  cases m <;> simp [State.wakeMaster]
@[simp] theorem State.wakeMaster_clasps (s : State) (m : Master) : (s.wakeMaster m).clasps = s.clasps := by
  cases m <;> simp [State.wakeMaster]
@[simp] theorem State.wakeMaster_errFail (s : State) (m : Master) : (s.wakeMaster m).errFail = s.errFail := by
  cases m <;> simp [State.wakeMaster]
@[simp] theorem State.wakeMaster_errHold (s : State) (m : Master) : (s.wakeMaster m).errHold = s.errHold := by
  cases m <;> simp [State.wakeMaster]
@[simp] theorem State.wakeMaster_msgs (s : State) (m : Master) : (s.wakeMaster m).msgs = s.msgs := by
  cases m <;> simp [State.wakeMaster]
@[simp] theorem State.wakeMaster_msix (s : State) (m : Master) : (s.wakeMaster m).msix = s.msix := by
  cases m <;> simp [State.wakeMaster]
@[simp] theorem State.wakeMaster_intx (s : State) (m : Master) : (s.wakeMaster m).intx = s.intx := by
  cases m <;> simp [State.wakeMaster]
@[simp] theorem State.wakeMaster_links (s : State) (m : Master) : (s.wakeMaster m).links = s.links := by
  cases m <;> simp [State.wakeMaster]
@[simp] theorem State.wakeMaster_fns (s : State) (m : Master) : (s.wakeMaster m).fns = s.fns := by
  cases m <;> simp [State.wakeMaster]
@[simp] theorem State.wakeMaster_mem (s : State) (m : Master) : (s.wakeMaster m).mem = s.mem := by
  cases m <;> simp [State.wakeMaster]
@[simp] theorem State.wakeMaster_gal (s : State) (m : Master) : (s.wakeMaster m).gal = s.gal := by
  cases m <;> simp [State.wakeMaster]
@[simp] theorem State.wakeMaster_flights (s : State) (m : Master) : (s.wakeMaster m).flights = s.flights := by
  cases m <;> simp [State.wakeMaster]
@[simp] theorem State.wakeMaster_flCtl (s : State) (m : Master) : (s.wakeMaster m).flCtl = s.flCtl := by
  cases m <;> simp [State.wakeMaster]
@[simp] theorem State.wakeMaster_flCtlNext (s : State) (m : Master) : (s.wakeMaster m).flCtlNext = s.flCtlNext := by
  cases m <;> simp [State.wakeMaster]
@[simp] theorem State.wakeMaster_fltWait (s : State) (m : Master) : (s.wakeMaster m).fltWait = s.fltWait := by
  cases m <;> simp [State.wakeMaster]
@[simp] theorem State.wakeMaster_rte (s : State) (m : Master) : (s.wakeMaster m).rte = s.rte := by
  cases m <;> simp [State.wakeMaster]
@[simp] theorem State.wakeMaster_plc (s : State) (m : Master) : (s.wakeMaster m).plc = s.plc := by
  cases m <;> simp [State.wakeMaster]
@[simp] theorem State.wakeMaster_pp (s : State) (m : Master) : (s.wakeMaster m).pp = s.pp := by
  cases m <;> simp [State.wakeMaster]
@[simp] theorem State.wakeMaster_nvs (s : State) (m : Master) : (s.wakeMaster m).nvs = s.nvs := by
  cases m <;> simp [State.wakeMaster]
@[simp] theorem State.wakeMaster_cip (s : State) (m : Master) : (s.wakeMaster m).cip = s.cip := by
  cases m <;> simp [State.wakeMaster]
@[simp] theorem State.wakeMaster_stw (s : State) (m : Master) : (s.wakeMaster m).stw = s.stw := by
  cases m <;> simp [State.wakeMaster]
@[simp] theorem State.wakeMaster_sig (s : State) (m : Master) : (s.wakeMaster m).sig = s.sig := by
  cases m <;> simp [State.wakeMaster]
@[simp] theorem State.wakeMaster_mio (s : State) (m : Master) : (s.wakeMaster m).mio = s.mio := by
  cases m <;> simp [State.wakeMaster]
@[simp] theorem State.wakeMaster_outbox (s : State) (m : Master) : (s.wakeMaster m).outbox = s.outbox := by
  cases m <;> simp [State.wakeMaster]
@[simp] theorem State.wakeMaster_held (s : State) (m : Master) : (s.wakeMaster m).held = s.held := by
  cases m <;> simp [State.wakeMaster]
@[simp] theorem State.wakeMaster_mgmt (s : State) (m : Master) : (s.wakeMaster m).mgmt = s.mgmt := by
  cases m <;> simp [State.wakeMaster]
@[simp] theorem State.wakeMaster_pending (s : State) (m : Master) : (s.wakeMaster m).pending = s.pending := by
  cases m <;> simp [State.wakeMaster]

@[simp] theorem State.pf0Event_regs (s : State) (p : Fin 4) (v : Nat) : (s.pf0Event p v).regs = s.regs := by
  unfold State.pf0Event; dsimp only; (repeat' split) <;> rfl
@[simp] theorem State.pf0Event_pend (s : State) (p : Fin 4) (v : Nat) : (s.pf0Event p v).pend = s.pend := by
  unfold State.pf0Event; dsimp only; (repeat' split) <;> rfl
@[simp] theorem State.pf0Event_latches (s : State) (p : Fin 4) (v : Nat) : (s.pf0Event p v).latches = s.latches := by
  unfold State.pf0Event; dsimp only; (repeat' split) <;> rfl
@[simp] theorem State.pf0Event_sealOk (s : State) (p : Fin 4) (v : Nat) : (s.pf0Event p v).sealOk = s.sealOk := by
  unfold State.pf0Event; dsimp only; (repeat' split) <;> rfl
@[simp] theorem State.pf0Event_sealBad (s : State) (p : Fin 4) (v : Nat) : (s.pf0Event p v).sealBad = s.sealBad := by
  unfold State.pf0Event; dsimp only; (repeat' split) <;> rfl
@[simp] theorem State.pf0Event_draws (s : State) (p : Fin 4) (v : Nat) : (s.pf0Event p v).draws = s.draws := by
  unfold State.pf0Event; dsimp only; (repeat' split) <;> rfl
@[simp] theorem State.pf0Event_dev (s : State) (p : Fin 4) (v : Nat) : (s.pf0Event p v).dev = s.dev := by
  unfold State.pf0Event; dsimp only; (repeat' split) <;> rfl
@[simp] theorem State.pf0Event_pwr (s : State) (p : Fin 4) (v : Nat) : (s.pf0Event p v).pwr = s.pwr := by
  unfold State.pf0Event; dsimp only; (repeat' split) <;> rfl
@[simp] theorem State.pf0Event_str (s : State) (p : Fin 4) (v : Nat) : (s.pf0Event p v).str = s.str := by
  unfold State.pf0Event; dsimp only; (repeat' split) <;> rfl
@[simp] theorem State.pf0Event_time (s : State) (p : Fin 4) (v : Nat) : (s.pf0Event p v).time = s.time := by
  unfold State.pf0Event; dsimp only; (repeat' split) <;> rfl
@[simp] theorem State.pf0Event_since (s : State) (p : Fin 4) (v : Nat) : (s.pf0Event p v).since = s.since := by
  unfold State.pf0Event; dsimp only; (repeat' split) <;> rfl
@[simp] theorem State.pf0Event_leaseMs (s : State) (p : Fin 4) (v : Nat) : (s.pf0Event p v).leaseMs = s.leaseMs := by
  unfold State.pf0Event; dsimp only; (repeat' split) <;> rfl
@[simp] theorem State.pf0Event_slcCmd (s : State) (p : Fin 4) (v : Nat) : (s.pf0Event p v).slcCmd = s.slcCmd := by
  unfold State.pf0Event; dsimp only; (repeat' split) <;> rfl
@[simp] theorem State.pf0Event_slices (s : State) (p : Fin 4) (v : Nat) : (s.pf0Event p v).slices = s.slices := by
  unfold State.pf0Event; dsimp only; (repeat' split) <;> rfl
@[simp] theorem State.pf0Event_nonceBase (s : State) (p : Fin 4) (v : Nat) : (s.pf0Event p v).nonceBase = s.nonceBase := by
  unfold State.pf0Event; dsimp only; (repeat' split) <;> rfl
@[simp] theorem State.pf0Event_rings (s : State) (p : Fin 4) (v : Nat) : (s.pf0Event p v).rings = s.rings := by
  unfold State.pf0Event; dsimp only; (repeat' split) <;> rfl
@[simp] theorem State.pf0Event_ops (s : State) (p : Fin 4) (v : Nat) : (s.pf0Event p v).ops = s.ops := by
  unfold State.pf0Event; dsimp only; (repeat' split) <;> rfl
@[simp] theorem State.pf0Event_opNext (s : State) (p : Fin 4) (v : Nat) : (s.pf0Event p v).opNext = s.opNext := by
  unfold State.pf0Event; dsimp only; (repeat' split) <;> rfl
@[simp] theorem State.pf0Event_cqWait (s : State) (p : Fin 4) (v : Nat) : (s.pf0Event p v).cqWait = s.cqWait := by
  unfold State.pf0Event; dsimp only; (repeat' split) <;> rfl
@[simp] theorem State.pf0Event_recent (s : State) (p : Fin 4) (v : Nat) : (s.pf0Event p v).recent = s.recent := by
  unfold State.pf0Event; dsimp only; (repeat' split) <;> rfl
@[simp] theorem State.pf0Event_clasps (s : State) (p : Fin 4) (v : Nat) : (s.pf0Event p v).clasps = s.clasps := by
  unfold State.pf0Event; dsimp only; (repeat' split) <;> rfl
@[simp] theorem State.pf0Event_errFail (s : State) (p : Fin 4) (v : Nat) : (s.pf0Event p v).errFail = s.errFail := by
  unfold State.pf0Event; dsimp only; (repeat' split) <;> rfl
@[simp] theorem State.pf0Event_errHold (s : State) (p : Fin 4) (v : Nat) : (s.pf0Event p v).errHold = s.errHold := by
  unfold State.pf0Event; dsimp only; (repeat' split) <;> rfl
@[simp] theorem State.pf0Event_msgs (s : State) (p : Fin 4) (v : Nat) : (s.pf0Event p v).msgs = s.msgs := by
  unfold State.pf0Event; dsimp only; (repeat' split) <;> rfl
@[simp] theorem State.pf0Event_links (s : State) (p : Fin 4) (v : Nat) : (s.pf0Event p v).links = s.links := by
  unfold State.pf0Event; dsimp only; (repeat' split) <;> rfl
@[simp] theorem State.pf0Event_fns (s : State) (p : Fin 4) (v : Nat) : (s.pf0Event p v).fns = s.fns := by
  unfold State.pf0Event; dsimp only; (repeat' split) <;> rfl
@[simp] theorem State.pf0Event_mem (s : State) (p : Fin 4) (v : Nat) : (s.pf0Event p v).mem = s.mem := by
  unfold State.pf0Event; dsimp only; (repeat' split) <;> rfl
@[simp] theorem State.pf0Event_gal (s : State) (p : Fin 4) (v : Nat) : (s.pf0Event p v).gal = s.gal := by
  unfold State.pf0Event; dsimp only; (repeat' split) <;> rfl
@[simp] theorem State.pf0Event_flights (s : State) (p : Fin 4) (v : Nat) : (s.pf0Event p v).flights = s.flights := by
  unfold State.pf0Event; dsimp only; (repeat' split) <;> rfl
@[simp] theorem State.pf0Event_flCtl (s : State) (p : Fin 4) (v : Nat) : (s.pf0Event p v).flCtl = s.flCtl := by
  unfold State.pf0Event; dsimp only; (repeat' split) <;> rfl
@[simp] theorem State.pf0Event_flCtlNext (s : State) (p : Fin 4) (v : Nat) : (s.pf0Event p v).flCtlNext = s.flCtlNext := by
  unfold State.pf0Event; dsimp only; (repeat' split) <;> rfl
@[simp] theorem State.pf0Event_fltWait (s : State) (p : Fin 4) (v : Nat) : (s.pf0Event p v).fltWait = s.fltWait := by
  unfold State.pf0Event; dsimp only; (repeat' split) <;> rfl
@[simp] theorem State.pf0Event_rte (s : State) (p : Fin 4) (v : Nat) : (s.pf0Event p v).rte = s.rte := by
  unfold State.pf0Event; dsimp only; (repeat' split) <;> rfl
@[simp] theorem State.pf0Event_plc (s : State) (p : Fin 4) (v : Nat) : (s.pf0Event p v).plc = s.plc := by
  unfold State.pf0Event; dsimp only; (repeat' split) <;> rfl
@[simp] theorem State.pf0Event_pp (s : State) (p : Fin 4) (v : Nat) : (s.pf0Event p v).pp = s.pp := by
  unfold State.pf0Event; dsimp only; (repeat' split) <;> rfl
@[simp] theorem State.pf0Event_nvs (s : State) (p : Fin 4) (v : Nat) : (s.pf0Event p v).nvs = s.nvs := by
  unfold State.pf0Event; dsimp only; (repeat' split) <;> rfl
@[simp] theorem State.pf0Event_cip (s : State) (p : Fin 4) (v : Nat) : (s.pf0Event p v).cip = s.cip := by
  unfold State.pf0Event; dsimp only; (repeat' split) <;> rfl
@[simp] theorem State.pf0Event_stw (s : State) (p : Fin 4) (v : Nat) : (s.pf0Event p v).stw = s.stw := by
  unfold State.pf0Event; dsimp only; (repeat' split) <;> rfl
@[simp] theorem State.pf0Event_sig (s : State) (p : Fin 4) (v : Nat) : (s.pf0Event p v).sig = s.sig := by
  unfold State.pf0Event; dsimp only; (repeat' split) <;> rfl
@[simp] theorem State.pf0Event_mio (s : State) (p : Fin 4) (v : Nat) : (s.pf0Event p v).mio = s.mio := by
  unfold State.pf0Event; dsimp only; (repeat' split) <;> rfl
@[simp] theorem State.pf0Event_held (s : State) (p : Fin 4) (v : Nat) : (s.pf0Event p v).held = s.held := by
  unfold State.pf0Event; dsimp only; (repeat' split) <;> rfl
@[simp] theorem State.pf0Event_mgmt (s : State) (p : Fin 4) (v : Nat) : (s.pf0Event p v).mgmt = s.mgmt := by
  unfold State.pf0Event; dsimp only; (repeat' split) <;> rfl
@[simp] theorem State.pf0Event_pending (s : State) (p : Fin 4) (v : Nat) : (s.pf0Event p v).pending = s.pending := by
  unfold State.pf0Event; dsimp only; (repeat' split) <;> rfl

@[simp] theorem State.errLost_pend (s : State)  : (s.errLost ).pend = s.pend := by
  rfl
@[simp] theorem State.errLost_latches (s : State)  : (s.errLost ).latches = s.latches := by
  rfl
@[simp] theorem State.errLost_sealOk (s : State)  : (s.errLost ).sealOk = s.sealOk := by
  rfl
@[simp] theorem State.errLost_sealBad (s : State)  : (s.errLost ).sealBad = s.sealBad := by
  rfl
@[simp] theorem State.errLost_draws (s : State)  : (s.errLost ).draws = s.draws := by
  rfl
@[simp] theorem State.errLost_dev (s : State)  : (s.errLost ).dev = s.dev := by
  rfl
@[simp] theorem State.errLost_pwr (s : State)  : (s.errLost ).pwr = s.pwr := by
  rfl
@[simp] theorem State.errLost_str (s : State)  : (s.errLost ).str = s.str := by
  rfl
@[simp] theorem State.errLost_time (s : State)  : (s.errLost ).time = s.time := by
  rfl
@[simp] theorem State.errLost_since (s : State)  : (s.errLost ).since = s.since := by
  rfl
@[simp] theorem State.errLost_leaseMs (s : State)  : (s.errLost ).leaseMs = s.leaseMs := by
  rfl
@[simp] theorem State.errLost_slcCmd (s : State)  : (s.errLost ).slcCmd = s.slcCmd := by
  rfl
@[simp] theorem State.errLost_slices (s : State)  : (s.errLost ).slices = s.slices := by
  rfl
@[simp] theorem State.errLost_nonceBase (s : State)  : (s.errLost ).nonceBase = s.nonceBase := by
  rfl
@[simp] theorem State.errLost_rings (s : State)  : (s.errLost ).rings = s.rings := by
  rfl
@[simp] theorem State.errLost_ops (s : State)  : (s.errLost ).ops = s.ops := by
  rfl
@[simp] theorem State.errLost_opNext (s : State)  : (s.errLost ).opNext = s.opNext := by
  rfl
@[simp] theorem State.errLost_cqWait (s : State)  : (s.errLost ).cqWait = s.cqWait := by
  rfl
@[simp] theorem State.errLost_recent (s : State)  : (s.errLost ).recent = s.recent := by
  rfl
@[simp] theorem State.errLost_clasps (s : State)  : (s.errLost ).clasps = s.clasps := by
  rfl
@[simp] theorem State.errLost_errFail (s : State)  : (s.errLost ).errFail = s.errFail := by
  rfl
@[simp] theorem State.errLost_errHold (s : State)  : (s.errLost ).errHold = s.errHold := by
  rfl
@[simp] theorem State.errLost_msgs (s : State)  : (s.errLost ).msgs = s.msgs := by
  rfl
@[simp] theorem State.errLost_msix (s : State)  : (s.errLost ).msix = s.msix := by
  rfl
@[simp] theorem State.errLost_intx (s : State)  : (s.errLost ).intx = s.intx := by
  rfl
@[simp] theorem State.errLost_links (s : State)  : (s.errLost ).links = s.links := by
  rfl
@[simp] theorem State.errLost_fns (s : State)  : (s.errLost ).fns = s.fns := by
  rfl
@[simp] theorem State.errLost_mem (s : State)  : (s.errLost ).mem = s.mem := by
  rfl
@[simp] theorem State.errLost_gal (s : State)  : (s.errLost ).gal = s.gal := by
  rfl
@[simp] theorem State.errLost_flights (s : State)  : (s.errLost ).flights = s.flights := by
  rfl
@[simp] theorem State.errLost_flCtl (s : State)  : (s.errLost ).flCtl = s.flCtl := by
  rfl
@[simp] theorem State.errLost_flCtlNext (s : State)  : (s.errLost ).flCtlNext = s.flCtlNext := by
  rfl
@[simp] theorem State.errLost_fltWait (s : State)  : (s.errLost ).fltWait = s.fltWait := by
  rfl
@[simp] theorem State.errLost_rte (s : State)  : (s.errLost ).rte = s.rte := by
  rfl
@[simp] theorem State.errLost_plc (s : State)  : (s.errLost ).plc = s.plc := by
  rfl
@[simp] theorem State.errLost_pp (s : State)  : (s.errLost ).pp = s.pp := by
  rfl
@[simp] theorem State.errLost_nvs (s : State)  : (s.errLost ).nvs = s.nvs := by
  rfl
@[simp] theorem State.errLost_cip (s : State)  : (s.errLost ).cip = s.cip := by
  rfl
@[simp] theorem State.errLost_stw (s : State)  : (s.errLost ).stw = s.stw := by
  rfl
@[simp] theorem State.errLost_sig (s : State)  : (s.errLost ).sig = s.sig := by
  rfl
@[simp] theorem State.errLost_mio (s : State)  : (s.errLost ).mio = s.mio := by
  rfl
@[simp] theorem State.errLost_outbox (s : State)  : (s.errLost ).outbox = s.outbox := by
  rfl
@[simp] theorem State.errLost_held (s : State)  : (s.errLost ).held = s.held := by
  rfl
@[simp] theorem State.errLost_mgmt (s : State)  : (s.errLost ).mgmt = s.mgmt := by
  rfl
@[simp] theorem State.errLost_pending (s : State)  : (s.errLost ).pending = s.pending := by
  rfl

@[simp] theorem State.errPut_pend (s : State) (e : ErrRec) : (s.errPut e).pend = s.pend := by
  unfold State.errPut; split
  · rfl
  · simp only []
    split
    · rfl
    · split
      · rfl
      · simp
@[simp] theorem State.errPut_latches (s : State) (e : ErrRec) : (s.errPut e).latches = s.latches := by
  unfold State.errPut; split
  · rfl
  · simp only []
    split
    · rfl
    · split
      · rfl
      · simp
@[simp] theorem State.errPut_sealOk (s : State) (e : ErrRec) : (s.errPut e).sealOk = s.sealOk := by
  unfold State.errPut; split
  · rfl
  · simp only []
    split
    · rfl
    · split
      · rfl
      · simp
@[simp] theorem State.errPut_sealBad (s : State) (e : ErrRec) : (s.errPut e).sealBad = s.sealBad := by
  unfold State.errPut; split
  · rfl
  · simp only []
    split
    · rfl
    · split
      · rfl
      · simp
@[simp] theorem State.errPut_draws (s : State) (e : ErrRec) : (s.errPut e).draws = s.draws := by
  unfold State.errPut; split
  · rfl
  · simp only []
    split
    · rfl
    · split
      · rfl
      · simp
@[simp] theorem State.errPut_dev (s : State) (e : ErrRec) : (s.errPut e).dev = s.dev := by
  unfold State.errPut; split
  · rfl
  · simp only []
    split
    · rfl
    · split
      · rfl
      · simp
@[simp] theorem State.errPut_pwr (s : State) (e : ErrRec) : (s.errPut e).pwr = s.pwr := by
  unfold State.errPut; split
  · rfl
  · simp only []
    split
    · rfl
    · split
      · rfl
      · simp
@[simp] theorem State.errPut_str (s : State) (e : ErrRec) : (s.errPut e).str = s.str := by
  unfold State.errPut; split
  · rfl
  · simp only []
    split
    · rfl
    · split
      · rfl
      · simp
@[simp] theorem State.errPut_time (s : State) (e : ErrRec) : (s.errPut e).time = s.time := by
  unfold State.errPut; split
  · rfl
  · simp only []
    split
    · rfl
    · split
      · rfl
      · simp
@[simp] theorem State.errPut_since (s : State) (e : ErrRec) : (s.errPut e).since = s.since := by
  unfold State.errPut; split
  · rfl
  · simp only []
    split
    · rfl
    · split
      · rfl
      · simp
@[simp] theorem State.errPut_leaseMs (s : State) (e : ErrRec) : (s.errPut e).leaseMs = s.leaseMs := by
  unfold State.errPut; split
  · rfl
  · simp only []
    split
    · rfl
    · split
      · rfl
      · simp
@[simp] theorem State.errPut_slcCmd (s : State) (e : ErrRec) : (s.errPut e).slcCmd = s.slcCmd := by
  unfold State.errPut; split
  · rfl
  · simp only []
    split
    · rfl
    · split
      · rfl
      · simp
@[simp] theorem State.errPut_slices (s : State) (e : ErrRec) : (s.errPut e).slices = s.slices := by
  unfold State.errPut; split
  · rfl
  · simp only []
    split
    · rfl
    · split
      · rfl
      · simp
@[simp] theorem State.errPut_nonceBase (s : State) (e : ErrRec) : (s.errPut e).nonceBase = s.nonceBase := by
  unfold State.errPut; split
  · rfl
  · simp only []
    split
    · rfl
    · split
      · rfl
      · simp
@[simp] theorem State.errPut_rings (s : State) (e : ErrRec) : (s.errPut e).rings = s.rings := by
  unfold State.errPut; split
  · rfl
  · simp only []
    split
    · rfl
    · split
      · rfl
      · simp
@[simp] theorem State.errPut_ops (s : State) (e : ErrRec) : (s.errPut e).ops = s.ops := by
  unfold State.errPut; split
  · rfl
  · simp only []
    split
    · rfl
    · split
      · rfl
      · simp
@[simp] theorem State.errPut_opNext (s : State) (e : ErrRec) : (s.errPut e).opNext = s.opNext := by
  unfold State.errPut; split
  · rfl
  · simp only []
    split
    · rfl
    · split
      · rfl
      · simp
@[simp] theorem State.errPut_cqWait (s : State) (e : ErrRec) : (s.errPut e).cqWait = s.cqWait := by
  unfold State.errPut; split
  · rfl
  · simp only []
    split
    · rfl
    · split
      · rfl
      · simp
@[simp] theorem State.errPut_recent (s : State) (e : ErrRec) : (s.errPut e).recent = s.recent := by
  unfold State.errPut; split
  · rfl
  · simp only []
    split
    · rfl
    · split
      · rfl
      · simp
@[simp] theorem State.errPut_clasps (s : State) (e : ErrRec) : (s.errPut e).clasps = s.clasps := by
  unfold State.errPut; split
  · rfl
  · simp only []
    split
    · rfl
    · split
      · rfl
      · simp
@[simp] theorem State.errPut_errHold (s : State) (e : ErrRec) : (s.errPut e).errHold = s.errHold := by
  unfold State.errPut; split
  · rfl
  · simp only []
    split
    · rfl
    · split
      · rfl
      · simp
@[simp] theorem State.errPut_msgs (s : State) (e : ErrRec) : (s.errPut e).msgs = s.msgs := by
  unfold State.errPut; split
  · rfl
  · simp only []
    split
    · rfl
    · split
      · rfl
      · simp
@[simp] theorem State.errPut_links (s : State) (e : ErrRec) : (s.errPut e).links = s.links := by
  unfold State.errPut; split
  · rfl
  · simp only []
    split
    · rfl
    · split
      · rfl
      · simp
@[simp] theorem State.errPut_fns (s : State) (e : ErrRec) : (s.errPut e).fns = s.fns := by
  unfold State.errPut; split
  · rfl
  · simp only []
    split
    · rfl
    · split
      · rfl
      · simp
@[simp] theorem State.errPut_gal (s : State) (e : ErrRec) : (s.errPut e).gal = s.gal := by
  unfold State.errPut; split
  · rfl
  · simp only []
    split
    · rfl
    · split
      · rfl
      · simp
@[simp] theorem State.errPut_flights (s : State) (e : ErrRec) : (s.errPut e).flights = s.flights := by
  unfold State.errPut; split
  · rfl
  · simp only []
    split
    · rfl
    · split
      · rfl
      · simp
@[simp] theorem State.errPut_flCtl (s : State) (e : ErrRec) : (s.errPut e).flCtl = s.flCtl := by
  unfold State.errPut; split
  · rfl
  · simp only []
    split
    · rfl
    · split
      · rfl
      · simp
@[simp] theorem State.errPut_flCtlNext (s : State) (e : ErrRec) : (s.errPut e).flCtlNext = s.flCtlNext := by
  unfold State.errPut; split
  · rfl
  · simp only []
    split
    · rfl
    · split
      · rfl
      · simp
@[simp] theorem State.errPut_fltWait (s : State) (e : ErrRec) : (s.errPut e).fltWait = s.fltWait := by
  unfold State.errPut; split
  · rfl
  · simp only []
    split
    · rfl
    · split
      · rfl
      · simp
@[simp] theorem State.errPut_rte (s : State) (e : ErrRec) : (s.errPut e).rte = s.rte := by
  unfold State.errPut; split
  · rfl
  · simp only []
    split
    · rfl
    · split
      · rfl
      · simp
@[simp] theorem State.errPut_plc (s : State) (e : ErrRec) : (s.errPut e).plc = s.plc := by
  unfold State.errPut; split
  · rfl
  · simp only []
    split
    · rfl
    · split
      · rfl
      · simp
@[simp] theorem State.errPut_pp (s : State) (e : ErrRec) : (s.errPut e).pp = s.pp := by
  unfold State.errPut; split
  · rfl
  · simp only []
    split
    · rfl
    · split
      · rfl
      · simp
@[simp] theorem State.errPut_nvs (s : State) (e : ErrRec) : (s.errPut e).nvs = s.nvs := by
  unfold State.errPut; split
  · rfl
  · simp only []
    split
    · rfl
    · split
      · rfl
      · simp
@[simp] theorem State.errPut_cip (s : State) (e : ErrRec) : (s.errPut e).cip = s.cip := by
  unfold State.errPut; split
  · rfl
  · simp only []
    split
    · rfl
    · split
      · rfl
      · simp
@[simp] theorem State.errPut_stw (s : State) (e : ErrRec) : (s.errPut e).stw = s.stw := by
  unfold State.errPut; split
  · rfl
  · simp only []
    split
    · rfl
    · split
      · rfl
      · simp
@[simp] theorem State.errPut_sig (s : State) (e : ErrRec) : (s.errPut e).sig = s.sig := by
  unfold State.errPut; split
  · rfl
  · simp only []
    split
    · rfl
    · split
      · rfl
      · simp
@[simp] theorem State.errPut_mio (s : State) (e : ErrRec) : (s.errPut e).mio = s.mio := by
  unfold State.errPut; split
  · rfl
  · simp only []
    split
    · rfl
    · split
      · rfl
      · simp
@[simp] theorem State.errPut_held (s : State) (e : ErrRec) : (s.errPut e).held = s.held := by
  unfold State.errPut; split
  · rfl
  · simp only []
    split
    · rfl
    · split
      · rfl
      · simp
@[simp] theorem State.errPut_mgmt (s : State) (e : ErrRec) : (s.errPut e).mgmt = s.mgmt := by
  unfold State.errPut; split
  · rfl
  · simp only []
    split
    · rfl
    · split
      · rfl
      · simp
@[simp] theorem State.errPut_pending (s : State) (e : ErrRec) : (s.errPut e).pending = s.pending := by
  unfold State.errPut; split
  · rfl
  · simp only []
    split
    · rfl
    · split
      · rfl
      · simp

@[simp] theorem State.errRecord_pend (s : State) (c b i k st l : Nat) (j : Bool) : (s.errRecord c b i k st l j).pend = s.pend := by
  unfold State.errRecord; simp only []; split <;> simp
@[simp] theorem State.errRecord_latches (s : State) (c b i k st l : Nat) (j : Bool) : (s.errRecord c b i k st l j).latches = s.latches := by
  unfold State.errRecord; simp only []; split <;> simp
@[simp] theorem State.errRecord_sealOk (s : State) (c b i k st l : Nat) (j : Bool) : (s.errRecord c b i k st l j).sealOk = s.sealOk := by
  unfold State.errRecord; simp only []; split <;> simp
@[simp] theorem State.errRecord_sealBad (s : State) (c b i k st l : Nat) (j : Bool) : (s.errRecord c b i k st l j).sealBad = s.sealBad := by
  unfold State.errRecord; simp only []; split <;> simp
@[simp] theorem State.errRecord_draws (s : State) (c b i k st l : Nat) (j : Bool) : (s.errRecord c b i k st l j).draws = s.draws := by
  unfold State.errRecord; simp only []; split <;> simp
@[simp] theorem State.errRecord_dev (s : State) (c b i k st l : Nat) (j : Bool) : (s.errRecord c b i k st l j).dev = s.dev := by
  unfold State.errRecord; simp only []; split <;> simp
@[simp] theorem State.errRecord_pwr (s : State) (c b i k st l : Nat) (j : Bool) : (s.errRecord c b i k st l j).pwr = s.pwr := by
  unfold State.errRecord; simp only []; split <;> simp
@[simp] theorem State.errRecord_str (s : State) (c b i k st l : Nat) (j : Bool) : (s.errRecord c b i k st l j).str = s.str := by
  unfold State.errRecord; simp only []; split <;> simp
@[simp] theorem State.errRecord_time (s : State) (c b i k st l : Nat) (j : Bool) : (s.errRecord c b i k st l j).time = s.time := by
  unfold State.errRecord; simp only []; split <;> simp
@[simp] theorem State.errRecord_since (s : State) (c b i k st l : Nat) (j : Bool) : (s.errRecord c b i k st l j).since = s.since := by
  unfold State.errRecord; simp only []; split <;> simp
@[simp] theorem State.errRecord_leaseMs (s : State) (c b i k st l : Nat) (j : Bool) : (s.errRecord c b i k st l j).leaseMs = s.leaseMs := by
  unfold State.errRecord; simp only []; split <;> simp
@[simp] theorem State.errRecord_slcCmd (s : State) (c b i k st l : Nat) (j : Bool) : (s.errRecord c b i k st l j).slcCmd = s.slcCmd := by
  unfold State.errRecord; simp only []; split <;> simp
@[simp] theorem State.errRecord_slices (s : State) (c b i k st l : Nat) (j : Bool) : (s.errRecord c b i k st l j).slices = s.slices := by
  unfold State.errRecord; simp only []; split <;> simp
@[simp] theorem State.errRecord_nonceBase (s : State) (c b i k st l : Nat) (j : Bool) : (s.errRecord c b i k st l j).nonceBase = s.nonceBase := by
  unfold State.errRecord; simp only []; split <;> simp
@[simp] theorem State.errRecord_rings (s : State) (c b i k st l : Nat) (j : Bool) : (s.errRecord c b i k st l j).rings = s.rings := by
  unfold State.errRecord; simp only []; split <;> simp
@[simp] theorem State.errRecord_ops (s : State) (c b i k st l : Nat) (j : Bool) : (s.errRecord c b i k st l j).ops = s.ops := by
  unfold State.errRecord; simp only []; split <;> simp
@[simp] theorem State.errRecord_opNext (s : State) (c b i k st l : Nat) (j : Bool) : (s.errRecord c b i k st l j).opNext = s.opNext := by
  unfold State.errRecord; simp only []; split <;> simp
@[simp] theorem State.errRecord_cqWait (s : State) (c b i k st l : Nat) (j : Bool) : (s.errRecord c b i k st l j).cqWait = s.cqWait := by
  unfold State.errRecord; simp only []; split <;> simp
@[simp] theorem State.errRecord_recent (s : State) (c b i k st l : Nat) (j : Bool) : (s.errRecord c b i k st l j).recent = s.recent := by
  unfold State.errRecord; simp only []; split <;> simp
@[simp] theorem State.errRecord_clasps (s : State) (c b i k st l : Nat) (j : Bool) : (s.errRecord c b i k st l j).clasps = s.clasps := by
  unfold State.errRecord; simp only []; split <;> simp
@[simp] theorem State.errRecord_msgs (s : State) (c b i k st l : Nat) (j : Bool) : (s.errRecord c b i k st l j).msgs = s.msgs := by
  unfold State.errRecord; simp only []; split <;> simp
@[simp] theorem State.errRecord_links (s : State) (c b i k st l : Nat) (j : Bool) : (s.errRecord c b i k st l j).links = s.links := by
  unfold State.errRecord; simp only []; split <;> simp
@[simp] theorem State.errRecord_fns (s : State) (c b i k st l : Nat) (j : Bool) : (s.errRecord c b i k st l j).fns = s.fns := by
  unfold State.errRecord; simp only []; split <;> simp
@[simp] theorem State.errRecord_gal (s : State) (c b i k st l : Nat) (j : Bool) : (s.errRecord c b i k st l j).gal = s.gal := by
  unfold State.errRecord; simp only []; split <;> simp
@[simp] theorem State.errRecord_flights (s : State) (c b i k st l : Nat) (j : Bool) : (s.errRecord c b i k st l j).flights = s.flights := by
  unfold State.errRecord; simp only []; split <;> simp
@[simp] theorem State.errRecord_flCtl (s : State) (c b i k st l : Nat) (j : Bool) : (s.errRecord c b i k st l j).flCtl = s.flCtl := by
  unfold State.errRecord; simp only []; split <;> simp
@[simp] theorem State.errRecord_flCtlNext (s : State) (c b i k st l : Nat) (j : Bool) : (s.errRecord c b i k st l j).flCtlNext = s.flCtlNext := by
  unfold State.errRecord; simp only []; split <;> simp
@[simp] theorem State.errRecord_fltWait (s : State) (c b i k st l : Nat) (j : Bool) : (s.errRecord c b i k st l j).fltWait = s.fltWait := by
  unfold State.errRecord; simp only []; split <;> simp
@[simp] theorem State.errRecord_rte (s : State) (c b i k st l : Nat) (j : Bool) : (s.errRecord c b i k st l j).rte = s.rte := by
  unfold State.errRecord; simp only []; split <;> simp
@[simp] theorem State.errRecord_plc (s : State) (c b i k st l : Nat) (j : Bool) : (s.errRecord c b i k st l j).plc = s.plc := by
  unfold State.errRecord; simp only []; split <;> simp
@[simp] theorem State.errRecord_pp (s : State) (c b i k st l : Nat) (j : Bool) : (s.errRecord c b i k st l j).pp = s.pp := by
  unfold State.errRecord; simp only []; split <;> simp
@[simp] theorem State.errRecord_nvs (s : State) (c b i k st l : Nat) (j : Bool) : (s.errRecord c b i k st l j).nvs = s.nvs := by
  unfold State.errRecord; simp only []; split <;> simp
@[simp] theorem State.errRecord_cip (s : State) (c b i k st l : Nat) (j : Bool) : (s.errRecord c b i k st l j).cip = s.cip := by
  unfold State.errRecord; simp only []; split <;> simp
@[simp] theorem State.errRecord_stw (s : State) (c b i k st l : Nat) (j : Bool) : (s.errRecord c b i k st l j).stw = s.stw := by
  unfold State.errRecord; simp only []; split <;> simp
@[simp] theorem State.errRecord_sig (s : State) (c b i k st l : Nat) (j : Bool) : (s.errRecord c b i k st l j).sig = s.sig := by
  unfold State.errRecord; simp only []; split <;> simp
@[simp] theorem State.errRecord_mio (s : State) (c b i k st l : Nat) (j : Bool) : (s.errRecord c b i k st l j).mio = s.mio := by
  unfold State.errRecord; simp only []; split <;> simp
@[simp] theorem State.errRecord_held (s : State) (c b i k st l : Nat) (j : Bool) : (s.errRecord c b i k st l j).held = s.held := by
  unfold State.errRecord; simp only []; split <;> simp
@[simp] theorem State.errRecord_mgmt (s : State) (c b i k st l : Nat) (j : Bool) : (s.errRecord c b i k st l j).mgmt = s.mgmt := by
  unfold State.errRecord; simp only []; split <;> simp
@[simp] theorem State.errRecord_pending (s : State) (c b i k st l : Nat) (j : Bool) : (s.errRecord c b i k st l j).pending = s.pending := by
  unfold State.errRecord; simp only []; split <;> simp

@[simp] theorem State.aer_regs (s : State) (c : Nat) : (s.aer c).regs = s.regs := by
  unfold State.aer; split
  · rfl
  · generalize s.upPorts = l
    induction l generalizing s with
    | nil => rfl
    | cons e l ih => exact ih _
@[simp] theorem State.aer_pend (s : State) (c : Nat) : (s.aer c).pend = s.pend := by
  unfold State.aer; split
  · rfl
  · generalize s.upPorts = l
    induction l generalizing s with
    | nil => rfl
    | cons e l ih => exact ih _
@[simp] theorem State.aer_latches (s : State) (c : Nat) : (s.aer c).latches = s.latches := by
  unfold State.aer; split
  · rfl
  · generalize s.upPorts = l
    induction l generalizing s with
    | nil => rfl
    | cons e l ih => exact ih _
@[simp] theorem State.aer_sealOk (s : State) (c : Nat) : (s.aer c).sealOk = s.sealOk := by
  unfold State.aer; split
  · rfl
  · generalize s.upPorts = l
    induction l generalizing s with
    | nil => rfl
    | cons e l ih => exact ih _
@[simp] theorem State.aer_sealBad (s : State) (c : Nat) : (s.aer c).sealBad = s.sealBad := by
  unfold State.aer; split
  · rfl
  · generalize s.upPorts = l
    induction l generalizing s with
    | nil => rfl
    | cons e l ih => exact ih _
@[simp] theorem State.aer_draws (s : State) (c : Nat) : (s.aer c).draws = s.draws := by
  unfold State.aer; split
  · rfl
  · generalize s.upPorts = l
    induction l generalizing s with
    | nil => rfl
    | cons e l ih => exact ih _
@[simp] theorem State.aer_dev (s : State) (c : Nat) : (s.aer c).dev = s.dev := by
  unfold State.aer; split
  · rfl
  · generalize s.upPorts = l
    induction l generalizing s with
    | nil => rfl
    | cons e l ih => exact ih _
@[simp] theorem State.aer_pwr (s : State) (c : Nat) : (s.aer c).pwr = s.pwr := by
  unfold State.aer; split
  · rfl
  · generalize s.upPorts = l
    induction l generalizing s with
    | nil => rfl
    | cons e l ih => exact ih _
@[simp] theorem State.aer_str (s : State) (c : Nat) : (s.aer c).str = s.str := by
  unfold State.aer; split
  · rfl
  · generalize s.upPorts = l
    induction l generalizing s with
    | nil => rfl
    | cons e l ih => exact ih _
@[simp] theorem State.aer_time (s : State) (c : Nat) : (s.aer c).time = s.time := by
  unfold State.aer; split
  · rfl
  · generalize s.upPorts = l
    induction l generalizing s with
    | nil => rfl
    | cons e l ih => exact ih _
@[simp] theorem State.aer_since (s : State) (c : Nat) : (s.aer c).since = s.since := by
  unfold State.aer; split
  · rfl
  · generalize s.upPorts = l
    induction l generalizing s with
    | nil => rfl
    | cons e l ih => exact ih _
@[simp] theorem State.aer_leaseMs (s : State) (c : Nat) : (s.aer c).leaseMs = s.leaseMs := by
  unfold State.aer; split
  · rfl
  · generalize s.upPorts = l
    induction l generalizing s with
    | nil => rfl
    | cons e l ih => exact ih _
@[simp] theorem State.aer_slcCmd (s : State) (c : Nat) : (s.aer c).slcCmd = s.slcCmd := by
  unfold State.aer; split
  · rfl
  · generalize s.upPorts = l
    induction l generalizing s with
    | nil => rfl
    | cons e l ih => exact ih _
@[simp] theorem State.aer_slices (s : State) (c : Nat) : (s.aer c).slices = s.slices := by
  unfold State.aer; split
  · rfl
  · generalize s.upPorts = l
    induction l generalizing s with
    | nil => rfl
    | cons e l ih => exact ih _
@[simp] theorem State.aer_nonceBase (s : State) (c : Nat) : (s.aer c).nonceBase = s.nonceBase := by
  unfold State.aer; split
  · rfl
  · generalize s.upPorts = l
    induction l generalizing s with
    | nil => rfl
    | cons e l ih => exact ih _
@[simp] theorem State.aer_rings (s : State) (c : Nat) : (s.aer c).rings = s.rings := by
  unfold State.aer; split
  · rfl
  · generalize s.upPorts = l
    induction l generalizing s with
    | nil => rfl
    | cons e l ih => exact ih _
@[simp] theorem State.aer_ops (s : State) (c : Nat) : (s.aer c).ops = s.ops := by
  unfold State.aer; split
  · rfl
  · generalize s.upPorts = l
    induction l generalizing s with
    | nil => rfl
    | cons e l ih => exact ih _
@[simp] theorem State.aer_opNext (s : State) (c : Nat) : (s.aer c).opNext = s.opNext := by
  unfold State.aer; split
  · rfl
  · generalize s.upPorts = l
    induction l generalizing s with
    | nil => rfl
    | cons e l ih => exact ih _
@[simp] theorem State.aer_cqWait (s : State) (c : Nat) : (s.aer c).cqWait = s.cqWait := by
  unfold State.aer; split
  · rfl
  · generalize s.upPorts = l
    induction l generalizing s with
    | nil => rfl
    | cons e l ih => exact ih _
@[simp] theorem State.aer_recent (s : State) (c : Nat) : (s.aer c).recent = s.recent := by
  unfold State.aer; split
  · rfl
  · generalize s.upPorts = l
    induction l generalizing s with
    | nil => rfl
    | cons e l ih => exact ih _
@[simp] theorem State.aer_clasps (s : State) (c : Nat) : (s.aer c).clasps = s.clasps := by
  unfold State.aer; split
  · rfl
  · generalize s.upPorts = l
    induction l generalizing s with
    | nil => rfl
    | cons e l ih => exact ih _
@[simp] theorem State.aer_errFail (s : State) (c : Nat) : (s.aer c).errFail = s.errFail := by
  unfold State.aer; split
  · rfl
  · generalize s.upPorts = l
    induction l generalizing s with
    | nil => rfl
    | cons e l ih => exact ih _
@[simp] theorem State.aer_errHold (s : State) (c : Nat) : (s.aer c).errHold = s.errHold := by
  unfold State.aer; split
  · rfl
  · generalize s.upPorts = l
    induction l generalizing s with
    | nil => rfl
    | cons e l ih => exact ih _
@[simp] theorem State.aer_msgs (s : State) (c : Nat) : (s.aer c).msgs = s.msgs := by
  unfold State.aer; split
  · rfl
  · generalize s.upPorts = l
    induction l generalizing s with
    | nil => rfl
    | cons e l ih => exact ih _
@[simp] theorem State.aer_msix (s : State) (c : Nat) : (s.aer c).msix = s.msix := by
  unfold State.aer; split
  · rfl
  · generalize s.upPorts = l
    induction l generalizing s with
    | nil => rfl
    | cons e l ih => exact ih _
@[simp] theorem State.aer_intx (s : State) (c : Nat) : (s.aer c).intx = s.intx := by
  unfold State.aer; split
  · rfl
  · generalize s.upPorts = l
    induction l generalizing s with
    | nil => rfl
    | cons e l ih => exact ih _
@[simp] theorem State.aer_links (s : State) (c : Nat) : (s.aer c).links = s.links := by
  unfold State.aer; split
  · rfl
  · generalize s.upPorts = l
    induction l generalizing s with
    | nil => rfl
    | cons e l ih => exact ih _
@[simp] theorem State.aer_fns (s : State) (c : Nat) : (s.aer c).fns = s.fns := by
  unfold State.aer; split
  · rfl
  · generalize s.upPorts = l
    induction l generalizing s with
    | nil => rfl
    | cons e l ih => exact ih _
@[simp] theorem State.aer_mem (s : State) (c : Nat) : (s.aer c).mem = s.mem := by
  unfold State.aer; split
  · rfl
  · generalize s.upPorts = l
    induction l generalizing s with
    | nil => rfl
    | cons e l ih => exact ih _
@[simp] theorem State.aer_gal (s : State) (c : Nat) : (s.aer c).gal = s.gal := by
  unfold State.aer; split
  · rfl
  · generalize s.upPorts = l
    induction l generalizing s with
    | nil => rfl
    | cons e l ih => exact ih _
@[simp] theorem State.aer_flights (s : State) (c : Nat) : (s.aer c).flights = s.flights := by
  unfold State.aer; split
  · rfl
  · generalize s.upPorts = l
    induction l generalizing s with
    | nil => rfl
    | cons e l ih => exact ih _
@[simp] theorem State.aer_flCtl (s : State) (c : Nat) : (s.aer c).flCtl = s.flCtl := by
  unfold State.aer; split
  · rfl
  · generalize s.upPorts = l
    induction l generalizing s with
    | nil => rfl
    | cons e l ih => exact ih _
@[simp] theorem State.aer_flCtlNext (s : State) (c : Nat) : (s.aer c).flCtlNext = s.flCtlNext := by
  unfold State.aer; split
  · rfl
  · generalize s.upPorts = l
    induction l generalizing s with
    | nil => rfl
    | cons e l ih => exact ih _
@[simp] theorem State.aer_fltWait (s : State) (c : Nat) : (s.aer c).fltWait = s.fltWait := by
  unfold State.aer; split
  · rfl
  · generalize s.upPorts = l
    induction l generalizing s with
    | nil => rfl
    | cons e l ih => exact ih _
@[simp] theorem State.aer_rte (s : State) (c : Nat) : (s.aer c).rte = s.rte := by
  unfold State.aer; split
  · rfl
  · generalize s.upPorts = l
    induction l generalizing s with
    | nil => rfl
    | cons e l ih => exact ih _
@[simp] theorem State.aer_plc (s : State) (c : Nat) : (s.aer c).plc = s.plc := by
  unfold State.aer; split
  · rfl
  · generalize s.upPorts = l
    induction l generalizing s with
    | nil => rfl
    | cons e l ih => exact ih _
@[simp] theorem State.aer_pp (s : State) (c : Nat) : (s.aer c).pp = s.pp := by
  unfold State.aer; split
  · rfl
  · generalize s.upPorts = l
    induction l generalizing s with
    | nil => rfl
    | cons e l ih => exact ih _
@[simp] theorem State.aer_nvs (s : State) (c : Nat) : (s.aer c).nvs = s.nvs := by
  unfold State.aer; split
  · rfl
  · generalize s.upPorts = l
    induction l generalizing s with
    | nil => rfl
    | cons e l ih => exact ih _
@[simp] theorem State.aer_cip (s : State) (c : Nat) : (s.aer c).cip = s.cip := by
  unfold State.aer; split
  · rfl
  · generalize s.upPorts = l
    induction l generalizing s with
    | nil => rfl
    | cons e l ih => exact ih _
@[simp] theorem State.aer_stw (s : State) (c : Nat) : (s.aer c).stw = s.stw := by
  unfold State.aer; split
  · rfl
  · generalize s.upPorts = l
    induction l generalizing s with
    | nil => rfl
    | cons e l ih => exact ih _
@[simp] theorem State.aer_sig (s : State) (c : Nat) : (s.aer c).sig = s.sig := by
  unfold State.aer; split
  · rfl
  · generalize s.upPorts = l
    induction l generalizing s with
    | nil => rfl
    | cons e l ih => exact ih _
@[simp] theorem State.aer_mio (s : State) (c : Nat) : (s.aer c).mio = s.mio := by
  unfold State.aer; split
  · rfl
  · generalize s.upPorts = l
    induction l generalizing s with
    | nil => rfl
    | cons e l ih => exact ih _
@[simp] theorem State.aer_held (s : State) (c : Nat) : (s.aer c).held = s.held := by
  unfold State.aer; split
  · rfl
  · generalize s.upPorts = l
    induction l generalizing s with
    | nil => rfl
    | cons e l ih => exact ih _
@[simp] theorem State.aer_mgmt (s : State) (c : Nat) : (s.aer c).mgmt = s.mgmt := by
  unfold State.aer; split
  · rfl
  · generalize s.upPorts = l
    induction l generalizing s with
    | nil => rfl
    | cons e l ih => exact ih _
@[simp] theorem State.aer_pending (s : State) (c : Nat) : (s.aer c).pending = s.pending := by
  unfold State.aer; split
  · rfl
  · generalize s.upPorts = l
    induction l generalizing s with
    | nil => rfl
    | cons e l ih => exact ih _

@[simp] theorem State.report_pend (s : State) (c b i st l : Nat) : (s.report c b i st l).pend = s.pend := by
  unfold State.report; simp only []; split <;> simp
@[simp] theorem State.report_latches (s : State) (c b i st l : Nat) : (s.report c b i st l).latches = s.latches := by
  unfold State.report; simp only []; split <;> simp
@[simp] theorem State.report_sealOk (s : State) (c b i st l : Nat) : (s.report c b i st l).sealOk = s.sealOk := by
  unfold State.report; simp only []; split <;> simp
@[simp] theorem State.report_sealBad (s : State) (c b i st l : Nat) : (s.report c b i st l).sealBad = s.sealBad := by
  unfold State.report; simp only []; split <;> simp
@[simp] theorem State.report_draws (s : State) (c b i st l : Nat) : (s.report c b i st l).draws = s.draws := by
  unfold State.report; simp only []; split <;> simp
@[simp] theorem State.report_dev (s : State) (c b i st l : Nat) : (s.report c b i st l).dev = s.dev := by
  unfold State.report; simp only []; split <;> simp
@[simp] theorem State.report_pwr (s : State) (c b i st l : Nat) : (s.report c b i st l).pwr = s.pwr := by
  unfold State.report; simp only []; split <;> simp
@[simp] theorem State.report_str (s : State) (c b i st l : Nat) : (s.report c b i st l).str = s.str := by
  unfold State.report; simp only []; split <;> simp
@[simp] theorem State.report_time (s : State) (c b i st l : Nat) : (s.report c b i st l).time = s.time := by
  unfold State.report; simp only []; split <;> simp
@[simp] theorem State.report_since (s : State) (c b i st l : Nat) : (s.report c b i st l).since = s.since := by
  unfold State.report; simp only []; split <;> simp
@[simp] theorem State.report_leaseMs (s : State) (c b i st l : Nat) : (s.report c b i st l).leaseMs = s.leaseMs := by
  unfold State.report; simp only []; split <;> simp
@[simp] theorem State.report_slcCmd (s : State) (c b i st l : Nat) : (s.report c b i st l).slcCmd = s.slcCmd := by
  unfold State.report; simp only []; split <;> simp
@[simp] theorem State.report_slices (s : State) (c b i st l : Nat) : (s.report c b i st l).slices = s.slices := by
  unfold State.report; simp only []; split <;> simp
@[simp] theorem State.report_nonceBase (s : State) (c b i st l : Nat) : (s.report c b i st l).nonceBase = s.nonceBase := by
  unfold State.report; simp only []; split <;> simp
@[simp] theorem State.report_rings (s : State) (c b i st l : Nat) : (s.report c b i st l).rings = s.rings := by
  unfold State.report; simp only []; split <;> simp
@[simp] theorem State.report_ops (s : State) (c b i st l : Nat) : (s.report c b i st l).ops = s.ops := by
  unfold State.report; simp only []; split <;> simp
@[simp] theorem State.report_opNext (s : State) (c b i st l : Nat) : (s.report c b i st l).opNext = s.opNext := by
  unfold State.report; simp only []; split <;> simp
@[simp] theorem State.report_cqWait (s : State) (c b i st l : Nat) : (s.report c b i st l).cqWait = s.cqWait := by
  unfold State.report; simp only []; split <;> simp
@[simp] theorem State.report_recent (s : State) (c b i st l : Nat) : (s.report c b i st l).recent = s.recent := by
  unfold State.report; simp only []; split <;> simp
@[simp] theorem State.report_clasps (s : State) (c b i st l : Nat) : (s.report c b i st l).clasps = s.clasps := by
  unfold State.report; simp only []; split <;> simp
@[simp] theorem State.report_msgs (s : State) (c b i st l : Nat) : (s.report c b i st l).msgs = s.msgs := by
  unfold State.report; simp only []; split <;> simp
@[simp] theorem State.report_links (s : State) (c b i st l : Nat) : (s.report c b i st l).links = s.links := by
  unfold State.report; simp only []; split <;> simp
@[simp] theorem State.report_fns (s : State) (c b i st l : Nat) : (s.report c b i st l).fns = s.fns := by
  unfold State.report; simp only []; split <;> simp
@[simp] theorem State.report_gal (s : State) (c b i st l : Nat) : (s.report c b i st l).gal = s.gal := by
  unfold State.report; simp only []; split <;> simp
@[simp] theorem State.report_flights (s : State) (c b i st l : Nat) : (s.report c b i st l).flights = s.flights := by
  unfold State.report; simp only []; split <;> simp
@[simp] theorem State.report_flCtl (s : State) (c b i st l : Nat) : (s.report c b i st l).flCtl = s.flCtl := by
  unfold State.report; simp only []; split <;> simp
@[simp] theorem State.report_flCtlNext (s : State) (c b i st l : Nat) : (s.report c b i st l).flCtlNext = s.flCtlNext := by
  unfold State.report; simp only []; split <;> simp
@[simp] theorem State.report_fltWait (s : State) (c b i st l : Nat) : (s.report c b i st l).fltWait = s.fltWait := by
  unfold State.report; simp only []; split <;> simp
@[simp] theorem State.report_rte (s : State) (c b i st l : Nat) : (s.report c b i st l).rte = s.rte := by
  unfold State.report; simp only []; split <;> simp
@[simp] theorem State.report_plc (s : State) (c b i st l : Nat) : (s.report c b i st l).plc = s.plc := by
  unfold State.report; simp only []; split <;> simp
@[simp] theorem State.report_pp (s : State) (c b i st l : Nat) : (s.report c b i st l).pp = s.pp := by
  unfold State.report; simp only []; split <;> simp
@[simp] theorem State.report_nvs (s : State) (c b i st l : Nat) : (s.report c b i st l).nvs = s.nvs := by
  unfold State.report; simp only []; split <;> simp
@[simp] theorem State.report_cip (s : State) (c b i st l : Nat) : (s.report c b i st l).cip = s.cip := by
  unfold State.report; simp only []; split <;> simp
@[simp] theorem State.report_sig (s : State) (c b i st l : Nat) : (s.report c b i st l).sig = s.sig := by
  unfold State.report; simp only []; split <;> simp
@[simp] theorem State.report_mio (s : State) (c b i st l : Nat) : (s.report c b i st l).mio = s.mio := by
  unfold State.report; simp only []; split <;> simp
@[simp] theorem State.report_held (s : State) (c b i st l : Nat) : (s.report c b i st l).held = s.held := by
  unfold State.report; simp only []; split <;> simp
@[simp] theorem State.report_mgmt (s : State) (c b i st l : Nat) : (s.report c b i st l).mgmt = s.mgmt := by
  unfold State.report; simp only []; split <;> simp
@[simp] theorem State.report_pending (s : State) (c b i st l : Nat) : (s.report c b i st l).pending = s.pending := by
  unfold State.report; simp only []; split <;> simp

@[simp] theorem State.setDev_pend (s : State) (d : Dev) : (s.setDev d).pend = s.pend := by
  unfold State.setDev; simp only []; split <;> rfl
@[simp] theorem State.setDev_latches (s : State) (d : Dev) : (s.setDev d).latches = s.latches := by
  unfold State.setDev; simp only []; split <;> rfl
@[simp] theorem State.setDev_sealOk (s : State) (d : Dev) : (s.setDev d).sealOk = s.sealOk := by
  unfold State.setDev; simp only []; split <;> rfl
@[simp] theorem State.setDev_sealBad (s : State) (d : Dev) : (s.setDev d).sealBad = s.sealBad := by
  unfold State.setDev; simp only []; split <;> rfl
@[simp] theorem State.setDev_draws (s : State) (d : Dev) : (s.setDev d).draws = s.draws := by
  unfold State.setDev; simp only []; split <;> rfl
@[simp] theorem State.setDev_pwr (s : State) (d : Dev) : (s.setDev d).pwr = s.pwr := by
  unfold State.setDev; simp only []; split <;> rfl
@[simp] theorem State.setDev_str (s : State) (d : Dev) : (s.setDev d).str = s.str := by
  unfold State.setDev; simp only []; split <;> rfl
@[simp] theorem State.setDev_time (s : State) (d : Dev) : (s.setDev d).time = s.time := by
  unfold State.setDev; simp only []; split <;> rfl
@[simp] theorem State.setDev_since (s : State) (d : Dev) : (s.setDev d).since = s.since := by
  unfold State.setDev; simp only []; split <;> rfl
@[simp] theorem State.setDev_leaseMs (s : State) (d : Dev) : (s.setDev d).leaseMs = s.leaseMs := by
  unfold State.setDev; simp only []; split <;> rfl
@[simp] theorem State.setDev_slcCmd (s : State) (d : Dev) : (s.setDev d).slcCmd = s.slcCmd := by
  unfold State.setDev; simp only []; split <;> rfl
@[simp] theorem State.setDev_slices (s : State) (d : Dev) : (s.setDev d).slices = s.slices := by
  unfold State.setDev; simp only []; split <;> rfl
@[simp] theorem State.setDev_nonceBase (s : State) (d : Dev) : (s.setDev d).nonceBase = s.nonceBase := by
  unfold State.setDev; simp only []; split <;> rfl
@[simp] theorem State.setDev_rings (s : State) (d : Dev) : (s.setDev d).rings = s.rings := by
  unfold State.setDev; simp only []; split <;> rfl
@[simp] theorem State.setDev_ops (s : State) (d : Dev) : (s.setDev d).ops = s.ops := by
  unfold State.setDev; simp only []; split <;> rfl
@[simp] theorem State.setDev_opNext (s : State) (d : Dev) : (s.setDev d).opNext = s.opNext := by
  unfold State.setDev; simp only []; split <;> rfl
@[simp] theorem State.setDev_cqWait (s : State) (d : Dev) : (s.setDev d).cqWait = s.cqWait := by
  unfold State.setDev; simp only []; split <;> rfl
@[simp] theorem State.setDev_recent (s : State) (d : Dev) : (s.setDev d).recent = s.recent := by
  unfold State.setDev; simp only []; split <;> rfl
@[simp] theorem State.setDev_clasps (s : State) (d : Dev) : (s.setDev d).clasps = s.clasps := by
  unfold State.setDev; simp only []; split <;> rfl
@[simp] theorem State.setDev_errFail (s : State) (d : Dev) : (s.setDev d).errFail = s.errFail := by
  unfold State.setDev; simp only []; split <;> rfl
@[simp] theorem State.setDev_errHold (s : State) (d : Dev) : (s.setDev d).errHold = s.errHold := by
  unfold State.setDev; simp only []; split <;> rfl
@[simp] theorem State.setDev_msgs (s : State) (d : Dev) : (s.setDev d).msgs = s.msgs := by
  unfold State.setDev; simp only []; split <;> rfl
@[simp] theorem State.setDev_msix (s : State) (d : Dev) : (s.setDev d).msix = s.msix := by
  unfold State.setDev; simp only []; split <;> rfl
@[simp] theorem State.setDev_intx (s : State) (d : Dev) : (s.setDev d).intx = s.intx := by
  unfold State.setDev; simp only []; split <;> rfl
@[simp] theorem State.setDev_links (s : State) (d : Dev) : (s.setDev d).links = s.links := by
  unfold State.setDev; simp only []; split <;> rfl
@[simp] theorem State.setDev_fns (s : State) (d : Dev) : (s.setDev d).fns = s.fns := by
  unfold State.setDev; simp only []; split <;> rfl
@[simp] theorem State.setDev_mem (s : State) (d : Dev) : (s.setDev d).mem = s.mem := by
  unfold State.setDev; simp only []; split <;> rfl
@[simp] theorem State.setDev_gal (s : State) (d : Dev) : (s.setDev d).gal = s.gal := by
  unfold State.setDev; simp only []; split <;> rfl
@[simp] theorem State.setDev_flights (s : State) (d : Dev) : (s.setDev d).flights = s.flights := by
  unfold State.setDev; simp only []; split <;> rfl
@[simp] theorem State.setDev_flCtl (s : State) (d : Dev) : (s.setDev d).flCtl = s.flCtl := by
  unfold State.setDev; simp only []; split <;> rfl
@[simp] theorem State.setDev_flCtlNext (s : State) (d : Dev) : (s.setDev d).flCtlNext = s.flCtlNext := by
  unfold State.setDev; simp only []; split <;> rfl
@[simp] theorem State.setDev_fltWait (s : State) (d : Dev) : (s.setDev d).fltWait = s.fltWait := by
  unfold State.setDev; simp only []; split <;> rfl
@[simp] theorem State.setDev_rte (s : State) (d : Dev) : (s.setDev d).rte = s.rte := by
  unfold State.setDev; simp only []; split <;> rfl
@[simp] theorem State.setDev_plc (s : State) (d : Dev) : (s.setDev d).plc = s.plc := by
  unfold State.setDev; simp only []; split <;> rfl
@[simp] theorem State.setDev_pp (s : State) (d : Dev) : (s.setDev d).pp = s.pp := by
  unfold State.setDev; simp only []; split <;> rfl
@[simp] theorem State.setDev_nvs (s : State) (d : Dev) : (s.setDev d).nvs = s.nvs := by
  unfold State.setDev; simp only []; split <;> rfl
@[simp] theorem State.setDev_cip (s : State) (d : Dev) : (s.setDev d).cip = s.cip := by
  unfold State.setDev; simp only []; split <;> rfl
@[simp] theorem State.setDev_stw (s : State) (d : Dev) : (s.setDev d).stw = s.stw := by
  unfold State.setDev; simp only []; split <;> rfl
@[simp] theorem State.setDev_sig (s : State) (d : Dev) : (s.setDev d).sig = s.sig := by
  unfold State.setDev; simp only []; split <;> rfl
@[simp] theorem State.setDev_mio (s : State) (d : Dev) : (s.setDev d).mio = s.mio := by
  unfold State.setDev; simp only []; split <;> rfl
@[simp] theorem State.setDev_outbox (s : State) (d : Dev) : (s.setDev d).outbox = s.outbox := by
  unfold State.setDev; simp only []; split <;> rfl
@[simp] theorem State.setDev_held (s : State) (d : Dev) : (s.setDev d).held = s.held := by
  unfold State.setDev; simp only []; split <;> rfl
@[simp] theorem State.setDev_mgmt (s : State) (d : Dev) : (s.setDev d).mgmt = s.mgmt := by
  unfold State.setDev; simp only []; split <;> rfl
@[simp] theorem State.setDev_pending (s : State) (d : Dev) : (s.setDev d).pending = s.pending := by
  unfold State.setDev; simp only []; split <;> rfl

@[simp] theorem State.setDev_dev (s : State) (d : Dev) : (s.setDev d).dev = d := by
  unfold State.setDev; simp only []; split <;> rfl

/-- Registers outside the block that writes them read as before: the error aggregator's lie at 0x70000 (Table 11-1). -/
theorem reg_of_regs (s t : State) (a : Nat) (h : t.regs = s.regs) : t.reg a = s.reg a := by simp [State.reg, h]

theorem getF_of_regs (s t : State) (f : Fld) (h : t.regs = s.regs) : t.getF f = s.getF f := by simp [State.getF, reg_of_regs s t f.reg h]

theorem errLost_reg (s : State) (a : Nat) (h : a / 65536 ≠ 7) : s.errLost.reg a = s.reg a := by
  have e1 : R.ERR_STATUS ≠ a := fun e => h (by rw [← e]; rfl)
  have e2 : R.ERR_CNT_LOST ≠ a := fun e => h (by rw [← e]; rfl)
  show (State.eventV _ _ _).reg a = _
  rw [reg_eventV_ne _ _ _ _ e1, reg_bump_ne _ _ _ e2]

theorem errPut_reg (s : State) (e : ErrRec) (a : Nat) (h : a / 65536 ≠ 7) : (s.errPut e).reg a = s.reg a := by
  have e1 : R.ERR_RING_PROD ≠ a := fun e => h (by rw [← e]; rfl)
  unfold State.errPut; dsimp only
  split
  · rfl
  · split
    · exact errLost_reg s a h
    · split
      · exact errLost_reg _ a h
      · rw [reg_of_regs _ _ a (State.pf0Event_regs _ _ _), reg_setReg_ne _ _ _ _ e1]; rfl

theorem errRecord_reg (s : State) (c b i k st l : Nat) (j : Bool) (a : Nat) (h : a / 65536 ≠ 7) :
    (s.errRecord c b i k st l j).reg a = s.reg a := by
  unfold State.errRecord; dsimp only
  split
  · rfl
  · exact errPut_reg s _ a h

theorem aer_reg (s : State) (c a : Nat) : (s.aer c).reg a = s.reg a := reg_of_regs _ _ _ (State.aer_regs s c)

/-- An error report changes no register outside ERR (R380). -/
theorem report_reg (s : State) (c b i st l a : Nat) (h : a / 65536 ≠ 7) : (s.report c b i st l).reg a = s.reg a := by
  have e1 : (classF (codeClass c)).reg ≠ a := fun e => h (by
    rw [← e]; unfold classF; split <;> rfl)
  have e2 : ∀ k, k < 4 → (F.ERR_CNT_COUNT k).reg ≠ a := by
    intro k hk e; apply h; rw [← e]
    have : k = 0 ∨ k = 1 ∨ k = 2 ∨ k = 3 := by omega
    rcases this with rfl | rfl | rfl | rfl <;> rfl
  have hk : codeClass c < 4 := Nat.mod_lt _ (by decide)
  unfold State.report
  simp only [aer_reg, errRecord_reg _ _ _ _ _ _ _ _ a h]
  show (State.eventV _ _ _).reg a = _
  rw [reg_eventV_ne _ _ _ _ e1, reg_bump_ne _ _ _ (e2 _ hk)]
  split <;> rfl

theorem report_getF (s : State) (c b i st l : Nat) (f : Fld) (h : f.reg / 65536 ≠ 7) : (s.report c b i st l).getF f = s.getF f := by
  simp [State.getF, report_reg _ _ _ _ _ _ _ h]

theorem setDev_reg (s : State) (d : Dev) (a : Nat) (h : a ≠ R.DEV_STATE) : (s.setDev d).reg a = s.reg a := by
  unfold State.setDev; dsimp only; split
  · show (State.eventV _ _ _).reg a = _
    rw [reg_eventV_ne _ _ _ _ (by simpa [F.DEV_STATE_CHANGED] using Ne.symm h)]; rfl
  · rfl

end Sys2Proof.Machine
end

