-- ==== Sys2Proof/Laws/Mem.lean ====
section
/-! SUPPORT. Byte memory: what a read answers after a write, and that every memory operation keeps the canonical form. -/

namespace Sys2Proof.Machine

/-! ### One byte -/

theorem Mem.get_filter_ne (m : Mem) (a i : Nat) : Mem.get (m.filter fun c => c.1 != a) i = if i = a then Mem.blank else m.get i := by
  induction m with
  | nil => simp [Mem.get]
  | cons c t ih =>
    obtain ⟨k, v⟩ := c
    by_cases hk : k = a
    · subst hk
      by_cases hi : i = k
      · simp_all
      · simp [Mem.get, ih, hi, Ne.symm hi]
    · simp only [List.filter_cons, bne_iff_ne, ne_eq, hk, not_false_eq_true, ite_true, Mem.get, ih]
      by_cases hi : i = a
      · subst hi; simp [hk]
      · simp [hi]

theorem Mem.get_insert (m : Mem) (a i : Nat) (b : Byte) : Mem.get (Mem.insert m a b) i = if i = a then b else m.get i := by
  induction m with
  | nil =>
    by_cases h : i = a
    · simp [Mem.insert, Mem.get, h]
    · simp [Mem.insert, Mem.get, h, Ne.symm h]
  | cons c t ih =>
    obtain ⟨k, v⟩ := c
    simp only [Mem.insert]
    split
    · rename_i h; subst h
      by_cases hi : i = k
      · simp [Mem.get, hi]
      · simp [Mem.get, hi, Ne.symm hi]
    · rename_i h
      split
      · by_cases hi : i = a
        · simp [Mem.get, hi]
        · simp [Mem.get, hi, Ne.symm hi]
      · simp only [Mem.get, ih]
        by_cases hi : i = a
        · subst hi; simp [h]
        · simp [hi]

/-- A byte read after a write of one byte. -/
theorem Mem.get_set (m : Mem) (a i : Nat) (b : Byte) : (m.set a b).get i = if i = a then b else m.get i := by
  unfold Mem.set
  split
  · rename_i h; rw [Mem.get_filter_ne, h]
  · exact Mem.get_insert m a i b

@[simp] theorem Mem.get_set_same (m : Mem) (a : Nat) (b : Byte) : (m.set a b).get a = b := by simp [Mem.get_set]

theorem Mem.get_set_ne (m : Mem) (a i : Nat) (b : Byte) (h : i ≠ a) : (m.set a b).get i = m.get i := by simp [Mem.get_set, h]

/-! ### Byte strings -/

/-- A write leaves every byte outside it alone. -/
theorem Mem.get_write_out (m : Mem) (a i : Nat) (bs : List Byte) (h : i < a ∨ a + bs.length ≤ i) : (m.write a bs).get i = m.get i := by
  induction bs generalizing m a with
  | nil => rfl
  | cons b t ih =>
    simp only [List.length_cons] at h
    rw [Mem.write, ih _ _ (by omega), Mem.get_set_ne _ _ _ _ (by omega)]

/-- A byte inside a write reads as written. -/
theorem Mem.get_write_in (m : Mem) (a j : Nat) (bs : List Byte) (h : j < bs.length) : (m.write a bs).get (a + j) = bs[j] := by
  induction bs generalizing m a j with
  | nil => simp at h
  | cons b t ih =>
    cases j with
    | zero => rw [Mem.write, Mem.get_write_out _ _ _ _ (by omega)]; simp
    | succ j =>
      have := ih (m.set a b) (a + 1) j (by simpa using h)
      rw [Mem.write]
      simpa [Nat.add_assoc, Nat.add_comm 1 j] using this

@[simp] theorem Mem.read_length (m : Mem) (a n : Nat) : (m.read a n).length = n := by
  induction n generalizing a with
  | zero => rfl
  | succ n ih => simp [Mem.read, ih]

theorem Mem.read_get (m : Mem) (a n j : Nat) (h : j < (m.read a n).length) : (m.read a n)[j] = m.get (a + j) := by
  induction n generalizing a j with
  | zero => simp at h
  | succ n ih =>
    cases j with
    | zero => simp [Mem.read]
    | succ j =>
      have := ih (a + 1) j (by simpa using h)
      simpa [Mem.read, Nat.add_assoc, Nat.add_comm 1 j] using this

/-- A read of what was written gives it back. -/
theorem Mem.read_write (m : Mem) (a : Nat) (bs : List Byte) : (m.write a bs).read a bs.length = bs := by
  apply List.ext_getElem (by simp)
  intro j h1 h2
  rw [Mem.read_get, Mem.get_write_in]

/-! ### The canonical form -/

theorem Mem.wf_cons (c : Host.Cell) (t : Mem) :
    Mem.wf (c :: t) = true ↔ c.2 ≠ Mem.blank ∧ (∀ d ∈ t, c.1 < d.1) ∧ Mem.wf t = true := by
  obtain ⟨a, b⟩ := c
  simp [Mem.wf, List.all_eq_true, and_assoc]

theorem Mem.wf_filter (m : Mem) (p : Host.Cell → Bool) (h : Mem.wf m = true) : Mem.wf (m.filter p) = true := by
  induction m with
  | nil => rfl
  | cons c t ih =>
    obtain ⟨h1, h2, h3⟩ := (Mem.wf_cons c t).1 h
    rw [List.filter_cons]
    split
    · exact (Mem.wf_cons _ _).2 ⟨h1, fun d hd => h2 d (List.mem_of_mem_filter hd), ih h3⟩
    · exact ih h3

theorem Mem.mem_insert (m : Mem) (a : Nat) (b : Byte) (d : Host.Cell) (h : d ∈ Mem.insert m a b) : d = (a, b) ∨ d ∈ m := by
  induction m with
  | nil => simp [Mem.insert] at h; exact Or.inl h
  | cons c t ih =>
    obtain ⟨k, v⟩ := c
    simp only [Mem.insert] at h
    split at h
    · rcases List.mem_cons.1 h with rfl | h
      · exact Or.inl rfl
      · exact Or.inr (List.mem_cons_of_mem _ h)
    · split at h
      · rcases List.mem_cons.1 h with rfl | h
        · exact Or.inl rfl
        · exact Or.inr h
      · rcases List.mem_cons.1 h with rfl | h
        · exact Or.inr List.mem_cons_self
        · rcases ih h with h | h
          · exact Or.inl h
          · exact Or.inr (List.mem_cons_of_mem _ h)

theorem Mem.wf_insert (m : Mem) (a : Nat) (b : Byte) (hb : b ≠ Mem.blank) (h : Mem.wf m = true) : Mem.wf (Mem.insert m a b) = true := by
  induction m with
  | nil => simp [Mem.insert, Mem.wf, hb]
  | cons c t ih =>
    obtain ⟨k, v⟩ := c
    obtain ⟨h1, h2, h3⟩ := (Mem.wf_cons (k, v) t).1 h
    simp only [Mem.insert]
    split
    · rename_i hk; subst hk; exact (Mem.wf_cons _ _).2 ⟨hb, h2, h3⟩
    · split
      · rename_i hlt
        refine (Mem.wf_cons _ _).2 ⟨hb, ?_, h⟩
        intro d hd
        rcases List.mem_cons.1 hd with rfl | hd
        · exact hlt
        · exact Nat.lt_trans hlt (h2 d hd)
      · rename_i hne hlt
        refine (Mem.wf_cons _ _).2 ⟨h1, ?_, ih h3⟩
        intro d hd
        rcases Mem.mem_insert t a b d hd with rfl | hd
        · show k < a; omega
        · exact h2 d hd

theorem Mem.wf_set (m : Mem) (a : Nat) (b : Byte) (h : Mem.wf m = true) : Mem.wf (m.set a b) = true := by
  unfold Mem.set
  split
  · exact Mem.wf_filter m _ h
  · exact Mem.wf_insert m a b ‹_› h

theorem Mem.wf_write (m : Mem) (a : Nat) (bs : List Byte) (h : Mem.wf m = true) : Mem.wf (m.write a bs) = true := by
  induction bs generalizing m a with
  | nil => exact h
  | cons b t ih => exact ih _ _ (Mem.wf_set m a b h)

theorem Mem.wf_clear (m : Mem) (a n : Nat) (h : Mem.wf m = true) : Mem.wf (m.clear a n) = true := Mem.wf_filter m _ h

/-- Writes of single bytes, in the order of a list, keep the canonical form. -/
theorem Mem.wf_fold_set {α : Type} (f : α → Nat) (g : α → Byte) (l : List α) (m : Mem) (h : Mem.wf m = true) :
    Mem.wf (l.foldl (fun (m : Mem) c => m.set (f c) (g c)) m) = true := by
  induction l generalizing m with
  | nil => exact h
  | cons c t ih => exact ih _ (Mem.wf_set m _ _ h)

theorem Mem.wf_copy (m : Mem) (a b n : Nat) (h : Mem.wf m = true) : Mem.wf (m.copy a b n) = true :=
  Mem.wf_fold_set _ _ _ _ (Mem.wf_clear m b n h)

theorem Mem.wf_carry (m : Mem) (a b n : Nat) (h : Mem.wf m = true) : Mem.wf (m.carry a b n) = true := by
  unfold Mem.carry; split
  · exact h
  · exact Mem.wf_copy m a b n h

theorem Mem.get_below (m : Mem) (a : Nat) (h : ∀ d ∈ m, a < d.1) : m.get a = Mem.blank := by
  induction m with
  | nil => rfl
  | cons c t ih =>
    obtain ⟨k, v⟩ := c
    have := h (k, v) List.mem_cons_self
    simp only [Mem.get]
    rw [if_neg (by simp at this; omega)]
    exact ih fun d hd => h d (List.mem_cons_of_mem _ hd)

/-- Canonical memories that read the same are equal. -/
theorem Mem.ext_get (m n : Mem) (hm : Mem.wf m = true) (hn : Mem.wf n = true) (h : ∀ a, m.get a = n.get a) : m = n := by
  induction m generalizing n with
  | nil =>
    cases n with
    | nil => rfl
    | cons d t =>
      have := h d.1
      simp [Mem.get] at this
      exact absurd this.symm ((Mem.wf_cons d t).1 hn).1
  | cons c s ih =>
    obtain ⟨h1, h2, h3⟩ := (Mem.wf_cons c s).1 hm
    cases n with
    | nil =>
      have := h c.1
      simp [Mem.get] at this
      exact absurd this h1
    | cons d t =>
      obtain ⟨g1, g2, g3⟩ := (Mem.wf_cons d t).1 hn
      have hc : c.1 = d.1 := by
        rcases Nat.lt_trichotomy c.1 d.1 with hlt | heq | hgt
        · have e := h c.1
          rw [Mem.get_below (d :: t) c.1 (by
            intro x hx; rcases List.mem_cons.1 hx with rfl | hx
            · exact hlt
            · exact Nat.lt_trans hlt (g2 x hx))] at e
          simp [Mem.get] at e
          exact absurd e h1
        · exact heq
        · have e := h d.1
          rw [Mem.get_below (c :: s) d.1 (by
            intro x hx; rcases List.mem_cons.1 hx with rfl | hx
            · exact hgt
            · exact Nat.lt_trans hgt (h2 x hx))] at e
          simp [Mem.get] at e
          exact absurd e.symm g1
      have hv : c.2 = d.2 := by
        have e := h c.1
        simp only [Mem.get, if_true] at e
        rw [if_pos hc.symm] at e
        exact e
      have hcd : c = d := Prod.ext hc hv
      subst hcd
      congr 1
      refine ih t h3 g3 fun a => ?_
      by_cases ha : a = c.1
      · subst ha; rw [Mem.get_below s _ h2, Mem.get_below t _ g2]
      · have e := h a
        simp only [Mem.get, if_neg (Ne.symm ha)] at e
        exact e

end Sys2Proof.Machine
end

