-- ==== Sys2Proof/Laws/Ops.lean ====
section
/-! SUPPORT. What the shared operations over registers can do: a write that reaches its command, a write that is held or refused, and a
violation (R262, R264, R267). -/

namespace Sys2Proof.Machine

/-- Everything that a write to a privileged command register can do: nothing, wait for a paused hall, count a violation, or act (R262, R264,
R267). -/
theorem guardWrite_cases (s : State) (m : Master) (a : Nat) (c : Instr) (act : State → State) :
    s.guardWrite m a c act = s ∨ s.guardWrite m a c act = s.wakeMaster m ∨
    s.guardWrite m a c act = { s.wakeMaster m with held := (s.wakeMaster m).held ++ [c] } ∨
    s.guardWrite m a c act = act (s.wakeMaster m) ∨ s.guardWrite m a c act = (s.wakeMaster m).violate m .privRW a := by
  unfold State.guardWrite
  split
  · exact .inl rfl
  · cases blockOf a with
    | none => exact .inr (.inl rfl)
    | some b =>
      simp only
      split
      · exact .inr (.inl rfl)
      · split
        · exact .inr (.inr (.inl rfl))
        · split
          · exact .inr (.inr (.inr (.inl rfl)))
          · exact .inr (.inr (.inr (.inr rfl)))

/-- A taken write of a privileged master runs the command. -/
theorem guardWrite_taken (s w : State) (m : Master) (a : Nat) (c : Instr) (act : State → State) (h : s.writeAt m a = some w)
    (hp : w.privileged m = true) : s.guardWrite m a c act = act w := by
  unfold State.writeAt at h
  unfold State.guardWrite
  split at h
  · cases h
  · rename_i h0
    rw [if_neg h0]
    cases hb : blockOf a with
    | none => simp [hb] at h
    | some b =>
      simp only [hb] at h ⊢
      split at h
      · rename_i h1; cases h; simp at h1; simp [h1, hp]
      · cases h

/-- A taken write of an unprivileged master is a violation (R264). -/
theorem guardWrite_refused (s w : State) (m : Master) (a : Nat) (c : Instr) (act : State → State) (h : s.writeAt m a = some w)
    (hp : w.privileged m = false) : s.guardWrite m a c act = w.violate m .privRW a := by
  unfold State.writeAt at h
  unfold State.guardWrite
  split at h
  · cases h
  · rename_i h0
    rw [if_neg h0]
    cases hb : blockOf a with
    | none => simp [hb] at h
    | some b =>
      simp only [hb] at h ⊢
      split at h
      · rename_i h1; cases h; simp at h1; simp [h1, hp]
      · cases h

/-- A taken write to a command register without a privileged field runs the command. -/
theorem openWrite_taken (s w : State) (m : Master) (a : Nat) (c : Instr) (act : State → State) (h : s.writeAt m a = some w) :
    s.openWrite m a c act = act w := by
  unfold State.writeAt at h
  unfold State.openWrite
  split at h
  · cases h
  · rename_i h0
    rw [if_neg h0]
    cases hb : blockOf a with
    | none => simp [hb] at h
    | some b =>
      simp only [hb] at h ⊢
      split at h
      · rename_i h1; cases h; simp at h1; simp [h1]
      · cases h

/-- A violation adds 1 to its counter (R264). -/
theorem violate_counter (s : State) (m : Master) (k : Viol) (o : Nat) : (s.violate m k o).getF k.counter = (s.getF k.counter + 1) % 2 ^ 32 := by
  cases k <;> simp [State.violate, Viol.counter, F.DEV_CNT_PRIV, F.DEV_CNT_PARTIAL, F.DEV_CNT_UNMAPPED, R.DEV_VIOL_LAST, R.DEV_CNT_PRIV,
    R.DEV_CNT_PARTIAL, R.DEV_CNT_UNMAPPED, getF_setReg_ne, getF_bump_same, Fld.ok]

/-- A violation shows its master, kind and offset (R264). -/
theorem violate_last (s : State) (m : Master) (k : Viol) (o : Nat) :
    (s.violate m k o).reg R.DEV_VIOL_LAST = (m.code * 2 ^ 29 + k.code * 2 ^ 26 + o % 2 ^ 26) % 2 ^ 32 := by
  simp [State.violate, reg_setReg_same]

/-- What PF0's access wakes is its link's power state and nothing else (R291). -/
theorem wakeMaster_reg (s : State) (m : Master) (a : Nat) (h : ∀ p < 4, a ≠ R.HST_LINK p) : (s.wakeMaster m).reg a = s.reg a := by
  cases m with
  | pf0 p =>
    simp only [State.wakeMaster, State.wakeLink, linkLpmF, if_true]
    split
    · rw [reg_setF_ne]; simpa [F.HST_LINK_H0_LPM] using Ne.symm (h p p.isLt)
    · rfl
  | _ => rfl

end Sys2Proof.Machine
end

