-- ==== Sys2Proof/Machine/CfgSpace.lean ====
section
/-! DEFINITION. What a host finds in configuration space: the header and the capabilities of each function, their settings and its BARs (R276 to R279),
and when a request to it is answered (R295, R296, R299). -/

namespace Sys2Proof.Machine

/-- Configuration header fields that Table 12-2 states: offset, bytes, value. The fields' places are those of the PCI header (PRESUMED, log entry 140). -/
def Func.header (f : Func) : List (Nat × Nat × Nat) :=
  let pf0 : Bool := match f with | .pf0 _ => true | .pf1 _ _ => false
  [(0x00, 2, 0x1D9C), (0x02, 2, if pf0 then 0x9600 else 0x9601), (0x08, 1, 0xA0), (0x09, 3, 0x120000), (0x0E, 1, if f.half = 0 then 0x80 else 0x00),
    (0x2C, 2, 0x1D9C), (0x2E, 2, 0x0001), (0x3D, 1, if pf0 then 1 else 0)]

/-- Capabilities (Table 12-3). -/
inductive Capability
  | powerManagement | pcie | msix | aer | serialNumber | ats | pasid | secondary | physical16 | physical32 | physical64 | physical128 | margining
  | dataLink | device3 | doe
  deriving DecidableEq, Repr

/-- A function is function 0 of its link (R276). -/
def Func.first (f : Func) : Bool :=
  match f with
  | .pf0 _ => true
  | .pf1 _ h => h != 0

/-- Capabilities of a function with their offsets (Table 12-3); the four Physical Layer capabilities share the space up to 0x25F evenly. -/
def Func.capabilities (f : Func) : List (Nat × Capability) :=
  let pf0 : Bool := match f with | .pf0 _ => true | .pf1 _ _ => false
  [(0x040, .powerManagement), (0x050, .pcie)] ++ (if pf0 then [(0x090, .msix)] else []) ++ [(0x100, .aer), (0x140, .serialNumber), (0x150, .ats)] ++
    (if pf0 then [] else [(0x160, .pasid)]) ++
    (if f.first then [(0x170, .secondary), (0x1A0, .physical16), (0x1D0, .physical32), (0x200, .physical64), (0x230, .physical128), (0x260, .margining),
      (0x280, .dataLink)] else []) ++
    [(0x2A0, .device3)] ++ if pf0 then [(0x2C0, .doe)] else []

/-- Settings that R278 and Table 12-3 state: payload and read request sizes in bytes, tag bits and outstanding non-posted requests of a link, vectors of
MSI-X with the places of its table and its PBA in BAR 2, invalidations that may be outstanding, and the width of a PASID. -/
structure LinkSettings where
  maxPayload : Nat
  maxRead : Nat
  tagBits : Nat
  outstanding : Nat
  vectors : Nat
  tableAt : Nat
  pbaAt : Nat
  invalidations : Nat
  pasidWidth : Nat
  deriving DecidableEq, Repr

/-- R278 and Table 12-3. -/
def linkSettings : LinkSettings := ⟨512, 4096, 14, 8192, 2048, 0x0000, 0x8000, 32, 20⟩

/-- BARs of a function (Table 12-4): the first of its pair, its size in bytes, and whether it is prefetchable. -/
def Func.bars (f : Func) : List (Nat × Nat × Bool) :=
  match f with
  | .pf0 _ => [(0, 64 * 2 ^ 20, false), (2, 64 * 2 ^ 10, false)]
  | .pf1 _ _ => [(2, 16 * 2 ^ 20, false), (4, 64 * 2 ^ 30, true)]

/-- A configuration request is answered, and does not receive Request Retry Status: the function is there and ready, in no FLR, and H0 is not paused. -/
def State.cfgAnswers (s : State) (f : Func) : Bool := s.linkUp f.port f.half && s.getF f.flrF == 0 && !s.hallPaused 0

/-- The Device Serial Number of every function (Table 12-3): the first 8 bytes of the SHA-384 digest of the device identity public key. -/
def deviceSerial : List Byte := (beBytes 48 (sha384 Config.identityKey).toNat).take 8

end Sys2Proof.Machine
end

