-- ==== Sys2Proof/Tests/Slice0.lean ====
section
/-! SUPPORT. Tests: words of no command, operands that no interface carries, and for each statement of the certificate a state and operands that
meet its hypotheses, with what the command leaves there by the spec's rules. -/

namespace Sys2Proof.Tests

set_option Elab.async false

open Sys2Proof.Machine

/-- READY, with a stream and firmware, and nothing else since reset. -/
def live : State := { State.reset with dev := { State.reset.dev with st := .ready, stream := true, firmware := true } }

/-- A command leaves a next state of which something holds. -/
def after (c : Instr) (s : State) (p : State → Bool) : Bool :=
  match exec c s with
  | .next t => p t
  | _ => false

/-- A device state. -/
def inState (s : State) (d : DevState) : State := { s with dev := { s.dev with st := d } }

/-- Fields set. -/
def withF (s : State) (l : List (Fld × Nat)) : State := l.foldl (fun s e => s.setF e.1 e.2) s

/-- A write of the stewards' machine mode to a register takes effect in the state as it is. -/
def takes (s : State) (a : Nat) : Bool := s.writeAt .stewardMachine a == some s && s.privileged .stewardMachine

/-- The environment entry with one byte stated. -/
def withEnv (s : State) (off : Nat) (b : Byte) : State := { s with str := { s.str with env := List.replicate off 0 ++ [b] } }

/-- Port 0 is privileged, its link trained, and both of its functions may send requests. -/
def bus : State :=
  withF live [(F.DEV_PRIV_PORTS_PORTS, 1), (F.HST_LINK_H0_STATE 0, 2), (Func.bmeF (.pf0 0), 1), (Func.bmeF (.pf1 0 0), 1)]

/-- A byte string in a page of zeros. -/
def padTo (n : Nat) (b : List Byte) : List Byte := b ++ List.replicate (n - b.length) 0

/-- A partial stream with one section, for hall 2, of version 1 (R22 to R26). -/
def partialImage : List Byte :=
  let h := padTo 252 ([0x4C, 0x4F, 0x4D, 0x47, 1, 0, 0, 1, 0x54, 0x4B, 0x2D, 0x39, 0x36, 0x30, 0x30, 0] ++ List.replicate 24 0 ++
    [1, 0, 4, 0, 1, 0, 0, 0] ++ leBytes 4 8192 ++ leBytes 4 8192 ++ List.replicate 8 0 ++ [0x12, 0, 1, 0] ++ leBytes 4 80)
  let b := padTo 60 ([0x12, 1, 2, 0] ++ leBytes 4 16 ++ [1, 0, 0, 0])
  padTo 8192 (padTo 4096 (h ++ leBytes 4 (crc32c h)) ++ b ++ leBytes 4 (crc32c (b ++ List.replicate 16 0)))

/-! ### The queue, reset, and the register interface -/

theorem test_step_front (s : State) : step { s with pending := [.jtagTrst true] } = exec (.jtagTrst true) { s with pending := [] } := rfl

theorem test_decode_none : decodeTableWord 32 0 = none := by decide

theorem witness_StepRunsFrontCommand : State.reset.pending = [] := by decide

/-- A full write of an address: not sent by PF0, the register answers, and its row. -/
def reaches (s : State) (m : Master) (a : Nat) (q : RegRow → Bool) : Bool :=
  s.reach m (BitVec.ofNat 26 a).toNat == (some a, s) && s.writeWaits m ((blockOf a).getD 19) == false && (rowOf a).any q

theorem witness_ViolationsCountedAndShown :
    (reaches live .stewardMachine 0x44 (fun _ => true) ∧
      after (.registerWrite .stewardMachine 0x44 0 7#4 []) live (fun t => t.getF F.DEV_CNT_PARTIAL == 1)) ∧
    (reaches live .stewardOther 0x30 (fun r => r.fields.all (fun f => f.acc == .prw || f.acc == .resv) && r.hasAcc .prw) ∧
      live.privileged .stewardOther = false ∧ startsCommand 0x30 5 = false ∧ live.extLocked 0x30 = false ∧ live.jobContext 0x30 = false ∧
      after (.registerWrite .stewardOther 0x30 5 15#4 []) live (fun t => t.getF F.DEV_CNT_PRIV == 1 && t.reg 0x30 == 0x7D0)) ∧
    (live.dev.st.live = true ∧ ownAddr 0x3FFFFFC = none ∧
      after (.registerWrite .stewardMachine 0x3FFFFFC 0 15#4 []) live fun t => t.getF F.DEV_CNT_UNMAPPED == 1) := by
  decide +kernel

theorem witness_PlainWriteTakesEffect :
    reaches live .stewardMachine 0x60244 (fun r => r.fields.all (fun f => f.acc == .rw) && r.mask (fun f => f.acc == .rw) == BitVec.allOnes 32) ∧
    startsCommand 0x60244 7 = false ∧ live.extLocked 0x60244 = false ∧ live.jobContext 0x60244 = false ∧ live.keyOf 0x60244 = 0x60244 ∧
    after (.registerWrite .stewardMachine 0x60244 7 15#4 []) live (fun t => t.reg 0x60244 == 7) := by decide +kernel

/-- An event of DEV_SEAL_STATUS's kind: SEQ 1 and a field set. -/
def seqd : State := live.event ⟨0x4C, 0, 0⟩

theorem witness_SequenceClearWrite :
    (blockRows 0).any (fun r => r.addr == 0x4C && r.hasAcc .sqc) ∧ reaches seqd .stewardMachine 0x4C (fun r => r.hasAcc .sqc) ∧
    seqd.getF (seqOf 0x4C) = 1 ∧ after (.sqcWrite .stewardMachine 0x4C 0x01000000) seqd (fun t => t.reg 0x4C == 0x01000000) ∧
    after (.sqcWrite .stewardMachine 0x4C 0x00000001) seqd (fun t => t == seqd) ∧
    ((live.eventV ⟨0x4C, 0, 0⟩ 1).eventV ⟨0x4C, 0, 0⟩ 1).getF (seqOf 0x4C) = 2 := by decide +kernel

theorem witness_ApplyAndSealCommands :
    ((hallsOf 8).any live.hallPaused = false ∧ live.answers 8 = true ∧ applyOf R.GAL_CLUSTER_EN = some ⟨applyAddr 8, 0, 0⟩ ∧
      after (.bufferedApply 8 0) { live with pend := [(R.GAL_CLUSTER_EN, (0xF, 0x5))] } (fun t => t.reg R.GAL_CLUSTER_EN % 16 == 5 && t.pend == [])) ∧
    (live.hallPaused 10 = false ∧ after (.sealRecompute 7) live (fun t => t.reg (sealAddr 7) == live.sealOf 7 % 2 ^ 32)) ∧
    after (.sealHoldExpiry 18) { live with sealOk := [18] } (fun t => t.getF (sealHoldF 18) == 0) ∧
    (live.writeAt .stewardMachine (sealRefAddr 18) = some live ∧
      after (.sealRefWrite .stewardMachine 18 9) live (fun t => t.reg (sealRefAddr 18) == 9 && t.getF (sealHoldF 18) == 0)) := by decide +kernel

theorem witness_ReadsLatchHighHalves :
    (live.reach .stewardOther R.FLT_NEWEL_LO = (some R.FLT_NEWEL_LO, live) ∧
      after (.newelLoRead .stewardOther) { live with time := { live.time with ns := 2 ^ 33 } } (fun t =>
        look t.latches (latchKey .stewardOther R.FLT_NEWEL_HI) == some 2#32 && look t.latches (latchKey .signet R.FLT_NEWEL_HI) == none)) ∧
    (live.reach .signet R.FLT_CNT_STEP_LO = (some R.FLT_CNT_STEP_LO, live) ∧
      (rowOf R.FLT_CNT_STEP_LO).any (fun r => !r.hasAcc .prw && !r.hasAcc .srw) ∧ counterLos.contains R.FLT_CNT_STEP_LO ∧
      after (.counterLoRead .signet (BitVec.ofNat 26 R.FLT_CNT_STEP_LO)) (live.setReg R.FLT_CNT_STEP_HI 6) fun t =>
        look t.latches (latchKey .signet R.FLT_CNT_STEP_HI) == some 6#32) := by decide +kernel

/-! ### Power, reset, driver lease and Newel time -/

theorem witness_StartUpSequence :
    after .inputStandbyUp (inState live .off) (fun t => t.dev.st == .standby && t.outbox == [.pin 0 1]) ∧
    after .inputStandbyDown (inState live .standby) (fun t => t.dev.st == .off && t.outbox.head? == some (.pin 0 0)) ∧
    after (.startThreshold 15) (inState live .standby) (fun t => t.dev.st == .boot && t.getF F.STR_ENV_ENTRY_STRAPS == 15) ∧
    after .islandsLocked State.reset (fun t => t.mio.modPwrgd && t.reg R.PWR_DOM_ON_HI == 15) ∧
    after .portResetHoldEnd { live with mio := { live.mio with portHold := true } } (fun t => !t.mio.portHold) := by decide +kernel

theorem witness_DeviceResets :
    after .brownout live (fun t => t.dev.st == .standby && t.reg R.PWR_LAST_RESET == 0x20000000) ∧
    after .overvoltageTrip live (fun t => t.dev.st == .standby && t.reg R.PWR_LAST_RESET == 0x30000000) ∧ takes live R.PWR_RESET_CMD ∧
    after (.pwrResetCold .stewardMachine) live (fun t => t.dev.st == .standby && t.reg R.PWR_LAST_RESET == 0x42000000) ∧
    after (.pwrResetWarm .stewardMachine) live (fun t => t.dev.st == .boot && t.reg R.PWR_LAST_RESET == 0x52000000 && !t.dev.stream) := by
  decide +kernel

theorem witness_CofferCommands :
    (live.clamps 5400 9000 = false ∧ after (.cofferSample 5400 9000) live (fun t => t.getF F.PWR_INPUT_MV == 5400 && t.pwr.samples == [5400])) ∧
    after .epochBoundary live (fun t => t.pwr.devCharge == 0 && t.pwr.lowLast == 0xFFFF) ∧
    after .stage5SaveDone { live with pwr := { live.pwr with saving := true } } (fun t => t.getF F.PWR_EVENT_KIND == 4 && !t.pwr.saving) ∧
    takes live R.PWR_SHED_A ∧
    after (.pwrShedWrite .stewardMachine 0 0 0) live (fun t => t.getF F.PWR_STATUS_CFG_REFUSED == 1 && t.reg R.PWR_SHED_A == live.reg R.PWR_SHED_A) ∧
    after (.pwrShedWrite .stewardMachine 0 (live.reg R.PWR_SHED_A / 65536) (live.reg R.PWR_SHED_A % 65536)) live (fun t =>
      t.getF F.PWR_STATUS_CFG_REFUSED == 0) := by decide +kernel

/-- A driver of version 1.0 has been accepted on port 0 of a device whose services all run. -/
def leased : State :=
  withF live [(F.DEV_DRV_HELLO_MAJOR 0, 1), (F.DEV_DRV_HELLO_ANSWERED 0, 1), (F.DEV_DRV_HELLO_RESULT 0, 0), (F.DEV_LEASE_RUNNING 0, 1)]

theorem witness_DriverLease :
    takes live (R.DEV_DRV_HELLO 0) ∧
    after (.devDrvHelloWrite .stewardMachine 0 1 2) live (fun t => t.getF (F.DEV_DRV_HELLO_MINOR 0) == 2 && t.getF (F.DEV_DRV_HELLO_ANSWERED 0) == 0) ∧
    live.writeAt .stewardOther (R.DEV_DRV_HELLO 3) = some live ∧
    after (.devDrvHelloWrite .stewardOther 3 1 2) live (fun t => t.getF F.DEV_CNT_PRIV == 1 && t.getF (F.DEV_DRV_HELLO_MAJOR 3) == 0) ∧
    after (.helloJudge 0) (withF live [(F.DEV_DRV_HELLO_MAJOR 0, 1)]) (fun t => t.getF (F.DEV_DRV_HELLO_ANSWERED 0) == 1) ∧
    leased.helloAccepted 0 = true ∧ takes leased (R.DEV_LEASE 0) ∧
    after (.leaseRenew .stewardMachine 0) leased (fun t => look t.leaseMs 0 == some (leased.leaseLimit 0)) ∧
    after (.leaseExpiry 0) leased (fun t => t.getF (F.DEV_LEASE_EXPIRED 0) == 1 && t.getF (F.DEV_LEASE_RUNNING 0) == 0) := by decide +kernel

/-- A role of PTP, with a time state. -/
def timed (role : Byte) (st : TimeState) : State := { withEnv live 224 role with time := { live.time with st := st } }

/-- A grandmaster with 1PPS as an input, at a Newel time. -/
def grand (ns : Nat) : State :=
  { live with str := { live.str with env := List.replicate 224 0 ++ [1, 0, 0, 1] }, time := { live.time with ns := ns } }

theorem witness_NewelTime :
    takes live R.FLT_NEWEL_CTRL ∧ live.newelOwned .stewardMachine = false ∧
    after (.newelStep .stewardMachine) (live.setReg R.FLT_NEWEL_STEP_LO 77) (fun t => t.time.ns == 77) ∧ takes live R.FLT_NEWEL_ADJ ∧
    after (.newelAdjWrite .stewardMachine 5) live (fun t => t.reg R.FLT_NEWEL_ADJ == 5) ∧
    ((timed 2 .locked).ptpRole = 2 ∧ (timed 2 .locked).answers 9 = true ∧ ((timed 2 .locked).syncOffset (2 ^ 31 - 1)).time.st = .unlocked ∧
      ((timed 2 .locked).syncOffset (-(2 ^ 31))).reg R.FLT_PTP_OFFSET = 2 ^ 31 ∧ ((timed 3 .holdover).syncOffset 0).time.st = .locked) ∧
    after (.ptpSyncReceived 0) (timed 1 .locked) (fun t => t.time.st == .locked && look t.time.stamps (2 * t.ptpPort) == some 0) ∧
    after .syncSilenceExpiry (timed 2 .locked) (fun t => t.time.st == .holdover && t.getF F.FLT_PTP_STATUS_STATE == 2) ∧
    after .holdoverExpiry (timed 2 .holdover) (fun t => t.time.st == .unlocked && t.getF F.FLT_PTP_STATUS_STATE == 3) ∧
    after .ptpStartTimeout (timed 2 .acquiring) (fun t => t.str.ptpOff) ∧
    (after (.ppsInEdge 100 100) (withEnv live 227 1) (fun t => t.time.ppsAt == some 0) ∧
      after (.ppsInEdge 100 100) (grand 700000000) (fun t => t.now == 10 ^ 9) ∧ after (.ppsInEdge 100 100) (grand 3000000001) (fun t => t.now == 3 * 10 ^ 9) ∧
      after (.ppsInEdge 100 100) { grand 1 with flights := [(0, { Flight.fresh 0 9 [] with st := .armed })] } (fun t => t.now == 1)) ∧
    after .ppsInAbsent (withEnv live 227 1) (fun t => t.time.ppsWarned) ∧
    after (.ppsOutEdge true) { withEnv live 227 2 with time := { live.time with st := .locked, heard := true } } (fun t =>
      t.mio.ppsOut && t.now % 10 ^ 9 == 0) := by decide +kernel

/-! ### Operands that no interface carries -/

/-- A packet whose fields fit. -/
def fitPkt : Pkt :=
  { port := 15, sprayed := true, qpn := 2 ^ 24 - 1, op := .write, psn := 2 ^ 24 - 1, path := 15, ce := false, icrcOk := true, vaddr := 2 ^ 64 - 1, key := 0,
    msgOffset := 0, msgLen := 2 ^ 32 - 1, fence := false, first := true, last := false, solicited := false, imm := 0, argA := 0, argB := 0, placed := [],
    nak := none, payload := [] }

/-- None of a list of commands is well formed. -/
def refused (l : List Instr) : Bool := l.all (!·.wellFormed)

theorem test_wellFormed_packets :
    ([{ fitPkt with port := 16 }, { fitPkt with qpn := 2 ^ 24 }, { fitPkt with psn := 2 ^ 24 }, { fitPkt with path := 16 }, { fitPkt with vaddr := 2 ^ 64 },
      { fitPkt with key := 2 ^ 32 }, { fitPkt with msgOffset := 2 ^ 32 }, { fitPkt with msgLen := 2 ^ 32 }, { fitPkt with imm := 2 ^ 32 },
      { fitPkt with argA := 2 ^ 64 }, { fitPkt with argB := 2 ^ 64 }, { fitPkt with placed := [2 ^ 24] }] : List Pkt).all (!·.wellFormed) = true ∧
    fitPkt.wellFormed = true := by decide

theorem test_wellFormed_places :
    ([.flightStep 64 0, .flightStep 0 65536, .rteResponder (2 ^ 24), .nvme 256 0 0, .nvme 0 65536 0, .nvme 0 0 65536, .slice 256, .pf0Ring 65536,
      .fetched 65536 0, .nvmeFetched 256 0 0, .nvmeFetched 0 65536 0] : List HostAccess).all (!·.wellFormed) = true ∧
    ([.page (2 ^ 32) 0 0, .page 0 0 2, .flightBuffer 64 0, .flightBuffer 0 65536, .qpStore (2 ^ 24), .xtsKey 256 0 0, .xtsKey 0 65536 0, .xtsKey 0 0 65536,
      .keyTable (2 ^ 24), .saTable 65536, .flightStore 64, .stewardL2 32, .cachedContext 16, .gallery 16, .sram 19] : List UeLoc).all (!·.wellFormed) = true := by
  decide

theorem test_wellFormed_errors :
    refused [.errorEvent 0x300 0 0 0 0, .errorEvent 0 256 0 0 0, .errorEvent 0 0 65536 0 0, .errorEvent 0 0 0 256 0, .errorEvent 0 0 0 0 (2 ^ 64),
      .fatalFault 256 0 0, .fatalFault 0 256 0, .fatalFault 0 0 256, .dataUncorrectable (.sram 19), .hbmCorrectableError (2 ^ 18), .patrolPass [2 ^ 18],
      .completionTimeout (.pf0 0) (2 ^ 14) .errRecord 0, .completionTimeout (.pf0 0) 0 (.slice 256) 0, .hostAccessFail (.slice 256) 0] = true := by decide

theorem test_wellFormed_flights :
    refused [.stepSend 0 65536 0, .stepRecv 0 0 (2 ^ 64), .stepReduce 0 65536 0, .stepConvert 0 65536 0, .stepProgram 0 65536 0, .stepCopy 0 65536 0,
      .stepLanding 0 65536 0, .stepSignalAccel 0 65536 0, .stepComplete 0 65536, .lateLimitExpiry 0 65536, .lateAbortExpiry 0 65536,
      .keepaliveReceived 0 65536 0, .peerTimeout 0 65536, .abortBroadcastReceived 0 0 65536 0 .shed 0, .controlAckReceived 0 65536 0,
      .flightWriteReceived 0 65536 0 0 0 [] false, .arrivalReportReceived 0 0 65536 0 0 [], .arrivalReportReceived 0 0 0 0 65536 [],
      .arrivalReportReceived 0 0 0 0 0 [65536], .ppsInEdge (10 ^ 9 + 1) 0, .ppsInEdge 0 (10 ^ 9 + 1)] = true := by decide

theorem test_wellFormed_network :
    refused [.packetReceive { fitPkt with port := 16 }, .sackReceived { fitPkt with port := 16 }, .nakReceived { fitPkt with port := 16 },
      .cnpReceived { fitPkt with port := 16 }, .frameReceive 0 (List.replicate 13 0) none,
      .frameReceive 0 (List.replicate 14 0) (some { fitPkt with qpn := 2 ^ 24 }), .recoveryTimerExpiry 0 16, .suspectProbeTimer 0 16, .pushReadDone 0 8,
      .bar4Access 0 0 none 4097, .bar4Access 0 0 (some (List.replicate 4097 0)) 0] = true ∧
    Instr.wellFormed (.bar4Access 0 0 none 4096) = true := by decide +kernel

theorem test_wellFormed_module :
    refused [.cofferSample 65536 0, .cofferSample 0 65536, .pwrShedWrite .stewardMachine 0 65536 0, .pwrShedWrite .stewardMachine 0 0 65536,
      .flrDone (.pf0 0) [2 ^ 14], .linkLost 0 0 [(.pf0 0, 2 ^ 14)], .busMasterDisable (.pf0 0) 8193, .unexpectedCompletion (.pf0 0) (2 ^ 14),
      .tagQuarantineExpiry 0 0 (2 ^ 14), .invalidateRequest (.pf0 0) 32, .invalidateComplete (.pf0 0) 32, .linkTrained 0 0 17 0 false 0,
      .linkTrained 0 0 0 256 false 0, .getCertificate 0 0 65536 0, .getCertificate 0 0 0 65536, .getMeasurements 0 256 false false,
      .spdmUnsupportedRequest 0 256] = true := by decide
/-! ### Signet -/

/-- BOOT with every domain on. -/
def islands : State := { State.reset with mio := { State.reset.mio with modPwrgd := true } }

/-- A stage-1 image. -/
def stage1 (ok : Bool) (svn : Nat) : Stage1 := ⟨ok, svn, [1], [2]⟩

theorem witness_BootChain :
    (islands.stage1Ok (stage1 true 65535) = true ∧ islands.stage1Ok (stage1 false 0) = false ∧
      after (.stage1Verify false (stage1 true 0) (stage1 true 0)) islands (fun t => t.dev.st == .fatal && t.dev.fatalReason == 0x0A) ∧
      after (.stage1Verify true (stage1 true 65535) (stage1 false 0)) islands (fun t => t.dev == islands.dev && t.sig.stage1Svn == 65535) ∧
      after (.stage1Verify true (stage1 false 0) (stage1 true 3)) islands (fun t => t.sig.stage1Svn == 3 && t.getF F.SIG_BOOT_INFO_STAGE1_NOR == 1) ∧
      after (.stage1Verify true (stage1 false 0) (stage1 false 3)) islands (fun t => t.dev.st == .limited && t.dev.limitedCause == 4)) ∧
    (islands.dev.firmware = false ∧ look { islands.sig with mr := [(2, 0)] }.mr 2 = some 0) ∧
    after (.firmwareRelease false) { islands with sig := { islands.sig with mr := [(2, 0)] } } (fun t =>
      !t.dev.firmware && t.getF F.SIG_STATUS_VERIFY_FAIL == 1) := by decide +kernel

/-- An open connection on the management bus, with its algorithms agreed and a leaf kept. -/
def attested (n : Nat) : State :=
  { withF live [(F.SIG_CFG_MCTP_EN, 1)] with
    mio := { live.mio with dynAddr := some 8 }, sig := { live.sig with spdm := [(4, ⟨true, true, true, some n⟩)], lmsEnd := 5, lmsNext := 4 } }

theorem witness_SpdmResponses :
    (attested 3).spdmOpen 4 = true ∧ after (.getVersion 4) (attested 3) (fun t => t.outbox.head? == some (.msg 4 1 [0x13]) && !(t.spdm 4).algs) ∧
    after (.getCapabilities 4) (attested 3) (fun t => (t.spdm 4).caps) ∧
    after (.negotiateAlgorithms 4 true) (attested 3) (fun t => t.outbox.head? == some (.msg 4 3 [384, 384, 1])) ∧
    after (.spdmUnsupportedRequest 4 0x99) (attested 3) (fun t => t.outbox == [.msg 4 0 [2]]) ∧
    after (.getMeasurements 4 0 false false) (attested 3) (fun t => t.outbox == [.msg 4 7 [12]]) ∧
    after (.getMeasurements 4 255 true false) (attested 3) (fun t => t.sig.lmsNext == 5 && (t.spdm 4).lms == some 4) ∧
    after (.challenge 4 0 false) (attested 3) (fun t => t.sig.lmsNext == 5) ∧ after (.getDigests 4) (attested 3) (fun t => t.outbox.length == 1) ∧
    after (.getLmsSig 4) (attested 3) (fun t => t.outbox.length == 1) := by decide +kernel

theorem witness_LocketKeyAndDebug :
    takes live R.SIG_SVN_COMMIT ∧
    after (.svnCommit .stewardMachine) { live with sig := { live.sig with stage1Svn := 65535 } } (fun t => t.getF F.SIG_SVN_SVN == 65535) ∧
    takes live R.SIG_LKEY_CMD ∧ after (.lkeyInstall .stewardMachine (some [7]) true) live (fun t => t.sig.lkey == some [7]) ∧
    after (.lkeyInstall .stewardMachine none true) live (fun t => t.getF F.SIG_LKEY_RESULT_RESULT == 2) ∧
    after (.lkeyErase .stewardMachine true) { live with sig := { live.sig with lkey := some [7] } } (fun t => t.sig.lkey == none) ∧
    takes bus R.SIG_DBG_CMD ∧ bus.canDma (.pf0 0) = true ∧
    after (.debugUnlock .stewardMachine false) bus (fun t => t.draws == bus.draws + 1 && t.getF F.SIG_DBG_RESULT_RESULT == 1) := by
  decide +kernel
/-! ### The stream -/

/-- An STR command in a phase, with the image that it holds and the halls and tables that it has left. -/
def streaming (op : StrOp) (phase : Nat) (img : List Byte) (halls : List Nat) (tables : List (Nat × List Byte)) : State :=
  { withF bus [(F.STR_STATUS_PHASE, phase)] with str := { bus.str with cmd := some (op, false, 0), image := img, halls := halls, tables := tables } }

theorem witness_StreamCommandsStart :
    takes bus R.STR_CMD ∧ bus.str.cmd = none ∧ bus.strSrc % 4096 = 0 ∧
    after (.writeSlot .stewardMachine) bus (fun t => t.strPhase == 1 && t.str.cmd == some (.writeSlot, false, 0)) ∧
    after (.restream .stewardMachine true) (bus.setReg R.STR_SRC_LEN (96 * 2 ^ 20)) (fun t => t.str.cmd == some (.restream, true, 0)) ∧
    after (.verifyOnly .stewardMachine true) bus (fun t => t.str.cmd == some (.verifyOnly, true, 0)) ∧
    after (.loadFull .stewardMachine) { bus with dev := { bus.dev with stream := false } } (fun t => t.str.cmd == some (.loadFull, false, 0)) ∧
    takes (streaming .restream 1 [] [] []) R.STR_CMD ∧
    after (.writeSlot .stewardMachine) (streaming .restream 1 [] [] []) (fun t => t.getF F.STR_STATUS_RESULT == 1 && t.strPhase == 1) ∧
    after (.strCancel .stewardMachine) (streaming .restream 1 [] [] []) (fun t => t.str.cmd == none && t.getF F.STR_STATUS_RESULT == 14) ∧
    after (.strCancel .stewardMachine) { streaming .restream 6 [] [] [] with str := { (streaming .restream 6 [] [] []).str with touched := true } }
      (fun t => t.str.cmd != none && t.getF F.STR_STATUS_RESULT == 15) := by decide +kernel

set_option maxRecDepth 100000 in
theorem test_partial_image : (bus.strCheck .restream false partialImage) = .ok ∧ crcsOk partialImage = true := by decide +kernel

/-- An image in PF0's memory, and its length set. -/
def fetching (img : List Byte) : State :=
  { (streaming .restream 1 [] [] []).setReg R.STR_SRC_LEN 8192 with mem := Mem.write [] ((Space.pf0 0).at 0) img }

theorem leBytes_length (n x : Nat) : (leBytes n x).length = n := by induction n generalizing x <;> simp_all [leBytes]

theorem padTo_length (n : Nat) (b : List Byte) : (padTo n b).length = max b.length n := by simp [padTo]; omega

theorem partialImage_length : partialImage.length = 8192 := by
  unfold partialImage
  simp only [padTo_length, List.length_append, leBytes_length, List.length_replicate, List.length_cons, List.length_nil]
  decide

/-- The image is what FETCH reads. -/
theorem fetching_reads (img : List Byte) (hl : img.length = 8192) :
    (fetching img).mem.read ((Space.pf0 0).at (fetching img).strSrc) ((fetching img).reg R.STR_SRC_LEN) = img := by
  have h : (fetching img).strSrc = 0 := by rfl
  have g : (fetching img).reg R.STR_SRC_LEN = 8192 := by rfl
  rw [h, g, ← hl]
  exact Mem.read_write [] _ img

theorem witness_StreamImageJudged_fetch :
    (fetching partialImage).canDma (.pf0 0) = true ∧ (fetching partialImage).strPhase = 1 ∧
      (fetching partialImage).mem.read ((Space.pf0 0).at (fetching partialImage).strSrc) ((fetching partialImage).reg R.STR_SRC_LEN) = partialImage :=
  ⟨rfl, rfl, fetching_reads _ partialImage_length⟩

/-- An image with a signature block as R28 lays it out and no sections. -/
def signedImage : List Byte := padTo 3096 (leBytes 4 0 ++ leBytes 4 96 ++ List.replicate 96 0 ++ leBytes 4 2988)

theorem witness_StreamImageJudged :
    after .strFetchDone (streaming .restream 1 [] [] []) (fun t => t.str.cmd == none && t.getF F.STR_STATUS_RESULT == 2) ∧
    after .strFetchDone (withF (streaming .restream 1 [] [] []) [(Func.bmeF (.pf0 0), 0)]) (fun t => t.getF F.STR_STATUS_RESULT == 13) ∧
    after (.strSignaturesVerified false 0) (streaming .verifyOnly 2 [] [] []) (fun t => t.getF F.STR_STATUS_RESULT == 3) ∧
    (sigBlockOk signedImage = true ∧ crcsOk signedImage = true ∧ isFull signedImage = true ∧
      after (.strSignaturesVerified true 0) (streaming .verifyOnly 2 signedImage [] []) (fun t => t.str.cmd == none && t.getF F.STR_STATUS_RESULT == 0)) ∧
    after (.strSignaturesVerified true 0) (streaming .writeSlot 2 signedImage [] []) (fun t => !t.slotValid 1 && t.str.cmd != none) ∧
    ((streaming .writeSlot 2 [] [] []).slotImage 1 = [] ∧ after (.streamSlotWritten true) (streaming .writeSlot 2 [] [] []) (fun t =>
      t.str.cmd == none && t.slotValid 1)) ∧
    after (.streamSlotWritten false) (streaming .writeSlot 2 [] [] []) (fun t => t.getF F.STR_STATUS_RESULT == 4) ∧
    takes live R.STR_BOOT_SLOT ∧
    after (.strBootSlotWrite .stewardMachine 1) (live.setSlotValid 1 1) (fun t => t.getF F.STR_BOOT_SLOT_SLOT == 1) ∧
    after (.strBootSlotWrite .stewardMachine 1) live (fun t => t == live) := by decide +kernel

theorem witness_HallRestream :
    after .shadowWritten (streaming .restream 3 [] [2, 11] []) (fun t => t.hallPaused 2 && t.strPhase == 4) ∧
    ((streaming .restream 4 [] [11] []).hallQuiet 11 = true ∧ after (.hallQuiesced 0) (streaming .restream 4 [] [11] []) (fun t =>
      t.getF (F.STR_HALL_ACTIVE_BANK 11) == 1 && !t.hallPaused 11)) ∧
    after .quiesceTimeout (streaming .restream 4 [] [11] []) (fun t => t.str.cmd == none && t.getF F.STR_STATUS_RESULT == 10) ∧
    (tableBad 7 [] = false ∧ live.profileBlocked (7, []) = false ∧ after .tableEntryLoad (streaming .restream 6 [] [] [(7, [])]) (fun t =>
      t.str.cmd == none && look t.str.tabs 7 == some [] && t.getF F.STR_STATUS_RESULT == 0)) ∧
    (tableBad 5 [] = false ∧ after .tableEntryLoad (streaming .restream 6 [] [] [(5, [])]) (fun t => t.str.tabWait && t.pwr.nextTable == some [])) ∧
    (tableBad 6 [] = true ∧ after .tableEntryLoad (streaming .restream 6 [] [] [(6, [])]) (fun t =>
      t.str.cmd == none && t.getF F.STR_STATUS_RESULT == 2)) := by decide +kernel

theorem witness_StreamStartUp :
    after (.streamLoad true true 0) { State.reset with dev := { State.reset.dev with firmware := true } } (fun t =>
      t.dev.st == .limited && t.dev.limitedCause == 1) ∧
    after .envCheckTimeout { withEnv State.reset 0 0 with dev := { State.reset.dev with envWait := true } } (fun t => t.dev.st == .ready) := by
  decide +kernel

/-! ### Errors, lane groups and the host endpoint -/

/-- The error ring of 64 records runs on port 0 and takes every class. -/
def recording : State :=
  withF bus [(F.ERR_RING_CTRL_EN, 1), (F.ERR_RING_CTRL_CLASS_MASK, 15), (F.ERR_RING_SIZE_ENTRIES, 64)]

theorem witness_ErrorEventsRecorded :
    after (.errorEvent 0x203 4 0xFFFF 0 9) live (fun t => t.getF (F.ERR_CNT_COUNT 2) == 1 && t.getF F.ERR_STATUS_DEGRADED == 1) ∧
    (recording.errRingOn = true ∧ recording.canDma (.pf0 recording.errPort) = true ∧
      after (.errorEvent 0x203 4 0xFFFF 0 9) recording (fun t => t.reg R.ERR_RING_PROD == 1 && t.mem.read ((Space.pf0 0).at 8) 4 != [0, 0, 0, 0])) ∧
    takes live R.ERR_INJECT ∧ after (.errInject .stewardMachine 2 0 0) live (fun t => t.getF (F.ERR_CNT_COUNT 2) == 1) ∧
    after (.errInject .stewardMachine 3 0 255) live (fun t => t.getF F.ERR_INJECT_SLICE == 255 && t.getF F.ERR_STATUS_DEGRADED == 0) ∧ takes recording R.ERR_RING_CTRL ∧
    after (.errRingEnable .stewardMachine 15 3 2047) (live.setReg R.ERR_RING_PROD 7) (fun t =>
      t.getF F.ERR_RING_CTRL_VECTOR == 2047 && t.reg R.ERR_RING_PROD == 0) ∧
    after (.errRingEnable .stewardMachine 15 0 0) (recording.setReg R.ERR_RING_PROD 7) (fun t => t.reg R.ERR_RING_PROD == 7) := by decide +kernel

theorem witness_MemoryErrorsAndFatal :
    after (.fatalFault 11 255 18) (inState live .limited) (fun t => t.dev.st == .fatal && t.getF F.ERR_FATAL_BLOCK == 18) ∧
    after (.fatalFault 1 0 0) State.reset (fun t => t.dev.st == .fatal && t.dev.fatalReason == 1) ∧
    after (.dataUncorrectable (.sram 4)) live (fun t => t.dev.fatalReason == 1) ∧
    after (.dataUncorrectable (.gallery 3)) live (fun t => t.dev.fatalReason == 2) ∧
    after (.dataUncorrectable (.cachedContext 1)) live (fun t => t.dev.fatalReason == 3) ∧
    after (.dataUncorrectable .sharedCache) live (fun t => t.dev.fatalReason == 4) ∧
    after (.dataUncorrectable (.treeArea 7)) live (fun t => t.getF F.ERR_STATUS_CONTAINED == 1 && t.mem.read ((Space.treeArea 1).at 224) 32 == badUnit) ∧
    after (.hbmCorrectableError 262143) live (fun t => t.getF (F.ERR_CNT_COUNT 0) == 1) ∧
    live.answers 17 = true ∧ after (.patrolPass []) live (fun t => t.getF F.HBM_STATUS_PATROL_DONE == 1) ∧
    after (.patrolPass [3]) live (fun t => t.getF F.HBM_STATUS_PATROL_DONE == 1) := by decide +kernel

/-- A lane group is up with its eight lanes. -/
def laned (g : Nat) : State :=
  withF live ([(F.ETH_GROUP_STATE_STATE g, 2), (F.ETH_GROUP_STATE_WORKING g, 255), (F.ETH_GROUP_CFG_LANE_EN g, 255)] ++ (List.range 8).map fun i => (F.ETH_LANE_UP (8 * g + i), 1))

theorem witness_LaneGroups :
    after (.laneLost 31) (laned 3) (fun t => t.groupWorking 3 == 127 && t.getF F.ETH_CNT_LANE_LOST == 1) ∧
    takes live R.ETH_RETRAIN ∧
    after (.ethRetrain .stewardMachine 3) live (fun t => t.getF F.ETH_RETRAIN_STATUS_ACTIVE == 1 && t.getF (F.ETH_GROUP_STATE_STATE 3) == 1) ∧
    after (.ethRetrain .stewardMachine 3) (withF live [(F.ETH_RETRAIN_STATUS_ACTIVE, 1)]) (fun t => t.getF F.ETH_RETRAIN_STATUS_RESULT == 1) ∧
    after (.ethRetrain .stewardMachine 3) { live with dev := { live.dev with st := .shedding, shed := 4 } } (fun t =>
      t.getF F.ETH_RETRAIN_STATUS_RESULT == 3) ∧
    after (.ethRetrainDone 255) (withF (laned 0) [(F.ETH_RETRAIN_STATUS_ACTIVE, 1)]) (fun t =>
      t.getF (F.ETH_GROUP_STATE_STATE 0) == 2 && t.getF F.ETH_STATUS_RETRAIN_DONE == 1) ∧
    after (.ethRetrainDone 0) (withEnv (withF (laned 0) [(F.ETH_RETRAIN_STATUS_ACTIVE, 1)]) 209 1) (fun t => t.getF (F.ETH_GROUP_STATE_STATE 0) == 3) ∧
    (withEnv live 210 1).groupEnabled 0 = true ∧ after (.laneGroupUp 0 255) (withEnv live 210 1) (fun t => t.getF (F.ETH_GROUP_STATE_STATE 0) == 2) := by decide +kernel

/-- PERST# of a port released, with its half 0 in a state. -/
def ported (p : Fin 4) (st : Nat) : State :=
  let s := withF live [(F.HST_LINK_H0_STATE p, st)]
  (s.setLink (2 * p) { s.link (2 * p) with perst := false })

/-- PF0 lets its link enter L0p and L1 after times that are set. -/
def idling : State :=
  (withF bus [(F.HST_LPM_L0P_IDLE_US 0, 10), (F.HST_LPM_L1_IDLE_US 0, 20), (F.HST_LPM_FLIGHT_HOLD 0, 0)]).setFn (.pf0 0)
    { bus.fn (.pf0 0) with l0pEnable := true, l1Enable := true }

theorem witness_LinkStates :
    after (.linkTrained 3 0 16 6 true 0) (ported 3 1) (fun t => t.getF (linkStateF 3 0) == 2 && t.getF (linkWidthF 3 0) == 16) ∧
    after (.linkTrained 0 1 8 5 false 0) (withF State.reset [(linkStateF 0 1, 1)]) (fun t => t.getF (linkStateF 0 1) == 2) ∧
    ((withF bus [(linkStateF 0 1, 2)]).slicesOn 0 1 = [] ∧
      after (.linkLost 0 1 []) (withF bus [(linkStateF 0 1, 2)]) (fun t => t.getF (linkStateF 0 1) == 0 && t.getF (linkLpmF 0 1) == 3)) ∧
    after (.linkLost 3 0 [(.pf0 3, 5)]) (ported 3 2) (fun t => t.getF (F.HST_CNT_CTO_COUNT 3) == 1) ∧
    after (.hotReset 0 0) bus (fun t => t.getF (linkStateF 0 0) == 1) ∧
    after (.perstAssert 3) (ported 3 2) (fun t => t.reg (R.HST_LINK 3) == resetOf (R.HST_LINK 3)) ∧
    after (.refclkLoss 3) (ported 3 2) (fun t => !(t.link 6).refclk) ∧
    ((live.link 6).perst = true ∧ after (.perstDeassert 3) { live with mio := { live.mio with modPwrgd := true } } (fun t =>
      t.getF (linkStateF 3 0) == 1)) ∧
    ((idling.bufferedApply 4 0).linkUp 0 0 = true ∧ (idling.bufferedApply 4 0).getF (F.HST_LPM_FLIGHT_HOLD 0) = 0 ∧
      after (.l0pIdleExpiry 0 0) idling (fun t => t.getF (linkLpmF 0 0) == 1) ∧
      after (.l1IdleExpiry 0 0) idling (fun t => t.getF (linkLpmF 0 0) == 2)) := by
  decide +kernel

theorem witness_FunctionStates :
    bus.hallPaused 0 = false ∧ bus.linkUp 0 0 = true ∧ bus.getF (Func.pf0 0).flrF = 0 ∧
    after (.pf0Flr 0) bus (fun t => t.getF (Func.pf0 0).flrF == 1 && t.getF (Func.pf0 0).bmeF == 0) ∧
    after (.pf1Flr 0 0) bus (fun t => t.getF (Func.pf1 0 0).flrF == 1 && t.getF (Func.pf1 0 0).bmeF == 0) ∧
    after (.flrDone (.pf1 3 1) [7]) (withF live [((Func.pf1 3 1).flrF, 1)]) (fun t => t.getF (Func.pf1 3 1).flrF == 0 && t.getF F.HST_STATUS_FLR == 1) ∧
    after (.busMasterEnable (.pf1 0 0) true 6 true false) bus (fun t => t.getF (Func.pf1 0 0).ctoF == 6 && (t.fn (.pf1 0 0)).l0pEnable) ∧
    after (.busMasterDisable (.pf0 0) 8192) bus (fun t => t.getF (Func.pf0 0).bmeF == 0 && t.getF (F.HST_CNT_DISCARD_COUNT 0) == 8192) ∧
    after (.d3hotEntry (.pf0 0)) bus (fun t => (t.fn (.pf0 0)).d3hot && !t.canDma (.pf0 0)) ∧
    after (.d0Return (.pf0 0)) (bus.setFn (.pf0 0) { bus.fn (.pf0 0) with d3hot := true }) (fun t => !(t.fn (.pf0 0)).d3hot) := by decide +kernel

/-- A slice of port 0, half 0, in a state. -/
def sliced (s : State) (i : Nat) (st : SliceState) : State := s.setSlice i { s.slice i with state := st }

theorem witness_RequestsAndFailures :
    after (.completionTimeout (.pf0 0) 16383 .strImage 0) bus (fun t =>
      t.getF (F.HST_CNT_CTO_COUNT 0) == 1 && look (t.link 0).quarantined 16383 == some 32000000) ∧
    after (.unexpectedCompletion (.pf1 3 1) 0) State.reset (fun t => t.getF (F.HST_CNT_UNEXP_COUNT 3) == 1) ∧
    after (.tagQuarantineExpiry 3 1 9) (live.setLink 7 { live.link 7 with quarantined := [(9, 50)] }) (fun t => (t.link 7).quarantined == [] && t.now == 50) ∧
    after (.hostAccessFail .errRecord 0) live (fun t => t.errFail == 1) ∧
    after (.hostAccessFail .strImage 0) (streaming .restream 1 [] [] []) (fun t => t.getF F.STR_STATUS_RESULT == 13) ∧
    after (.hostAccessFail (.slice 255) 4096) (sliced live 255 .active) (fun t =>
      (t.slice 255).state == .faulted && (t.slice 255).cause == .ringAccess) ∧
    after (.invalidateRequest (.pf1 0 0) 31) bus (fun t => (t.link 0).invals == [(.pf1 0 0, 31)]) ∧
    after (.invalidateComplete (.pf1 0 0) 31) (bus.setLink 0 { bus.link 0 with invals := [(.pf1 0 0, 31)] }) (fun t =>
      (t.link 0).invals == [] && t.getF (F.HST_CNT_INVAL_COUNT 0) == 1) := by decide +kernel

/-- A masked vector of port 0 is pending. -/
def vectored : State :=
  { bus.setFn (.pf0 0) { bus.fn (.pf0 0) with msixEnable := true, funcMask := false } with msix := [(2047, ⟨0, 0, true, true⟩)] }

theorem witness_InterruptDelivery :
    after (.interruptMethodChange 0 true false false) bus (fun t => t.getF (F.HST_FUNC_PF0_IRQ 0) == 2) ∧
    after (.interruptMethodChange 0 false true false) bus (fun t => t.getF (F.HST_FUNC_PF0_IRQ 0) == 0) ∧
    after (.msixUnmask 0 2047 64 5 false) bus (fun t => t.vec 0 2047 == ⟨64, 5, false, false⟩) ∧
    after (.msixUnmask 0 2047 64 5 false) vectored (fun t => t.outbox == [.msix 0 2047 64 5] && !(t.vec 0 2047).pending) ∧
    ((sliced bus 255 .frozen).pageAnswers 0 0 255 = true ∧
      after (.sliceMessageUnmask 255 63 64 5 true) (sliced bus 255 .frozen) (fun t => look t.msgs 16383 == some ⟨64, 5, true, false⟩)) ∧
    live.writeAt .stewardMachine R.HST_INTX_ACK = some live ∧
    after (.hstIntxAck .stewardMachine 3 2047) { live with msix := [(8191, ⟨0, 0, true, true⟩)] } (fun t => !(t.vec 3 2047).pending) := by
  decide +kernel

/-! ### Slices, Locket and rings -/

/-- A ring of 16 entries: owner, kind, completion ring and base, with entries up to a producer index. -/
def mkRing (owner kind cq base pi : Nat) : Ring := ⟨BitVec.ofNat 256 (owner + kind * 2 ^ 16 + base * 2 ^ 32 + cq * 2 ^ 96), pi, 0, 0, 1, 0⟩

/-- Slice 0 is ACTIVE, with completion ring 0 and a ring 1 of a kind that holds one entry. -/
def work (kind : Nat) : State :=
  { sliced bus 0 .active with rings := [(0, mkRing 0 3 0xFFFF 0 0), (1, mkRing 0 kind 0 4096 1)] }

/-- SLC_CMD takes a command of the stewards' machine mode in a state. -/
def ready (s : State) : Bool := takes s R.SLC_CMD && s.getF F.SLC_STATUS_CMD_ACTIVE == 0

/-- An SLC command ended with a result. -/
def ended (r : Nat) (t : State) : Bool := t.getF F.SLC_CMD_RESULT_RESULT == r && t.getF F.SLC_STATUS_CMD_DONE == 1

theorem witness_SlcBusyIgnored : takes (withF live [(F.SLC_STATUS_CMD_ACTIVE, 1)]) R.SLC_CMD ∧
    after (.bind .stewardMachine) (withF live [(F.SLC_STATUS_CMD_ACTIVE, 1)]) (fun t => t.getF F.SLC_CNT_BUSY == 1) := by decide +kernel

/-- The environment gives slice 0 to port 0. -/
def granted : State := withEnv bus 22 1

/-- A driver is accepted on port 0, its lease runs and its link is up. -/
def driven : State := withF leased [(F.HST_LINK_H0_STATE 0, 2)]

theorem witness_SliceEntryCommands :
    ready bus ∧ after (.readEntry .stewardMachine) (sliced (withF bus [(F.SLC_SEL_SLICE, 255)]) 255 .frozen) (ended stOk) ∧
    after (.writeEntry .stewardMachine) (bus.setReg (R.SLC_ENTRY 0) 7) (fun t => ended stOk t && (t.slice 0).port == 3) ∧
    after (.writeEntry .stewardMachine) (bus.setReg (R.SLC_ENTRY 0) 8) (ended stBindingInvalid) ∧
    after (.writeEntry .stewardMachine) ((sliced bus 0 .bound).setReg (R.SLC_ENTRY 0) 1) (ended stSliceState) ∧
    (ready granted ∧ (granted.setF F.SLC_CMD_OP 3).bindOk 0 = true ∧
      after (.bind .stewardMachine) granted (fun t => ended stOk t && (t.slice 0).state == .bound)) ∧
    (ready (sliced bus 0 .bound) ∧ after (.unbind .stewardMachine) (sliced bus 0 .bound) (fun t => ended stOk t && (t.slice 0).state == .free)) ∧
    after (.sliceReset .stewardMachine) (sliced bus 0 .faulted) (fun t => (t.slice 0).state == .resetting && t.slcCmd == some ⟨5, 0, 0⟩) ∧
    after (.sliceResetDone 255) { sliced bus 255 .resetting with slcCmd := some ⟨5, 255, 0⟩ } (fun t => (t.slice 255).state == .bound && ended stOk t) ∧
    after (.sliceResetDone 255) { sliced bus 255 .bound with slcCmd := some ⟨4, 255, 0⟩ } (fun t => (t.slice 255).state == .free && ended stOk t) ∧
    ((sliced driven 0 .bound).mayActivate 0 = true ∧
      after (.sliceActivate 0) (sliced driven 0 .bound) (fun t => (t.slice 0).state == .active)) := by decide +kernel

/-- A target of a capsule: the base point of P-384, uncompressed, and a nonce of zeros (R315). -/
def target384 : List Byte :=
  [4#8] ++ beBytes 48 0xaa87ca22be8b05378eb1c71ef320ad746e1d3b628ba79b9859f741e082542a385502f25dbf55296c3a545e3872760ab7 ++
    beBytes 48 0x3617de4a96262c6f5d9e98bf9292dc29f8f41dbd289a147ce9da3113b5f0b8c00a60b1ce1d7e819d7a431d7c90ea0e5f ++ List.replicate 15 0#8

/-- A Locket key stands in NOR, slice 0 is FROZEN, and the machine's registers and PF0's memory name a target and room for a capsule. -/
def leaving (saved : Bool) (room : Nat) : State :=
  let s := sliced bus 0 .frozen
  { s.setSlice 0 { s.slice 0 with saved := saved, target := if saved then target384 else [], capsule := [1, 2, 3] } with
    sig := { s.sig with lkey := some [1] },
    mem := ([((Space.pf0 0).at 0 + 8, leBytes 8 room), ((Space.pf0 0).at 0 + 24, leBytes 8 4096), ((Space.pf0 0).at 4096, target384)]).foldl
      (fun m e => Mem.write m e.1 e.2) [] }

theorem witness_FreezeAndLocket :
    (ready (work 5) ∧ (work 5).persistentRunning 0 = false ∧
      after (.freeze .stewardMachine) (work 5) (fun t => (t.slice 0).freezing && t.slcCmd == some ⟨6, 0, 0⟩)) ∧
    after (.freeze .stewardMachine) ((work 5).setCtrl 0 { (work 5).ctrl 0 with rec' := { ((work 5).ctrl 0).rec' with state := 1 } }) (ended stFreezeBusy) ∧
    ((work 5).atBoundary 0 = true ∧
      after .freezeBoundariesReached { work 5 with slcCmd := some ⟨6, 0, 0⟩ } (fun t => (t.slice 0).state == .frozen && ended stOk t)) ∧
    after .freezeWaitTimeout { sliced bus 255 .active with slcCmd := some ⟨6, 255, 0⟩ } (ended stFreezeBusy) ∧
    after (.thaw .stewardMachine) (leaving true 0) (ended stCapsuleSaved) ∧
    after (.thaw .stewardMachine) (leaving false 0) (fun t => ended stOk t && (t.slice 0).state == .bound) ∧
    after (.thaw .stewardMachine) (sliced driven 0 .frozen) (fun t => ended stOk t && (t.slice 0).state == .active) ∧
    (ready (leaving true 2) ∧ (leaving true 2).cmdPort .stewardMachine = 0 ∧ (leaving true 2).canDma (.pf0 0) = true ∧
      (leaving true 2).mem.read ((Space.pf0 0).at 4096) 112 = target384 ∧ keyPoint target384 = true ∧ fieldAt target384 97 7 = 0) ∧
    after (.save .stewardMachine) (leaving true 2) (ended stCapsuleSpace) ∧
    after (.save .stewardMachine) (leaving true 3) (fun t => ended stOk t && t.mem.read ((Space.pf0 0).at 0) 3 == [1, 2, 3]) ∧
    after (.save .stewardMachine) { leaving true 3 with mem := Mem.write (leaving true 3).mem ((Space.pf0 0).at 4104) [1] } (ended stCapsuleInvalid) ∧
    after (.save .stewardMachine) { leaving true 3 with mem := Mem.write (leaving true 3).mem ((Space.pf0 0).at (4096 + 104)) [1] } (ended stCapsuleSaved) ∧
    ready (leaving false 0) ∧ ((leaving false 0).slice 0).saved = false ∧
    after (.restore .stewardMachine true true ⟨[], [], [], [], [], [], [], [], [], [], [], none, [], []⟩) (work 5) (fun t =>
      ended stSliceState t && t.draws == (work 5).draws + 1) := by decide +kernel

/-- Registers hold a completion ring's context for slice 0. -/
def binding (owner : Nat) : State :=
  let s := sliced bus 0 .bound
  (s.setSlice 0 { s.slice 0 with cfg := 2 ^ 96 }).setWords R.SLC_RING 8 (mkRing owner 3 0xFFFF 4096 0).cfg.toNat

theorem witness_RingsAndPages :
    after (.ringRead .stewardMachine) (work 5) (ended stOk) ∧
    after (.ringBind .stewardMachine) (binding 0) (fun t => ended stOk t && (t.ring 0).map (·.kind) == some 3) ∧
    after (.ringBind .stewardMachine) (binding 256) (ended stBindingInvalid) ∧
    after (.ringUnbind .stewardMachine) bus (ended stOk) ∧
    ((withF (work 5) [(F.SLC_RSEL_RING, 1)]).ringNamed 1 = false ∧
      after (.ringUnbind .stewardMachine) (withF (work 5) [(F.SLC_RSEL_RING, 1)]) (fun t => ended stOk t && (t.ring 1).isNone)) ∧
    (((work 5).setCtrl 0 { (work 5).ctrl 0 with cqs := [(0, 0)] }).ringNamed 0 = true ∧
      after (.ringUnbind .stewardMachine) ((work 5).setCtrl 0 { (work 5).ctrl 0 with cqs := [(0, 0)] }) (ended stRingInUse)) ∧
    ((work 5).pageAnswers 0 0 0 = true ∧ (work 5).hallPaused 0 = false ∧ (work 5).hallPaused 1 = false ∧
      after (.doorbell 0 0 0 65535 1 []) (work 5) (fun t => (t.slice 0).dbReject == 1) ∧
      after (.doorbell 0 0 0 1 1 []) (work 5) (fun t => (t.slice 0).dbReject == 1) ∧
      after (.doorbell 0 0 0 1 17 []) (work 5) (fun t => (t.ring 1).map (·.pi) == some 17) ∧
      after (.doorbell 0 0 0 0 16 []) (work 5) (fun t => (t.ring 0).map (·.ci) == some 16) ∧
      after (.doorbell 0 0 0 0 17 []) (work 5) (fun t => (t.slice 0).dbReject == 1)) ∧
    after (.sliceCancel 0 0 0 7 11) (work 5) (fun t => (t.slice 0).cancelTag == 7 && (t.slice 0).cancelSeq == 1) ∧
    after (.sliceCancel 0 0 0 7 3) (work 5) (fun t => (t.slice 0).cancelResult == CancelResult.notFound.code) ∧
    after (.completionRingFullTimeout 0) ({ work 5 with cqWait := [(0, [⟨0, 0, 0, 0, 0, 0, 0, false⟩])] }.setRing 0 { mkRing 0 3 0xFFFF 0 0 with fi := 16 })
      (fun t => (t.slice 0).state == .faulted && (t.slice 0).cause == .cqFull) := by decide +kernel

/-! ### Rings' operations and the Gallery -/

/-- A descriptor of numbers at byte offsets. -/
def dsc (l : List (Nat × Nat)) : Desc := BitVec.ofNat 512 (l.foldl (fun n e => n + e.2 * 2 ^ (8 * e.1)) 0)

/-- Slice 0's own memory, with byte strings at addresses, beside what stands in the device. -/
def holding (s : State) (l : List (Nat × List Byte)) : State :=
  { s with mem := l.foldl (fun m e => Mem.write m ((s.slice 0).space.at e.1) e.2) s.mem }

/-- A program image of one HALT in its body and one in its tail, with one stream that it does not use (Table 04-11). -/
def haltImage (ver : Nat) : List Byte :=
  let h := padTo 60 ([0x46, 0x4C, 0x47, 0x52, 1, 0] ++ leBytes 2 ver ++ [1, 0, 1, 0, 0, 0, 1, 0])
  h ++ leBytes 4 (crc32c (h ++ List.replicate 16 0)) ++ List.replicate 16 0

/-- Slice 0 has weight 1 and the clusters serve; its memory holds a table of an IN and of an OUT or INOUT stream of FP32 elements of the host, the elements 1.0
and 2.0 for them, and a program image. -/
def galleried (dir : Byte) : State :=
  holding (withF ((work 5).setReg (R.GAL_WEIGHT 0) 1) [(F.GAL_CLUSTER_EN_EN, 0xFFFF), (F.GAL_FLIGHT_RESERVE_CLUSTERS, 0)])
    [(4096, [0, 1, 0, 0, 0, 0, 0, 0, 0, 0x20]), (4128, [dir, 1, 0, 0, 0, 0, 0, 0, 0, 0x30]), (0x2000, leBytes 4 0x3F800000),
      (0x3000, leBytes 4 0x40000000), (0x4000, haltImage 7)]

/-- Commands of one element over that table. -/
def reduceD : Desc := dsc [(0, 0x51), (4, 1), (14, 2), (16, 1), (24, 4096)]
def convertD : Desc := dsc [(0, 0x52), (4, 2), (14, 2), (16, 1), (24, 4096)]
def programD : Desc := dsc [(0, 0x53), (4, 3), (6, 1), (14, 1), (16, 1), (24, 4096)]

/-- The tag, status and number of elements of the last record written into completion ring 0. -/
def record (t : State) : List Byte :=
  let b := t.mem.read ((t.slice 0).space.at (32 * ((t.ring 0).map (fun r => r.fi - 1)).getD 0)) 20
  cut b 0 5 ++ cut b 16 1

theorem witness_FetchTakesNextDescriptor : ((work 5).fetch 1 5 0x51 reduceD).map (fun e => e.1.tag) = some 0x51 := by decide +kernel

/-- An operation of ring 1 under way. -/
def op1 : Op := ⟨1, 1, 0, 6, 0x51, reduceD, 0, false, true, false, none⟩

theorem witness_CompletionRecordPosted :
    (work 5).cqOpen (mkRing 0 3 0xFFFF 0 0) = true ∧ (mkRing 0 3 0xFFFF 0 0).cqFull = false ∧ (mkRing 0 3 0xFFFF 0 0).counterAddr = 0 ∧
    record ({ work 5 with ops := [op1] }.finish 1 0x30 7 0) = [0x51, 0, 0, 0, 0x30, 7] ∧
    { mkRing 0 3 0xFFFF 0 0 with fi := 16 }.cqFull = true := by decide +kernel

/-- A dispatched command of slice 0: operation, kind, elements, number of streams, elements handed out. -/
def dispatched (t : State) : List (Nat × Nat × Nat × Nat × Nat) := t.gal.cmds.map fun c => (c.op, c.kind, c.count, c.streams.length, c.next)

theorem witness_GalleryDispatch :
    Desc.field reduceD 4 1 ≠ 0x0F ∧ (galleried 0x80).galReady 1 = true ∧ galDescStatus reduceD = stOk ∧
    after (.reduce 1 reduceD) (galleried 0x80) (fun t => dispatched t == [(1, 1, 1, 2, 0)]) ∧
    after (.convert 1 convertD) (galleried 0x40) (fun t => dispatched t == [(1, 2, 1, 2, 0)]) ∧
    after (.program 1 programD) { galleried 0x40 with gal := { (galleried 0x40).gal with slots := [(7, ⟨2, 0, haltImage 7⟩)] } } (fun t =>
      dispatched t == [(1, 3, 1, 1, 0)] && t.gal.cmds.map (·.slot) == [7]) ∧
    after (.program 1 programD) (galleried 0x40) (fun t => record t == [0x53, 0, 0, 0, BitVec.ofNat 8 stProgAbsent, 0]) ∧
    after (.reduce 1 (dsc [(4, 1)])) (galleried 0x80) (fun t => (record t).getD 4 0 == BitVec.ofNat 8 stDescInvalid) ∧
    after (.reduce 1 reduceD) ((galleried 0x80).setReg (R.GAL_WEIGHT 0) 0) (fun t => record t == [0x51, 0, 0, 0, BitVec.ofNat 8 stRights, 0]) ∧
    after (.reduce 1 reduceD) ((galleried 0x80).setF F.GAL_CLUSTER_EN_EN 0) (fun t => record t == [0x51, 0, 0, 0, BitVec.ofNat 8 stNoCluster, 0]) ∧
    after (.reduce 1 (reduceD ||| dsc [(5, 2)])) { galleried 0x80 with ops := [{ op1 with id := 0 }] } (fun t => t.gal.held == [1]) := by decide +kernel

/-- LOAD_PROGRAM of the image, and UNLOAD_PROGRAM of the program with identifier 1. -/
def loadD : Desc := dsc [(0, 0x54), (4, 4), (16, 80), (24, 0x4000)]
def unloadD : Desc := dsc [(0, 0x55), (4, 5), (6, 1)]

/-- The program slots hold something. -/
def slotted (l : List (Nat × ProgSlot)) : State := { galleried 0x40 with gal := { (galleried 0x40).gal with slots := l } }

theorem witness_GalleryPrograms :
    galDescStatus loadD = stOk ∧ galDescStatus unloadD = stOk ∧ imageFault (haltImage 7) 80 = none ∧
    ((galleried 0x40).mem.read (((galleried 0x40).slice 0).space.at (galTable loadD)) 80 = haltImage 7 ∧ galCount loadD = 80 ∧
      (galleried 0x40).findProg 0 1 0 = none ∧ ∃ k < 8, ((galleried 0x40).progSlot k).st = 0) ∧
    after (.loadProgram 1 (loadD ||| dsc [(16, 0xFF)])) (galleried 0x40) (fun t => record t == [0x54, 0, 0, 0, BitVec.ofNat 8 stProgInvalid, 0]) ∧
    after (.loadProgram 1 loadD) (slotted [(0, ⟨2, 0, haltImage 7⟩)]) (fun t => record t == [0x54, 0, 0, 0, BitVec.ofNat 8 stProgInvalid, 0]) ∧
    (∀ k < 8, ((slotted ((List.range 8).map fun k => (k, ⟨2, 1, haltImage 7⟩))).progSlot k).st ≠ 0) ∧
    after (.unloadProgram 1 unloadD) (slotted [(7, ⟨2, 0, haltImage 7⟩)]) (fun t => (t.progSlot 7).st == 0 && record t == [0x55, 0, 0, 0, 0, 0]) ∧
    after (.unloadProgram 1 unloadD) (galleried 0x40) (fun t => record t == [0x55, 0, 0, 0, BitVec.ofNat 8 stProgAbsent, 0]) := by decide +kernel

/-- What follows a command. -/
def next (c : Instr) (s : State) : State :=
  match exec c s with
  | .next t => t
  | _ => s

/-- REDUCE of 1.0 and 2.0 is dispatched, and its chunk is on cluster 15. -/
def reducing : State := next (.reduce 1 reduceD) (galleried 0x80)
def chunked : State := next (.chunkTake 15) reducing

theorem witness_GalleryChunks :
    (live.galKick.noCluster.serveOrder 15 = [] ∧ live.chunkOn 15 = none) ∧
    after (.chunkTake 15) { reducing with pwr := { reducing.pwr with refused := [(0, some 0)] } } (fun t =>
      t.getF F.GAL_CNT_DEFER_COUNT == 1 && t.getF (F.GAL_CLUSTER_BUSY 15) == 0) ∧
    after (.chunkDone 15) (withF chunked [(Func.bmeF (.pf1 0 0), 0)]) (fun t => t.gal.cmds == [] && t.recent == [(0, 6, 0x51)]) ∧
    (reducing.noCluster.serveOrder 15).length = 1 ∧ (reducing.noCluster.offer 0 (some 0) 0).1 = true ∧
    chunked.getF (F.GAL_CLUSTER_BUSY 15) = 1 ∧ (chunked.chunkOn 15).map (fun x => (x.2, chunked.chunkReach x.1 x.2.1 x.2.2, x.1.fault)) = some ((0, 1), .ok, none) ∧
    after (.chunkDone 15) chunked (fun t => record t == [0x51, 0, 0, 0, 0, 1] && t.mem.read ((t.slice 0).space.at 0x3000) 4 == leBytes 4 0x40400000 &&
      t.getF (F.GAL_CLUSTER_BUSY 15) == 0) ∧
    after (.galStreamFault 15) chunked (fun t => t.recent == [(0, 6, 0x51)] && t.gal.cmds == []) ∧
    (live.writeAt .stewardOther R.GAL_CANCEL_CTRL).isSome ∧
    after (.galCancel .stewardOther 0) (chunked.setReg R.GAL_CANCEL_TAG 0x51) (fun t => t.getF F.GAL_CANCEL_RESULT_RESULT == 1) ∧
    after (.galCancel .stewardOther 0) (chunked.setReg R.GAL_CANCEL_TAG 9) (fun t =>
      t.getF F.GAL_CANCEL_RESULT_RESULT == CancelResult.notFound.code) := by decide +kernel

/-! ### Flights -/

/-- A step (Table 05-4): kind, index, elements, peer, conversion byte of the output, program, signalled positions, operands as DIR, BUF and OFFSET. -/
def mkStep (kind j count peer prog signal : Nat) (opds : List (Nat × Nat × Nat)) : List Byte :=
  padTo 128 (leBytes 2 kind ++ leBytes 2 j ++ leBytes 4 count ++ leBytes 8 0 ++ List.replicate 8 0xFF ++ leBytes 1 0 ++ leBytes 1 signal ++
    leBytes 6 0 ++ leBytes 2 prog ++ leBytes 2 (7 * prog) ++ [0xFF, 0xFF, 0] ++ leBytes 1 opds.length ++ leBytes 2 peer ++ leBytes 6 0 ++
    opds.flatMap fun o => leBytes 8 (o.1 * 2 ^ 62 + o.2.1 * 2 ^ 48 + 2 ^ 40 + o.2.2))

/-- A flight image of flight 9 (Tables 05-1 to 05-3): this device and a peer on port 3 with a rank each, two buffers of 16 FP32 elements in the window of position
0, a number of landing sets, the first of both ranks, and steps. -/
def flightImage (crcs : Nat × Nat) (lands : Nat) (steps : List (List Byte)) : List Byte :=
  let h := padTo 252 ([0x46, 0x4C, 0x54, 0x49, 1, 0, 9, 0] ++ leBytes 8 0 ++ leBytes 2 0 ++ leBytes 2 2 ++ leBytes 2 2 ++ leBytes 2 2 ++ leBytes 2 lands ++
    leBytes 2 0 ++ leBytes 4 steps.length ++ leBytes 4 256 ++ leBytes 4 320 ++ leBytes 4 384 ++ leBytes 4 448 ++ leBytes 4 960 ++ leBytes 8 0 ++
    leBytes 4 crcs.1 ++ leBytes 4 (960 + 128 * steps.length))
  let b (a : Nat) : List Byte := padTo 32 ([3, 0, 0, 0] ++ leBytes 4 16 ++ leBytes 8 a ++ [0, 0, 0xFF, 0xFF])
  h ++ leBytes 4 crcs.2 ++ padTo 32 [4, 1] ++ padTo 32 ([4, 1] ++ leBytes 18 0 ++ [3]) ++ padTo 64 (leBytes 8 0 ++ [1, 0]) ++ b 0 ++ b 4096 ++
    padTo 512 [3] ++ steps.flatten

/-- One step of each kind: those that read take the first half of buffer 0, RECV its other half. -/
def allSteps : List (List Byte) :=
  [mkStep 1 0 8 1 0 0 [(0, 0, 0), (1, 0, 0)], mkStep 2 1 8 1 0 0 [(1, 0, 8)], mkStep 3 2 8 0 0 0 [(0, 0, 0), (2, 1, 0)],
    mkStep 4 3 8 0 0 0 [(0, 0, 0), (1, 1, 0)], mkStep 5 4 8 0 1 0 [(0, 0, 0)], mkStep 6 5 8 0 0 0 [(0, 0, 0), (1, 1, 0)],
    mkStep 7 6 0 0 0 0 [], mkStep 8 7 0 0 0 1 []]

/-- An image of one landing, and one of one signal with its two checks. -/
def landImage : List Byte := flightImage (0, 0) 1 [mkStep 7 0 0 0 0 0 []]
def goodImage : List Byte := flightImage (2157176802, 3429191356) 0 [mkStep 8 0 0 0 0 0 []]

/-- Accelerator profile 0, with a window of 64 KiB and a kind of doorbell (Table 02-6). -/
def profiled (s : State) (doorbell : Byte) : State := { s with str := { s.str with tabs := [(6, leBytes 4 0 ++ leBytes 8 65536 ++ [doorbell])] } }

/-- Slice 0 has position 0, which is present on port 0, and a flight ring. -/
def flying : State :=
  let s := work 6
  profiled (withEnv (s.setSlice 0 { s.slice 0 with cfg := 2 ^ 64 }) 80 1) 0

/-- A descriptor of a flight command for flight 9. -/
def flightD (opc : Nat) (more : List (Nat × Nat)) : Desc := dsc ([(0, 0x61), (4, opc), (6, 9)] ++ more)

/-- Flight 9 is in slot 63 in a state, with an image. -/
def loaded (img : List Byte) (st : FlightState) : State :=
  { flying with flights := [(63, { Flight.fresh 0 9 img with st := st, epoch := 100 })] }

/-- The tag and status of the last record. -/
def ending (t : State) : List Byte := (record t).take 5

/-- The flight of slot 63 holds something. -/
def flew (t : State) (p : Flight → Bool) : Bool := (t.flight 63).any p

/-- PTP is subordinate, and has not locked. -/
def subordinate (s : State) : State := { s with str := { s.str with env := s.str.env ++ List.replicate 143 0 ++ [2] } }

theorem flightImage_length (c : Nat × Nat) (n : Nat) : (flightImage c n [mkStep 8 0 0 0 0 0 []]).length = 1088 := by
  simp only [flightImage, padTo_length, List.length_append, leBytes_length, List.length_cons, List.length_nil, List.flatten_cons, List.flatten_nil, mkStep,
    List.length_replicate, List.flatMap_nil]
  decide

/-- The image is what LOAD reads. -/
theorem holding_reads (s : State) (img : List Byte) (hm : s.mem = []) :
    (holding s [(0x8000, img)]).mem.read ((s.slice 0).space.at 0x8000) img.length = img := by
  simp only [holding, List.foldl, hm]
  exact Mem.read_write [] _ img

set_option maxRecDepth 100000 in
theorem witness_FlightCommands_load :
    (holding flying [(0x8000, goodImage)]).mem.read ((flying.slice 0).space.at 0x8000) 1088 = goodImage ∧ flying.imageStatus 0 goodImage 9 = (stOk, 0xFFFF) ∧
      flying.flightOf 9 = none ∧ ((loaded [] .landed).flightOf 9).isSome ∧ flying.flight 0 = none ∧
      flying.reserveStatus 0 0 0 = stOk ∧ (Flight.fresh 0 9 goodImage).tierPages 0 = 0 ∧ (Flight.fresh 0 9 goodImage).tierPages 1 = 0 :=
  ⟨(flightImage_length (2157176802, 3429191356) 0) ▸ holding_reads flying goodImage rfl, by decide +kernel, by decide +kernel, by decide +kernel, by decide +kernel,
    by decide +kernel, by decide +kernel, by decide +kernel⟩

theorem witness_FlightCommands :
    fltDescOk (flightD 1 [(8, 0x8000), (16, 1088)]) = true ∧ fltDescOk (flightD 2 []) = true ∧ fltDescOk (flightD 3 []) = true ∧
    after (.load 1 (flightD 1 [(8, 0x8000), (16, 1088)])) flying (fun t => ending t == [0x61, 0, 0, 0, BitVec.ofNat 8 stImageInvalid]) ∧
    after (.load 1 (flightD 1 [(44, 1)])) flying (fun t => ending t == [0x61, 0, 0, 0, BitVec.ofNat 8 stCmdInvalid]) ∧
    after (.arm 1 (flightD 2 [])) flying (fun t => ending t == [0x61, 0, 0, 0, BitVec.ofNat 8 stFlightState]) ∧
    after (.arm 1 (flightD 2 [])) (subordinate (loaded landImage .loaded)) (fun t => ending t == [0x61, 0, 0, 0, BitVec.ofNat 8 stTimeUnlocked]) ∧
    ((loaded landImage .landed).timeState = .locked ∧ flying.bindsStatus 0 landImage [] = stOk ∧
      after (.arm 1 (flightD 2 [(20, 77)])) (loaded landImage .landed) (fun t => flew t fun f => f.st == .armed && f.epoch == 77 && f.armOp == 1)) ∧
    after (.unload 1 (flightD 3 [])) (loaded landImage .armed) (fun t => ending t == [0x61, 0, 0, 0, BitVec.ofNat 8 stFlightState]) ∧
    after (.unload 1 (flightD 3 [])) (loaded landImage .landed) (fun t => ending t == [0x61, 0, 0, 0, 0] && t.flights == []) ∧
    after (.flightEpochReached 63) (loaded landImage .armed) (fun t => t.now == 100 && flew t (·.st == .running)) ∧
    after (.fltCancel .stewardOther 0) flying (fun t => t.getF F.FLT_CANCEL_RESULT_RESULT == 3) := by decide +kernel

/-- Flight 9 runs every kind of step, with the program of its PROGRAM step resident. -/
def running : State :=
  let s := loaded (flightImage (0, 0) 1 allSteps) .running
  { s with gal := { s.gal with slots := [(7, ⟨2, 0, haltImage 7⟩)] } }

/-- A step of that flight is under way. -/
def stepping (j : Nat) (b : Bool) : State := running.updFlight 63 fun f => f.setStep j (.running b)

/-- The Gallery's command of a step. -/
def galStep (t : State) : List (Option (Nat × Nat) × Nat × Nat × Nat) := t.gal.cmds.map fun c => (c.step, c.kind, c.count, c.next)

/-- Its SEND has a unit left. -/
def sendingStep : State := (stepping 0 false).updFlight 63 fun f => { f with txLeft := [(0, 1, 0)] }

theorem witness_FlightSteps :
    (running.stepBegin 63 6 7 0).map State.now = some 100 ∧
    after (.stepRecv 63 1 500) running (fun t => t.now == 500 && flew t (·.stepSt 1 == .running false)) ∧
    (running.opdSpans 63 (Flight.fresh 0 9 (flightImage (0, 0) 1 allSteps)) (flStep (flightImage (0, 0) 1 allSteps) 0) ⟨0, 0, 1, 0⟩ = [(.accel 0, 0, 32)] ∧
      (running.stepBegin 63 0 1 0).isSome ∧ (running.flight 63).map (·.badCount 0) = some false ∧
      (sendingStep.flight 63).map (fun f => (look f.txLeft 0, sendingStep.stepReach 63 f 0,
        sendingStep.txFits (sendingStep.flightQueue f 1) (f.unitWire 1 32))) = some (some (1, 0), .ok, true)) ∧
    after (.stepReduce 63 2 0) running (fun t => galStep t == [(some (63, 2), 1, 8, 0)]) ∧
    after (.stepConvert 63 3 0) running (fun t => galStep t == [(some (63, 3), 2, 8, 0)]) ∧
    after (.stepProgram 63 4 0) running (fun t => galStep t == [(some (63, 4), 3, 8, 0)]) ∧
    after (.stepCopy 63 5 0) running (fun t => flew t (·.stepSt 5 == .running true)) ∧
    after (.stepLanding 63 6 0) running (fun t => flew t fun f => f.stepSt 6 == .running true && f.arrived == [(0, 0)] && t.flCtlNext == 1) ∧
    (running.accelUp 0 = true ∧ after (.stepSignalAccel 63 7 0) running (fun t => flew t (·.stepSt 7 == .running true))) ∧
    after (.stepComplete 63 5) (stepping 5 true) (fun t => flew t (·.stepSt 5 == .complete) && t.reg R.FLT_CNT_STEP_LO == 1) ∧
    after (.stepComplete 63 7) (stepping 7 true) (fun t => flew t (·.stepSt 7 == .complete)) ∧
    after (.stepComplete 63 0) (stepping 0 true) (fun t => flew t (·.stepSt 0 == .complete)) ∧
    after (.stepComplete 63 1) ((stepping 1 true).updFlight 63 fun f => { f with placed := [(1, 0, 32, 32, true)] }) (fun t => flew t (·.stepSt 1 == .complete)) ∧
    after (.stepComplete 63 6) ((stepping 6 true).updFlight 63 fun f => { f with arrived := [(0, 0), (0, 1)] }) (fun t => flew t (·.stepSt 6 == .complete)) ∧
    after (.stepComplete 63 0) ((loaded landImage .running).updFlight 63 fun f => { f with steps := [(0, .running true)], arrived := [(0, 0), (0, 1)] })
      (fun t => flew t (·.st == .landed)) := by decide +kernel

/-- A control message of a kind to device 1 waits for its acknowledgement. -/
def reporting (kind : Nat) : State := { running with flCtl := [⟨63, 9, 100, 0, 3, 8, 1, 0, kind, [], 0, 0, 200000000⟩] }

theorem witness_FlightControl :
    (running.waitingStep 63 0).isSome ∧ after (.lateLimitExpiry 63 0) running (fun t => flew t (·.st == .stalled) && t.now == 50000101) ∧
    after (.lateAbortExpiry 63 7) running (fun t => flew t (·.st == .aborted) && t.now == 2000000101) ∧
    after (.keepaliveTimer 63) running (fun t => flew t (·.st == .running)) ∧
    after (.keepaliveReceived 9 1 1) running (fun t => flew t (·.st == .aborted)) ∧
    after (.keepaliveReceived 9 1 0) running (fun t => flew t fun f => f.st == .running && look f.progress 1 == some 0) ∧
    after (.peerTimeout 63 1) running (fun t => flew t (·.st == .aborted) && t.up == 200000000) ∧
    after (.abortBroadcastReceived 9 100 1 0 .peerLost 1) running (fun t => flew t (·.st == .aborted) && t.getF F.FLT_CNT_ABORT_RX_COUNT == 1) ∧
    after (.abortBroadcastReceived 9 101 1 0 .peerLost 1) running (fun t => flew t (·.st == .running)) ∧
    after (.abortRepeatTimer 63) (reporting 1) (fun t => t.flCtl.length == 1) ∧
    after (.abortRepeatTimer 63) { reporting 1 with time := { running.time with up := 200000001 } } (fun t => t.flCtl == []) ∧
    after (.reportRepeatTimer 63) (reporting 2) (fun t => t.flCtl.length == 1) ∧
    after (.reportRepeatTimer 63) running (fun t => t.flights == running.flights) ∧
    (running.flightRun 9 100).isSome ∧
    after (.arrivalReportReceived 9 100 1 0 0 [1]) running (fun t => flew t (·.arrived == [(0, 1)])) ∧
    after (.arrivalReportReceived 9 100 1 0 0 [1]) (running.updFlight 63 fun f => { f with seen := [(1, 0)] }) (fun t => flew t (·.arrived == [])) ∧
    after (.arrivalReportReceived 9 101 1 0 0 [1]) running (fun t => flew t (·.arrived == [])) ∧
    after (.controlAckReceived 9 1 0) (reporting 2) (fun t => t.flCtl == []) ∧
    after (.controlAckReceived 8 1 0) (reporting 2) (fun t => t.flCtl.length == 1) := by decide +kernel

theorem witness_FlightDataAndDoorbells :
    after (.flightWriteReceived 8 1 0 0 100 [1] false) running (fun t => t.getF F.FLT_CNT_DROP_COUNT == 1) ∧
    after (.flightWriteReceived 9 1 2 0 100 [1] false) running (fun t => t.getF F.FLT_CNT_DROP_COUNT == 1) ∧
    after (.flightWriteReceived 9 1 1 64 100 [1] false) running (fun t => t.getF F.FLT_CNT_DROP_COUNT == 1) ∧
    after (.flightWriteReceived 9 1 1 63 100 [5] true) running (fun t =>
      t.mem.read ((Space.accel 0).at (4096 + 63)) 1 == [5] && flew t (·.placed == [(1, 1, 63, 1, true)])) ∧
    after (.flightWriteReceived 9 1 1 63 100 [5] false) running (fun t => flew t (·.placed == [(1, 1, 63, 1, false)])) ∧
    (running.pageAnswers 0 0 0 = true ∧ after (.flightDoorbell 0 0 0 7) running (fun t => (t.slice 0).dbReject == 1) ∧
      running.accelDoorbell 0 = 0 ∧ after (.flightDoorbell 0 0 0 0) running (fun t => flew t (·.doorbells == [(0, 1)]))) ∧
    ((profiled running 1).accelPresent 0 = true ∧ (profiled running 1).accelDoorbell 0 = 1 ∧ after (.flightDoorbell 0 0 0 0) (profiled running 1)
      (fun t => flew t (·.doorbells == [])) ∧ after (.accelCounterRise 0 5) ((profiled running 1).updFlight 63 fun f => { f with counters := [(0, 3)] })
      (fun t => flew t (·.doorbells == [(0, 2)]) && t.mem.read ((Space.accel 0).at 0) 1 == [5])) := by decide +kernel

/-! ### Stewards and the module -/

/-- Core 31 has a state, and has crashed at times. -/
def cored (st : Nat) (crashes : List Nat) : State :=
  { withF live [(F.STW_CORE_STATE 31, st)] with stw := { live.stw with crashes := crashes.map fun t => (31, t) } }

theorem witness_CoreCrashesAndRestarts :
    live.fwOn = true ∧ live.coreSt 31 = 0 ∧
    after (.coreCrash 31 4) (cored 0 [0]) (fun t => t.coreSt 31 == 1 && t.getF (F.STW_CORE_LAST_CAUSE 31) == 4 && t.getF (F.STW_CORE_CRASHES 31) == 2) ∧
    after (.coreCrash 31 1) (cored 0 [0, 0]) (fun t => t.coreSt 31 == 2) ∧
    after (.watchdogExpiry 31) (cored 0 []) (fun t => t.coreSt 31 == 1 && t.getF (F.STW_CORE_LAST_CAUSE 31) == 1) ∧
    after (.coreRestartTimeout 31) (withF (cored 1 []) [(F.STW_CORE_LAST_CAUSE 31, 2)]) (fun t => t.getF (F.STW_CORE_CRASHES 31) == 1) ∧
    (cored 1 []).coreSt 31 = 1 ∧ (cored 1 []).getF (F.STW_CORE_CRASHES 31) = 0 ∧
    (withF (cored 1 []) [(F.STW_CORE_CRASHES 31, 1)]).coreSt 31 = 1 ∧ (withF (cored 1 []) [(F.STW_CORE_CRASHES 31, 1)]).getF (F.STW_CORE_CRASHES 31) = 1 ∧
    takes (cored 0 []) R.STW_CORE_CTRL ∧ after (.coreRestart .stewardMachine 31) (cored 0 []) (fun t => t.coreSt 31 == 1) ∧
    takes (cored 2 []) R.STW_CORE_CTRL ∧ after (.coreRelease .stewardMachine 31) (withF (cored 2 []) [(F.STW_WING_STATE_HELD 3, 128)]) (fun t =>
      t.coreSt 31 == 1 && t.getF (F.STW_WING_STATE_HELD 3) == 0) ∧
    after (.coreRelease .stewardMachine 31) (cored 0 []) (fun t => t.coreSt 31 == 0) := by decide +kernel

theorem witness_LostWingIsFatal :
    (withF (cored 0 [0, 0]) [(F.STW_WING_STATE_HELD 3, 127)]).getF (F.STW_WING_STATE_HELD 3) ||| 2 ^ 7 = 255 ∧
    after (.coreCrash 31 3) (withF (cored 0 [0, 0]) [(F.STW_WING_STATE_HELD 3, 127)]) (fun t =>
      t.dev.st == .fatal && t.getF F.ERR_FATAL_REASON == 3 * 256 + 5) := by decide +kernel

/-- Firmware runs with no stream, slot 1 is valid, and a firmware command is under way in a phase. -/
def updating (c : Option FwCmd) (phase : Nat) : State :=
  { withF bus [(F.STW_FW_BOOT_B_VALID, 1), (F.STW_FW_RESULT_PHASE, phase)] with dev := { bus.dev with stream := false }, stw := { bus.stw with fw := c } }

/-- H0 is paused. -/
def halted : State := withF bus [(F.STR_HALL_PAUSED 0, 1)]

theorem witness_FirmwareUpdates :
    takes bus R.STW_FW_CMD ∧ after (.writeFw .stewardMachine 1 true) bus (fun t => t.stw.fw == some ⟨1, 1, [], 0, []⟩ && t.getF F.STW_FW_RESULT_PHASE == 3) ∧
    after (.writeFw .stewardMachine 0 true) bus (fun t => t.getF F.STW_FW_RESULT_RESULT == 6) ∧
    after (.writeFw .stewardMachine 1 true) (bus.setReg R.STW_FW_LEN (2 ^ 24 + 1)) (fun t => t.getF F.STW_FW_RESULT_RESULT == 3) ∧
    after (.fwSlotWritten true) (updating (some ⟨1, 1, [], 0, []⟩) 3) (fun t => t.getF F.STW_FW_RESULT_RESULT == 0 && t.fwValid 1) ∧
    after (.fwSlotWritten false) (updating (some ⟨1, 1, [], 0, []⟩) 3) (fun t => t.getF F.STW_FW_RESULT_RESULT == 3) ∧
    takes (updating none 0) R.STW_FW_CMD ∧ after (.activate .stewardMachine 1 8 true) (updating none 0) (fun t =>
      t.stw.fw == some ⟨2, 1, [3], 0, []⟩ && t.getF F.STW_FW_RESULT_WING == 3) ∧
    after (.activate .stewardMachine 1 0 true) (updating none 0) (fun t => t.getF F.STW_FW_RESULT_RESULT == 0 && t.getF F.STW_STATUS_FW_DONE == 1) ∧
    after (.activate .stewardMachine 0 8 true) (updating none 0) (fun t => t.getF F.STW_FW_RESULT_RESULT == 6) ∧
    after .wingDrainDone (updating (some ⟨2, 1, [3], 0, []⟩) 4) (fun t => t.wingSlot 3 == 1 && t.coreSt 24 == 3) ∧
    after .wingLoadDone (updating (some ⟨2, 1, [3], 0, []⟩) 4) (fun t => t.stw.fw == some ⟨2, 1, [3], 0, []⟩) ∧
    (updating (some ⟨2, 1, [3], 0, []⟩) 6).getF F.STW_FW_RESULT_PHASE = 6 ∧ (updating (some ⟨2, 1, [3, 0], 0, []⟩) 6).stw.fw = some ⟨2, 1, [3, 0], 0, []⟩ ∧
    after (.writeFw .stewardMachine 1 true) halted (fun t => t.held == [.writeFw .stewardMachine 1 true]) ∧
    takes (updating none 0) R.STW_FW_BOOT ∧ after (.stwFwBootWrite .stewardMachine 1) (updating none 0) (fun t => t.getF F.STW_FW_BOOT_SLOT == 1) ∧
    after (.stwFwBootWrite .stewardMachine 1) bus (fun t => t == bus) := by decide +kernel

/-- A log copy of wing 3 is under way, whose log has one record. -/
def copying (addr : Nat) : State :=
  { bus.setReg (R.STW_LOG_HEAD 3) 1 with stw := { bus.stw with copy := some ⟨3, 0, 4, addr, 0⟩, logs := [(3, [List.replicate 64 7])] } }

/-- Telemetry is on, into ring 1 of port 0, which is bound where asked. -/
def metered (bound : Bool) : State :=
  let s := withF bus [(F.STW_TEL_CTRL_EN, 1), (F.STW_TEL_CTRL_RING, 1)]
  if bound then { s with rings := [(0, mkRing 0x8000 3 0xFFFF 0 0), (1, mkRing 0x8000 9 0 4096 1)], ops := [⟨1, 1, 0x8000, 3, 5, dsc [(0, 5), (4, 2), (8, 131072), (16, 65536)], 0, false, false, false, none⟩] } else s

theorem witness_LogsAndTelemetry :
    bus.writeAt .stewardMachine R.STW_LOG_CTRL = some bus ∧
    after (.logCopy .stewardMachine 3 65535) bus (fun t => t.stw.copy == some ⟨3, 0, 65535, 0, 0⟩ && t.getF F.STW_LOG_RESULT_ACTIVE == 1) ∧
    after (.logCopy .stewardMachine 3 1) (copying 64) (fun t => t.getF F.STW_LOG_RESULT_RESULT == 1) ∧
    after .logCopyDone (copying 63) (fun t => t.getF F.STW_LOG_RESULT_RESULT == 3) ∧
    after .logCopyDone (copying 64) (fun t => t.getF F.STW_LOG_RESULT_RESULT == 0 && t.getF F.STW_LOG_COPIED_RECORDS == 1 &&
      t.mem.read ((Space.pf0 0).at 64) 64 == List.replicate 64 7) ∧
    after (.telemetryPeriod 1 2 3 4 255) { metered false with dev := { bus.dev with st := .shedding, shed := 1 } } (fun t =>
      t.getF (F.HBM_STACK_TEMP 3) == 255 && t.stw.tel.skipped == 1) ∧
    after (.telemetryPeriod 1 2 3 4 5) (metered false) (fun t => t.getF F.STW_CNT_TEL_DROP_COUNT == 1) ∧
    ((metered true).isRxRing 1 = true ∧ (metered true).coreServes 4 0 = true ∧ ((metered true).fillBuffer 1 false 0 [] 0xFFFFFFFE 0xFF 0 0).isSome) ∧
    after (.telemetryPeriod 1 2 3 4 5) halted (fun t => t.held.length == 1) ∧ halted.stw.copy = none ∧
    after (.telemetryPeriod 1 2 3 4 5) (metered true) (fun t => (t.ring 0).map (·.fi) == some 1) := by decide +kernel

/-- The management bus has an address. -/
def addressed (s : State) : State := { s with mio := { s.mio with dynAddr := some 8 } }

theorem witness_ModuleEndpoints :
    after (.setdasa 127) State.reset (fun t => t.mio.dynAddr == some 127) ∧ after (.entdaa 127) State.reset (fun t => t.mio.dynAddr == some 127) ∧
    after (.setdasa 1) (addressed live) (fun t => t == addressed live) ∧ after (.entdaa 1) (addressed live) (fun t => t == addressed live) ∧
    after (.mctpControl 1 9) (addressed (inState live .standby)) (fun t => t.mio.eid == 9 && t.outbox.length == 1) ∧
    after (.pldmRequest 2 0x11 1) (addressed live) (fun t => t.outbox == [.msg 4 17 [2, 0x11, 0, 1, 1, 0, 0]]) ∧
    after (.pldmRequest 2 0x11 5) (addressed (inState live .standby)) (fun t => t.outbox == [.msg 4 17 [2, 0x11, 0, 5, 0]]) ∧
    after (.pldmRequest 4 2 0) (addressed live) (fun t => t.outbox.length == 1) ∧
    (live.sensorOn 8 = true ∧ live.sensorFits 8 2 = true ∧
      after (.sensorThresholdCrossing 8 2) (addressed live) (fun t => t.dev.st == .fatal && t.getF F.ERR_FATAL_REASON == 8 * 256 + 9)) ∧
    after (.sensorThresholdCrossing 8 1) (addressed live) (fun t => t.dev.st == .ready && t.outbox == [.msg 4 18 [8, 0, 1]]) ∧
    after (.jtagInstruction 0) live (fun t => t.outbox == [.msg 5 0 [jtagId]]) ∧ after (.jtagInstruction 1) live (fun t => t.mio.tapIr == 1) ∧
    after (.jtagInstruction 2) live (fun t => t.mio.tapIr == 1) ∧
    after (.jtagInstruction 255) (withF live [(F.SIG_DBG_RESULT_LEVEL, 1)]) (fun t => t.mio.tapIr == 255) ∧
    after (.jtagTrst true) live (fun t => t.mio.tapReset && t.mio.tapIr == 0) := by decide +kernel

/-! ### The RTE -/

/-- A QP attribute block of a mode with a target (Table 06-11): port 0, one path, peer QP 7, send ring 1, receive ring 2, completion ring 0, PSNs 0. -/
def attrs (mode target : Nat) : List Byte :=
  padTo 128 (leBytes 1 mode ++ leBytes 1 target ++ [0, 1] ++ leBytes 4 7 ++ leBytes 2 1 ++ leBytes 2 2 ++ leBytes 4 0 ++ [4, 0] ++ leBytes 2 0xC000 ++
    leBytes 44 0 ++ leBytes 3 0 ++ [1] ++ leBytes 3 0 ++ [0, 2, 2, 0, 1, 1])

/-- A sprayed QP of slice 0 in a state. -/
def mkQp (st : Nat) : Qp := { Qp.fresh 0 1 with st := st, attr := attrs 1 st, paths := [⟨1000, 0, 0, false, false, none⟩] }

/-- A key of slice 0 with every right, over 4 KiB of its host memory from 0x5000: index 1, tag 2. -/
def mkKey : Key := ⟨2, 1, 0, 1, 0, 0, 0x5000, 4096, 31, true, false, none⟩

/-- Slice 0 has its quotas and port 0, with send ring 1, receive ring 2 and control ring 3, each with one entry, QP 5 and key 258. -/
def rdma (q : Qp) : State :=
  let s := work 1
  { s.setSlice 0 { s.slice 0 with cfg := 2 ^ 80 + 2 ^ 100 + 2 ^ 132 + 2 ^ 164 } with
    rings := s.rings ++ [(2, mkRing 0 2 0xFFFF 8192 1), (3, mkRing 0 4 0 12288 1)],
    rte := { s.rte with qps := [(5, q)], keys := [(1, mkKey)] } }

/-- A packet for QP 5 that carries four bytes for the first address of key 258. -/
def mkPacket (op : PktOp) (psn : Nat) : Pkt :=
  { port := 0, sprayed := true, qpn := 5, op := op, psn := psn, path := 0, ce := false, icrcOk := true, vaddr := 0, key := 258, msgOffset := 0,
    msgLen := 8, fence := false, first := true, last := false, solicited := false, imm := 0, argA := 0, argB := 0, placed := [], nak := none,
    payload := [1, 2, 3, 4] }

/-- The QP 5 holds something. -/
def qpHas (t : State) (p : Qp → Bool) : Bool := (t.qp 5).any p

/-- A packet sent and not acknowledged. -/
def sentPkt (tries : Nat) : SentPkt := ⟨0, .write, 1, true, 1, 0, [0, 0, 0, 0, 0, 0], [], 0, 0, 0, 0, 0, false, tries, tries, false⟩

theorem witness_RdmaPackets :
    (rdma (mkQp 3)).hallPaused 5 = false ∧ (((rdma (mkQp 3)).bufferedApply 10 0).bufferedApply 10 1).shedAt 4 = false ∧
    after (.packetReceive (mkPacket .unknown 0)) (rdma (mkQp 3)) (fun t => t.getF F.RTE_CNT_RX_DROP_COUNT == 1 && t.reg R.RTE_CNT_RX_LO == 1) ∧
    after (.packetReceive (mkPacket .write 0)) (rdma (mkQp 1)) (fun t => t.getF F.RTE_CNT_RX_DROP_COUNT == 1) ∧
    after (.sackReceived { mkPacket .ack 0 with qpn := 6 }) (rdma (mkQp 3)) (fun t => t.getF F.RTE_CNT_RX_DROP_COUNT == 1) ∧
    after (.packetReceive (mkPacket .write 0)) (rdma { mkQp 3 with resident := false }) (fun t => qpHas t (·.fetching) && t.rte.miss.length == 1) ∧
    after (.sackReceived { mkPacket .ack 0 with argA := 1 }) (rdma { mkQp 3 with unacked := [sentPkt 0], nextPsn := 1, order := 1 }) (fun t =>
      qpHas t fun q => q.edge == 1 && q.unacked == []) ∧
    after (.nakReceived { mkPacket .nak 0 with nak := some .invalidRequest }) (rdma (mkQp 3)) (fun t => qpHas t (·.st == 5)) ∧
    after (.nakReceived { mkPacket .nak 0 with nak := some (.rnr 10) }) (rdma (mkQp 3)) (fun t => qpHas t fun q => q.waitRnr && q.rnrTries == 1) ∧
    after (.cnpReceived (mkPacket .cnp 0)) (rdma (mkQp 3)) (fun t => t.getF F.RTE_CNT_CNP_RX_COUNT == 1) ∧
    after (.packetReceive (mkPacket .write 0)) (rdma (mkQp 2)) (fun t => qpHas t (·.v == 1) && t.mem.read ((t.slice 0).space.at 0x5000) 4 == [1, 2, 3, 4]) ∧
    after (.packetReceive { mkPacket .write 0xFFFFFF with vaddr := 4093 }) (rdma { mkQp 3 with v := 0xFFFFFF }) (fun t =>
      qpHas t fun q => q.st == 5 && q.v == 0xFFFFFF && q.nak == some (.status stBounds)) ∧
    after (.packetReceive (mkPacket .write 0x800000)) (rdma (mkQp 3)) (fun t => qpHas t (fun q => q.v == 0 && q.arrived == []) && t.mem == []) ∧
    after (.packetReceive (mkPacket .write 1024)) (rdma (mkQp 3)) (fun t => t.getF F.RTE_CNT_RX_DROP_COUNT == 1 && qpHas t (·.arrived == [])) := by
  decide +kernel

/-- QP 5 waits for its context, QP 6 with a packet sent holds one, and `n` others hold one each for packets not reported. -/
def cacheOf (n : Nat) : State :=
  let s := rdma (mkQp 3)
  { s with rte := { s.rte with
      qps := (5, { mkQp 3 with resident := false, fetching := true }) :: (6, { mkQp 3 with unacked := [sentPkt 0] }) ::
        List.replicate n (7, { mkQp 3 with unreported := 1 }) } }

theorem cacheOf_resident (n : Nat) : ((cacheOf n).rte.qps.filter (·.2.resident)) = (6, { mkQp 3 with unacked := [sentPkt 0] }) ::
    List.replicate n (7, { mkQp 3 with unreported := 1 }) := by
  simp [cacheOf, mkQp, Qp.fresh]

theorem cacheOf_unpinned (n : Nat) : (((cacheOf n).rte.qps.filter (·.2.resident)).filter fun e => !(cacheOf n).pinned e.1 e.2) = [] := by
  rw [cacheOf_resident]
  simp [State.pinned]

/-- The context cache can be full of pinned QPs. -/
theorem cacheOf_makeRoom : (cacheOf (ctxSlots - 1)).makeRoom = none := by
  unfold State.makeRoom
  dsimp only
  rw [cacheOf_unpinned, cacheOf_resident]
  simp only [List.length_cons, List.length_replicate]
  decide

theorem cacheOf_oldest (n : Nat) :
    oldest ((cacheOf n).rte.qps.filter fun e => e.2.resident && e.2.unreported == 0 && !(cacheOf n).fenceWaits e.1) = some 6 := by
  have h : (cacheOf n).fenceWaits 6 = false := rfl
  simp [cacheOf, mkQp, Qp.fresh, oldest, sortBy] at h ⊢
  simp [h, insertBy]

/-- QP 1, keys and packets that wait. -/
def rteOf (keys : List (Nat × Key)) (miss : List (Pkt × MissWhy)) : State :=
  { rdma (mkQp 3) with rte := { (rdma (mkQp 3)).rte with qps := [(1, mkQp 3)], keys := keys, miss := miss } }

theorem witness_RdmaTimersAndFetches :
    after (.sackIntervalExpiry 5) (rdma { mkQp 3 with unreported := 3 }) (fun t => qpHas t (·.unreported == 0)) ∧
    after (.recoveryTimerExpiry 5 0) (rdma (mkQp 3)) (fun t => qpHas t fun q => q.paths.length == 1) ∧
    after (.rtoExpiry 5 0) (rdma { mkQp 3 with unacked := [sentPkt 2], nextPsn := 1 }) (fun t => qpHas t (·.st == 5)) ∧
    after (.rtoExpiry 5 0) (rdma { mkQp 3 with unacked := [sentPkt 1], nextPsn := 1 }) (fun t => qpHas t fun q => q.unacked.map (·.tries) == [2]) ∧
    after (.suspectProbeTimer 5 0) (rdma { mkQp 3 with paths := [⟨1000, 0, 3, true, false, none⟩] }) (fun t => qpHas t fun q => q.paths.map (·.probe) == [true]) ∧
    after (.rnrTimerExpiry 5) (rdma { mkQp 3 with waitRnr := true }) (fun t => qpHas t (!·.waitRnr)) ∧
    after (.pushReadDone 5 7) (rdma { mkQp 3 with pushing := [7] }) (fun t => qpHas t (·.pushing == [])) ∧
    after (.contextFetchDone 5) (rdma { mkQp 3 with resident := false, fetching := true }) (fun t => qpHas t fun q => q.resident && !q.fetching) ∧
    after (.contextFetchFault 5) (rdma { mkQp 3 with resident := false, fetching := true }) (fun t => qpHas t (·.st == 5) && t.getF F.RTE_STATUS_CTX_FAULT == 1) ∧
    after (.keyFetchDone 1) (rteOf [(1, { mkKey with fetching := true, cached := false })] []) (fun t => (look t.rte.keys 1).any (·.cached)) ∧
    after (.revokeDrainDone 1) (rteOf [(1, { mkKey with st := 2 })] []) (fun t => t.rte.keys == []) ∧
    after (.missHoldTimeout 0) (rteOf [] [(mkPacket .write 0, .fence)]) (fun t => t.rte.miss == [] && t.getF F.RTE_CNT_HOLD_DROP_COUNT == 1) ∧
    after (.missHoldTimeout 0) (rteOf [] [(mkPacket .write 0, .key 1)]) (fun t => t.rte.miss == [] && t.getF F.RTE_CNT_MISS_DROP_COUNT == 1) := by
  decide +kernel

/-- A work request of an opcode with a length, over key 258. -/
def wqe (opc len : Nat) : Desc := dsc [(0, 0x71), (4, opc), (8, len), (12, 258)]

/-- The work request of an opcode starts. -/
def starts (c : Instr) (opc : Nat) : Bool := after c (rdma (mkQp 3)) (fun t => qpHas t fun q => q.work.map (·.opcode) == [opc])

/-- Accelerator position 0 has counted to 5, and operation 1 of ring 1 waits for its counter to reach a threshold. -/
def waiting (threshold : Nat) : State :=
  let rs := [(0, mkRing 0 3 0xFFFF 0 0), (1, { mkRing 0 6 0 4096 1 with st := 3, fi := 1 })]
  let s := { flying with clasps := [⟨1, 1, 0, 1, 0, threshold⟩], ops := [{ op1 with committed := false }], rings := rs }
  { s with mem := Mem.write [] ((Space.accel 0).at 0) [5] }

theorem witness_RdmaWorkRequests :
    ((rdma (mkQp 3)).sqOf 1).map (·.1) = some 5 ∧ ((rdma (mkQp 3)).rqOf 2).map (·.1) = some 5 ∧ (rdma (mkQp 3)).sendReady (mkQp 3) (wqe 1 4) = true ∧
    starts (.send 1 (wqe 1 4)) 1 ∧ starts (.sendImm 1 (wqe 2 4)) 2 ∧ starts (.write 1 (wqe 3 4)) 3 ∧ starts (.writeImm 1 (wqe 4 0)) 4 ∧
    starts (.read 1 (wqe 5 4)) 5 ∧ starts (.fetchAdd 1 (wqe 6 8)) 6 ∧ starts (.cmpSwap 1 (wqe 7 8)) 7 ∧
    after (.send 1 (wqe 1 4)) (rdma { mkQp 3 with resident := false }) (fun t => qpHas t (·.fetching)) ∧
    after (.send 1 (wqe 1 4)) (rdma (mkQp 5)) (fun t => ending t == [0x71, 0, 0, 0, BitVec.ofNat 8 stFlushed]) ∧
    after (.send 1 (wqe 1 4 ||| dsc [(60, 1)])) (rdma (mkQp 3)) (fun t => ending t == [0x71, 0, 0, 0, BitVec.ofNat 8 stWqeInvalid]) ∧
    after (.send 1 (wqe 1 4097)) (rdma (mkQp 3)) (fun t => qpHas t (·.st == 5)) ∧
    after (.recv 2 (wqe 8 4)) (rdma (mkQp 1)) (fun t => qpHas t (·.recvs == [1])) ∧
    after (.recv 2 (wqe 8 4)) (rdma (mkQp 5)) (fun t => ending t == [0x71, 0, 0, 0, BitVec.ofNat 8 stFlushed]) ∧
    after (.recv 2 (wqe 1 4)) (rdma (mkQp 3)) (fun t => ending t == [0x71, 0, 0, 0, BitVec.ofNat 8 stWqeInvalid]) ∧
    (live.writeAt .stewardOther R.RTE_CANCEL_CTRL).isSome ∧
    after (.rteCancel .stewardOther 0) ((rdma (mkQp 3)).setReg R.RTE_CANCEL_TAG 9) (fun t => t.getF F.RTE_CANCEL_RESULT_RESULT == 3) ∧
    ((rdma (mkQp 3)).waitRing 1 = true ∧ waitOk (dsc [(0, 9), (4, 15), (16, 5)]) = true ∧
      after (.claspWait 1 (dsc [(0, 9), (4, 15), (16, 5)])) (rdma (mkQp 3)) (fun t => t.clasps.length == 1 && (t.ring 1).map (·.st) == some 3) ∧
      after (.claspWait 1 (dsc [(0, 9), (4, 15)])) (rdma (mkQp 3)) (fun t => ending t == [9, 0, 0, 0, 0]) ∧
      after (.claspWait 1 (dsc [(0, 9), (4, 15), (8, 7)])) (rdma (mkQp 3)) (fun t => ending t == [9, 0, 0, 0, BitVec.ofNat 8 stRights]) ∧
      after (.claspWait 1 (dsc [(0, 9), (4, 15), (6, 2)])) (rdma (mkQp 3)) (fun t => ending t == [9, 0, 0, 0, BitVec.ofNat 8 stWqeInvalid])) ∧
    (((waiting 6).waitOf 1).isSome ∧ (waiting 6).accelUp 0 = true ∧ (waiting 6).accelCounter 0 = 5 ∧
      after (.claspPoll 1 true) (waiting 6) (· == waiting 6) ∧ after (.claspPoll 1 true) (waiting 5) (fun t => ending t == [0x51, 0, 0, 0, 0]) ∧
      after (.claspPoll 1 false) (waiting 6) (fun t => ending t == [0x51, 0, 0, 0, BitVec.ofNat 8 stClaspFault] && t.clasps == []) ∧
      after (.claspTimeout 1) (waiting 6) (fun t => ending t == [0x51, 0, 0, 0, BitVec.ofNat 8 stClaspTimeout] && t.getF F.SLC_CNT_CLASP_TIMEOUT == 1)) := by
  decide +kernel

/-- A control command for QP 5, its attribute block at 0x6000. -/
def ctl (opc : Nat) (more : List (Nat × Nat)) : Desc := dsc ([(0, 0x72), (4, opc)] ++ more)

/-- An attribute block at 0x6000. -/
def withAttrs (q : Qp) (b : List Byte) : State := holding (rdma q) [(0x6000, b)]

/-- MODIFY_QP takes QP 5 from a state to a target with a status. -/
def modified (q : Qp) (target st : Nat) : Bool :=
  after (.modifyQp 3 (ctl 0x11 [(40, 0x6000), (56, 5)])) (withAttrs q (attrs 1 target)) (fun t => ending t == [0x72, 0, 0, 0, BitVec.ofNat 8 st] &&
    qpHas t fun g => g.st == if st = stOk then target else q.st)

/-- A command of the control ring ends with a status. -/
def controls (c : Instr) (s : State) (st : Nat) : Bool := after c s (fun t => ending t == [0x72, 0, 0, 0, BitVec.ofNat 8 st])

theorem witness_RdmaControlCommands :
    controls (.createQp 3 (ctl 0x10 [(8, 1)])) (rdma (mkQp 3)) stWqeInvalid ∧ (rdma (mkQp 3)).qpsUsed 0 < ((rdma (mkQp 3)).slice 0).qpQuota ∧ (rdma (mkQp 3)).rte.qps.length < ctxSlots ∧
    controls (.createQp 3 (ctl 0x10 [(40, 0x6000)])) (holding (rdma (mkQp 3)) [(0x6000, [2])]) stWqeInvalid ∧
    controls (.createQp 3 (ctl 0x10 [])) ((rdma (mkQp 3)).setSlice 0 { (rdma (mkQp 3)).slice 0 with cfg := 0 }) stRteQuota ∧
    controls (.modifyQp 3 (ctl 0x11 [])) (rdma (mkQp 3)) stQpState ∧
    controls (.queryQp 3 (ctl 0x12 [(56, 5)])) (rdma { mkQp 3 with slice := 1 }) stQpState ∧
    modified (mkQp 3) 6 stWqeInvalid ∧ modified (mkQp 3) 2 stQpState ∧ modified (mkQp 3) 0 stOk ∧ modified (mkQp 0) 1 stOk ∧
    modified (mkQp 1) 2 stOk ∧ modified (mkQp 2) 3 stOk ∧ modified (mkQp 3) 4 stOk ∧ modified (mkQp 4) 3 stOk ∧ modified (mkQp 1) 5 stOk ∧
    after (.modifyQp 3 (ctl 0x11 [(40, 0x6000), (56, 5)])) (withAttrs { mkQp 3 with work := [⟨1, 3, true, 0, 1, 4, 0, false, none⟩] } (attrs 1 4)) (fun t =>
      qpHas t fun g => g.st == 4 && g.sqdOps == [(1, [1])]) ∧
    controls (.modifyQp 3 (ctl 0x11 [(40, 0x6000), (56, 5)])) (holding (rdma (mkQp 0)) [(0x6000, [0, 1])]) stWqeInvalid ∧
    controls (.modifyQp 3 (ctl 0x11 [(40, 0x6000), (56, 5)])) (holding (rdma (mkQp 1)) [(0x6000, [0, 2])]) stWqeInvalid ∧
    controls (.modifyQp 3 (ctl 0x11 [(40, 0x6000), (56, 5)])) (holding (rdma (mkQp 0)) [(0x6000, (attrs 1 1).set 2 1)]) stRights ∧
    controls (.queryQp 3 (ctl 0x12 [(40, 0x7000), (56, 5)])) (rdma (mkQp 3)) stOk ∧
    controls (.destroyQp 3 (ctl 0x13 [(56, 5)])) (rdma (mkQp 3)) stQpState ∧ controls (.destroyQp 3 (ctl 0x13 [(56, 5)])) (rdma (mkQp 5)) stOk ∧
    controls (.regMr 3 (ctl 0x14 [(48, 2 ^ 40 * 3)])) (rdma (mkQp 3)) stWqeInvalid ∧
    controls (.regMr 3 (ctl 0x14 [(24, 2 ^ 64 - 1), (40, 2), (48, 2 ^ 40)])) (rdma (mkQp 3)) stBounds ∧
    (rdma (mkQp 3)).regionStatus 0 1 0 0 0 4096 = stOk ∧ (rdma (mkQp 3)).keysUsed 0 < ((rdma (mkQp 3)).slice 0).keyQuota ∧
    controls (.regMr 3 (ctl 0x14 [(40, 4096), (48, 2 ^ 40)])) ((rdma (mkQp 3)).setSlice 0 { (rdma (mkQp 3)).slice 0 with cfg := 0 }) stRteQuota ∧
    controls (.deregMr 3 (ctl 0x15 [(12, 512)])) (rdma (mkQp 3)) stKeyInvalid ∧ controls (.deregMr 3 (ctl 0x15 [(12, 257)])) (rdma (mkQp 3)) stKeyInvalid ∧
    controls (.deregMr 3 (ctl 0x15 [(12, 258)])) { rdma (mkQp 3) with rte := { (rdma (mkQp 3)).rte with keys := [(1, { mkKey with st := 2 })] } }
      stKeyRevoked ∧
    after (.deregMr 3 (ctl 0x15 [(12, 258)])) (rdma (mkQp 3)) (fun t => (look t.rte.keys 1).any fun k => k.st == 2 && k.deregOp == some 1) := by
  decide +kernel

/-! ### Placement -/

/-- An object of slice 0 with tag 2 and two pages: ceiling, floor, copies, quarantine, and its page 0. -/
def mkObj (c f copies : Nat) (discord : Bool) (g : List TPage) : TObj := ⟨2, 0, 2, 0, c, f, false, 0, copies, if copies = 2 then 1 else 0, discord, g.map fun g => (0, g)⟩

/-- A page with a frame of T1 and a heat. -/
def inT1 : TPage := { TPage.fresh with loc := some (1, 5), heat := 9 }

/-- Slice 0 has a placement ring and eight pages of every tier; T0 has one frame; object 1 is the one given; four bytes stand at 0x6000 of its memory. -/
def tiered (x : TObj) : State :=
  let s := work 7
  let s := holding (s.setSlice 0 { s.slice 0 with cfg := ((List.range 5).map fun t => 8 * 2 ^ (8 * (24 + 4 * t))).sum }) [(0x6000, [1, 2, 3, 4])]
  { s.setReg R.PLC_POOL_T0_TOTAL 1 with plc := { s.plc with objs := [(1, x)] } }

/-- That state with an object that nothing is odd about. -/
def plain : State := tiered (mkObj 0 1 1 false [inT1])

/-- A placement descriptor of an opcode. -/
def plcD (opc : Nat) (more : List (Nat × Nat)) : Desc := dsc ([(0, 0x73), (4, opc)] ++ more)

/-- A placement command ends with a status. -/
def placed (c : Instr) (s : State) (st : Nat) : Bool := after c s (fun t => ending t == [0x73, 0, 0, 0, BitVec.ofNat 8 st])

/-- The object 1 is something. -/
def objIs (t : State) (p : TObj → Bool) : Bool := (t.obj 1).any p

/-- A pool of T2 of slice 0 with one page. -/
def pooled (s : State) : State := { s with plc := { s.plc with pools := [(0, ⟨2, 0, 0, 0, 1, 0⟩)] } }

/-- A pool of T4 of slice 0 with one page on backend endpoint 3. -/
def pooled4 (s : State) : State := { s with plc := { s.plc with pools := [(0, ⟨4, 3, 0, 0, 1, 0⟩)] } }

/-- A pool block of one page of T2 (Table 07-7). -/
def poolBlock : List Byte := leBytes 8 2 ++ leBytes 8 0 ++ leBytes 8 (2 ^ 21)

/-- A page of object 1 at aperture page 7. -/
def aimed (s : State) (w : Bool) : State := { s with plc := { s.plc with maps := [⟨0, 7, 1, 0, true, w⟩] } }

/-- A flight that runs with its buffer 0 in object 1. -/
def boundTo : Flight := { Flight.fresh 0 9 landImage with st := .armed, binds := [(0, some 258, 0)] }

theorem witness_PlacementCommands :
    ((plain.fetch 1 0x07 0x73 (plcD 2 [])).map (fun e => (e.1.tag, e.1.owner)) = some (0x73, 0) ∧ plain.plc.waits = [] ∧
      plain.canDma (plain.ownerFn 0) = true) ∧
    placed (.query 1 (plcD 12 [(60, 1)])) plain stPlcInvalid ∧ placed (.free 1 (plcD 2 [(12, 257)])) plain stKeyInvalid ∧
    placed (.alloc 1 (plcD 1 [(7, 1), (8, 0x21), (24, 1)])) plain stHintConflict ∧
    placed (.alloc 1 (plcD 1 [(7, 1), (8, 0x01), (24, 2 ^ 42)])) plain stTierQuota ∧
    (plcHints (plcD 1 [(7, 1), (8, 0x01), (24, 1)]) = (0, 1) ∧ plcCopies (plcD 1 [(7, 1), (8, 0x01), (24, 1)]) = 1 ∧
      plain.reserveStatus 0 1 1 = stOk ∧ plain.plc.objs.length < 2 ^ 20 - 1) ∧
    placed (.free 1 (plcD 2 [(12, 258)])) { plain with flights := [(0, boundTo)] } stObjectBusy ∧
    after (.free 1 (plcD 2 [(12, 258)])) plain (fun t => t.obj 1 == none) ∧
    placed (.hint 1 (plcD 3 [(12, 258)])) (tiered (mkObj 0 1 1 true [])) stDiscord ∧ placed (.hint 1 (plcD 3 [(8, 0x21), (12, 258)])) plain stHintConflict ∧
    placed (.hint 1 (plcD 3 [(8, 0x04), (12, 258)])) (aimed plain true) stHintConflict ∧
    placed (.hint 1 (plcD 3 [(8, 0x11), (12, 258)])) plain stOk ∧ placed (.hint 1 (plcD 3 [(5, 4), (8, 0x11), (12, 258)])) plain stOk ∧
    after (.hint 1 (plcD 3 [(5, 4), (8, 0x22), (12, 258)])) (pooled plain) (fun t => ending t == [0x73, 0, 0, 0, BitVec.ofNat 8 stNoSpace]) ∧
    after (.hint 1 (plcD 3 [(5, 4), (8, 0x02), (12, 258)])) { tiered (mkObj 0 2 1 false [inT1]) with ops := [] } (fun t => t.plc.waits == []) ∧
    after (.hint 1 (plcD 3 [(5, 4), (12, 258)])) (tiered (mkObj 0 0 1 false [inT1])) (fun t => t.plc.waits.map (·.2) == [.settle]) := by decide +kernel

theorem witness_PlacementAccess :
    placed (.get 1 (plcD 4 [(12, 258), (16, 2 ^ 22), (24, 4), (32, 0x7000)])) plain stBounds ∧
    placed (.get 1 (plcD 4 [(12, 258), (24, 4), (32, 0x7000)])) (tiered (mkObj 0 1 1 false [{ inT1 with loc := none, lost := true }])) stPageLost ∧
    after (.get 1 (plcD 4 [(12, 258), (24, 4), (32, 0x7000)])) { plain with mem := Mem.write plain.mem ((Space.tier 258).at 0) [9] } (fun t =>
      t.mem.read ((plain.slice 0).space.at 0x7000) 2 == [9, 0]) ∧
    placed (.put 1 (plcD 5 [(12, 258), (16, 2 ^ 22 - 3), (24, 4), (32, 0x6000)])) plain stBounds ∧
    placed (.put 1 (plcD 5 [(12, 258), (24, 4), (32, 0x6000)])) (tiered (mkObj 0 3 1 false [{ inT1 with loc := some (3, 2 ^ 48) }])) stPoolFault ∧
    after (.put 1 (plcD 5 [(12, 258), (16, 2 ^ 21 - 4), (24, 4), (32, 0x6000)])) plain (fun t =>
      t.mem.read ((Space.tier 258).at (2 ^ 21 - 4)) 4 == [1, 2, 3, 4]) ∧
    placed (.map 1 (plcD 6 [(12, 258), (24, 2 ^ 21), (42, 2 ^ 20)])) plain stPlcInvalid ∧
    placed (.map 1 (plcD 6 [(12, 258), (24, 2 ^ 22), (42, 32 * 32767 + 3)])) plain stBounds ∧
    placed (.map 1 (plcD 6 [(12, 258), (24, 2 ^ 21), (42, 32 * 7 + 3)])) (aimed plain true) stObjectBusy ∧
    placed (.map 1 (plcD 6 [(12, 258), (24, 2 ^ 21), (42, 32 * 7 + 3)])) (tiered (mkObj 4 4 1 false [])) stHintConflict ∧
    after (.map 1 (plcD 6 [(12, 258), (24, 2 ^ 21), (42, 32 * 32767 + 3)])) plain (fun t => t.plc.maps == [⟨0, 32767, 1, 0, true, true⟩]) ∧
    after (.unmap 1 (plcD 7 [(12, 258), (24, 2 ^ 21), (42, 32 * 7)])) (aimed plain true) (fun t => t.plc.maps == []) ∧
    placed (.setCopies 1 (plcD 10 [(7, 1), (12, 258)])) (tiered (mkObj 0 1 1 true [])) stDiscord ∧
    after (.setCopies 1 (plcD 10 [(7, 1), (12, 258)])) (tiered (mkObj 0 1 2 false [inT1])) (fun t => objIs t (·.copies == 1)) ∧
    after (.setCopies 1 (plcD 10 [(7, 2), (10, 1), (12, 258)])) plain (fun t => objIs t fun x => x.copies == 2 && x.repTier == 1) ∧
    placed (.resolve 1 (plcD 11 [(12, 258)])) plain stOk ∧
    after (.resolve 1 (plcD 11 [(12, 258)])) (tiered (mkObj 0 1 2 true [])) (fun t => objIs t (!·.discord)) ∧
    placed (.query 1 (plcD 12 [(12, 258)])) plain stOk ∧
    poolBlockOk (poolBlock ++ leBytes 40 0) = true ∧ placed (.poolAdd 1 (plcD 8 [(32, 0x6000)])) plain stPlcInvalid ∧
    after (.poolAdd 1 (plcD 8 [(32, 0x7000)])) (pooled (holding plain [(0x7000, poolBlock)])) (fun t => look t.plc.pools 1 == some ⟨2, 0, 0, 0, 1, 0⟩) ∧
    placed (.poolAdd 1 (plcD 8 [(32, 0x7000)])) { holding plain [(0x7000, poolBlock)] with plc := { plain.plc with
      pools := (List.range 16).map fun j => (j, ⟨2, 0, 0, 0, 1, 0⟩) } } stNoSpace ∧
    placed (.poolRemove 1 (plcD 9 [(40, 16)])) (pooled plain) stKeyInvalid ∧ placed (.poolRemove 1 (plcD 9 [])) (pooled plain) stOk ∧
    placed (.poolRemove 1 (plcD 9 [])) (pooled (tiered (mkObj 0 2 1 false []))) stNoSpace := by decide +kernel

/-- A placement operation 1 waits. -/
def heldOp (s : State) (src : Nat) (d : Desc) (w : PlcWait) : State :=
  let s := { s with ops := [⟨1, 1, 0, src, 0x73, d, 0, false, false, false, none⟩] }
  { s with plc := { s.plc with waits := [(1, w)] } }

/-- A move of page 0 of object 1 from its frame of T1 to a frame of T0. -/
def movingS (draining : Bool) (s : State) : State := { s with plc := { s.plc with moves := [⟨1, 0, 0, 4, some (1, 5), (0, 0), draining⟩] } }

/-- Page 0 of object 1 has two copies with their generations. -/
def copied (g0 g1 : Nat) : State := tiered (mkObj 0 1 2 false [{ inT1 with rep := some (1, 37), gen0 := g0, gen1 := g1 }])

/-- Its copies differ in a byte. -/
def differing (g0 g1 : Nat) : State := { copied g0 g1 with mem := Mem.write (copied g0 g1).mem ((Space.tierCopy 258).at 5) [9] }

/-- A page of object 1 waits as a candidate for T0, and the Coffer takes any charge. -/
def wanted : State := { plain.setReg R.PLC_ENERGY 1 with plc := { plain.plc with cands := [(1, 0, 0)] } }

theorem wanted_frame : (wanted.frameFor 1 0 0 0).1 = some 0 := by
  have h : spread 0 [] ((wanted.framesOf 0 0).filter (wanted.frameOk 0 none)) = [0] := by decide +kernel
  change (wanted.findFrame 0 0 none []).1 = some 0
  unfold State.findFrame
  simp only [h, List.length_singleton, Nat.mod_one]
  rfl

/-- Object 1 of these states. -/
def twice (g0 g1 : Nat) : TObj := mkObj 0 1 2 false [{ inT1 with rep := some (1, 37), gen0 := g0, gen1 := g1 }]

set_option maxRecDepth 100000 in
/-- The two copies differ, whatever their generations. -/
theorem differing_differs (g0 g1 : Nat) : (differing g0 g1).obj 1 = some (twice g0 g1) ∧ (differing g0 g1).copiesEqual (twice g0 g1) 1 0 = false := by
  have e : (differing 1 1).copiesEqual (twice 1 1) 1 0 = false := by decide +kernel
  have h (a b c : Nat) (hc : c < 2) : (differing a b).home (twice a b) 1 0 c ((twice a b).at 0) = (if c = 0 then Space.tier 258 else Space.tierCopy 258).at 0 := by
    match c, hc with
    | 0, _ => rfl
    | 1, _ => rfl
  refine ⟨rfl, ?_⟩
  unfold State.copiesEqual at e ⊢
  rw [h 1 1 0 (by decide), h 1 1 1 (by decide)] at e
  rw [show (differing g0 g1).mem = (differing 1 1).mem from rfl, h g0 g1 0 (by decide), h g0 g1 1 (by decide)]
  exact e

/-- Page 0 of object 1 stands in page 3 of a pool of T2 that begins at 0x100000 of host memory. -/
def lent : State :=
  let s := tiered (mkObj 0 2 1 false [{ inT1 with loc := some (2, 3) }])
  { s with plc := { s.plc with pools := [(0, ⟨2, 0, 0, 0x100000, 4, 0⟩)] } }

/-- It moves to T0. -/
def leaving2 : State := { lent with plc := { lent.plc with moves := [⟨1, 0, 0, 4, some (2, 3), (0, 0), false⟩] } }

theorem witness_PlacementHost :
    (lent.home (mkObj 0 2 1 false []) 1 0 0 { inT1 with loc := some (2, 3) } = (lent.slice 0).space.at (0x100000 + 3 * 2 ^ 21) ∧
      (mkObj 0 2 1 false [{ inT1 with loc := some (2, 3) }]).inHost = true ∧ plain.plc.pools = [] ∧ (mkObj 0 1 1 false [inT1]).inHost = false) ∧
    after (.put 1 (plcD 5 [(12, 258), (16, 8), (24, 4), (32, 0x6000)])) lent (fun t =>
      t.mem.read ((lent.slice 0).space.at (0x100000 + 3 * 2 ^ 21 + 8)) 4 == [1, 2, 3, 4] && t.mem.read ((Space.tier 258).at 8) 4 == [0, 0, 0, 0]) ∧
    after (.get 1 (plcD 4 [(12, 258), (16, 8), (24, 4), (32, 0x7000)]))
      { lent with mem := Mem.write lent.mem ((lent.slice 0).space.at (0x100000 + 3 * 2 ^ 21 + 8)) [7, 8] } (fun t =>
      t.mem.read ((lent.slice 0).space.at 0x7000) 3 == [7, 8, 0]) ∧
    after (.pageCopyDone 258 0) { leaving2 with mem := Mem.write lent.mem ((lent.slice 0).space.at (0x100000 + 3 * 2 ^ 21)) [7] } (fun t => t.mem.read ((Space.tier 258).at 0) 2 == [7, 0]) := by decide +kernel

/-- Page 0 of object 1 stands in a pool of T4. -/
def faraway : State := pooled4 (tiered (mkObj 0 4 1 false [{ inT1 with loc := some (4, 0) }]))

theorem witness_PlacementEvents :
    ((tiered (mkObj 0 0 1 false [inT1])).settled (plcD 3 [(12, 258)]) = false ∧
      placed (.settleDone 1) (heldOp (tiered (mkObj 0 1 1 false [])) 8 (plcD 3 [(12, 258)]) .settle) stOk ∧
      placed (.settleTimeout 1) (heldOp (tiered (mkObj 0 0 1 false [inT1])) 8 (plcD 3 [(12, 258)]) .settle) stSettleTimeout ∧
      placed (.fetchWaitTimeout 1) (heldOp plain 8 (plcD 4 [(12, 258)]) .fetch) stPoolFault) ∧
    (live.writeAt .stewardOther R.PLC_CANCEL_CTRL).isSome ∧
    after (.plcCancel .stewardOther 0) ((heldOp plain 8 (plcD 3 [(12, 258)]) .settle).setReg R.PLC_CANCEL_TAG 0x73) (fun t =>
      t.getF F.PLC_CANCEL_RESULT_RESULT == 1 && ending t == [0x73, 0, 0, 0, BitVec.ofNat 8 stCancelled]) ∧
    (plain.hallPaused 8 = false ∧ after .heatDecayBoundary plain (fun t => objIs t fun x => (x.at 0).heat == 4)) ∧
    after .pageMoveStart plain (· == plain) ∧
    (wanted.shedAt 2 = false ∧ wanted.moveQueue = [⟨4, 1, 0, 0, [0]⟩] ∧ wanted.hasRoom 1 (mkObj 0 1 1 false [inT1]) 0 = true ∧
      ((wanted.findFrame 0 0 none).2.offer 4 (some 0) (wanted.moveCost 1 0 * 10 ^ 6)).1 = true) ∧
    after (.pageCopyDone 258#32 0) (movingS false plain) (fun t => t.plc.moves.map (·.draining) == [true] && objIs t fun x => (x.at 0).loc == some (0, 0)) ∧
    after (.moveDrainDone 258#32 0) (movingS true plain) (fun t => t.plc.moves == []) ∧
    after (.moveDrainDone 258#32 0) { movingS true plain with plc := { (movingS true plain).plc with retiring := [5] } } (fun t =>
      t.plc.retired == [5] && t.plc.retiring == []) ∧
    after (.moveFail 258#32 0) (movingS false plain) (fun t => t.plc.moves == [] && t.getF F.PLC_CNT_MOVE_FAIL_COUNT == 1) ∧
    after (.replicaCompare 258#32 0 false false []) (copied 1 1) (fun t => objIs t fun x => (x.at 0).lost) ∧
    after (.replicaCompare 258#32 0 true false []) (copied 1 1) (fun t => objIs t fun x => (x.at 0).c1 == .failed) ∧
    after (.replicaCompare 258#32 0 true true []) (copied 1 2) (fun t => objIs t fun x => (x.at 0).gen0 == 2) ∧
    after (.replicaCompare 258#32 0 true true []) ((copied 1 2).setF F.PLC_SCRUB_PERIOD_H 0) (fun t => objIs t fun x => (x.at 0).gen0 == 1) := by decide +kernel

theorem witness_PlacementEvents_fetch :
    ((faraway.obj 1).map fun x => ((x.at 0).loc, ((List.range 4).filter (fun t => x.ceil ≤ t && t ≤ faraway.floorOf 1 x)).find? (faraway.hasRoom 1 x))) =
      some (some (4, 0), some 0) ∧
    faraway.moving 1 0 = false ∧ faraway.plc.fetches = [] ∧ faraway.shedAt 4 = false ∧ faraway.hallPaused 8 = false ∧
    after (.settleDone 1) plain (fun t => t.plc.waits == []) ∧
    after (.fetchWaitTimeout 7) { plain with plc := { plain.plc with bars := [⟨7, 0, 5, none, 2⟩] } } (fun t =>
      t.plc.bars == [] && t.outbox.head? == some (.readData 0 5 [0, 0])) ∧
    (∃ l, (heldOp plain 5 (wqe 1 4) .fetch).ops = l ∧ l.map (·.src) = [5]) := by
  refine ⟨by decide +kernel, by decide +kernel, by decide +kernel, by decide +kernel, by decide +kernel, by decide +kernel, by decide +kernel, _, rfl, rfl⟩

/-- An evacuation of a channel runs, and its channel is in a state. -/
def leavingPc (s : State) (c : Fin 128) (r : Bool) (st : Nat) : State :=
  { s.setF (F.HBM_PC_STATE c) st with plc := { s.plc with evac := if st = 1 then some (c.val, r) else none } }

theorem witness_ApertureAndEvacuation :
    after (.bar4Access 0 0 none 2) plain (fun t => t.getF F.PLC_CNT_APERTURE_MISS_COUNT == 1 && t.outbox.head? == some (.readData 0 0 [0, 0])) ∧
    after (.bar4Access 0 (BitVec.ofNat 36 (7 * 2 ^ 21)) (some [1]) 0) plain (fun t => t.getF F.PLC_CNT_APERTURE_MISS_COUNT == 1 && t.outbox == plain.outbox) ∧
    after (.bar4Access 0 (BitVec.ofNat 36 (7 * 2 ^ 21 + 1)) (some [8]) 0) (aimed plain true) (fun t => t.mem.read ((Space.tier 258).at 0) 2 == [0, 8]) ∧
    after (.bar4Access 0 (BitVec.ofNat 36 (8 * 2 ^ 21 - 1)) none 1) (aimed plain true) (fun t => t.outbox.head? == some (.readData 0 (8 * 2 ^ 21 - 1) [0])) ∧
    takes live R.PLC_EVAC ∧
    after (.evac .stewardMachine 127 true) (leavingPc live 3 true 1) (fun t => t.getF F.PLC_EVAC_STATUS_RESULT == 3 && t.plc.evac == some (3, true)) ∧
    after (.evac .stewardMachine 127 true) live (fun t => t.plc.evac == some (127, true) && t.getF (F.HBM_PC_STATE 127) == 1) ∧
    after (.evacRelease .stewardMachine 3) live (fun t => t.getF F.PLC_EVAC_PC == 3 && t.getF (F.HBM_PC_STATE 3) == 0) ∧
    after (.evacRelease .stewardMachine 3) (leavingPc live 3 true 2) (fun t => t.getF (F.HBM_PC_STATE 3) == 0) ∧
    after .evacDone (leavingPc live 3 true 1) (fun t => t.getF (F.HBM_PC_STATE 3) == 3 && t.getF F.PLC_EVAC_STATUS_OUT == 1) ∧
    after .evacDone (leavingPc live 3 false 1) (fun t => t.getF (F.HBM_PC_STATE 3) == 2) ∧ after .evacDone live (· == live) ∧
    after (.pcRetrainDone 3 true) (leavingPc live 3 true 3) (fun t => t.getF (F.HBM_PC_STATE 3) == 2) ∧
    after (.pcRetrainDone 3 false) (leavingPc live 3 true 3) (fun t => t.getF (F.HBM_PC_FAILED 3) == 1 && t.getF F.PLC_EVAC_STATUS_RESULT == 2) := by
  decide +kernel

/-! ### The packet path and the cipher engine -/

/-- A parser graph of one node of 14 bytes, whose byte 0 is given (Table 08-1). -/
def oneNode (b : Byte) : List Byte := padTo 16 [1] ++ [b, 14] ++ leBytes 13 0 ++ [0xFF] ++ leBytes 16 0

/-- Slice 0 with a kind of ring, port 0 of its grants, lanes of network port 0, a graph, and the default action of port 0. -/
def wired (kind : Nat) (node : Byte) (hi lo : Nat) : State :=
  let s := work kind
  let s := { s.setSlice 0 { s.slice 0 with cfg := 2 ^ 80 } with str := { s.str with tabs := [(2, oneNode node)] } }
  ((s.setF (F.ETH_GROUP_STATE_PORT_LANES 0) 0x2).setReg (R.PKT_DEFAULT_HI 0) hi).setReg (R.PKT_DEFAULT_LO 0) lo

/-- A frame of 60 bytes. -/
def frame60 : List Byte := padTo 60 [1, 2, 3]

/-- A frame descriptor of a port, queue, length and address. -/
def frameD (opc len : Nat) (more : List (Nat × Nat)) : Desc := dsc ([(0, 0x41), (4, opc), (8, len), (16, 0x6000)] ++ more)

/-- Ring 1 holds a posted buffer of 64 bytes. -/
def posted (s : State) : State := { s with ops := [⟨1, 1, 0, 3, 0x41, frameD 2 64 [], 0, false, false, false, none⟩] }

/-- Some RX frames have arrived and a counter stands at 1. -/
def counted (f : Fld) (t : State) : Bool := t.reg R.PKT_CNT_RX_LO == 1 && t.getF f == 1

/-- A core of wing 0 serves the slow path, and a frame waits there. -/
def slowed (node : Byte) (bytes : List Byte) : State :=
  let s := withF (wired 9 node 0x80000000 0) [(F.STW_CORE_SERVICES 0, 256), (F.STW_CORE_STATE 0, 0)]
  { s with pp := { s.pp with slow := [(0, [⟨0, bytes, none, false, false, false, 64⟩])] } }

theorem oneWing_takes (n : Nat) :
    (withF (wired 9 0xC0 0 0) [(F.PKT_SLOW_WINGS, 2)]).slowWings[n % (withF (wired 9 0xC0 0 0) [(F.PKT_SLOW_WINGS, 2)]).slowWings.length]? = some 1 := by
  have h : (withF (wired 9 0xC0 0 0) [(F.PKT_SLOW_WINGS, 2)]).slowWings = [1] := by decide +kernel
  rw [h, List.length_singleton, Nat.mod_one]
  rfl

theorem witness_FrameReception :
    (wired 9 0x40 0 0).answers 12 = true ∧ (wired 9 0x40 0 0).netUp 0 = true ∧ (wired 9 0x40 0 0).hallPaused 3 = false ∧
    (wired 9 0xC0 0 0).slowWings = [] ∧
    after (.frameReceive 0 frame60 none) (wired 9 0xC0 0 0) (counted F.PKT_CNT_SLOW_DROP) ∧
    (withF (wired 9 0xC0 0 0) [(F.PKT_SLOW_WINGS, 2)]).slowWings = [1] ∧
    after (.frameReceive 0 frame60 none) (withF (wired 9 0x40 0 0) [(F.PKT_TREE_CFG_EN 0, 1), (F.PKT_TREE_PORTS_PORTS 0, 1)]) (counted F.PKT_CNT_TREE_FAULT) ∧
    after (.frameReceive 0 frame60 none) (wired 9 0x40 0xE0000000 0) (counted F.PKT_CNT_ACTION_DROP) ∧
    after (.frameReceive 0 frame60 none) (wired 9 0x40 0x20000000 1) (counted F.PKT_CNT_NOBUF) ∧
    after (.frameReceive 0 frame60 none) (posted (wired 9 0x40 0x20000000 1)) (fun t => record t == [0x41, 0, 0, 0, 0, 60] &&
      t.mem.read ((t.slice 0).space.at 0x6000) 3 == [1, 2, 3]) ∧
    ((slowed 0x40 frame60).slowServes 0 = true ∧
      after (.slowpathFrame 0) (slowed 0x40 frame60) (fun t => lookD t.pp.slow 0 [] == [] && t.getF F.PKT_CNT_ACTION_DROP == 1) ∧
      after (.slowpathFrame 0) (slowed 0x4B (padTo 60 [0x45, 0, 0, 40, 0, 0, 0x20])) (fun t => t.pp.slow == [] && t.pp.reasm.length == 1)) ∧
    after (.reasmTimeout 3) { live with pp := { live.pp with reasm := [⟨3, 0, [], 0, false, none, none, [], 0⟩] } } (fun t =>
      t.pp.reasm == [] && t.getF F.PKT_CNT_REASM_DROP == 1 && t.now == 10 ^ 6 * live.getF F.PKT_SLOW_REASM_MS) ∧
    after (.postBuffer 1 (frameD 2 64 [])) (wired 9 0x40 0 0) (fun t => t.ops.map (·.src) == [3]) ∧
    after (.postBuffer 1 (frameD 2 63 [])) (wired 9 0x40 0 0) (fun t => ending t == [0x41, 0, 0, 0, BitVec.ofNat 8 stFrameInvalid]) := by decide +kernel

/-- A SEND_FRAME, past its commit point or not, waits for its turn in queue 0 of port 0. -/
def sending (committed : Bool) (wait : List (Nat × Bool)) (queue : List TxFrame) : State :=
  let s := { wired 8 0x40 0 0 with ops := [⟨1, 1, 0, 4, 0x41, frameD 1 60 [], 0, false, committed, false, none⟩] }
  { s with pp := { s.pp with txWait := wait, queues := [(0, queue)] } }

/-- The tree-load window asks for one unit at the start of area 1, whose size is given. -/
def loading (size : Nat) : State :=
  let s := (live.setReg R.PKT_TLOAD_LEN 32).setReg R.PKT_TLOAD_DST (2 ^ 31)
  s.setReg (R.PKT_AREA_SIZE 1) size

theorem witness_FrameTransmission :
    after (.sendFrame 1 (frameD 1 13 [(6, 4)])) (wired 8 0x40 0 0) (fun t => ending t == [0x41, 0, 0, 0, BitVec.ofNat 8 stFrameInvalid]) ∧
    after (.sendFrame 1 (frameD 1 60 [(6, 4), (7, 15)])) (wired 8 0x40 0 0) (fun t => ending t == [0x41, 0, 0, 0, BitVec.ofNat 8 stRights]) ∧
    (((wired 8 0x40 0 0).frameCredit 0 64).1 = true ∧ (wired 8 0x40 0 0).txQueue 4 = [] ∧
      after (.sendFrame 1 (frameD 1 60 [(6, 4)])) (holding (wired 8 0x40 0 0) [(0x6000, [7])]) (fun t => (t.txQueue 4).map (·.data) == [padTo 60 [7]] &&
        t.ops.map (·.committed) == [true])) ∧
    after (.sendFrame 1 (frameD 1 60 [(6, 4)])) { wired 8 0x40 0 0 with pwr := { live.pwr with refused := [(2, some 0)] } } (fun t => t.pp.txWait == [(1, false)] &&
      t.getF F.TXS_CNT_DEFER_COUNT == 1) ∧
    after (.sendFrame 1 (frameD 1 60 [(6, 4)])) ((wired 8 0x40 0 0).setF ((wired 8 0x40 0 0).ownerFn 0).bmeF 0) (fun t => t.ops == []) ∧
    after (.txStalledTimeout 1) (sending false [(1, true)] []) (fun t => ending t == [0x41, 0, 0, 0, BitVec.ofNat 8 stTxStalled]) ∧
    live.netUp 0 = false ∧ after (.egressSelect 0) live (· == live) ∧
    after (.egressSelect 0) (sending true [] [⟨1, 0, 0, frame60, none, none⟩]) (fun t => record t == [0x41, 0, 0, 0, 0, 64] && t.txQueue 0 == [] &&
      t.outbox.contains (.frame 0 frame60) && t.reg R.TXS_CNT_BYTES_LO == 64) ∧
    (live.writeAt .stewardOther R.TXS_CANCEL_CTRL).isSome ∧
    after (.txsCancel .stewardOther 0) ((sending false [(1, false)] []).setReg R.TXS_CANCEL_TAG 0x41) (fun t =>
      t.getF F.TXS_CANCEL_RESULT_RESULT == 1 && ending t == [0x41, 0, 0, 0, BitVec.ofNat 8 stCancelled]) ∧
    (live.writeAt .stewardMachine R.PKT_TREE_COMMIT).isSome ∧ after (.treeCommit .stewardMachine) live (·.pp.commit) ∧
    after (.treeCommit .stewardMachine) { live with pend := [(R.PKT_TREE_CFG 7, 0xFFFFFFFF#32, 0x80000000#32), (R.PKT_TREE_SIZE 7, 0xFFFFFFFF#32, 0x7FFFFFFF#32)] }
      (fun t => t.getF F.PKT_STATUS_COMMIT_REFUSED == 1 && !t.pp.commit) ∧
    takes (loading 1) R.PKT_TLOAD_CTRL ∧
    after (.treeLoad .stewardMachine) (loading 1) (fun t => t.pp.tload == some ⟨1, 0, 32, 0, 0⟩) ∧
    after (.treeLoad .stewardMachine) (loading 0) (fun t => t.getF F.PKT_TLOAD_STATUS_RESULT == 3 && t.pp.tload == none) ∧
    after (.treeLoad .stewardMachine) ((withF (loading 1) [(F.PKT_TREE_CFG_EN 0, 1), (F.PKT_TREE_SIZE_UNITS 0, 1)]).setReg (R.PKT_TREE_BASE 0) (2 ^ 31)) (fun t =>
      t.getF F.PKT_TLOAD_STATUS_RESULT == 2) ∧
    after (.treeLoad .stewardMachine) { loading 1 with pp := { live.pp with tload := some ⟨1, 0, 32, 0, 0⟩ } } (fun t => t.getF F.PKT_TLOAD_STATUS_RESULT == 1) ∧
    after .treeLoadDone { bus with pp := { bus.pp with tload := some ⟨1, 2, 4, 0x100, 0⟩ }, mem := Mem.write [] ((Space.pf0 0).at 0x100) [5, 6, 7, 8] } (fun t =>
      t.mem.read ((Space.treeArea 1).at 64) 4 == [5, 6, 7, 8] && t.getF F.PKT_TLOAD_STATUS_RESULT == 0) ∧
    after .treeLoadDone { live with pp := { live.pp with tload := some ⟨1, 2, 4, 0x100, 0⟩ } } (fun t => t.getF F.PKT_TLOAD_STATUS_RESULT == 4) := by
  decide +kernel

/-- An ESP SA of one kind for slice 0, installed at index 3 in a state. -/
def secured (st : Nat) (cached : Bool) : State :=
  { bus.setF F.CIP_SA_SEL_INDEX 3 with cip := { bus.cip with sas := [(3, ⟨padTo 128 [0x10], 1, [], st, cached, 0⟩)] } }

/-- The window holds the entry of an ESP SA, kind 1. -/
def entered : State := (bus.setF F.CIP_SA_SEL_INDEX 3).setReg (R.CIP_SA_DATA 0) 0x10

/-- A CVU job reads four bytes of PF0 memory for context 15. -/
def jobbed (s : State) : State := { s with cip := { s.cip with job := some ⟨15, 0x100, 4, 0⟩ }, mem := Mem.write [] ((Space.pf0 0).at 0x100) [0x31, 0x32, 0x33, 0x34] }

theorem witness_SecurityAndCheckValues :
    takes entered R.CIP_SA_CMD ∧ saEntryOk entered.saWindow = true ∧
    after (.saInstall .stewardMachine) (secured 1 true) (fun t => t.getF F.CIP_SA_RESULT_RESULT == 1) ∧
    after (.saInstall .stewardMachine) (entered.setReg (R.CIP_SA_DATA 0) 0x11) (fun t => t.getF F.CIP_SA_RESULT_RESULT == 2 && t.cip.sas == []) ∧
    after (.saInstall .stewardMachine) entered (fun t => (t.sa 3).any fun a => a.st == 1 && a.cached && a.pn == 1) ∧
    after (.saRemove .stewardMachine) entered (fun t => t.getF F.CIP_SA_RESULT_RESULT == 2) ∧
    after (.saRemove .stewardMachine) (secured 3 true) (fun t => t.getF F.CIP_SA_RESULT_RESULT == 1) ∧
    after (.saRemove .stewardMachine) (secured 1 true) (fun t => (t.sa 3).any (·.st == 3) && t.cip.removeCmd == some 3) ∧
    after (.saQuery .stewardMachine) (secured 1 true) (fun t => t.reg (R.CIP_SA_DATA 0) == 0x10 && t.reg (R.CIP_SA_DATA 2) == 1) ∧
    after (.saRemoveDrainDone 3) { secured 3 true with cip := { (secured 3 true).cip with removeCmd := some 3 } } (fun t => t.cip.sas == [] &&
      t.cip.removeCmd == none && t.getF F.CIP_SA_RESULT_RESULT == 0) ∧
    ((secured 1 false).saAbsent 3 = true ∧
      after (.saFetchDone 3) { secured 1 false with cip := { (secured 1 false).cip with hold := [(1, [.tx 0 ⟨9, 0, 0, frame60, some 3, none⟩])] } } (fun t =>
        !t.saAbsent 3 && t.holding 0 1 == [])) ∧
    after .rngHealthFail live (fun t => t.cip.rngFault && t.getF F.CIP_STATUS_RNG_FAULT == 1) ∧
    (live.writeAt .stewardOther R.CVU_JOB_CTRL).isSome ∧
    after (.cvuJob .stewardOther 15 true) (jobbed bus) (fun t => t.getF F.CVU_JOB_STATUS_RESULT == 1) ∧
    after (.cvuJob .stewardOther 15 true) bus (fun t => t.cip.job.map (·.ctx) == some 15 && t.cvuValue 15 == 0xFFFFFFFF) ∧
    after (.cvuJob .stewardOther 15 false) bus (fun t => t.cip.job.map (·.ctx) == some 15 && t.cvuValue 15 == 0) ∧
    after .cvuJobDone (jobbed bus) (fun t => t.cvuValue 15 == crcFeed (polyOf 0) 0 [0x31, 0x32, 0x33, 0x34] && t.reg R.CVU_CNT_BYTES_LO == 4) ∧
    after .cvuJobDone (jobbed live) (fun t => t.getF F.CVU_JOB_STATUS_RESULT == 2 && t.cvuValue 15 == 0) := by decide +kernel

/-! ### Storage -/

/-- A queue of 16 entries of slice 0 of a kind, with one entry. -/
def nvq (kind base : Nat) : Ring := { nvRing 0 kind base 16 none with pi := 1 }

/-- An enabled controller with its admin queues, an I/O queue pair, and namespace 1 of 100 blocks, attached. -/
def nvc : NvCtrl :=
  { NvCtrl.fresh 0 with en := true, rdy := true, sqs := [(0, ⟨5, 0, none⟩), (1, ⟨6, 1, none⟩)], cqs := [(0, 7), (1, 8)],
                        nss := [(1, ⟨[⟨0, 0, 100⟩], true, 0, false⟩)] }

/-- Slice 0 has a quota of rings, a controller with one page of cache, extent 0 of 1000 blocks on endpoint 0, which is up, and the rings of its queues. -/
def served (x : NvCtrl) : State :=
  let s := sliced bus 0 .active
  let s := s.setSlice 0 { s.slice 0 with cfg := 100 * 2 ^ 96 }
  let s := [(bankKey R.NVS_C_CFG 0, 2 ^ 31 + 1), (bankKey (R.NVS_EXT_CFG 0) 0, 2 ^ 31), (bankKey (R.NVS_EXT_NSID 0) 0, 9),
    (bankKey (R.NVS_EXT_BLOCKS_LO 0) 0, 1000)].foldl (fun (s : State) e => s.setReg e.1 e.2) s
  { (s.setF (F.NVS_BE_STATE 0) 2).setCtrl 0 x with
    rings := [(5, nvq 0x0A 0x10000), (6, nvq 0x0A 0x20000), (7, { nvq 0x0B 0x30000 with pi := 0 }), (8, { nvq 0x0B 0x40000 with pi := 0 })] }

/-- An entry with an opcode and CID 0x55. -/
def sqe (opc : Nat) (more : List (Nat × Nat)) : Desc := dsc ([(0, opc), (2, 0x55)] ++ more)

/-- A command ends with a status that is an error. -/
def nvErr (c : Instr) (s : State) (st : Nat) : Bool := after c s fun t => (t.ctrl 0).errors.map (·.getD 2 0) == [st] && (t.ctrl 0).cmds == []

/-- A command ends with success: its completion queue has one more entry. -/
def nvDone (k : Nat) (t : State) : Bool := (t.ctrl 0).errors == [] && (t.ctrl 0).cmds == [] && (t.ring k).any (·.fi == 1)

/-- The controller after a command. -/
def nvIs (t : State) (p : NvCtrl → Bool) : Bool := p (t.ctrl 0)

/-- A ring is taken where the quota allows one. -/
theorem nvTake_some (s : State) (c : Nat) (r : Ring) (h : s.rings.length < 65536)
    (hq : (s.rings.filter fun e => e.2.owner == c).length < (s.slice c).ringQuota) :
    ∃ q v, s.nvTake c r = (some q, v) ∧ v.rings = put s.rings q r ∧ v.slice c = s.slice c := by
  have hr : s.drawWord.2.rings = s.rings := rfl
  obtain ⟨q, hp⟩ := pickFree_some s.drawWord.2.rings 0 65536 (s.rings.length + 1) s.drawWord.1
    (fun q => q < 65536 && (s.drawWord.2.ring q).isNone) (by rw [hr]; omega) (by omega)
    (fun j _ h1 h2 => by simp only [State.ring, h2, Option.isNone_none, Bool.and_true, decide_eq_true_eq]; omega)
  refine ⟨q, s.drawWord.2.takeRing q r, ?_, ?_, ?_⟩
  · unfold State.nvTake
    rw [if_neg (by omega)]
    simp only [hr] at hp ⊢
    rw [hp]
  all_goals unfold State.takeRing; dsimp only; split <;> rfl

/-- A controller not enabled yet. -/
def idleCtrl : State := { served (NvCtrl.fresh 0) with rings := [] }

theorem witness_NvmeQueuesAndControllers :
    (served nvc).pageAnswers 0 0 0 = true ∧ (served nvc).hallPaused 0 = false ∧ (served nvc).hallPaused 1 = false ∧
    after (.nvmeSqDoorbell 0 0 0 9 1 []) (served nvc) (fun t => (t.ctrl 0).events == [(0, 0, 1)]) ∧
    after (.nvmeSqDoorbell 0 0 0 1 16 []) (served nvc) (fun t => (t.ctrl 0).events == [(0, 1, 1)]) ∧
    after (.nvmeSqDoorbell 0 0 0 1 15 []) (served nvc) (fun t => (t.ring 6).map (·.pi) == some 15 && (t.ring 5).map (·.pi) == some 1) ∧
    after (.nvmeCqDoorbell 0 0 0 9 1) (served nvc) (fun t => (t.ctrl 0).events == [(0, 0, 1)]) ∧
    after (.nvmeCqDoorbell 0 0 0 1 16) (served nvc) (fun t => (t.ctrl 0).events == [(0, 1, 1)]) ∧
    after (.nvmeCqDoorbell 0 0 0 1 15) (served nvc) (fun t => (t.ring 8).map (·.ci) == some 15) ∧
    (idleCtrl.pageAnswers 0 0 0 = true ∧ idleCtrl.ctrlOn 0 = true ∧ (idleCtrl.slice 0).ringQuota = 100) ∧
    after (.controllerEnable 0 0 0 1 0xF000F 0x10000 0x20000) (idleCtrl.setSlice 0 { idleCtrl.slice 0 with cfg := 0 }) (fun t =>
      nvIs t fun x => x.en && !x.rdy && x.asq == 0x10000) ∧
    after (.controllerEnable 0 0 0 1 0 0x10000 0x20000) idleCtrl (fun t => nvIs t fun x => x.en && !x.rdy) ∧
    after (.controllerReset 0 0 0) (served nvc) (fun t => nvIs t (fun x => !x.en && x.rdy && x.sqs == [] && x.nss == nvc.nss) && t.rings == []) ∧
    after (.controllerResetDone 0) (served { nvc with en := false }) (fun t => nvIs t (!·.rdy)) ∧
    after (.controllerResetDone 0) (served nvc) (· == served nvc) := by decide +kernel

/-- The admin queues take two rings. -/
theorem witness_ControllerEnableRings (r r' : Ring) : ∃ k q x y, idleCtrl.nvTake 0 r = (some k, x) ∧ x.nvTake 0 r' = (some q, y) := by
  obtain ⟨k, x, hx, hr, hs⟩ := nvTake_some idleCtrl 0 r (by decide) (by decide +kernel)
  have h1 : x.rings = [(k, r)] := hr
  have h2 : ((x.slice 0).ringQuota) = 100 := by rw [hs]; decide +kernel
  obtain ⟨q, y, hy, -⟩ := nvTake_some x 0 r' (by simp [h1]) (by
    rw [h2]
    exact lt_of_le_of_lt (List.length_filter_le _ _) (by simp [h1]))
  exact ⟨k, q, x, y, hx, hy⟩

/-- A queue command takes a ring. -/
theorem witness_CreateQueueRing (r : Ring) : ∃ k x, (served nvc).nvTake 0 r = (some k, x) := by
  obtain ⟨k, x, hx, -⟩ := nvTake_some (served nvc) 0 r (by decide +kernel) (by decide +kernel)
  exact ⟨k, x, hx⟩

theorem witness_NvmeAdminCommands :
    nvErr (.identify 0 (sqe 0x7F [])) (served nvc) nvOpcode ∧ nvErr (.identify 0 (sqe 0x06 [(1, 1)])) (served nvc) nvField ∧
    nvErr (.nsCreate 0 (sqe 0x0D [])) (served { nvc with rec' := { nvc.rec' with op := 1, state := 1 } }) nvSanitizing ∧
    nvErr (.createIoCq 0 (sqe 0x05 [(40, 17), (42, 15), (44, 1)])) (served nvc) nvQueueId ∧
    nvErr (.createIoCq 0 (sqe 0x05 [(40, 16), (42, 0), (44, 1)])) (served nvc) nvQueueSize ∧
    nvErr (.createIoCq 0 (sqe 0x05 [(40, 16), (42, 15), (44, 1), (24, 4095)])) (served nvc) nvPrpOffset ∧
    nvErr (.createIoCq 0 (sqe 0x05 [(40, 16), (42, 15), (44, 3), (46, 64)])) (served nvc) nvVector ∧
    nvErr (.createIoSq 0 (sqe 0x01 [(40, 1), (42, 15), (44, 1), (46, 1)])) (served nvc) nvQueueId ∧
    nvErr (.createIoSq 0 (sqe 0x01 [(40, 2), (42, 15), (44, 1), (46, 2)])) (served nvc) nvCqInvalid ∧
    nvErr (.deleteIoCq 0 (sqe 0x04 [(40, 1)])) (served nvc) nvQueueDelete ∧ nvErr (.deleteIoCq 0 (sqe 0x04 [])) (served nvc) nvQueueId ∧
    after (.deleteIoCq 0 (sqe 0x04 [(40, 1)])) (served { nvc with sqs := [(0, ⟨5, 0, none⟩)] }) (fun t => nvDone 7 t && t.ring 8 == none) ∧
    nvErr (.deleteIoSq 0 (sqe 0x00 [(40, 2)])) (served nvc) nvQueueId ∧
    after (.deleteIoSq 0 (sqe 0x00 [(40, 1)])) (served nvc) (fun t => nvDone 7 t && t.ring 6 == none) ∧
    after (.deleteIoSq 0 (sqe 0x00 [(40, 1)])) (served { nvc with cmds := [⟨1, 3, 0, .run, 0, true, [], [], 0, 0⟩] }) (fun t =>
      nvIs t fun x => (look x.sqs 1).any (·.closing == some 0x55)) ∧
    nvErr (.getLogPage 0 (sqe 0x02 [(40, 0x99)])) (served nvc) nvLogInvalid ∧
    nvErr (.getLogPage 0 (sqe 0x02 [(40, 0x04), (42, 1023), (24, 4), (32, 4)])) (served nvc) nvPrpOffset ∧
    after (.getLogPage 0 (sqe 0x02 [(40, 0x04), (42, 3)])) (served nvc) (nvDone 7) ∧
    nvErr (.identify 0 (sqe 0x06 [(40, 0x04)])) (served nvc) nvField ∧ nvErr (.identify 0 (sqe 0x06 [(40, 0x11), (4, 2)])) (served nvc) nvNamespace ∧
    nvErr (.identify 0 (sqe 0x06 [(40, 0x02), (24, 4), (32, 4)])) (served nvc) nvPrpOffset ∧
    after (.identify 0 (sqe 0x06 [(40, 0x02), (24, 0x8000)])) (served nvc) (nvDone 7) ∧
    after (.nvmeAbort 0 (sqe 0x08 [])) (served nvc) (nvDone 7) ∧
    nvErr (.setFeatures 0 (sqe 0x09 [(40, 0x80000001)])) (served nvc) nvNotSaveable ∧ nvErr (.setFeatures 0 (sqe 0x09 [(40, 3)])) (served nvc) nvField ∧
    after (.setFeatures 0 (sqe 0x09 [(40, 6), (44, 0)])) (served nvc) (fun t => nvDone 7 t && !t.wce 0) ∧
    nvErr (.setFeatures 0 (sqe 0x09 [(40, 2), (44, 5)])) (served nvc) nvField ∧
    after (.setFeatures 0 (sqe 0x09 [(40, 2), (44, 4)])) (served nvc) (fun t => nvDone 7 t && (t.ctrl 0).ps == 4) ∧
    after (.setFeatures 0 (sqe 0x09 [(40, 7)])) (served nvc) (nvDone 7) ∧
    nvErr (.getFeatures 0 (sqe 0x0A [(40, 3)])) (served nvc) nvField ∧ nvErr (.getFeatures 0 (sqe 0x0A [(40, 2), (41, 4)])) (served nvc) nvField ∧
    after (.getFeatures 0 (sqe 0x0A [(40, 2), (41, 3)])) (served nvc) (nvDone 7) ∧ after (.getFeatures 0 (sqe 0x0A [(40, 6)])) (served nvc) (nvDone 7) ∧
    nvErr (.asyncEventRequest 0 (sqe 0x0C [])) (served { nvc with aers := [1, 2, 3, 4] }) nvAerLimit ∧
    after (.asyncEventRequest 0 (sqe 0x0C [])) (served nvc) (fun t => nvIs t fun x => x.aers == [0x55] && x.cmds == []) := by decide +kernel

/-- PRP1 of the tests' commands, and bytes there. -/
def listed (x : NvCtrl) (b : List Byte) : State := holding (served x) [(0x8000, b)]

/-- A failed sanitize. -/
def failedSan : NvCtrl := { nvc with rec' := { nvc.rec' with op := 2, state := 3 } }

theorem witness_NvmeNamespacesAndOperations :
    nvErr (.nsCreate 0 (sqe 0x0D [(24, 0x8000)])) (listed nvc (leBytes 8 0)) nvField ∧
    nvErr (.nsCreate 0 (sqe 0x0D [(24, 0x8000)])) (listed nvc (leBytes 8 901)) nvCapacity ∧
    ((listed nvc (leBytes 8 900)).prpRead 0 (sqe 0x0D [(24, 0x8000)]) 384 = leBytes 8 900 ++ List.replicate 376 0 ∧
      takeBlocks ((listed nvc (leBytes 8 900)).poolGaps 0) 900 = [⟨0, 100, 900⟩] ∧ look nvc.nss 2 = none ∧
      2 ≤ (listed nvc (leBytes 8 900)).nsLimit 0) ∧
    nvErr (.nsDelete 0 (sqe 0x0D [(40, 1), (4, 2)])) (served nvc) nvNamespace ∧
    nvErr (.nsDelete 0 (sqe 0x0D [(40, 1), (4, 1)])) (served { nvc with rec' := { nvc.rec' with op := 4, state := 1, nsid := 1 } }) nvFormatting ∧
    after (.nsDelete 0 (sqe 0x0D [(40, 1), (4, 1)])) (served nvc) (fun t => nvDone 7 t && (t.ctrl 0).nss == []) ∧
    nvErr (.namespaceAttachment 0 (sqe 0x15 [(4, 2)])) (served nvc) nvNamespace ∧
    nvErr (.namespaceAttachment 0 (sqe 0x15 [(4, 1), (40, 2)])) (served nvc) nvField ∧
    nvErr (.namespaceAttachment 0 (sqe 0x15 [(4, 1)])) (served nvc) nvCtrlList ∧
    fieldAt ((listed nvc [1]).prpRead 0 (sqe 0x15 [(4, 1), (24, 0x8000)]) 4096) 0 2 = 1 ∧
    nvErr (.formatNvm 0 (sqe 0x80 [(4, 2)])) (served nvc) nvNamespace ∧ nvErr (.formatNvm 0 (sqe 0x80 [(4, 1), (40, 1)])) (served nvc) nvFormatInvalid ∧
    nvErr (.formatNvm 0 (sqe 0x80 [(4, 1), (41, 6)])) (served nvc) nvField ∧
    after (.formatNvm 0 (sqe 0x80 [(4, 1), (41, 2)])) (served nvc) (fun t => nvIs t fun x => x.rec'.op == 4 && x.rec'.state == 1 && x.run.active) ∧
    nvErr (.sanitizeBlockErase 0 (sqe 0x84 [(40, 2 + 512)])) (served nvc) nvField ∧
    nvErr (.sanitizeCryptoErase 0 (sqe 0x84 [(40, 4)])) (served { nvc with rec' := { nvc.rec' with op := 4, state := 1, nsid := 1 } }) nvFormatting ∧
    after (.sanitizeOverwrite 0 (sqe 0x84 [(40, 3), (44, 7)])) (served nvc) (fun t => nvIs t fun x => x.rec'.op == 3 && x.rec'.passes == 15 && x.rec'.pattern == 7) ∧
    nvErr (.sanitizeOverwrite 0 (sqe 0x84 [(40, 3)])) (served { nvc with rec' := { nvc.rec' with op := 2, state := 1 } }) nvSanitizing ∧
    after (.sanitizeExitFailure 0 (sqe 0x84 [(40, 1)])) (served failedSan) (fun t => nvDone 7 t && (t.ctrl 0).rec'.state == 0) ∧
    after (.nvmeAbort 0 (sqe 0x08 [])) (served { nvc with ps := 3 }) (fun t => nvIs t fun x => x.exiting == some 3 && x.cmds.map (·.phase) == [.exit]) := by
  decide +kernel

/-- A block of the cache with its guard. -/
def blk (lba : Nat) (dirty : Bool) : NvBlk := ⟨1, lba, [7], nvGuard lba [7], dirty, false, false, 1, 1⟩

/-- A read, write and compare of one block at LBA 3 of namespace 1, and one of an LBA past it. -/
def rw (opc lba : Nat) : Desc := sqe opc [(4, 1), (24, 0x8000), (40, lba)]

/-- A backend command of a kind went out. -/
def wentOut (k : BeKind) (t : State) : Bool := t.nvs.be.map (fun b => (b.kind, b.ep, b.nsid, b.n, b.tries)) == [(k, 0, 9, 1, 1)]

theorem witness_NvmeIoCommands :
    nvErr (.nvmeRead 0 1 (rw 0x77 3)) (served nvc) nvOpcode ∧ nvErr (.nvmeRead 0 1 (rw 2 100)) (served nvc) nvLbaRange ∧
    nvErr (.nvmeRead 0 1 (rw 2 3)) (served { nvc with nss := [(1, ⟨[⟨0, 0, 100⟩], true, 0, true⟩)] }) nvDeferred ∧
    after (.nvmeFlush 0 1 (rw 0 0)) (served nvc) (nvDone 8) ∧
    after (.nvmeFlush 0 1 (rw 0 0)) (served { nvc with cache := [blk 3 true] }) (fun t => nvIs t fun x => x.cmds.map (·.flush) == [[(1, 3, 1)]]) ∧
    after (.datasetManagement 0 1 (rw 9 0)) (served nvc) (nvDone 8) ∧
    nvErr (.datasetManagement 0 1 (sqe 9 [(4, 1), (24, 0x8000), (44, 4)])) (listed nvc (leBytes 4 0 ++ leBytes 4 1 ++ leBytes 8 100)) nvLbaRange ∧
    after (.datasetManagement 0 1 (sqe 9 [(4, 1), (24, 0x8000), (44, 4)])) (listed nvc (leBytes 4 0 ++ leBytes 4 0 ++ leBytes 8 100)) (nvDone 8) ∧
    segRuns [⟨0, 0, 100⟩] 0 3 1 = [(0, 3, 1, 3)] ∧ (served nvc).ext 0 0 = some (0, 9, 0, 1000) ∧
    after (.writeZeroes 0 1 (rw 8 3)) (served nvc) (wentOut .zero) ∧
    nvErr (.writeZeroes 0 1 (rw 8 3)) ((served nvc).setF (F.NVS_BE_STATE 0) 3) nvUnavailable ∧
    ((served nvc).nvAdmit 0).1 = true ∧
    after (.nvmeRead 0 1 (rw 2 3)) { served nvc with pwr := { live.pwr with refused := [(3, some 0)] } } (fun t => nvIs t fun x =>
      x.cmds.map (·.phase) == [.energy]) ∧
    after (.nvmeRead 0 1 (rw 2 3)) (served nvc) (wentOut .read) ∧
    after (.nvmeRead 0 1 (rw 2 3)) (served { nvc with cache := [blk 3 false] }) (fun t => nvDone 8 t && t.mem.read ((t.slice 0).space.at 0x8000) 1 == [7]) ∧
    nvErr (.nvmeRead 0 1 (rw 2 3)) (served { nvc with cache := [{ blk 3 false with failed := true }] }) nvUnrecovered ∧
    nvErr (.nvmeCompare 0 1 (rw 5 3)) (served { nvc with cache := [blk 3 false] }) nvCompareFail ∧
    after (.nvmeWrite 0 1 (rw 1 3)) (served { nvc with feats := [(6, 0)] }) (wentOut .write) ∧
    after (.nvmeWrite 0 1 (rw 1 3)) (served nvc) (fun t => nvDone 8 t && nvIs t fun x => x.cache.map (fun b => (b.lba, b.dirty)) == [(3, true)]) ∧
    after (.nvmeWrite 0 1 (rw 1 3)) ((served nvc).setReg (bankKey R.NVS_C_CFG 0) (2 ^ 31)) (fun t => nvIs t fun x => x.cmds.map (·.phase) == [.space]) := by
  decide +kernel

/-- A backend command 1 of one block at LBA 3, sent once. -/
def beCmd (kind : BeKind) (use : BeUse) : BeCmd := ⟨1, 0, 0, 9, 3, 1, kind, 1, 3, use, [], [], 1, 0, false, [1]⟩

/-- Backend commands are in flight. -/
def backing (x : NvCtrl) (l : List BeCmd) : State := let s := served x; { s with nvs := { s.nvs with be := l } }

/-- A fetched command of the I/O queue runs. -/
def ioRun (opc : Nat) (p : NvPhase) : NvCtrl := { nvc with cmds := [⟨1, 0x55, rw opc 3, p, 0, true, [], [], 0, 0⟩] }

/-- An operation of a number of passes runs over one block. -/
def sanRun (pass passes : Nat) : NvCtrl :=
  { nvc with rec' := ⟨5, 2, 1, passes, pass, false, false, 0, 0xFFFFFFFF, 0, 1, 0⟩, run := ⟨true, 1, none, 0, 0, none⟩ }

theorem witness_NvmeBackend :
    (served nvc).ctrlServes 0 = true ∧ after (.destage 0 4) (served { nvc with cache := [blk 3 false] }) (· == served { nvc with cache := [blk 3 false] }) ∧
    after (.destage 0 4) (served { nvc with cache := [{ blk 3 true with guard := 0 }] }) (fun t => nvIs t fun x => x.cache.map (·.failed) == [true]) ∧
    after (.destage 0 4) (served { nvc with cache := [blk 3 true] }) (fun t => wentOut .write t && nvIs t fun x => x.cache.map (·.busy) == [true]) ∧
    after (.backendResponse 7 0 []) (backing nvc [beCmd .zero .free]) (· == backing nvc [beCmd .zero .free]) ∧
    after (.backendTimeout 7) (served nvc) (· == served nvc) ∧
    after (.backendResponse 1 0 []) (backing nvc [beCmd .zero .free]) (fun t => t.nvs.be == []) ∧
    after (.backendResponse 1 0 []) (backing { sanRun 0 1 with run := ⟨true, 0, none, 0, 0, none⟩ } [beCmd .zero .op]) (fun t => nvIs t fun x => x.run.progress == 1) ∧
    after (.backendResponse 1 0 []) (backing { nvc with cache := [{ blk 3 true with busy := true }] } [beCmd .write .destage]) (fun t => t.nvs.be == [] &&
      nvIs t fun x => x.cache.map (fun b => (b.dirty, b.busy)) == [(false, false)]) ∧
    after (.backendResponse 1 0 []) (backing (ioRun 1 .run) [beCmd .write (.cmd 1 0x55)]) (nvDone 8) ∧
    after (.backendResponse 1 0 []) (backing (ioRun 2 .run) [beCmd .read (.cmd 1 0x55)]) (nvDone 8) ∧
    after (.backendResponse 1 0x281 []) ((backing (ioRun 1 .run) [beCmd .write (.cmd 1 0x55)]).setF F.NVS_BACKEND_CFG_RETRIES 1) (fun t =>
      t.nvs.be.map (·.tries) == [2] && t.getF (F.NVS_BE_LAST_STATUS 0) == 0x281) ∧
    nvErr (.backendResponse 1 0x281 []) ((backing (ioRun 1 .run) [beCmd .write (.cmd 1 0x55)]).setF F.NVS_BACKEND_CFG_RETRIES 0) 0x281 ∧
    nvErr (.backendTimeout 1) ((backing (ioRun 1 .run) [beCmd .write (.cmd 1 0x55)]).setF F.NVS_BACKEND_CFG_RETRIES 0) nvUnavailable ∧
    after (.cacheSpaceTimeout 0 1 0x55) (served (ioRun 1 .space)) (nvDone 8) ∧
    nvErr (.cacheSpaceTimeout 0 1 0x55) ((served (ioRun 1 .space)).setReg (bankKey R.NVS_C_CFG 0) (2 ^ 31)) nvUnavailable ∧
    after (.cacheSpaceTimeout 0 1 0x55) (served (ioRun 1 .run)) (· == served (ioRun 1 .run)) ∧
    after (.backendConnectionLost 1) (served nvc) (· == served nvc) ∧
    after (.backendConnectionLost 0) (backing nvc [beCmd .write .destage]) (fun t => t.getF (F.NVS_BE_STATE 0) == 3 && t.getF F.NVS_STATUS_BACKEND_DOWN == 1) ∧
    after (.backendReconnected 0) (withEnv ((served nvc).setF (F.NVS_BE_STATE 0) 3) 256 1) (fun t => t.getF (F.NVS_BE_STATE 0) == 2) := by decide +kernel

theorem witness_NvmeOperations :
    after (.apstIdleExpiry 0) (withF (served nvc) [(F.NVS_PS_IDLE_MS 0, 5)]) (fun t => nvIs t (·.ps == 1) && t.now == 5000000) ∧
    after (.apstIdleExpiry 0) (withF (served { nvc with ps := 2, cache := [blk 3 true] }) [(F.NVS_PS_IDLE_MS 2, 5)]) (fun t => nvIs t fun x => x.ps == 2 &&
      x.entering == some 3) ∧
    after (.exlatDone 0) (served nvc) (· == served nvc) ∧ after (.exlatDone 0) (served { nvc with ps := 3, exiting := some 3 }) (fun t => nvIs t fun x => x.ps == 0 &&
      x.exiting == none) ∧
    after (.exlatDone 0) (served { ioRun 0 .exit with ps := 3, exiting := some 3 }) (nvDone 8) ∧
    after (.sanitizeCheckpoint 0) (served (sanRun 0 1)) (fun t => nvIs t (fun x => x.rec'.seq == 6 && x.rec'.progress == 1) && t.getF F.NVS_CNT_REC_WRITE == 1) ∧
    after (.sanitizePassDone 0) (served (sanRun 0 1)) (fun t => nvIs t fun x => x.rec'.pass == 1 && x.rec'.progress == 0) ∧
    after (.sanitizePassDone 0) (served (sanRun 1 1)) (fun t => nvIs t (fun x => x.rec'.state == 2 && !x.run.active) && t.getF F.NVS_STATUS_SANITIZE_DONE == 1) ∧
    after (.sanitizeFailTimeout 0) (served { sanRun 0 1 with run := ⟨true, 0, some 0, 0, 0, none⟩ }) (fun t => nvIs t fun x => x.rec'.state == 3 && x.rec'.sanFailed) ∧
    after (.operationResume 0) (served { sanRun 0 1 with run := NvOp.idle }) (fun t => nvIs t fun x => x.run.active && x.run.progress == 0) := by decide +kernel

/-- A slice at work, with one byte of host memory written. -/
def stored : State := { work 5 with mem := Mem.write [] (((work 5).slice 0).space.at 5) [9] }

theorem witness_MemoryCanonical : Mem.wf stored.mem = true ∧ stored.mem ≠ [] ∧
    (match step { stored with pending := [.doorbell 0 0 0 1 1 [(64, 3)]] } with | .next t => t.mem != stored.mem | _ => false) = true := by
  decide +kernel

end Sys2Proof.Tests
end

section

/-! ## O2: what reset leaves -/

namespace Sys2Proof.Machine

theorem reg_reset_of_ne {a : Nat} (h : a ≠ R.PWR_LAST_RESET) : State.reset.reg a = resetOf a := by
  have hl : look State.reset.regs a = none := look_put_ne [] R.PWR_LAST_RESET a 0x10000000#32 h.symm
  simp only [State.reg, hl]

/-- Settles O2: the reset state lists one register, PWR_LAST_RESET. -/
theorem resetLeavesResetValues : Obligations.ResetLeavesResetValues :=
  ⟨rfl, by decide +kernel, rfl, fun _ => reg_reset_of_ne, fun _ => rfl, fun _ => ⟨rfl, rfl⟩, rfl, rfl, rfl, rfl⟩

/-! ## O4: plain writes -/

/-! ### Rows whose every field is RW or reserved -/

def RegRow.plain (r : RegRow) : Bool := r.fields.all fun f => f.acc == .rw || f.acc == .resv

/-- The registers by whose address a write does more than set fields, or takes another value than the one written, and the one that
shows the suspension of seals. -/
def effectRegs : List Nat :=
  [R.DEV_SEAL_HOLD, R.SLC_CMD, R.FLT_NEWEL_STEP_LO, R.FLT_NEWEL_STEP_HI, R.ERR_RING_CTRL, R.NVS_C_CFG, R.PKT_SLOW, R.STR_CMD,
    R.STW_FW_CMD, R.PLC_EVAC, R.FLT_NEWEL_CTRL, R.ETH_RETRAIN, R.PWR_RESET_CMD, R.ERR_INJECT, R.STW_CORE_CTRL, R.SIG_SVN_COMMIT,
    R.SIG_LKEY_CMD, R.SIG_DBG_CMD, R.PKT_TLOAD_CTRL, R.CIP_SA_CMD]

/-- Each of them has a field that is neither RW nor reserved. -/
theorem effectRegs_not_plain : effectRegs.all (fun a => (rowOf a).all fun r => !r.plain) = true := by decide +kernel

section
variable {a : Nat} {r : RegRow}

theorem not_mem_effectRegs (hp : r.plain = true) (hr : rowOf a = some r) : a ∉ effectRegs := fun ha => by
  have h := List.all_eq_true.1 effectRegs_not_plain a ha
  simp [hr, hp] at h

theorem hasAcc_of_plain (hp : r.plain = true) {c : Acc} (hrw : c ≠ .rw) (hresv : c ≠ .resv) : r.hasAcc c = false := by
  rw [RegRow.hasAcc, List.any_eq_false]
  intro f hf
  have h := List.all_eq_true.1 hp f hf
  simp only [Bool.or_eq_true, beq_iff_eq] at h ⊢
  rintro rfl
  exact h.elim hrw hresv

/-- Masters have no part in what a plain row takes. -/
theorem mask_of_plain (hp : r.plain = true) (priv sig : Bool) :
    (r.mask fun f => f.acc == .rw || (f.acc == .prw && priv) || (f.acc == .srw && sig)) = r.mask fun f => f.acc == .rw := by
  have h : ∀ f ∈ r.fields, (f.acc == .rw || (f.acc == .prw && priv) || (f.acc == .srw && sig)) = (f.acc == .rw) := by
    intro f hf
    have h := List.all_eq_true.1 hp f hf
    simp only [Bool.or_eq_true, beq_iff_eq] at h
    rcases h with h | h <;> rw [h] <;> rfl
  unfold RegRow.mask
  rw [List.filter_congr h]

end

/-! ### A write to such a register -/

section
variable {s : State} {m : Master} {off : BitVec 26} {data : Word} {a key : Nat} {r : RegRow}

theorem taken_eq (ha : a ∉ effectRegs) : s.taken a data = data := by
  simp only [effectRegs, List.mem_cons, List.not_mem_nil, or_false, not_or] at ha
  obtain ⟨-, slc, -, -, -, cfg, slow, str, fw, evac, ctrl, retrain, reset, inject, core, svn, lkey, dbg, tload, sa⟩ := ha
  have hc : selfClearing a = 0#32 := by
    simp [selfClearing, *]
  have hd : data &&& ~~~0#32 = data := by rw [BitVec.not_zero, BitVec.and_allOnes]
  simp only [State.taken, hc, hd, if_neg slow, if_neg cfg]

/-- The register takes a value, and the seal of its block is suspended where the value is new and the register is sealed. -/
theorem fieldWrite_plain (hp : r.plain = true) (m : Master) (off : Nat) :
    let old := BitVec.ofNat 32 (s.reg key)
    let new := (old &&& ~~~(r.mask fun f => f.acc == .rw)) ||| (data &&& r.mask fun f => f.acc == .rw)
    (new = old ∧ s.fieldWrite m off key r data = s) ∨ s.fieldWrite m off key r data = s.setReg key new.toNat ∨
      ∃ b, s.fieldWrite m off key r data = (s.setReg key new.toNat).sealTouch b := by
  intro old new
  simp only [State.fieldWrite, mask_of_plain hp, hasAcc_of_plain hp (c := .rwb) nofun nofun, hasAcc_of_plain hp (c := .sqc) nofun nofun,
    hasAcc_of_plain hp (c := .prw) nofun nofun, hasAcc_of_plain hp (c := .srw) nofun nofun, Bool.false_and, Bool.false_eq_true, if_false]
  by_cases h : new = old
  · exact .inl ⟨h, if_pos h⟩
  · refine .inr ?_
    have hn : ∀ u, (if new = old then s else u) = u := fun _ => if_neg h
    rw [hn]
    split
    · split
      · exact .inr ⟨_, rfl⟩
      · exact .inl rfl
    · exact .inl rfl

/-- What a write leaves in its register. -/
theorem ofNat_reg_setReg (s : State) (key : Nat) (v : Word) : BitVec.ofNat 32 ((s.setReg key v.toNat).reg key) = v := by
  rw [reg_setReg_same, Nat.mod_eq_of_lt v.isLt, BitVec.ofNat_toNat, BitVec.setWidth_eq]

/-- The suspension of a seal shows in DEV_SEAL_HOLD alone (R270). -/
theorem reg_sealTouch_ne {b c : Nat} (h : R.DEV_SEAL_HOLD ≠ c) : (s.sealTouch b).reg c = s.reg c :=
  reg_setF_ne s (sealHoldF b) 1 c h

theorem keyOf_cases (s : State) (a : Nat) : s.keyOf a = a ∨ 2 ^ 26 ≤ s.keyOf a := by
  unfold State.keyOf
  split_ifs
  all_goals omega

theorem sealHold_ne_keyOf (hp : r.plain = true) (hr : rowOf a = some r) : R.DEV_SEAL_HOLD ≠ s.keyOf a := by
  intro h
  rcases keyOf_cases s a with e | e
  · have ha : a = R.DEV_SEAL_HOLD := e.symm.trans h.symm
    exact not_mem_effectRegs hp hr (ha ▸ List.mem_cons_self)
  · rw [← h] at e
    exact absurd e (by decide)

/-- A full write that starts no command and meets no locked register sets the fields. -/
theorem regWrite_plain {w : State} (hw : s.reach m off.toNat = (some a, w)) (hh : w.writeWaits m ((blockOf a).getD 19) = false)
    (hr : rowOf a = some r) (hp : r.plain = true) (hc : startsCommand a data.toNat = false) (hl : w.extLocked a = false)
    (hj : w.jobContext a = false) : s.regWrite m off data 15#4 = w.fieldWrite m off.toNat (w.keyOf a) r data := by
  have ha := not_mem_effectRegs hp hr
  have ht := taken_eq (s := w) (data := data) ha
  simp only [effectRegs, List.mem_cons, List.not_mem_nil, or_false, not_or] at ha
  obtain ⟨-, slc, lo, hi, err, cfg, -⟩ := ha
  simp [State.regWrite, hw, hh, hr, hc, hl, hj, ht, slc, lo, hi, err, cfg]

end

/-- Settles O4: a plain write is a `fieldWrite`, of which no more than the register and the suspension of its block's seal is left. -/
theorem plainWriteTakesEffect : Obligations.PlainWriteTakesEffect := by
  refine ⟨fun s p off data be stores => rfl, ?_⟩
  intro s w m off data a r hw hh hr hp hc hl hj mask
  refine ⟨w.fieldWrite m off.toNat (w.keyOf a) r data, ?_, ?_⟩
  · rw [← regWrite_plain hw hh hr hp hc hl hj]
    cases m <;> rfl
  · have hk : R.DEV_SEAL_HOLD ≠ w.keyOf a := sealHold_ne_keyOf hp hr
    rcases fieldWrite_plain (s := w) (key := w.keyOf a) (data := data) hp m off.toNat with ⟨hv, he⟩ | he | ⟨b, he⟩ <;>
      rw [he]
    · exact ⟨hv.symm, fun _ _ => rfl, by simp [sameWork, sameBytes, sameEngines, sameTenants, sameDevice]⟩
    · refine ⟨ofNat_reg_setReg _ _ _, fun c hc => ?_, ?_⟩
      · exact reg_setReg_ne _ _ _ _ fun e => hc (e ▸ List.mem_cons_self)
      · simp [sameWork, sameBytes, sameEngines, sameTenants, sameDevice]
    · refine ⟨?_, fun c hc => ?_, ?_⟩
      · rw [reg_sealTouch_ne hk]
        exact ofNat_reg_setReg _ _ _
      · rw [reg_sealTouch_ne fun e => hc (e ▸ List.mem_cons_of_mem _ List.mem_cons_self)]
        exact reg_setReg_ne _ _ _ _ fun e => hc (e ▸ List.mem_cons_self)
      · simp [State.sealTouch, State.begin, State.countFrom, sameWork, sameBytes, sameEngines, sameTenants, sameDevice]

/-! ## O32: completion records -/

/-! ### What posting a record leaves alone -/

/-- The operations, the WAITs, the engines and the device are as they were. -/
structure PostFrame (s t : State) : Prop where
  ops : t.ops = s.ops
  clasps : t.clasps = s.clasps
  engines : sameEngines s t
  device : sameDevice s t

namespace PostFrame
variable {s t u : State}

theorem trans (h : PostFrame s t) (g : PostFrame t u) : PostFrame s u := by
  obtain ⟨g₁, g₂, g₃, g₄⟩ := g
  obtain ⟨h₁, h₂, h₃, h₄⟩ := h
  simp only [sameEngines, sameDevice] at g₃ g₄ h₃ h₄
  constructor <;> simp only [sameEngines, sameDevice, *, and_self]

theorem cqWait (w : List (Nat × List Rec)) : PostFrame s { s with cqWait := w } := by
  constructor <;> simp [sameEngines, sameDevice]

theorem begin (k : Timer) : PostFrame s (s.begin k) := by
  constructor <;> simp [sameEngines, sameDevice, State.begin, State.countFrom]

theorem bump (f : Fld) : PostFrame s (s.bump f) := by constructor <;> simp [sameEngines, sameDevice]

theorem pf0Event (p : Fin 4) (v : Nat) : PostFrame s (s.pf0Event p v) := by
  constructor <;> simp [sameEngines, sameDevice]

end PostFrame

/-! ### A record written into its ring (R307) -/

/-- A slice's message changes its entries and what goes out, nothing else (R287). -/
theorem sliceEvent_eq (s : State) (i v : Nat) : ∃ l o, s.sliceEvent i v = { s with msgs := l, outbox := o } := by
  unfold State.sliceEvent
  extract_lets e
  split
  · exact ⟨_, s.outbox, rfl⟩
  · exact ⟨s.msgs, _, rfl⟩

section
variable {s : State} {q : Nat} {r : Ring} {x : Rec}

/-- Memory once a record stands in its entry and, where the ring has one, its counter copy is written. -/
def State.recMem (s : State) (r : Ring) (x : Rec) : Mem :=
  let m := s.mem.write ((s.ownerSpace r.owner).at (r.base + 32 * (r.fi % r.entries))) x.bytes
  if r.counterAddr = 0 then m else m.write ((s.ownerSpace r.owner).at r.counterAddr) (leBytes 8 ((r.counter + 1) % 2 ^ 64))

/-- The state of a written record before its interrupt. -/
def State.recStored (s : State) (q : Nat) (r : Ring) (x : Rec) : State :=
  ({ s with mem := s.recMem r x }.wakeLink (s.ownerFn r.owner).port (s.ownerFn r.owner).half).setRing q
    { r with fi := (r.fi + 1) % 65536, counter := (r.counter + 1) % 2 ^ 64 }

/-- Whether the record asks for an interrupt, and whether it is PF0's or a slice's. -/
theorem writeRec_cases (s : State) (q : Nat) (r : Ring) (x : Rec) : s.writeRec q r x = s.recStored q r x ∨
    (∃ p v, s.writeRec q r x = (s.recStored q r x).pf0Event p v) ∨
    ∃ l o, s.writeRec q r x = { s.recStored q r x with msgs := l, outbox := o } := by
  have h : s.writeRec q r x = if !r.intEn && !x.intr then s.recStored q r x
      else if r.isPf0 then (s.recStored q r x).pf0Event ⟨r.ownerNum % 4, Nat.mod_lt _ (by decide)⟩ r.vector
      else (s.recStored q r x).sliceEvent r.ownerNum (r.vector % 64) := rfl
  rw [h]
  split
  · exact .inl rfl
  · split
    · exact .inr (.inl ⟨_, _, rfl⟩)
    · exact .inr (.inr (sliceEvent_eq _ _ _))

theorem writeRec_mem : (s.writeRec q r x).mem = s.recMem r x := by
  rcases writeRec_cases s q r x with h | ⟨_, _, h⟩ | ⟨_, _, h⟩ <;>
    simp [h, State.recStored]

theorem writeRec_ring : (s.writeRec q r x).ring q = some
    { r with fi := (r.fi + 1) % 65536, counter := (r.counter + 1) % 2 ^ 64 } := by
  rcases writeRec_cases s q r x with h | ⟨_, _, h⟩ | ⟨_, _, h⟩ <;>
    simp [h, State.recStored, State.ring, State.setRing]

theorem writeRec_recent : (s.writeRec q r x).recent = s.recent := by
  rcases writeRec_cases s q r x with h | ⟨_, _, h⟩ | ⟨_, _, h⟩ <;>
    simp [h, State.recStored]

theorem writeRec_frame : PostFrame s (s.writeRec q r x) := by
  have hs : PostFrame s (s.recStored q r x) := by
    constructor <;> simp [sameEngines, sameDevice, State.recStored]
  rcases writeRec_cases s q r x with h | ⟨_, _, h⟩ | ⟨_, _, h⟩
  · rwa [h]
  · rw [h]; exact hs.trans (.pf0Event _ _)
  · rw [h]; exact hs.trans (by constructor <;> simp [sameEngines, sameDevice])

end

/-! ### Records handed to their ring (R309) -/

theorem drainList_frame (q : Nat) (l : List Rec) (s : State) : PostFrame s (State.drainList q l s) := by
  induction l generalizing s with
  | nil => exact .cqWait _
  | cons x xs ih =>
    unfold State.drainList
    split
    · exact .cqWait _
    · split
      · exact (PostFrame.bump _).trans (ih _)
      · split
        · exact (ih s).trans (.cqWait _)
        · split
          · exact writeRec_frame.trans (ih _)
          · exact .cqWait _

/-- A record put behind those that wait for its ring, and into the history of completions. -/
def State.enqueued (s : State) (q : Nat) (x : Rec) : State :=
  { s with cqWait := put s.cqWait q (s.waiting q ++ [x]), recent := (x.slice, x.source, x.tag) :: s.recent }

section
variable {s : State} {q : Nat} {r : Ring} {x : Rec}

theorem postRaw_frame : PostFrame s (s.postRaw q x) := by
  have he : PostFrame s (s.enqueued q x) := by constructor <;> simp [sameEngines, sameDevice, State.enqueued]
  have hd : PostFrame s ((s.enqueued q x).drainCqRaw q) := he.trans (drainList_frame _ _ _)
  unfold State.postRaw
  extract_lets t
  split
  · exact hd.trans (.begin _)
  · exact hd

/-- A full or stopped PF0 ring loses the record. -/
theorem drainList_lost (hr : s.ring q = some r) (hl : (r.isPf0 && (r.st == 4 || r.cqFull)) = true) :
    State.drainList q [x] s = { s.bump F.ERR_CNT_LOST_COUNT with cqWait := drop s.cqWait q } := by
  simp only [State.drainList, hr, hl, if_true]
  rfl

theorem drainList_written (hr : s.ring q = some r) (hl : (r.isPf0 && (r.st == 4 || r.cqFull)) = false)
    (ho : s.cqOpen r = true) (hf : r.cqFull = false) (hh : s.rxHeld r x = false) :
    State.drainList q [x] s = { s.writeRec q r x with cqWait := drop (s.writeRec q r x).cqWait q } := by
  simp only [State.drainList, hr, hl, hh, ho, Bool.false_eq_true, if_false]
  simp only [hf, Bool.not_false, Bool.and_self, if_true]

theorem drainList_waits (hr : s.ring q = some r) (hl : (r.isPf0 && (r.st == 4 || r.cqFull)) = false)
    (h : s.cqOpen r = false ∨ r.cqFull = true ∨ s.rxHeld r x = true) :
    ∃ w, State.drainList q [x] s = { s with cqWait := w } ∧ lookD w q [] = [x] := by
  by_cases hh : s.rxHeld r x = true
  · refine ⟨put (drop s.cqWait q) q [x], ?_, lookD_put_same _ _ _ _⟩
    simp [State.drainList, hr, hl, hh, State.waiting, lookD]
  · refine ⟨put s.cqWait q [x], ?_, lookD_put_same _ _ _ _⟩
    have hc : (s.cqOpen r && !r.cqFull) = false := by
      rcases h with h | h | h
      · simp [h]
      · simp [h]
      · exact absurd h hh
    simp [State.drainList, hr, hl, hh, hc]

/-- A record for a ring that none waits for is drained alone, and the ring's timer starts where it stays. -/
theorem postRaw_of_waiting_nil (h : s.waiting q = []) :
    s.postRaw q x = if ((State.drainList q [x] (s.enqueued q x)).waiting q).isEmpty
      then State.drainList q [x] (s.enqueued q x) else (State.drainList q [x] (s.enqueued q x)).begin (.ring q) := by
  have hw : (s.enqueued q x).waiting q = [x] := by
    unfold State.enqueued
    rw [h]
    exact lookD_put_same _ _ _ _
  have hp : s.postRaw q x = if (s.waiting q).isEmpty && !(((s.enqueued q x).drainCqRaw q).waiting q).isEmpty
      then ((s.enqueued q x).drainCqRaw q).begin (.ring q) else (s.enqueued q x).drainCqRaw q := rfl
  rw [hp, h, State.drainCqRaw, hw]
  cases ((State.drainList q [x] (s.enqueued q x)).waiting q).isEmpty <;> rfl

theorem postRaw_lost (hr : s.ring q = some r) (hw : s.waiting q = []) (hl : (r.isPf0 && (r.st == 4 || r.cqFull)) = true) :
    s.postRaw q x = { (s.enqueued q x).bump F.ERR_CNT_LOST_COUNT with cqWait := drop (s.enqueued q x).cqWait q } := by
  rw [postRaw_of_waiting_nil hw, drainList_lost (s := s.enqueued q x) hr hl]
  simp [State.waiting, lookD]

theorem postRaw_written (hr : s.ring q = some r) (hw : s.waiting q = [])
    (hl : (r.isPf0 && (r.st == 4 || r.cqFull)) = false) (ho : s.cqOpen r = true) (hf : r.cqFull = false)
    (hh : s.rxHeld r x = false) :
    s.postRaw q x = { (s.enqueued q x).writeRec q r x with
      cqWait := drop ((s.enqueued q x).writeRec q r x).cqWait q } := by
  rw [postRaw_of_waiting_nil hw, drainList_written (s := s.enqueued q x) hr hl ho hf hh]
  simp [State.waiting, lookD]

theorem postRaw_waits (hr : s.ring q = some r) (hw : s.waiting q = [])
    (hl : (r.isPf0 && (r.st == 4 || r.cqFull)) = false)
    (h : s.cqOpen r = false ∨ r.cqFull = true ∨ s.rxHeld r x = true) :
    ∃ w, s.postRaw q x = { s.enqueued q x with cqWait := w }.begin (.ring q) ∧ lookD w q [] = [x] := by
  obtain ⟨w, hd, hx⟩ := drainList_waits (s := s.enqueued q x) hr hl h
  refine ⟨w, ?_, hx⟩
  rw [postRaw_of_waiting_nil hw, hd]
  simp [State.waiting, hx]

theorem postRaw_recent (hr : s.ring q = some r) (hw : s.waiting q = []) :
    (s.postRaw q x).recent = (x.slice, x.source, x.tag) :: s.recent := by
  cases hl : r.isPf0 && (r.st == 4 || r.cqFull) with
  | true => rw [postRaw_lost hr hw hl]; rfl
  | false =>
    by_cases h : s.cqOpen r = false ∨ r.cqFull = true ∨ s.rxHeld r x = true
    · obtain ⟨w, e, -⟩ := postRaw_waits hr hw hl h
      rw [e]; rfl
    · simp only [not_or, Bool.not_eq_false, Bool.not_eq_true] at h
      obtain ⟨ho, hf, hh⟩ := h
      rw [postRaw_written hr hw hl ho hf hh]
      exact writeRec_recent

end

/-! ### Operations that end (R80, R150) -/

section
variable {s : State} {o o' p : Op} {x : Rec}

/-- An operation changed in place: the first of its ring is the one it was, changed where it is the operation itself. -/
theorem find_ring_replace {l : List Op} (ho : l.find? (·.id == o.id) = some o) (hi : o'.id = o.id)
    (hg : o'.ring = o.ring) (hp : l.find? (·.ring == o.ring) = some p) :
    (l.map fun y => if y.id == o'.id then o' else y).find? (·.ring == o.ring) = some (if p.id = o.id then o' else p) := by
  induction l with
  | nil => cases hp
  | cons y ys ih =>
    by_cases hy : y.id = o.id
    · -- the first operation of the number is `o` itself, of its own ring
      have hyo : y = o := by simpa [hy] using ho
      have hyp : y = p := by simpa [hyo] using hp
      simp [hi, hg, hy, ← hyp]
    · rw [List.find?_cons_of_neg (by simpa using hy)] at ho
      have hm : (if y.id == o'.id then o' else y) = y := if_neg (by simpa [hi] using hy)
      rw [List.map_cons, hm]
      by_cases hr : y.ring = o.ring
      · have hyp : y = p := by simpa [hr] using hp
        simp [hy, hr, ← hyp]
      · rw [List.find?_cons_of_neg (by simpa using hr)] at hp ⊢
        exact ih ho hp

theorem find_ring_setOp (ho : s.op o.id = some o) (hi : o'.id = o.id) (hg : o'.ring = o.ring)
    (hp : s.ops.find? (·.ring == o.ring) = some p) :
    (s.setOp o').ops.find? (·.ring == o.ring) = some (if p.id = o.id then o' else p) :=
  find_ring_replace ho hi hg hp

/-- Dropping an operation that has just been changed drops the operation. -/
theorem setOp_dropOp (hi : o'.id = o.id) : (s.setOp o').dropOp o.id = s.dropOp o.id := by
  have h : (s.ops.map fun y => if y.id == o'.id then o' else y).filter (·.id != o.id) = s.ops.filter (·.id != o.id) := by
    induction s.ops with
    | nil => rfl
    | cons y ys ih =>
      by_cases hy : y.id = o.id
      · simpa [hi, hy] using ih
      · simpa [hi, hy] using ih
  unfold State.setOp State.dropOp
  simp only [h]

/-- A ring whose first operation has not ended retires none. -/
theorem retire_of_first {ring n : Nat} (h : ∀ o, s.ops.find? (·.ring == ring) = some o → o.done = none) :
    State.retire ring n s = s := by
  cases n with
  | zero => rfl
  | succ n =>
    unfold State.retire
    split
    · rfl
    next o ho => rw [h o ho]

/-- An operation that ends behind another of its ring keeps its record (R80). -/
theorem finishRaw_behind (ho : s.op o.id = some o) (hp : s.ops.find? (·.ring == o.ring) = some p) (hne : p.id ≠ o.id)
    (hd : p.done = none) : s.finishRaw o.id x = s.setOp { o with done := some x, committed := true } := by
  have hf := find_ring_setOp (o' := { o with done := some x, committed := true }) ho rfl rfl hp
  rw [if_neg hne] at hf
  simp only [State.finishRaw, ho]
  refine retire_of_first fun y hy => ?_
  rw [hf] at hy
  rw [← Option.some.inj hy, hd]

/-- An operation that ends first in its ring leaves the list and posts its record. -/
theorem finishRaw_first (ho : s.op o.id = some o) (hp : s.ops.find? (·.ring == o.ring) = some o)
    (hn : ∀ n, (s.dropOp o.id).ops.find? (·.ring == o.ring) = some n → n.done = none) :
    s.finishRaw o.id x = (s.dropOp o.id).postRaw o.cq x := by
  have hf := find_ring_setOp (o' := { o with done := some x, committed := true }) ho rfl rfl hp
  rw [if_pos rfl] at hf
  simp only [State.finishRaw, ho]
  have hlen : 0 < (s.setOp { o with done := some x, committed := true }).ops.length := by
    simpa [State.setOp] using List.length_pos_of_mem (List.mem_of_find?_eq_some ho)
  obtain ⟨n, hl⟩ := Nat.exists_eq_succ_of_ne_zero hlen.ne'
  rw [hl, State.retire, hf]
  simp only
  rw [setOp_dropOp (o' := { o with done := some x, committed := true }) rfl]
  exact retire_of_first fun y hy => hn y (by rwa [postRaw_frame.ops] at hy)

end

/-! ### The two halves of the obligation -/

theorem finish_eq {s : State} {o : Op} {st res eng : Nat} (ho : s.op o.id = some o) :
    s.finish o.id st res eng = State.claspSettle (s.finishRaw o.id (s.recOf o st res eng)).clasps.length
      (s.finishRaw o.id (s.recOf o st res eng)) := by
  simp only [State.finish, ho, State.finishRec]

theorem lost_counter (s : State) :
    (s.bump F.ERR_CNT_LOST_COUNT).getF F.ERR_CNT_LOST_COUNT = (s.getF F.ERR_CNT_LOST_COUNT + 1) % 2 ^ 32 :=
  getF_bump_same s F.ERR_CNT_LOST_COUNT rfl


/-- Settles O32: the record of an operation that ends goes out in the order of its ring, and `drainList` on the one
record either loses, writes or keeps it. -/
theorem completionRecordPosted : Obligations.CompletionRecordPosted := by
  constructor
  · intro s o p st res eng ho hp x
    constructor
    · intro hne hd
      rw [finish_eq ho, finishRaw_behind ho hp hne hd]
      rfl
    · rintro rfl hn
      rw [finish_eq ho, finishRaw_first ho hp hn, postRaw_frame.clasps]
      rfl
  · intro s q r x hr hw t lost
    refine ⟨postRaw_recent hr hw, postRaw_frame.ops, postRaw_frame.clasps, postRaw_frame.engines, postRaw_frame.device,
      fun hl => ?_, fun hl ho hf hh => ?_, fun hl h => ?_⟩
    · have ht : t = _ := postRaw_lost hr hw hl
      rw [ht]
      exact ⟨lost_counter s, hr, by simp [State.waiting, lookD], fun _ => rfl⟩
    · have ht : t = _ := postRaw_written hr hw hl ho hf hh
      rw [ht]
      exact ⟨writeRec_ring, by simp [State.waiting, lookD], writeRec_mem⟩
    · obtain ⟨w, e, hx⟩ := postRaw_waits hr hw hl h
      have ht : t = _ := e
      rw [ht]
      exact ⟨hx, hr, fun _ => rfl⟩

/-! ## O60: every step keeps memory in its canonical form

One lemma for each function of the model that answers a state: from a canonical state it answers a canonical
state. A proof follows the function's branches; only functions that store to memory cite a lemma of `Laws/Mem`. -/

/-- Memory is in its canonical form: the invariant of every step (log entry 5). -/
def State.Canonical (s : State) : Prop := Mem.wf s.mem = true

theorem Mem.wf_foldl {α : Type} {f : Mem → α → Mem} {l : List α} {m : Mem} (h : Mem.wf m = true)
    (hf : ∀ m x, Mem.wf m = true → Mem.wf (f m x) = true) : Mem.wf (l.foldl f m) = true :=
  List.foldlRecOn (motive := fun m => Mem.wf m = true) l f h fun m hm x _ => hf m x hm

/-- Every next state that an outcome answers has canonical memory. -/
def Res.Canonical (r : Res) : Prop := ∀ t, r = .next t → t.Canonical

theorem Res.Canonical.next {t : State} (h : t.Canonical) : Res.Canonical (.next t) := by
  rintro _ ⟨⟩; exact h

namespace State.Canonical

/-- A state is canonical as soon as its memory is. The conclusion names the 45 fields, so that a goal about a
record update `{ t with … }` unifies with it field by field. -/
theorem mk {regs pend latches sealOk sealBad draws dev pwr str time since leaseMs slcCmd slices nonceBase
    rings ops opNext cqWait recent clasps errFail errHold msgs msix intx links fns mem gal flights flCtl
    flCtlNext fltWait rte plc pp nvs cip stw sig mio outbox held mgmt pending}
    (h : Mem.wf mem = true) :
    State.Canonical ⟨regs, pend, latches, sealOk, sealBad, draws, dev, pwr, str, time, since, leaseMs,
      slcCmd, slices, nonceBase, rings, ops, opNext, cqWait, recent, clasps, errFail, errHold, msgs, msix,
      intx, links, fns, mem, gal, flights, flCtl, flCtlNext, fltWait, rte, plc, pp, nvs, cip, stw, sig,
      mio, outbox, held, mgmt, pending⟩ := h

theorem ite {c : Prop} [Decidable c] {s t : State} (hs : s.Canonical) (ht : t.Canonical) :
    (if c then s else t).Canonical := by
  split <;> assumption

theorem foldl {α : Type} {f : State → α → State} {l : List α} {s : State} (h : s.Canonical)
    (hf : ∀ s x, s.Canonical → (f s x).Canonical) : (l.foldl f s).Canonical :=
  List.foldlRecOn (motive := State.Canonical) l f h fun s hs x _ => hf s x hs

theorem snd {α : Type} {p : α × State} {a : α} {t : State} (h : p.2.Canonical) (e : p = (a, t)) : t.Canonical := by
  subst e; exact h

theorem fst {α : Type} {p : State × α} {a : α} {t : State} (h : p.1.Canonical) (e : p = (t, a)) : t.Canonical := by
  subst e; exact h

theorem getD {o : Option State} {s : State} (ho : ∀ t, o = some t → t.Canonical) (h : s.Canonical) : (o.getD s).Canonical := by
  cases o with
  | none => exact h
  | some t => exact ho t rfl

/-- A fold that may stop answers canonical states where each of its steps does. -/
theorem optFold {α : Type} {f : State → α → Option State} {l : List α} {o : Option State} (ho : ∀ u, o = some u → u.Canonical)
    (hf : ∀ s x u, s.Canonical → f s x = some u → u.Canonical) :
    ∀ u, l.foldl (fun (a : Option State) x => a.bind fun s => f s x) o = some u → u.Canonical := by
  induction l generalizing o with
  | nil => exact ho
  | cons x xs ih =>
    refine ih fun u e => ?_
    obtain ⟨s, hs, e⟩ := Option.bind_eq_some_iff.1 e
    exact hf s x u (ho s hs) e

end State.Canonical

/-! ### Gallery streams: what a command stores -/

/-- A fold over a memory and something beside it keeps the canonical form where each of its steps does. -/
theorem Mem.wf_foldl_fst {α β : Type} {f : Mem × β → α → Mem × β} {l : List α} {r : Mem × β} (h : Mem.wf r.1 = true)
    (hf : ∀ r x, Mem.wf r.1 = true → Mem.wf (f r x).1 = true) : Mem.wf (l.foldl f r).1 = true :=
  List.foldlRecOn (motive := fun r => Mem.wf r.1 = true) l f h fun r hr x _ => hf r x hr

theorem Mem.wf_of_fst {α : Type} {p : Mem × α} {m : Mem} {a : α} (h : Mem.wf p.1 = true) (e : p = (m, a)) : Mem.wf m = true := by
  subst e; exact h

theorem Strm.wf_setRaw {st : Strm} {m : Mem} {i x : Nat} (h : Mem.wf m = true) : Mem.wf (st.setRaw m i x) = true :=
  Mem.wf_write _ _ _ h

theorem Strm.wf_setBlock {st : Strm} {m : Mem} {i scale : Nat} {xs : List Nat} (h : Mem.wf m = true) :
    Mem.wf (st.setBlock m i scale xs) = true :=
  Mem.wf_set _ _ _ (Mem.wf_foldl h fun _ _ h => wf_setRaw h)

theorem Strm.wf_roundOut {st : Strm} {x : Fmt} {c : Ctrl} {rnd : Nat → Nat} {m : Mem} {a n : Nat} {sums : List Accu}
    (h : Mem.wf m = true) : Mem.wf (st.roundOut x c rnd m a n sums).1 = true := by
  unfold Strm.roundOut
  split
  · exact Mem.wf_foldl_fst h fun _ _ h => wf_setBlock h
  · exact Mem.wf_foldl_fst h fun _ _ h => wf_setRaw h

theorem GalCmd.wf_reduce {c : GalCmd} {m : Mem} {draws a n : Nat} (h : Mem.wf m = true) : Mem.wf (c.reduce m draws a n).1 = true := by
  unfold GalCmd.reduce
  extract_lets
  split
  · exact h
  · split
    · extract_lets heads m'
      have hm : Mem.wf m' = true := Mem.wf_foldl h fun _ _ h => Mem.wf_write _ _ _ h
      exact Mem.wf_foldl hm fun _ _ h => Mem.wf_write _ _ _ h
    · split
      next e => exact Mem.wf_of_fst (Strm.wf_roundOut h) e

theorem GalCmd.wf_convert {c : GalCmd} {m : Mem} {a n : Nat} (h : Mem.wf m = true) : Mem.wf (c.convert m a n).1 = true := by
  unfold GalCmd.convert
  split
  · extract_lets
    split
    · refine Mem.wf_foldl_fst h fun r b hr => ?_
      extract_lets
      split
      · split
        · dsimp only
          exact Strm.wf_setBlock hr
        · exact Strm.wf_setBlock hr
      · exact Strm.wf_setBlock hr
    · exact Mem.wf_foldl_fst h fun _ _ h => Strm.wf_setRaw h
  · exact h

theorem Strm.wf_storeRow {st : Strm} {m : Mem} {c : Ctrl} {rnd : Nat → Nat} {vals : List (Nat × Option Val)} (h : Mem.wf m = true) :
    Mem.wf (st.storeRow m c rnd vals).1 = true := by
  unfold Strm.storeRow
  split
  · refine Mem.wf_foldl_fst h fun r e hr => ?_
    split
    · exact hr
    · exact wf_setRaw hr
  · refine Mem.wf_foldl_fst h fun r j hr => ?_
    extract_lets blk
    cases blk with
    | nil => exact hr
    | cons e blk =>
      dsimp only
      split
      · exact hr
      · exact wf_setBlock hr

theorem GalCmd.wf_store {c : GalCmd} {m : Mem} {j : Nat} {ct : Ctrl} {rnd : Nat → Nat} {vals : List (Nat × Option Val)}
    (h : Mem.wf m = true) : Mem.wf (c.fstreams.store m j ct rnd vals).1 = true := by
  unfold GalCmd.fstreams
  dsimp only
  split
  · exact Strm.wf_storeRow h
  · exact h

/-- Instructions other than a stream access touch no memory (R83). -/
theorem laneStep_mem (carry : Nat) (w : FWord) (x : Fmt) (rnd : Nat → Nat) (r : FRun) (i : Nat) : (laneStep carry w x rnd r i).mem = r.mem := by
  unfold laneStep
  split
  · rfl
  · extract_lets _ own _ r'
    have hr : r'.mem = r.mem := by unfold r'; split <;> rfl
    split
    · split
      · exact hr
      · dsimp only
        split <;> split <;> exact hr
    · split
      · rfl
      · split
        · rfl
        · split
          extract_lets
          split <;> rfl

theorem wf_rowStep {c : GalCmd} {carry : Nat} {x : Fmt} {key : Nat → Nat → Nat} {first : Nat} {r : FRun} {word : Nat}
    (h : Mem.wf r.mem = true) : Mem.wf (rowStep c.fstreams carry x key first r word).mem = true := by
  unfold rowStep
  extract_lets w idx
  split
  · exact h
  · split
    · refine List.foldlRecOn (motive := fun r : FRun => Mem.wf r.mem = true) idx _ h fun r hr i _ => ?_
      split
      · exact hr
      · split <;> exact hr
    · split
      · exact GalCmd.wf_store h
      · exact List.foldlRecOn (motive := fun r : FRun => Mem.wf r.mem = true) idx _ h fun r hr i _ => by rw [laneStep_mem]; exact hr

theorem wf_runRow {c : GalCmd} {hd : FHead} {x : Fmt} {key : Nat → Nat → Nat} {body : List Nat} {first n : Nat} {r : FRun}
    (h : Mem.wf r.mem = true) : Mem.wf (runRow c.fstreams hd x key body first n r).mem = true :=
  List.foldlRecOn (motive := fun r : FRun => Mem.wf r.mem = true) body _ h fun _ hr _ _ => wf_rowStep hr

theorem wf_runTail {c : GalCmd} {hd : FHead} {x : Fmt} {key : Nat → Nat → Nat} {tail : List Nat} {r : FRun}
    (h : Mem.wf r.mem = true) : Mem.wf (runTail c.fstreams hd x key tail r).mem = true :=
  List.foldlRecOn (motive := fun r : FRun => Mem.wf r.mem = true) tail _ h fun _ hr _ _ => wf_rowStep hr

theorem GalCmd.wf_program {c : GalCmd} {m : Mem} {a n : Nat} (h : Mem.wf m = true) : Mem.wf (c.program m a n).mem = true :=
  List.foldlRecOn (motive := fun r : FRun => Mem.wf r.mem = true) _ _ h fun _ hr _ _ => wf_runRow hr

namespace State.Canonical
variable {s : State}

/-! ### Machine/Ops -/

theorem setReg {a v : Nat} (h : s.Canonical) : (s.setReg a v).Canonical :=
  .mk h

theorem setF {f : Fld} {v : Nat} (h : s.Canonical) : (s.setF f v).Canonical :=
  .setReg h

theorem setFs {l : List (Fld × Nat)} (h : s.Canonical) : (s.setFs l).Canonical :=
  .foldl h fun _ _ h => .setF h

theorem bumpBy {f : Fld} {n : Nat} (h : s.Canonical) : (s.bumpBy f n).Canonical :=
  .setF h

theorem bump {f : Fld} (h : s.Canonical) : (s.bump f).Canonical :=
  .bumpBy h

theorem bumpSat {f : Fld} (h : s.Canonical) : (s.bumpSat f).Canonical :=
  .setF h

theorem bump64 {lo hi n : Nat} (h : s.Canonical) : (s.bump64 lo hi n).Canonical :=
  .setReg (.setReg h)

theorem eventV {f : Fld} {v : Nat} (h : s.Canonical) : (s.eventV f v).Canonical :=
  .bump (.setF h)

theorem event {f : Fld} (h : s.Canonical) : (s.event f).Canonical :=
  .eventV h

theorem drawWord (h : s.Canonical) : (s.drawWord).2.Canonical :=
  .mk h

theorem send {o : Out} (h : s.Canonical) : (s.send o).Canonical :=
  .mk h

theorem elapse {d : Nat} (h : s.Canonical) : (s.elapse d).Canonical :=
  .mk h

theorem atLeast {t : Nat} (h : s.Canonical) : (s.atLeast t).Canonical :=
  .elapse h

theorem upTo {t : Nat} (h : s.Canonical) : (s.upTo t).Canonical :=
  .elapse h

theorem countFrom {k : Timer} {t : Nat} (h : s.Canonical) : (s.countFrom k t).Canonical :=
  .mk h

theorem begin {k : Timer} (h : s.Canonical) : (s.begin k).Canonical :=
  .countFrom h

theorem beginOnce {k : Timer} (h : s.Canonical) : (s.beginOnce k).Canonical :=
  .ite h (.begin h)

theorem ripe {k : Timer} {d : Nat} (h : s.Canonical) : (s.ripe k d).Canonical := by
  unfold State.ripe
  split; exacts [.mk (upTo h), h]

theorem violate {m : Master} {k : Viol} {off : Nat} (h : s.Canonical) : (s.violate m k off).Canonical :=
  .setReg (.bump h)

theorem setFn {f : Func} {c : FnCfg} (h : s.Canonical) : (s.setFn f c).Canonical :=
  .mk h

theorem wakeLink {p half : Nat} (h : s.Canonical) : (s.wakeLink p half).Canonical :=
  .ite (.setF h) h

theorem wakeMaster {x : Master} (h : s.Canonical) : (s.wakeMaster x).Canonical := by
  unfold State.wakeMaster
  split; exacts [.wakeLink h, h]

theorem guardWrite {m : Master} {addr : Nat} {c : Instr} {act : State → State}
    (h : s.Canonical) (hact : ∀ t, t.Canonical → (act t).Canonical) :
    (s.guardWrite m addr c act).Canonical := by
  unfold State.guardWrite
  refine .ite h ?_
  extract_lets
  split
  · exact .wakeMaster h
  · refine .ite (.wakeMaster h) ?_
    exact .ite (.mk (wakeMaster h)) (.ite (hact _ (.wakeMaster h)) (.violate (.wakeMaster h)))

theorem openWrite {m : Master} {addr : Nat} {c : Instr} {act : State → State}
    (h : s.Canonical) (hact : ∀ t, t.Canonical → (act t).Canonical) : (s.openWrite m addr c act).Canonical := by
  unfold State.openWrite
  refine .ite h ?_
  extract_lets
  split; exacts [.wakeMaster h, .ite (.wakeMaster h) (.ite (.mk (wakeMaster h)) (hact _ (.wakeMaster h)))]

theorem dmaWait {c : Instr} {act : State → State}
    (h : s.Canonical) (hact : ∀ t, t.Canonical → (act t).Canonical) : (s.dmaWait c act).Canonical :=
  .ite (.mk h) (hact _ h)

theorem pendWrite {a : Nat} {mask v : Word} (h : s.Canonical) : (s.pendWrite a mask v).Canonical := by
  unfold State.pendWrite
  extract_lets; split; exacts [.setF (.mk h), .mk h]

theorem applyGroup {f : Fld} (h : s.Canonical) : (s.applyGroup f).Canonical :=
  .setF (.mk (foldl h fun _ _ h => .setReg h))

/-! ### Machine/Flags -/

theorem setVec {p v : Nat} {ev : MsgEntry} (h : s.Canonical) : (s.setVec p v ev).Canonical :=
  .mk h

theorem pf0Event {p : Fin 4} {v : Nat} (h : s.Canonical) : (s.pf0Event p v).Canonical := by
  unfold State.pf0Event
  extract_lets; split; exacts [.setVec h, .ite (.setVec h) (.send h), .ite (.setVec h) (.mk (send (.setVec h)))]

theorem intxSettle {p : Fin 4} (h : s.Canonical) : (s.intxSettle p).Canonical :=
  .ite (.mk (send h)) (.ite (.mk (send h)) h)

theorem msixDrain {p : Fin 4} (h : s.Canonical) : (s.msixDrain p).Canonical :=
  .foldl h fun _ _ h => .ite h (.send (.setVec h))

theorem setSlice {i : Nat} {x : Slice} (h : s.Canonical) : (s.setSlice i x).Canonical :=
  .mk h

theorem sliceEvent {i v : Nat} (h : s.Canonical) : (s.sliceEvent i v).Canonical :=
  .ite (.mk h) (.send h)

theorem sliceMsgDrain {i : Nat} (h : s.Canonical) : (s.sliceMsgDrain i).Canonical :=
  .foldl h fun _ _ h => .ite (.send (.mk h)) h

theorem errLost (h : s.Canonical) : s.errLost.Canonical :=
  .event (.bump h)

theorem errPut {ev : ErrRec} (h : s.Canonical) : (s.errPut ev).Canonical :=
  .ite h (.ite (.errLost h) (.ite (.errLost (.mk h)) (.pf0Event (.setReg (.mk (Mem.wf_write _ _ _ h))))))

theorem errRecord {cls block slice code status loc : Nat} {inj : Bool} (h : s.Canonical) :
    (s.errRecord cls block slice code status loc inj).Canonical :=
  .ite (.mk h) (.errPut h)

theorem errDrain (h : s.Canonical) : s.errDrain.Canonical :=
  .foldl (.mk h) fun _ _ h => .errPut h

theorem aer {cls : Nat} (h : s.Canonical) : (s.aer cls).Canonical :=
  .ite h (.foldl h fun _ _ h => .send h)

theorem report {code block slice status loc : Nat} (h : s.Canonical) :
    (s.report code block slice status loc).Canonical :=
  .aer (.errRecord (.event (.bump (.mk (ite (.mk h) h)))))

theorem hostFault {slice status addr : Nat} (h : s.Canonical) : (s.hostFault slice status addr).Canonical :=
  .report (.event h)

theorem inject {cls block slice : Nat} (h : s.Canonical) : (s.inject cls block slice).Canonical :=
  .errRecord (.event (.bump h))

theorem setDev {d : Dev} (h : s.Canonical) : (s.setDev d).Canonical :=
  .ite (.event (.mk h)) (.mk h)

theorem fatal {reason item block : Nat} (h : s.Canonical) : (s.fatal reason item block).Canonical := by
  unfold State.fatal
  split
  case h_5 => exact h
  all_goals exact .mk (setFs (.report (.setDev (.setF (.setF (.errDrain (.foldl h fun _ _ h => .setF h)))))))

/-! ### Machine/Operands -/

theorem setRing {q : Nat} {r : Ring} (h : s.Canonical) : (s.setRing q r).Canonical :=
  .mk h

theorem mgmtAsk {c : Instr} {act : State → State}
    (h : s.Canonical) (hact : ∀ t, t.Canonical → (act t).Canonical) : (s.mgmtAsk c act).Canonical :=
  .ite (.mk h) (hact _ h)

theorem writeRec {q : Nat} {r : Ring} {x : Rec} (h : s.Canonical) : (s.writeRec q r x).Canonical := by
  unfold State.writeRec
  refine .ite ?_ ?_
  · refine .setRing (.wakeLink ?_)
    refine .mk ?_
    split; exacts [Mem.wf_write _ _ _ h, Mem.wf_write _ _ _ (Mem.wf_write _ _ _ h)]
  · refine .ite ?_ ?_
    · refine .pf0Event (.setRing ?_)
      refine .wakeLink (.mk ?_)
      split; exacts [Mem.wf_write _ _ _ h, Mem.wf_write _ _ _ (Mem.wf_write _ _ _ h)]
    · refine .sliceEvent (.setRing ?_)
      refine .wakeLink (.mk ?_)
      split; exacts [Mem.wf_write _ _ _ h, Mem.wf_write _ _ _ (Mem.wf_write _ _ _ h)]

theorem drainList {q : Nat} {l : List Rec} (h : s.Canonical) : (State.drainList q l s).Canonical := by
  induction l generalizing s with
  | nil => exact .mk h
  | cons x xs ih =>
    unfold State.drainList
    split
    · exact .mk h
    · exact .ite (ih (.bump h)) (.ite (.mk (ih h)) (.ite (ih (.writeRec h)) (.mk h)))

theorem drainCqRaw {q : Nat} (h : s.Canonical) : (s.drainCqRaw q).Canonical :=
  .drainList h

theorem postRaw {q : Nat} {x : Rec} (h : s.Canonical) : (s.postRaw q x).Canonical :=
  .ite (.begin (.drainCqRaw (.mk h))) (.drainCqRaw (.mk h))

theorem setOp {o : Op} (h : s.Canonical) : (s.setOp o).Canonical :=
  .mk h

theorem commitOp {id : Nat} (h : s.Canonical) : (s.commitOp id).Canonical :=
  .mk h

theorem deferOp {id : Nat} (h : s.Canonical) : (s.deferOp id).Canonical :=
  .mk h

theorem dropOp {id : Nat} (h : s.Canonical) : (s.dropOp id).Canonical :=
  .mk h

theorem retire {ring n : Nat} (h : s.Canonical) : (State.retire ring n s).Canonical := by
  induction n generalizing s with
  | zero => exact h
  | succ n ih =>
    unfold State.retire
    split
    · exact h
    · split
      · exact h
      · exact ih (.postRaw (.dropOp h))

theorem finishRaw {id : Nat} {x : Rec} (h : s.Canonical) : (s.finishRaw id x).Canonical := by
  unfold State.finishRaw
  split; exacts [h, .retire (.setOp h)]

theorem finishNowRaw {id : Nat} {x : Rec} (h : s.Canonical) : (s.finishNowRaw id x).Canonical := by
  unfold State.finishNowRaw
  split; exacts [h, .postRaw (.dropOp h)]

theorem waitCount {status : Nat} (h : s.Canonical) : (s.waitCount status).Canonical :=
  .ite (.bump (.bump h)) (.bump h)

theorem waitRecord {c : Clasp} {status : Nat} (h : s.Canonical) : (s.waitRecord c status).Canonical := by
  unfold State.waitRecord
  extract_lets
  split
  · exact .ite (.finishNowRaw (.waitCount (.setRing (.mk h)))) (.finishRaw (.waitCount (.setRing (.mk h))))
  · exact .mk h

theorem cancelBehind {q : Nat} (h : s.Canonical) : (s.cancelBehind q).Canonical := by
  unfold State.cancelBehind
  split
  · exact h
  · refine .ite ?_ (.retire (.mk (setRing h)))
    refine .foldl (.mk (setRing h)) fun _ _ h => ?_
    split
    · split; exacts [.finishNowRaw h, h]
    · exact h

theorem claspSettle {n : Nat} (h : s.Canonical) : (State.claspSettle n s).Canonical := by
  induction n generalizing s with
  | zero => exact h
  | succ n ih =>
    unfold State.claspSettle
    split
    · exact h
    · exact ih (.waitRecord h)

theorem waitEnd {c : Clasp} {status : Nat} (h : s.Canonical) : (s.waitEnd c status).Canonical :=
  .claspSettle (.ite (.waitRecord h) (.cancelBehind (.waitRecord h)))

theorem drainCq {q : Nat} (h : s.Canonical) : (s.drainCq q).Canonical :=
  .claspSettle (.drainCqRaw h)

theorem finishRec {id : Nat} {x : Rec} (h : s.Canonical) : (s.finishRec id x).Canonical :=
  .claspSettle (.finishRaw h)

theorem finish {id status result engine : Nat} (h : s.Canonical) :
    (s.finish id status result engine).Canonical := by
  unfold State.finish
  split; exacts [h, .finishRec h]

theorem finishNow {id status result engine : Nat} (h : s.Canonical) :
    (s.finishNow id status result engine).Canonical := by
  unfold State.finishNow
  split; exacts [h, .claspSettle (.finishNowRaw h)]

theorem fetch {q kind tag : Nat} {d : Desc} {o : Op} {u : State}
    (h : s.Canonical) (eq : s.fetch q kind tag d = some (o, u)) :
    u.Canonical := by
  unfold State.fetch at eq
  split at eq
  · cases eq
  · extract_lets at eq
    split at eq
    · obtain ⟨-, rfl⟩ := Prod.mk.inj (Option.some.inj eq)
      exact .mk (setRing (.wakeLink h))
    · cases eq

/-! ### Machine/Coffer -/

theorem charge {slice : Option Nat} {c : Nat} (h : s.Canonical) : (s.charge slice c).Canonical :=
  .mk h

theorem deferUnit {slice : Option Nat} (h : s.Canonical) : (s.deferUnit slice).Canonical := by
  unfold State.deferUnit
  extract_lets; split; exacts [.mk (bump h), .mk (setSlice (.mk (bump h)))]

theorem offer {ev : Nat} {slice : Option Nat} {c : Nat} (h : s.Canonical) :
    (s.offer ev slice c).2.Canonical := by
  unfold State.offer
  split; exacts [h, by extract_lets; split; exacts [.mk (charge (.mk h)), .mk (deferUnit (.mk h))]]

/-! ### Machine/Seal -/

theorem sealTouch {b : Nat} (h : s.Canonical) : (s.sealTouch b).Canonical :=
  .begin (.setF h)

theorem sealTick {b : Nat} (h : s.Canonical) : (s.sealTick b).Canonical := by
  unfold State.sealTick
  refine .ite h (.ite (.setReg h) ?_)
  refine .ite (.mk (setReg h)) (.ite (.setReg h) ?_)
  refine .report (.event ?_)
  split; exacts [.event (.mk (setReg h)), .mk (setReg h)]

theorem sealRef {b v : Nat} (h : s.Canonical) : (s.sealRef b v).Canonical :=
  .foldl (.mk (setF (.setReg h))) fun _ _ h => .ite (.setF h) h

theorem sealSuspend {b : Nat} (h : s.Canonical) : (s.sealSuspend b).Canonical :=
  .mk (setF h)

theorem sqcWrite {key : Nat} {r : RegRow} {data : Nat} (h : s.Canonical) : (s.sqcWrite key r data).Canonical :=
  .ite (.foldl h fun _ _ h => .ite (.setF h) h) h

theorem fieldWrite {m : Master} {off key : Nat} {r : RegRow} {data : Word} (h : s.Canonical) :
    (s.fieldWrite m off key r data).Canonical := by
  unfold State.fieldWrite
  extract_lets -underBinder priv sig now old new s₀ s₁ s₂ s₃ s₄
  have h₀ : s₀.Canonical := .setReg h
  have h₁ : s₁.Canonical := by
    refine .ite h ?_
    split
    · exact .ite (.sealTouch h₀) h₀
    · exact h₀
  have h₂ : s₂.Canonical := .ite (.pendWrite h₁) h₁
  have h₃ : s₃.Canonical := .ite (.sqcWrite h₂) h₂
  have h₄ : s₄.Canonical := .ite (.violate h₃) h₃
  exact .ite (.violate h₄) h₄

theorem loadReg {r : RegRow} {a : Nat} {w : Word} (h : s.Canonical) : (s.loadReg r a w).Canonical :=
  .setReg h

theorem loadBlock {body : List Byte} {b : Nat} (h : s.Canonical) : (s.loadBlock body b).Canonical :=
  .foldl h fun _ _ h => .ite (.foldl h fun _ _ h => .loadReg h) h

theorem loadWindow {body : List Byte} {b n : Nat} {sel : Nat → Bool} (h : s.Canonical) :
    (s.loadWindow body b n sel).Canonical :=
  .foldl h fun _ _ h => .ite (.foldl h fun _ _ h => .foldl h fun _ _ h => .loadReg h) h

theorem loadHall {body : List Byte} {half : Nat} (h : s.Canonical) : (s.loadHall body half).Canonical := by
  refine .foldl h fun _ _ h => .ite (.loadWindow (.loadBlock h)) ?_
  exact .ite (.loadWindow (.loadBlock h)) (.ite (.loadWindow (.loadBlock h)) (.loadBlock h))

theorem dropStreamPend {b : Nat} (h : s.Canonical) : (s.dropStreamPend b).Canonical :=
  .foldl (.mk h) fun _ _ h => .ite h (.setF h)

/-! ### Machine/Env -/

theorem envRaise {cls item stated observed : Nat} (h : s.Canonical) :
    (s.envRaise cls item stated observed).Canonical :=
  .report (.event (.ite (.mk (foldl h fun _ _ h => .setReg h)) (.bumpSat h)))

theorem envClear {cls : Nat} (h : s.Canonical) : (s.envClear cls).Canonical :=
  .setF h

theorem linkCheck {p half : Nat} (h : s.Canonical) : (s.linkCheck p half).Canonical :=
  .ite h (.ite (.setF (.mk h)) (.ite h (.envRaise (.setF (.mk h)))))

theorem linkTried {p half : Nat} {fresh : Bool} (h : s.Canonical) : (s.linkTried p half fresh).Canonical :=
  .ite (.setF h) (.linkCheck h)

theorem portsClear (h : s.Canonical) : s.portsClear.Canonical :=
  .ite (.envClear h) h

theorem portsCheck (h : s.Canonical) : s.portsCheck.Canonical :=
  .portsClear (.foldl h fun _ _ h => .linkCheck (.linkCheck h))

theorem accelCheck {accel : BitVec 8} {sel : Nat → Bool} (h : s.Canonical) :
    (s.accelCheck accel sel).Canonical := by
  unfold State.accelCheck
  extract_lets u
  have hu : u.Canonical := .foldl h fun _ _ h => .ite h (.ite (.mk h) (.ite h (.envRaise (.mk h))))
  exact .ite (.envClear hu) hu

theorem setPortLanes {g : Nat} (h : s.Canonical) : (s.setPortLanes g).Canonical :=
  .setF h

theorem setWorking {g m : Nat} (h : s.Canonical) : (s.setWorking g m).Canonical :=
  .foldl (.setF h) fun _ _ h => .setF h

theorem groupTrained {g m : Nat} (h : s.Canonical) : (s.groupTrained g m).Canonical :=
  .ite (.envRaise (.setPortLanes (.setF (.mk (setWorking h))))) (.setPortLanes (.setF (.setWorking h)))

theorem groupsCheck (h : s.Canonical) : s.groupsCheck.Canonical := by
  unfold State.groupsCheck
  extract_lets -underBinder s₁
  have h₁ : s₁.Canonical := .foldl h fun _ _ h => .ite (.ite (.setPortLanes (.setF (.mk h))) (.mk h)) h
  exact .ite (.envClear h₁) h₁

theorem backendMiss {k status : Nat} (h : s.Canonical) : (s.backendMiss k status).Canonical :=
  .ite h (.envRaise (.mk h))

theorem backendsCheck (h : s.Canonical) : s.backendsCheck.Canonical :=
  .ite (.envClear (.mk h)) (.mk h)

theorem ptpCheck (h : s.Canonical) : s.ptpCheck.Canonical :=
  .ite (.envClear (.mk h)) h

theorem driverCheck (h : s.Canonical) : s.driverCheck.Canonical :=
  .ite (.setDev h) (.ite (.setDev h) h)

theorem envSettle (h : s.Canonical) : s.envSettle.Canonical :=
  .ite (.driverCheck (.setDev h)) h

/-! ### Machine/PlcOps -/

theorem setObj {k : Nat} {o : TObj} (h : s.Canonical) : (s.setObj k o).Canonical :=
  .mk h

theorem updPage {k p : Nat} {f : TPage → TPage} (h : s.Canonical) : (s.updPage k p f).Canonical := by
  unfold State.updPage
  split; exacts [h, .setObj h]

theorem reserveT1 {i n : Nat} (h : s.Canonical) : (s.reserveT1 i n).2.Canonical :=
  .ite (.mk h) h

theorem releaseT1 {i : Nat} (h : s.Canonical) : (s.releaseT1 i).Canonical :=
  .mk h

theorem findFrame {i t : Nat} {avoid : Option Nat} {near : optParam (List Nat) []} (h : s.Canonical) :
    (s.findFrame i t avoid near).2.Canonical :=
  .drawWord h

theorem frameFor {k p copy t : Nat} (h : s.Canonical) : (s.frameFor k p copy t).2.Canonical := by
  unfold State.frameFor
  split; exacts [h, .findFrame h]

theorem blankHome {k p c : Nat} (h : s.Canonical) : (s.blankHome k p c).Canonical := by
  unfold State.blankHome
  split; exacts [.mk (Mem.wf_clear _ _ _ h), h]

theorem takeIn {k p c : Nat} (h : s.Canonical) : (s.takeIn k p c).Canonical := by
  unfold State.takeIn
  split; exacts [.mk (Mem.wf_carry _ _ _ _ h), h]

theorem firstWrite {k p : Nat} (h : s.Canonical) : (s.firstWrite k p).Canonical := by
  unfold State.firstWrite
  split
  · exact h
  · refine .ite h ?_
    split
    · exact h
    · split
      next t e =>
        have ht : t.Canonical := .snd (frameFor h) e
        extract_lets -underBinder s₁ s₂
        have h₁ : s₁.Canonical := .updPage ht
        have h₂ : s₂.Canonical := .ite (.blankHome h₁) h₁
        refine .ite ?_ h₂
        split
        next u e =>
          have hu : u.Canonical := .snd (frameFor h₂) e
          exact .ite (.blankHome (.updPage hu)) (.updPage hu)

theorem addMove {m : Move} (h : s.Canonical) : (s.addMove m).Canonical :=
  .mk h

theorem markDeferred {ks : List Nat} (h : s.Canonical) : (s.markDeferred ks).Canonical :=
  .mk h

theorem fetchLater {k p : Nat} {refused : Bool} (h : s.Canonical) : (s.fetchLater k p refused).Canonical :=
  .mk h

theorem startFetch {k p : Nat} (h : s.Canonical) : (s.startFetch k p).Canonical := by
  unfold State.startFetch
  split
  · exact h
  · split
    · refine .ite h (.ite (.fetchLater h) ?_)
      split
      · exact .fetchLater h
      · refine .ite ?_ (.fetchLater (.markDeferred (.deferUnit (.bump h))))
        split
        next u e =>
          have hu : u.Canonical := .snd (frameFor h) e
          split
          · exact .mk (addMove (.charge hu))
          · exact .fetchLater hu
    · exact .mk h

theorem fetchPages {k : Nat} {write : Bool} {ps : List Nat} (h : s.Canonical) :
    (s.fetchPages k write ps).Canonical :=
  .foldl (.ite (.foldl h fun _ _ h => .firstWrite h) h) fun _ _ h => .startFetch h

theorem refetch (h : s.Canonical) : s.refetch.Canonical :=
  .foldl h fun _ _ h => .ite h (.startFetch h)

theorem fetchEpoch (h : s.Canonical) : s.fetchEpoch.Canonical :=
  .refetch (.mk h)

theorem heat {k off len : Nat} (h : s.Canonical) : (s.heat k off len).Canonical :=
  .foldl h fun _ _ h => .updPage h

theorem tierTouch {k p : Nat} (h : s.Canonical) : (s.tierTouch k p).Canonical := by
  unfold State.tierTouch
  extract_lets
  split; exacts [.firstWrite h, .ite (.event (.updPage (.firstWrite h))) (.updPage (.firstWrite h))]

theorem writePage {k p off : Nat} {bs : List Byte} (h : s.Canonical) : (s.writePage k p off bs).Canonical := by
  unfold State.writePage
  split
  · exact h
  · refine .ite h ?_
    extract_lets
    split
    · exact .tierTouch (.updPage h)
    · refine .mk ?_
      split
      · exact Mem.wf_write _ _ _ (Mem.wf_write _ _ _ (tierTouch (.updPage h)))
      · exact Mem.wf_write _ _ _ (tierTouch (.updPage h))

theorem tierWrite {k off : Nat} {bs : List Byte} (h : s.Canonical) : (s.tierWrite k off bs).Canonical :=
  .foldl h fun _ _ h => .writePage h

theorem retire' {f i : Nat} (h : s.Canonical) : (s.retire' f i).Canonical :=
  .ite (.mk h) (.ite (.ite (.mk h) (.report (.mk (mk h)))) (.ite (.event (.mk (mk h))) (.mk (mk h))))

theorem freed {i : Nat} {l : List (Nat × Nat)} (h : s.Canonical) : (s.freed i l).Canonical :=
  .foldl h fun _ _ h => .ite (.retire' h) h

theorem retireLoc {l : Option (Nat × Nat)} {i : Nat} (h : s.Canonical) : (s.retireLoc l i).Canonical := by
  unfold State.retireLoc
  split; exacts [.retire' h, h]

theorem losePage {k p : Nat} (h : s.Canonical) : (s.losePage k p).Canonical := by
  unfold State.losePage
  split
  · exact h
  · refine .report ?_
    exact .event (.mk (Mem.wf_clear _ _ _ (Mem.wf_clear _ _ _ (retireLoc (.retireLoc (.mk (updPage h)))))))

theorem frameCe {f : Nat} (h : s.Canonical) : (s.frameCe f).Canonical :=
  .ite (.bump64 (.mk h)) (.ite (.bump64 (.mk h)) (.ite (.mk (bump64 (.mk h))) (.retire' (.bump64 (.mk h)))))

theorem copyPage {o : TObj} {k p c : Nat} (h : s.Canonical) : (s.copyPage o k p c).Canonical :=
  .mk (Mem.wf_carry _ _ _ _ h)

theorem repaired {o : TObj} {k p : Nat} (h : s.Canonical) : (s.repaired o k p).Canonical :=
  .report (.bump h)

theorem markCopy {o : TObj} {k p c : Nat} {st : CopySt} (h : s.Canonical) : (s.markCopy o k p c st).Canonical :=
  .ite (.updPage (.mk (Mem.wf_carry _ _ _ _ h))) (.updPage h)

theorem copyFailed {k p c : Nat} (h : s.Canonical) : (s.copyFailed k p c).Canonical := by
  unfold State.copyFailed
  split; exacts [h, .retireLoc (.markCopy h)]

theorem pageUe {k p c : Nat} (h : s.Canonical) : (s.pageUe k p c).Canonical := by
  unfold State.pageUe
  split
  · exact h
  · exact .ite (.event (.bump h)) (.ite (.copyFailed (.event (.bump h))) (.losePage (.event (.bump h))))

theorem compareCopies {k p : Nat} {ok0 ok1 : Bool} (h : s.Canonical) :
    (s.compareCopies k p ok0 ok1).Canonical := by
  unfold State.compareCopies
  split
  · exact h
  · refine .ite (.losePage h) (.ite (.ite (.copyFailed h) h) ?_)
    refine .ite (.ite (.copyFailed h) h) ?_
    exact .ite h (.ite (.updPage h) (.ite (.report (.bump (.event (.setObj h)))) (.markCopy h)))

theorem decayBoundary (h : s.Canonical) : s.decayBoundary.Canonical := by
  unfold State.decayBoundary
  extract_lets s₁ s₂ _ s₃
  have h₂ : s₂.Canonical := .foldl (.begin (.ripe h)) fun _ _ h => .applyGroup h
  have h₃ : s₃.Canonical := by
    unfold s₃
    split; exacts [.mk h₂, h₂]
  exact .mk h₃

theorem beginMove {payer a : Nat} {behind : List Nat} {m : Move} (h : s.Canonical) :
    (s.beginMove payer a behind m).Canonical :=
  .ite (.addMove (.offer h)) (.markDeferred (.bump (.offer h)))

theorem demote {payer t bucket : Nat} {behind : List Nat} {u : State}
    (h : s.Canonical) (eq : s.demote payer t bucket behind = some u) :
    u.Canonical := by
  unfold State.demote at eq
  split at eq
  · cases eq
  · split at eq
    · cases eq
    · obtain ⟨_, _, rfl⟩ := Option.map_eq_some_iff.1 eq
      exact .beginMove (.frameFor h)

theorem startFrom {l : List Cand} (h : s.Canonical) : (State.startFrom l s).Canonical := by
  induction l generalizing s with
  | nil => exact h
  | cons c cs ih =>
    unfold State.startFrom
    split
    · exact ih h
    · refine .ite (.beginMove h) ?_
      split
      · refine .ite ?_ (ih h)
        extract_lets
        split
        next e =>
          split at e
          · exact .demote h e
          · cases e
        · exact ih (.mk h)
      · split
        next u e =>
          have hu : u.Canonical := .snd (frameFor h) e
          split
          · exact .beginMove hu
          · exact ih hu

theorem bufferMove {k i f : Nat} {u : State} (h : s.Canonical) (eq : s.bufferMove k i f = some u) :
    u.Canonical := by
  unfold State.bufferMove at eq
  split at eq
  next t e =>
    have ht : t.Canonical := .snd (findFrame h) e
    obtain ⟨_, _, rfl⟩ := Option.map_eq_some_iff.1 eq
    exact .ite (.bump (.offer ht)) (.freed (.bump64 (.mk (offer ht))))

theorem moveStart (h : s.Canonical) : s.moveStart.Canonical := by
  unfold State.moveStart
  exact .ite h (by split; exacts [.getD (fun _ => .bufferMove h) (.startFrom h), .startFrom h])

theorem copyDone {k p : Nat} (h : s.Canonical) : (s.copyDone k p).Canonical := by
  unfold State.copyDone
  split; exacts [.updPage (.mk (Mem.wf_carry _ _ _ _ (ite (.repaired (.bump64 (.mk h))) (.bump64 (.mk h))))), h]

theorem drainDone {k p : Nat} (h : s.Canonical) : (s.drainDone k p).Canonical := by
  unfold State.drainDone
  split; exacts [h, .freed (.mk h)]

theorem moveFail {k p : Nat} (h : s.Canonical) : (s.moveFail k p).Canonical := by
  unfold State.moveFail
  split; exacts [h, .ite (.event (.bump (.mk h))) (.bump (.mk h))]

theorem freeObj {k : Nat} (h : s.Canonical) : (s.freeObj k).Canonical := by
  unfold State.freeObj
  split; exacts [h, .freed (.mk (Mem.wf_clear _ _ _ (Mem.wf_clear _ _ _ h)))]

theorem plcSweep (h : s.Canonical) : s.plcSweep.Canonical :=
  .mk h

theorem poolFault {st : Nat} (h : s.Canonical) : (s.poolFault st).Canonical :=
  .ite (.event h) h

theorem plcEndSlice {i : Nat} (h : s.Canonical) : (s.plcEndSlice i).Canonical :=
  .mk (plcSweep h)

theorem plcResetSlice {i : Nat} {keep : Bool} (h : s.Canonical) : (s.plcResetSlice i keep).Canonical :=
  .ite (.mk (plcEndSlice h)) (.mk (foldl (.mk (plcEndSlice h)) fun _ _ h => .freeObj h))

/-! ### Machine/TxOps -/

theorem bucketHold {f : Fld} (h : s.Canonical) : (s.bucketHold f).Canonical :=
  .foldl h fun _ _ h => .ite (.mk h) (.ite (.mk h) (.ite (.mk h) h))

theorem treeSwitch {f : Fld} (h : s.Canonical) : (s.treeSwitch f).Canonical :=
  .foldl (.applyGroup (.mk h)) fun _ _ h => .pendWrite h

theorem bufferedApply {b bit : Nat} (h : s.Canonical) : (s.bufferedApply b bit).Canonical := by
  unfold State.bufferedApply
  extract_lets -underBinder f trees _ touched s₁
  have h₁ : s₁.Canonical := .ite (.treeSwitch h) (.applyGroup (.bucketHold h))
  exact .ite h (.ite (.ite (.mk h) h) (.ite (.sealTouch h₁) h₁))

theorem setTxQueue {k : Nat} {l : List TxFrame} (h : s.Canonical) : (s.setTxQueue k l).Canonical :=
  .mk h

theorem txNet {port queue owner len : Nat} {o : Out} (h : s.Canonical) :
    (s.txNet port queue owner len o).Canonical :=
  .setTxQueue h

/-! ### Machine/NvsOps -/

theorem setCtrl {c : Nat} {x : NvCtrl} (h : s.Canonical) : (s.setCtrl c x).Canonical :=
  .mk h

theorem updCtrl {c : Nat} {f : NvCtrl → NvCtrl} (h : s.Canonical) : (s.updCtrl c f).Canonical :=
  .setCtrl h

theorem prpWrite {c : Nat} {d : Desc} {bs : List Byte} (h : s.Canonical) : (s.prpWrite c d bs).Canonical := by
  unfold State.prpWrite
  generalize s.prpPages c d bs.length = l
  induction l generalizing s bs with
  | nil => exact h
  | cons e l ih => exact ih (.mk (Mem.wf_write _ _ _ h))

theorem cqeDrain {c q n : Nat} (h : s.Canonical) : (State.cqeDrain c q n s).Canonical := by
  induction n generalizing s with
  | zero => exact h
  | succ n ih =>
    unfold State.cqeDrain
    split
    · refine .ite h (ih (.ite (.sliceEvent ?_) ?_)) <;>
        exact .updCtrl (.setRing (.mk (Mem.wf_write _ _ _ h)))
    · exact h

theorem nvDrain {c : Nat} (h : s.Canonical) : (s.nvDrain c).Canonical :=
  .foldl h fun _ _ h => .cqeDrain h

theorem cqePost {c queue cid status dw0 : Nat} (h : s.Canonical) :
    (s.cqePost c queue cid status dw0).Canonical := by
  unfold State.cqePost
  split; exacts [h, .cqeDrain (.bump64 (.updCtrl h))]

theorem takeRing {q : Nat} {r : Ring} (h : s.Canonical) : (s.takeRing q r).Canonical :=
  .ite (.event (.setRing h)) (.setRing h)

theorem nvTake {c : Nat} {r : Ring} (h : s.Canonical) : (s.nvTake c r).2.Canonical := by
  unfold State.nvTake
  split
  · exact h
  · split
    next u e =>
      have hu : u.Canonical := .snd (drawWord h) e
      split
      · exact hu
      · exact .takeRing hu

theorem beSend {b : BeCmd} (h : s.Canonical) : (s.beSend b).Canonical :=
  .send (.mk h)

theorem countXts {n : Nat} (h : s.Canonical) : (s.countXts n).Canonical :=
  .bump64 (.bump64 h)

theorem beIssue {c ext off n : Nat} {kind : BeKind} {ns nlba : Nat} {use : BeUse} {wire data : List Byte}
    {vers : List Nat} (h : s.Canonical) :
    (s.beIssue c ext off n kind ns nlba use wire data vers).Canonical := by
  unfold State.beIssue
  extract_lets -underBinder s₁
  have h₁ : s₁.Canonical := .bufferedApply (.bufferedApply h)
  split
  · exact h₁
  · exact .beSend (.mk (ite (.countXts h₁) h₁))

theorem beDrop {id : Nat} (h : s.Canonical) : (s.beDrop id).Canonical :=
  .mk h

theorem noFill {c ns lba n : Nat} (h : s.Canonical) : (s.noFill c ns lba n).Canonical :=
  .mk h

theorem cacheTake {c ns lba n : Nat} {bs : List Byte} (h : s.Canonical) :
    (s.cacheTake c ns lba n bs).Canonical :=
  .updCtrl (.noFill h)

theorem aerSettle {c n : Nat} (h : s.Canonical) : (State.aerSettle c n s).Canonical := by
  induction n generalizing s with
  | zero => exact h
  | succ n ih =>
    unfold State.aerSettle
    extract_lets
    split
    · exact ih (.cqePost (.setCtrl h))
    · exact h

theorem nvEvent {c type info page : Nat} (h : s.Canonical) : (s.nvEvent c type info page).Canonical :=
  .aerSettle (.updCtrl h)

theorem updCmd {c queue cid : Nat} {f : NvCmd → NvCmd} (h : s.Canonical) : (s.updCmd c queue cid f).Canonical :=
  .updCtrl h

theorem sqClose {c queue : Nat} (h : s.Canonical) : (s.sqClose c queue).Canonical := by
  unfold State.sqClose
  split; exacts [.ite h (.cqePost (.updCtrl (.mk h))), h]

theorem nvIdle {c : Nat} (h : s.Canonical) : (s.nvIdle c).Canonical :=
  .ite (.updCtrl (.bufferedApply h)) h

theorem nvEnd {c queue cid status dw0 : Nat} (h : s.Canonical) :
    (s.nvEnd c queue cid status dw0).Canonical := by
  unfold State.nvEnd
  split; exacts [h, .nvIdle (.sqClose (.cqePost (.updCtrl (.mk h))))]

theorem psSettle {c : Nat} (h : s.Canonical) : (s.psSettle c).Canonical := by
  unfold State.psSettle
  extract_lets; split; exacts [.ite h (.setCtrl h), h]

theorem psEnter {c k : Nat} (h : s.Canonical) : (s.psEnter c k).Canonical :=
  .psSettle (.updCtrl h)

theorem nvAdmit {c : Nat} (h : s.Canonical) : (s.nvAdmit c).2.Canonical := by
  unfold State.nvAdmit
  split; exacts [h, by extract_lets; split; exacts [.mk (charge (.mk h)), .mk (deferUnit (.mk h))]]

theorem recWrite {c : Nat} {f : NvRec → NvRec} (h : s.Canonical) : (s.recWrite c f).Canonical :=
  .bump (.mk (updCtrl h))

theorem opKick {c : Nat} (h : s.Canonical) : (s.opKick c).Canonical := by
  unfold State.opKick
  refine .ite h ?_
  split
  · exact h
  · split; exacts [h, .ite (.ite h (.setCtrl h)) (.ite (.beIssue h) (.beIssue h))]

/-! ### Machine/NvsCmds -/

theorem pendClear {c ns : Nat} (h : s.Canonical) : (s.pendClear c ns).Canonical :=
  .updCtrl h

theorem cmdFail {c queue cid st : Nat} (h : s.Canonical) : (s.cmdFail c queue cid st).Canonical :=
  .updCmd h

theorem cmdCommit {c queue cid : Nat} (h : s.Canonical) : (s.cmdCommit c queue cid).Canonical :=
  .updCmd h

theorem nvIssue {c queue cid ns lba n : Nat} {kind : BeKind} {bs : List Byte} (h : s.Canonical) :
    (s.nvIssue c queue cid ns lba n kind bs).Canonical := by
  unfold State.nvIssue
  split
  · exact .cmdFail h
  · refine .foldl h fun t e h => ?_
    obtain ⟨ext, off, k, l⟩ := e
    dsimp only
    split
    · exact .cmdFail h
    · exact .ite (.cmdFail h) (.ite (.beIssue h) (.beIssue h))

theorem nvSettle {c queue cid : Nat} (h : s.Canonical) : (s.nvSettle c queue cid).Canonical := by
  unfold State.nvSettle
  split
  · exact h
  · refine .ite h (.ite (.nvEnd h) ?_)
    extract_lets
    split; exacts [.nvEnd (.prpWrite (.cmdCommit h)), .nvEnd h, .nvEnd h]

theorem flushGone {c : Nat} {gone : Nat × Nat × Nat → Bool} (h : s.Canonical) :
    (s.flushGone c gone).Canonical :=
  .psSettle (.foldl (.updCtrl h) fun _ _ h => .nvEnd h)

theorem nvRead {c : Nat} {m : NvCmd} (h : s.Canonical) : (s.nvRead c m).Canonical := by
  refine .ite (.nvEnd (.flushGone (.setCtrl h))) ?_
  exact .nvSettle (.foldl (.updCmd (.bumpBy (.bumpBy (.flushGone (.setCtrl h))))) fun _ _ h => .nvIssue h)

theorem nvWrite {c : Nat} {m : NvCmd} (h : s.Canonical) : (s.nvWrite c m).Canonical :=
  .ite (.ite (.updCmd h) (.nvEnd (.cmdCommit (.updCtrl (.noFill h))))) (.nvSettle (.nvIssue (.cmdCommit h)))

theorem nvDsm {c : Nat} {m : NvCmd} (h : s.Canonical) : (s.nvDsm c m).Canonical :=
  .ite (.nvEnd h) (.ite (.nvEnd h) (.nvSettle (.foldl h fun _ _ h => .nvIssue h)))

theorem nvFlush {c : Nat} {m : NvCmd} (h : s.Canonical) : (s.nvFlush c m).Canonical :=
  .ite (.nvEnd h) (.updCmd h)

theorem nvCreateCq {c : Nat} {m : NvCmd} (h : s.Canonical) : (s.nvCreateCq c m).Canonical := by
  unfold State.nvCreateCq
  refine .ite (.nvEnd h) (.ite (.nvEnd h) (.ite (.nvEnd h) (.ite (.nvEnd h) (.ite (.nvEnd h) ?_))))
  split
  next e => exact .nvEnd (.snd (nvTake h) e)
  next e => exact .nvEnd (.updCtrl (.snd (nvTake h) e))

theorem nvCreateSq {c : Nat} {m : NvCmd} (h : s.Canonical) : (s.nvCreateSq c m).Canonical := by
  unfold State.nvCreateSq
  refine .ite (.nvEnd h) (.ite (.nvEnd h) (.ite (.nvEnd h) (.ite (.nvEnd h) (.ite (.nvEnd h) ?_))))
  split
  next e => exact .nvEnd (.snd (nvTake h) e)
  next e => exact .nvEnd (.updCtrl (.snd (nvTake h) e))

theorem nvDeleteCq {c : Nat} {m : NvCmd} (h : s.Canonical) : (s.nvDeleteCq c m).Canonical := by
  unfold State.nvDeleteCq
  extract_lets; split; exacts [.nvEnd h, .ite (.nvEnd h) (.nvEnd (.updCtrl (.mk h)))]

theorem nvDeleteSq {c : Nat} {m : NvCmd} (h : s.Canonical) : (s.nvDeleteSq c m).Canonical := by
  unfold State.nvDeleteSq
  extract_lets
  split
  · exact .nvEnd h
  · exact .ite (.nvEnd h) (.nvIdle (.sqClose (.foldl (.cmdCommit (.updCtrl h)) fun _ _ h => .nvEnd h)))

theorem nvIdentify {c : Nat} {m : NvCmd} (h : s.Canonical) : (s.nvIdentify c m).Canonical := by
  unfold State.nvIdentify
  extract_lets x ns page
  cases page with
  | none => exact .nvEnd h
  | some b => exact .ite (.nvEnd h) (.nvEnd (.prpWrite h))

theorem nvGetLog {c : Nat} {m : NvCmd} (h : s.Canonical) : (s.nvGetLog c m).Canonical := by
  unfold State.nvGetLog
  extract_lets
  split; exacts [.nvEnd h, .ite (.nvEnd h) (.aerSettle (.nvEnd (.ite (.prpWrite h) (.updCtrl (.prpWrite h)))))]

theorem nvSetFeat {c : Nat} {m : NvCmd} (h : s.Canonical) : (s.nvSetFeat c m).Canonical := by
  unfold State.nvSetFeat
  refine .ite (.nvEnd h) (.ite (.nvEnd h) ?_)
  extract_lets
  split
  · exact .ite (.nvEnd h) (.nvEnd (.psEnter (.updCtrl h)))
  · exact .ite (.nvEnd h) (.nvEnd h)
  · exact .ite (.nvEnd h) (.nvEnd (.updCtrl (.updCtrl h)))
  · exact .nvEnd (.updCtrl h)

theorem nvGetFeat {c : Nat} {m : NvCmd} (h : s.Canonical) : (s.nvGetFeat c m).Canonical :=
  .ite (.nvEnd h) (.ite (.nvEnd h) (.nvEnd (.ite (.prpWrite h) h)))

theorem nvAer {c : Nat} {m : NvCmd} (h : s.Canonical) : (s.nvAer c m).Canonical :=
  .ite (.nvEnd h) (.nvIdle (.aerSettle (.setCtrl h)))

theorem nvNsCreate {c : Nat} {m : NvCmd} (h : s.Canonical) : (s.nvNsCreate c m).Canonical := by
  unfold State.nvNsCreate
  refine .ite (.nvEnd h) (.ite (.nvEnd h) (.ite (.nvEnd h) ?_))
  split
  next t e =>
    have ht : t.Canonical := .snd (drawWord h) e
    split
    · exact .nvEnd h
    · exact .nvEnd (.mk (setCtrl ht))

theorem cacheDiscard {c ns : Nat} (h : s.Canonical) : (s.cacheDiscard c ns).Canonical :=
  .flushGone (.updCtrl (.mk h))

theorem nsDrop {c ns : Nat} (h : s.Canonical) : (s.nsDrop c ns).Canonical := by
  unfold State.nsDrop
  split; exacts [h, .foldl (.updCtrl (.cacheDiscard h)) fun _ _ h => .beIssue h]

theorem nvNsDelete {c : Nat} {m : NvCmd} (h : s.Canonical) : (s.nvNsDelete c m).Canonical :=
  .ite (.nvEnd h) (.ite (.nvEnd (.foldl h fun _ _ h => .nsDrop h)) (.ite (.nvEnd h) (.nvEnd (.nsDrop h))))

theorem nvNsAttach {c : Nat} {m : NvCmd} (h : s.Canonical) : (s.nvNsAttach c m).Canonical := by
  unfold State.nvNsAttach
  extract_lets
  split
  · exact .nvEnd h
  · refine .ite (.nvEnd h) ?_
    exact .ite (.nvEnd h) (.ite (.nvEnd h) (.ite (.nvEnd h) (.ite (.nvEnd h) (.nvEnd (.updCtrl h)))))

theorem opStart {c op ns : Nat} {d : Desc} {ses : Nat} {fmt : Option Nat} (h : s.Canonical) :
    (s.opStart c op ns d ses fmt).Canonical :=
  .cmdCommit (.recWrite (.updCtrl (.cacheDiscard h)))

theorem nvSanitize {c : Nat} {m : NvCmd} {op : Nat} (h : s.Canonical) : (s.nvSanitize c m op).Canonical :=
  .ite (.nvEnd h) (.ite (.nvEnd h) (.opKick (.nvEnd (.opStart h))))

theorem nvSanExit {c : Nat} {m : NvCmd} (h : s.Canonical) : (s.nvSanExit c m).Canonical :=
  .nvEnd (.ite (.recWrite h) h)

theorem nvFormat {c : Nat} {m : NvCmd} (h : s.Canonical) : (s.nvFormat c m).Canonical :=
  .ite (.nvEnd h) (.ite (.nvEnd h) (.ite (.nvEnd h) (.ite (.nvEnd h) (.opKick (.opStart h)))))

theorem opKeys {c : Nat} (h : s.Canonical) : (s.opKeys c).Canonical := by
  unfold State.opKeys
  extract_lets l s₁
  have h₁ : s₁.Canonical := .foldl h fun _ _ h => by
    extract_lets u
    have hu : u.Canonical := .updCtrl h
    exact .mk hu
  exact .recWrite h₁

theorem opEnd {c state : Nat} (h : s.Canonical) : (s.opEnd c state).Canonical := by
  unfold State.opEnd
  extract_lets fmt s₁ s₂ _ s₃ s₄
  have h₃ : s₃.Canonical := .mk (event (.updCtrl (.recWrite h)))
  have h₄ : s₄.Canonical := .ite h₃ (.nvEvent h₃)
  cases fmt with
  | none => exact h₄
  | some cid => exact .nvEnd h₄

theorem opPass {c : Nat} (h : s.Canonical) : (s.opPass c).Canonical := by
  refine .ite h (.ite (.opKick (.updCtrl (.recWrite (.recWrite h)))) ?_)
  exact .opEnd (.ite (.opKeys (.recWrite h)) (.recWrite h))

theorem nvExec {c queue cid : Nat} (h : s.Canonical) : (s.nvExec c queue cid).Canonical := by
  unfold State.nvExec
  split
  · exact h
  · refine .ite (.nvEnd (.pendClear (.updCmd h))) (.ite (.nvEnd (.updCmd h)) ?_)
    split
    · exact .nvEnd (.updCmd h)
    · exact .nvDeleteSq (.updCmd h)
    · exact .nvCreateSq (.updCmd h)
    · exact .nvGetLog (.updCmd h)
    · exact .nvDeleteCq (.updCmd h)
    · exact .nvCreateCq (.updCmd h)
    · exact .nvIdentify (.updCmd h)
    · exact .nvEnd (.updCmd h)
    · exact .nvSetFeat (.updCmd h)
    · exact .nvGetFeat (.updCmd h)
    · exact .nvAer (.updCmd h)
    · exact .nvNsCreate (.updCmd h)
    · exact .nvNsDelete (.updCmd h)
    · exact .nvNsAttach (.updCmd h)
    · exact .nvFormat (.updCmd h)
    · exact .nvSanExit (.updCmd h)
    · exact .nvSanitize (.updCmd h)
    · exact .nvSanitize (.updCmd h)
    · exact .nvSanitize (.updCmd h)
    · exact .nvFlush (.updCmd h)
    · exact .nvWrite (.updCmd h)
    · exact .nvRead (.updCmd h)
    · exact .nvRead (.updCmd h)
    · exact .nvSettle (.nvIssue (.updCmd h))
    · exact .nvDsm (.updCmd h)

theorem nvSpace {c : Nat} (h : s.Canonical) : (s.nvSpace c).Canonical :=
  .foldl h fun _ _ h => .nvExec h

theorem nvRun {c queue cid : Nat} (h : s.Canonical) : (s.nvRun c queue cid).Canonical := by
  unfold State.nvRun
  split; exacts [h, .ite (.nvSpace (.nvExec h)) (.nvExec h)]

theorem nvEnergy {c queue cid n : Nat} (h : s.Canonical) : (State.nvEnergy c queue cid n s).Canonical := by
  induction n generalizing s with
  | zero => exact .nvRun h
  | succ n ih =>
    unfold State.nvEnergy
    split
    next e => exact ih (.snd (nvAdmit h) e)
    next e => exact .updCmd (.snd (nvAdmit h) e)

theorem nvStart {c queue cid : Nat} (h : s.Canonical) : (s.nvStart c queue cid).Canonical := by
  unfold State.nvStart
  split; exacts [h, .ite (.nvRun h) (.nvEnergy h)]

theorem nvFetch {c queue : Nat} {d : Desc} {want : NvKind → Bool} (h : s.Canonical) :
    (s.nvFetch c queue d want).Canonical := by
  unfold State.nvFetch
  extract_lets
  split
  · exact h
  · split; exacts [h, .ite h (.ite (.setCtrl (.setRing h)) (.nvStart (.setCtrl (.setRing h))))]

theorem nvWake {c : Nat} (h : s.Canonical) : (s.nvWake c).Canonical :=
  .ite h (.foldl (.setCtrl h) fun _ _ h => .nvStart h)

theorem nvEpoch (h : s.Canonical) : s.nvEpoch.Canonical :=
  .foldl h fun _ _ h => .foldl h fun _ _ h => .nvEnergy h

theorem destaged {b : BeCmd} (h : s.Canonical) : (s.destaged b).Canonical :=
  .nvSpace (.flushGone (.updCtrl (.bump64 h)))

theorem destageFail {b : BeCmd} {status : Nat} (h : s.Canonical) : (s.destageFail b status).Canonical := by
  refine .psSettle ?_
  exact .foldl (.nvEvent (.event (.ite (.setCtrl h) (.bump (.setCtrl h))))) fun _ _ h => .nvEnd (.pendClear h)

theorem beFill {b : BeCmd} {l : List (Nat × List Byte)} (h : s.Canonical) : (s.beFill b l).Canonical :=
  .ite (.updCtrl h) h

theorem beDone {b : BeCmd} {bs : List Byte} (h : s.Canonical) : (s.beDone b bs).Canonical := by
  unfold State.beDone
  extract_lets s₁ s₂ c
  have h₂ : s₂.Canonical := .ite (.countXts (.beDrop h)) (.beDrop h)
  split
  · refine .ite (.getD (fun u e => ?_) h₂) (.cacheTake h₂)
    obtain ⟨_, _, rfl⟩ := Option.map_eq_some_iff.1 e
    exact .beFill h₂
  · exact .opKick (.updCtrl h₂)
  · exact .destaged h₂
  · refine .nvSettle ?_
    split
    · split
      · exact .cmdFail h₂
      · exact .beFill (.updCmd h₂)
    · exact .cacheTake (.cmdCommit h₂)

theorem beLost {b : BeCmd} {status host : Nat} (h : s.Canonical) : (s.beLost b status host).Canonical := by
  unfold State.beLost
  extract_lets
  split
  · exact .beDrop h
  · exact .opKick (.updCtrl (.beDrop h))
  · exact .destageFail (.beDrop h)
  · exact .nvSettle (.cmdFail (.beDrop h))

theorem beRetry {b : BeCmd} {status host : Nat} (h : s.Canonical) : (s.beRetry b status host).Canonical :=
  .ite (.beSend (.setF h)) (.beLost (.setF h))

theorem destage {c count : Nat} (h : s.Canonical) : (s.destage c count).Canonical := by
  unfold State.destage
  exact .ite (.flushGone (.setCtrl h)) (by split; exacts [h, by split; exacts [.beIssue (.setCtrl h), h]])

theorem nvReset {c : Nat} (h : s.Canonical) : (s.nvReset c).Canonical :=
  .ite h (.setCtrl (.mk h))

theorem opPause (h : s.Canonical) : s.opPause.Canonical :=
  .mk h

theorem opUnpause (h : s.Canonical) : s.opUnpause.Canonical := by
  unfold State.opUnpause
  split; exacts [h, .mk h]

theorem nvTemp {celsius : Byte} (h : s.Canonical) : (s.nvTemp celsius).Canonical :=
  .foldl (.mk h) fun _ _ h => .nvEvent h

theorem nvRestart {c : Nat} (h : s.Canonical) : (s.nvRestart c).Canonical :=
  .opKick (.foldl (.updCtrl (.foldl (.mk h) fun _ _ h => .beSend h)) fun _ _ h => .nvRun h)

/-! ### Machine/CipOps -/

theorem setSa {i : Nat} {a : Sa} (h : s.Canonical) : (s.setSa i a).Canonical :=
  .mk h

theorem saUse {i : Nat} (h : s.Canonical) : (s.saUse i).Canonical :=
  .mk h

theorem countBlocks {n : Nat} (h : s.Canonical) : (s.countBlocks n).Canonical :=
  .bump64 h

theorem takeNumber {i : Nat} {a : Sa} (h : s.Canonical) : (s.takeNumber i a).2.Canonical := by
  unfold State.takeNumber
  split
  · exact .bump h
  · exact .ite (.event (.ite (.event (.setSa h)) (.setSa h))) (.ite (.event (.setSa h)) (.setSa h))

theorem espIn {i : Nat} {bs : List Byte} {x : Option EspAt} {owner : Option Nat} (h : s.Canonical) :
    (s.espIn i bs x owner).2.Canonical := by
  unfold State.espIn
  split
  · extract_lets
    split
    · exact .bump h
    · split
      · exact .bump h
      · split
        · exact .bump (.countBlocks h)
        · exact .setSa (.countBlocks h)
  · exact .bump h

theorem macIn {port : Nat} {bs : List Byte} (h : s.Canonical) : (s.macIn port bs).2.Canonical := by
  unfold State.macIn
  split
  · exact h
  · split
    · split; exacts [.bump h, h]
    · extract_lets
      split
      · exact .bump h
      · extract_lets
        split
        · exact .bump h
        · split
          · exact .bump (.countBlocks h)
          · exact .setSa (.countBlocks h)

theorem macOut {port n : Nat} {eapol : Bool} (h : s.Canonical) : (s.macOut port eapol n).2.Canonical := by
  unfold State.macOut
  split
  · exact h
  · extract_lets
    split
    · exact h
    · split
      next e => exact .snd (takeNumber h) e
      next e => exact .countBlocks (.snd (takeNumber h) e)

theorem setHolding {port dir : Nat} {l : List HoldItem} (h : s.Canonical) :
    (s.setHolding port dir l).Canonical :=
  .mk h

theorem holdPut {port dir : Nat} {x : HoldItem} {u : State}
    (h : s.Canonical) (eq : s.holdPut port dir x = some u) : u.Canonical := by
  unfold State.holdPut at eq
  extract_lets at eq
  split at eq
  · cases eq
  · cases eq; exact .setHolding h

/-! ### Machine/GalOps -/

theorem spansFetch {write : Bool} {l : List (Space × Nat × Nat)} (h : s.Canonical) :
    (s.spansFetch write l).Canonical := by
  unfold State.spansFetch
  exact .foldl h fun _ _ h => by split; exacts [.fetchPages h, h]

theorem chunkFetch {c : GalCmd} {a n : Nat} (h : s.Canonical) : (s.chunkFetch c a n).Canonical :=
  .foldl h fun _ _ h => .spansFetch h

theorem spanBegin {write : Bool} {whole : List (Space × Nat × Nat)} {x : Space × Nat × Nat} (h : s.Canonical) :
    (s.spanBegin write whole x).Canonical := by
  unfold State.spanBegin
  split
  · refine .ite (.foldl (.heat h) fun _ _ h => .takeIn h) (.foldl (.heat h) fun _ _ h => ?_)
    extract_lets
    split; exacts [.ite (.updPage h) (.takeIn (.tierTouch (.updPage h))), .updPage h]
  · exact h

theorem spanEnd {x : Space × Nat × Nat} (h : s.Canonical) : (s.spanEnd x).Canonical := by
  unfold State.spanEnd
  split
  · split
    · exact h
    · refine .mk (Mem.wf_foldl h fun _ _ h => ?_)
      extract_lets
      split
      · exact Mem.wf_clear _ _ _ h
      · split; exacts [Mem.wf_carry _ _ _ _ (Mem.wf_carry _ _ _ _ h), Mem.wf_carry _ _ _ _ h]
  · exact h

theorem freeSpan {x : Space × Nat × Nat} (h : s.Canonical) : (s.freeSpan x).Canonical :=
  .ite h (.spanEnd (.mk (Mem.wf_write _ _ _ h)))

theorem freeDest {c : GalCmd} {a n : Nat} (h : s.Canonical) : (s.freeDest c a n).Canonical :=
  .foldl h fun _ _ h => .freeSpan h

theorem getBytes {sp : Space} {a n : Nat} (h : s.Canonical) : (s.getBytes sp a n).2.Canonical := by
  unfold State.getBytes
  split; exacts [.heat h, h]

theorem putBytes {sp : Space} {a : Nat} {bs : List Byte} (h : s.Canonical) :
    (s.putBytes sp a bs).Canonical := by
  unfold State.putBytes
  split; exacts [.tierWrite (.heat h), .mk (Mem.wf_write _ _ _ h)]

theorem setProg {k : Nat} {x : ProgSlot} (h : s.Canonical) : (s.setProg k x).Canonical :=
  .event (.mk h)

theorem progSweep (h : s.Canonical) : s.progSweep.Canonical :=
  .foldl h fun _ _ h => .ite (.setProg h) h

theorem galFreeSlots {i : Nat} (h : s.Canonical) : (s.galFreeSlots i).Canonical :=
  .foldl h fun _ _ h => .ite (.setProg h) h

theorem galEndOp {id st : Nat} {w : Nat × Nat} (h : s.Canonical) : (s.galEndOp id st w).Canonical :=
  .ite h (.finish (.bump (.ite (.bump (.event h)) h)))

theorem programEnd {c : GalCmd} (h : s.Canonical) : (s.programEnd c).1.Canonical := by
  unfold State.programEnd
  extract_lets _ _ r _ _ _ _ s₁ s₂ s₃
  have h₁ : s₁.Canonical := .mk (wf_runTail h)
  have h₂ : s₂.Canonical := by
    unfold s₂
    split
    · exact .foldl (.mk (Mem.wf_write _ _ _ (foldl h₁ fun _ _ h => .spanBegin h))) fun _ _ h => .spanEnd h
    · exact h₁
  show s₃.Canonical
  unfold s₃
  split; exacts [.putBytes h₂, h₂]

theorem emptyGroup {c : GalCmd} (h : s.Canonical) : (s.emptyGroup c).Canonical := by
  unfold State.emptyGroup
  split; exacts [.ite (.putBytes h) h, h]

theorem galRemove {c : GalCmd} (h : s.Canonical) : (s.galRemove c).Canonical :=
  .mk h

theorem galComplete {c : GalCmd} (h : s.Canonical) : (s.galComplete c).Canonical := by
  unfold State.galComplete
  extract_lets s₁
  have h₁ : s₁.Canonical := .galRemove h
  split
  next s₂ c₂ e₂ =>
    have h₂ : s₂.Canonical := .fst (by split; exacts [.poolFault h₁, h₁]) e₂
    split
    next s₃ c₃ e₃ =>
      have h₃ : s₃.Canonical := .fst (by split; exacts [.programEnd h₂, h₂]) e₃
      extract_lets -underBinder c₄ s₅ s₆ s₇
      have h₅ : s₅.Canonical := .ite (.emptyGroup h₃) h₃
      have h₆ : s₆.Canonical := .ite (.freeDest h₅) h₅
      refine .progSweep ?_
      unfold s₇
      split
      · exact .bump (.mk (ite (.bump (.event h₆)) h₆))
      · exact .galEndOp h₆

theorem galPut {c : GalCmd} (h : s.Canonical) : (s.galPut c).Canonical :=
  .mk h

theorem galSettle {c : GalCmd} (h : s.Canonical) : (s.galSettle c).Canonical :=
  .ite (.ite (.beginOnce (.spansFetch (.galPut h))) (.galComplete h)) (.galPut h)

theorem galLast (h : s.Canonical) : s.galLast.Canonical :=
  .foldl h fun _ _ h => .galSettle h

theorem galStop {c : GalCmd} {st : Nat} (h : s.Canonical) : (s.galStop c st).Canonical :=
  .galSettle h

theorem handOut {c : GalCmd} {cl : Nat} (h : s.Canonical) : (s.handOut c cl).Canonical :=
  .galPut (.setFs h)

theorem galApply (h : s.Canonical) : s.galApply.Canonical :=
  .ite h (.sealTouch (.foldl h fun _ _ h => .applyGroup h))

theorem takeFrom {cl : Nat} {l : List GalCmd} (h : s.Canonical) : (State.takeFrom cl l s).Canonical := by
  induction l generalizing s with
  | nil => exact h
  | cons c cs ih =>
    unfold State.takeFrom
    extract_lets s₁
    have h₁ : s₁.Canonical := .ite h (.galApply h)
    refine .ite (ih h₁) ?_
    split
    next ok t e =>
      have ht : t.Canonical := .snd (offer h₁) e
      exact .ite (.handOut (.ite ht (.ite (.mk ht) (.mk ht)))) (ih (.galPut (.ite ht (.bump ht))))

theorem chunkTake {cl : Nat} (h : s.Canonical) : (s.chunkTake cl).Canonical :=
  .ite h (.takeFrom h)

theorem clusterIdle {cl : Nat} (h : s.Canonical) : (s.clusterIdle cl).Canonical :=
  .setFs h

theorem noCluster (h : s.Canonical) : s.noCluster.Canonical :=
  .foldl h fun _ _ h => .ite (.galStop h) h

theorem stepCommit {k j : Nat} (h : s.Canonical) : (s.stepCommit k j).Canonical :=
  .mk h

theorem runChunk {c : GalCmd} {a n : Nat} (h : s.Canonical) : (s.runChunk c a n).1.Canonical := by
  unfold State.runChunk
  extract_lets reads writes whole s₁
  have h₁ : s₁.Canonical := .foldl (.foldl h fun _ _ h => .spanBegin h) fun _ _ h => .spanBegin h
  split
  next m fl accs cnts wrote e =>
    have hm : Mem.wf m = true := by
      refine Mem.wf_of_fst ?_ e
      split; exacts [GalCmd.wf_reduce h₁, GalCmd.wf_convert h₁, GalCmd.wf_program h₁]
    extract_lets s₂ s₃ s₄
    have h₂ : s₂.Canonical := .foldl (.mk hm) fun _ _ h => .spanEnd h
    have h₃ : s₃.Canonical := .ite (.bump64 h₂) h₂
    refine .ite h₃ ?_
    split; exacts [.stepCommit h₃, .commitOp h₃]

theorem chunkDone {cl : Nat} (h : s.Canonical) : (s.chunkDone cl).Canonical := by
  unfold State.chunkDone
  split
  · exact h
  · split
    · exact .beginOnce (.chunkFetch h)
    · exact .galStop (.poolFault (.clusterIdle h))
    · exact .noCluster (.galSettle (.runChunk (.clusterIdle h)))

theorem chunkFault {cl : Nat} (h : s.Canonical) : (s.chunkFault cl).Canonical := by
  unfold State.chunkFault
  split; exacts [h, .galStop (.clusterIdle h)]

theorem galFail {c : GalCmd} {st : Nat} {ends : Nat × Nat × Nat → Bool} (h : s.Canonical) :
    (s.galFail c st ends).Canonical :=
  .galStop (.foldl h fun _ _ h => .clusterIdle h)

theorem galFault {c : GalCmd} {st : Nat} (h : s.Canonical) : (s.galFault c st).Canonical :=
  .galFail h

theorem galWaitTimeout {op : Nat} (h : s.Canonical) : (s.galWaitTimeout op).Canonical := by
  unfold State.galWaitTimeout
  split; exacts [.ite (.galFail (.ripe h)) h, h]

theorem galDrop {sel : GalCmd → Bool} (h : s.Canonical) : (s.galDrop sel).Canonical :=
  .mk h

theorem galSweep (h : s.Canonical) : s.galSweep.Canonical :=
  .galDrop h

theorem galResetSlice {i : Nat} (h : s.Canonical) : (s.galResetSlice i).Canonical :=
  .galDrop h

theorem galEndSlice {i : Nat} (h : s.Canonical) : (s.galEndSlice i).Canonical :=
  .progSweep (.galSweep (.mk (foldl h fun _ _ h => .foldl h fun _ _ h => .freeDest (.clusterIdle h))))

/-! ### Machine/FltOps -/

theorem setFlight {k : Nat} {f : Flight} (h : s.Canonical) : (s.setFlight k f).Canonical :=
  .mk h

theorem updFlight {k : Nat} {g : Flight → Flight} (h : s.Canonical) : (s.updFlight k g).Canonical := by
  unfold State.updFlight
  split; exacts [.setFlight h, h]

theorem freeBuffers {k : Nat} (h : s.Canonical) : (s.freeBuffers k).Canonical :=
  .mk (Mem.wf_clear _ _ _ h)

theorem addFrame {k : Nat} (h : s.Canonical) : (s.addFrame k).Canonical := by
  unfold State.addFrame
  split
  · exact h
  · split
    next e => exact .updFlight (.snd (findFrame h) e)

theorem placeFlight {k : Nat} {f : Flight} (h : s.Canonical) : (s.placeFlight k f).Canonical :=
  .foldl (.setFlight (.freeBuffers h)) fun _ _ h => .addFrame h

theorem flightEnd {k : Nat} {f : Flight} {status origin : Nat} (h : s.Canonical) :
    (s.flightEnd k f status origin).Canonical :=
  .finishNow (.setFlight h)

theorem stepCount {k j : Nat} (h : s.Canonical) : (s.stepCount k j).Canonical :=
  .bump64 (.updFlight h)

theorem stepEnded {ev : StepEnd} (h : s.Canonical) : (s.stepEnded ev).Canonical :=
  .ite (.updFlight (.updFlight h)) (.stepCount (.updFlight h))

theorem flightTake {k : Nat} (h : s.Canonical) : (s.flightTake k).Canonical :=
  .foldl (.mk h) fun _ _ h => .stepEnded h

theorem flightSettle {k : Nat} (h : s.Canonical) : (s.flightSettle k).Canonical := by
  unfold State.flightSettle
  split
  · exact h
  · split
    · exact h
    · refine .ite h ?_
      extract_lets
      split; exacts [.flightEnd (.flightTake h), .flightTake h]

theorem flightLand {k : Nat} (h : s.Canonical) : (s.flightLand k).Canonical := by
  unfold State.flightLand
  split; exacts [h, .ite (.flightEnd h) h]

theorem ctlOut {port slice len dest kind : Nat} {fields : List Nat} (h : s.Canonical) :
    (s.ctlOut port slice len dest kind fields).Canonical :=
  .txNet (.bump64 h)

theorem sendCtl {f : Flight} {dest kind : Nat} {fields : List Nat} (h : s.Canonical) :
    (s.sendCtl f dest kind fields).Canonical :=
  .ctlOut h

theorem ctlAgain {c : Ctl} (h : s.Canonical) : (s.ctlAgain c).Canonical :=
  .ctlOut h

theorem flightPkt {k dest buf to0 seq off len : Nat} {bs : List Byte} (h : s.Canonical) :
    (s.flightPkt k dest buf to0 seq off len bs).Canonical := by
  unfold State.flightPkt
  split; exacts [h, .setFlight (.txNet (.bump64 h))]

theorem flightUnsend {f : Flight} (h : s.Canonical) : (s.flightUnsend f).Canonical :=
  .foldl h fun _ _ h => .setTxQueue h

theorem ackCtl {id epoch src num : Nat} (h : s.Canonical) : (s.ackCtl id epoch src num).Canonical := by
  unfold State.ackCtl
  split; exacts [.ctlOut h, .ctlOut (.drawWord h)]

theorem broadcast {k : Nat} {dests : List Nat} {kind step : Nat} {fields : List Nat} (h : s.Canonical) :
    (s.broadcast k dests kind step fields).Canonical := by
  unfold State.broadcast
  split; exacts [h, .mk (foldl h fun _ _ h => .ctlAgain h)]

theorem stepStop {k j : Nat} (h : s.Canonical) : (s.stepStop k j).Canonical := by
  unfold State.stepStop
  split
  · exact h
  · extract_lets
    split
    · refine .ite ?_ (.ite (.setFlight (.foldl h fun _ _ h => .freeSpan h)) (.ite (.stepCount h) (.setFlight h)))
      split; exacts [.ite h (.progSweep (.setFlight (.galRemove (.foldl h fun _ _ h => .clusterIdle h)))), h]
    · exact h

theorem dropReports {k : Nat} {f : Flight} (h : s.Canonical) : (s.dropReports k f).Canonical :=
  .mk h

theorem endFlight {k : Nat} {r : AbortReason} {status origin : Nat} {relay : Bool} (h : s.Canonical) :
    (s.endFlight k r status origin relay).Canonical := by
  unfold State.endFlight
  split
  · exact h
  · refine .ite h ?_
    extract_lets -underBinder s₁ s₂ s₃ s₄ s₅
    have h₂ : s₂.Canonical := .dropReports (.flightUnsend (.setFlight (.commitOp h)))
    have h₄ : s₄.Canonical := .foldl (.ite h₂ (.event h₂)) fun _ _ h => .stepStop h
    exact .flightSettle (.ite h₄ (.broadcast (.bump h₄)))

theorem abortFlight {k : Nat} {r : AbortReason} {status : Nat} (h : s.Canonical) :
    (s.abortFlight k r status).Canonical := by
  unfold State.abortFlight
  split; exacts [.endFlight h, h]

theorem endFlights {sel : Flight → Bool} {r : AbortReason} (h : s.Canonical) : (s.endFlights sel r).Canonical :=
  .foldl h fun _ _ h => .abortFlight h

theorem stepFault {k st : Nat} (h : s.Canonical) : (s.stepFault k st).Canonical :=
  .abortFlight h

theorem blameNew {k : Nat} {old : Flight} {cause : Nat} (h : s.Canonical) :
    (s.blameNew k old cause).Canonical :=
  .updFlight h

theorem blameDue {k cause : Nat} (h : s.Canonical) : (s.blameDue k cause).Canonical :=
  .updFlight h

theorem recordLate {k j : Nat} (h : s.Canonical) : (s.recordLate k j).Canonical := by
  unfold State.recordLate
  split; exacts [h, .ite h (.ite (.setFlight h) (.mk (Mem.wf_write _ _ _ h)))]

theorem unstall {k : Nat} (h : s.Canonical) : (s.unstall k).Canonical :=
  .updFlight h

theorem stepBegin {k j kind t : Nat} {u : State} (h : s.Canonical) (eq : s.stepBegin k j kind t = some u) :
    u.Canonical := by
  unfold State.stepBegin at eq
  split at eq
  · cases eq
  · extract_lets at eq
    split at eq
    · cases eq; exact .unstall (.updFlight (.recordLate (.atLeast h)))
    · cases eq

theorem stepFetch {k : Nat} {f : Flight} {j : Nat} (h : s.Canonical) : (s.stepFetch k f j).Canonical :=
  .foldl h fun _ _ h => .spansFetch h

theorem stepDone {k j : Nat} (h : s.Canonical) : (s.stepDone k j).Canonical := by
  unfold State.stepDone
  split; exacts [h, .flightLand (.ite (.updFlight (.blameNew (.stepCount h))) (.blameNew (.stepCount h)))]

theorem holdFlights {i : Nat} (h : s.Canonical) : (s.holdFlights i).Canonical :=
  .mk h

theorem resumeFlights {i : Nat} (h : s.Canonical) : (s.resumeFlights i).Canonical :=
  .foldl h fun _ _ h => .updFlight (.ite (.blameDue h) h)

theorem migrateFlights {i : Nat} (h : s.Canonical) : (s.migrateFlights i).Canonical :=
  .endFlights h

theorem unload {k : Nat} (h : s.Canonical) : (s.unload k).Canonical :=
  .freed (.progSweep (.freeBuffers (.mk (mk (galDrop (.mk h))))))

theorem unloadSlice {i : Nat} (h : s.Canonical) : (s.unloadSlice i).Canonical :=
  .foldl h fun _ _ h => .unload h

theorem sendUnit {k dest buf to0 seq : Nat} {src : Space × Nat × Nat} {u : Nat} (h : s.Canonical) :
    (s.sendUnit k dest buf to0 seq src u).Canonical :=
  .foldl (.getBytes h) fun _ _ h => .flightPkt h

theorem sendOne {k j : Nat} (h : s.Canonical) : (s.sendOne k j).2.Canonical := by
  unfold State.sendOne
  split
  · exact h
  · extract_lets
    split
    · split
      · exact h
      · split
        · exact h
        · split
          · exact .stepFault (.poolFault h)
          · exact .stepFetch h
          · split
            next ok t e =>
              have ht : t.Canonical := .snd (offer h) e
              split
              · exact .updFlight ht
              · exact .updFlight (.sendUnit ht)
    · exact h

theorem sendGo {k j n : Nat} (h : s.Canonical) : (State.sendGo k j n s).Canonical := by
  induction n generalizing s with
  | zero => exact h
  | succ n ih =>
    unfold State.sendGo
    split
    next e => exact ih (.snd (sendOne h) e)
    next e => exact .snd (sendOne h) e

theorem txRetry (h : s.Canonical) : s.txRetry.Canonical :=
  .foldl h fun _ _ h => .foldl h fun _ _ h => .sendGo h

theorem newelRefuse (h : s.Canonical) : s.newelRefuse.Canonical :=
  .bump (.event h)

theorem fltRefuse {o : Op} {st low dev fail : Nat} (h : s.Canonical) :
    (s.fltRefuse o st low dev fail).Canonical :=
  .finishNow h

theorem startRun {k : Nat} {f : Flight} {o : Op} {l : List (List Byte)} (h : s.Canonical) :
    (s.startRun k f o l).Canonical :=
  .setFlight h

theorem armFlight {o : Op} (h : s.Canonical) : (s.armFlight o).Canonical := by
  unfold State.armFlight
  extract_lets
  split
  · exact .fltRefuse h
  · refine .ite (.fltRefuse h) (.ite (.fltRefuse h) ?_)
    refine .ite (.fltRefuse h) (.ite (.mk h) ?_)
    exact .ite (.fltRefuse h) (.ite (.fltRefuse h) (.ite (.fltRefuse h) (.ite (.fltRefuse h) (.startRun h))))

theorem unloadFlight {o : Op} (h : s.Canonical) : (s.unloadFlight o).Canonical := by
  unfold State.unloadFlight
  split; exacts [.fltRefuse h, .ite (.fltRefuse h) (.ite (.mk h) (.fltRefuse (.unload h)))]

theorem fltRetry (h : s.Canonical) : s.fltRetry.Canonical := by
  unfold State.fltRetry
  exact .foldl (.mk h) fun _ _ h => by split; exacts [.ite (.armFlight h) (.unloadFlight h), h]

theorem flightAbsorb (h : s.Canonical) : s.flightAbsorb.Canonical :=
  .fltRetry (.foldl h fun _ _ h => .flightSettle (.flightTake h))

theorem fltCommits (h : s.Canonical) : s.fltCommits.Canonical :=
  .foldl h fun _ _ h => .ite (.commitOp h) h

theorem fltCancelTag {i tag : Nat} (h : s.Canonical) : (s.fltCancelTag i tag).2.Canonical := by
  unfold State.fltCancelTag
  extract_lets
  split
  · split
    · exact .abortFlight (.fltCommits h)
    · split; exacts [.waitEnd (.fltCommits h), .finishNow (.fltCommits h)]
  · exact .fltCommits h

/-! ### Machine/RteOps -/

theorem setQp {n : Nat} {q : Qp} (h : s.Canonical) : (s.setQp n q).Canonical :=
  .mk h

theorem updQp {n : Nat} {f : Qp → Qp} (h : s.Canonical) : (s.updQp n f).Canonical := by
  unfold State.updQp
  split; exacts [.setQp h, h]

theorem touchQp {n : Nat} (h : s.Canonical) : (s.touchQp n).Canonical :=
  .mk (updQp h)

theorem rteEnd {id st : Nat} {w : Nat × Nat} (h : s.Canonical) : (s.rteEnd id st w).Canonical := by
  unfold State.rteEnd
  split; exacts [h, .finish h]

theorem rteFail {id st : Nat} (h : s.Canonical) : (s.rteFail id st).Canonical := by
  unfold State.rteFail
  split; exacts [h, .rteEnd h]

theorem flushQueued {r : Nat} (h : s.Canonical) : (s.flushQueued r).Canonical := by
  unfold State.flushQueued
  split; exacts [h, .foldl (.setRing h) fun _ _ h => .rteFail (.mk h)]

theorem flushRing {r : Nat} (h : s.Canonical) : (s.flushRing r).Canonical :=
  .flushQueued (.foldl (.foldl h fun _ _ h => .waitRecord h) fun _ _ h => .rteFail h)

theorem sqdEnd {id n st : Nat} (h : s.Canonical) : (s.sqdEnd id n st).Canonical := by
  unfold State.sqdEnd
  split; exacts [.finish h, h]

theorem qpError {n : Nat} {cause : Option (Nat × Nat)} (h : s.Canonical) : (s.qpError n cause).Canonical := by
  unfold State.qpError
  split
  · exact h
  · refine .ite h (.event ?_)
    refine .setQp (.foldl ?_ fun _ _ h => .sqdEnd h)
    refine .flushRing (.flushRing ?_)
    split; exacts [.rteFail h, h]

theorem rteSend {q : Qp} {code path psn : Nat} {body : List Byte} (h : s.Canonical) :
    (s.rteSend q code path psn body).Canonical :=
  .txNet (.bump64 h)

theorem txCredit {n bytes : Nat} (h : s.Canonical) : (s.txCredit n bytes).2.Canonical := by
  unfold State.txCredit
  split; exacts [h, by split; exacts [.setQp h, .ite (.setQp (.offer h)) (.offer h)]]

theorem rtePump {n k : Nat} (h : s.Canonical) : (State.rtePump n k s).Canonical := by
  induction k generalizing s with
  | zero => exact h
  | succ k ih =>
    unfold State.rtePump
    split
    · exact h
    · split
      · exact h
      · refine .ite h ?_
        split
        next ok t e =>
          have ht : t.Canonical := .snd (txCredit h) e
          refine .ite (.ite ht (.deferOp ht)) ?_
          split
          · exact ht
          · exact ih (.rteSend (.commitOp (.setQp ht)))

theorem pump {n : Nat} (h : s.Canonical) : (s.pump n).Canonical := by
  unfold State.pump
  split; exacts [.rtePump h, h]

theorem enqueue {n : Nat} {ps : List SentPkt} (h : s.Canonical) : (s.enqueue n ps).Canonical :=
  .pump (.updQp h)

theorem resend {n psn : Nat} (h : s.Canonical) : (s.resend n psn).Canonical := by
  unfold State.resend
  split
  · exact h
  · split
    · exact h
    · refine .ite h (.ite (.txCredit h) ?_)
      split; exacts [.txCredit h, .rteSend (.bump (.setQp (.txCredit h)))]

theorem goBack {n psn : Nat} (h : s.Canonical) : (s.goBack n psn).Canonical := by
  unfold State.goBack
  split; exacts [h, .foldl h fun _ _ h => .resend h]

theorem sqdSettle {n : Nat} (h : s.Canonical) : (s.sqdSettle n).Canonical := by
  unfold State.sqdSettle
  split; exacts [h, .foldl (.setQp h) fun _ _ h => .sqdEnd h]

theorem workSettle {n : Nat} (h : s.Canonical) : (s.workSettle n).Canonical := by
  unfold State.workSettle
  split; exacts [h, .sqdSettle (.foldl (.setQp h) fun _ _ h => .rteEnd h)]

theorem sackIn {n edge : Nat} {placed : List Nat} (h : s.Canonical) : (s.sackIn n edge placed).Canonical := by
  unfold State.sackIn
  split
  · exact h
  · exact .pump (.workSettle (.ite (.foldl (.touchQp (.setQp h)) fun _ _ h => .resend h) (.touchQp (.setQp h))))

theorem sendSack {n path : Nat} (h : s.Canonical) : (s.sendSack n path).Canonical := by
  unfold State.sendSack
  split; exacts [h, .ite (.rteSend (.setQp h)) (.rteSend (.setQp h))]

theorem sendNak {n psn : Nat} {k : NakKind} (h : s.Canonical) : (s.sendNak n psn k).Canonical := by
  unfold State.sendNak
  split; exacts [h, .ite (.rteSend h) (.rteSend h)]

theorem respFail {n psn st : Nat} (h : s.Canonical) : (s.respFail n psn st).Canonical := by
  unfold State.respFail
  split; exacts [h, .sendNak (.bump (.qpError (.updQp h)))]

theorem cnpBack {n path : Nat} (h : s.Canonical) : (s.cnpBack n path).Canonical := by
  unfold State.cnpBack
  split; exacts [h, .ite h (.rteSend (.bump (.setQp h)))]

theorem recvEnd {n id st : Nat} {p : Pkt} (h : s.Canonical) : (s.recvEnd n id st p).Canonical :=
  .rteEnd h

theorem execReq {n : Nat} {p : Pkt} (h : s.Canonical) : (s.execReq n p).Canonical := by
  unfold State.execReq
  split
  · exact h
  · refine .ite (.ite (.enqueue (.getBytes h)) (.foldl (.getBytes h) fun _ _ h => .rteSend h)) ?_
    exact .ite (.enqueue (.updQp (.putBytes (.getBytes h)))) (.rteSend (.updQp (.putBytes (.getBytes h))))

theorem atomicBack {n : Nat} {q : Qp} {w : SendWork} {old : Nat} (h : s.Canonical) :
    (s.atomicBack n q w old).Canonical := by
  unfold State.atomicBack
  split
  · exact h
  · refine .ite (.qpError h) ?_
    extract_lets
    split
    · exact .qpError (.poolFault h)
    · split
      · exact .fetchPages (.begin (.mk (updQp h)))
      · exact .begin (.mk (updQp h))
    · exact .workSettle (.setQp (.putBytes h))

theorem deliver {n : Nat} {x : InPkt} (h : s.Canonical) : (s.deliver n x).Canonical := by
  unfold State.deliver
  split
  · exact h
  · split
    · split; exacts [.recvEnd (.setQp h), h]
    · split; exacts [.recvEnd (.setQp h), h]
    · split; exacts [.recvEnd (.setQp h), h]
    · exact .workSettle (.setQp h)
    · split; exacts [.atomicBack h, h]
    · exact h

theorem pushStart {n : Nat} {ls : List Nat} (h : s.Canonical) : (s.pushStart n ls).Canonical :=
  .foldl (.updQp h) fun _ _ h => .send h

theorem advance {n k : Nat} (h : s.Canonical) : (State.advance n k s).Canonical := by
  induction k generalizing s with
  | zero => exact h
  | succ k ih =>
    unfold State.advance
    split
    · exact h
    · split
      · exact h
      · extract_lets p others s₁ s₂
        have h₂ : s₂.Canonical := .updQp (.ite (.execReq h) h)
        exact .ite h (.ite (.pushStart h) (ih (.ite (.sendSack (.deliver h₂)) h₂)))

theorem sackDue {n : Nat} (h : s.Canonical) : (s.sackDue n).Canonical := by
  unfold State.sackDue
  split; exacts [h, .ite (.sendSack h) h]

theorem reportOne {n path : Nat} (h : s.Canonical) : (s.reportOne n path).Canonical :=
  .updQp (.ite (.begin h) h)

theorem reportPlaced {n path : Nat} (h : s.Canonical) : (s.reportPlaced n path).Canonical :=
  .sackDue (.reportOne h)

theorem placeAt {n : Nat} {p : Pkt} {x : Option (Space × Nat)} {bs : List Byte} {recv : Option Nat}
    (h : s.Canonical) :
    (s.placeAt n p x bs recv).Canonical := by
  unfold State.placeAt
  extract_lets s₁ links s₂ s₃
  have h₁ : s₁.Canonical := by
    unfold s₁
    split; exacts [.putBytes h, h]
  have h₃ : s₃.Canonical := .reportOne (.updQp h₁)
  split
  · exact .sackDue (.advance h₃)
  · exact h₃

theorem rxDrop (h : s.Canonical) : s.rxDrop.Canonical :=
  .bump h

theorem rnrBack {n psn : Nat} (h : s.Canonical) : (s.rnrBack n psn).Canonical := by
  unfold State.rnrBack
  split; exacts [.sendNak h, h]

theorem placeSend {n : Nat} {q : Qp} {p : Pkt} (h : s.Canonical) : (s.placeSend n q p).Canonical := by
  unfold State.placeSend
  split
  · exact .rnrBack h
  · split
    · exact .rnrBack h
    · refine .ite (.sendNak (.bump (.qpError (.recvEnd (.updQp h))))) (.ite (.qpError (.rteFail h)) ?_)
      refine .ite (.placeAt (.commitOp h)) ?_
      split
      · exact .placeAt (.commitOp h)
      · split; exacts [.fetchPages (.bump h), h]
      · exact .ite (.respFail (.rteFail h)) (.qpError (.rteFail (.poolFault h)))

theorem placeKey {n : Nat} {q : Qp} {p : Pkt} {r : KeyRight} {recv : Option Nat} (h : s.Canonical) :
    (s.placeKey n q p r recv).Canonical := by
  unfold State.placeKey
  refine .ite (.ite (.respFail h) (.qpError h)) (.ite (.placeAt h) ?_)
  extract_lets
  split
  · split; exacts [.fetchPages (.bump h), h]
  · exact .ite (.respFail (.poolFault h)) (.qpError (.poolFault h))
  · exact .placeAt h

theorem place {n : Nat} {p : Pkt} (h : s.Canonical) : (s.place n p).Canonical := by
  unfold State.place
  split
  · exact h
  · split
    · refine .ite ?_ (.placeKey h)
      split; exacts [.rnrBack h, .placeKey h]
    · exact .ite (.placeAt h) (.placeSend h)

theorem missShow {port : Nat} (h : s.Canonical) : (s.missShow port).Canonical :=
  .setFs h

theorem missPut {p : Pkt} {w : MissWhy} (h : s.Canonical) : (s.missPut p w).Canonical :=
  .ite (.ite (.bump h) (.event (.bump h))) (.missShow (.mk (ite h (.begin h))))

theorem cacheShow (h : s.Canonical) : s.cacheShow.Canonical :=
  .setFs h

theorem fetchCtx {n : Nat} (h : s.Canonical) : (s.fetchCtx n).Canonical := by
  unfold State.fetchCtx
  split; exacts [.ite h (.begin (.cacheShow (.bump (.setQp h)))), h]

theorem fetchKey {i : Nat} (h : s.Canonical) : (s.fetchKey i).Canonical := by
  unfold State.fetchKey
  split; exacts [.ite h (.cacheShow (.bump (.mk h))), h]

theorem makeRoom {u : State} (h : s.Canonical) (eq : s.makeRoom = some u) : u.Canonical := by
  unfold State.makeRoom at eq
  extract_lets at eq
  split at eq
  · cases eq; exact h
  · obtain ⟨_, _, rfl⟩ := Option.map_eq_some_iff.1 eq
    exact .updQp h

theorem pktMain {p : Pkt} (h : s.Canonical) : (s.pktMain p).Canonical := by
  unfold State.pktMain
  extract_lets
  split
  · exact .rxDrop h
  · refine .ite ?_ ?_
    · split; exacts [.ite (.sendNak (.bump h)) h, h]
    · refine .ite ?_ ?_
      · split
        · refine .reportPlaced (.ite ?_ (.rteSend h))
          split; exacts [.resend h, h]
        · exact .ite (.execReq h) (.reportPlaced h)
      · refine .ite (.rxDrop h) (.ite (.rnrBack h) ?_)
        refine .ite (.sendNak (.rxDrop h)) ?_
        exact .ite (.missPut (.fetchKey h)) (.ite (.missPut h) (.ite (.place h) (.missPut (.pushStart h))))

theorem roceResp {n : Nat} {q : Qp} {p : Pkt} (h : s.Canonical) : (s.roceResp n q p).Canonical := by
  unfold State.roceResp
  split
  · exact .rxDrop h
  · split
    · exact .rxDrop h
    · refine .ite (.rxDrop h) (.ite (.qpError h) ?_)
      extract_lets
      split
      · split; exacts [.fetchPages (.bump h), h]
      · exact .qpError (.poolFault h)
      · exact .sackIn (.updQp (.ite h (.putBytes h)))

theorem nakIn {n psn : Nat} {k : NakKind} (h : s.Canonical) : (s.nakIn n psn k).Canonical := by
  unfold State.nakIn
  split
  · exact h
  · refine .ite h ?_
    extract_lets
    split
    · exact .qpError h
    · exact .qpError h
    · exact .qpError h
    · exact .goBack (.sackIn h)
    · exact .ite (.qpError h) (.countFrom (.updQp (.sackIn h)))

theorem cnpIn {n path : Nat} (h : s.Canonical) : (s.cnpIn n path).Canonical :=
  .updQp (.begin (.bump h))

theorem pktGo {p : Pkt} (h : s.Canonical) : (s.pktGo p).Canonical := by
  unfold State.pktGo
  split
  · exact .rxDrop h
  · split
    · exact .ite h (.sackIn h)
    · exact .nakIn h
    · exact h
    · exact .cnpIn h
    · exact .ite (.roceResp h) (.pktMain h)

theorem pktIn {p : Pkt} (h : s.Canonical) : (s.pktIn p).Canonical := by
  unfold State.pktIn
  extract_lets -underBinder s₁
  have h₁ : s₁.Canonical := .bump64 h
  refine .ite h₁ (.ite (.rxDrop h₁) ?_)
  split
  · exact .rxDrop h₁
  · extract_lets -underBinder s₂ s₃
    have h₃ : s₃.Canonical := .touchQp (.ite (.cnpBack h₁) h₁)
    exact .ite (.rxDrop h₁) (.ite (.missPut (.fetchCtx h₃)) (.pktGo h₃))

theorem missLeave {out stay : List (Pkt × MissWhy)} (h : s.Canonical) : (s.missLeave out stay).Canonical :=
  .foldl (.foldl (.mk h) fun _ _ h => .missShow h) fun _ _ h => .pktGo h

theorem fenceLoop {n k : Nat} (h : s.Canonical) : (State.fenceLoop n k s).Canonical := by
  induction k generalizing s with
  | zero => exact h
  | succ k ih => exact .ite (ih (.missLeave h)) h

theorem fenceKick {n : Nat} (h : s.Canonical) : (s.fenceKick n).Canonical :=
  .fenceLoop h

theorem missGo {out stay : List (Pkt × MissWhy)} (h : s.Canonical) : (s.missGo out stay).Canonical :=
  .foldl (.missLeave h) fun _ _ h => .fenceKick h

theorem missTake {sel : Pkt × MissWhy → Bool} (h : s.Canonical) : (s.missTake sel).Canonical :=
  .missGo h

theorem keyGo (h : s.Canonical) : s.keyGo.Canonical :=
  .missGo h

theorem missDrop {sel : Pkt × MissWhy → Bool} (h : s.Canonical) : (s.missDrop sel).Canonical :=
  .foldl (.mk h) fun _ _ h => .missShow h

theorem wqeStart {o : Op} (h : s.Canonical) : (s.wqeStart o).Canonical := by
  unfold State.wqeStart
  extract_lets -underBinder _ s₁
  have h₁ : s₁.Canonical := .mk h
  split
  · exact h₁
  · extract_lets -underBinder
    split
    · exact .atomicBack h₁
    · refine .ite (.qpError h₁) ?_
      extract_lets -underBinder
      split
      · exact .qpError (.poolFault h₁)
      · refine .mk (begin ?_)
        split; exacts [.fetchPages h₁, h₁]
      · split
        next bs t e =>
          exact .enqueue (.touchQp (.updQp (.snd (by split; exacts [h₁, .getBytes h₁]) e)))

theorem rteResetSlice {i : Nat} (h : s.Canonical) : (s.rteResetSlice i).Canonical :=
  .cacheShow (.mk (missDrop h))

theorem rteFaultSlice {i : Nat} (h : s.Canonical) : (s.rteFaultSlice i).Canonical :=
  .mk h

theorem rteKick (h : s.Canonical) : s.rteKick.Canonical :=
  .foldl h fun _ _ h => .pump h

/-! ### Machine/PktOps -/

theorem fillBuffer {q len rule port flags off : Nat} {capture : Bool} {bs : List Byte} {u : State}
    (h : s.Canonical)
    (eq : s.fillBuffer q capture len bs rule port flags off = some u) : u.Canonical := by
  unfold State.fillBuffer at eq
  obtain ⟨o, _, rfl⟩ := Option.map_eq_some_iff.1 eq
  extract_lets room addr part w st s₁
  have h₁ : s₁.Canonical := .commitOp h
  refine .ite (.ite (.finish h₁) ?_) (.ite (.finish h₁) (.finish (.mk (Mem.wf_write _ _ _ h₁))))
  split
  · exact .finish (.poolFault h₁)
  · exact .finish (.fetchPages h₁)
  · exact .finish (.putBytes h₁)

theorem chargeRx {slice : Option Nat} {n : Nat} (h : s.Canonical) : (s.chargeRx slice n).Canonical :=
  .ite (.mk h) (.charge (.mk h))

theorem ingressPut {x : Ingress} {port n : Nat} (h : s.Canonical) : (s.ingressPut x port n).Canonical :=
  .ite (.mk h) (.mk h)

theorem pktArrive {p : Pkt} (h : s.Canonical) : (s.pktArrive p).Canonical :=
  .ite h (.ite (.ingressPut h) (.fenceKick (.pktIn (.bufferedApply (.bufferedApply h)))))

theorem deliverFrame {f : RxFrame} {p : Parse} {a : Act} (h : s.Canonical) :
    (s.deliverFrame f p a).Canonical := by
  unfold State.deliverFrame
  refine .ite (.bump (.chargeRx h)) ?_
  split
  · exact .ite (.bump (.chargeRx h)) (.getD (fun _ => .fillBuffer (.chargeRx h)) (.bump (.chargeRx h)))
  · refine .ite (.bump (.chargeRx h)) ?_
    split; exacts [.pktArrive (.chargeRx h), .rxDrop (.chargeRx h)]
  · exact .ite (.bump (.chargeRx h)) (.getD (fun _ => .fillBuffer (.chargeRx h)) (.bump (.chargeRx h)))
  · exact .bump (.chargeRx h)

theorem mirrorFrame {f : RxFrame} {p : Parse} {a : Act} (h : s.Canonical) : (s.mirrorFrame f p a).Canonical :=
  .ite h (.ite (.bump h) (.getD (fun _ => .fillBuffer h) (.bump h)))

theorem police {m L : Nat} (h : s.Canonical) : (s.police m L).2.Canonical :=
  .ite (.bump (.mk h)) (.bump (.bump (.mk h)))

theorem rxLost {f : RxFrame} (h : s.Canonical) : (s.rxLost f).Canonical :=
  .chargeRx h

theorem treeFault {f : RxFrame} (h : s.Canonical) : (s.treeFault f).Canonical :=
  .rxLost (.event (.bump h))

theorem slowIn {f : RxFrame} {p : Parse} (h : s.Canonical) : (s.slowIn f p).Canonical := by
  unfold State.slowIn
  extract_lets
  split; exacts [.rxLost (.event (.bump (.bump h))), .ite (.rxLost (.event (.bump (.bump h)))) (.mk (bump h))]

theorem secondPass {f : RxFrame} (h : s.Canonical) : (s.secondPass f).Canonical := by
  unfold State.secondPass
  exact .ite (.slowIn h) (by split; exacts [.treeFault h, .deliverFrame h])

theorem espGo {f : RxFrame} {a : Act} (h : s.Canonical) : (s.espGo f a).Canonical := by
  unfold State.espGo
  extract_lets
  split
  next e => exact .rxLost (.snd (espIn h) e)
  next e => exact .secondPass (.saUse (.snd (espIn h) e))

theorem handleAct {f : RxFrame} {p : Parse} {a : Act} (h : s.Canonical) : (s.handleAct f p a).Canonical := by
  unfold State.handleAct
  extract_lets s₁
  have h₁ : s₁.Canonical := .ite (.mirrorFrame h) h
  split
  next ok t e =>
    have ht : t.Canonical := .snd (by split; exacts [.police h₁, h₁]) e
    refine .ite (.rxLost ht) ?_
    split
    · exact .ite (.deliverFrame ht) (.ite (.getD (fun _ => .holdPut ht) (.rxLost (.bump ht))) (.espGo ht))
    · exact .deliverFrame ht

theorem classifyFrame {f : RxFrame} {p : Parse} (h : s.Canonical) : (s.classifyFrame f p).Canonical := by
  unfold State.classifyFrame
  split; exacts [.treeFault h, .handleAct h]

theorem parseFrame {f : RxFrame} (h : s.Canonical) : (s.parseFrame f).Canonical :=
  .ite (.slowIn (.bump64 h)) (.classifyFrame (.bump64 h))

theorem frameGo {f : RxFrame} (h : s.Canonical) : (s.frameGo f).Canonical := by
  unfold State.frameGo
  split
  next e => exact .rxLost (.snd (macIn h) e)
  next e => exact .parseFrame (.snd (macIn h) e)

theorem frameArrive {f : RxFrame} (h : s.Canonical) : (s.frameArrive f).Canonical := by
  unfold State.frameArrive
  extract_lets -underBinder s₁ secured
  have h₁ : s₁.Canonical := .bufferedApply (.bufferedApply (.bufferedApply (.bufferedApply h)))
  exact .ite (.ingressPut h) (.ite (.getD (fun _ => .holdPut h₁) (.rxLost (.bump h₁))) (.frameGo h₁))

theorem ingressGo (h : s.Canonical) : s.ingressGo.Canonical := by
  unfold State.ingressGo
  exact .foldl (.mk h) fun _ _ h => by split; exacts [.frameArrive h, .pktArrive h]

theorem reassemble {w : Nat} {f : RxFrame} {x : Frag} (h : s.Canonical) : (s.reassemble w f x).2.Canonical := by
  unfold State.reassemble
  extract_lets -underBinder mine lost old r rest _ keep
  have hl : ∀ n, (lost n).Canonical := fun _ => .chargeRx (.bump h)
  have hk : keep.2.Canonical := by
    unfold keep
    split
    · exact .mk h
    · split; exacts [hl _, .mk h]
  split
  · extract_lets -underBinder body
    split
    · exact hk
    · split; exacts [.mk (hl _), .mk h]
  · exact hk

theorem slowOut {f : RxFrame} (h : s.Canonical) : (s.slowOut f).Canonical := by
  unfold State.slowOut
  exact .ite (by split; exacts [.treeFault h, .deliverFrame h]) (.classifyFrame h)

theorem slowFrame {w : Nat} (h : s.Canonical) : (s.slowFrame w).Canonical := by
  unfold State.slowFrame
  split
  · exact h
  · extract_lets _ s₁ p
    have h₁ : s₁.Canonical := .mk h
    refine .ite h (.ite ?_ (.slowOut h₁))
    split
    next e => exact .snd (reassemble h₁) e
    next e => exact .slowOut (.snd (reassemble h₁) e)

theorem txEnd {o : Op} {st len pn : Nat} (h : s.Canonical) : (s.txEnd o st len pn).Canonical :=
  .finish h

theorem frameInvalid {o : Op} (h : s.Canonical) : (s.frameInvalid o).Canonical :=
  .finish (.event (.bump h))

theorem frameCredit {owner n : Nat} (h : s.Canonical) : (s.frameCredit owner n).2.Canonical := by
  unfold State.frameCredit
  extract_lets
  split
  · exact .mk h
  · split
    next ok t e =>
      have ht : t.Canonical := .snd (offer h) e
      exact .ite (.mk ht) ht

theorem txHold {id : Nat} {mem : Bool} (h : s.Canonical) : (s.txHold id mem).Canonical :=
  .mk (ite (.begin h) h)

theorem txJoin {o : Op} (h : s.Canonical) : (s.txJoin o).Canonical := by
  unfold State.txJoin
  extract_lets
  split
  next ok t e =>
    have ht : t.Canonical := .snd (by split; exacts [h, .frameCredit h]) e
    exact .ite (.txHold (.ite ht (.deferOp (.bump ht))))
      (.ite (.txHold ht) (.ite (.txEnd (.mk ht)) (.setTxQueue (.commitOp (.mk ht)))))

theorem txTry {o : Op} (h : s.Canonical) : (s.txTry o).Canonical :=
  .ite (.ite h (.txHold h)) (.ite (.txHold h) (.txJoin h))

theorem txKick (h : s.Canonical) : s.txKick.Canonical := by
  unfold State.txKick
  exact .foldl h fun _ _ h => by split; exacts [.txTry h, .mk h]

theorem drr {port n : Nat} (h : s.Canonical) : (State.drr port n s).2.Canonical := by
  induction n generalizing s with
  | zero => exact h
  | succ n ih =>
    unfold State.drr
    extract_lets go
    have hg : ∀ (s : State) q b, s.Canonical → (go s q b).Canonical := fun _ _ _ h => .mk h
    split
    extract_lets -underBinder
    split
    · exact ih (hg _ _ _ h)
    · extract_lets -underBinder
      split
      · exact .mk (hg _ _ _ h)
      · exact ih (.mk (hg _ _ _ h))

theorem txPick {port : Nat} (h : s.Canonical) : (s.txPick port).2.Canonical := by
  unfold State.txPick
  split
  · exact h
  · split; exacts [h, .drr h]

theorem txSent {f : TxFrame} {L pn : Nat} (h : s.Canonical) : (s.txSent f L pn).Canonical := by
  unfold State.txSent
  extract_lets; split; exacts [.txEnd (.bump64 (.bump64 h)), .bump64 (.bump64 h)]

theorem txFail {f : TxFrame} {st : Nat} (h : s.Canonical) : (s.txFail f st).Canonical := by
  unfold State.txFail
  split; exacts [.txEnd h, h]

theorem txMac {port pn L : Nat} {f : TxFrame} {bs : List Byte} (h : s.Canonical) :
    (s.txMac port f bs pn L).Canonical := by
  unfold State.txMac
  split
  next t e =>
    have ht : t.Canonical := .snd (macOut h) e
    refine .ite (.txFail ht) ?_
    split; exacts [.txSent (.send ht), .txSent (.send ht)]
  next t e =>
    have ht : t.Canonical := .snd (macOut h) e
    split; exacts [.txSent (.send (.send ht)), .txSent (.send ht)]

theorem txFinal {port : Nat} {f : TxFrame} (h : s.Canonical) : (s.txFinal port f).Canonical := by
  unfold State.txFinal
  extract_lets
  split
  · exact .txMac h
  · split
    · exact .txFail h
    · split
      next w t e =>
        have ht : t.Canonical := .snd (by split; exacts [.drawWord h, h]) e
        split
        · exact .txFail ht
        · refine .ite (.txFail ht) ?_
          split
          next e => exact .txFail (.snd (takeNumber ht) e)
          next e => exact .txMac (.countBlocks (.saUse (.snd (takeNumber ht) e)))

theorem txStage {port q : Nat} {f : TxFrame} (h : s.Canonical) : (s.txStage port q f).Canonical := by
  unfold State.txStage
  refine .ite ?_ (.txFinal h)
  split
  next e => exact .holdPut h e
  · exact .ite (.bump h) (.setTxQueue (.bump h))

theorem egress {port : Nat} (h : s.Canonical) : (s.egress port).Canonical := by
  unfold State.egress
  refine .ite h ?_
  extract_lets s₁
  have h₁ : s₁.Canonical := .txKick (.bufferedApply (.bufferedApply (.bufferedApply (.bufferedApply h))))
  split
  next e => exact .snd (txPick h₁) e
  next q f t e =>
    have ht : t.Canonical := .snd (txPick h₁) e
    exact .ite h₁ (.txRetry (.rteKick (.txKick (.txStage (.setTxQueue (.mk ht))))))

theorem holdGo {port dir n : Nat} (h : s.Canonical) : (State.holdGo port dir n s).Canonical := by
  induction n generalizing s with
  | zero => exact h
  | succ n ih =>
    unfold State.holdGo
    split
    · exact h
    · refine .ite h (ih ?_)
      split; exacts [.frameGo (.setHolding h), .espGo (.setHolding h), .txFinal (.setHolding h)]

theorem holdsGo (h : s.Canonical) : s.holdsGo.Canonical :=
  .foldl h fun _ _ h => .holdGo h

theorem frameCancelTag {i tag : Nat} (h : s.Canonical) : (s.frameCancelTag i tag).2.Canonical := by
  unfold State.frameCancelTag
  split; exacts [.txKick (.finish (.mk h)), h]

theorem ppResetSlice {i : Nat} (h : s.Canonical) : (s.ppResetSlice i).Canonical :=
  .mk (foldl h fun _ _ h => .setTxQueue h)

theorem cipResetSlice {i : Nat} (h : s.Canonical) : (s.cipResetSlice i).Canonical :=
  .mk h

/-! ### Machine/Cipher -/

theorem saResult {r : Nat} (h : s.Canonical) : (s.saResult r).Canonical :=
  .eventV h

theorem saInstall {i : Nat} (h : s.Canonical) : (s.saInstall i).Canonical :=
  .ite (.saResult h) (.ite (.saResult h) (.saResult (.saUse (.setSa h))))

theorem saRetire {i : Nat} {a : Sa} (h : s.Canonical) : (s.saRetire i a).Canonical :=
  .holdsGo (.setSa h)

theorem saRemove {i : Nat} (h : s.Canonical) : (s.saRemove i).Canonical := by
  unfold State.saRemove
  split; exacts [.saResult h, .ite (.saResult h) (.saRetire (.mk h))]

theorem saQuery {i : Nat} (h : s.Canonical) : (s.saQuery i).Canonical :=
  .saResult (.foldl h fun _ _ h => .setReg h)

theorem saFree {i : Nat} (h : s.Canonical) : (s.saFree i).Canonical := by
  unfold State.saFree
  split; exacts [h, .ite h (.ite (.saResult (.mk (mk h))) (.mk h))]

theorem cvuSet {n v : Nat} (h : s.Canonical) : (s.cvuSet n v).Canonical :=
  .setReg (.setReg h)

theorem cvuStart {n : Nat} (h : s.Canonical) : (s.cvuStart n).Canonical :=
  .cvuSet h

theorem cvuJob {port n : Nat} {start : Bool} (h : s.Canonical) : (s.cvuJob port n start).Canonical :=
  .ite (.eventV h) (.mk (setF (.ite (.cvuStart h) h)))

theorem execCvuJobDone (h : s.Canonical) : Res.Canonical (execCvuJobDone s) := by
  unfold Machine.execCvuJobDone
  refine .next ?_
  split; exacts [h, .ite h (.ite (.eventV (.mk (setF h))) (.eventV (.bump64 (.cvuSet (.mk (setF h))))))]

/-! ### Machine/FwOps -/

theorem setFwValid {k v : Nat} (h : s.Canonical) : (s.setFwValid k v).Canonical :=
  .setF h

theorem fwShow (h : s.Canonical) : s.fwShow.Canonical :=
  .setReg (.setReg h)

theorem logWrite {core level kind id slice : Nat} {data : List Byte} (h : s.Canonical) :
    (s.logWrite core level kind id slice data).Canonical :=
  .setReg (.mk h)

theorem catalogue {core : Nat} (h : s.Canonical) : (s.catalogue core).Canonical :=
  .foldl h fun _ _ h => .logWrite h

theorem wingRuns {w : Nat} (h : s.Canonical) : (s.wingRuns w).Canonical :=
  .foldl (.fwShow (.setReg h)) fun _ _ h => .catalogue h

/-! ### Machine/Gallery -/

theorem galRefuse {o : Op} {st detail kind : Nat} {ver : optParam Nat 0} (h : s.Canonical) :
    (s.galRefuse o st detail kind ver).Canonical :=
  .galEndOp h

theorem galStart {o : Op} {slot : Nat} {img : List Byte} {l : List Strm} (h : s.Canonical) :
    (s.galStart o slot img l).Canonical :=
  .galSettle (.mk h)

theorem loadProgram {o : Op} (h : s.Canonical) : (s.loadProgram o).Canonical := by
  unfold State.loadProgram
  extract_lets -underBinder
  split
  · exact .galRefuse h
  · refine .ite (.galRefuse h) ?_
    split
    next w t e =>
      have ht : t.Canonical := .snd (drawWord h) e
      split
      · exact .galRefuse h
      · refine .progSweep (.galEndOp (.commitOp ?_))
        split; exacts [.setProg (.setProg (.setProg ht)), .setProg (.setProg ht)]

theorem unloadProgram {o : Op} (h : s.Canonical) : (s.unloadProgram o).Canonical := by
  unfold State.unloadProgram
  split; exacts [.galRefuse h, .progSweep (.galEndOp (.setProg h))]

theorem galDispatch {o : Op} {bad : optParam Bool false} (h : s.Canonical) :
    (s.galDispatch o bad).Canonical := by
  unfold State.galDispatch
  refine .ite (.galRefuse h) (.ite (.galRefuse h) ?_)
  refine .ite (.galRefuse h) (.ite (.mk (begin (.spansFetch h))) ?_)
  refine .ite (.loadProgram h) (.ite (.unloadProgram h) ?_)
  refine .ite (.galRefuse h) ?_
  extract_lets
  split; exacts [.galRefuse h, .galRefuse h, .galStart h]

theorem headKick {id : Nat} (h : s.Canonical) : (s.headKick id).Canonical := by
  unfold State.headKick
  split; exacts [.mk h, .ite h (.galDispatch (.mk h))]

theorem fenceGo {id : Nat} (h : s.Canonical) : (s.fenceGo id).Canonical := by
  unfold State.fenceGo
  split; exacts [.mk h, .ite (.galDispatch (.mk h)) h]

theorem galKick (h : s.Canonical) : s.galKick.Canonical :=
  .foldl (.foldl (.galLast h) fun _ _ h => .headKick h) fun _ _ h => .fenceGo h

theorem galFetch {opc ring : Nat} {d : Desc} (h : s.Canonical) : (s.galFetch opc ring d).Canonical := by
  unfold State.galFetch
  exact .ite (by split; exacts [.ite (.mk (fetch h ‹_›)) (.galKick (.galDispatch (.fetch h ‹_›))), h]) h

theorem galCancelTag {i tag : Nat} (h : s.Canonical) : (s.galCancelTag i tag).2.Canonical := by
  unfold State.galCancelTag
  split
  · split
    · exact .galKick (.waitEnd h)
    · refine .galKick (.galEndOp (.mk (show State.Canonical _ from ?_)))
      split; exacts [.progSweep (.galRemove (.foldl h fun _ _ h => .clusterIdle h)), h]
  · exact h

theorem headTimeout {op : Nat} (h : s.Canonical) : (s.headTimeout op).Canonical := by
  unfold State.headTimeout
  split; exacts [.ite (.galKick (.galRefuse (.mk (ripe h)))) h, h]

/-! ### Machine/Placement -/

theorem plcEnd {o : Op} {st value engine : Nat} (h : s.Canonical) : (s.plcEnd o st value engine).Canonical :=
  .finish (.ite (.event (.mk h)) (.mk h))

theorem plcHold {o : Op} {w : PlcWait} (h : s.Canonical) : (s.plcHold o w).Canonical :=
  .mk (begin h)

theorem plcAlloc {o : Op} (h : s.Canonical) : (s.plcAlloc o).Canonical := by
  unfold State.plcAlloc
  extract_lets
  split
  refine .ite (.plcEnd h) (.ite (.plcEnd h) (.ite (.plcEnd h) ?_))
  split
  next w t e =>
    have ht : t.Canonical := .snd (drawWord h) e
    split
    · exact .plcEnd h
    · exact .plcEnd (.mk ht)

theorem plcFree {o : Op} (h : s.Canonical) : (s.plcFree o).Canonical := by
  unfold State.plcFree
  split; exacts [.plcEnd h, .ite (.plcEnd h) (.plcEnd (.freeObj h))]

theorem plcSettle {o : Op} (h : s.Canonical) : (s.plcSettle o).Canonical :=
  .ite (.plcHold (.commitOp h)) (.plcEnd (.commitOp h))

theorem plcHint {o : Op} (h : s.Canonical) : (s.plcHint o).Canonical := by
  unfold State.plcHint
  split
  split
  · exact .plcEnd h
  · exact .ite (.plcEnd h) (.ite (.plcEnd h) (.ite (.plcEnd h) (.plcSettle (.setObj h))))

theorem plcFetches {o : Op} {k : Nat} {write : Bool} {ps : List Nat} (h : s.Canonical) :
    (s.plcFetches o k write ps).Canonical :=
  .ite (.deferOp (.fetchPages (.plcHold h))) (.fetchPages (.plcHold h))

theorem plcReach {o : Op} {k : Nat} {x : TObj} {write : Bool} {ps : List Nat} {u : State} (h : s.Canonical)
    (eq : s.plcReach o k x write ps = some u) : u.Canonical := by
  unfold State.plcReach at eq
  split at eq
  · cases eq
  · cases eq; exact .plcEnd h
  · cases eq; exact .plcFetches h

theorem plcGet {o : Op} (h : s.Canonical) : (s.plcGet o).Canonical := by
  unfold State.plcGet
  refine .ite (.plcEnd h) ?_
  split
  · exact .plcEnd h
  · split; exacts [.plcReach h ‹_›, .plcEnd (.mk (Mem.wf_write _ _ _ (heat (.commitOp h))))]

theorem plcPut {o : Op} (h : s.Canonical) : (s.plcPut o).Canonical := by
  unfold State.plcPut
  refine .ite (.plcEnd h) ?_
  split
  · exact .plcEnd h
  · split; exacts [.plcReach h ‹_›, .plcEnd (.heat (.tierWrite (.commitOp h)))]

theorem mapFail {o : Op} {st : Nat} (h : s.Canonical) : (s.mapFail o st).Canonical :=
  .plcEnd (.mk h)

theorem mapGo {o : Op} (h : s.Canonical) : (s.mapGo o).Canonical := by
  unfold State.mapGo
  split; exacts [.mapFail h, by extract_lets; split; exacts [.plcEnd h, .mapFail h, .plcFetches h]]

theorem plcMap {o : Op} (h : s.Canonical) : (s.plcMap o).Canonical := by
  unfold State.plcMap
  refine .ite (.plcEnd h) (.ite (.plcEnd h) ?_)
  refine .ite (.plcEnd h) ?_
  split; exacts [.plcEnd h, .ite (.plcEnd h) (.ite (.plcEnd h) (.mapGo (.commitOp (.mk h))))]

theorem plcUnmap {o : Op} (h : s.Canonical) : (s.plcUnmap o).Canonical := by
  unfold State.plcUnmap
  split
  split
  · exact .plcEnd h
  · exact .ite (.plcEnd h) (.plcEnd (.mk h))

theorem plcPoolAdd {o : Op} (h : s.Canonical) : (s.plcPoolAdd o).Canonical := by
  unfold State.plcPoolAdd
  exact .ite (.plcEnd h) (.ite (.plcEnd h) (by split; exacts [.plcEnd h, .plcEnd (.mk h)]))

theorem movePageOut {k p : Nat} {u : State} (h : s.Canonical) (eq : s.movePageOut k p = some u) :
    u.Canonical := by
  unfold State.movePageOut at eq
  split at eq
  · cases eq; exact h
  · extract_lets -underBinder at eq
    split at eq
    · cases eq
    · split at eq
      next f t e =>
        have ht : t.Canonical := .snd (frameFor h) e
        split at eq
        · cases eq
        · cases eq; exact .bump64 (.updPage (.mk (Mem.wf_carry _ _ _ _ ht)))

theorem moveRepOut {k p : Nat} {u : State} (h : s.Canonical) (eq : s.moveRepOut k p = some u) :
    u.Canonical := by
  unfold State.moveRepOut at eq
  split at eq
  · cases eq; exact h
  · split at eq
    next f t e =>
      have ht : t.Canonical := .snd (frameFor h) e
      split at eq
      · cases eq
      · cases eq; exact .bump64 (.updPage (.mk (Mem.wf_carry _ _ _ _ ht)))

theorem plcPoolRemove {o : Op} (h : s.Canonical) : (s.plcPoolRemove o).Canonical := by
  unfold State.plcPoolRemove
  extract_lets -underBinder i j
  rcases (if j < 16 then look s.plc.pools (16 * i + j) else none) with _ | p
  · exact .plcEnd h
  · dsimp -zeta only
    extract_lets -underBinder ps rs held _ without moved moved'
    have hw : without.Canonical := .mk (foldl (.foldl h fun _ _ h => .takeIn h) fun _ _ h => .takeIn h)
    have hm : ∀ u, moved = some u → u.Canonical :=
      optFold (by rintro u ⟨⟩; exact hw) fun _ _ _ h e => .movePageOut h e
    have hm' : ∀ u, moved' = some u → u.Canonical := optFold hm fun _ _ _ h e => .moveRepOut h e
    cases e : moved' with
    | none => exact .plcEnd h
    | some u => exact .ite (.plcEnd (hm' u e)) (.plcEnd h)

theorem plcSetCopies {o : Op} (h : s.Canonical) : (s.plcSetCopies o).Canonical := by
  unfold State.plcSetCopies
  split
  · exact .plcEnd h
  · refine .ite (.plcEnd h) (.ite (.plcSettle (.mk (Mem.wf_clear _ _ _ (mk (freed (.setObj h)))))) ?_)
    exact .ite (.plcEnd h) (.ite (.plcSettle h) (.plcSettle (.freed (.setObj (.mk h)))))

theorem plcResolve {o : Op} (h : s.Canonical) : (s.plcResolve o).Canonical := by
  unfold State.plcResolve
  split
  · exact .plcEnd h
  · exact .ite (.plcEnd h) (.plcEnd (.foldl (.setObj (.commitOp h)) fun _ _ h => .updPage (.copyPage h)))

theorem plcQuery {o : Op} (h : s.Canonical) : (s.plcQuery o).Canonical := by
  unfold State.plcQuery
  split; exacts [.plcEnd h, .plcEnd h]

theorem plcRun {o : Op} (h : s.Canonical) : (s.plcRun o).Canonical := by
  unfold State.plcRun
  refine .ite (.plcHold h) (.ite (.mapGo h) ?_)
  refine .ite (.plcEnd h) (.ite (.plcEnd h) ?_)
  split
  · exact .plcAlloc h
  · exact .plcFree h
  · exact .plcHint h
  · exact .plcGet h
  · exact .plcPut h
  · exact .plcMap h
  · exact .plcUnmap h
  · exact .plcPoolAdd h
  · exact .plcPoolRemove h
  · exact .plcSetCopies h
  · exact .plcResolve h
  · exact .plcQuery h

theorem plcDispatch {o : Op} (h : s.Canonical) : (s.plcDispatch o).Canonical :=
  .ite (.plcHold h) (.plcRun h)

theorem plcRetry {w : Nat × PlcWait} (h : s.Canonical) : (s.plcRetry w).Canonical := by
  unfold State.plcRetry
  split
  · exact h
  · split
    · exact h
    · exact .plcRun h
    · exact .ite (.wqeStart h) (.plcRun h)
    · exact .ite (.plcDispatch (.mk h)) h

theorem barZero {b : BarWait} (h : s.Canonical) : (s.barZero b).Canonical := by
  unfold State.barZero
  split; exacts [.send h, h]

theorem barMiss {b : BarWait} (h : s.Canonical) : (s.barMiss b).Canonical :=
  .barZero (.bump h)

theorem barFault {b : BarWait} (h : s.Canonical) : (s.barFault b).Canonical :=
  .ite (.barMiss (.event h)) (.barZero (.event h))

theorem bar4 {b : BarWait} (h : s.Canonical) : (s.bar4 b).Canonical := by
  unfold State.bar4
  refine .ite (.barZero h) ?_
  split
  · exact .barMiss h
  · split
    · exact .barMiss h
    · refine .ite (.barMiss h) (.ite (.barZero h) ?_)
      split
      · split; exacts [.send (.heat h), .heat (.tierWrite h)]
      · exact .ite (.barZero h) (.barFault h)
      · exact .fetchPages (.begin (.mk h))

theorem barKick (h : s.Canonical) : s.barKick.Canonical :=
  .foldl (.mk h) fun _ _ h => .bar4 h

theorem plcKick (h : s.Canonical) : s.plcKick.Canonical :=
  .barKick (.foldl (.refetch (.plcSweep h)) fun _ _ h => .foldl h fun _ _ h => .plcRetry h)

theorem plcFetch {opc ring : Nat} {d : Desc} (h : s.Canonical) : (s.plcFetch opc ring d).Canonical := by
  unfold State.plcFetch
  exact .ite (by split; exacts [.plcKick (.plcDispatch (.fetch h ‹_›)), h]) h

theorem execSettleDone {op : Nat} (h : s.Canonical) : Res.Canonical (execSettleDone op s) := by
  unfold Machine.execSettleDone
  exact .next (by split; exacts [.ite (.plcKick (.plcEnd h)) h, h])

theorem execSettleTimeout {op : Nat} (h : s.Canonical) : Res.Canonical (execSettleTimeout op s) := by
  unfold Machine.execSettleTimeout
  exact .next (by split; exacts [.plcKick (.plcEnd (.ripe h)), h])

theorem plcCancelTag {i tag : Nat} (h : s.Canonical) : (s.plcCancelTag i tag).2.Canonical := by
  unfold State.plcCancelTag
  split; exacts [by split; exacts [.plcKick (.waitEnd h), .plcKick (.plcEnd h)], h]

theorem flightWaitTimeout {op : Nat} (h : s.Canonical) : (s.flightWaitTimeout op).Canonical := by
  unfold State.flightWaitTimeout
  split; exacts [h, .ite (.stepFault h) h]

theorem execFetchWaitTimeout {op : Nat} (h : s.Canonical) : Res.Canonical (execFetchWaitTimeout op s) := by
  unfold Machine.execFetchWaitTimeout
  refine .next ?_
  refine .ite ?_ ?_
  · split
    · exact .ite (.qpError (.poolFault (.ripe h))) (.plcKick (.ite (.mapFail (.ripe h)) (.plcEnd (.ripe h))))
    · exact h
  · split; exacts [.barFault (.mk (ripe h)), .flightWaitTimeout (.galWaitTimeout (.headTimeout h))]

theorem execReplicaCompare {handle : Word} {page : Nat} {ok0 ok1 : Bool} {rot : List (Bool × BitVec 21 × Byte)}
    (h : s.Canonical) : Res.Canonical (execReplicaCompare handle page ok0 ok1 rot s) := by
  unfold Machine.execReplicaCompare
  refine .next ?_
  split; exacts [h, .ite h (.compareCopies (.mk (Mem.wf_foldl h fun _ _ h => Mem.wf_set _ _ _ h)))]

theorem evacEnd {c r : Nat} (h : s.Canonical) : (s.evacEnd c r).Canonical :=
  .event (.setF (.eventV h))

theorem execEvacRelease {m : Master} {pc : Fin 128} (h : s.Canonical) :
    Res.Canonical (execEvacRelease m pc s) :=
  .next (.guardWrite h (fun _ h => .ite (.setFs h) (.ite (.setF (.setF (.setFs h))) (.setF (.setFs h)))))

theorem execEvacDone (h : s.Canonical) : Res.Canonical (execEvacDone s) := by
  unfold Machine.execEvacDone
  refine .next ?_
  split; exacts [h, .ite (.setF (.setF (.evacEnd (.mk h)))) (.ite (.evacEnd (.setF (.mk h))) h)]

/-! ### Machine/Rdma -/

theorem execSackIntervalExpiry {qpn : BitVec 24} (h : s.Canonical) :
    Res.Canonical (execSackIntervalExpiry qpn s) := by
  unfold Machine.execSackIntervalExpiry
  exact .next (by split; exacts [.ite (.sendSack (.ripe h)) h, h])

theorem recovery {n path : Nat} (h : s.Canonical) : (s.recovery n path).Canonical := by
  unfold State.recovery
  split; exacts [h, .updQp (.begin (.ripe h))]

theorem rtoExpire {n psn : Nat} (h : s.Canonical) : (s.rtoExpire n psn).Canonical := by
  unfold State.rtoExpire
  split
  · exact h
  · split
    · exact h
    · extract_lets -underBinder s₁ q₁ q₂ s₂
      have h₂ : s₂.Canonical := .begin (.setQp (.upTo h))
      exact .ite h (.ite (.qpError h₂) (.ite (.resend h₂) (.goBack h₂)))

theorem execRnrTimerExpiry {qpn : BitVec 24} (h : s.Canonical) : Res.Canonical (execRnrTimerExpiry qpn s) := by
  unfold Machine.execRnrTimerExpiry
  exact .next (by split; exacts [.ite (.pump (.goBack (.setQp (.ripe h)))) h, h])

theorem edgeGo {n : Nat} (h : s.Canonical) : (s.edgeGo n).Canonical := by
  unfold State.edgeGo
  split; exacts [.fenceKick (.advance h), h]

theorem execPushReadDone {qpn : BitVec 24} {link : Nat} (h : s.Canonical) :
    Res.Canonical (execPushReadDone qpn link s) := by
  unfold Machine.execPushReadDone
  exact .next (by split; exacts [h, .ite (.edgeGo (.setQp h)) (.fetchCtx (.setQp h))])

theorem execContextFetchDone {qpn : BitVec 24} (h : s.Canonical) :
    Res.Canonical (execContextFetchDone qpn s) := by
  unfold Machine.execContextFetchDone
  refine .next ?_
  split
  · exact h
  · refine .ite h ?_
    split
    · exact h
    · refine .pump ?_
      exact .workSettle (.fenceKick (.missTake (.edgeGo (.cacheShow (.touchQp (.updQp (.makeRoom h ‹_›)))))))

theorem execKeyFetchDone {index : BitVec 24} (h : s.Canonical) : Res.Canonical (execKeyFetchDone index s) := by
  refine .next ?_
  split
  · exact h
  · refine .ite h ?_
    extract_lets -underBinder
    split
    next w t e =>
      exact .keyGo (.cacheShow (.mk (show State.Canonical _ from .snd (by split; exacts [.drawWord h, h]) e)))

theorem contextFault {n : Nat} (h : s.Canonical) : (s.contextFault n).Canonical := by
  unfold State.contextFault
  split
  · exact h
  · refine .ite h (.qpError ?_)
    exact .cacheShow (.event (.setQp (.ite (.event (.bumpBy (.missDrop h))) (.bumpBy (.missDrop h)))))

theorem execMissHoldTimeout {port : Fin 16} (h : s.Canonical) : Res.Canonical (execMissHoldTimeout port s) := by
  unfold Machine.execMissHoldTimeout
  refine .next ?_
  split; exacts [h, .ite (.bump (.missShow (.mk (ripe h)))) (.event (.bump (.missShow (.mk (ripe h)))))]

theorem execCtxPinWaitTimeout {qpn : BitVec 24} (h : s.Canonical) :
    Res.Canonical (execCtxPinWaitTimeout qpn s) := by
  unfold Machine.execCtxPinWaitTimeout
  exact .next (by split; exacts [h, .ite h (by split; exacts [h, .cacheShow (.updQp (.ripe h))])])

theorem sendFetch {opc ring : Nat} {d : Desc} (h : s.Canonical) : (s.sendFetch opc ring d).Canonical := by
  unfold State.sendFetch
  refine .ite h ?_
  split
  · exact h
  · refine .ite (.fetchCtx h) (.ite h ?_)
    split
    · exact h
    · exact .ite (.rteFail (.fetch h ‹_›)) (.ite (.rteFail (.fetch h ‹_›)) (.wqeStart (.fetch h ‹_›)))

theorem recvFetch {ring : Nat} {d : Desc} (h : s.Canonical) : (s.recvFetch ring d).Canonical := by
  unfold State.recvFetch
  refine .ite h ?_
  split
  · exact h
  · refine .ite (.fetchCtx h) ?_
    split
    · exact h
    · exact .ite (.rteFail (.fetch h ‹_›)) (.ite (.rteFail (.fetch h ‹_›)) (.updQp (.fetch h ‹_›)))

theorem ctlFetch {opc ring : Nat} {d : Desc} {act : Op → State → State}
    (h : s.Canonical) (hact : ∀ y0 t, t.Canonical → (act y0 t).Canonical) :
    (s.ctlFetch opc ring d act).Canonical := by
  unfold State.ctlFetch
  exact .ite h (by split; exacts [h, .ite (.rteEnd (.fetch h ‹_›)) (hact _ _ (.commitOp (.fetch h ‹_›)))])

theorem ctlEnd {o : Op} {st qpn qst : Nat} (h : s.Canonical) : (s.ctlEnd o st qpn qst).Canonical :=
  .rteEnd h

theorem createQp {o : Op} (h : s.Canonical) : (State.createQp o s).Canonical := by
  unfold State.createQp
  refine .ite (.ctlEnd h) (.ite (.ctlEnd h) ?_)
  split
  next w t e =>
    have ht : t.Canonical := .snd (drawWord h) e
    split
    · exact .ctlEnd ht
    · split
      · exact .ctlEnd (.cacheShow (.setQp ht))
      next e => exact .ctlEnd (.cacheShow (.touchQp (.setQp (.makeRoom ht e))))

theorem qpReset {n : Nat} {q : Qp} (h : s.Canonical) : (s.qpReset n q).Canonical :=
  .cacheShow (.setQp (.missDrop (.foldl (.flushRing (.flushRing h)) fun _ _ h => .sqdEnd h)))

theorem modifyQp {o : Op} (h : s.Canonical) : (State.modifyQp o s).Canonical := by
  unfold State.modifyQp
  extract_lets
  split
  · exact .ctlEnd h
  · refine .ite (.ctlEnd h) (.ite (.ctlEnd h) ?_)
    split
    · exact .ctlEnd (.ite h (.qpReset h))
    · exact .ite (.ctlEnd h) (.ite (.ctlEnd h) (.ctlEnd (.setQp h)))
    · exact .ite (.ctlEnd h) (.ctlEnd (.setQp h))
    · exact .ite (.ctlEnd h) (.ctlEnd (.setQp h))
    · exact .sqdSettle (.setQp h)
    · exact .ite (.ctlEnd h) (.pump (.ctlEnd (.setQp h)))
    · exact .ctlEnd h
    · exact .ctlEnd h
    · exact .ctlEnd (.qpError h)
    · exact .ctlEnd h

theorem queryQp {o : Op} (h : s.Canonical) : (State.queryQp o s).Canonical := by
  unfold State.queryQp
  extract_lets; split; exacts [.ctlEnd h, .ite (.ctlEnd h) (.ctlEnd (.mk (Mem.wf_write _ _ _ h)))]

theorem destroyQp {o : Op} (h : s.Canonical) : (State.destroyQp o s).Canonical := by
  unfold State.destroyQp
  extract_lets; split; exacts [.ctlEnd h, .ite (.ctlEnd h) (.ctlEnd (.missTake (.cacheShow (.mk h))))]

theorem regMr {o : Op} (h : s.Canonical) : (State.regMr o s).Canonical := by
  unfold State.regMr
  refine .ite (.ctlEnd h) (.ite (.ctlEnd h) (.ite (.ctlEnd h) ?_))
  split
  next w t e =>
    have ht : t.Canonical := .snd (drawWord h) e
    split
    · exact .ctlEnd ht
    · exact .rteEnd (.mk ht)

theorem deregMr {o : Op} (h : s.Canonical) : (State.deregMr o s).Canonical := by
  unfold State.deregMr
  extract_lets; split; exacts [.ctlEnd h, .ite (.ctlEnd h) (.ite (.ctlEnd h) (.mk h))]

theorem keyFree {i : Nat} (h : s.Canonical) : (s.keyFree i).Canonical := by
  unfold State.keyFree
  split; exacts [h, .keyGo (by split; exacts [.ctlEnd (.cacheShow (.mk h)), .cacheShow (.mk h)])]

theorem rteCancelTag {i tag : Nat} (h : s.Canonical) : (s.rteCancelTag i tag).2.Canonical := by
  unfold State.rteCancelTag
  split; exacts [by split; exacts [.waitEnd h, .pump (.sqdSettle (.rteFail (.mk h)))], h]

theorem claspWait {ring : Nat} {d : Desc} (h : s.Canonical) : (s.claspWait ring d).Canonical := by
  unfold State.claspWait
  refine .ite ?_ (.ite h ?_)
  · cases s.sqOf ring with
    | none => exact h
    | some e => exact .fetchCtx h
  · split
    · exact h
    · refine .ite h ?_
      split
      · exact h
      next o t e =>
        have ht : t.Canonical := .fetch h e
        refine .ite (.rteFail ht) ?_
        extract_lets -underBinder src c s₁ s₂
        have h₁ : s₁.Canonical := .begin (.mk ht)
        have h₂ : s₂.Canonical := by
          unfold s₂
          split; exacts [.setRing h₁, h₁]
        exact .ite (.waitEnd h₂) (.ite (.waitEnd h₂) (.claspSettle h₂))

theorem execClaspPoll {op : Nat} {ok : Bool} (h : s.Canonical) : Res.Canonical (execClaspPoll op ok s) := by
  unfold Machine.execClaspPoll
  exact .next (by split; exacts [h, .ite h (.ite (.hostFault (.waitEnd h)) (.ite (.waitEnd h) h))])

theorem execClaspTimeout {op : Nat} (h : s.Canonical) : Res.Canonical (execClaspTimeout op s) := by
  unfold Machine.execClaspTimeout
  exact .next (by split; exacts [h, .ite h (.waitEnd (.ripe h))])

/-! ### Machine/Hooks -/

theorem clearRing {q : Nat} (h : s.Canonical) : (s.clearRing q).Canonical :=
  .mk (plcSweep (.progSweep (.galSweep (.mk h))))

theorem dropTarget {q n : Nat} (h : s.Canonical) : (State.dropTarget q n s).Canonical := by
  induction n generalizing s with
  | zero => exact h
  | succ n ih =>
    unfold State.dropTarget
    split; exacts [ih (.waitEnd h), h]

theorem endRing {q : Nat} (h : s.Canonical) : (s.endRing q).Canonical :=
  .dropTarget (.mk (clearRing h))

theorem boundaryStart {i : Nat} (h : s.Canonical) : (s.boundaryStart i).Canonical :=
  .holdFlights h

theorem boundaryResume {i : Nat} (h : s.Canonical) : (s.boundaryResume i).Canonical := by
  unfold State.boundaryResume
  extract_lets s₁ s₂
  have h₂ : s₂.Canonical := .foldl (.resumeFlights h) fun _ _ h => .pump h
  exact .opKick (.nvDrain (.txKick (.galKick h₂)))

theorem flushAtThaw {i : Nat} (h : s.Canonical) : (s.flushAtThaw i).Canonical :=
  .foldl h fun _ _ h => .flushQueued (.flushQueued h)

theorem restorePage {k p : Nat} {g : TPage} (h : s.Canonical) : (s.restorePage k p g).Canonical := by
  unfold State.restorePage
  extract_lets
  split
  · refine .ite ?_ (.updPage h)
    split
    next e => exact .updPage (.snd (frameFor h) e)
  · exact .updPage h

theorem restoreTier {i : Nat} {c : Capsule} (h : s.Canonical) : (s.restoreTier i c).Canonical := by
  unfold State.restoreTier
  extract_lets -underBinder _ s₁ s₂
  have h₂ : s₂.Canonical := .foldl (.mk h) fun _ _ h => .foldl h fun _ _ h => .restorePage h
  exact .mk (Mem.wf_foldl h₂ fun _ _ h => Mem.wf_write _ _ _ h)

theorem restoreCtrl {i : Nat} {c : Capsule} (h : s.Canonical) : (s.restoreCtrl i c).Canonical := by
  unfold State.restoreCtrl
  split; exacts [h, .setCtrl (.foldl h fun _ _ h => .setReg h)]

theorem restoreFlights {i : Nat} {c : Capsule} (h : s.Canonical) : (s.restoreFlights i c).Canonical :=
  .foldl h fun _ _ h => by
    split
    next e =>
      split; exacts [.placeFlight (.snd (drawWord h) e), h]

theorem restoreProgs {i : Nat} {c : Capsule} (h : s.Canonical) : (s.restoreProgs i c).Canonical :=
  .foldl h fun _ _ h => by
    split
    next e =>
      split; exacts [.setProg (.snd (drawWord h) e), h]

theorem restoreInto {i : Nat} {c : Capsule} (h : s.Canonical) : (s.restoreInto i c).Canonical :=
  .restoreFlights (.restoreProgs (.restoreCtrl (.restoreTier (.mk h))))

theorem loadTable {t : Nat} {bs : List Byte} (h : s.Canonical) : (s.loadTable t bs).Canonical :=
  .ite (.mk (Mem.wf_foldl h fun _ _ h => Mem.wf_write _ _ _ h)) (.ite (.mk h) (.mk h))

/-! ### Machine/SliceOps -/

theorem telSee {i : Nat} (h : s.Canonical) : (s.telSee i).Canonical :=
  .ite h (.mk h)

theorem moveSlice {i : Nat} {st : SliceState} (h : s.Canonical) : (s.moveSlice i st).Canonical :=
  .ite (.telSee (.setSlice h)) (.setSlice h)

theorem slcEnd {op slice result : Nat} (h : s.Canonical) : (s.slcEnd op slice result).Canonical :=
  .event (.mk (setFs (.eventV h)))

theorem slcBegin {c : SlcCmd} (h : s.Canonical) : (s.slcBegin c).Canonical :=
  .setF (.mk h)

theorem slcEndIf {op slice result : Nat} (h : s.Canonical) : (s.slcEndIf op slice result).Canonical := by
  unfold State.slcEndIf
  split; exacts [.ite (.slcEnd h) h, h]

theorem endOps {owner : Nat} (h : s.Canonical) : (s.endOps owner).Canonical :=
  .mk h

theorem faultSlice {i : Nat} {c : FaultCause} (h : s.Canonical) : (s.faultSlice i c).Canonical := by
  refine .slcEndIf (.report ?_)
  refine .event (.ppResetSlice ?_)
  exact .plcEndSlice (.nvReset (.rteFaultSlice (.galEndSlice (.endFlights (.endOps (.setSlice h))))))

theorem faultPort {p : Nat} {c : FaultCause} (h : s.Canonical) : (s.faultPort p c).Canonical :=
  .foldl h fun _ _ h => .ite (.faultSlice h) h

theorem unbindRings {owner : Nat} (h : s.Canonical) : (s.unbindRings owner).Canonical :=
  .mk (endOps h)

theorem resetEffects {i : Nat} {keep : Bool} (h : s.Canonical) : (s.resetEffects i keep).Canonical := by
  refine .setSlice (.mk ?_)
  refine mk (cipResetSlice ?_)
  refine .ppResetSlice (.plcResetSlice ?_)
  exact .nvReset (.rteResetSlice (.galFreeSlots (.galResetSlice (.unloadSlice (.endFlights (.unbindRings h))))))

theorem resetSlice {i : Nat} (h : s.Canonical) : (s.resetSlice i).Canonical :=
  .ite h (.slcEndIf (.resetEffects (.setSlice h)))

theorem endReset {i : Nat} (h : s.Canonical) : (s.endReset i).Canonical :=
  .ite (.slcEndIf (.setSlice h)) h

theorem pageWrite {p half i : Nat} {c : Instr} {act : State → State}
    (h : s.Canonical) (hact : ∀ t, t.Canonical → (act t).Canonical) : (s.pageWrite p half i c act).Canonical :=
  .ite h (.ite (.mk (wakeLink h)) (hact _ (.wakeLink h)))

theorem hostStores {sp : Space} {l : List (DWord × Byte)} (h : s.Canonical) : (s.hostStores sp l).Canonical :=
  .mk (Mem.wf_foldl h fun _ _ h => Mem.wf_set _ _ _ h)

theorem dbReject {i : Nat} (h : s.Canonical) : (s.dbReject i).Canonical :=
  .setSlice h

/-! ### Machine/Flights -/

theorem loadFlight {o : Op} (h : s.Canonical) : (s.loadFlight o).Canonical := by
  unfold State.loadFlight
  extract_lets -underBinder
  split
  refine .ite (.fltRefuse h) (.ite (.fltRefuse h) ?_)
  split
  next w t e =>
    split
    · exact .fltRefuse h
    · exact .ite (.fltRefuse h) (.fltRefuse (.placeFlight (.commitOp (.snd (drawWord h) e))))

theorem fltFetch {opc ring : Nat} {d : Desc} {act : Op → State → State}
    (h : s.Canonical) (hact : ∀ y0 t, t.Canonical → (act y0 t).Canonical) :
    (s.fltFetch opc ring d act).Canonical := by
  unfold State.fltFetch
  exact .ite (by split; exacts [.ite (hact _ _ (.fetch h ‹_›)) (.fltRefuse (.fetch h ‹_›)), h]) h

theorem epochReached {k : Nat} (h : s.Canonical) : (s.epochReached k).Canonical := by
  unfold State.epochReached
  split; exacts [.ite (.setFlight (.atLeast h)) h, h]

theorem runSend {k j : Nat} (h : s.Canonical) : (s.runSend k j).Canonical := by
  unfold State.runSend
  split; exacts [h, .ite (.stepFault h) (by split; exacts [.sendGo (.setFlight h), h])]

theorem execStepSend {slot : Fin 64} {step t : Nat} (h : s.Canonical) :
    Res.Canonical (execStepSend slot step t s) := by
  unfold Machine.execStepSend
  exact .next (by split; exacts [.runSend (.stepBegin h ‹_›), h])

theorem execStepRecv {slot : Fin 64} {step t : Nat} (h : s.Canonical) :
    Res.Canonical (execStepRecv slot step t s) := by
  unfold Machine.execStepRecv
  exact .next (by split; exacts [.ite (.stepFault (.stepBegin h ‹_›)) (.stepBegin h ‹_›), h])

theorem stepGal {k j : Nat} (h : s.Canonical) : (s.stepGal k j).Canonical := by
  unfold State.stepGal
  split; exacts [h, .ite (.stepFault h) (.galSettle (.mk h))]

theorem execStepReduce {slot : Fin 64} {step t : Nat} (h : s.Canonical) :
    Res.Canonical (execStepReduce slot step t s) := by
  unfold Machine.execStepReduce
  exact .next (by split; exacts [.stepGal (.stepBegin h ‹_›), h])

theorem execStepConvert {slot : Fin 64} {step t : Nat} (h : s.Canonical) :
    Res.Canonical (execStepConvert slot step t s) := by
  unfold Machine.execStepConvert
  exact .next (by split; exacts [.stepGal (.stepBegin h ‹_›), h])

theorem execStepProgram {slot : Fin 64} {step t : Nat} (h : s.Canonical) :
    Res.Canonical (execStepProgram slot step t s) := by
  unfold Machine.execStepProgram
  exact .next (by split; exacts [.stepGal (.stepBegin h ‹_›), h])

theorem runCopy {k j : Nat} (h : s.Canonical) : (s.runCopy k j).Canonical := by
  unfold State.runCopy
  split
  · exact h
  · extract_lets
    split
    · refine .ite (.stepFault h) ?_
      split
      · exact .stepFault (.poolFault h)
      · exact .stepFetch h
      · exact .updFlight (.foldl h fun _ _ h => .putBytes (.getBytes h))
    · exact h

theorem execStepCopy {slot : Fin 64} {step t : Nat} (h : s.Canonical) :
    Res.Canonical (execStepCopy slot step t s) := by
  unfold Machine.execStepCopy
  exact .next (by split; exacts [.runCopy (.stepBegin h ‹_›), h])

theorem runLanding {k j : Nat} (h : s.Canonical) : (s.runLanding k j).Canonical := by
  unfold State.runLanding
  split; exacts [h, .broadcast (.setFlight h)]

theorem execStepLanding {slot : Fin 64} {step t : Nat} (h : s.Canonical) :
    Res.Canonical (execStepLanding slot step t s) := by
  unfold Machine.execStepLanding
  exact .next (by split; exacts [.runLanding (.stepBegin h ‹_›), h])

theorem signal {a : Nat} (h : s.Canonical) : (s.signal a).Canonical :=
  .ite (.mk (Mem.wf_write _ _ _ h)) (.mk (Mem.wf_write _ _ _ (drawWord h)))

theorem runSignal {k j : Nat} (h : s.Canonical) : (s.runSignal k j).Canonical := by
  unfold State.runSignal
  split; exacts [h, by extract_lets; split; exacts [.stepFault h, .updFlight (.foldl h fun _ _ h => .signal h)]]

theorem execStepSignalAccel {slot : Fin 64} {step t : Nat} (h : s.Canonical) :
    Res.Canonical (execStepSignalAccel slot step t s) := by
  unfold Machine.execStepSignalAccel
  exact .next (by split; exacts [.runSignal (.stepBegin h ‹_›), h])

theorem stepComplete {k j : Nat} (h : s.Canonical) : (s.stepComplete k j).Canonical := by
  unfold State.stepComplete
  split
  · exact h
  · refine .ite h ?_
    refine .ite ?_ ?_
    · split; exacts [.sendGo h, .stepDone h]
    · refine .ite (.ite (.stepDone h) h) ?_
      refine .ite ?_ ?_
      · split; exacts [h, .ite (.stepFault (.setFlight (.mk h))) (.stepDone (.setFlight (.mk h)))]
      · refine .ite ?_ (.ite (.ite (.stepDone h) h) (.stepDone h))
        exact .ite (.stepDone (.ite (.runCopy h) h)) (.ite (.runCopy h) h)

theorem execLateLimitExpiry {slot : Fin 64} {step : Nat} (h : s.Canonical) :
    Res.Canonical (execLateLimitExpiry slot step s) := by
  unfold Machine.execLateLimitExpiry
  exact .next (by split; exacts [.ite (.event (.setFlight (.atLeast h))) h, h])

theorem execLateAbortExpiry {slot : Fin 64} {step : Nat} (h : s.Canonical) :
    Res.Canonical (execLateAbortExpiry slot step s) := by
  unfold Machine.execLateAbortExpiry
  exact .next (by split; exacts [.abortFlight (.atLeast h), h])

theorem progress {k d : Nat} (h : s.Canonical) : (s.progress k d).Canonical := by
  unfold State.progress
  split; exacts [h, .mk (setFlight h)]

theorem rteRx (h : s.Canonical) : s.rteRx.Canonical :=
  .bump64 h

theorem execKeepaliveTimer {slot : Fin 64} (h : s.Canonical) : Res.Canonical (execKeepaliveTimer slot s) := by
  unfold Machine.execKeepaliveTimer
  exact .next (by split; exacts [.ite (.foldl h fun _ _ h => .sendCtl h) h, h])

theorem execKeepaliveReceived {id : BitVec 16} {device : Nat} {mapCrc : Word} (h : s.Canonical) :
    Res.Canonical (execKeepaliveReceived id device mapCrc s) := by
  unfold Machine.execKeepaliveReceived
  refine .next ?_
  extract_lets
  split; exacts [.ite (.rteRx h) (.ite (.abortFlight (.rteRx h)) (.progress (.rteRx h))), .rteRx h]

theorem execPeerTimeout {slot : Fin 64} {device : Nat} (h : s.Canonical) :
    Res.Canonical (execPeerTimeout slot device s) := by
  unfold Machine.execPeerTimeout
  exact .next (by split; exacts [.ite (.abortFlight (.upTo h)) h, h])

theorem abortReceived {id epoch src num : Nat} {r : AbortReason} {origin : Nat} (h : s.Canonical) :
    (s.abortReceived id epoch src num r origin).Canonical := by
  unfold State.abortReceived
  extract_lets -underBinder s₁ s₂ s₃
  have h₃ : s₃.Canonical := .mk (ackCtl (.bump (.rteRx h)))
  split
  · exact h₃
  · extract_lets -underBinder s₄ s₅
    have h₄ : s₄.Canonical := .progress h₃
    exact .endFlight (.ite h₄ (.foldl (.updFlight h₄) fun _ _ h => .sendCtl h))

theorem repeatCtl {k kind : Nat} (h : s.Canonical) : (s.repeatCtl k kind).Canonical :=
  .foldl (.mk h) fun _ _ h => .ctlAgain h

theorem execArrivalReportReceived {id : BitVec 16} {epoch : DWord} {src num set : Nat} {ranks : List Nat}
    (h : s.Canonical) : Res.Canonical (execArrivalReportReceived id epoch src num set ranks s) := by
  unfold Machine.execArrivalReportReceived
  refine .next ?_
  extract_lets -underBinder s₁
  have h₁ : s₁.Canonical := .rteRx h
  split
  · split
    · exact .ite (.progress (.ackCtl h₁)) h₁
    · exact h₁
  · exact .ite (.progress (.ackCtl h₁)) (.progress (.setFlight (.ackCtl h₁)))

theorem execControlAckReceived {id : BitVec 16} {src num : Nat} (h : s.Canonical) :
    Res.Canonical (execControlAckReceived id src num s) := by
  unfold Machine.execControlAckReceived
  exact .next (by extract_lets; split; exacts [.progress (.mk (rteRx h)), .mk (rteRx h)])

theorem flightWrite {id src buf off epoch : Nat} {bs : List Byte} {edge : Bool} (h : s.Canonical) :
    (s.flightWrite id src buf off epoch bs edge).Canonical := by
  unfold State.flightWrite
  extract_lets
  split
  · exact .bump h
  · refine .ite (.bump h) ?_
    split
    · exact .bump (.poolFault h)
    · split; exacts [.fetchPages (.bump h), h]
    · exact .updFlight (.progress (.putBytes h))

theorem countDoorbell {k a n : Nat} (h : s.Canonical) : (s.countDoorbell k a n).Canonical := by
  unfold State.countDoorbell
  split; exacts [h, .blameNew (.setFlight h)]

theorem execFlightDoorbell {port : Fin 4} {half : Fin 2} {slice : Fin 256} {pos : Fin 8} (h : s.Canonical) :
    Res.Canonical (execFlightDoorbell port half slice pos s) :=
  .next (.pageWrite h (fun _ h => .ite (.dbReject h) (.ite h (.foldl h fun _ _ h => .countDoorbell h))))

/-! ### Machine/StrOps -/

theorem extend {k : Nat} {d : BitVec 384} (h : s.Canonical) : (s.extend k d).Canonical :=
  .bump (.mk h)

theorem setPhase {p : StrPhase} (h : s.Canonical) : (s.setPhase p).Canonical :=
  .setF h

theorem tabDrop (h : s.Canonical) : s.tabDrop.Canonical :=
  .ite (.mk h) h

theorem strDoneCode {r : Nat} (h : s.Canonical) : (s.strDoneCode r).Canonical :=
  .eventV (.setPhase (.mk (tabDrop h)))

theorem strDone {r : StrResult} (h : s.Canonical) : (s.strDone r).Canonical :=
  .strDoneCode h

theorem strRefuse {r : StrResult} (h : s.Canonical) : (s.strRefuse r).Canonical :=
  .eventV h

theorem strAbort {sel : Nat → Bool} {r : StrResult} (h : s.Canonical) : (s.strAbort sel r).Canonical := by
  unfold State.strAbort
  split; exacts [h, .ite h (.strDone (by split; exacts [.setF h, h]))]

theorem strCancel (h : s.Canonical) : s.strCancel.Canonical := by
  unfold State.strCancel
  extract_lets; split; exacts [.setF h, .ite (.strRefuse (.setF h)) (.strAbort (.setF h))]

theorem strStart {m : Master} {op : StrOp} {force : Bool} (h : s.Canonical) :
    (s.strStart m op force).Canonical := by
  unfold State.strStart
  extract_lets -underBinder s₁
  have h₁ : s₁.Canonical := .setF h
  have hr {r : StrResult} : (s₁.strRefuse r).Canonical := .strRefuse h₁
  exact .ite hr (.ite hr (.ite hr (.ite hr (.ite hr (.setF (.setPhase (.mk h₁)))))))

theorem applyPlan {p : List Byte} (h : s.Canonical) : (s.applyPlan p).Canonical :=
  .ite h (.setReg (.setReg h))

theorem applyEnergy {t : List Byte} (h : s.Canonical) : (s.applyEnergy t).Canonical :=
  .foldl (.setReg (.mk h)) fun _ _ h => .setReg h

theorem loadFull {img : List Byte} {accel : BitVec 8} (h : s.Canonical) : (s.loadFull img accel).Canonical := by
  unfold State.loadFull
  extract_lets -underBinder env sel s₁ _ s₂ s₃ s₄ tabs s₅ s₆ s₇ s₈ s₉ s₁₀ s₁₁ s₁₂ s₁₃ s₁₄ s₁₅ _ s₁₆
  have h₄ : s₄.Canonical := .extend (.setFs (.mk (extend h)))
  have h₆ : s₆.Canonical := .foldl (.applyPlan h₄) fun _ _ h => .loadHall (.setReg (.mk h))
  have h₈ : s₈.Canonical := .foldl (.foldl h₆ fun _ _ h => .loadBlock h) fun _ _ h => .setReg h
  have h₁₀ : s₁₀.Canonical := .foldl (.setReg (.setReg h₈)) fun _ _ h => .setF h
  have h₁₂ : s₁₂.Canonical := .foldl (.foldl h₁₀ fun _ _ h => .ite (.setF h) h) fun _ _ h => .ite (.setF h) h
  have h₁₄ : s₁₄.Canonical := .foldl (.foldl h₁₂ fun _ _ h => .ite (.setF h) h) fun _ _ h => .loadTable h
  have h₁₆ : s₁₆.Canonical := .begin (.begin (.mk (applyEnergy h₁₄)))
  cases _e : sel with
  | none => exact .setDev (.envRaise h₁₆)
  | some _ => exact .envSettle (.accelCheck (.portsCheck h₁₆))

theorem setSlotValid {k v : Nat} (h : s.Canonical) : (s.setSlotValid k v).Canonical :=
  .setF h

theorem setSlotImage {k : Nat} {img : List Byte} (h : s.Canonical) : (s.setSlotImage k img).Canonical :=
  .ite (.mk h) (.mk h)

theorem bootSlotWrite {k : Nat} (h : s.Canonical) : (s.bootSlotWrite k).Canonical :=
  .ite (.setF h) h

/-! ### Machine/Slices -/

theorem slcGo {m : Master} {c : Instr} {op : Nat} {act : State → State}
    (h : s.Canonical) (hact : ∀ t, t.Canonical → (act t).Canonical) : (s.slcGo m c op act).Canonical :=
  .guardWrite h (fun _ h => .ite (.bump h) (.ite (hact _ (.setF h)) (.mk (setF (.setF h)))))

theorem setWords {r : Nat → Nat} {n v : Nat} (h : s.Canonical) : (s.setWords r n v).Canonical :=
  .foldl h fun _ _ h => .setReg h

theorem readEntry (h : s.Canonical) : s.readEntry.Canonical :=
  .slcEnd (.setWords (.setWords h))

theorem writeEntry (h : s.Canonical) : s.writeEntry.Canonical :=
  .ite (.slcEnd h) (.ite (.slcEnd h) (.slcEnd (.sealTouch (.setSlice h))))

theorem bindSlice (h : s.Canonical) : s.bindSlice.Canonical :=
  .ite (.slcEnd h) (.ite (.slcEnd h) (.ite (.slcEnd (.reserveT1 h)) (.slcEnd (.moveSlice (.reserveT1 h)))))

theorem freeSlice {i : Nat} (h : s.Canonical) : (s.freeSlice i).Canonical :=
  .slcEnd (.sealTouch (.setSlice (.releaseT1 h)))

theorem unbindSlice {port : Nat} (h : s.Canonical) : (s.unbindSlice port).Canonical :=
  .ite (.slcEnd h) (.ite (.freeSlice (.resetEffects h)) (.slcBegin (.resetEffects h)))

theorem resetCommand {port : Nat} (h : s.Canonical) : (s.resetCommand port).Canonical :=
  .ite (.slcEnd h) (.slcBegin (.resetSlice h))

theorem resetArrived {i : Nat} (h : s.Canonical) : (s.resetArrived i).Canonical := by
  unfold State.resetArrived
  split; exacts [.ite (.ite (.freeSlice h) h) (.endReset h), .endReset h]

theorem wake {i : Nat} (h : s.Canonical) : (s.wake i).Canonical :=
  .boundaryResume (.foldl h fun _ _ h => .drainCq h)

theorem activate {i : Nat} (h : s.Canonical) : (s.activate i).Canonical :=
  .ite (.wake (.moveSlice h)) h

theorem freeze {port : Nat} (h : s.Canonical) : (s.freeze port).Canonical :=
  .ite (.slcEnd h) (.ite (.slcEnd h) (.slcBegin (.boundaryStart (.begin (.setSlice h)))))

theorem freezeDone (h : s.Canonical) : s.freezeDone.Canonical := by
  unfold State.freezeDone
  split; exacts [.ite (.slcEnd (.setSlice h)) h, h]

theorem freezeTimeout (h : s.Canonical) : s.freezeTimeout.Canonical := by
  unfold State.freezeTimeout
  split; exacts [.slcEnd (.wake (.setSlice (.ripe h))), h]

theorem thaw (h : s.Canonical) : s.thaw.Canonical := by
  refine .ite (.slcEnd h) ?_
  exact .ite (.slcEnd h) (.slcEnd (.ite (.wake (.moveSlice (.flushAtThaw h))) (.moveSlice (.flushAtThaw h))))

theorem save {p : Nat} (h : s.Canonical) : (s.save p).Canonical := by
  unfold State.save
  extract_lets -underBinder i x sp pf d target cap s₁ _ s₂ s₃
  have hr {t : State} {st : Nat} (h : t.Canonical) : (t.slcEnd 0x8 i st).Canonical := .slcEnd h
  have h₁ : s₁.Canonical := .mk (Mem.wf_write _ _ _ h)
  have h₂ : s₂.Canonical := .ite h₁ (.mk (migrateFlights h₁))
  have h₃ : s₃.Canonical := .mk (Mem.wf_write _ _ _ h₂)
  exact .ite (hr h) (.ite (hr h) (.ite (hr h) (.ite (hr h) (.ite (hr h) (.ite (hr h₁) (hr (.setSlice h₃)))))))

theorem drawNonce {i : Nat} (h : s.Canonical) : (s.drawNonce i).Canonical :=
  .mk (setSlice h)

theorem restore {p : Nat} {authOk reachable : Bool} {c : Capsule} (h : s.Canonical) :
    (s.restore p authOk reachable c).Canonical :=
  .slcEnd (.drawNonce (.ite h (.sealTouch (.mk (restoreInto (.telSee (.setSlice h)))))))

theorem ringBind (h : s.Canonical) : s.ringBind.Canonical :=
  .slcEnd (.ite (.takeRing h) h)

theorem ringUnbind (h : s.Canonical) : s.ringUnbind.Canonical := by
  unfold State.ringUnbind
  extract_lets; split; exacts [.slcEnd h, .ite (.slcEnd h) (.slcEnd (.endRing h))]

theorem doorbell {i q idx : Nat} (h : s.Canonical) : (s.doorbell i q idx).Canonical := by
  unfold State.doorbell
  extract_lets
  split
  · exact .dbReject (.bump64 h)
  · exact .ite (.dbReject (.bump64 h)) (.ite (.drainCq (.setRing (.bump64 h))) (.setRing (.bump64 h)))

theorem sliceCancelEngine {i eng tag : Nat} (h : s.Canonical) :
    (s.sliceCancelEngine i eng tag).2.Canonical := by
  unfold State.sliceCancelEngine
  split
  · exact .frameCancelTag h
  · split
    · exact .rteCancelTag h
    · split
      · exact .galCancelTag h
      · split; exacts [.plcCancelTag h, .fltCancelTag h]

theorem sliceCancel {i tag eng : Nat} (h : s.Canonical) : (s.sliceCancel i tag eng).Canonical := by
  unfold State.sliceCancel
  split
  next e => exact .setSlice (.snd (by split; exacts [.sliceCancelEngine h, h]) e)

theorem cqTimeout {q : Nat} (h : s.Canonical) : (s.cqTimeout q).Canonical := by
  unfold State.cqTimeout
  split; exacts [h, .ite (.faultSlice (.ripe h)) h]

/-! ### Machine/Halls -/

theorem resetAll {sel : Nat → Bool} (h : s.Canonical) : (s.resetAll sel).Canonical :=
  .foldl h fun _ _ h => .ite (.resetSlice h) h

theorem forceFree {i : Nat} (h : s.Canonical) : (s.forceFree i).Canonical :=
  .ite h (.slcEndIf (.slcEndIf (.setSlice (.releaseT1 h))))

theorem endSrc {srcs : List Nat} (h : s.Canonical) : (s.endSrc srcs).Canonical :=
  .plcSweep (.mk h)

theorem hallRegs {b : Nat} (h : s.Canonical) : (s.hallRegs b).Canonical :=
  .mk h

theorem hallState {half : Nat} (h : s.Canonical) : (s.hallState half).Canonical := by
  unfold State.hallState
  split
  · exact .foldl (.mk (resetAll h)) fun _ _ h => .ite h (.intxSettle (.mk h))
  · exact .mk (foldl (.foldl (.resetAll h) fun _ _ h => .forceFree h) fun _ _ h => .endRing h)
  · exact .mk h
  · exact .mk h
  · exact .mk (endSrc h)
  · exact .mk (resetAll h)
  · exact .mk (galDrop (.endSrc h))
  · exact .mk (galDrop (.endSrc h))
  · exact .foldl (.mk (endSrc h)) fun _ _ h => .freeObj h
  · exact .mk h
  · exact .mk h
  · exact .foldl h fun _ _ h => .unload h
  · exact h

theorem hallClear {half : Nat} (h : s.Canonical) : (s.hallClear half).Canonical :=
  .foldl (.hallState h) fun _ _ h => .hallRegs h

/-! ### Machine/Lease -/

theorem portBound {m : Master} {p : Fin 4} {addr : Nat} {c : Instr} {act : State → State}
    (h : s.Canonical) (hact : ∀ t, t.Canonical → (act t).Canonical) : (s.portBound m p addr c act).Canonical :=
  .openWrite h (fun _ h => .ite (hact _ h) (.violate h))

theorem drvUnload {p : Nat} (h : s.Canonical) : (s.drvUnload p).Canonical :=
  .faultPort (.setF h)

theorem helloWrite {p major minor : Nat} (h : s.Canonical) : (s.helloWrite p major minor).Canonical :=
  .ite (.driverCheck (.drvUnload (.setF (.setFs h)))) (.setFs h)

theorem helloJudge {p : Nat} (h : s.Canonical) : (s.helloJudge p).Canonical := by
  refine .ite h (.ite (.driverCheck (.setFs h)) ?_)
  exact .driverCheck (.ite (.drvUnload (.event (.setFs h))) (.event (.setFs h)))

theorem leaseRenew {p : Nat} (h : s.Canonical) : (s.leaseRenew p).Canonical :=
  .ite (.begin (.mk (setFs h))) h

theorem leaseExpire {p : Nat} (h : s.Canonical) : (s.leaseExpire p).Canonical :=
  .ite (.faultPort (.setFs (.ripe h))) h

/-! ### Machine/Packet -/

theorem reasmExpire {w : Nat} (h : s.Canonical) : (s.reasmExpire w).Canonical := by
  unfold State.reasmExpire
  split; exacts [h, .chargeRx (.bump (.mk (upTo h)))]

theorem sendFrame {o : Op} (h : s.Canonical) : (s.sendFrame o).Canonical :=
  .ite (.frameInvalid h) (.ite (.txEnd h) (.txTry h))

theorem execSendFrame {ring : BitVec 16} {d : Desc} (h : s.Canonical) :
    Res.Canonical (execSendFrame ring d s) := by
  unfold Machine.execSendFrame
  exact .next (by split; exacts [h, .sendFrame (.fetch h ‹_›)])

theorem execPostBuffer {ring : BitVec 16} {d : Desc} (h : s.Canonical) :
    Res.Canonical (execPostBuffer ring d s) := by
  unfold Machine.execPostBuffer
  exact .next (by split; exacts [h, .ite (.fetch h ‹_›) (.frameInvalid (.fetch h ‹_›))])

theorem execTxStalledTimeout {op : Nat} (h : s.Canonical) : Res.Canonical (execTxStalledTimeout op s) := by
  unfold Machine.execTxStalledTimeout
  exact .next (by split; exacts [h, .ite h (.txKick (.txEnd (.mk (ripe h))))])

theorem tloadEnd {r : Nat} (h : s.Canonical) : (s.tloadEnd r).Canonical :=
  .event (.eventV h)

theorem treeLoad {port : Nat} (h : s.Canonical) : (s.treeLoad port).Canonical :=
  .ite (.eventV h) (.ite (.tloadEnd h) (.ite (.tloadEnd h) (.mk (setF h))))

theorem execTreeLoadDone (h : s.Canonical) : Res.Canonical (execTreeLoadDone s) := by
  unfold Machine.execTreeLoadDone
  refine .next ?_
  split
  · exact h
  · exact .ite h (.ite (.tloadEnd (.mk (setF h))) (.tloadEnd (.mk (Mem.wf_write _ _ _ (mk (setF h))))))

/-! ### Machine/HstOps -/

theorem setLink {l : Nat} {x : Link} (h : s.Canonical) : (s.setLink l x).Canonical :=
  .mk h

theorem tagLost {f : Func} {tag : Nat} (h : s.Canonical) : (s.tagLost f tag).Canonical :=
  .send (.event (.bump (.setLink h)))

theorem invalShow {p : Nat} (h : s.Canonical) : (s.invalShow p).Canonical :=
  .setF h

theorem cfgWrite {f : Func} {c : Instr} {act : State → State}
    (h : s.Canonical) (hact : ∀ t, t.Canonical → (act t).Canonical) : (s.cfgWrite f c act).Canonical :=
  .ite (.mk h) (.ite (hact _ h) h)

theorem fetchFail {q : Nat} {d : Desc} {addr : Nat} (h : s.Canonical) : (s.fetchFail q d addr).Canonical := by
  unfold State.fetchFail
  split
  · exact h
  · refine .ite ?_ ?_
    · split
      · split; exacts [.hostFault (.qpError (.fetch h ‹_›)), h]
      · exact h
    · refine .ite ?_ ?_
      · refine .ite h ?_
        split; exacts [.ite h (.hostFault (.galKick (.galDispatch (.fetch h ‹_›)))), h]
      · refine .ite ?_ ?_
        · split; exacts [.hostFault (.fltRefuse (.fetch h ‹_›)), h]
        · refine .ite ?_ h
          split; exacts [.hostFault (.plcKick (.plcEnd (.fetch h ‹_›))), h]

theorem nvmeFail {c queue cid addr : Nat} (h : s.Canonical) : (s.nvmeFail c queue cid addr).Canonical := by
  unfold State.nvmeFail
  split; exacts [h, .hostFault (.ite (.nvSettle (.cmdFail h)) (.nvEnd h))]

theorem nvmeFetchFail {c queue : Nat} {d : Desc} {addr : Nat} (h : s.Canonical) :
    (s.nvmeFetchFail c queue d addr).Canonical := by
  unfold State.nvmeFetchFail
  extract_lets; split; exacts [h, .ite h (.hostFault (.cqePost (.setRing h)))]

theorem stopRing {q : Nat} (h : s.Canonical) : (s.stopRing q).Canonical := by
  unfold State.stopRing
  split; exacts [h, .ite h (.report (.event (.setRing (.clearRing (.bumpBy h)))))]

theorem logEnd {result first n : Nat} (h : s.Canonical) : (s.logEnd result first n).Canonical :=
  .event (.eventV (.setFs (.mk h)))

theorem accessFail {a : HostAccess} {addr : Nat} (h : s.Canonical) : (s.accessFail a addr).Canonical := by
  unfold State.accessFail
  split
  · split; exacts [.hostFault (.flightAbsorb (.galKick (.galFault h))), h]
  · split; exacts [.ite (.hostFault (.stepFault h)) h, h]
  · split; exacts [.ite (.hostFault (.qpError h)) h, h]
  · split; exacts [.ite (.hostFault (.respFail h)) h, h]
  · exact .nvmeFail h
  · split; exacts [.ite (.hostFault (.plcKick (.plcEnd h))) h, h]
  · exact .ite (.faultSlice (.hostFault h)) h
  · exact .stopRing h
  · exact .fetchFail h
  · exact .nvmeFetchFail h
  · split; exacts [.ite h (.hostFault (.waitEnd h)), h]
  · split; exacts [.hostFault (.logEnd h), h]
  · exact .mk (event h)
  · exact .ite (.hostFault (.strDone h)) h
  · exact .ite (.hostFault (.tloadEnd (.mk (setF h)))) h
  · exact .ite (.hostFault (.eventV (.mk (setF h)))) h

theorem dmaOff {f : Func} (h : s.Canonical) : (s.dmaOff f).Canonical := by
  unfold State.dmaOff
  split; exacts [.strAbort h, .foldl h fun _ _ h => .nvReset h]

theorem dmaOn {f : Func} (h : s.Canonical) : (s.dmaOn f).Canonical := by
  unfold State.dmaOn
  refine .ite h ?_
  split
  · exact .msixDrain (.foldl h fun _ _ h => .drainCq h)
  · refine .foldl ?_ fun _ _ h => .sliceMsgDrain h
    exact .foldl h fun _ _ h => .nvDrain (.foldl h fun _ _ h => .drainCq h)

theorem cfgReset {f : Func} (h : s.Canonical) : (s.cfgReset f).Canonical := by
  unfold State.cfgReset
  extract_lets
  split
  · exact .setF (.setF (.setF (.mk h)))
  · split; exacts [.setF (.setF (.setF (.mk h))), .setF (.setF (.mk h))]

theorem pf0Effects {p : Fin 4} (h : s.Canonical) : (s.pf0Effects p).Canonical := by
  unfold State.pf0Effects
  extract_lets -underBinder s₁ _ s₂ s₃ s₄
  have h₂ : s₂.Canonical := .ite (.mk (send (.mk h))) (.mk h)
  have h₃ : s₃.Canonical := .foldl h₂ fun _ _ h => .endRing h
  exact .strAbort (.driverCheck (.setReg (.ite (.setF h₃) h₃)))

theorem flr {f : Func} (h : s.Canonical) : (s.flr f).Canonical := by
  unfold State.flr
  extract_lets
  split
  · exact .pf0Effects (.setF (.cfgReset h))
  · exact .foldl (.setF (.cfgReset h)) fun _ _ h => .ite (.resetSlice h) h

theorem linkLost {p : Fin 4} {half : Fin 2} {tags : List (Func × Nat)} (h : s.Canonical) :
    (s.linkLost p half tags).Canonical := by
  unfold State.linkLost
  extract_lets -underBinder s₁ s₂ _ s₃ s₄ s₅ s₆
  have h₃ : s₃.Canonical := .invalShow (.setLink (.setFs (.foldl h fun _ _ h => .tagLost h)))
  have h₄ : s₄.Canonical := .foldl h₃ fun _ _ h => .cfgReset h
  have h₅ : s₅.Canonical := .foldl h₄ fun _ _ h => .ite (.faultSlice h) h
  exact .ite h (.report (.event (.ite (.pf0Effects h₅) h₅)))

theorem portReset {p : Fin 4} (h : s.Canonical) : (s.portReset p).Canonical := by
  unfold State.portReset
  extract_lets -underBinder s₁ s₂ s₃
  have h₂ : s₂.Canonical := .mk (foldl h fun _ _ h => .setReg h)
  exact .setLink (.setLink (.ite h₂ (.setF h₂)))

theorem perstOn {p : Nat} (h : s.Canonical) : (s.perstOn p).Canonical :=
  .setLink h

theorem perstOff {p : Nat} (h : s.Canonical) : (s.perstOff p).Canonical :=
  .setLink (.setLink h)

theorem portTrain {p : Nat} (h : s.Canonical) : (s.portTrain p).Canonical :=
  .ite h (.ite (.setF (.ite (.setF h) h)) (.ite (.setF h) h))

theorem busOff {f : Func} {late : Nat} (h : s.Canonical) : (s.busOff f late).Canonical :=
  .dmaOff (.bumpBy (.setF h))

theorem sleep {p : Fin 4} {half : Fin 2} {f : Func} (h : s.Canonical) : (s.sleep p half f).Canonical :=
  .ite (.setF (.dmaOff (.setFn h))) (.dmaOff (.setFn h))

/-! ### Machine/PwrOps -/

theorem groupsLanes (h : s.Canonical) : s.groupsLanes.Canonical :=
  .foldl h fun _ _ h => .setPortLanes h

theorem storageResume (h : s.Canonical) : s.storageResume.Canonical :=
  .foldl h fun _ _ h => .opKick (.nvDrain h)

theorem setShed {n : Nat} (h : s.Canonical) : (s.setShed n).Canonical :=
  .mk (event (.setDev h))

theorem shedEnter {n : Nat} (h : s.Canonical) : (s.shedEnter n).Canonical := by
  refine .ite (.opPause (.setShed h)) (.ite (.groupsLanes (.setShed h)) ?_)
  exact .ite (.event (.endFlights (.setShed h))) (.ite (.mk (setShed h)) (.setShed h))

theorem shedLeave {n : Nat} (h : s.Canonical) : (s.shedLeave n).Canonical := by
  unfold State.shedLeave
  extract_lets -underBinder s₁
  have h₁ : s₁.Canonical := .driverCheck (.setShed h)
  exact .ite (.storageResume (.opUnpause h₁)) (.ite (.groupsLanes h₁)
    (.ite (.storageResume (.plcKick (.txKick (.rteKick (.event h₁))))) h₁))

theorem shedDown {k : Nat} (h : s.Canonical) : (State.shedDown k s).Canonical := by
  induction k generalizing s with
  | zero => exact h
  | succ k ih => exact .ite (ih (.shedEnter h)) h

theorem shedUp {k : Nat} (h : s.Canonical) : (State.shedUp k s).Canonical := by
  induction k generalizing s with
  | zero => exact h
  | succ k ih => exact .ite (ih (.shedLeave h)) h

theorem powerEvent {kind minV : Nat} (h : s.Canonical) : (s.powerEvent kind minV).Canonical :=
  .event (.bump (.setFs h))

theorem clamp {mv : Nat} (h : s.Canonical) : (s.clamp mv).Canonical :=
  .mk (powerEvent (.event (.bump (.mk h))))

theorem sample {mv ma : Nat} (h : s.Canonical) : (s.sample mv ma).Canonical := by
  unfold State.sample
  extract_lets -underBinder t _ _ _ s₁ s₂
  have h₁ : s₁.Canonical := .mk (setFs h)
  have h₂ : s₂.Canonical := .ite (.clamp h₁) h₁
  exact .ite h₂ (.shedUp (.shedDown h₂))

theorem tickMs (h : s.Canonical) : s.tickMs.Canonical :=
  .mk h

theorem epochShow (h : s.Canonical) : s.epochShow.Canonical :=
  .mk (mk (foldl (.ite (.event (.bump (.setF h))) (.setF h)) fun _ _ h => .setReg h))

theorem epochStart (h : s.Canonical) : s.epochStart.Canonical :=
  .bump (.setF (.mk h))

theorem blameEnergy {old : List (Nat × Option Nat)} (h : s.Canonical) : (s.blameEnergy old).Canonical :=
  .mk h

theorem offerAgain (h : s.Canonical) : s.offerAgain.Canonical :=
  .plcKick (.nvEpoch (.galKick (.txKick (.rteKick (.txRetry h)))))

theorem epoch (h : s.Canonical) : s.epoch.Canonical := by
  refine .offerAgain (.fetchEpoch ?_)
  refine .blameEnergy (.epochStart ?_)
  exact .epochShow (.bufferedApply (.bufferedApply (.foldl (.tickMs h) fun _ _ h => .bufferedApply h)))

theorem save5 (h : s.Canonical) : s.save5.Canonical :=
  .event (.powerEvent (.mk (foldl h fun _ _ h => .recWrite h)))

theorem shedWrite {r hi lo : Nat} (h : s.Canonical) : (s.shedWrite r hi lo).Canonical :=
  .ite (.sealTouch (.setReg h)) (.event h)

theorem lmsAt {n : Nat} (h : s.Canonical) : (s.lmsAt n).Canonical := by
  unfold State.lmsAt
  extract_lets -underBinder old _ s₁ s₂
  have h₁ : s₁.Canonical := .setF (.mk h)
  have h₂ : s₂.Canonical := .ite (.report (.event h₁)) h₁
  exact .ite (.event h₂) h₂

theorem afterReset {warm : Bool} {st : DevState} (h : s.Canonical) : (s.afterReset warm st).Canonical :=
  .mk (Mem.wf_filter _ _ h)

theorem pinsDown {pwrgd : Bool} (h : s.Canonical) : (s.pinsDown pwrgd).Canonical :=
  .ite (.mk (send (.ite (.mk (send h)) h))) (.ite (.mk (send h)) h)

theorem resetShow {old : State} {warm : Bool} (h : s.Canonical) :
    (s.resetShow old warm).Canonical := by
  unfold State.resetShow
  extract_lets -underBinder s₁ s₂ s₃ s₄ s₅ s₆
  have h₂ : s₂.Canonical := .setF (.foldl h fun _ _ h => .setF h)
  have h₃ : s₃.Canonical := .ite (.setF h₂) h₂
  have h₄ : s₄.Canonical := .ite (.eventV h₃) h₃
  have h₅ : s₅.Canonical := .ite (.event (.eventV h₄)) h₄
  exact .lmsAt (.ite (.event h₅) h₅)

theorem coldReset {kind source : Nat} (h : s.Canonical) : (s.coldReset kind source).Canonical :=
  .setReg (.resetShow (.afterReset (.pinsDown h)))

theorem warmReset {source : Nat} (h : s.Canonical) : (s.warmReset source).Canonical :=
  .foldl (.setReg (.resetShow (.afterReset (.pinsDown h)))) fun _ _ h => .portTrain h

/-! ### Machine/StwOps -/

theorem fwPhase {p w : Nat} (h : s.Canonical) : (s.fwPhase p w).Canonical :=
  .setFs h

theorem fwPost {r : Nat} (h : s.Canonical) : (s.fwPost r).Canonical :=
  .event (.eventV h)

theorem fwEnd {r : Nat} (h : s.Canonical) : (s.fwEnd r).Canonical :=
  .fwPost (.fwPhase (.mk h))

theorem writeFw {k port : Nat} {sigOk : Bool} (h : s.Canonical) : (s.writeFw k port sigOk).Canonical :=
  .ite (.fwPost (.event (.setFs h))) (.ite (.fwPost (.setFs h)) (.fwPhase (.mk (setFwValid (.setFs h)))))

theorem fwWritten {ok : Bool} (h : s.Canonical) : (s.fwWritten ok).Canonical := by
  unfold State.fwWritten
  split; exacts [.ite h (.ite (.fwEnd (.setFwValid h)) (.fwEnd h)), h]

theorem fwNext (h : s.Canonical) : s.fwNext.Canonical := by
  unfold State.fwNext
  split; exacts [h, by split; exacts [.fwEnd h, .fwPhase (.setF h)]]

theorem fwActivate {k port wings : Nat} {sigOk : Bool} (h : s.Canonical) :
    (s.fwActivate k port wings sigOk).Canonical :=
  .ite (.fwPost (.event (.setFs h))) (.ite (.fwPost (.setFs h)) (.fwNext (.mk (setFs h))))

theorem wingSwitch {w k : Nat} (h : s.Canonical) : (s.wingSwitch w k).Canonical :=
  .mk (setF (.foldl (.extend (.setF h)) fun _ _ h => .setFs h))

theorem fwBootWrite {k : Nat} (h : s.Canonical) : (s.fwBootWrite k).Canonical :=
  .ite (.setF h) h

theorem reexec {c : Nat} (h : s.Canonical) : (s.reexec c).Canonical :=
  .foldl (.bumpBy h) fun _ _ h => .nvRestart h

theorem latchedGo (h : s.Canonical) : s.latchedGo.Canonical :=
  .storageResume (.plcKick h)

theorem telNew {skipped : Nat} (h : s.Canonical) : (s.telNew skipped).Canonical :=
  .mk h

theorem telSkip {lost : Bool} (h : s.Canonical) : (s.telSkip lost).Canonical :=
  .telNew (.ite (.bump h) h)

theorem fwAbort (h : s.Canonical) : s.fwAbort.Canonical := by
  unfold State.fwAbort
  split
  · exact h
  · refine .fwEnd ?_
    split; exacts [.ite (.wingRuns (.foldl (.setF h) fun _ _ h => .ite (.setF h) h)) (.setF h), h]

theorem coreLoses {c : Nat} (h : s.Canonical) : (s.coreLoses c).Canonical := by
  unfold State.coreLoses
  refine .bumpBy (.mk ?_)
  refine ite ?_ ?_
  · refine .telSkip ?_
    refine .ite ?_ ?_
    · refine .fwAbort (.strAbort ?_)
      refine .ite ?_ h
      split; exacts [.logEnd h, h]
    · refine .ite ?_ h
      split; exacts [.logEnd h, h]
  · refine .ite ?_ ?_
    · refine .fwAbort (.strAbort ?_)
      refine .ite ?_ h
      split; exacts [.logEnd h, h]
    · refine .ite ?_ h
      split; exacts [.logEnd h, h]

theorem restartCount {c : Nat} (h : s.Canonical) : (s.restartCount c).Canonical :=
  .report (.bump h)

theorem coreRestart {c : Nat} (h : s.Canonical) : (s.coreRestart c).Canonical :=
  .restartCount (.begin (.setF h))

theorem coreHold {c : Nat} (h : s.Canonical) : (s.coreHold c).Canonical := by
  refine .ite (.fatal (.report (.event (.setFs h)))) ?_
  exact .latchedGo (.foldl (.bumpBy (.report (.event (.setFs h)))) fun _ _ h => .nvRestart h)

theorem coreCrash {c cause : Nat} (h : s.Canonical) : (s.coreCrash c cause).Canonical :=
  .ite h (.ite (.coreHold (.setFs (.mk (coreLoses h)))) (.coreRestart (.setFs (.mk (coreLoses h)))))

theorem coreBack {c : Nat} (h : s.Canonical) : (s.coreBack c).Canonical := by
  unfold State.coreBack
  extract_lets -underBinder crashed again s₁ s₂
  have h₁ : s₁.Canonical := .catalogue (.begin (.setF h))
  have h₂ : s₂.Canonical := .ite (.event h₁) h₁
  exact .ite h (.latchedGo (.ite (.reexec h₂) h₂))

theorem restartCmd {c : Nat} (h : s.Canonical) : (s.restartCmd c).Canonical :=
  .ite (.setFs h) (.coreRestart (.setF (.coreLoses (.setFs h))))

theorem releaseCmd {c : Nat} (h : s.Canonical) : (s.releaseCmd c).Canonical :=
  .ite (.setFs h) (.coreRestart (.mk (setFs (.setFs h))))

theorem wingDrained (h : s.Canonical) : s.wingDrained.Canonical := by
  unfold State.wingDrained
  split; exacts [by split; exacts [.ite (.fwPhase (.wingSwitch h)) h, h], h]

theorem wingLoaded (h : s.Canonical) : s.wingLoaded.Canonical := by
  unfold State.wingLoaded
  split
  · split
    · refine .ite h (.fwNext ?_)
      refine .mk (latchedGo ?_)
      exact .foldl (.wingRuns (.setF (.foldl h fun _ _ h => .restartCount (.setF h)))) fun _ _ h => .reexec h
    · exact h
  · exact h

theorem logStart {w n port : Nat} (h : s.Canonical) : (s.logStart w n port).Canonical :=
  .ite (.event (.eventV (.setFs h))) (.mk (setF (.setFs h)))

theorem logCopied (h : s.Canonical) : s.logCopied.Canonical := by
  unfold State.logCopied
  split
  · exact h
  · refine .ite h (.ite (.logEnd h) ?_)
    extract_lets
    split
    exact .logEnd (.mk (Mem.wf_write _ _ _ h))

theorem telPeriod {temps : List Byte} (h : s.Canonical) : (s.telPeriod temps).Canonical := by
  unfold State.telPeriod
  extract_lets -underBinder s₁ s₂ q
  have h₁ : s₁.Canonical := .ite (.foldl (.nvTemp h) fun _ _ h => .setF h) h
  have h₂ : s₂.Canonical := .begin (.ripe h₁)
  refine .ite h₁ (.ite (.telSkip h₂) (.ite (.telSkip h₂) ?_))
  split
  · exact .telSkip h₂
  next e => exact .telNew (.fillBuffer h₂ e)

/-! ### Machine/FaultOps -/

theorem errorEvent {code block slice status loc : Nat} (h : s.Canonical) :
    (s.errorEvent code block slice status loc).Canonical :=
  .ite h (.report (.ite (.bumpSat h) (.ite (.frameCe h) h)))

theorem patrolDone {frames : List Nat} (h : s.Canonical) : (s.patrolDone frames).Canonical :=
  .ite h (.bufferedApply (.event (.bump (.bumpBy (.foldl h fun _ _ h => .errorEvent h)))))

theorem ringEnable {mask port vector : Nat} (h : s.Canonical) : (s.ringEnable mask port vector).Canonical :=
  .ite (.setReg (.setReg (.setFs h))) (.setFs h)

theorem injectWrite {cls block slice : Nat} (h : s.Canonical) : (s.injectWrite cls block slice).Canonical :=
  .ite (.inject (.setFs h)) (.setFs h)

theorem dataUe {block slice status loc : Nat} (h : s.Canonical) : (s.dataUe block slice status loc).Canonical :=
  .report h

theorem dataUncorrectable {l : UeLoc} (h : s.Canonical) : (s.dataUncorrectable l).Canonical := by
  unfold State.dataUncorrectable
  split
  · exact .ite (.pageUe h) h
  · split; exacts [.ite (.dataUe (.stepFault h)) h, h]
  · split; exacts [.dataUe (.flightAbsorb (.galKick (.galFault h))), h]
  · split; exacts [.ite (.dataUe (.contextFault h)) h, h]
  · split; exacts [.dataUe (.ite (.nvSettle (.cmdFail (.event h))) (.nvEnd (.event h))), h]
  · split; exacts [.dataUe (.keyFree h), h]
  · split; exacts [.dataUe (.holdsGo (.saFree (.mk h))), h]
  · split; exacts [.dataUe (.stepFault h), h]
  · exact .dataUe (.mk (Mem.wf_write _ _ _ h))
  · exact .coreCrash h
  · exact .fatal h
  · exact .fatal h
  · exact .fatal h
  · exact .fatal h

theorem groupBelow {g : Nat} (h : s.Canonical) : (s.groupBelow g).Canonical :=
  .event (.setPortLanes (.setF h))

theorem laneLost {l : Nat} (h : s.Canonical) : (s.laneLost l).Canonical := by
  unfold State.laneLost
  extract_lets -underBinder g m s₁ s₂
  have h₁ : s₁.Canonical := .event (.bump (.setWorking h))
  exact .ite h (.report (.ite (.ite (.groupBelow h₁) (.setPortLanes h₁)) h₁))

theorem retrainRefuse {r : Nat} (h : s.Canonical) : (s.retrainRefuse r).Canonical :=
  .eventV h

theorem retrain {g : Nat} (h : s.Canonical) : (s.retrain g).Canonical := by
  refine .ite (.retrainRefuse (.setF h)) (.ite (.retrainRefuse (.setF h)) ?_)
  exact .setPortLanes (.setFs (.ite (.sealTouch (.applyGroup (.setF h))) (.applyGroup (.setF h))))

theorem retrained {working : Nat} (h : s.Canonical) : (s.retrained working).Canonical := by
  refine .ite h (.event ?_)
  refine .eventV ?_
  exact .bump (.ite (.groupBelow (.setWorking (.setF h))) (.setPortLanes (.setF (.setWorking (.setF h)))))

theorem groupUp {g working : Nat} (h : s.Canonical) : (s.groupUp g working).Canonical :=
  .ite h (.envSettle (.groupTrained h))

/-! ### Machine/HostEp -/

theorem execBusMasterEnable {fn : Func} {ats : Bool} {enc : BitVec 4} {l0p l1 : Bool} (h : s.Canonical) :
    Res.Canonical (execBusMasterEnable fn ats enc l0p l1 s) := by
  unfold Machine.execBusMasterEnable
  refine .next (.cfgWrite h fun _ h => ?_)
  refine .dmaOn (.setFn ?_)
  split; exacts [.setF (.setF (.setF h)), .setF (.setF h)]

theorem execTagQuarantineExpiry {port : Fin 4} {half : Fin 2} {tag : Nat} (h : s.Canonical) :
    Res.Canonical (execTagQuarantineExpiry port half tag s) := by
  unfold Machine.execTagQuarantineExpiry
  exact .next (by split; exacts [.setLink (.upTo h), h])

theorem execInterruptMethodChange {port : Fin 4} {msixEnable intDisable funcMask : Bool} (h : s.Canonical) :
    Res.Canonical (execInterruptMethodChange port msixEnable intDisable funcMask s) := by
  refine .next (.cfgWrite h fun _ h => ?_)
  exact .ite (.msixDrain (.intxSettle (.setF (.setFn h)))) (.intxSettle (.setF (.setFn h)))

theorem execMsixUnmask {port : Fin 4} {vector : Fin 2048} {addr : DWord} {data : Word} {mask : Bool}
    (h : s.Canonical) : Res.Canonical (execMsixUnmask port vector addr data mask s) :=
  .next (.ite (.mk h) (.ite h (.ite (.send (.setVec (.setVec (.wakeLink h)))) (.setVec (.wakeLink h)))))

theorem execLinkTrained {port : Fin 4} {half : Fin 2} {width rate : Nat} {flit : Bool} {accel : BitVec 8}
    (h : s.Canonical) : Res.Canonical (execLinkTrained port half width rate flit accel s) := by
  unfold Machine.execLinkTrained
  refine .next ?_
  extract_lets -underBinder s₁ s₂ s₃ fresh _ s₄
  have h₁ : s₁.Canonical := .setFs h
  have h₄ : s₄.Canonical := .setLink (.event (.ite (.setF h₁) h₁))
  exact .ite h (.ite (.accelCheck (.portsClear (.linkTried h₄))) h₄)

/-! ### Machine/ModuleIo -/

theorem assignAddr {a : Nat} (h : s.Canonical) : (s.assignAddr a).Canonical :=
  .ite (.mk h) h

theorem mctpSend {kind : Nat} {fields : List Nat} (h : s.Canonical) : (s.mctpSend kind fields).Canonical :=
  .ite (.send h) h

theorem reading {n : Nat} (h : s.Canonical) : (s.reading n).2.Canonical := by
  unfold State.reading
  extract_lets
  split
  · exact h
  · split
    · exact h
    · split
      · exact h
      · split
        · exact h
        · split
          · exact h
          · split; exacts [h, .drawWord h]

theorem sensorAnswer {n : Nat} (h : s.Canonical) : (s.sensorAnswer n).Canonical :=
  .ite (.mctpSend h) (.ite (.mctpSend h) (.mctpSend (.reading h)))

theorem execPldmRequest {type cmd arg : Byte} (h : s.Canonical) :
    Res.Canonical (execPldmRequest type cmd arg s) := by
  refine .next (.ite h ?_)
  exact .mgmtAsk h (fun _ h => .ite (.mctpSend h) (.ite (.sensorAnswer h) (.ite (.mctpSend h) (.mctpSend h))))

/-! ### Machine/Newel -/

theorem newelBy {d : ℤ} (h : s.Canonical) : (s.newelBy d).Canonical :=
  .ite (.newelRefuse h) (.mk h)

theorem newelStep (h : s.Canonical) : s.newelStep.Canonical :=
  .newelBy h

theorem ppsOut {high : Bool} (h : s.Canonical) : (s.ppsOut high).Canonical :=
  .ite h (.mk (send h))

theorem setTime {st : TimeState} (h : s.Canonical) : (s.setTime st).Canonical := by
  unfold State.setTime
  extract_lets -underBinder _ s₁ s₂ s₃
  have h₂ : s₂.Canonical := .event (.eventV (.mk h))
  have h₃ : s₃.Canonical := .ite (.begin h₂) h₂
  exact .ite h (.ite h₃ (.ppsOut h₃))

theorem syncOffset {off : ℤ} (h : s.Canonical) : (s.syncOffset off).Canonical := by
  unfold State.syncOffset
  extract_lets -underBinder good s₁ _ s₂
  have h₂ : s₂.Canonical := .mk (begin (.setReg h))
  split
  · exact .ite (.setTime h₂) h₂
  · exact .ite (.setTime h₂) h₂
  · exact .setTime h₂
  · exact .setTime h₂
  · exact .setTime h₂
  · exact h₂

theorem ptpStamp {port : Nat} {tx : Bool} (h : s.Canonical) : (s.ptpStamp port tx).Canonical :=
  .mk h

theorem delayReq (h : s.Canonical) : s.delayReq.Canonical :=
  .ite (.drawWord h) (.ptpStamp (.txNet (.drawWord h)))

/-! ### Machine/Nvme -/

theorem sqDoorbell {c queue tail : Nat} (h : s.Canonical) : (s.sqDoorbell c queue tail).Canonical := by
  unfold State.sqDoorbell
  split; exacts [.ite (.nvEvent h) h, .ite (.nvEvent h) (.setRing h)]

theorem cqDoorbell {c queue head : Nat} (h : s.Canonical) : (s.cqDoorbell c queue head).Canonical := by
  unfold State.cqDoorbell
  split; exacts [.ite (.nvEvent h) h, .ite (.nvEvent h) (.nvDrain (.setRing h))]

theorem ctrlEnable {c cc aqa asq acq : Nat} (h : s.Canonical) : (s.ctrlEnable c cc aqa asq acq).Canonical := by
  unfold State.ctrlEnable
  extract_lets -underBinder x sn cn s₁
  have h₁ : s₁.Canonical := .setCtrl h
  refine .ite h (.ite h₁ ?_)
  split
  next e => exact .snd (nvTake h₁) e
  next t e =>
    have ht : t.Canonical := .snd (nvTake h₁) e
    split
    next e => exact .mk (show State.Canonical _ from .snd (nvTake ht) e)
    next e => exact .updCtrl (.snd (nvTake ht) e)

theorem nvIo {c queue : Nat} {cmd : Desc} {want : NvKind → Bool} (h : s.Canonical) :
    (s.nvIo c queue cmd want).Canonical :=
  .ite h (.nvFetch h)

theorem execBackendResponse {id : Nat} {status : BitVec 11} {data : List Byte} (h : s.Canonical) :
    Res.Canonical (execBackendResponse id status data s) := by
  unfold Machine.execBackendResponse
  exact .next (by split; exacts [h, .ite (.beDone h) (.beRetry h)])

theorem execBackendTimeout {id : Nat} (h : s.Canonical) : Res.Canonical (execBackendTimeout id s) := by
  unfold Machine.execBackendTimeout
  exact .next (by split; exacts [h, .beRetry (.bump (.upTo h))])

theorem execCacheSpaceTimeout {slice : Fin 256} {queue cid : BitVec 16} (h : s.Canonical) :
    Res.Canonical (execCacheSpaceTimeout slice queue cid s) := by
  unfold Machine.execCacheSpaceTimeout
  exact .next (by split; exacts [h, .ite h (.ite (.nvRun (.upTo h)) (.nvEnd (.upTo h)))])

theorem beConnLost {k : Nat} (h : s.Canonical) : (s.beConnLost k).Canonical :=
  .ite h (.foldl (.event (.setF (.setF h))) fun _ _ h => .beLost h)

theorem execBackendReconnected {endpoint : Fin 16} (h : s.Canonical) :
    Res.Canonical (execBackendReconnected endpoint s) := by
  refine .next ?_
  exact .ite h (.envSettle (.foldl (.foldl (.setF h) fun _ _ h => .ite (.updCtrl h) h) fun _ _ h => .opKick h))

theorem opCheckpoint {c : Nat} (h : s.Canonical) : (s.opCheckpoint c).Canonical :=
  .ite h (.recWrite (.upTo h))

theorem execSanitizeFailTimeout {slice : Fin 256} (h : s.Canonical) :
    Res.Canonical (execSanitizeFailTimeout slice s) := by
  unfold Machine.execSanitizeFailTimeout
  exact .next (by extract_lets; split; exacts [h, .ite h (.opEnd (.upTo h))])

/-! ### Machine/Registers -/

theorem reach {m : Master} {off : Nat} (h : s.Canonical) : (s.reach m off).2.Canonical := by
  unfold State.reach
  split
  · exact h
  · extract_lets
    split
    · exact .violate (.wakeMaster h)
    · split
      · split; exacts [.wakeMaster h, .wakeMaster h]
      · exact .wakeMaster h

theorem errEnable (h : s.Canonical) : s.errEnable.Canonical :=
  .setReg (.setReg h)

theorem ctrlOff {c : Nat} (h : s.Canonical) : (s.ctrlOff c).Canonical :=
  .updCtrl (.nvReset h)

theorem commandRefused {m : Master} {a off : Nat} (h : s.Canonical) : (s.commandRefused m a off).Canonical :=
  .ite (.violate h) h

theorem regWrite {m : Master} {off : BitVec 26} {data : Word} {be : BitVec 4} (h : s.Canonical) :
    (s.regWrite m off data be).Canonical := by
  unfold State.regWrite
  split
  next e => exact .snd (reach h) e
  next a t e =>
    have ht : t.Canonical := .snd (reach h) e
    refine .ite (.mk ht) (.ite (.violate ht) (.ite (.commandRefused ht) (.ite (.bump ht) (.ite ht (.ite (.event ht)
      (.ite (.newelRefuse ht) ?_))))))
    extract_lets -underBinder
    split
    · exact ht
    · exact .ite (.errEnable (.fieldWrite ht)) (.ite (.ctrlOff (.fieldWrite ht)) (.fieldWrite ht))

theorem execRegisterWrite {m : Master} {off : BitVec 26} {data : Word} {be : BitVec 4} {stores : List (DWord × Byte)}
    (h : s.Canonical) : Res.Canonical (execRegisterWrite m off data be stores s) := by
  unfold Machine.execRegisterWrite
  exact .next (.regWrite (by split; exacts [.hostStores h, h]))

theorem sqcClear {m : Master} {off : BitVec 26} {data : Word} (h : s.Canonical) :
    (s.sqcClear m off data).Canonical := by
  unfold State.sqcClear
  split
  next e => exact .snd (reach h) e
  next a t e =>
    have ht : t.Canonical := .snd (reach h) e
    refine .ite (.mk ht) ?_
    split; exacts [ht, .sqcWrite ht]

theorem latch {m : Master} {a v : Nat} (h : s.Canonical) : (s.latch m a v).Canonical :=
  .mk h

theorem newelRead {m : Master} (h : s.Canonical) : (s.newelRead m).Canonical := by
  unfold State.newelRead
  split
  next e => exact .snd (reach h) e
  next e => exact .latch (.latch (.snd (reach h) e))

theorem counterRead {m : Master} {off : BitVec 26} (h : s.Canonical) : (s.counterRead m off).Canonical := by
  unfold State.counterRead
  split
  next e => exact .snd (reach h) e
  next a t e =>
    have ht : t.Canonical := .snd (reach h) e
    split
    · exact ht
    · exact .ite (.violate ht) (.ite (.violate ht) (.ite (.latch ht) ht))

theorem sealExpire {b : Nat} (h : s.Canonical) : (s.sealExpire b).Canonical :=
  .ite (.setF (.ripe h)) h

/-! ### Machine/Signet -/

theorem stage1Run {nor : Nat} {x : Stage1} (h : s.Canonical) : (s.stage1Run nor x).Canonical :=
  .mk (setFs (.foldl (.extend (.extend h)) fun _ _ h => .setFs h))

theorem stage1Verify {puf : Bool} {nor0 nor1 : Stage1} (h : s.Canonical) :
    (s.stage1Verify puf nor0 nor1).Canonical := by
  refine .ite h (.ite (.fatal h) ?_)
  refine .ite (.stage1Run (.extend h)) ?_
  exact .ite (.stage1Run (.event (.extend h))) (.setDev (.event (.event (.extend h))))

theorem firmwareRun (h : s.Canonical) : s.firmwareRun.Canonical :=
  .foldl (.mk h) fun _ _ h => .wingRuns (.extend (.setF h))

theorem spdmAnswer {t kind : Nat} {fields : List Nat} (h : s.Canonical) :
    (s.spdmAnswer t kind fields).Canonical :=
  .send h

theorem spdmErr {t : Nat} {ev : SpdmErr} (h : s.Canonical) : (s.spdmErr t ev).Canonical :=
  .spdmAnswer h

theorem setSpdm {t : Nat} {x : Spdm} (h : s.Canonical) : (s.setSpdm t x).Canonical :=
  .mk h

theorem spdmAsk {t : Nat} {c : Instr} {inOrder : Spdm → Bool} {act : State → State}
    (h : s.Canonical) (hact : ∀ t, t.Canonical → (act t).Canonical) : (s.spdmAsk t c inOrder act).Canonical :=
  .ite h (.ite (.spdmErr h) (.mgmtAsk h (fun _ h => .ite (.spdmErr h) (hact _ h))))

theorem takeLeaf {norOk : Bool} (h : s.Canonical) : (s.takeLeaf norOk).2.Canonical := by
  unfold State.takeLeaf
  extract_lets; split; exacts [h, by split; exacts [by split; exacts [.event h, .lmsAt (.mk h)], .lmsAt h]]

theorem spdmSigned {t kind : Nat} {norOk : Bool} {fields : List Nat} (h : s.Canonical) :
    (s.spdmSigned t norOk kind fields).Canonical := by
  unfold State.spdmSigned
  split
  next e => exact .spdmErr (.snd (takeLeaf h) e)
  next e => exact .spdmAnswer (.setSpdm (.snd (takeLeaf h) e))

theorem execGetLmsSig {t : Fin 5} (h : s.Canonical) : Res.Canonical (execGetLmsSig t s) := by
  unfold Machine.execGetLmsSig
  exact .next (.spdmAsk h (fun _ h => by split; exacts [.ite (.spdmErr h) (.spdmAnswer h), .spdmErr h]))

theorem setLkey {k : Option (List Byte)} (h : s.Canonical) : (s.setLkey k).Canonical :=
  .setFs (.extend (.mk h))

theorem lkeyEnd {r : Nat} (h : s.Canonical) : (s.lkeyEnd r).Canonical :=
  .event (.eventV h)

theorem execLkeyInstall {m : Master} {key : Option (List Byte)} {norOk : Bool} (h : s.Canonical) :
    Res.Canonical (execLkeyInstall m key norOk s) := by
  unfold Machine.execLkeyInstall
  refine .next (.guardWrite h fun _ h => ?_)
  extract_lets
  split; exacts [.lkeyEnd (.setF h), .ite (.lkeyEnd (.setLkey (.setF h))) (.lkeyEnd (.setF h))]

theorem execLkeyErase {m : Master} {norOk : Bool} (h : s.Canonical) : Res.Canonical (execLkeyErase m norOk s) :=
  .next (.guardWrite h (fun _ h => .ite (.lkeyEnd (.setLkey (.setF h))) (.lkeyEnd (.setF h))))

theorem debugTry {port : Nat} {sigOk : Bool} (h : s.Canonical) : (s.debugTry port sigOk).Canonical :=
  .ite (.eventV (.mk h)) (.setLkey (.extend (.event (.setF (.eventV (.mk h))))))

/-! ### Machine/Replay -/

theorem after {r : Res} (hr : Res.Canonical r) (h : s.Canonical) : (r.after s).Canonical := by
  unfold Res.after
  split
  next t => exact hr t rfl
  · exact h

theorem replay {c : Instr} (h : s.Canonical) : (s.replay c).Canonical := by
  cases c with
  | loadFull => exact .guardWrite h (fun _ h => .strStart h)
  | writeSlot => exact .guardWrite h (fun _ h => .strStart h)
  | restream => exact .guardWrite h (fun _ h => .strStart h)
  | verifyOnly => exact .guardWrite h (fun _ h => .strStart h)
  | strCancel => exact .guardWrite h (fun _ h => .strCancel h)
  | strBootSlotWrite => exact .guardWrite h (fun _ h => .bootSlotWrite h)
  | registerWrite => exact .after (.execRegisterWrite h) h
  | sqcWrite => exact .after (.next (.sqcClear h)) h
  | sealRefWrite => exact .after (.next (.ite h (.openWrite h (fun _ h => .sealRef h)))) h
  | devDrvHelloWrite => exact .after (.next (.portBound h (fun _ h => .helloWrite h))) h
  | leaseRenew => exact .after (.next (.portBound h (fun _ h => .leaseRenew h))) h
  | errInject => exact .guardWrite h (fun _ h => .injectWrite h)
  | errRingEnable => exact .guardWrite h (fun _ h => .ringEnable h)
  | galCancel => exact .after (.next (.openWrite h (fun _ h => .eventV (.galCancelTag (.setF h))))) h
  | flightDoorbell => exact .after (.execFlightDoorbell h) h
  | fltCancel => exact .after (.next (.openWrite h (fun _ h => .eventV (.fltCancelTag (.setF h))))) h
  | newelStep => exact .after (.next (.guardWrite h (fun _ h => .ite (.newelRefuse h) (.newelStep h)))) h
  | newelAdjWrite => exact .after (.next (.guardWrite h (fun _ h => .ite (.newelRefuse h) (.setReg h)))) h
  | rteCancel => exact .after (.next (.openWrite h (fun _ h => .eventV (.rteCancelTag (.setF h))))) h
  | plcCancel => exact .after (.next (.openWrite h (fun _ h => .eventV (.plcCancelTag (.setF h))))) h
  | evac => exact .after (.next (.guardWrite h (fun _ h => .ite (.eventV (.setFs h)) (.mk (setFs (.setFs h)))))) h
  | evacRelease => exact .after (.execEvacRelease h) h
  | treeCommit => exact .after (.next (.openWrite h (fun _ h => .ite (.mk h) (.event h)))) h
  | treeLoad => exact .after (.next (.guardWrite h (fun _ h => .treeLoad h))) h
  | txsCancel => exact .after (.next (.openWrite h (fun _ h => .eventV (.frameCancelTag (.setF h))))) h
  | nvmeSqDoorbell => exact .after (.next (.pageWrite (.hostStores h) (fun _ h => .sqDoorbell h))) h
  | nvmeCqDoorbell => exact .after (.next (.pageWrite h (fun _ h => .cqDoorbell h))) h
  | controllerEnable => exact .after (.next (.pageWrite h (fun _ h => .ctrlEnable h))) h
  | controllerReset => exact .after (.next (.pageWrite h (fun _ h => .nvReset h))) h
  | saInstall => exact .after (.next (.guardWrite h (fun _ h => .saInstall (.setF h)))) h
  | saRemove => exact .after (.next (.guardWrite h (fun _ h => .saRemove (.setF h)))) h
  | saQuery => exact .after (.next (.guardWrite h (fun _ h => .saQuery (.setF h)))) h
  | cvuJob => exact .after (.next (.openWrite h (fun _ h => .cvuJob h))) h
  | readEntry => exact .after (.next (.slcGo h (fun _ h => .readEntry h))) h
  | writeEntry => exact .after (.next (.slcGo h (fun _ h => .writeEntry h))) h
  | bind => exact .after (.next (.slcGo h (fun _ h => .bindSlice h))) h
  | unbind => exact .after (.next (.slcGo h (fun _ h => .unbindSlice h))) h
  | sliceReset => exact .after (.next (.slcGo h (fun _ h => .resetCommand h))) h
  | freeze => exact .after (.next (.slcGo h (fun _ h => .freeze h))) h
  | thaw => exact .after (.next (.slcGo h (fun _ h => .thaw h))) h
  | save => exact .after (.next (.slcGo h (fun _ h => .dmaWait h (fun _ h => .save h)))) h
  | restore => exact .after (.next (.slcGo h (fun _ h => .dmaWait h (fun _ h => .restore h)))) h
  | ringRead => exact .after (.next (.slcGo h (fun _ h => .slcEnd (.setWords h)))) h
  | ringBind => exact .after (.next (.slcGo h (fun _ h => .ringBind h))) h
  | ringUnbind => exact .after (.next (.slcGo h (fun _ h => .ringUnbind h))) h
  | doorbell => exact .after (.next (.pageWrite (.hostStores h) (fun _ h => .doorbell h))) h
  | sliceCancel => exact .after (.next (.pageWrite h (fun _ h => .sliceCancel h))) h
  | coreRestart => exact .guardWrite h (fun _ h => .restartCmd h)
  | coreRelease => exact .guardWrite h (fun _ h => .releaseCmd h)
  | writeFw => exact .guardWrite h (fun _ h => .dmaWait h (fun _ h => .writeFw h))
  | activate => exact .guardWrite h (fun _ h => .fwActivate h)
  | stwFwBootWrite => exact .guardWrite h (fun _ h => .fwBootWrite h)
  | logCopy => exact .openWrite h (fun _ h => .logStart h)
  | svnCommit => exact .after (.next (.guardWrite h (fun _ h => .ite (.setF h) h))) h
  | lkeyInstall => exact .after (.execLkeyInstall h) h
  | lkeyErase => exact .after (.execLkeyErase h) h
  | debugUnlock => exact .after (.next (.guardWrite h (fun _ h => .dmaWait h (fun _ h => .debugTry h)))) h
  | pwrResetCold => exact .after (.next (.guardWrite h (fun _ h => .coldReset h))) h
  | pwrResetWarm => exact .after (.next (.guardWrite h (fun _ h => .warmReset (.setF h)))) h
  | pwrShedWrite => exact .after (.next (.guardWrite h (fun _ h => .shedWrite h))) h
  | pf1Flr => exact .after (.next (.cfgWrite h (fun _ h => .flr h))) h
  | pf0Flr => exact .cfgWrite h (fun _ h => .flr h)
  | busMasterDisable => exact .cfgWrite h (fun _ h => .busOff h)
  | busMasterEnable => exact .after (.execBusMasterEnable h) h
  | invalidateRequest => exact .after (.next (.cfgWrite h (fun _ h => .ite h (.invalShow (.setLink h))))) h
  | d3hotEntry => exact .cfgWrite h (fun _ h => .sleep h)
  | interruptMethodChange => exact .after (.execInterruptMethodChange h) h
  | msixUnmask => exact .after (.execMsixUnmask h) h
  | sliceMessageUnmask => exact .after (.next (.pageWrite h (fun _ h => .ite (.mk h) (.sliceMsgDrain (.mk h))))) h
  | hstIntxAck => exact .after (.next (.openWrite h (fun _ h => .intxSettle (.setVec h)))) h
  | ethRetrain => exact .guardWrite h (fun _ h => .retrain h)
  | telemetryPeriod => exact .dmaWait h (fun _ h => .telPeriod h)
  | d0Return => exact .after (.next (.cfgWrite h (fun _ h => .ite h (.dmaOn (.wakeLink (.setFn h)))))) h
  | pldmRequest => exact .after (.execPldmRequest h) h
  | getVersion => exact .after (.next (.spdmAsk h (fun _ h => .spdmAnswer (.setSpdm h)))) h
  | getCapabilities => exact .after (.next (.spdmAsk h (fun _ h => .spdmAnswer (.setSpdm h)))) h
  | negotiateAlgorithms =>
    exact .after (.next (.spdmAsk h (fun _ h => .ite (.spdmAnswer (.setSpdm h)) (.spdmErr h)))) h
  | getDigests => exact .after (.next (.spdmAsk h (fun _ h => .spdmAnswer h))) h
  | getCertificate => exact .after (.next (.spdmAsk h (fun _ h => .ite (.spdmErr h) (.spdmAnswer h)))) h
  | challenge => exact .after (.next (.spdmAsk h (fun _ h => .ite (.spdmErr h) (.spdmSigned h)))) h
  | getMeasurements =>
    exact .after (.next (.spdmAsk h (fun _ h => .ite (.spdmErr h) (.ite (.spdmSigned h) (.spdmAnswer h))))) h
  | getLmsSig => exact .after (.execGetLmsSig h) h
  | spdmUnsupportedRequest => exact .after (.next (.spdmAsk h (fun _ h => .spdmErr h))) h
  | _ => exact h

theorem replayN {n : Nat} (h : s.Canonical) : (State.replayN n s).Canonical := by
  induction n generalizing s with
  | zero => exact h
  | succ n ih =>
    unfold State.replayN
    split; exacts [h, ih (.replay (.mk h))]

theorem blameHall {half : Nat} (h : s.Canonical) : (s.blameHall half).Canonical :=
  .mk h

theorem workGo (h : s.Canonical) : s.workGo.Canonical := by
  refine .storageResume (.claspSettle ?_)
  refine .foldl ?_ fun _ _ h => .drainCq h
  refine .plcKick (.galKick ?_)
  refine .txKick (.txRetry ?_)
  refine .rteKick (.holdsGo ?_)
  refine .ingressGo ?_
  exact .ite h (.foldl (.foldl (.errDrain h) fun _ _ h => .msixDrain h) fun _ _ h => .sliceMsgDrain h)

theorem unpaused {half : Nat} (h : s.Canonical) : (s.unpaused half).Canonical :=
  .workGo (.replayN (.blameHall h))

theorem resumed {old : State} (h : s.Canonical) : (s.resumed old).Canonical := by
  unfold State.resumed
  split; exacts [.unpaused h, h]

theorem mgmtGo (h : s.Canonical) : s.mgmtGo.Canonical :=
  .ite h (.foldl (.mk (ite (.setF h) h)) fun _ _ h => .replay h)

theorem stewarded {old : State} (h : s.Canonical) : (s.stewarded old).Canonical :=
  .mgmtGo (.resumed h)

/-! ### Machine/HostLoss -/

theorem execHotReset {port : Fin 4} {half : Fin 2} (h : s.Canonical) :
    Res.Canonical (execHotReset port half s) := by
  unfold Machine.execHotReset
  extract_lets -underBinder st s₁
  have h₁ : s₁.Canonical := .setFs (.foldl h fun _ _ h => .flr h)
  exact .next (.ite h (.resumed (.event h₁)))

/-! ### Machine/StrStream -/

theorem resumeHall {half : Nat} (h : s.Canonical) : (s.resumeHall half).Canonical :=
  .unpaused (.setF h)

theorem nextHall (h : s.Canonical) : s.nextHall.Canonical := by
  unfold State.nextHall
  exact .ite h (by split; exacts [.setF (.setPhase h), .ite (.strDone h) h])

theorem writeBank {half k : Nat} {b : HallBank} (h : s.Canonical) : (s.writeBank half k b).Canonical :=
  .ite (.mk h) (.mk h)

theorem touchStream (h : s.Canonical) : s.touchStream.Canonical :=
  .ite h (.extend (.mk h))

theorem recheck {half : Nat} {accel : BitVec 8} (h : s.Canonical) : (s.recheck half accel).Canonical := by
  unfold State.recheck
  split; exacts [.portsCheck h, .accelCheck h, .groupsCheck h, .backendsCheck h, .ptpCheck h, h]

theorem switchHall {half : Nat} {force : Bool} (h : s.Canonical) : (s.switchHall half force).Canonical := by
  unfold State.switchHall
  extract_lets -underBinder k b s₁ s₂ s₃ s₄ s₅
  have h₂ : s₂.Canonical := .setFs (.touchStream h)
  have h₃ : s₃.Canonical := .ite (.hallClear h₂) h₂
  have h₅ : s₅.Canonical := .loadHall (.foldl h₃ fun _ _ h => .sealSuspend (.dropStreamPend h))
  exact .ite (.cacheShow h₅) h₅

theorem strFetched (h : s.Canonical) : s.strFetched.Canonical := by
  unfold State.strFetched
  split; exacts [h, .ite h (.ite (.strDone h) (by extract_lets; split; exacts [.setPhase (.mk h), .strDone h]))]

theorem strVerified {ok : Bool} {accel : BitVec 8} (h : s.Canonical) : (s.strVerified ok accel).Canonical := by
  unfold State.strVerified
  split
  · exact h
  · refine .ite h (.ite (.ite (.strDone h) (.event (.strDone h))) ?_)
    refine .ite (.strDone h) (.ite (.strDone h) ?_)
    split
    · exact .strDone h
    · exact .setSlotImage (.setSlotValid h)
    · exact .strDone (.loadFull h)
    · exact .nextHall (.setPhase (.mk h))

theorem shadowWritten (h : s.Canonical) : s.shadowWritten.Canonical := by
  unfold State.shadowWritten
  split; exacts [h, .ite h (.setPhase (.setFs (.mk (writeBank h))))]

theorem hallQuiesced {accel : BitVec 8} (h : s.Canonical) : (s.hallQuiesced accel).Canonical := by
  unfold State.hallQuiesced
  split; exacts [.ite h (.nextHall (.resumeHall (.setPhase (.mk (recheck (.switchHall (.setPhase h))))))), h]

theorem quiesceTimeout (h : s.Canonical) : s.quiesceTimeout.Canonical := by
  unfold State.quiesceTimeout
  split; exacts [h, .ite h (.resumeHall (.strDone (.setF (.upTo h))))]

theorem tableNext (h : s.Canonical) : s.tableNext.Canonical :=
  .ite (.strDoneCode (.mk h)) (.mk h)

theorem tableEntry (h : s.Canonical) : s.tableEntry.Canonical := by
  unfold State.tableEntry
  split
  · exact h
  · refine .ite h ?_
    exact .ite (.tableNext (.mk h)) (.ite (.mk (loadTable h)) (.tableNext (.loadTable (.touchStream h))))

theorem tableDue {t : Nat} (h : s.Canonical) : (s.tableDue t).Canonical :=
  .ite (.tableNext (.touchStream h)) h

theorem slotWritten {ok : Bool} (h : s.Canonical) : (s.slotWritten ok).Canonical := by
  unfold State.slotWritten
  split; exacts [.ite h (.ite (.strDone (.setSlotValid h)) (.strDone h)), h]

theorem streamLoad {sigA sigB : Bool} {accel : BitVec 8} (h : s.Canonical) :
    (s.streamLoad sigA sigB accel).Canonical := by
  unfold State.streamLoad
  refine .ite h ?_
  extract_lets
  split
  · exact .strDone (.loadFull h)
  · split; exacts [.strDone (.loadFull h), .setDev (.strDone h)]

theorem envTimeout (h : s.Canonical) : s.envTimeout.Canonical := by
  refine .ite h (.envSettle ?_)
  exact .foldl (.foldl (.ripe h) fun _ _ h => .ite (.groupTrained h) h) fun _ _ h => .ite (.backendMiss h) h

/-! ### Machine/Dispatch -/

theorem exec {i : Instr} (h : s.Canonical) : Res.Canonical (exec i s) := by
  cases i with
  | inputStandbyUp => exact .next (.ite h (.setReg (.send (.mk h))))
  | inputStandbyDown => exact .next (.ite h (.send (.mk (mk (resetShow (.afterReset h))))))
  | startThreshold => exact .next (.ite h (.setDev (.setF h)))
  | islandsLocked => exact .next (.ite h (.send (.mk (setReg (.setReg h)))))
  | portResetHoldEnd => exact .next (.ite h (.foldl (.mk h) fun _ _ h => .portTrain h))
  | stage1Verify => exact .next (.stage1Verify h)
  | firmwareRelease => exact .next (.ite h (.ite (.firmwareRun h) (.event h)))
  | streamLoad => exact .next (.streamLoad h)
  | loadFull => exact .next (.guardWrite h (fun _ h => .strStart h))
  | writeSlot => exact .next (.guardWrite h (fun _ h => .strStart h))
  | restream => exact .next (.guardWrite h (fun _ h => .strStart h))
  | verifyOnly => exact .next (.guardWrite h (fun _ h => .strStart h))
  | strCancel => exact .next (.resumed (.guardWrite h (fun _ h => .strCancel h)))
  | strFetchDone => exact .next (.strFetched h)
  | strSignaturesVerified => exact .next (.strVerified h)
  | shadowWritten => exact .next (.shadowWritten h)
  | hallQuiesced => exact .next (.hallQuiesced h)
  | quiesceTimeout => exact .next (.quiesceTimeout h)
  | tableEntryLoad => exact .next (.tableEntry h)
  | strBootSlotWrite => exact .next (.guardWrite h (fun _ h => .bootSlotWrite h))
  | registerWrite => exact .execRegisterWrite h
  | sqcWrite => exact .next (.sqcClear h)
  | bufferedApply => exact .next (.bufferedApply h)
  | newelLoRead => exact .next (.newelRead h)
  | counterLoRead => exact .next (.counterRead h)
  | sealRecompute => exact .next (.sealTick h)
  | sealHoldExpiry => exact .next (.sealExpire h)
  | sealRefWrite => exact .next (.ite h (.openWrite h (fun _ h => .sealRef h)))
  | devDrvHelloWrite => exact .next (.portBound h (fun _ h => .helloWrite h))
  | helloJudge => exact .next (.helloJudge h)
  | leaseRenew => exact .next (.portBound h (fun _ h => .leaseRenew h))
  | leaseExpiry => exact .next (.leaseExpire h)
  | errorEvent => exact .next (.errorEvent h)
  | errInject => exact .next (.guardWrite h (fun _ h => .injectWrite h))
  | errRingEnable => exact .next (.guardWrite h (fun _ h => .ringEnable h))
  | fatalFault => exact .next (.ite (.fatal h) h)
  | dataUncorrectable => exact .next (.ite (.resumed (.dataUncorrectable h)) h)
  | hbmCorrectableError => exact .next (.errorEvent h)
  | patrolPass => exact .next (.patrolDone h)
  | reduce => exact .next (.galFetch h)
  | convert => exact .next (.galFetch h)
  | program => exact .next (.galFetch h)
  | loadProgram => exact .next (.galFetch h)
  | unloadProgram => exact .next (.galFetch h)
  | chunkTake => exact .next (.chunkTake (.noCluster (.galKick h)))
  | chunkDone => exact .next (.flightAbsorb (.galKick (.chunkDone h)))
  | galStreamFault => exact .next (.flightAbsorb (.galKick (.chunkFault h)))
  | galCancel => exact .next (.openWrite h (fun _ h => .eventV (.galCancelTag (.setF h))))
  | load => exact .next (.fltFetch h (fun _ _ h => .loadFlight h))
  | arm => exact .next (.fltFetch h (fun _ _ h => .armFlight h))
  | unload => exact .next (.fltFetch h (fun _ _ h => .unloadFlight h))
  | flightEpochReached => exact .next (.epochReached h)
  | stepSend => exact .execStepSend h
  | stepRecv => exact .execStepRecv h
  | stepReduce => exact .execStepReduce h
  | stepConvert => exact .execStepConvert h
  | stepProgram => exact .execStepProgram h
  | stepCopy => exact .execStepCopy h
  | stepLanding => exact .execStepLanding h
  | stepSignalAccel => exact .execStepSignalAccel h
  | stepComplete => exact .next (.stepComplete h)
  | lateLimitExpiry => exact .execLateLimitExpiry h
  | lateAbortExpiry => exact .execLateAbortExpiry h
  | keepaliveTimer => exact .execKeepaliveTimer h
  | keepaliveReceived => exact .execKeepaliveReceived h
  | peerTimeout => exact .execPeerTimeout h
  | abortBroadcastReceived => exact .next (.abortReceived h)
  | abortRepeatTimer => exact .next (.repeatCtl h)
  | arrivalReportReceived => exact .execArrivalReportReceived h
  | reportRepeatTimer => exact .next (.repeatCtl h)
  | controlAckReceived => exact .execControlAckReceived h
  | flightWriteReceived => exact .next (.flightWrite (.rteRx h))
  | flightDoorbell => exact .execFlightDoorbell h
  | fltCancel => exact .next (.openWrite h (fun _ h => .eventV (.fltCancelTag (.setF h))))
  | newelStep => exact .next (.guardWrite h (fun _ h => .ite (.newelRefuse h) (.newelStep h)))
  | newelAdjWrite => exact .next (.guardWrite h (fun _ h => .ite (.newelRefuse h) (.setReg h)))
  | ptpSyncReceived => exact .next (.ite h (.ite (.ptpStamp h) (.delayReq (.syncOffset (.ptpStamp h)))))
  | syncSilenceExpiry => exact .next (.ite (.setTime (.ripe h)) h)
  | holdoverExpiry => exact .next (.ite (.setTime (.ripe h)) h)
  | ptpStartTimeout => exact .next (.ite (.envRaise (.mk (ripe h))) h)
  | ppsInEdge => exact .next (.ite (.ite (.mk h) (.ite (.setReg (.drawWord (.mk h))) (.newelBy (.mk h)))) h)
  | ppsInAbsent => exact .next (.ite (.logWrite (.mk h)) h)
  | ppsOutEdge => exact .next (.ite (.ppsOut (.atLeast h)) h)
  | packetReceive => exact .next (.ite h (.pktArrive h))
  | sackIntervalExpiry => exact .execSackIntervalExpiry h
  | sackReceived => exact .next (.ite (.pktArrive h) h)
  | nakReceived => exact .next (.ite (.pktArrive h) h)
  | cnpReceived => exact .next (.ite (.pktArrive h) h)
  | recoveryTimerExpiry => exact .next (.recovery h)
  | rtoExpiry => exact .next (.rtoExpire h)
  | suspectProbeTimer => exact .next (.pump (.updQp (.ripe h)))
  | rnrTimerExpiry => exact .execRnrTimerExpiry h
  | pushReadDone => exact .execPushReadDone h
  | contextFetchDone => exact .execContextFetchDone h
  | keyFetchDone => exact .execKeyFetchDone h
  | contextFetchFault => exact .next (.contextFault h)
  | missHoldTimeout => exact .execMissHoldTimeout h
  | ctxPinWaitTimeout => exact .execCtxPinWaitTimeout h
  | send => exact .next (.sendFetch h)
  | sendImm => exact .next (.sendFetch h)
  | write => exact .next (.sendFetch h)
  | writeImm => exact .next (.sendFetch h)
  | read => exact .next (.sendFetch h)
  | fetchAdd => exact .next (.sendFetch h)
  | cmpSwap => exact .next (.sendFetch h)
  | recv => exact .next (.recvFetch h)
  | createQp => exact .next (.ctlFetch h (fun _ _ h => .createQp h))
  | modifyQp => exact .next (.ctlFetch h (fun _ _ h => .modifyQp h))
  | queryQp => exact .next (.ctlFetch h (fun _ _ h => .queryQp h))
  | destroyQp => exact .next (.ctlFetch h (fun _ _ h => .destroyQp h))
  | regMr => exact .next (.ctlFetch h (fun _ _ h => .regMr h))
  | deregMr => exact .next (.ctlFetch h (fun _ _ h => .deregMr h))
  | revokeDrainDone => exact .next (.ite (.keyFree h) h)
  | rteCancel => exact .next (.openWrite h (fun _ h => .eventV (.rteCancelTag (.setF h))))
  | claspWait => exact .next (.claspWait h)
  | claspPoll => exact .execClaspPoll h
  | claspTimeout => exact .execClaspTimeout h
  | alloc => exact .next (.plcFetch h)
  | free => exact .next (.plcFetch h)
  | hint => exact .next (.plcFetch h)
  | get => exact .next (.plcFetch h)
  | put => exact .next (.plcFetch h)
  | map => exact .next (.plcFetch h)
  | unmap => exact .next (.plcFetch h)
  | poolAdd => exact .next (.plcFetch h)
  | poolRemove => exact .next (.plcFetch h)
  | setCopies => exact .next (.plcFetch h)
  | resolve => exact .next (.plcFetch h)
  | query => exact .next (.plcFetch h)
  | settleDone => exact .execSettleDone h
  | settleTimeout => exact .execSettleTimeout h
  | plcCancel => exact .next (.openWrite h (fun _ h => .eventV (.plcCancelTag (.setF h))))
  | heatDecayBoundary => exact .next (.ite h (.tableDue (.decayBoundary h)))
  | pageMoveStart => exact .next (.moveStart h)
  | pageCopyDone => exact .next (.plcKick (.copyDone h))
  | moveDrainDone => exact .next (.plcKick (.drainDone h))
  | moveFail => exact .next (.moveFail h)
  | fetchWaitTimeout => exact .execFetchWaitTimeout h
  | replicaCompare => exact .execReplicaCompare h
  | evac => exact .next (.guardWrite h (fun _ h => .ite (.eventV (.setFs h)) (.mk (setFs (.setFs h)))))
  | evacRelease => exact .execEvacRelease h
  | evacDone => exact .execEvacDone h
  | pcRetrainDone => exact .next (.ite h (.ite (.setFs h) (.report (.evacEnd (.event (.setFs h))))))
  | bar4Access => exact .next (.ite (.bar4 (.mk h)) h)
  | frameReceive => exact .next (.ite (.frameArrive h) h)
  | slowpathFrame => exact .next (.slowFrame h)
  | reasmTimeout => exact .next (.reasmExpire h)
  | sendFrame => exact .execSendFrame h
  | postBuffer => exact .execPostBuffer h
  | txStalledTimeout => exact .execTxStalledTimeout h
  | egressSelect => exact .next (.egress h)
  | treeCommit => exact .next (.openWrite h (fun _ h => .ite (.mk h) (.event h)))
  | treeLoad => exact .next (.guardWrite h (fun _ h => .treeLoad h))
  | treeLoadDone => exact .execTreeLoadDone h
  | txsCancel => exact .next (.openWrite h (fun _ h => .eventV (.frameCancelTag (.setF h))))
  | nvmeSqDoorbell => exact .next (.pageWrite (.hostStores h) (fun _ h => .sqDoorbell h))
  | nvmeCqDoorbell => exact .next (.pageWrite h (fun _ h => .cqDoorbell h))
  | controllerEnable => exact .next (.pageWrite h (fun _ h => .ctrlEnable h))
  | controllerReset => exact .next (.pageWrite h (fun _ h => .nvReset h))
  | controllerResetDone => exact .next (.ite (.updCtrl h) h)
  | createIoSq => exact .next (.nvFetch h)
  | createIoCq => exact .next (.nvFetch h)
  | deleteIoSq => exact .next (.nvFetch h)
  | deleteIoCq => exact .next (.nvFetch h)
  | getLogPage => exact .next (.nvFetch h)
  | identify => exact .next (.nvFetch h)
  | nvmeAbort => exact .next (.nvFetch h)
  | setFeatures => exact .next (.nvFetch h)
  | getFeatures => exact .next (.nvFetch h)
  | asyncEventRequest => exact .next (.nvFetch h)
  | nsCreate => exact .next (.nvFetch h)
  | nsDelete => exact .next (.nvFetch h)
  | namespaceAttachment => exact .next (.nvFetch h)
  | formatNvm => exact .next (.nvFetch h)
  | sanitizeCryptoErase => exact .next (.nvFetch h)
  | sanitizeBlockErase => exact .next (.nvFetch h)
  | sanitizeOverwrite => exact .next (.nvFetch h)
  | sanitizeExitFailure => exact .next (.nvFetch h)
  | nvmeRead => exact .next (.nvIo h)
  | nvmeWrite => exact .next (.nvIo h)
  | nvmeFlush => exact .next (.nvIo h)
  | nvmeCompare => exact .next (.nvIo h)
  | writeZeroes => exact .next (.nvIo h)
  | datasetManagement => exact .next (.nvIo h)
  | destage => exact .next (.ite (.destage h) h)
  | backendResponse => exact .execBackendResponse h
  | backendTimeout => exact .execBackendTimeout h
  | cacheSpaceTimeout => exact .execCacheSpaceTimeout h
  | backendConnectionLost => exact .next (.beConnLost h)
  | backendReconnected => exact .execBackendReconnected h
  | apstIdleExpiry => exact .next (.ite h (.updCtrl (.bufferedApply (.psEnter (.upTo h)))))
  | exlatDone => exact .next (.nvWake h)
  | sanitizeCheckpoint => exact .next (.opCheckpoint h)
  | sanitizePassDone => exact .next (.opPass h)
  | sanitizeFailTimeout => exact .execSanitizeFailTimeout h
  | operationResume => exact .next (.ite h (.opKick (.mk (setCtrl h))))
  | saInstall => exact .next (.guardWrite h (fun _ h => .saInstall (.setF h)))
  | saRemove => exact .next (.guardWrite h (fun _ h => .saRemove (.setF h)))
  | saRemoveDrainDone => exact .next (.saFree h)
  | saQuery => exact .next (.guardWrite h (fun _ h => .saQuery (.setF h)))
  | saFetchDone => exact .next (.ite (.holdsGo (.saUse h)) h)
  | rngHealthFail => exact .next (.ite (.report (.event (.mk h))) h)
  | cvuJob => exact .next (.openWrite h (fun _ h => .cvuJob h))
  | cvuJobDone => exact .execCvuJobDone h
  | readEntry => exact .next (.slcGo h (fun _ h => .readEntry h))
  | writeEntry => exact .next (.slcGo h (fun _ h => .writeEntry h))
  | bind => exact .next (.slcGo h (fun _ h => .bindSlice h))
  | unbind => exact .next (.slcGo h (fun _ h => .unbindSlice h))
  | sliceReset => exact .next (.slcGo h (fun _ h => .resetCommand h))
  | sliceResetDone => exact .next (.resetArrived h)
  | sliceActivate => exact .next (.activate h)
  | freeze => exact .next (.slcGo h (fun _ h => .freeze h))
  | freezeBoundariesReached => exact .next (.freezeDone h)
  | freezeWaitTimeout => exact .next (.freezeTimeout h)
  | thaw => exact .next (.slcGo h (fun _ h => .thaw h))
  | save => exact .next (.slcGo h (fun _ h => .dmaWait h (fun _ h => .save h)))
  | restore => exact .next (.slcGo h (fun _ h => .dmaWait h (fun _ h => .restore h)))
  | ringRead => exact .next (.slcGo h (fun _ h => .slcEnd (.setWords h)))
  | ringBind => exact .next (.slcGo h (fun _ h => .ringBind h))
  | ringUnbind => exact .next (.slcGo h (fun _ h => .ringUnbind h))
  | doorbell => exact .next (.pageWrite (.hostStores h) (fun _ h => .doorbell h))
  | sliceCancel => exact .next (.pageWrite h (fun _ h => .sliceCancel h))
  | completionRingFullTimeout => exact .next (.cqTimeout h)
  | coreCrash => exact .next (.stewarded (.coreCrash h))
  | watchdogExpiry => exact .next (.ite (.stewarded (.coreCrash (.ripe h))) h)
  | coreRestartDone => exact .next (.mgmtGo (.coreBack h))
  | coreRestartTimeout => exact .next (.ite (.stewarded (.coreCrash (.ripe h))) h)
  | coreRestart => exact .next (.stewarded (.guardWrite h (fun _ h => .restartCmd h)))
  | coreRelease => exact .next (.guardWrite h (fun _ h => .releaseCmd h))
  | writeFw => exact .next (.guardWrite h (fun _ h => .dmaWait h (fun _ h => .writeFw h)))
  | activate => exact .next (.guardWrite h (fun _ h => .fwActivate h))
  | wingDrainDone => exact .next (.wingDrained h)
  | wingLoadDone => exact .next (.mgmtGo (.wingLoaded h))
  | stwFwBootWrite => exact .next (.guardWrite h (fun _ h => .fwBootWrite h))
  | logCopy => exact .next (.openWrite h (fun _ h => .logStart h))
  | telemetryPeriod => exact .next (.dmaWait h (fun _ h => .telPeriod h))
  | getVersion => exact .next (.spdmAsk h (fun _ h => .spdmAnswer (.setSpdm h)))
  | getCapabilities => exact .next (.spdmAsk h (fun _ h => .spdmAnswer (.setSpdm h)))
  | negotiateAlgorithms => exact .next (.spdmAsk h (fun _ h => .ite (.spdmAnswer (.setSpdm h)) (.spdmErr h)))
  | getDigests => exact .next (.spdmAsk h (fun _ h => .spdmAnswer h))
  | getCertificate => exact .next (.spdmAsk h (fun _ h => .ite (.spdmErr h) (.spdmAnswer h)))
  | challenge => exact .next (.spdmAsk h (fun _ h => .ite (.spdmErr h) (.spdmSigned h)))
  | getMeasurements => exact .next (.spdmAsk h (fun _ h => .ite (.spdmErr h) (.ite (.spdmSigned h) (.spdmAnswer h))))
  | getLmsSig => exact .execGetLmsSig h
  | spdmUnsupportedRequest => exact .next (.spdmAsk h (fun _ h => .spdmErr h))
  | svnCommit => exact .next (.guardWrite h (fun _ h => .ite (.setF h) h))
  | lkeyInstall => exact .execLkeyInstall h
  | lkeyErase => exact .execLkeyErase h
  | debugUnlock => exact .next (.guardWrite h (fun _ h => .dmaWait h (fun _ h => .debugTry h)))
  | jtagInstruction => exact .next (.ite h (.ite (.send (.mk h)) (.ite (.send (.mk h)) (.mk h))))
  | jtagTrst => exact .next (.mk h)
  | cofferSample => exact .next (.ite (.sample h) h)
  | stage5SaveDone => exact .next (.ite (.save5 h) h)
  | epochBoundary => exact .next (.ite (.tableDue (.epoch h)) h)
  | brownout => exact .next (.ite h (.coldReset (.bump (.powerEvent h))))
  | overvoltageTrip => exact .next (.ite h (.coldReset (.powerEvent h)))
  | pwrResetCold => exact .next (.guardWrite h (fun _ h => .coldReset h))
  | pwrResetWarm => exact .next (.guardWrite h (fun _ h => .warmReset (.setF h)))
  | pwrShedWrite => exact .next (.guardWrite h (fun _ h => .shedWrite h))
  | sensorThresholdCrossing => exact .next (.ite h (.ite (.fatal (.mctpSend (.mk h))) (.mctpSend (.mk h))))
  | mctpControl => exact .next (.ite h (.mctpSend (.mk h)))
  | pldmRequest => exact .execPldmRequest h
  | setdasa => exact .next (.assignAddr h)
  | entdaa => exact .next (.assignAddr h)
  | pf1Flr => exact .next (.cfgWrite h (fun _ h => .flr h))
  | pf0Flr => exact .next (.resumed (.cfgWrite h (fun _ h => .flr h)))
  | flrDone => exact .next (.ite (.event (.setF (.foldl h fun _ _ h => .tagLost h))) h)
  | hotReset => exact .execHotReset h
  | linkLost => exact .next (.resumed (.linkLost h))
  | perstAssert => exact .next (.ite h (.resumed (.perstOn (.portReset (.linkLost (.linkLost h))))))
  | perstDeassert => exact .next (.ite (.portTrain (.perstOff h)) h)
  | refclkLoss => exact .next (.ite h (.resumed (.setLink (.linkLost (.linkLost h)))))
  | busMasterDisable => exact .next (.resumed (.cfgWrite h (fun _ h => .busOff h)))
  | busMasterEnable => exact .execBusMasterEnable h
  | completionTimeout => exact .next (.ite (.accessFail (.tagLost h)) h)
  | hostAccessFail => exact .next (.accessFail h)
  | unexpectedCompletion => exact .next (.send (.event (.bump h)))
  | tagQuarantineExpiry => exact .execTagQuarantineExpiry h
  | invalidateRequest => exact .next (.cfgWrite h (fun _ h => .ite h (.invalShow (.setLink h))))
  | invalidateComplete => exact .next (.ite h (.send (.bump (.invalShow (.setLink h)))))
  | l0pIdleExpiry => exact .next (.ite (.setF (.bufferedApply h)) (.bufferedApply h))
  | l1IdleExpiry => exact .next (.ite (.setF (.bufferedApply h)) (.bufferedApply h))
  | d3hotEntry => exact .next (.resumed (.cfgWrite h (fun _ h => .sleep h)))
  | interruptMethodChange => exact .execInterruptMethodChange h
  | msixUnmask => exact .execMsixUnmask h
  | sliceMessageUnmask => exact .next (.pageWrite h (fun _ h => .ite (.mk h) (.sliceMsgDrain (.mk h))))
  | hstIntxAck => exact .next (.openWrite h (fun _ h => .intxSettle (.setVec h)))
  | laneLost => exact .next (.laneLost h)
  | ethRetrain => exact .next (.guardWrite h (fun _ h => .retrain h))
  | ethRetrainDone => exact .next (.retrained h)
  | accelCounterRise => exact .next (.ite h (.foldl (.mk (Mem.wf_write _ _ _ h)) fun _ _ h => .countDoorbell h))
  | linkTrained => exact .execLinkTrained h
  | laneGroupUp => exact .next (.groupUp h)
  | envCheckTimeout => exact .next (.envTimeout h)
  | d0Return => exact .next (.cfgWrite h (fun _ h => .ite h (.dmaOn (.wakeLink (.setFn h)))))
  | logCopyDone => exact .next (.logCopied h)
  | streamSlotWritten => exact .next (.slotWritten h)
  | fwSlotWritten => exact .next (.fwWritten h)

/-! ### Machine/Step -/

theorem step (h : s.Canonical) : Res.Canonical (step s) := by
  unfold Machine.step
  split
  · exact .next h
  · exact .exec h

end State.Canonical

/-- Settles O60: every instruction's effect keeps memory canonical, and a step with none pending changes nothing. -/
theorem everyStepKeepsMemoryCanonical : Obligations.EveryStepKeepsMemoryCanonical :=
  fun _ t h e => State.Canonical.step h t e

end Sys2Proof.Machine
end

section

/-! ## O22: lane groups

A lane, a retrain or a training changes registers of ETH and, where the group falls below its stated mode, the record of
the mismatch. What each operation leaves alone is one relation between states; what it sets is read field by field. -/

namespace Sys2Proof.Machine

/-! ### Registers apart -/

section
variable {s t : State} {f g : Fld} {v : Nat}

theorem getF_lt (s : State) (f : Fld) : s.getF f < 2 ^ (f.hi + 1 - f.lo) := Nat.mod_lt _ (Nat.two_pow_pos _)

theorem getF_of_reg (h : t.reg g.reg = s.reg g.reg) : t.getF g = s.getF g := by
  simp only [State.getF, h]

theorem getF_setF_reg_ne (h : f.reg ≠ g.reg) : (s.setF f v).getF g = s.getF g := getF_of_reg (reg_setF_ne _ _ _ _ h)

theorem getF_bump_reg_ne (h : f.reg ≠ g.reg) : (s.bump f).getF g = s.getF g := getF_of_reg (reg_bump_ne _ _ _ h)

theorem getF_event_reg_ne (h : f.reg ≠ g.reg) : (s.event f).getF g = s.getF g := getF_of_reg (reg_eventV_ne _ _ _ _ h)

theorem getF_eventV_reg_ne (h : f.reg ≠ g.reg) : (s.eventV f v).getF g = s.getF g := getF_of_reg (reg_eventV_ne _ _ _ _ h)

end

/-- The registers of ETH that stand below those of its lane groups, or above those of its lanes. -/
def EthPlain (a : Nat) : Prop := a < R.ETH_GROUP_STATE 0 ∨ R.ETH_LANE 32 ≤ a

section
variable {a g l : Nat}

theorem EthPlain.status : EthPlain R.ETH_STATUS := .inl (by decide)
theorem EthPlain.retrainStatus : EthPlain R.ETH_RETRAIN_STATUS := .inl (by decide)
theorem EthPlain.cntLaneLost : EthPlain R.ETH_CNT_LANE_LOST := .inr (by decide)
theorem EthPlain.cntRetrain : EthPlain R.ETH_CNT_RETRAIN := .inr (by decide)

theorem groupState_ne (hg : g < 4) (ha : EthPlain a) : R.ETH_GROUP_STATE g ≠ a := by
  simp only [EthPlain, R.ETH_GROUP_STATE, R.ETH_LANE] at ha ⊢
  omega

theorem lane_ne (hl : l < 32) (ha : EthPlain a) : R.ETH_LANE l ≠ a := by
  simp only [EthPlain, R.ETH_GROUP_STATE, R.ETH_LANE] at ha ⊢
  omega

theorem lane_ne_groupState (hg : g < 4) : R.ETH_LANE l ≠ R.ETH_GROUP_STATE g := by
  simp only [R.ETH_GROUP_STATE, R.ETH_LANE]
  omega

theorem groupState_block (hg : g < 4) : R.ETH_GROUP_STATE g / 65536 = 26 := by
  simp only [R.ETH_GROUP_STATE]
  omega

theorem lane_block (hl : l < 32) : R.ETH_LANE l / 65536 = 26 := by
  simp only [R.ETH_LANE]
  omega

end

/-! ### Operations that leave a state's work alone -/

/-- Registers, pending writes and running limits may differ, and nothing else. -/
def RegisterFrame (s t : State) : Prop := ∃ r p c, t = { s with regs := r, pend := p, since := c }

/-- Engines and tenants are as they were. -/
def sameServed (s t : State) : Prop := sameEngines s t ∧ sameTenants s t

theorem sameServed.trans {s t u : State} (h : sameServed s t) (k : sameServed t u) : sameServed s u := by
  simp only [sameServed, sameEngines, sameTenants] at h k ⊢
  simp only [h, k, and_self]

namespace RegisterFrame
variable {s t u : State}

theorem refl (s : State) : RegisterFrame s s := ⟨_, _, _, rfl⟩

theorem trans (h : RegisterFrame s t) (k : RegisterFrame t u) : RegisterFrame s u := by
  obtain ⟨_, _, _, rfl⟩ := h
  obtain ⟨_, _, _, rfl⟩ := k
  exact ⟨_, _, _, rfl⟩

theorem setReg (s : State) (a v : Nat) : RegisterFrame s (s.setReg a v) := ⟨_, _, _, rfl⟩
theorem setF (s : State) (f : Fld) (v : Nat) : RegisterFrame s (s.setF f v) := ⟨_, _, _, rfl⟩
theorem bump (s : State) (f : Fld) : RegisterFrame s (s.bump f) := ⟨_, _, _, rfl⟩
theorem event (s : State) (f : Fld) : RegisterFrame s (s.event f) := ⟨_, _, _, rfl⟩
theorem eventV (s : State) (f : Fld) (v : Nat) : RegisterFrame s (s.eventV f v) := ⟨_, _, _, rfl⟩
theorem sealTouch (s : State) (b : Nat) : RegisterFrame s (s.sealTouch b) := ⟨_, _, _, rfl⟩
theorem setPortLanes (s : State) (g : Nat) : RegisterFrame s (s.setPortLanes g) := ⟨_, _, _, rfl⟩
theorem groupBelow (s : State) (g : Nat) : RegisterFrame s (s.groupBelow g) := ⟨_, _, _, rfl⟩

theorem foldl {α : Type} {f : State → α → State} (hf : ∀ s x, RegisterFrame s (f s x)) (l : List α) (s : State) :
    RegisterFrame s (l.foldl f s) := by
  induction l generalizing s with
  | nil => exact refl s
  | cons x xs ih => exact (hf s x).trans (ih _)

theorem setWorking (s : State) (g m : Nat) : RegisterFrame s (s.setWorking g m) :=
  (setF _ _ _).trans (foldl (fun _ _ => setF _ _ _) _ _)

theorem applyGroup (s : State) (f : Fld) : RegisterFrame s (s.applyGroup f) := by
  unfold State.applyGroup
  extract_lets mine t
  have ht : RegisterFrame s t := foldl (fun _ _ => setReg _ _ _) mine s
  exact ht.trans ⟨_, _, _, rfl⟩

theorem ite {c : Prop} [Decidable c] (h : RegisterFrame s t) (k : RegisterFrame s u) : RegisterFrame s (if c then t else u) := by
  split <;> assumption

theorem work (h : RegisterFrame s t) : sameWork s t := by
  obtain ⟨_, _, _, rfl⟩ := h
  simp [sameWork, sameBytes, sameEngines, sameTenants]

theorem device (h : RegisterFrame s t) : sameDevice s t := by
  obtain ⟨_, _, _, rfl⟩ := h
  simp [sameDevice]

theorem str (h : RegisterFrame s t) : t.str = s.str := by
  obtain ⟨_, _, _, rfl⟩ := h
  rfl

theorem served (h : RegisterFrame s t) : sameServed s t := h.work.2

end RegisterFrame

section
variable (s : State)

theorem sameServed_report (c b i st l : Nat) : sameServed s (s.report c b i st l) := by
  simp [sameServed, sameEngines, sameTenants]

theorem sameServed_setStr (x) : sameServed s { s with str := x } := by
  simp [sameServed, sameEngines, sameTenants]

theorem sameServed_setDev (d : Dev) : sameServed s (s.setDev d) := by
  simp [sameServed, sameEngines, sameTenants]

end

/-! ### Operations that leave the registers of ETH alone -/

/-- The registers of ETH, whose addresses begin at 26 * 65536, read as before. -/
def SameEth (s t : State) : Prop := ∀ a, a / 65536 = 26 → t.reg a = s.reg a

namespace SameEth
variable {s t u : State}

theorem trans (h : SameEth s t) (k : SameEth t u) : SameEth s u := fun a ha => (k a ha).trans (h a ha)

theorem getF {f : Fld} (h : SameEth s t) (hf : f.reg / 65536 = 26) : t.getF f = s.getF f := getF_of_reg (h _ hf)

theorem report (s : State) (c b i st l : Nat) : SameEth s (s.report c b i st l) :=
  fun a ha => report_reg s c b i st l a (by omega)

theorem setDev (s : State) (d : Dev) : SameEth s (s.setDev d) :=
  fun a ha => setDev_reg s d a (by rintro rfl; exact absurd ha (by decide))

theorem event (s : State) {f : Fld} (h : f.reg / 65536 ≠ 26) : SameEth s (s.event f) :=
  fun _ ha => reg_eventV_ne _ _ _ _ fun e => h (e ▸ ha)

theorem setF (s : State) {f : Fld} (v : Nat) (h : f.reg / 65536 ≠ 26) : SameEth s (s.setF f v) :=
  fun _ ha => reg_setF_ne _ _ _ _ fun e => h (e ▸ ha)

end SameEth

theorem reg_foldl {α : Type} {f : State → α → State} {a : Nat} {l : List α} (hf : ∀ s, ∀ x ∈ l, (f s x).reg a = s.reg a)
    (s : State) : (l.foldl f s).reg a = s.reg a := by
  induction l generalizing s with
  | nil => rfl
  | cons x xs ih =>
    exact (ih (fun s y hy => hf s y (List.mem_cons_of_mem _ hy)) _).trans (hf s x List.mem_cons_self)

/-- The words of a mismatch record in its place, or the record counted as lost (R35). -/
def State.envRecorded (s : State) (words : List Nat) : State :=
  if s.str.records < 32 then
    { (List.range 4).foldl (fun u k => u.setReg (R.STR_ENV_REC (4 * s.str.records + k)) (words.getD k 0)) s with
      str := { s.str with records := s.str.records + 1 } }
  else s.bumpSat F.STR_ENV_MISMATCH_LOST

theorem envRaise_eq (s : State) (cls item stated observed : Nat) :
    s.envRaise cls item stated observed =
      ((s.envRecorded [cls + 256 * item, stated + 65536 * observed, s.now % 2 ^ 32, s.now / 2 ^ 32]).event
        (envClassF cls)).report 0x202 3 0xFFFF 0 (cls * 256 + item) := rfl

theorem envRecorded_frame (s : State) (w : List Nat) : sameServed s (s.envRecorded w) ∧ SameEth s (s.envRecorded w) := by
  unfold State.envRecorded
  split
  next hi =>
    have hf := RegisterFrame.foldl
      (fun u k => .setReg u (R.STR_ENV_REC (4 * s.str.records + k)) (w.getD k 0)) (List.range 4) s
    refine ⟨hf.served.trans (sameServed_setStr _ _), fun a ha => reg_foldl (fun u k hk => reg_setReg_ne _ _ _ _ ?_) s⟩
    rw [List.mem_range] at hk
    simp only [R.STR_ENV_REC]
    omega
  next => exact ⟨(RegisterFrame.setF _ _ _).served, .setF _ _ (by decide)⟩

/-- A mismatch is recorded and reported, and touches no engine, tenant or register of ETH (R35). -/
theorem envRaise_frame (s : State) (cls item stated observed : Nat) :
    sameServed s (s.envRaise cls item stated observed) ∧ SameEth s (s.envRaise cls item stated observed) := by
  rw [envRaise_eq]
  obtain ⟨hs, he⟩ := envRecorded_frame s [cls + 256 * item, stated + 65536 * observed, s.now % 2 ^ 32, s.now / 2 ^ 32]
  have hc : R.STR_ENV_MISMATCH / 65536 ≠ 26 := by decide
  exact ⟨(hs.trans (RegisterFrame.event _ _).served).trans (sameServed_report _ _ _ _ _ _),
    (he.trans (.event _ hc)).trans (.report _ _ _ _ _ _)⟩

theorem driverCheck_frame (s : State) : sameServed s s.driverCheck ∧ SameEth s s.driverCheck := by
  unfold State.driverCheck
  extract_lets accepted refused
  split
  · exact ⟨sameServed_setDev _ _, .setDev _ _⟩
  · split
    · exact ⟨sameServed_setDev _ _, .setDev _ _⟩
    · exact ⟨(RegisterFrame.refl s).served, fun _ _ => rfl⟩

/-- Step 10 of R32 changes the device's state alone. -/
theorem envSettle_frame (s : State) : sameServed s s.envSettle ∧ SameEth s s.envSettle := by
  unfold State.envSettle
  split
  · obtain ⟨hs, he⟩ := driverCheck_frame
      (s.setDev { s.dev with st := if s.dev.shed = 0 then .ready else .shedding, limitedCause := 0, envWait := false })
    exact ⟨(sameServed_setDev _ _).trans hs, (SameEth.setDev _ _).trans he⟩
  · exact ⟨(RegisterFrame.refl s).served, fun _ _ => rfl⟩

/-! ### The fields of ETH_GROUP_STATE -/

section
variable {s : State} {g m v : Nat} {f : Fld}

theorem state_apart_working : (F.ETH_GROUP_STATE_STATE g).apart (F.ETH_GROUP_STATE_WORKING g) = true := by
  simp [Fld.apart, F.ETH_GROUP_STATE_STATE, F.ETH_GROUP_STATE_WORKING]

theorem portLanes_apart_working : (F.ETH_GROUP_STATE_PORT_LANES g).apart (F.ETH_GROUP_STATE_WORKING g) = true := by
  simp [Fld.apart, F.ETH_GROUP_STATE_PORT_LANES, F.ETH_GROUP_STATE_WORKING]

theorem portLanes_apart_state : (F.ETH_GROUP_STATE_PORT_LANES g).apart (F.ETH_GROUP_STATE_STATE g) = true := by
  simp [Fld.apart, F.ETH_GROUP_STATE_PORT_LANES, F.ETH_GROUP_STATE_STATE]

theorem working_apart_state : (F.ETH_GROUP_STATE_WORKING g).apart (F.ETH_GROUP_STATE_STATE g) = true := by
  simp [Fld.apart, F.ETH_GROUP_STATE_WORKING, F.ETH_GROUP_STATE_STATE]

/-- Ports of a group that is not up have no lanes. -/
theorem portLanes_setPortLanes (h : s.getF (F.ETH_GROUP_STATE_STATE g) ≠ 2) :
    (s.setPortLanes g).getF (F.ETH_GROUP_STATE_PORT_LANES g) = 0 := by
  have hu : (s.getF (F.ETH_GROUP_STATE_STATE g) == 2) = false := beq_false_of_ne h
  simp [State.setPortLanes, hu, getF_setF_same, Fld.ok, F.ETH_GROUP_STATE_PORT_LANES]

theorem groupState_setPortLanes : (s.setPortLanes g).getF (F.ETH_GROUP_STATE_STATE g) = s.getF (F.ETH_GROUP_STATE_STATE g) :=
  getF_setF_apart _ _ _ _ rfl rfl portLanes_apart_state

/-- A group that shows a state, and its ports' lanes by it. -/
def State.groupShown (s : State) (g v : Nat) : State := (s.setF (F.ETH_GROUP_STATE_STATE g) v).setPortLanes g

theorem groupState_groupShown (hv : v < 4) : (s.groupShown g v).getF (F.ETH_GROUP_STATE_STATE g) = v :=
  groupState_setPortLanes.trans ((getF_setF_same _ _ _ rfl).trans (Nat.mod_eq_of_lt hv))

theorem portLanes_groupShown (hv : v < 4) (h : v ≠ 2) : (s.groupShown g v).getF (F.ETH_GROUP_STATE_PORT_LANES g) = 0 :=
  portLanes_setPortLanes (((getF_setF_same _ _ _ rfl).trans (Nat.mod_eq_of_lt hv)).trans_ne h)

theorem groupShown_frame : RegisterFrame s (s.groupShown g v) := (RegisterFrame.setF _ _ _).trans (.setPortLanes _ _)

/-! ### WORKING and the lanes -/

theorem getF_foldl_setF_same {l : List Nat} {fld : Nat → Fld} {val : Nat → Nat} {k : Nat} (hl : l.Nodup)
    (hne : ∀ j, j ≠ k → (fld j).reg ≠ (fld k).reg) (hk : k ∈ l) (hok : (fld k).ok = true) (s : State) :
    (l.foldl (fun s j => s.setF (fld j) (val j)) s).getF (fld k) = val k % 2 ^ ((fld k).hi + 1 - (fld k).lo) := by
  induction l generalizing s with
  | nil => cases hk
  | cons j js ih =>
    obtain ⟨hj, hjs⟩ := List.nodup_cons.1 hl
    by_cases hjk : j = k
    · subst hjk
      have hrest : ∀ s : State, ∀ x ∈ js, (s.setF (fld x) (val x)).reg (fld j).reg = s.reg (fld j).reg := fun s x hx =>
        reg_setF_ne _ _ _ _ (hne x fun e => hj (e ▸ hx))
      rw [List.foldl_cons, getF_of_reg (reg_foldl hrest _), getF_setF_same _ _ _ hok]
    · exact ih hjs ((List.mem_cons.1 hk).resolve_left (Ne.symm hjk)) _

theorem getF_setWorking_apart (hl : ∀ k < 8, R.ETH_LANE (8 * g + k) ≠ f.reg) :
    (s.setWorking g m).getF f = (s.setF (F.ETH_GROUP_STATE_WORKING g) m).getF f :=
  getF_of_reg (reg_foldl (fun _ k hk => reg_setF_ne _ _ _ _ (hl k (List.mem_range.1 hk))) _)

theorem groupWorking_setWorking (hg : g < 4) (hm : m < 256) : (s.setWorking g m).groupWorking g = m :=
  (getF_setWorking_apart fun _ _ => lane_ne_groupState hg).trans
    ((getF_setF_same _ _ _ rfl).trans (Nat.mod_eq_of_lt hm))

theorem groupState_setWorking (hg : g < 4) :
    (s.setWorking g m).getF (F.ETH_GROUP_STATE_STATE g) = s.getF (F.ETH_GROUP_STATE_STATE g) :=
  (getF_setWorking_apart fun _ _ => lane_ne_groupState hg).trans
    (getF_setF_apart _ _ _ _ rfl rfl working_apart_state)

theorem getF_setWorking_plain (hg : g < 4) (hf : EthPlain f.reg) : (s.setWorking g m).getF f = s.getF f :=
  (getF_setWorking_apart fun _ _ => lane_ne (by omega) hf).trans (getF_setF_reg_ne (groupState_ne hg hf))

/-- UP of a lane is its bit of WORKING. -/
theorem laneUp_setWorking {l : Nat} : (s.setWorking (l / 8) m).getF (F.ETH_LANE_UP l) = b2n (bitAt m (l % 8)) := by
  have hne : ∀ j, j ≠ l % 8 → R.ETH_LANE (8 * (l / 8) + j) ≠ R.ETH_LANE (8 * (l / 8) + l % 8) := by
    simp only [R.ETH_LANE]
    omega
  have h := getF_foldl_setF_same (fld := fun k => F.ETH_LANE_UP (8 * (l / 8) + k)) (val := fun k => b2n (bitAt m k)) (k := l % 8)
    List.nodup_range hne (List.mem_range.2 (Nat.mod_lt _ (by decide))) rfl
    (s.setF (F.ETH_GROUP_STATE_WORKING (l / 8)) m)
  rw [Nat.div_add_mod l 8] at h
  refine h.trans ?_
  cases bitAt m (l % 8) <;> rfl

end

/-! ### Fields that judging a group leaves alone -/

theorem Fld.apart_of_reg_ne {f g : Fld} (h : f.reg ≠ g.reg) : f.apart g = true := by
  simp [Fld.apart, h]

/-- A field apart from what a group shows of its state, its ports' lanes and its being disabled. -/
structure GroupApart (g : Nat) (f : Fld) : Prop where
  ok : f.ok = true
  state : (F.ETH_GROUP_STATE_STATE g).apart f = true
  lanes : (F.ETH_GROUP_STATE_PORT_LANES g).apart f = true
  disabled : F.ETH_STATUS_GROUP_DISABLED.apart f = true
  seq : f.hi < 24 ∨ f.reg ≠ R.ETH_STATUS

namespace GroupApart
variable {s : State} {g v : Nat} {f : Fld}

theorem of_reg_ne (hok : f.ok = true) (hg : R.ETH_GROUP_STATE g ≠ f.reg) (hs : R.ETH_STATUS ≠ f.reg) : GroupApart g f :=
  ⟨hok, Fld.apart_of_reg_ne hg, Fld.apart_of_reg_ne hg, Fld.apart_of_reg_ne hs, .inr hs.symm⟩

theorem plain (hok : f.ok = true) (hf : EthPlain f.reg) (hg : g < 4) (hs : R.ETH_STATUS ≠ f.reg) : GroupApart g f :=
  of_reg_ne hok (groupState_ne hg hf) hs

theorem working (hg : g < 4) : GroupApart g (F.ETH_GROUP_STATE_WORKING g) :=
  ⟨rfl, state_apart_working, portLanes_apart_working,
    Fld.apart_of_reg_ne (groupState_ne hg .status).symm, .inr (groupState_ne hg .status)⟩

theorem laneUp {l : Nat} (hg : g < 4) (hl : l < 32) : GroupApart g (F.ETH_LANE_UP l) :=
  of_reg_ne rfl (lane_ne_groupState hg).symm (lane_ne hl .status).symm

theorem laneLost (hg : g < 4) : GroupApart g F.ETH_STATUS_LANE_LOST :=
  ⟨rfl, Fld.apart_of_reg_ne (groupState_ne hg .status), Fld.apart_of_reg_ne (groupState_ne hg .status), rfl, .inl (by decide)⟩

theorem setPortLanes (h : GroupApart g f) : (s.setPortLanes g).getF f = s.getF f :=
  getF_setF_apart _ _ _ _ rfl h.ok h.lanes

theorem groupShown (h : GroupApart g f) : (s.groupShown g v).getF f = s.getF f :=
  h.setPortLanes.trans (getF_setF_apart _ _ _ _ rfl h.ok h.state)

theorem groupBelow (h : GroupApart g f) : (s.groupBelow g).getF f = s.getF f :=
  (getF_eventV_apart _ _ _ _ rfl h.ok h.disabled h.seq).trans h.groupShown

end GroupApart

/-! ### A group disabled for too few lanes (R386) -/

section
variable {s : State} {g : Nat}

theorem groupBelow_eq : s.groupBelow g = (s.groupShown g 3).event F.ETH_STATUS_GROUP_DISABLED := rfl

theorem groupState_groupBelow (hg : g < 4) : (s.groupBelow g).getF (F.ETH_GROUP_STATE_STATE g) = 3 := by
  rw [groupBelow_eq, getF_event_reg_ne (groupState_ne hg .status).symm, groupState_groupShown (by decide)]

theorem portLanes_groupBelow (hg : g < 4) : (s.groupBelow g).getF (F.ETH_GROUP_STATE_PORT_LANES g) = 0 := by
  rw [groupBelow_eq, getF_event_reg_ne (groupState_ne hg .status).symm, portLanes_groupShown (by decide) (by decide)]

theorem disabled_groupBelow : (s.groupBelow g).getF F.ETH_STATUS_GROUP_DISABLED = 1 :=
  getF_eventV_same _ _ _ rfl (by decide)

end

/-! ### A lane lost (R386) -/

section
variable {s : State} {l g m : Nat}

/-- A lane out of a group's WORKING, counted and shown. -/
def State.laneOut (s : State) (g m : Nat) : State := ((s.setWorking g m).bump F.ETH_CNT_LANE_LOST).event F.ETH_STATUS_LANE_LOST

/-- A group that is up, judged by the lanes that it has left. -/
def State.laneJudged (s : State) (g m : Nat) : State :=
  if s.getF (F.ETH_GROUP_STATE_STATE g) = 2 then (if lanes m < s.groupMin g then s.groupBelow g else s.setPortLanes g) else s

theorem laneLost_eq (h : s.getF (F.ETH_LANE_UP l) = 1) :
    let m := s.groupWorking (l / 8) - 2 ^ (l % 8)
    s.laneLost l = ((s.laneOut (l / 8) m).laneJudged (l / 8) m).report 0x204 18 0xFFFF 0 (l / 8 * 256 + lanes m) := by
  have h0 : s.getF (F.ETH_LANE_UP l) ≠ 0 := by omega
  exact if_neg h0

theorem laneOut_frame : RegisterFrame s (s.laneOut g m) :=
  ((RegisterFrame.setWorking s g m).trans (.bump _ _)).trans (.event _ _)

theorem laneJudged_frame : RegisterFrame s (s.laneJudged g m) :=
  .ite (.ite (.groupBelow s g) (.setPortLanes s g)) (.refl s)

theorem groupMin_laneOut : (s.laneOut g m).groupMin g = s.groupMin g := by
  rw [State.groupMin, State.envField, laneOut_frame.str]
  rfl

theorem GroupApart.laneJudged {f : Fld} (h : GroupApart g f) : (s.laneJudged g m).getF f = s.getF f := by
  unfold State.laneJudged
  split
  · split
    · exact h.groupBelow
    · exact h.setPortLanes
  · rfl

theorem laneJudged_of_below (hup : s.getF (F.ETH_GROUP_STATE_STATE g) = 2) (hm : lanes m < s.groupMin g) :
    s.laneJudged g m = s.groupBelow g := by
  rw [State.laneJudged, if_pos hup, if_pos hm]

theorem groupState_laneJudged_of_enough (hm : s.groupMin g ≤ lanes m) :
    (s.laneJudged g m).getF (F.ETH_GROUP_STATE_STATE g) = s.getF (F.ETH_GROUP_STATE_STATE g) := by
  unfold State.laneJudged
  rw [if_neg (Nat.not_lt.2 hm)]
  split
  · exact groupState_setPortLanes
  · rfl

/-- What a lost lane counts and shows stands in registers of its own. -/
theorem getF_laneOut_apart {f : Fld} (hc : R.ETH_CNT_LANE_LOST ≠ f.reg) (hs : R.ETH_STATUS ≠ f.reg) :
    (s.laneOut g m).getF f = (s.setWorking g m).getF f := by
  rw [State.laneOut, getF_event_reg_ne hs, getF_bump_reg_ne hc]

theorem groupWorking_laneOut (hg : g < 4) (hm : m < 256) : (s.laneOut g m).groupWorking g = m :=
  (getF_laneOut_apart (groupState_ne hg .cntLaneLost).symm (groupState_ne hg .status).symm).trans
    (groupWorking_setWorking hg hm)

theorem groupState_laneOut (hg : g < 4) :
    (s.laneOut g m).getF (F.ETH_GROUP_STATE_STATE g) = s.getF (F.ETH_GROUP_STATE_STATE g) :=
  (getF_laneOut_apart (groupState_ne hg .cntLaneLost).symm (groupState_ne hg .status).symm).trans
    (groupState_setWorking hg)

theorem laneUp_laneOut (hl : l < 32) : (s.laneOut (l / 8) m).getF (F.ETH_LANE_UP l) = b2n (bitAt m (l % 8)) :=
  (getF_laneOut_apart (lane_ne hl .cntLaneLost).symm (lane_ne hl .status).symm).trans laneUp_setWorking

theorem count_laneOut (hg : g < 4) : (s.laneOut g m).getF F.ETH_CNT_LANE_LOST = (s.getF F.ETH_CNT_LANE_LOST + 1) % 2 ^ 32 := by
  rw [State.laneOut, getF_event_reg_ne (by decide), getF_bump_same _ _ rfl, getF_setWorking_plain hg .cntLaneLost]
  rfl

theorem shown_laneOut : (s.laneOut g m).getF F.ETH_STATUS_LANE_LOST = 1 := getF_eventV_same _ _ _ rfl (by decide)

theorem groupWorking_lt (s : State) (g : Nat) : s.groupWorking g < 256 := getF_lt s _

/-- A set bit taken out of a number is clear. -/
theorem bitAt_sub_self {x k : Nat} (h : bitAt x k = true) : bitAt (x - 2 ^ k) k = false := by
  simp only [bitAt, beq_iff_eq] at h
  have hle : 2 ^ k * 1 ≤ x := by
    have hpos : 0 < x / 2 ^ k := Nat.pos_of_ne_zero fun e => by simp [e] at h
    simpa using (Nat.div_pos_iff.1 hpos).2
  have hdiv : (x - 2 ^ k * 1) / 2 ^ k = x / 2 ^ k - 1 := Nat.sub_mul_div_of_le x (2 ^ k) 1 hle
  rw [Nat.mul_one] at hdiv
  simp only [bitAt, hdiv, beq_eq_false_iff_ne]
  omega

end

/-! ### A retrain (R387, R391) -/

section
variable {s : State} {g : Nat}

/-- A retrain that runs: its group trains and carries nothing. -/
def State.retraining (s : State) (g : Nat) : State :=
  ((s.setF F.ETH_RETRAIN_STATUS_ACTIVE 1).setF F.ETH_RETRAIN_STATUS_GROUP g).groupShown g 1

theorem active_setRetrainGroup : (s.setF F.ETH_RETRAIN_GROUP g).getF F.ETH_RETRAIN_STATUS_ACTIVE = s.getF F.ETH_RETRAIN_STATUS_ACTIVE :=
  getF_setF_reg_ne (by decide)

/-- A retrain starts once the pending settings of its group are in force. -/
theorem retrain_starts (ha : s.getF F.ETH_RETRAIN_STATUS_ACTIVE = 0) (hs : s.shedAt 4 = false) :
    ∃ u, RegisterFrame s u ∧ s.retrain g = u.retraining g := by
  have ha' : (s.setF F.ETH_RETRAIN_GROUP g).getF F.ETH_RETRAIN_STATUS_ACTIVE ≠ 1 := by
    rw [active_setRetrainGroup, ha]
    decide
  have hs' : ¬(s.setF F.ETH_RETRAIN_GROUP g).shedAt 4 = true := by
    rw [Bool.not_eq_true]
    exact hs
  unfold State.retrain
  extract_lets u f touched v w
  rw [if_neg ha', if_neg hs']
  exact ⟨w, (RegisterFrame.setF s _ _).trans
    ((RegisterFrame.applyGroup u f).trans (.ite (.sealTouch v 18) (.refl v))), rfl⟩

theorem retrain_refused (h : s.getF F.ETH_RETRAIN_STATUS_ACTIVE = 1 ∨ s.shedAt 4 = true) :
    s.retrain g = (s.setF F.ETH_RETRAIN_GROUP g).retrainRefuse (if s.getF F.ETH_RETRAIN_STATUS_ACTIVE = 1 then 1 else 3) := by
  by_cases ha : s.getF F.ETH_RETRAIN_STATUS_ACTIVE = 1
  · rw [if_pos ha]
    exact if_pos (active_setRetrainGroup.trans ha)
  · have hs : (s.setF F.ETH_RETRAIN_GROUP g).shedAt 4 = true := h.resolve_left ha
    rw [if_neg ha]
    exact (if_neg (active_setRetrainGroup.trans_ne ha)).trans (if_pos hs)

theorem retraining_frame : RegisterFrame s (s.retraining g) :=
  ((RegisterFrame.setF _ _ _).trans (.setF _ _ _)).trans groupShown_frame

theorem active_retraining (hg : g < 4) : (s.retraining g).getF F.ETH_RETRAIN_STATUS_ACTIVE = 1 := by
  have ha : GroupApart g F.ETH_RETRAIN_STATUS_ACTIVE := .plain rfl .retrainStatus hg (by decide)
  rw [State.retraining, ha.groupShown, getF_setF_apart _ _ _ _ rfl rfl rfl, getF_setF_same _ _ _ rfl]
  rfl

theorem group_retraining (hg : g < 4) : (s.retraining g).getF F.ETH_RETRAIN_STATUS_GROUP = g := by
  have ha : GroupApart g F.ETH_RETRAIN_STATUS_GROUP := .plain rfl .retrainStatus hg (by decide)
  rw [State.retraining, ha.groupShown, getF_setF_same _ _ _ rfl]
  exact Nat.mod_eq_of_lt hg

theorem groupState_retraining : (s.retraining g).getF (F.ETH_GROUP_STATE_STATE g) = 1 := groupState_groupShown (by decide)

theorem portLanes_retraining : (s.retraining g).getF (F.ETH_GROUP_STATE_PORT_LANES g) = 0 :=
  portLanes_groupShown (by decide) (by decide)

theorem retrainRefuse_frame {r : Nat} : RegisterFrame s ((s.setF F.ETH_RETRAIN_GROUP g).retrainRefuse r) :=
  (RegisterFrame.setF _ _ _).trans (.eventV _ _ _)

theorem retrainRefuse_result {r : Nat} (hr : r < 256) : (s.retrainRefuse r).getF F.ETH_RETRAIN_STATUS_RESULT = r :=
  (getF_eventV_same _ _ _ rfl (by decide)).trans (Nat.mod_eq_of_lt hr)

end

/-! ### A retrain that ends (R17, R391) -/

section
variable {s : State} {g m r : Nat} {below : Prop} [Decidable below]

/-- A group as its retrain leaves it: disabled with too few lanes or by a mismatch, and else up. -/
def State.groupRetrained (s : State) (g : Nat) (below : Prop) [Decidable below] : State :=
  if below then s.groupBelow g
  else s.groupShown g (if s.str.groupOff.contains g then 3 else 2)

/-- The end of a retrain counted and shown with its result. -/
def State.retrainShown (s : State) (r : Nat) : State :=
  ((s.bump F.ETH_CNT_RETRAIN).eventV F.ETH_RETRAIN_STATUS_RESULT r).event F.ETH_STATUS_RETRAIN_DONE

theorem retrained_eq {working : Nat} (h : s.getF F.ETH_RETRAIN_STATUS_ACTIVE = 1) :
    let g := s.getF F.ETH_RETRAIN_STATUS_GROUP
    let m := working &&& s.getF (F.ETH_GROUP_CFG_LANE_EN g)
    s.retrained working = ((((s.setF F.ETH_RETRAIN_STATUS_ACTIVE 0).setWorking g m).groupRetrained g
      (lanes m < s.groupMin g)).retrainShown (if lanes m < s.groupMin g then 2 else 0)) := by
  have h0 : s.getF F.ETH_RETRAIN_STATUS_ACTIVE ≠ 0 := by omega
  exact if_neg h0

theorem groupRetrained_frame : RegisterFrame s (s.groupRetrained g below) :=
  .ite (.groupBelow s g) groupShown_frame

theorem retrainShown_frame : RegisterFrame s (s.retrainShown r) :=
  ((RegisterFrame.bump _ _).trans (.eventV _ _ _)).trans (.event _ _)

theorem GroupApart.groupRetrained {f : Fld} (h : GroupApart g f) : (s.groupRetrained g below).getF f = s.getF f := by
  unfold State.groupRetrained
  split
  · exact h.groupBelow
  · exact h.groupShown

theorem groupState_groupRetrained (hg : g < 4) :
    (s.groupRetrained g below).getF (F.ETH_GROUP_STATE_STATE g) = if below ∨ s.str.groupOff.contains g = true then 3 else 2 := by
  unfold State.groupRetrained
  by_cases hb : below
  · simp only [hb, if_true, true_or]
    exact groupState_groupBelow hg
  · simp only [hb, if_false, false_or]
    refine groupState_groupShown ?_
    split <;> decide

theorem getF_retrainShown_groupState {f : Fld} (hg : g < 4) (hf : f.reg = R.ETH_GROUP_STATE g) :
    (s.retrainShown r).getF f = s.getF f := by
  have hne : ∀ {a}, EthPlain a → a ≠ f.reg := fun ha => hf ▸ (groupState_ne hg ha).symm
  rw [State.retrainShown, getF_event_reg_ne (hne .status), getF_eventV_reg_ne (hne .retrainStatus),
    getF_bump_reg_ne (hne .cntRetrain)]

theorem active_retrainShown : (s.retrainShown r).getF F.ETH_RETRAIN_STATUS_ACTIVE = s.getF F.ETH_RETRAIN_STATUS_ACTIVE := by
  rw [State.retrainShown, getF_event_reg_ne (by decide), getF_eventV_apart _ _ _ _ rfl rfl rfl (.inl (by decide)),
    getF_bump_reg_ne (by decide)]

theorem result_retrainShown (hr : r < 256) : (s.retrainShown r).getF F.ETH_RETRAIN_STATUS_RESULT = r := by
  rw [State.retrainShown, getF_event_reg_ne (by decide), getF_eventV_same _ _ _ rfl (by decide)]
  exact Nat.mod_eq_of_lt hr

theorem done_retrainShown : (s.retrainShown r).getF F.ETH_STATUS_RETRAIN_DONE = 1 := getF_eventV_same _ _ _ rfl (by decide)

end

/-! ### A group trained at start-up (R17, R366) -/

section
variable {s : State} {g m : Nat}

theorem groupUp_trains (hd : s.dev.stream = true) (he : s.groupEnabled g = true) (hs : s.getF (F.ETH_GROUP_STATE_STATE g) < 2) :
    s.groupUp g m = (s.groupTrained g m).envSettle := by
  refine if_neg ?_
  rw [hd, he]
  simpa using hs

/-- A group that a mismatch keeps disabled (R17). -/
def State.groupKeptOff (s : State) (g : Nat) : State :=
  State.groupShown { s with str := { s.str with groupOff := g :: s.str.groupOff.filter (· != g) } } g 3

theorem groupTrained_eq : s.groupTrained g m =
    if lanes m < 8 then ((s.setWorking g m).groupKeptOff g).envRaise 3 g 8 (lanes m) else (s.setWorking g m).groupShown g 2 := rfl

theorem groupKeptOff_served : sameServed s (s.groupKeptOff g) := (sameServed_setStr s _).trans groupShown_frame.served

theorem groupWorking_groupKeptOff (hg : g < 4) : (s.groupKeptOff g).groupWorking g = s.groupWorking g :=
  (GroupApart.working hg).groupShown

/-- What training sets, and that it reaches no engine and no tenant. -/
theorem groupTrained_spec (hg : g < 4) (hm : m < 256) :
    (s.groupTrained g m).groupWorking g = m ∧
    (s.groupTrained g m).getF (F.ETH_GROUP_STATE_STATE g) = (if lanes m < 8 then 3 else 2) ∧ sameServed s (s.groupTrained g m) := by
  have hw : (s.setWorking g m).groupWorking g = m := groupWorking_setWorking hg hm
  have hs : sameServed s (s.setWorking g m) := (RegisterFrame.setWorking s g m).served
  rw [groupTrained_eq]
  split
  · obtain ⟨hserved, heth⟩ := envRaise_frame ((s.setWorking g m).groupKeptOff g) 3 g 8 (lanes m)
    refine ⟨?_, ?_, (hs.trans groupKeptOff_served).trans hserved⟩
    · exact (heth.getF (groupState_block hg)).trans ((groupWorking_groupKeptOff hg).trans hw)
    · exact (heth.getF (groupState_block hg)).trans (groupState_groupShown (by decide))
  · exact ⟨(GroupApart.working hg).groupShown.trans hw, groupState_groupShown (by decide), hs.trans groupShown_frame.served⟩

end

/-! ### The clauses of the obligation -/

theorem laneLost_spec (s : State) (l : Fin 32) (hup : s.getF (F.ETH_LANE_UP l) = 1)
    (hbit : bitAt (s.groupWorking (l / 8)) (l % 8) = true) :
    let g := l.val / 8
    let m := s.groupWorking g - 2 ^ (l.val % 8)
    let t := s.laneLost l
    t.groupWorking g = m ∧ t.getF (F.ETH_LANE_UP l) = 0 ∧
      t.getF F.ETH_CNT_LANE_LOST = (s.getF F.ETH_CNT_LANE_LOST + 1) % 2 ^ 32 ∧ t.getF F.ETH_STATUS_LANE_LOST = 1 ∧
      (s.getF (F.ETH_GROUP_STATE_STATE g) = 2 → lanes m < s.groupMin g → t.getF (F.ETH_GROUP_STATE_STATE g) = 3 ∧
        t.getF (F.ETH_GROUP_STATE_PORT_LANES g) = 0 ∧ t.getF F.ETH_STATUS_GROUP_DISABLED = 1) ∧
      (s.groupMin g ≤ lanes m → t.getF (F.ETH_GROUP_STATE_STATE g) = s.getF (F.ETH_GROUP_STATE_STATE g)) ∧ sameServed s t := by
  intro g m t
  have hl : l.val < 32 := l.isLt
  have hg : g < 4 := by omega
  have hm : m < 256 := (Nat.sub_le _ _).trans_lt (groupWorking_lt s g)
  have ht : t = ((s.laneOut g m).laneJudged g m).report 0x204 18 0xFFFF 0 (g * 256 + lanes m) := laneLost_eq hup
  have heth : SameEth ((s.laneOut g m).laneJudged g m) t := ht ▸ .report _ _ _ _ _ _
  refine ⟨?_, ?_, ?_, ?_, fun hstate hbelow => ?_, fun henough => ?_, ?_⟩
  · rw [State.groupWorking, heth.getF (groupState_block hg), (GroupApart.working hg).laneJudged]
    exact groupWorking_laneOut hg hm
  · rw [heth.getF (lane_block hl), (GroupApart.laneUp hg hl).laneJudged, laneUp_laneOut hl, bitAt_sub_self hbit]
    rfl
  · have ha : GroupApart g F.ETH_CNT_LANE_LOST := .plain rfl .cntLaneLost hg (by decide)
    rw [heth.getF (by decide), ha.laneJudged, count_laneOut hg]
  · rw [heth.getF (by decide), (GroupApart.laneLost hg).laneJudged, shown_laneOut]
  · have hj : (s.laneOut g m).laneJudged g m = (s.laneOut g m).groupBelow g :=
      laneJudged_of_below ((groupState_laneOut hg).trans hstate) (hbelow.trans_eq groupMin_laneOut.symm)
    rw [hj] at heth
    rw [heth.getF (groupState_block hg), heth.getF (groupState_block hg), heth.getF (by decide)]
    exact ⟨groupState_groupBelow hg, portLanes_groupBelow hg, disabled_groupBelow⟩
  · rw [heth.getF (groupState_block hg), groupState_laneJudged_of_enough (groupMin_laneOut.trans_le henough), groupState_laneOut hg]
  · rw [ht]
    exact (laneOut_frame.trans laneJudged_frame).served.trans (sameServed_report _ _ _ _ _ _)

theorem retrained_spec (s : State) (working : Nat) (h : s.getF F.ETH_RETRAIN_STATUS_ACTIVE = 1) :
    let g := s.getF F.ETH_RETRAIN_STATUS_GROUP
    let m := working &&& s.getF (F.ETH_GROUP_CFG_LANE_EN g)
    let t := s.retrained working
    t.getF F.ETH_RETRAIN_STATUS_ACTIVE = 0 ∧ t.groupWorking g = m ∧
      t.getF (F.ETH_GROUP_STATE_STATE g) = (if lanes m < s.groupMin g ∨ s.str.groupOff.contains g = true then 3 else 2) ∧
      t.getF F.ETH_RETRAIN_STATUS_RESULT = (if lanes m < s.groupMin g then 2 else 0) ∧ t.getF F.ETH_STATUS_RETRAIN_DONE = 1 ∧
      sameWork s t ∧ sameDevice s t := by
  intro g m t
  have hg : g < 4 := getF_lt s _
  have hm : m < 256 := Nat.and_le_right.trans_lt (getF_lt s _)
  have hr : (if lanes m < s.groupMin g then 2 else 0) < 256 := by split <;> decide
  have hw : RegisterFrame s ((s.setF F.ETH_RETRAIN_STATUS_ACTIVE 0).setWorking g m) := (RegisterFrame.setF _ _ _).trans (.setWorking _ _ _)
  have ha : GroupApart g F.ETH_RETRAIN_STATUS_ACTIVE := .plain rfl .retrainStatus hg (by decide)
  have hend : ∀ (below : Prop) [Decidable below] r,
      RegisterFrame s ((((s.setF F.ETH_RETRAIN_STATUS_ACTIVE 0).setWorking g m).groupRetrained g below).retrainShown r) :=
    fun _ _ _ => (hw.trans groupRetrained_frame).trans retrainShown_frame
  rw [show t = _ from retrained_eq h]
  refine ⟨?_, ?_, ?_, result_retrainShown hr, done_retrainShown, (hend _ _).work, (hend _ _).device⟩
  · rw [active_retrainShown, ha.groupRetrained, getF_setWorking_plain hg .retrainStatus, getF_setF_same _ _ _ rfl]
    rfl
  · rw [State.groupWorking, getF_retrainShown_groupState hg rfl, (GroupApart.working hg).groupRetrained]
    exact groupWorking_setWorking hg hm
  · rw [getF_retrainShown_groupState hg rfl, groupState_groupRetrained hg, hw.str]

/-- Settles O22: a lost lane, a retrain's start, refusal and end, and a training, each by the lemmas on the fields that it sets. -/
theorem laneGroups : Obligations.LaneGroups := by
  refine ⟨fun s l hup hbit => ⟨_, rfl, laneLost_spec s l hup hbit⟩, ?_, ?_, fun s found h => ⟨_, rfl, retrained_spec s found.toNat h⟩, ?_⟩
  · intro s w m g ⟨hw, hp⟩ ha hs
    obtain ⟨u, hu, he⟩ := retrain_starts (g := g) ha hs
    have ht : exec (.ethRetrain m g) s = .next (u.retraining g) :=
      congrArg Host.Outcome.next ((guardWrite_taken s w m _ _ _ hw hp).trans he)
    exact ⟨_, ht, active_retraining g.isLt, group_retraining g.isLt, groupState_retraining, portLanes_retraining,
      (hu.trans retraining_frame).work, (hu.trans retraining_frame).device⟩
  · intro s w m g ⟨hw, hp⟩ h
    have ht : exec (.ethRetrain m g) s = .next _ :=
      congrArg Host.Outcome.next ((guardWrite_taken s w m _ _ _ hw hp).trans (retrain_refused h))
    refine ⟨_, ht, retrainRefuse_result (by split <;> decide), fun a ha => ?_, retrainRefuse_frame.work, retrainRefuse_frame.device⟩
    simp only [List.mem_cons, List.not_mem_nil, or_false, not_or] at ha
    exact (reg_eventV_ne _ _ _ _ (Ne.symm ha.1)).trans (reg_setF_ne _ _ _ _ (Ne.symm ha.2))
  · intro s g found hd he hs
    obtain ⟨hw, hst, hserved⟩ := groupTrained_spec (s := s) g.isLt found.isLt
    obtain ⟨hsettle, heth⟩ := envSettle_frame (s.groupTrained g found.toNat)
    refine ⟨_, congrArg Host.Outcome.next (groupUp_trains hd he hs), ?_, ?_, hserved.trans hsettle⟩
    · rw [State.groupWorking, heth.getF (groupState_block g.isLt)]
      exact hw
    · rw [heth.getF (groupState_block g.isLt), hst]

end Sys2Proof.Machine
end

section

/-! ## The stream: what its operations touch

The rules of this section serve O16 to O19. Most operations of the stream write a few registers and the state of the
stream, the device, power, time or the Signet, and nothing else: one relation says so. -/

namespace Sys2Proof.Machine

/-! ### Registers that stay -/

namespace regsBut
variable {l : List Nat} {s t u : State}

theorem refl (l : List Nat) (s : State) : regsBut l s s := fun _ _ => rfl

theorem trans (h : regsBut l s t) (k : regsBut l t u) : regsBut l s u := fun a ha => (k a ha).trans (h a ha)

theorem getF {f : Fld} (h : regsBut l s t) (hf : f.reg ∉ l) : t.getF f = s.getF f := getF_of_reg (h _ hf)

end regsBut

/-! ### What the stream's operations leave alone -/

/-- Memory, engines and tenants are as they were, and so is all else but registers, running limits, seals, the device, power,
the stream, time and the Signet. -/
def StreamFrame (s t : State) : Prop :=
  ∃ r p c k d w x z g, t = { s with regs := r, pend := p, since := c, sealOk := k, dev := d, pwr := w, str := x, time := z, sig := g }

namespace StreamFrame
variable {s t u : State}

theorem refl (s : State) : StreamFrame s s := ⟨_, _, _, _, _, _, _, _, _, rfl⟩

theorem trans (h : StreamFrame s t) (k : StreamFrame t u) : StreamFrame s u := by
  obtain ⟨_, _, _, _, _, _, _, _, _, rfl⟩ := h
  obtain ⟨_, _, _, _, _, _, _, _, _, rfl⟩ := k
  exact ⟨_, _, _, _, _, _, _, _, _, rfl⟩

theorem ofRegisters (h : RegisterFrame s t) : StreamFrame s t := by
  obtain ⟨_, _, _, rfl⟩ := h
  exact ⟨_, _, _, _, _, _, _, _, _, rfl⟩

theorem ite {c : Prop} [Decidable c] (h : StreamFrame s t) (k : StreamFrame s u) : StreamFrame s (if c then t else u) := by
  split <;> assumption

theorem foldl {α : Type} {f : State → α → State} (hf : ∀ s x, StreamFrame s (f s x)) (l : List α) (s : State) :
    StreamFrame s (l.foldl f s) := by
  induction l generalizing s with
  | nil => exact refl s
  | cons x xs ih => exact (hf s x).trans (ih _)

theorem mem (h : StreamFrame s t) : t.mem = s.mem := by
  obtain ⟨_, _, _, _, _, _, _, _, _, rfl⟩ := h
  rfl

theorem work (h : StreamFrame s t) : sameWork s t := by
  obtain ⟨_, _, _, _, _, _, _, _, _, rfl⟩ := h
  simp [sameWork, sameBytes, sameEngines, sameTenants]

theorem served (h : StreamFrame s t) : sameServed s t := h.work.2

end StreamFrame

/-- Of the registers no more than those listed are written, and the stream's frame holds. -/
structure StreamWrites (l : List Nat) (s t : State) : Prop where
  regs : regsBut l s t
  frame : StreamFrame s t

namespace StreamWrites
variable {l : List Nat} {s t u : State}

theorem refl (l : List Nat) (s : State) : StreamWrites l s s := ⟨.refl l s, .refl s⟩

theorem trans (h : StreamWrites l s t) (k : StreamWrites l t u) : StreamWrites l s u := ⟨h.regs.trans k.regs, h.frame.trans k.frame⟩

theorem ite {c : Prop} [Decidable c] (h : StreamWrites l s t) (k : StreamWrites l s u) :
    StreamWrites l s (if c then t else u) := by
  split <;> assumption

theorem setF (s : State) {f : Fld} (v : Nat) (hf : f.reg ∈ l) : StreamWrites l s (s.setF f v) :=
  ⟨fun _ ha => reg_setF_ne _ _ _ _ fun e => ha (e ▸ hf), .ofRegisters (.setF _ _ _)⟩

theorem eventV (s : State) {f : Fld} (v : Nat) (hf : f.reg ∈ l) : StreamWrites l s (s.eventV f v) :=
  ⟨fun _ ha => reg_eventV_ne _ _ _ _ fun e => ha (e ▸ hf), .ofRegisters (.eventV _ _ _)⟩

/-- An update of the stream's own state writes no register. -/
theorem setStr (l : List Nat) (s : State) (x : Str) : StreamWrites l s { s with str := x } :=
  ⟨fun _ _ => rfl, ⟨_, _, _, _, _, _, _, _, _, rfl⟩⟩

theorem setPhase (s : State) (p : StrPhase) (h : R.STR_STATUS ∈ l) : StreamWrites l s (s.setPhase p) := .setF s _ h

theorem tabDrop (l : List Nat) (s : State) : StreamWrites l s s.tabDrop := by
  unfold State.tabDrop
  exact .ite ⟨fun _ _ => rfl, ⟨_, _, _, _, _, _, _, _, _, rfl⟩⟩ (.refl l s)

theorem strDoneCode (s : State) (r : Nat) (h : R.STR_STATUS ∈ l) : StreamWrites l s (s.strDoneCode r) :=
  (((tabDrop l s).trans (.setStr l _ _)).trans (.setPhase _ _ h)).trans (.eventV _ _ h)

theorem strDone (s : State) (r : StrResult) (h : R.STR_STATUS ∈ l) : StreamWrites l s (s.strDone r) := strDoneCode s r.code h

theorem strRefuse (s : State) (r : StrResult) (h : R.STR_STATUS ∈ l) : StreamWrites l s (s.strRefuse r) := .eventV s _ h

theorem setDev (s : State) (d : Dev) (h : R.DEV_STATE ∈ l) : StreamWrites l s (s.setDev d) := by
  unfold State.setDev
  extract_lets changed t
  have ht : StreamWrites l s t := ⟨fun _ _ => rfl, ⟨_, _, _, _, _, _, _, _, _, rfl⟩⟩
  exact .ite (ht.trans (.eventV _ _ h)) ht

end StreamWrites

/-! ### The end of a command (R37) -/

section
variable {s : State} {h r v : Nat} {p : StrPhase}

theorem strPhase_setPhase : (s.setPhase p).strPhase = p.code := by
  rw [State.strPhase, State.setPhase, getF_setF_same _ _ _ rfl]
  cases p <;> rfl

theorem strPhase_setResult : (s.eventV F.STR_STATUS_RESULT v).strPhase = s.strPhase :=
  getF_eventV_apart _ _ _ _ rfl rfl rfl (.inl (by decide))

theorem result_setResult : (s.eventV F.STR_STATUS_RESULT v).getF F.STR_STATUS_RESULT = v % 256 := getF_eventV_same _ _ _ rfl (by decide)

theorem StrResult.code_lt (r : StrResult) : r.code < 256 := by cases r <;> decide

theorem result_strRefuse (r : StrResult) : (s.strRefuse r).getF F.STR_STATUS_RESULT = r.code :=
  result_setResult.trans (Nat.mod_eq_of_lt r.code_lt)

theorem result_strDoneCode : (s.strDoneCode r).getF F.STR_STATUS_RESULT = r % 256 := result_setResult

theorem result_strDone (r : StrResult) : (s.strDone r).getF F.STR_STATUS_RESULT = r.code :=
  result_setResult.trans (Nat.mod_eq_of_lt r.code_lt)

theorem strPhase_strDoneCode : (s.strDoneCode r).strPhase = 7 := strPhase_setResult.trans strPhase_setPhase

theorem str_strDoneCode : (s.strDoneCode r).str =
    { s.tabDrop.str with cmd := none, image := [], halls := [], touched := false, refused := 0, tables := [] } := rfl

theorem cmd_strDone (r : StrResult) : (s.strDone r).str.cmd = none := rfl

theorem strPhase_strDone (r : StrResult) : (s.strDone r).strPhase = 7 := strPhase_strDoneCode

/-- Where no table entry waits for its boundary, the end of a command gives up none. -/
theorem tabDrop_of_no_wait (hw : s.str.tabWait = false) : s.tabDrop = s := by
  rw [State.tabDrop, hw]
  rfl

/-- What a table that is given up leaves of the stream's state: all but the tables in force. -/
theorem str_tabDrop : ∃ w t, s.tabDrop.str = { s.str with tabWait := w, tabs := t } := by
  unfold State.tabDrop
  split
  · exact ⟨_, _, rfl⟩
  · exact ⟨_, _, rfl⟩

end

/-! ### Registers of a hall -/

/-- Fields of one register with their bits in order. -/
theorem Fld.apart_of_bits {f g : Fld} (h : g.hi < f.lo ∨ f.hi < g.lo) : f.apart g = true := by
  rcases h with h | h <;> simp [Fld.apart, h]

section
variable {s t : State} {h : Nat}

theorem hall_ne_status : R.STR_HALL h ≠ R.STR_STATUS := by
  simp only [R.STR_HALL, R.STR_STATUS]
  omega

theorem hall_ne_cmd : R.STR_HALL h ≠ R.STR_CMD := by
  simp only [R.STR_HALL, R.STR_CMD]
  omega

theorem hall_ne_link (hh : h < 12) (p : Nat) : R.STR_HALL h ≠ R.HST_LINK p := by
  simp only [R.STR_HALL, R.HST_LINK]
  omega

theorem hall_not_mem_command : R.STR_HALL h ∉ [R.STR_STATUS, R.STR_CMD] := by
  simp [hall_ne_status, hall_ne_cmd]

theorem hallPaused_of_reg (hr : t.reg (R.STR_HALL h) = s.reg (R.STR_HALL h)) : t.hallPaused h = s.hallPaused h := by
  rw [State.hallPaused, State.hallPaused, getF_of_reg hr]

theorem activeBank_of (hr : t.getF (F.STR_HALL_ACTIVE_BANK h) = s.getF (F.STR_HALL_ACTIVE_BANK h))
    (h0 : t.str.banks0 = s.str.banks0) (h1 : t.str.banks1 = s.str.banks1) : t.activeBank h = s.activeBank h := by
  simp only [State.activeBank, hr, h0, h1]

theorem banks_strDoneCode {r : Nat} :
    (s.strDoneCode r).str.banks0 = s.str.banks0 ∧ (s.strDoneCode r).str.banks1 = s.str.banks1 := by
  obtain ⟨w, t, he⟩ := str_tabDrop (s := s)
  rw [str_strDoneCode, he]
  exact ⟨rfl, rfl⟩

theorem getF_strDoneCode_hall {r : Nat} {f : Fld} (hf : f.reg = R.STR_HALL h) : (s.strDoneCode r).getF f = s.getF f :=
  (StreamWrites.strDoneCode (l := [R.STR_STATUS]) s r List.mem_cons_self).regs.getF (by simp [hf, hall_ne_status])

end

/-! ### A write to the stream's command registers that is taken -/

section
variable {s w t : State} {m : Master} {a : Nat}

theorem writeAt_eq (h : s.writeAt m a = some w) : w = s.wakeMaster m := by
  unfold State.writeAt at h
  split at h
  · cases h
  · split at h
    · cases h
    · extract_lets w' at h
      split at h
      · exact (Option.some.inj h).symm
      · cases h

/-- The write pauses no hall and resumes none. -/
theorem hallPaused_taken (ht : taken s w m a) {h : Nat} (hh : h < 12) : w.hallPaused h = s.hallPaused h := by
  rw [writeAt_eq ht.1]
  exact hallPaused_of_reg (wakeMaster_reg s m _ fun p _ => hall_ne_link hh p)

/-- Where no hall's pause ends, nothing resumes. -/
theorem resumed_of_pauses (h : ∀ h < 12, t.hallPaused h = s.hallPaused h) : t.resumed s = t := by
  have hn : (List.range 12).find? (fun h => s.hallPaused h && !t.hallPaused h) = none := by
    refine List.find?_eq_none.2 fun k hk => ?_
    rw [h k (List.mem_range.1 hk)]
    simp
  rw [State.resumed, hn]

theorem resumed_of_command (ht : taken s w m a) (hr : regsBut [R.STR_STATUS, R.STR_CMD] w t) : t.resumed s = t :=
  resumed_of_pauses fun _ hh => (hallPaused_of_reg (hr _ hall_not_mem_command)).trans (hallPaused_taken ht hh)

end

end Sys2Proof.Machine
end

section

/-! ## O16: STR commands start and are cancelled -/

namespace Sys2Proof.Machine

/-! ### A start (R32, R37, R38) -/

/-- The result with which a start is refused, and none for one that nothing stands against. -/
def State.startRefusal (w : State) (op : StrOp) : Option StrResult :=
  if w.str.cmd.isSome then some .busy
  else if op = .restream ∧ w.dev.st = .shedding ∨ op = .loadFull ∧ w.dev.stream = true then some .deviceState
  else if 96 * 2 ^ 20 < w.reg R.STR_SRC_LEN then some .headerBad
  else if w.strSrc % 4096 ≠ 0 then some .fetchFault else none

/-- A command that fetches, with FORCE_CLEAR and the port that serves it. -/
def State.fetching (w : State) (op : StrOp) (force : Bool) (port : Nat) : State :=
  ({ w with str := { w.str with cmd := some (op, force, port), image := [], halls := [], touched := false, refused := 0,
                                tables := [] } }.setPhase .fetch).setF F.STR_STATUS_HALL 0

/-- FORCE_CLEAR as the command register shows it. -/
def State.forceShown (w : State) (force : Bool) : State := w.setF F.STR_CMD_FORCE_CLEAR (b2n force)

section
variable {s w t : State} {m : Master} {op : StrOp} {force : Bool} {port : Nat} {r : StrResult}

theorem strStart_eq : w.strStart m op force =
    ((w.forceShown force).startRefusal op).elim ((w.forceShown force).fetching op force ((w.forceShown force).cmdPort m))
      (w.forceShown force).strRefuse := by
  unfold State.strStart
  extract_lets u
  change _ = (u.startRefusal op).elim (u.fetching op force (u.cmdPort m)) u.strRefuse
  clear_value u
  unfold State.startRefusal
  rw [ite_or]
  split_ifs <;> rfl

theorem reg_forceShown {a : Nat} (h : R.STR_CMD ≠ a) : (w.forceShown force).reg a = w.reg a := reg_setF_ne _ _ _ _ h

theorem startRefusal_forceShown : (w.forceShown force).startRefusal op = w.startRefusal op := by
  have hsrc : (w.forceShown force).strSrc = w.strSrc := by
    rw [State.strSrc, reg_forceShown (by decide), reg_forceShown (by decide)]
    rfl
  rw [State.startRefusal, hsrc, reg_forceShown (by decide)]
  rfl

/-- The port of a command depends on the privileged ports and on the links (R263). -/
theorem cmdPort_of (hd : t.dev = s.dev) (hp : t.reg R.DEV_PRIV_PORTS = s.reg R.DEV_PRIV_PORTS)
    (hl : ∀ p, t.reg (R.HST_LINK p) = s.reg (R.HST_LINK p)) : t.cmdPort m = s.cmdPort m := by
  have hpriv : t.privPorts = s.privPorts := by
    rw [State.privPorts, State.privPorts, hd, getF_of_reg hp]
  have hlink : ∀ p, t.linkUp p 0 = s.linkUp p 0 := fun p => by
    rw [State.linkUp, State.linkUp, if_pos rfl, getF_of_reg (hl p)]
  cases m <;> simp only [State.cmdPort, hpriv, hlink]

theorem cmdPort_forceShown : (w.forceShown force).cmdPort m = w.cmdPort m :=
  cmdPort_of rfl (reg_forceShown (by decide)) fun p => reg_forceShown (by simp only [R.STR_CMD, R.HST_LINK]; omega)

theorem strStart_of_accepted (h : w.startRefusal op = none) :
    w.strStart m op force = (w.forceShown force).fetching op force (w.cmdPort m) := by
  rw [strStart_eq, startRefusal_forceShown, h, cmdPort_forceShown]
  rfl

theorem strStart_of_refused (h : w.startRefusal op = some r) : w.strStart m op force = (w.forceShown force).strRefuse r := by
  rw [strStart_eq, startRefusal_forceShown, h]
  rfl

theorem forceShown_writes : StreamWrites [R.STR_STATUS, R.STR_CMD] w (w.forceShown force) := .setF _ _ (by decide)

theorem fetching_writes : StreamWrites [R.STR_STATUS, R.STR_CMD] w (w.fetching op force port) :=
  ((StreamWrites.setStr _ _ _).trans (.setPhase _ _ (by decide))).trans (.setF _ _ (by decide))

theorem force_forceShown : (w.forceShown force).getF F.STR_CMD_FORCE_CLEAR = b2n force := by
  rw [State.forceShown, getF_setF_same _ _ _ rfl]
  cases force <;> rfl

theorem force_fetching : (w.fetching op force port).getF F.STR_CMD_FORCE_CLEAR = w.getF F.STR_CMD_FORCE_CLEAR :=
  (getF_setF_reg_ne (by decide)).trans (getF_setF_reg_ne (by decide))

theorem strPhase_fetching : (w.fetching op force port).strPhase = 1 :=
  (getF_setF_apart _ _ _ _ rfl rfl rfl).trans strPhase_setPhase

theorem hall_fetching : (w.fetching op force port).getF F.STR_STATUS_HALL = 0 := getF_setF_same _ _ _ rfl

/-- The commands that fetch, with the operation and FORCE_CLEAR of each. -/
theorem exec_start {c : Instr} {f : Bool} (ht : taken s w m R.STR_CMD)
    (hc : (c, op, f) ∈ [(Instr.writeSlot m, StrOp.writeSlot, false), (.restream m force, .restream, force),
      (.verifyOnly m force, .verifyOnly, force), (.loadFull m, .loadFull, false)]) :
    exec c s = .next (w.strStart m op f) := by
  simp only [List.mem_cons, List.not_mem_nil, or_false, Prod.mk.injEq] at hc
  obtain ⟨hw, hp⟩ := ht
  rcases hc with ⟨rfl, rfl, rfl⟩ | ⟨rfl, rfl, rfl⟩ | ⟨rfl, rfl, rfl⟩ | ⟨rfl, rfl, rfl⟩
  all_goals exact congrArg Host.Outcome.next (guardWrite_taken _ _ _ _ _ _ hw hp)

end

/-! ### CANCEL (R39) -/

section
variable {s w : State} {m : Master} {h : Nat} {l : List Nat}

theorem exec_strCancel (ht : taken s w m R.STR_CMD) : exec (.strCancel m) s = .next (w.strCancel.resumed s) := by
  obtain ⟨hw, hp⟩ := ht
  exact congrArg (fun t : State => Host.Outcome.next (t.resumed s)) (guardWrite_taken _ _ _ _ _ _ hw hp)

theorem strCancel_idle (hc : w.str.cmd = none) : w.strCancel = w.forceShown false := by
  unfold State.strCancel
  extract_lets u
  have hu : u.str.cmd = none := hc
  simp only [hu]
  rfl

theorem strCancel_switched {f : Bool} {p : Nat} (hc : w.str.cmd = some (.restream, f, p)) (hh : w.str.halls = [])
    (ht : w.str.touched = true) : w.strCancel = (w.forceShown false).strRefuse .alreadyDone := by
  unfold State.strCancel
  extract_lets u
  have hu : u.str.cmd = some (.restream, f, p) := hc
  have hs : u.str.halls.isEmpty = true ∧ u.str.touched = true := ⟨by rw [show u.str.halls = [] from hh]; rfl, ht⟩
  simp only [hu, hs, and_self, if_true]
  rfl

/-- Before the last SWITCH a running command ends. -/
theorem strCancel_running (hc : w.str.cmd ≠ none) (hn : w.str.halls ≠ [] ∨ w.str.touched = false) :
    w.strCancel = (w.forceShown false).strAbort (fun _ => true) .cancelled := by
  obtain ⟨⟨op, f, p⟩, he⟩ := Option.ne_none_iff_exists'.1 hc
  unfold State.strCancel
  extract_lets u
  have hu : u.str.cmd = some (op, f, p) := he
  have hs : ¬(op = .restream ∧ u.str.halls.isEmpty = true ∧ u.str.touched = true) := by
    rintro ⟨-, h1, h2⟩
    rcases hn with hn | hn
    · exact hn (List.isEmpty_iff.1 h1)
    · exact absurd (hn.symm.trans h2) (by decide)
  simp only [hu, if_neg hs]
  rfl

/-- A command that is aborted ends, and the hall that it processes is no longer paused. -/
theorem strAbort_running {r : StrResult} (hc : w.str.cmd ≠ none) : w.strAbort (fun _ => true) r =
    (w.str.halls.head?.elim w fun h => w.setF (F.STR_HALL_PAUSED h) 0).strDone r := by
  obtain ⟨⟨op, f, p⟩, he⟩ := Option.ne_none_iff_exists'.1 hc
  unfold State.strAbort
  simp only [he]
  cases w.str.halls.head? <;> rfl

theorem strCancel_before_halls (hc : w.str.cmd ≠ none) (hh : w.str.halls = []) (ht : w.str.touched = false) :
    w.strCancel = (w.forceShown false).strDone .cancelled := by
  rw [strCancel_running hc (.inr ht), strAbort_running (w := w.forceShown false) hc, show (w.forceShown false).str.halls = [] from hh]
  rfl

theorem strCancel_in_hall (hc : w.str.cmd ≠ none) (hh : w.str.halls = h :: l) :
    w.strCancel = ((w.forceShown false).setF (F.STR_HALL_PAUSED h) 0).strDone .cancelled := by
  rw [strCancel_running hc (.inl (by simp [hh])), strAbort_running (w := w.forceShown false) hc, show (w.forceShown false).str.halls = h :: l from hh]
  rfl

theorem activeBank_forceShown {f : Bool} : (w.forceShown f).activeBank h = w.activeBank h :=
  activeBank_of (getF_setF_reg_ne hall_ne_cmd.symm) rfl rfl

/-- The hall's pause ends, and its bank stays. -/
theorem activeBank_setPaused {v : Nat} : (w.setF (F.STR_HALL_PAUSED h) v).activeBank h = w.activeBank h :=
  activeBank_of (getF_setF_apart _ _ _ _ rfl rfl (Fld.apart_of_bits (.inr (by decide : 0 < 8)))) rfl rfl

theorem activeBank_strDoneCode {r : Nat} : (w.strDoneCode r).activeBank h = w.activeBank h :=
  activeBank_of (getF_strDoneCode_hall rfl) banks_strDoneCode.1 banks_strDoneCode.2

end

/-! ### The clauses of the obligation -/

section
variable {s w : State} {m : Master} {op : StrOp} {force : Bool} {c : Instr}

theorem start_accepted (he : exec c s = .next (w.strStart m op force)) (hn : w.startRefusal op = none) :
    ∃ t, exec c s = .next t ∧ t.str.cmd = some (op, force, w.cmdPort m) ∧ t.strPhase = 1 ∧ t.getF F.STR_STATUS_HALL = 0 ∧
      t.getF F.STR_CMD_FORCE_CLEAR = b2n force ∧ regsBut [R.STR_STATUS, R.STR_CMD] w t ∧ t = { w with str := t.str, regs := t.regs } := by
  rw [strStart_of_accepted hn] at he
  exact ⟨_, he, rfl, strPhase_fetching, hall_fetching, force_fetching.trans force_forceShown,
    (forceShown_writes.trans fetching_writes).regs, rfl⟩

theorem start_refused {r : StrResult} (he : exec c s = .next (w.strStart m op force)) (hr : w.startRefusal op = some r) :
    ∃ t, exec c s = .next t ∧ t.getF F.STR_STATUS_RESULT = r.code ∧ regsBut [R.STR_STATUS, R.STR_CMD] w t ∧
      t = { w with regs := t.regs } := by
  rw [strStart_of_refused hr] at he
  exact ⟨_, he, result_strRefuse r, (forceShown_writes.trans (.strRefuse _ r (by decide))).regs, rfl⟩

theorem cancel_in_hall (s w : State) (m : Master) (h : Nat) (l : List Nat) (ht : taken s w m R.STR_CMD) (hc : w.str.cmd ≠ none)
    (hh : w.str.halls = h :: l) : ∃ u : State, exec (.strCancel m) s = .next (u.resumed s) ∧ u.str.cmd = none ∧ u.strPhase = 7 ∧
      u.getF F.STR_STATUS_RESULT = StrResult.cancelled.code ∧ u.hallPaused h = false ∧ u.activeBank h = w.activeBank h ∧
      regsBut [R.STR_STATUS, R.STR_CMD, R.STR_HALL h] w u ∧ sameWork w u := by
  have he := exec_strCancel ht
  rw [strCancel_in_hall hc hh] at he
  have hw : StreamWrites [R.STR_STATUS, R.STR_CMD, R.STR_HALL h] w
      (((w.forceShown false).setF (F.STR_HALL_PAUSED h) 0).strDone .cancelled) :=
    ((StreamWrites.setF _ _ (by simp [F.STR_CMD_FORCE_CLEAR])).trans (.setF _ _ (by simp [F.STR_HALL_PAUSED]))).trans
      (.strDone _ _ (by simp))
  refine ⟨_, he, cmd_strDone _, strPhase_strDone _, result_strDone _, ?_, ?_, hw.regs, hw.frame.work⟩
  · rw [State.hallPaused, State.strDone, getF_strDoneCode_hall rfl, getF_setF_same _ _ _ rfl]
    rfl
  · rw [State.strDone, activeBank_strDoneCode, activeBank_setPaused, activeBank_forceShown]

end

/-- Settles O16: a start by its refusal, and CANCEL by where the command stands; where no pause ends, nothing resumes. -/
theorem streamCommandsStart : Obligations.StreamCommandsStart := by
  refine ⟨fun s w m force ht c op f hc => ?_, fun s w m ht hc => ?_, fun s w m ht hc hh hn => ?_,
    fun s w m h l ht hc hh _ => cancel_in_hall s w m h l ht hc hh, fun s w m f p ht hc hh hn => ?_⟩
  · have he : exec c s = .next (w.strStart m op f) := exec_start ht hc
    exact ⟨start_accepted he, fun _ => start_refused he⟩
  · rw [exec_strCancel ht, strCancel_idle hc, resumed_of_command ht forceShown_writes.regs]
    rfl
  · have hw : StreamWrites [R.STR_STATUS, R.STR_CMD] w ((w.forceShown false).strDone .cancelled) :=
      forceShown_writes.trans (.strDone _ _ (by decide))
    rw [exec_strCancel ht, strCancel_before_halls hc hh hn, resumed_of_command ht hw.regs]
    exact ⟨_, rfl, cmd_strDone _, strPhase_strDone _, result_strDone _, hw.regs, hw.frame.work⟩
  · have hw : StreamWrites [R.STR_STATUS, R.STR_CMD] w ((w.forceShown false).strRefuse .alreadyDone) :=
      forceShown_writes.trans (.strRefuse _ _ (by decide))
    rw [exec_strCancel ht, strCancel_switched hc hh hn, resumed_of_command ht hw.regs]
    exact ⟨_, rfl, result_strRefuse _, rfl, hw.regs, hw.frame.work⟩

end Sys2Proof.Machine
end

section

/-! ## O17: a fetched image is judged -/

namespace Sys2Proof.Machine

/-! ### FETCH (R22, R23, R29 to R31, R37) -/

/-- The image as a command's port reads it from host memory. -/
def State.fetchedImage (s : State) (port : Nat) : List Byte := s.mem.read ((Space.pf0 port).at s.strSrc) (s.reg R.STR_SRC_LEN)

/-- An image that FETCH has staged for VERIFY. -/
def State.staged (s : State) (img : List Byte) : State := { s with str := { s.str with image := img } }.setPhase .verify

section
variable {s : State} {op : StrOp} {f : Bool} {p : Fin 4}

/-- What FETCH does once its command's port is known. -/
theorem strFetched_eq (hc : s.str.cmd = some (op, f, p.val)) (hp : s.strPhase = 1) (h0 : s.hallPaused 0 = false) :
    s.strFetched = if s.canDma (.pf0 p) = true then
      (if s.strCheck op f (s.fetchedImage p) = .ok then s.staged (s.fetchedImage p)
        else s.strDone (s.strCheck op f (s.fetchedImage p)))
      else s.strDone .fetchFault := by
  have hport : ∀ h, (⟨p.val % 4, h⟩ : Fin 4) = p := fun _ => Fin.ext (Nat.mod_eq_of_lt p.isLt)
  unfold State.strFetched
  split
  next hn => exact absurd (hc.symm.trans hn) (Option.some_ne_none _)
  next op' f' port hs =>
    obtain ⟨rfl, rfl, rfl⟩ : op = op' ∧ f = f' ∧ p.val = port := by simpa using hc.symm.trans hs
    rw [if_neg (by simp [hp, h0]), hport]
    by_cases hd : s.canDma (.pf0 p) = true
    · rw [if_neg (by simp [hd]), if_pos hd]
      by_cases hk : s.strCheck op f (s.fetchedImage p) = .ok
      · rw [if_pos hk]
        extract_lets img
        split
        next => rfl
        next hn => exact absurd hk hn
      · rw [if_neg hk]
        extract_lets img
        split
        next h => exact absurd h hk
        next => rfl
    · rw [if_pos (by simpa using hd), if_neg hd]

theorem staged_writes {img : List Byte} : StreamWrites [R.STR_STATUS] s (s.staged img) :=
  (StreamWrites.setStr _ _ _).trans (.setPhase _ _ List.mem_cons_self)

end

/-! ### VERIFY (R24, R28, R38, R42) -/

section
variable {s : State} {op : StrOp} {f ok : Bool} {p : Nat} {accel : BitVec 8}

/-- A failed signature is posted, and the Signet shows it for all commands but VERIFY_ONLY (R38). -/
theorem strVerified_signatureBad (hc : s.str.cmd = some (op, f, p)) (hp : s.strPhase = 2) (h : (ok && sigBlockOk s.str.image) = false) :
    s.strVerified ok accel = if op = .verifyOnly then s.strDone .signatureBad
      else (s.strDone .signatureBad).event F.SIG_STATUS_VERIFY_FAIL := by
  have hbad : (!ok) = true ∨ (!sigBlockOk s.str.image) = true := by
    rcases Bool.and_eq_false_iff.1 h with h | h
    · exact .inl (by rw [h]; rfl)
    · exact .inr (by rw [h]; rfl)
  unfold State.strVerified
  simp only [hc]
  rw [if_neg (not_not_intro hp), if_pos hbad]

theorem strVerified_crcBad (hc : s.str.cmd = some (op, f, p)) (hp : s.strPhase = 2) (hs : sigBlockOk s.str.image = true)
    (hk : crcsOk s.str.image = false) : s.strVerified true accel = s.strDone .crcBad := by
  unfold State.strVerified
  simp [hc, hp, hs, hk]

/-- Nothing stands against the image: its signature block and CRCs are right, and it replaces no profile in use. -/
structure State.Passes (s : State) : Prop where
  phase : s.strPhase = 2
  block : sigBlockOk s.str.image = true
  crcs : crcsOk s.str.image = true
  profiles : isFull s.str.image = true ∨ (tablesOf s.str.image).any s.profileBlocked = false

theorem State.Passes.profileFree (h : s.Passes) : (!isFull s.str.image && (tablesOf s.str.image).any s.profileBlocked) = false := by
  rcases h.profiles with h | h <;> simp [h]

theorem strVerified_verifyOnly (hc : s.str.cmd = some (.verifyOnly, f, p)) (h : s.Passes) : s.strVerified true accel = s.strDone .ok := by
  simp [State.strVerified, hc, h.phase, h.block, h.crcs, h.profileFree]

theorem strVerified_writeSlot (hc : s.str.cmd = some (.writeSlot, f, p)) (h : s.Passes) :
    s.strVerified true accel = (s.setSlotValid s.spareSlot 0).setSlotImage s.spareSlot s.str.image := by
  simp [State.strVerified, hc, h.phase, h.block, h.crcs, h.profileFree]

theorem strVerified_loadFull (hc : s.str.cmd = some (.loadFull, f, p)) (h : s.Passes) :
    s.strVerified true accel = (s.loadFull s.str.image accel).strDone .ok := by
  simp [State.strVerified, hc, h.phase, h.block, h.crcs, h.profileFree]

/-- A restream takes its halls and table entries from the image, and goes on to the first hall. -/
def State.restreamed (s : State) : State :=
  { s with str := { s.str with halls := hallsIn s.str.image, tables := tablesOf s.str.image } }.setPhase .resume

theorem strVerified_restream (hc : s.str.cmd = some (.restream, f, p)) (h : s.Passes) : s.strVerified true accel = s.restreamed.nextHall := by
  simp [State.strVerified, State.restreamed, hc, h.phase, h.block, h.crcs, h.profileFree]

/-- A hall that begins SHADOW is shown. -/
def State.hallBegun (s : State) (h : Nat) : State := (s.setPhase .shadow).setF F.STR_STATUS_HALL h

theorem nextHall_cons {h : Nat} {l : List Nat} (hc : s.str.cmd ≠ none) (hp : s.strPhase ≠ 1) (hh : s.str.halls = h :: l) :
    s.nextHall = s.hallBegun h := by
  obtain ⟨c, hc⟩ := Option.ne_none_iff_exists'.1 hc
  simp [State.nextHall, State.hallBegun, hc, hp, hh]

theorem strPhase_hallBegun {h : Nat} : (s.hallBegun h).strPhase = 3 :=
  (getF_setF_apart _ _ _ _ rfl rfl rfl).trans strPhase_setPhase

theorem hallBegun_writes {h : Nat} : StreamWrites [R.STR_STATUS] s (s.hallBegun h) :=
  (StreamWrites.setPhase _ _ List.mem_cons_self).trans (.setF _ _ List.mem_cons_self)

theorem restreamed_writes : StreamWrites [R.STR_STATUS] s s.restreamed :=
  (StreamWrites.setStr _ _ _).trans (.setPhase _ _ List.mem_cons_self)

end

/-! ### The stream slots (R34) -/

section
variable {s : State} {k v : Nat}

/-- The field that shows whether a slot is valid. -/
def slotValidF (k : Nat) : Fld := if k = 0 then F.STR_BOOT_SLOT_A_VALID else F.STR_BOOT_SLOT_B_VALID

theorem slotValidF_ok : (slotValidF k).ok = true := by unfold slotValidF; split <;> rfl

theorem slotValidF_reg : (slotValidF k).reg = R.STR_BOOT_SLOT := by unfold slotValidF; split <;> rfl

theorem slotValid_setSlotValid (hv : v < 2) : (s.setSlotValid k v).slotValid k = (v == 1) := by
  have hw : (slotValidF k).hi + 1 - (slotValidF k).lo = 1 := by unfold slotValidF; split <;> rfl
  have hg : (s.setF (slotValidF k) v).getF (slotValidF k) = v := by
    rw [getF_setF_same _ _ _ slotValidF_ok, hw]
    exact Nat.mod_eq_of_lt hv
  exact congrArg (· == 1) hg

theorem slotValid_of_reg {t : State} (h : t.reg R.STR_BOOT_SLOT = s.reg R.STR_BOOT_SLOT) : t.slotValid k = s.slotValid k :=
  congrArg (· == 1) (getF_of_reg (g := slotValidF k) (by rw [slotValidF_reg, h]))

theorem setSlotValid_writes {l : List Nat} (h : R.STR_BOOT_SLOT ∈ l) : StreamWrites l s (s.setSlotValid k v) :=
  .setF s (f := slotValidF k) v (by rwa [slotValidF_reg])

theorem setSlotImage_writes {l : List Nat} {img : List Byte} : StreamWrites l s (s.setSlotImage k img) :=
  .ite (.setStr l s _) (.setStr l s _)

theorem slotImage_setSlotImage {img : List Byte} : (s.setSlotImage k img).slotImage k = img := by
  unfold State.slotImage State.setSlotImage
  split <;> rfl

theorem regs_setSlotImage {img : List Byte} : (s.setSlotImage k img).regs = s.regs := by
  unfold State.setSlotImage
  split <;> rfl

theorem cmd_setSlotImage {img : List Byte} : (s.setSlotImage k img).str.cmd = s.str.cmd := by
  unfold State.setSlotImage
  split <;> rfl

/-- What STREAM_SLOT_WRITTEN leaves of a slot that reads back, or does not. -/
theorem slotWritten_eq {f ok : Bool} {p : Nat} (hc : s.str.cmd = some (.writeSlot, f, p)) (hp : s.strPhase = 2)
    (hi : s.slotImage s.spareSlot = s.str.image) :
    s.slotWritten ok = if ok = true then (s.setSlotValid s.spareSlot 1).strDone .ok else s.strDone .crcBad := by
  have hn : ¬(s.strPhase ≠ 2 ∨ s.slotImage s.spareSlot ≠ s.str.image) := by simp [hp, hi]
  unfold State.slotWritten
  simp only [hc]
  rw [if_neg hn]

end

/-! ### The clauses of the obligation -/

theorem fetch_judged (s : State) (op : StrOp) (f : Bool) (p : Fin 4) (hc : s.str.cmd = some (op, f, p.val)) (hp : s.strPhase = 1)
    (h0 : s.hallPaused 0 = false) (hd : s.canDma (.pf0 p) = true) :
    let img := s.mem.read ((Space.pf0 p).at s.strSrc) (s.reg R.STR_SRC_LEN)
    ∃ t, exec .strFetchDone s = .next t ∧ regsBut [R.STR_STATUS] s t ∧ sameWork s t ∧
      (s.strCheck op f img = .ok → t.str = { s.str with image := img } ∧ t.strPhase = 2) ∧
      (s.strCheck op f img ≠ .ok → t.str.cmd = none ∧ t.strPhase = 7 ∧ t.getF F.STR_STATUS_RESULT = (s.strCheck op f img).code) := by
  intro img
  have he : s.strFetched = if s.strCheck op f img = .ok then s.staged img else s.strDone (s.strCheck op f img) :=
    (strFetched_eq hc hp h0).trans (if_pos hd)
  by_cases hk : s.strCheck op f img = .ok
  · rw [if_pos hk] at he
    exact ⟨_, congrArg Host.Outcome.next he, staged_writes.regs, staged_writes.frame.work, fun _ => ⟨rfl, strPhase_setPhase⟩,
      fun hn => absurd hk hn⟩
  · rw [if_neg hk] at he
    have hw : StreamWrites [R.STR_STATUS] s (s.strDone (s.strCheck op f img)) := .strDone _ _ List.mem_cons_self
    exact ⟨_, congrArg Host.Outcome.next he, hw.regs, hw.frame.work, fun hn => absurd hn hk,
      fun _ => ⟨cmd_strDone _, strPhase_strDone _, result_strDone _⟩⟩

theorem fetch_fault (s : State) (op : StrOp) (f : Bool) (p : Fin 4) (hc : s.str.cmd = some (op, f, p.val)) (hp : s.strPhase = 1)
    (h0 : s.hallPaused 0 = false) (hd : s.canDma (.pf0 p) = false) :
    ∃ t, exec .strFetchDone s = .next t ∧ t.str.cmd = none ∧ t.getF F.STR_STATUS_RESULT = StrResult.fetchFault.code ∧
      regsBut [R.STR_STATUS] s t ∧ sameWork s t := by
  have he : s.strFetched = s.strDone .fetchFault := (strFetched_eq hc hp h0).trans (if_neg (by simp [hd]))
  have hw : StreamWrites [R.STR_STATUS] s (s.strDone .fetchFault) := .strDone _ _ List.mem_cons_self
  exact ⟨_, congrArg Host.Outcome.next he, cmd_strDone _, result_strDone _, hw.regs, hw.frame.work⟩

section
variable {s : State} {op : StrOp} {f : Bool} {p : Nat} {accel : BitVec 8}

theorem verify_signatureBad (hc : s.str.cmd = some (op, f, p)) (hp : s.strPhase = 2) (ok : Bool)
    (h : (ok && sigBlockOk s.str.image) = false) : ∃ t, exec (.strSignaturesVerified ok accel) s = .next t ∧ t.str.cmd = none ∧
      t.getF F.STR_STATUS_RESULT = StrResult.signatureBad.code ∧ (op ≠ .verifyOnly → t.getF F.SIG_STATUS_VERIFY_FAIL = 1) ∧
      regsBut (R.STR_STATUS :: if op = .verifyOnly then [] else [R.SIG_STATUS]) s t ∧ sameWork s t := by
  have he := strVerified_signatureBad (accel := accel) hc hp h
  by_cases ho : op = .verifyOnly
  · rw [if_pos ho] at he
    have hw : StreamWrites [R.STR_STATUS] s (s.strDone .signatureBad) := .strDone _ _ List.mem_cons_self
    rw [if_pos ho]
    exact ⟨_, congrArg Host.Outcome.next he, cmd_strDone _, result_strDone _, fun hn => absurd ho hn, hw.regs, hw.frame.work⟩
  · rw [if_neg ho] at he
    have hw : StreamWrites [R.STR_STATUS, R.SIG_STATUS] s ((s.strDone .signatureBad).event F.SIG_STATUS_VERIFY_FAIL) :=
      (StreamWrites.strDone _ _ (by decide)).trans (.eventV _ _ (by decide))
    rw [if_neg ho]
    refine ⟨_, congrArg Host.Outcome.next he, ?_, ?_, fun _ => getF_eventV_same _ _ _ rfl (by decide), hw.regs,
      hw.frame.work⟩
    · rw [State.event_str, cmd_strDone]
    · rw [getF_event_reg_ne (by decide), result_strDone]

theorem verify_ended {r : StrResult} {t : State} (he : s.strVerified true accel = t) (ht : t = s.strDone r) :
    ∃ t, exec (.strSignaturesVerified true accel) s = .next t ∧ t.str.cmd = none ∧ t.strPhase = 7 ∧
      t.getF F.STR_STATUS_RESULT = r.code ∧ regsBut [R.STR_STATUS] s t ∧ sameWork s t := by
  have hw : StreamWrites [R.STR_STATUS] s (s.strDone r) := .strDone _ _ List.mem_cons_self
  exact ⟨_, congrArg Host.Outcome.next (he.trans ht), cmd_strDone _, strPhase_strDone _, result_strDone _, hw.regs, hw.frame.work⟩

theorem verify_writeSlot (hc : s.str.cmd = some (.writeSlot, f, p)) (h : s.Passes) :
    ∃ t, exec (.strSignaturesVerified true accel) s = .next t ∧ t.slotImage s.spareSlot = s.str.image ∧
      t.slotValid s.spareSlot = false ∧ t.str.cmd = s.str.cmd ∧ regsBut [R.STR_BOOT_SLOT] s t ∧ sameWork s t := by
  have hw : StreamWrites [R.STR_BOOT_SLOT] s ((s.setSlotValid s.spareSlot 0).setSlotImage s.spareSlot s.str.image) :=
    (setSlotValid_writes List.mem_cons_self).trans setSlotImage_writes
  refine ⟨_, congrArg Host.Outcome.next (strVerified_writeSlot hc h), slotImage_setSlotImage, ?_, cmd_setSlotImage, hw.regs,
    hw.frame.work⟩
  rw [slotValid_of_reg (reg_of_regs _ _ _ regs_setSlotImage), slotValid_setSlotValid (by decide)]
  rfl

theorem verify_restream (hc : s.str.cmd = some (.restream, f, p)) (h : s.Passes) (hh : hallsIn s.str.image ≠ []) :
    ∃ t, exec (.strSignaturesVerified true accel) s = .next t ∧
      t.str = { s.str with halls := hallsIn s.str.image, tables := tablesOf s.str.image } ∧ t.strPhase = 3 ∧
      regsBut [R.STR_STATUS] s t ∧ t = { s with str := t.str, regs := t.regs } := by
  obtain ⟨k, l, hl⟩ := List.exists_cons_of_ne_nil hh
  have hcmd : s.restreamed.str.cmd ≠ none := by
    rw [show s.restreamed.str.cmd = some (.restream, f, p) from hc]
    exact Option.some_ne_none _
  have hphase : s.restreamed.strPhase ≠ 1 := by
    rw [show s.restreamed.strPhase = 6 from strPhase_setPhase]
    decide
  have he : s.strVerified true accel = s.restreamed.hallBegun k := (strVerified_restream hc h).trans (nextHall_cons hcmd hphase hl)
  exact ⟨_, congrArg Host.Outcome.next he, rfl, strPhase_hallBegun, (restreamed_writes.trans hallBegun_writes).regs, rfl⟩

end

theorem slotWritten_ends (s : State) (f ok : Bool) (p : Nat) (hc : s.str.cmd = some (.writeSlot, f, p)) (hp : s.strPhase = 2)
    (hi : s.slotImage s.spareSlot = s.str.image) : ∃ t, exec (.streamSlotWritten ok) s = .next t ∧ t.str.cmd = none ∧ t.strPhase = 7 ∧
      t.getF F.STR_STATUS_RESULT = (if ok then 0 else StrResult.crcBad.code) ∧ (ok = true → t.slotValid s.spareSlot = true) ∧
      regsBut [R.STR_STATUS, R.STR_BOOT_SLOT] s t ∧ sameWork s t := by
  have he := congrArg (Host.Outcome.next (φ := Fault) (ρ := Refusal)) (slotWritten_eq (ok := ok) hc hp hi)
  cases ok
  · rw [if_neg Bool.false_ne_true] at he
    have hw : StreamWrites [R.STR_STATUS, R.STR_BOOT_SLOT] s (s.strDone .crcBad) := .strDone _ _ (by decide)
    exact ⟨_, he, cmd_strDone _, strPhase_strDone _, result_strDone _, nofun, hw.regs, hw.frame.work⟩
  · rw [if_pos rfl] at he
    have hd : StreamWrites [R.STR_STATUS] (s.setSlotValid s.spareSlot 1) ((s.setSlotValid s.spareSlot 1).strDone .ok) :=
      .strDone _ _ List.mem_cons_self
    have hw : StreamWrites [R.STR_STATUS, R.STR_BOOT_SLOT] s ((s.setSlotValid s.spareSlot 1).strDone .ok) :=
      (setSlotValid_writes (by decide)).trans (.strDone _ _ (by decide))
    refine ⟨_, he, cmd_strDone _, strPhase_strDone _, result_strDone _, fun _ => ?_, hw.regs, hw.frame.work⟩
    rw [slotValid_of_reg (hd.regs _ (by decide)), slotValid_setSlotValid (by decide)]
    rfl

theorem bootSlot_written (s w : State) (m : Master) (k : Fin 2) (ht : taken s w m R.STR_BOOT_SLOT) :
    (w.slotValid k = true → ∃ t, exec (.strBootSlotWrite m k) s = .next t ∧ t.getF F.STR_BOOT_SLOT_SLOT = k ∧
      regsBut [R.STR_BOOT_SLOT] w t ∧ sameWork w t ∧ sameDevice w t) ∧
    (w.slotValid k = false → exec (.strBootSlotWrite m k) s = .next w) := by
  have he : exec (.strBootSlotWrite m k) s = .next (w.bootSlotWrite k) :=
    congrArg Host.Outcome.next (guardWrite_taken _ _ _ _ _ _ ht.1 ht.2)
  refine ⟨fun hv => ?_, fun hv => ?_⟩
  · rw [State.bootSlotWrite, if_pos hv] at he
    have hw : StreamWrites [R.STR_BOOT_SLOT] w (w.setF F.STR_BOOT_SLOT_SLOT k) := .setF _ _ List.mem_cons_self
    exact ⟨_, he, (getF_setF_same _ _ _ rfl).trans (Nat.mod_eq_of_lt k.isLt), hw.regs, hw.frame.work, (RegisterFrame.setF _ _ _).device⟩
  · rw [State.bootSlotWrite, if_neg (by simp [hv])] at he
    exact he

/-- Settles O17: FETCH and VERIFY by the check that decides, and the slots by what is written to them. -/
theorem streamImageJudged : Obligations.StreamImageJudged := by
  refine ⟨fetch_judged, fetch_fault, fun s op f p accel hc hp => ⟨verify_signatureBad hc hp, fun hs hk => ?_, fun hs hk hb => ?_⟩,
    slotWritten_ends, bootSlot_written⟩
  · obtain ⟨t, he, hcmd, -, hres, hw⟩ := verify_ended (strVerified_crcBad (accel := accel) hc hp hs hk) rfl
    exact ⟨t, he, hcmd, hres, hw⟩
  · have h : s.Passes := ⟨hp, hs, hk, hb⟩
    refine ⟨?_, ?_, ?_, ?_⟩
    · rintro rfl
      exact verify_ended (strVerified_verifyOnly hc h) rfl
    · rintro rfl
      exact verify_writeSlot hc h
    · rintro rfl
      exact congrArg Host.Outcome.next (strVerified_loadFull hc h)
    · rintro rfl hh
      exact verify_restream hc h hh

end Sys2Proof.Machine
end

section

/-! ## O18: a hall's restream -/

namespace Sys2Proof.Machine

/-! ### SHADOW (R37) -/

/-- The section of the staged image for a hall. -/
def State.stagedSection (s : State) (h : Nat) : HallBank :=
  ⟨sectVer s.str.image h, sectLayout s.str.image h, sectionBody s.str.image (0x10 + h)⟩

/-- A section in the bank that the hall does not run, with QUIESCE counting from now. -/
def State.shadowFilled (s : State) (h : Nat) (b : HallBank) : State :=
  let t := s.writeBank h (s.shadowBank h) b
  { t with str := { t.str with quiesceAt := t.up } }

/-- A hall that QUIESCE pauses, with its shadow bank shown as valid. -/
def State.hallQuiescing (s : State) (h : Nat) : State :=
  (s.setFs [(F.STR_HALL_SHADOW_VALID h, 1), (F.STR_HALL_PAUSED h, 1)]).setPhase .quiesce

section
variable {s : State} {h : Nat} {b : HallBank}

theorem shadowWritten_eq {l : List Nat} (hh : s.str.halls = h :: l) (hp : s.strPhase = 3) :
    s.shadowWritten = (s.shadowFilled h (s.stagedSection h)).hallQuiescing h := by
  have hc : s.curHall = some h := by rw [State.curHall, hh]; rfl
  unfold State.shadowWritten
  simp only [hc]
  exact if_neg (not_not_intro hp)

theorem shadowFilled_writes (l : List Nat) : StreamWrites l s (s.shadowFilled h b) := by
  have hw : StreamWrites l s (s.writeBank h (s.shadowBank h) b) := .ite (.setStr l s _) (.setStr l s _)
  exact hw.trans (.setStr l _ _)

theorem hallQuiescing_writes : StreamWrites [R.STR_HALL h, R.STR_STATUS] s (s.hallQuiescing h) :=
  ((StreamWrites.setF _ _ (by simp [F.STR_HALL_SHADOW_VALID])).trans (.setF _ _ (by simp [F.STR_HALL_PAUSED]))).trans
    (.setPhase _ _ (by simp))

theorem look_shadowFilled : look (if s.shadowBank h = 0 then (s.shadowFilled h b).str.banks0 else (s.shadowFilled h b).str.banks1) h =
    some b := by
  unfold State.shadowFilled State.writeBank
  split <;> exact look_put_same _ _ _

/-- The bank that a hall runs is not the one that SHADOW writes. -/
theorem activeBank_shadowFilled : (s.shadowFilled h b).activeBank h = s.activeBank h := by
  have hr : (s.shadowFilled h b).getF (F.STR_HALL_ACTIVE_BANK h) = s.getF (F.STR_HALL_ACTIVE_BANK h) :=
    (shadowFilled_writes []).regs.getF List.not_mem_nil
  rw [State.activeBank, State.activeBank, hr]
  by_cases ha : s.getF (F.STR_HALL_ACTIVE_BANK h) = 0
  · have hk : s.shadowBank h ≠ 0 := by rw [State.shadowBank, ha]; decide
    rw [if_pos ha, if_pos ha, State.shadowFilled, State.writeBank, if_neg hk]
  · have hk : s.shadowBank h = 0 := by rw [State.shadowBank]; omega
    rw [if_neg ha, if_neg ha, State.shadowFilled, State.writeBank, if_pos hk]

/-- Fields of a hall's register are not touched by the phase. -/
theorem getF_setPhase_hall {p : StrPhase} {f : Fld} (hf : f.reg = R.STR_HALL h) : (s.setPhase p).getF f = s.getF f :=
  getF_setF_reg_ne (hf ▸ hall_ne_status.symm)

theorem hallPaused_hallQuiescing : (s.hallQuiescing h).hallPaused h = true := by
  have hg : (s.hallQuiescing h).getF (F.STR_HALL_PAUSED h) = 1 := (getF_setPhase_hall rfl).trans (getF_setF_same _ _ _ rfl)
  rw [State.hallPaused, hg]
  rfl

theorem shadowValid_hallQuiescing : (s.hallQuiescing h).getF (F.STR_HALL_SHADOW_VALID h) = 1 :=
  (getF_setPhase_hall rfl).trans ((getF_setF_apart _ _ _ _ rfl rfl
    (Fld.apart_of_bits (.inr (by decide : 0 < 1)))).trans (getF_setF_same _ _ _ rfl))

theorem activeBank_setShadowValid {v : Nat} : (s.setF (F.STR_HALL_SHADOW_VALID h) v).activeBank h = s.activeBank h :=
  activeBank_of (getF_setF_apart _ _ _ _ rfl rfl (Fld.apart_of_bits (.inr (by decide : 1 < 8)))) rfl rfl

theorem activeBank_hallQuiescing : (s.hallQuiescing h).activeBank h = s.activeBank h :=
  calc (s.hallQuiescing h).activeBank h
      = ((s.setF (F.STR_HALL_SHADOW_VALID h) 1).setF (F.STR_HALL_PAUSED h) 1).activeBank h :=
        activeBank_of (getF_setPhase_hall rfl) rfl rfl
    _ = s.activeBank h := activeBank_setPaused.trans activeBank_setShadowValid

end

/-! ### SWITCH: what it reaches outside the stream's registers (R37, R44, R266) -/

/-- The registers of the stream, whose addresses begin at 3 * 65536, read as before. -/
def SameStr (s t : State) : Prop := ∀ a, a / 65536 = 3 → t.reg a = s.reg a

namespace SameStr
variable {s t u : State}

theorem refl (s : State) : SameStr s s := fun _ _ => rfl

theorem trans (h : SameStr s t) (k : SameStr t u) : SameStr s u := fun a ha => (k a ha).trans (h a ha)

theorem ite {c : Prop} [Decidable c] (h : SameStr s t) (k : SameStr s u) : SameStr s (if c then t else u) := by
  split <;> assumption

theorem foldl {α : Type} {f : State → α → State} {l : List α} (hf : ∀ s, ∀ x ∈ l, SameStr s (f s x)) (s : State) :
    SameStr s (l.foldl f s) := fun a ha => reg_foldl (fun s x hx => hf s x hx a ha) s

theorem setReg (s : State) {a : Nat} (v : Nat) (h : a / 65536 ≠ 3) : SameStr s (s.setReg a v) :=
  fun _ hb => reg_setReg_ne _ _ _ _ fun e => h (e ▸ hb)

theorem setF (s : State) {f : Fld} (v : Nat) (h : f.reg / 65536 ≠ 3) : SameStr s (s.setF f v) := .setReg s _ h

theorem getF {f : Fld} (h : SameStr s t) (hf : f.reg / 65536 = 3) : t.getF f = s.getF f := getF_of_reg (h _ hf)

end SameStr

theorem forall_some_ite {c : Prop} [Decidable c] {P : Fld → Prop} {g : Fld} {x : Option Fld} (hg : P g) (hx : ∀ f, x = some f → P f) :
    ∀ f, (if c then some g else x) = some f → P f := by
  intro f hf
  split at hf
  · exact Option.some.inj hf ▸ hg
  · exact hx f hf

/-- No APPLY_STATUS register stands among the stream's registers. -/
theorem applyOf_block (key : Nat) : ∀ f, applyOf key = some f → f.reg / 65536 ≠ 3 := by
  unfold applyOf
  extract_lets a
  iterate 17 refine forall_some_ite (by decide) ?_
  refine forall_some_ite (by decide : R.ETH_APPLY_STATUS / 65536 ≠ 3) ?_
  intro f hf
  split at hf <;> cases hf <;> decide

/-- The blocks of a hall lie above the stream's. -/
theorem hallBlocks_above : ∀ h < 12, ∀ b ∈ blocksOf h, ∀ r ∈ blockRows b, 4 * 65536 ≤ r.addr := by decide +kernel

section
variable {s : State} {b h : Nat} {body : List Byte}

theorem sealSuspend_str : SameStr s (s.sealSuspend b) := .setF s (f := sealHoldF b) 1 (by decide : R.DEV_SEAL_HOLD / 65536 ≠ 3)

theorem dropStreamPend_str : SameStr s (s.dropStreamPend b) := by
  unfold State.dropStreamPend
  extract_lets keep gone t
  refine SameStr.trans (t := t) (fun _ _ => rfl) (SameStr.foldl (fun u f hf => ?_) t)
  obtain ⟨e, -, he⟩ := List.mem_filterMap.1 hf
  have hr : f.reg / 65536 ≠ 3 := by
    split at he
    · cases he
    · exact applyOf_block _ _ he
  exact .ite (.refl u) (.setF u 0 hr)

/-- A block above the stream's loads no register of the stream. -/
theorem loadBlock_str (hb : ∀ r ∈ blockRows b, 4 * 65536 ≤ r.addr) : SameStr s (s.loadBlock body b) := by
  refine SameStr.foldl (fun u r hr => .ite (SameStr.foldl (fun v i _ => ?_) u) (.refl u)) s
  have := hb r hr
  exact .setReg v _ (by omega)

theorem loadWindow_str {n : Nat} {sel : Nat → Bool} (hb : ∀ r ∈ blockRows b, 4 * 65536 ≤ r.addr) :
    SameStr s (s.loadWindow body b n sel) := by
  refine SameStr.foldl (fun u r hr => .ite (SameStr.foldl (fun v i _ => SameStr.foldl (fun w j _ => ?_) v) u) (.refl u)) s
  have := hb r hr
  exact .setReg w _ (by simp only [bankKey]; omega)

theorem loadHall_str (hh : h < 12) : SameStr s (s.loadHall body h) := by
  refine SameStr.foldl (fun u b hb => ?_) s
  have hr := hallBlocks_above h hh b hb
  have hl : SameStr u (u.loadBlock body b) := loadBlock_str hr
  split_ifs with e e e
  · exact hl.trans (loadWindow_str (e ▸ hr))
  · exact hl.trans (loadWindow_str (e ▸ hr))
  · exact hl.trans (loadWindow_str (e ▸ hr))
  · exact hl

theorem cacheShow_str : SameStr s s.cacheShow :=
  (SameStr.setF s _ (by decide : R.RTE_CTX_CACHE / 65536 ≠ 3)).trans (.setF _ _ (by decide : R.RTE_CTX_CACHE / 65536 ≠ 3))

theorem sealSuspend_frame : StreamFrame s (s.sealSuspend b) := ⟨_, _, _, _, _, _, _, _, _, rfl⟩

theorem dropStreamPend_frame : StreamFrame s (s.dropStreamPend b) := by
  unfold State.dropStreamPend
  extract_lets keep gone t
  have ht : StreamFrame s t := ⟨_, _, _, _, _, _, _, _, _, rfl⟩
  exact ht.trans (.foldl (fun u f => .ite (.refl u) (.ofRegisters (.setF u f 0))) _ _)

theorem loadBlock_frame : RegisterFrame s (s.loadBlock body b) :=
  .foldl (fun u _ => .ite (.foldl (fun v _ => .setReg v _ _) _ u) (.refl u)) _ s

theorem loadWindow_frame {n : Nat} {sel : Nat → Bool} : RegisterFrame s (s.loadWindow body b n sel) :=
  .foldl (fun u _ => .ite (.foldl (fun v _ => .foldl (fun w _ => .setReg w _ _) _ v) _ u) (.refl u)) _ s

theorem loadHall_frame : RegisterFrame s (s.loadHall body h) :=
  .foldl (fun _ _ => .ite (loadBlock_frame.trans loadWindow_frame) (.ite (loadBlock_frame.trans loadWindow_frame)
    (.ite (loadBlock_frame.trans loadWindow_frame) loadBlock_frame))) _ s

theorem cacheShow_frame : RegisterFrame s s.cacheShow := (RegisterFrame.setF _ _ _).trans (.setF _ _ _)

theorem touchStream_frame : StreamFrame s s.touchStream := .ite (.refl s) ⟨_, _, _, _, _, _, _, _, _, rfl⟩

theorem str_touchStream : s.touchStream.str = { s.str with touched := true } := by
  unfold State.touchStream
  split
  next ht => rw [← ht]
  next => rfl

end

/-! ### SWITCH: what it shows (R37) -/

/-- The section in the bank that the hall does not run. -/
def State.shadowSection (s : State) (h : Nat) : HallBank :=
  lookD (if s.shadowBank h = 0 then s.str.banks0 else s.str.banks1) h ⟨0, 0, []⟩

/-- A hall that runs on its other bank, as STR_HALL shows it. -/
def State.bankSwitched (s : State) (h : Nat) : State :=
  s.touchStream.setFs [(F.STR_HALL_ACTIVE_BANK h, s.shadowBank h), (F.STR_HALL_VER h, (s.shadowSection h).ver),
    (F.STR_HALL_SHADOW_VALID h, 0), (F.STR_HALL_SEAL_PENDING h, 1)]

/-- A hall whose blocks take their Stream registers from a section. -/
def State.sectionLoaded (s : State) (h : Nat) (body : List Byte) : State :=
  let t := ((blocksOf h).foldl (fun s c => (s.dropStreamPend c).sealSuspend c) s).loadHall body h
  if h = 5 then t.cacheShow else t

section
variable {s : State} {h : Nat} {body : List Byte}

/-- SWITCH without FORCE_CLEAR. -/
theorem switchHall_unforced : s.switchHall h false = (s.bankSwitched h).sectionLoaded h (s.shadowSection h).body := rfl

theorem sectionLoaded_str (hh : h < 12) : SameStr s (s.sectionLoaded h body) := by
  have hd : SameStr s ((blocksOf h).foldl (fun s c => (s.dropStreamPend c).sealSuspend c) s) :=
    .foldl (fun _ _ _ => dropStreamPend_str.trans sealSuspend_str) s
  have ht := hd.trans (loadHall_str (body := body) hh)
  exact .ite (ht.trans cacheShow_str) ht

theorem sectionLoaded_frame : StreamFrame s (s.sectionLoaded h body) := by
  have hd : StreamFrame s ((blocksOf h).foldl (fun s c => (s.dropStreamPend c).sealSuspend c) s) :=
    .foldl (fun _ _ => dropStreamPend_frame.trans sealSuspend_frame) _ s
  have ht := hd.trans (.ofRegisters (loadHall_frame (body := body) (h := h)))
  exact .ite (ht.trans (.ofRegisters cacheShow_frame)) ht

theorem bankSwitched_frame : StreamFrame s (s.bankSwitched h) :=
  touchStream_frame.trans (.foldl (fun (u : State) (e : Fld × Nat) => .ofRegisters (.setF u e.1 e.2)) _ _)

theorem hall_block (hh : h < 12) : R.STR_HALL h / 65536 = 3 := by
  simp only [R.STR_HALL]
  omega

/-- What STR_HALL shows of a hall behind a SWITCH. -/
theorem shown_bankSwitched : (s.bankSwitched h).getF (F.STR_HALL_ACTIVE_BANK h) = s.shadowBank h ∧
    (s.bankSwitched h).getF (F.STR_HALL_SHADOW_VALID h) = 0 ∧ (s.bankSwitched h).getF (F.STR_HALL_SEAL_PENDING h) = 1 := by
  have hk : s.shadowBank h < 2 := by rw [State.shadowBank]; omega
  refine ⟨?_, ?_, getF_setF_same _ _ _ rfl⟩
  · calc (s.bankSwitched h).getF (F.STR_HALL_ACTIVE_BANK h)
        = ((s.touchStream.setF (F.STR_HALL_ACTIVE_BANK h) (s.shadowBank h)).setF (F.STR_HALL_VER h) (s.shadowSection h).ver).getF
            (F.STR_HALL_ACTIVE_BANK h) :=
          (getF_setF_apart _ _ _ _ rfl rfl (Fld.apart_of_bits (.inl (by decide : 8 < 9)))).trans
            (getF_setF_apart _ _ _ _ rfl rfl (Fld.apart_of_bits (.inr (by decide : 1 < 8))))
      _ = s.shadowBank h % 2 :=
          (getF_setF_apart _ _ _ _ rfl rfl (Fld.apart_of_bits (.inl (by decide : 8 < 16)))).trans (getF_setF_same _ _ _ rfl)
      _ = s.shadowBank h := Nat.mod_eq_of_lt hk
  · exact (getF_setF_apart _ _ _ _ rfl rfl (Fld.apart_of_bits (.inl (by decide : 1 < 9)))).trans (getF_setF_same _ _ _ rfl)

end

/-! ### The end of a hall's QUIESCE (R37, R40, R43) -/

section
variable {s : State} {h : Nat} {l : List Nat}

theorem hallQuiesced_eq {op : StrOp} {f : Bool} {p : Nat} {accel : BitVec 8} (hc : s.str.cmd = some (op, f, p))
    (hh : s.str.halls = h :: l) (hp : s.strPhase = 4) (hq : s.hallQuiet h = true) :
    let u := (s.setPhase .switch).switchHall h f
    s.hallQuiesced accel =
      (({ u.recheck h accel with str := { (u.recheck h accel).str with halls := l } }.setPhase .resume).resumeHall h).nextHall := by
  unfold State.hallQuiesced
  split
  next hs hl =>
    obtain ⟨rfl, rfl, rfl⟩ : op = _ ∧ f = _ ∧ p = _ := by simpa using hc.symm.trans hs
    obtain ⟨rfl, rfl⟩ := List.cons.inj (hh.symm.trans hl)
    exact if_neg (by simp [hp, hq])
  next hn => exact absurd hh (hn _ _ _ _ _ hc)

/-- A hall that QUIESCE could not quiet in time, on its old bank and still paused, with its command ended. -/
def State.quiesceFailed (s : State) (h : Nat) : State :=
  ((s.upTo (s.str.quiesceAt + s.quiesceMs * 10 ^ 6)).setF (F.STR_HALL_SHADOW_VALID h) 0).strDone .quiesceTimeout

theorem quiesceTimeout_eq (hh : s.str.halls = h :: l) (hp : s.strPhase = 4) :
    s.quiesceTimeout = (s.quiesceFailed h).resumeHall h := by
  have hc : s.curHall = some h := by rw [State.curHall, hh]; rfl
  unfold State.quiesceTimeout
  simp only [hc]
  exact if_neg (not_not_intro hp)

theorem upTo_writes (l : List Nat) (t : Nat) : StreamWrites l s (s.upTo t) := ⟨fun _ _ => rfl, ⟨_, _, _, _, _, _, _, _, _, rfl⟩⟩

theorem activeBank_upTo (t : Nat) : (s.upTo t).activeBank h = s.activeBank h := rfl

/-- The oscillator counts on to an instant, and never back. -/
theorem up_upTo (t : Nat) : s.up ≤ (s.upTo t).up ∧ t ≤ (s.upTo t).up := by
  have h : (s.upTo t).up = s.up + (t - s.up) := rfl
  omega

theorem up_strDone (r : StrResult) : (s.strDone r).up = s.up := by
  have ht : s.tabDrop.time = s.time := by
    unfold State.tabDrop
    split <;> rfl
  simp only [State.up, State.strDone, State.strDoneCode, State.eventV_time, State.setPhase, State.setF_time, ht]

theorem quiesceFailed_writes : StreamWrites [R.STR_HALL h, R.STR_STATUS] s (s.quiesceFailed h) :=
  ((upTo_writes _ _).trans (.setF _ _ (by simp [F.STR_HALL_SHADOW_VALID]))).trans (.strDone _ _ (by simp))

theorem shadowValid_quiesceFailed : (s.quiesceFailed h).getF (F.STR_HALL_SHADOW_VALID h) = 0 :=
  (getF_strDoneCode_hall rfl).trans (getF_setF_same _ _ _ rfl)

theorem activeBank_quiesceFailed : (s.quiesceFailed h).activeBank h = s.activeBank h := by
  rw [State.quiesceFailed, State.strDone, activeBank_strDoneCode, activeBank_setShadowValid, activeBank_upTo]

theorem up_quiesceFailed : s.up ≤ (s.quiesceFailed h).up ∧ s.str.quiesceAt + s.quiesceMs * 10 ^ 6 ≤ (s.quiesceFailed h).up := by
  rw [State.quiesceFailed, up_strDone]
  exact up_upTo _

end

/-! ### Table entries (R37, R40, R42) -/

/-- The table entries that are left, of which none waits for its boundary. -/
def State.tablesLeft (s : State) (l : List (Nat × List Byte)) : State := { s with str := { s.str with tables := l, tabWait := false } }

section
variable {s : State} {e : Nat × List Byte} {l : List (Nat × List Byte)}

/-- Behind a table entry the next one is due, and behind the last one the command is done with the first refusal's code. -/
theorem tableNext_eq (hs : s.str.tables = e :: l) :
    s.tableNext = if l = [] then (s.tablesLeft l).strDoneCode s.str.refused else s.tablesLeft l := by
  unfold State.tableNext
  rw [hs]
  cases l <;> rfl

theorem tableNext_writes (hs : s.str.tables = e :: l) : StreamWrites [R.STR_STATUS] s s.tableNext := by
  rw [tableNext_eq hs]
  exact .ite ((StreamWrites.setStr _ _ _).trans (.strDoneCode _ _ List.mem_cons_self)) (.setStr _ _ _)

theorem tables_tableNext (hs : s.str.tables = e :: l) : s.tableNext.str.tables = l := by
  rw [tableNext_eq hs]
  split
  next hl => exact hl.symm
  next => rfl

theorem tabs_tableNext (hs : s.str.tables = e :: l) : s.tableNext.str.tabs = s.str.tabs := by
  rw [tableNext_eq hs]
  split
  · exact congrArg (·.str.tabs) (tabDrop_of_no_wait (s := s.tablesLeft l) rfl)
  · rfl

theorem tableNext_last (hs : s.str.tables = [e]) :
    s.tableNext.str.cmd = none ∧ s.tableNext.strPhase = 7 ∧ s.tableNext.getF F.STR_STATUS_RESULT = s.str.refused % 256 := by
  rw [tableNext_eq hs, if_pos rfl]
  exact ⟨rfl, strPhase_strDoneCode, result_strDoneCode⟩

/-- The code with which a table entry is refused, and 0 for one that takes effect. -/
def State.entryRefusal (s : State) (e : Nat × List Byte) : Nat :=
  if tableBad e.1 e.2 then StrResult.headerBad.code else if s.profileBlocked e then StrResult.profileInUse.code else 0

theorem entryRefusal_of_free (hb : tableBad e.1 e.2 = false) (hp : s.profileBlocked e = false) : s.entryRefusal e = 0 := by
  simp [State.entryRefusal, hb, hp]

/-- The code of an entry that is refused, whichever of the two checks it fails. -/
theorem entryRefusal_of_refused (h : tableBad e.1 e.2 = true ∨ s.profileBlocked e = true) :
    s.entryRefusal e = if tableBad e.1 e.2 then StrResult.headerBad.code else StrResult.profileInUse.code := by
  rw [State.entryRefusal]
  split_ifs with hb hp
  · rfl
  · rfl
  · exact absurd (h.resolve_left hb) hp

theorem entryRefusal_pos (h : tableBad e.1 e.2 = true ∨ s.profileBlocked e = true) : s.entryRefusal e ≠ 0 := by
  rw [entryRefusal_of_refused h]
  split <;> decide

/-- The code of the first table entry that was refused. -/
def State.refusedWith (s : State) (r : Nat) : State := { s with str := { s.str with refused := if s.str.refused = 0 then r else s.str.refused } }

/-- A table that is loaded at its boundary. -/
def State.tableWaiting (s : State) (e : Nat × List Byte) : State :=
  { s.loadTable e.1 e.2 with str := { (s.loadTable e.1 e.2).str with tabWait := true } }

theorem tableEntry_eq (hs : s.str.tables = e :: l) (hp : s.strPhase = 6) (hw : s.str.tabWait = false) (hh : s.str.halls = []) :
    s.tableEntry = if s.entryRefusal e ≠ 0 then (s.refusedWith (s.entryRefusal e)).tableNext
      else if e.1 = 4 ∨ e.1 = 5 then s.tableWaiting e else (s.touchStream.loadTable e.1 e.2).tableNext := by
  unfold State.tableEntry
  split
  next hn => exact absurd (hs.symm.trans hn) (List.cons_ne_nil _ _)
  next e' l' hs' =>
    obtain ⟨rfl, rfl⟩ := List.cons.inj (hs.symm.trans hs')
    exact if_neg (by simp [hp, hw, hh])

/-- Initial trees go to the classifier's areas. -/
theorem loadTable_trees {t : Nat} {bs : List Byte} (h3 : t = 3) : s.loadTable t bs =
    { s with mem := (Config.initialTrees bs).foldl (fun m x => m.write ((Space.treeArea x.1).at (32 * x.2.1)) x.2.2) s.mem } := if_pos h3

/-- A table that waits for no boundary is in force at once. -/
theorem loadTable_plain {t : Nat} {bs : List Byte} (h3 : t ≠ 3) (h4 : t ≠ 4) (h5 : t ≠ 5) :
    s.loadTable t bs = { s with str := { s.str with tabs := put s.str.tabs t bs } } := by
  simp [State.loadTable, h3, h4, h5]

/-- All but initial trees change the tables in force, or the next energy table. -/
theorem loadTable_writes {t : Nat} {bs : List Byte} (h3 : t ≠ 3) (k : List Nat) : StreamWrites k s (s.loadTable t bs) := by
  rw [State.loadTable, if_neg h3]
  exact .ite ⟨fun _ _ => rfl, ⟨_, _, _, _, _, _, _, _, _, rfl⟩⟩ (.setStr k s _)

theorem str_loadTable (t : Nat) (bs : List Byte) : ∃ x, (s.loadTable t bs).str = { s.str with tabs := x } := by
  unfold State.loadTable
  split
  · exact ⟨_, rfl⟩
  · split <;> exact ⟨_, rfl⟩

theorem tables_loadTable (t : Nat) (bs : List Byte) : (s.loadTable t bs).str.tables = s.str.tables := by
  obtain ⟨x, hx⟩ := str_loadTable (s := s) t bs
  rw [hx]

theorem refused_loadTable (t : Nat) (bs : List Byte) : (s.loadTable t bs).str.refused = s.str.refused := by
  obtain ⟨x, hx⟩ := str_loadTable (s := s) t bs
  rw [hx]

/-- What the entries left and the first refusal are when an entry has been loaded into a stream that it touches. -/
theorem loaded_entry (hs : s.str.tables = e :: l) : (s.touchStream.loadTable e.1 e.2).str.tables = e :: l ∧
    (s.touchStream.loadTable e.1 e.2).str.refused = s.str.refused := by
  rw [tables_loadTable, refused_loadTable, str_touchStream]
  exact ⟨hs, rfl⟩

end

/-! ### The clauses of the obligation -/

theorem shadow_written (s : State) (h : Nat) (l : List Nat) (hh : s.str.halls = h :: l) (hp : s.strPhase = 3) :
    ∃ t, exec .shadowWritten s = .next t ∧ t.hallPaused h = true ∧ t.getF (F.STR_HALL_SHADOW_VALID h) = 1 ∧ t.strPhase = 4 ∧
      look (if s.shadowBank h = 0 then t.str.banks0 else t.str.banks1) h =
        some ⟨sectVer s.str.image h, sectLayout s.str.image h, sectionBody s.str.image (0x10 + h)⟩ ∧ t.activeBank h = s.activeBank h ∧
      regsBut [R.STR_HALL h, R.STR_STATUS] s t ∧ sameWork s t := by
  have hw : StreamWrites [R.STR_HALL h, R.STR_STATUS] s ((s.shadowFilled h (s.stagedSection h)).hallQuiescing h) :=
    (shadowFilled_writes _).trans hallQuiescing_writes
  exact ⟨_, congrArg Host.Outcome.next (shadowWritten_eq hh hp), hallPaused_hallQuiescing, shadowValid_hallQuiescing, strPhase_setPhase,
    look_shadowFilled, activeBank_hallQuiescing.trans activeBank_shadowFilled, hw.regs, hw.frame.work⟩

theorem hall_switched (s : State) (h : Nat) (hh : h < 12) :
    let u := (s.setPhase .switch).switchHall h false
    u.getF (F.STR_HALL_ACTIVE_BANK h) = s.shadowBank h ∧ u.getF (F.STR_HALL_SHADOW_VALID h) = 0 ∧
      u.getF (F.STR_HALL_SEAL_PENDING h) = 1 ∧ sameWork s u := by
  intro u
  have hu : u = ((s.setPhase .switch).bankSwitched h).sectionLoaded h ((s.setPhase .switch).shadowSection h).body := switchHall_unforced
  have hstr : SameStr ((s.setPhase .switch).bankSwitched h) u := hu ▸ sectionLoaded_str hh
  have hf : StreamFrame s u :=
    hu ▸ ((StreamFrame.ofRegisters (.setF s _ _)).trans bankSwitched_frame).trans sectionLoaded_frame
  have hbank : (s.setPhase .switch).shadowBank h = s.shadowBank h := congrArg (1 - ·) (getF_setPhase_hall rfl)
  obtain ⟨ha, hv, hp⟩ := shown_bankSwitched (s := s.setPhase .switch) (h := h)
  exact ⟨(hstr.getF (hall_block hh)).trans (ha.trans hbank), (hstr.getF (hall_block hh)).trans hv, (hstr.getF (hall_block hh)).trans hp,
    hf.work⟩

theorem hall_timedOut (s : State) (h : Nat) (l : List Nat) (hh : s.str.halls = h :: l) (hp : s.strPhase = 4) : ∃ u t : State,
    exec .quiesceTimeout s = .next t ∧ t = u.resumeHall h ∧ u.getF (F.STR_HALL_SHADOW_VALID h) = 0 ∧ u.str.cmd = none ∧ u.strPhase = 7 ∧
      u.getF F.STR_STATUS_RESULT = StrResult.quiesceTimeout.code ∧ u.activeBank h = s.activeBank h ∧ s.up ≤ u.up ∧
      s.str.quiesceAt + s.quiesceMs * 10 ^ 6 ≤ u.up ∧ regsBut [R.STR_HALL h, R.STR_STATUS] s u ∧ sameWork s u := by
  obtain ⟨hup, hat⟩ := up_quiesceFailed (s := s) (h := h)
  have hw := quiesceFailed_writes (s := s) (h := h)
  exact ⟨s.quiesceFailed h, _, congrArg Host.Outcome.next (quiesceTimeout_eq hh hp), rfl, shadowValid_quiesceFailed, cmd_strDone _,
    strPhase_strDone _, result_strDone _, activeBank_quiesceFailed, hup, hat, hw.regs, hw.frame.work⟩

section
variable {s : State} {e : Nat × List Byte} {l : List (Nat × List Byte)}

theorem entry_loads (hs : s.str.tables = e :: l) (hp : s.strPhase = 6) (hw : s.str.tabWait = false) (hh : s.str.halls = [])
    (hb : tableBad e.1 e.2 = false) (hf : s.profileBlocked e = false) (h3 : e.1 ≠ 3) (h4 : e.1 ≠ 4) (h5 : e.1 ≠ 5) :
    ∃ t, exec .tableEntryLoad s = .next t ∧ look t.str.tabs e.1 = some e.2 ∧ t.str.tables = l ∧ sameWork s t ∧
      (l = [] → t.str.cmd = none ∧ t.strPhase = 7 ∧ t.getF F.STR_STATUS_RESULT = s.str.refused % 256) := by
  have he := tableEntry_eq hs hp hw hh
  rw [if_neg (not_not_intro (entryRefusal_of_free hb hf)), if_neg (by simp [h4, h5])] at he
  obtain ⟨hl, hr⟩ := loaded_entry hs
  refine ⟨_, congrArg Host.Outcome.next he, ?_, tables_tableNext hl, ?_, ?_⟩
  · rw [tabs_tableNext hl, loadTable_plain h3 h4 h5]
    exact look_put_same _ _ _
  · exact ((touchStream_frame.trans (loadTable_writes h3 []).frame).trans (tableNext_writes hl).frame).work
  · rintro rfl
    obtain ⟨hcmd, hphase, hres⟩ := tableNext_last hl
    exact ⟨hcmd, hphase, hr ▸ hres⟩

theorem entry_trees (hs : s.str.tables = e :: l) (hp : s.strPhase = 6) (hw : s.str.tabWait = false) (hh : s.str.halls = [])
    (h3 : e.1 = 3) : ∃ t, exec .tableEntryLoad s = .next t ∧ t.str.tables = l ∧
      t.mem = (Config.initialTrees e.2).foldl (fun m x => m.write ((Space.treeArea x.1).at (32 * x.2.1)) x.2.2) s.mem ∧
      sameEngines s t ∧ sameTenants s t := by
  have he := tableEntry_eq hs hp hw hh
  have hb : tableBad e.1 e.2 = false := by rw [h3]; rfl
  have hf : s.profileBlocked e = false := by rw [State.profileBlocked, h3]; rfl
  rw [if_neg (not_not_intro (entryRefusal_of_free hb hf)), if_neg (by simp [h3])] at he
  obtain ⟨hl, -⟩ := loaded_entry hs
  have hn := (tableNext_writes hl).frame
  have ht := loadTable_trees (s := s.touchStream) (bs := e.2) h3
  have hload : sameServed s.touchStream (s.touchStream.loadTable e.1 e.2) := by
    rw [ht]
    simp [sameServed, sameEngines, sameTenants]
  refine ⟨_, congrArg Host.Outcome.next he, tables_tableNext hl, ?_, (touchStream_frame.served.trans hload).trans hn.served⟩
  rw [hn.mem, ht, touchStream_frame.mem]

theorem entry_waits (hs : s.str.tables = e :: l) (hp : s.strPhase = 6) (hw : s.str.tabWait = false) (hh : s.str.halls = [])
    (hb : tableBad e.1 e.2 = false) (h45 : e.1 = 4 ∨ e.1 = 5) : ∃ t, exec .tableEntryLoad s = .next t ∧ t.str.tabWait = true ∧
      t.str.tables = e :: l ∧ (s.dev.stream = true → e.1 = 4 → look t.str.tabs (4 + 256) = some e.2) ∧
      (s.dev.stream = true → e.1 = 5 → t.pwr.nextTable = some e.2) ∧ regsBut [] s t ∧ sameWork s t := by
  have he := tableEntry_eq hs hp hw hh
  have hf : s.profileBlocked e = false := by
    rcases h45 with h | h <;> rw [State.profileBlocked, h] <;> rfl
  rw [if_neg (not_not_intro (entryRefusal_of_free hb hf)), if_pos h45] at he
  have hwr : StreamWrites [] s (s.tableWaiting e) := (loadTable_writes (by omega) []).trans (.setStr _ _ _)
  refine ⟨_, congrArg Host.Outcome.next he, rfl, (tables_loadTable _ _).trans hs, fun hd h4 => ?_, fun hd h5 => ?_, hwr.regs,
    hwr.frame.work⟩
  · have ht : (s.loadTable e.1 e.2).str.tabs = put s.str.tabs (4 + 256) e.2 := by simp [State.loadTable, h4, hd]
    exact (congrArg (look · (4 + 256)) ht).trans (look_put_same _ _ _)
  · have ht : (s.loadTable e.1 e.2).pwr.nextTable = some e.2 := by simp [State.loadTable, h5, hd]
    exact ht

theorem entry_refused (hs : s.str.tables = e :: l) (hp : s.strPhase = 6) (hw : s.str.tabWait = false) (hh : s.str.halls = [])
    (hr : tableBad e.1 e.2 = true ∨ s.profileBlocked e = true) : ∃ t, exec .tableEntryLoad s = .next t ∧ t.str.tabs = s.str.tabs ∧
      t.str.tables = l ∧ sameWork s t ∧ (l = [] → s.str.refused = 0 → t.getF F.STR_STATUS_RESULT =
        if tableBad e.1 e.2 then StrResult.headerBad.code else StrResult.profileInUse.code) := by
  have he := tableEntry_eq hs hp hw hh
  rw [if_pos (entryRefusal_pos hr)] at he
  have hl : (s.refusedWith (s.entryRefusal e)).str.tables = e :: l := hs
  refine ⟨_, congrArg Host.Outcome.next he, tabs_tableNext hl, tables_tableNext hl,
    ((StreamWrites.setStr _ s _).trans (tableNext_writes hl)).frame.work, ?_⟩
  rintro rfl h0
  obtain ⟨-, -, hres⟩ := tableNext_last hl
  have hcode : (s.refusedWith (s.entryRefusal e)).str.refused = s.entryRefusal e := if_pos h0
  rw [hres, hcode, entryRefusal_of_refused hr]
  split <;> rfl

end

/-- Settles O18: each phase of a hall's restream by what it leaves, and each table entry by the check that decides. -/
theorem hallRestream : Obligations.HallRestream := by
  refine ⟨fun s h l hh _ hp => shadow_written s h l hh hp, fun s h p l op f accel hc hh hlt hp hq => ?_,
    fun s h l hh _ hp => hall_timedOut s h l hh hp, fun s e l hs hp hw hh => ⟨entry_loads hs hp hw hh, entry_trees hs hp hw hh,
      entry_waits hs hp hw hh, entry_refused hs hp hw hh⟩⟩
  refine ⟨_, _, _, congrArg Host.Outcome.next (hallQuiesced_eq hc hh hp hq), rfl, rfl, rfl, ?_⟩
  rintro rfl
  exact hall_switched s h hlt

end Sys2Proof.Machine
end

section

/-! ## O19: the stream at start-up -/

namespace Sys2Proof.Machine

/-! ### A mismatch of the environment (R35) -/

section
variable {s : State} {cls item stated observed : Nat}

theorem str_envRecorded (w : List Nat) : ∃ n, (s.envRecorded w).str = { s.str with records := n } := by
  unfold State.envRecorded
  split
  · exact ⟨_, rfl⟩
  · exact ⟨_, rfl⟩

/-- A mismatch counts its record, and changes nothing else of the stream. -/
theorem str_envRaise : ∃ n, (s.envRaise cls item stated observed).str = { s.str with records := n } := by
  rw [envRaise_eq, State.report_str, State.event_str]
  exact str_envRecorded _

theorem device_envRecorded (w : List Nat) : (s.envRecorded w).dev = s.dev ∧ (s.envRecorded w).time = s.time := by
  unfold State.envRecorded
  split
  · have hf := RegisterFrame.foldl
      (fun u k => .setReg u (R.STR_ENV_REC (4 * s.str.records + k)) (w.getD k 0)) (List.range 4) s
    obtain ⟨hdev, -, -, htime, -⟩ := hf.device
    exact ⟨hdev, htime⟩
  · exact ⟨rfl, rfl⟩

theorem dev_envRaise : (s.envRaise cls item stated observed).dev = s.dev := by
  rw [envRaise_eq, State.report_dev, State.event_dev]
  exact (device_envRecorded _).1

theorem time_envRaise : (s.envRaise cls item stated observed).time = s.time := by
  rw [envRaise_eq, State.report_time, State.event_time]
  exact (device_envRecorded _).2

/-- A mismatch stands in the registers of the stream, and its report in those of the error aggregator. -/
theorem reg_envRaise {a : Nat} (h3 : a / 65536 ≠ 3) (h7 : a / 65536 ≠ 7) : (s.envRaise cls item stated observed).reg a = s.reg a := by
  have hm : R.STR_ENV_MISMATCH ≠ a := fun e => h3 (e ▸ by decide)
  rw [envRaise_eq, report_reg _ _ _ _ _ _ _ h7, State.event, reg_eventV_ne _ _ _ _ hm]
  unfold State.envRecorded
  split
  next hi =>
    refine reg_foldl (fun u k hk => reg_setReg_ne _ _ _ _ ?_) s
    rw [List.mem_range] at hk
    simp only [R.STR_ENV_REC]
    omega
  next => exact reg_setF_ne _ _ _ _ hm

end

/-! ### A load leaves a running stream (R32) -/

section
variable {s : State}

theorem dev_foldl {α : Type} {f : State → α → State} (hf : ∀ s x, (f s x).dev = s.dev) (l : List α) (s : State) :
    (l.foldl f s).dev = s.dev := by
  induction l generalizing s with
  | nil => rfl
  | cons x xs ih => exact (ih _).trans (hf s x)

theorem dev_linkCheck {p h : Nat} : (s.linkCheck p h).dev = s.dev := by
  unfold State.linkCheck
  split_ifs
  · rfl
  · rfl
  · rfl
  · rw [dev_envRaise]
    rfl

theorem dev_portsCheck : s.portsCheck.dev = s.dev := by
  have hc : ∀ u : State, u.portsClear.dev = u.dev := fun u => by
    unfold State.portsClear
    split <;> rfl
  rw [State.portsCheck, hc, dev_foldl fun _ _ => dev_linkCheck.trans dev_linkCheck]

theorem dev_accelCheck {accel : BitVec 8} {sel : Nat → Bool} : (s.accelCheck accel sel).dev = s.dev := by
  unfold State.accelCheck
  extract_lets t
  have ht : t.dev = s.dev := by
    refine dev_foldl (fun u a => ?_) _ s
    split_ifs
    · rfl
    · rfl
    · rfl
    · exact dev_envRaise
  clear_value t
  split <;> exact ht

/-- Neither the end of the environment check nor a driver's judgment ends a stream. -/
theorem stream_driverCheck : s.driverCheck.dev.stream = s.dev.stream := by
  unfold State.driverCheck
  extract_lets accepted refused
  split
  · rw [State.setDev_dev]
  · split
    · rw [State.setDev_dev]
    · rfl

theorem stream_envSettle : s.envSettle.dev.stream = s.dev.stream := by
  unfold State.envSettle
  split
  · rw [stream_driverCheck, State.setDev_dev]
  · rfl

theorem stream_loadFull {img : List Byte} {accel : BitVec 8} : (s.loadFull img accel).dev.stream = true := by
  unfold State.loadFull
  extract_lets -underBinder env sel s₁ _ s₂ s₃ s₄ tabs s₅ s₆ s₇ s₈ s₉ s₁₀ s₁₁ s₁₂ s₁₃ s₁₄ s₁₅ _ s₁₆
  have h : s₁₆.dev.stream = true := rfl
  clear_value s₁₆
  cases _e : sel with
  | none => exact congrArg Dev.stream (State.setDev_dev _ _)
  | some _ =>
    dsimp only
    rw [stream_envSettle, dev_accelCheck, dev_portsCheck, h]

theorem dev_strDone (r : StrResult) : (s.strDone r).dev = s.dev := by
  have ht : s.tabDrop.dev = s.dev := by
    unfold State.tabDrop
    split <;> rfl
  simp only [State.strDone, State.strDoneCode, State.eventV_dev, State.setPhase, State.setF_dev, ht]

end

/-! ### The slots at start-up (R32, R34) -/

section
variable {s : State} {sa sb : Bool} {accel : BitVec 8}

/-- What the checks of start-up say of a slot, with the Signet's answers for both. -/
def State.slotResult (s : State) (sa sb : Bool) (k : Nat) : StrResult :=
  if s.slotValid k then s.slotCheck (s.slotImage k) (if k = 0 then sa else sb) else .headerBad

theorem slotResult_ok (k : Nat) :
    (s.slotValid k && s.slotCheck (s.slotImage k) (if k = 0 then sa else sb) == .ok) = decide (s.slotResult sa sb k = .ok) := by
  unfold State.slotResult
  cases s.slotValid k
  · rfl
  · rw [if_pos rfl, Bool.true_and]
    rfl

/-- Steps 5 to 10 of R32 on a slot's image. -/
def State.slotLoaded (s : State) (accel : BitVec 8) (k : Nat) : State := (s.loadFull (s.slotImage k) accel).strDone .ok

/-- A device that no slot gives a stream. -/
def State.streamless (s : State) (r : StrResult) : State := (s.strDone r).setDev { s.dev with st := .limited, limitedCause := 1 }

/-- The selected slot's image loads where its checks pass, and else the other slot's. -/
theorem streamLoad_eq (hb : s.dev.st = .boot) (hf : s.dev.firmware = true) (hn : s.dev.stream = false) :
    let k := s.getF F.STR_BOOT_SLOT_SLOT
    s.streamLoad sa sb accel =
      if s.slotResult sa sb k = .ok then s.slotLoaded accel k
      else if s.slotResult sa sb (1 - k) = .ok then s.slotLoaded accel (1 - k)
      else s.streamless (s.slotResult sa sb (1 - k)) := by
  intro k
  unfold State.streamLoad
  rw [if_neg (by simp [hb, hf, hn])]
  extract_lets k' sig check
  change (match s.slotResult sa sb k with
    | .ok => s.slotLoaded accel k
    | _ => match s.slotResult sa sb (1 - k) with
      | .ok => s.slotLoaded accel (1 - k)
      | r => s.streamless r) = _
  cases s.slotResult sa sb k <;> cases s.slotResult sa sb (1 - k) <;> rfl

theorem slotLoaded_runs (k : Nat) : (s.slotLoaded accel k).dev.stream = true ∧ (s.slotLoaded accel k).getF F.STR_STATUS_RESULT = 0 := by
  refine ⟨?_, result_strDone _⟩
  rw [State.slotLoaded, dev_strDone]
  exact stream_loadFull

theorem streamless_writes (r : StrResult) : StreamWrites [R.STR_STATUS, R.DEV_STATE] s (s.streamless r) :=
  (StreamWrites.strDone _ _ (by decide)).trans (.setDev _ _ (by decide))

theorem strPhase_streamless (r : StrResult) : (s.streamless r).strPhase = 7 :=
  (getF_of_reg (setDev_reg _ _ _ (by decide))).trans (strPhase_strDone r)

end

/-! ### What the end of the environment check leaves alone (R366) -/

/-- Device, time, environment, backend registers, engines and tenants are as they were, and no backend that is kept disabled is
enabled. -/
structure EnvFrame (s t : State) : Prop where
  dev : t.dev = s.dev
  time : t.time = s.time
  env : t.str.env = s.str.env
  off : ∀ k, s.str.beOff.contains k = true → t.str.beOff.contains k = true
  backends : ∀ a, a / 65536 = 22 → t.reg a = s.reg a
  served : sameServed s t

namespace EnvFrame
variable {s t u : State}

theorem refl (s : State) : EnvFrame s s := ⟨rfl, rfl, rfl, fun _ h => h, fun _ _ => rfl, (RegisterFrame.refl s).served⟩

theorem trans (h : EnvFrame s t) (k : EnvFrame t u) : EnvFrame s u :=
  ⟨k.dev.trans h.dev, k.time.trans h.time, k.env.trans h.env, fun b hb => k.off b (h.off b hb),
    fun a ha => (k.backends a ha).trans (h.backends a ha), h.served.trans k.served⟩

theorem ite {c : Prop} [Decidable c] (h : EnvFrame s t) (k : EnvFrame s u) : EnvFrame s (if c then t else u) := by
  split <;> assumption

theorem foldl {α : Type} {f : State → α → State} (hf : ∀ s x, EnvFrame s (f s x)) (l : List α) (s : State) : EnvFrame s (l.foldl f s) := by
  induction l generalizing s with
  | nil => exact refl s
  | cons x xs ih => exact (hf s x).trans (ih _)

/-- Registers of ETH stand above those of the backends. -/
theorem ofEth (h : RegisterFrame s t) (hr : ∀ a < 26 * 65536, t.reg a = s.reg a) : EnvFrame s t := by
  obtain ⟨hdev, -, hstr, htime, -⟩ := h.device
  exact ⟨hdev, htime, by rw [hstr], fun _ hk => by rwa [hstr], fun a ha => hr a (by omega), h.served⟩

theorem setF_eth (s : State) {f : Fld} (v : Nat) (h : 26 * 65536 ≤ f.reg) : EnvFrame s (s.setF f v) :=
  .ofEth (.setF s f v) fun _ ha => reg_setF_ne _ _ _ _ (by omega)

theorem groupShown (s : State) (g v : Nat) : EnvFrame s (s.groupShown g v) := by
  have h : 26 * 65536 ≤ R.ETH_GROUP_STATE g := by simp only [R.ETH_GROUP_STATE]; omega
  exact (setF_eth s v h).trans (setF_eth _ _ h)

theorem groupKeptOff (s : State) (g : Nat) : EnvFrame s (s.groupKeptOff g) := by
  have h : EnvFrame s { s with str := { s.str with groupOff := g :: s.str.groupOff.filter (· != g) } } :=
    ⟨rfl, rfl, rfl, fun _ h => h, fun _ _ => rfl, sameServed_setStr _ _⟩
  exact h.trans (groupShown _ g 3)

theorem setWorking (s : State) (g m : Nat) : EnvFrame s (s.setWorking g m) := by
  have h : 26 * 65536 ≤ R.ETH_GROUP_STATE g := by simp only [R.ETH_GROUP_STATE]; omega
  have hl : ∀ k, 26 * 65536 ≤ R.ETH_LANE (8 * g + k) := fun k => by simp only [R.ETH_LANE]; omega
  exact (setF_eth s m h).trans (.foldl (fun u k => setF_eth u _ (hl k)) _ _)

theorem envRaise (s : State) (cls item stated observed : Nat) : EnvFrame s (s.envRaise cls item stated observed) := by
  obtain ⟨n, hn⟩ := str_envRaise (s := s) (cls := cls) (item := item) (stated := stated) (observed := observed)
  exact ⟨dev_envRaise, time_envRaise, by rw [hn], fun _ hk => by rwa [hn], fun a ha => reg_envRaise (by omega) (by omega),
    (envRaise_frame s cls item stated observed).1⟩

theorem groupTrained (s : State) (g m : Nat) : EnvFrame s (s.groupTrained g m) := by
  rw [groupTrained_eq]
  exact .ite (((setWorking s g m).trans (groupKeptOff _ g)).trans (envRaise _ _ _ _ _)) ((setWorking s g m).trans (groupShown _ g 2))

theorem backendMiss (s : State) (k status : Nat) : EnvFrame s (s.backendMiss k status) := by
  have hoff : EnvFrame s { s with str := { s.str with beOff := k :: s.str.beOff } } :=
    ⟨rfl, rfl, rfl, fun b hb => by simpa using Or.inr (by simpa using hb), fun _ _ => rfl, sameServed_setStr _ _⟩
  exact .ite (.refl s) (hoff.trans (envRaise _ _ _ _ _))

theorem backendStated (h : EnvFrame s t) (k : Nat) : t.backendStated k = s.backendStated k := by
  simp only [State.backendStated, State.envField, h.env]

theorem groupEnabled (h : EnvFrame s t) (g : Nat) : t.groupEnabled g = s.groupEnabled g := by
  simp only [State.groupEnabled, State.envField, h.env]

theorem backendState (h : EnvFrame s t) {k : Nat} (hk : k < 16) : t.getF (F.NVS_BE_STATE k) = s.getF (F.NVS_BE_STATE k) :=
  getF_of_reg (h.backends _ (by simp only [F.NVS_BE_STATE, R.NVS_BE]; omega))

end EnvFrame

/-! ### Unanswered lane groups and backends (R366) -/

/-- A used lane group that has not trained counts as one without lanes. -/
def State.groupTimedOut (s : State) (g : Nat) : State :=
  if s.groupEnabled g && s.getF (F.ETH_GROUP_STATE_STATE g) < 2 then s.groupTrained g 0 else s

/-- A stated backend endpoint that is not up is missed. -/
def State.backendTimedOut (s : State) (k : Nat) : State :=
  if s.backendStated k && s.getF (F.NVS_BE_STATE k) != 2 then s.backendMiss k 0xFFFF else s

/-- Lane groups and backend endpoints that have not answered are dealt with. -/
def State.envTimedOut (s : State) : State := (List.range 16).foldl State.backendTimedOut ((List.range 4).foldl State.groupTimedOut s)

/-- A lane group has its answer. -/
def GroupAnswered (s : State) (g : Nat) : Prop := s.groupEnabled g = true → 2 ≤ s.getF (F.ETH_GROUP_STATE_STATE g)

/-- A backend endpoint has its answer. -/
def BackendAnswered (s : State) (k : Nat) : Prop :=
  s.backendStated k = true → s.getF (F.NVS_BE_STATE k) = 2 ∨ s.str.beOff.contains k = true

/-- What each step of a fold establishes for its own element, and none undoes, holds of every element behind the fold. -/
theorem foldl_establishes {α : Type} {f : State → α → State} {P : State → α → Prop} {l : List α} (hset : ∀ s, ∀ x ∈ l, P (f s x) x)
    (hkeep : ∀ s, ∀ x ∈ l, ∀ y ∈ l, P s y → P (f s x) y) (s : State) : ∀ y ∈ l, P (l.foldl f s) y := by
  induction l generalizing s with
  | nil => exact nofun
  | cons x xs ih =>
    intro y hy
    rcases List.mem_cons.1 hy with rfl | hy
    · exact List.foldlRecOn xs f (hset s y List.mem_cons_self) fun u hu z hz => hkeep u z (List.mem_cons_of_mem _ hz) y List.mem_cons_self hu
    · exact ih (fun u z hz => hset u z (List.mem_cons_of_mem _ hz))
        (fun u z hz w hw => hkeep u z (List.mem_cons_of_mem _ hz) w (List.mem_cons_of_mem _ hw)) _ y hy

section
variable {s t : State} {g g' k k' m : Nat}

theorem groupTimedOut_frame (s : State) (g : Nat) : EnvFrame s (s.groupTimedOut g) := .ite (.groupTrained s g 0) (.refl s)

theorem backendTimedOut_frame (s : State) (k : Nat) : EnvFrame s (s.backendTimedOut k) := .ite (.backendMiss s k _) (.refl s)

theorem GroupApart.groupKeptOff {f : Fld} (h : GroupApart g f) : (s.groupKeptOff g).getF f = s.getF f := h.groupShown

/-- Training reaches its own group alone. -/
theorem groupState_groupTrained_ne (hg' : g' < 4) (hne : g ≠ g') :
    (s.groupTrained g m).getF (F.ETH_GROUP_STATE_STATE g') = s.getF (F.ETH_GROUP_STATE_STATE g') := by
  have hreg : R.ETH_GROUP_STATE g ≠ R.ETH_GROUP_STATE g' := by
    simp only [R.ETH_GROUP_STATE]
    omega
  have hap : GroupApart g (F.ETH_GROUP_STATE_STATE g') := .of_reg_ne rfl hreg (groupState_ne hg' .status).symm
  have hw : (s.setWorking g m).getF (F.ETH_GROUP_STATE_STATE g') = s.getF (F.ETH_GROUP_STATE_STATE g') :=
    (getF_setWorking_apart fun _ _ => lane_ne_groupState hg').trans (getF_setF_reg_ne hreg)
  rw [groupTrained_eq]
  split
  · obtain ⟨-, heth⟩ := envRaise_frame ((s.setWorking g m).groupKeptOff g) 3 g 8 (lanes m)
    rw [heth.getF (groupState_block hg'), hap.groupKeptOff, hw]
  · exact hap.groupShown.trans hw

theorem groupAnswered_self (hg : g < 4) : GroupAnswered (s.groupTimedOut g) g := by
  unfold State.groupTimedOut
  split
  next h =>
    obtain ⟨-, hst, -⟩ := groupTrained_spec (s := s) (m := 0) hg (by decide)
    intro _
    rw [hst]
    decide
  next h =>
    exact fun he => Nat.le_of_not_lt fun hlt => h (by simp [he, hlt])

theorem groupAnswered_keep (hg : g < 4) (hg' : g' < 4) (h : GroupAnswered s g') : GroupAnswered (s.groupTimedOut g) g' := by
  by_cases hne : g = g'
  · subst hne
    exact groupAnswered_self hg
  · intro he
    rw [(groupTimedOut_frame s g).groupEnabled] at he
    have hst : (s.groupTimedOut g).getF (F.ETH_GROUP_STATE_STATE g') = s.getF (F.ETH_GROUP_STATE_STATE g') := by
      unfold State.groupTimedOut
      split
      · exact groupState_groupTrained_ne hg' hne
      · rfl
    rw [hst]
    exact h he

theorem backendTimedOut_eth : SameEth s (s.backendTimedOut k) := by
  unfold State.backendTimedOut State.backendMiss
  split
  · split
    · exact fun _ _ => rfl
    · exact (envRaise_frame { s with str := { s.str with beOff := k :: s.str.beOff } } 5 k 0 0xFFFF).2
  · exact fun _ _ => rfl

theorem groupAnswered_backend (hg : g < 4) (h : GroupAnswered s g) : GroupAnswered (s.backendTimedOut k) g := by
  intro he
  rw [(backendTimedOut_frame s k).groupEnabled] at he
  rw [backendTimedOut_eth.getF (groupState_block hg)]
  exact h he

theorem BackendAnswered.of_frame (h : BackendAnswered s k) (hf : EnvFrame s t) (hk : k < 16) : BackendAnswered t k := by
  intro hs
  rw [hf.backendStated] at hs
  rw [hf.backendState hk]
  exact (h hs).imp_right (hf.off k)

theorem beOff_backendMiss {status : Nat} : (s.backendMiss k status).str.beOff.contains k = true := by
  unfold State.backendMiss
  split
  next h => exact h
  next => exact (EnvFrame.envRaise _ _ _ _ _).off k (by simp)

theorem backendAnswered_self (k : Nat) : BackendAnswered (s.backendTimedOut k) k := by
  unfold State.backendTimedOut
  split
  next => exact fun _ => .inr beOff_backendMiss
  next h =>
    intro hs
    exact .inl (by simpa [hs] using h)

theorem envTimedOut_frame (s : State) : EnvFrame s s.envTimedOut :=
  (EnvFrame.foldl groupTimedOut_frame _ s).trans (.foldl backendTimedOut_frame _ _)

theorem backends_envTimedOut (hk : k < 16) : BackendAnswered s.envTimedOut k :=
  foldl_establishes (P := fun t k => k < 16 → BackendAnswered t k) (fun _ k _ _ => backendAnswered_self k)
    (fun u j _ _ _ h hk => (h hk).of_frame (backendTimedOut_frame u j) hk) _ k (List.mem_range.2 hk) hk

theorem groups_envTimedOut (hg : g < 4) : GroupAnswered s.envTimedOut g := by
  have h : GroupAnswered ((List.range 4).foldl State.groupTimedOut s) g :=
    foldl_establishes (fun _ _ hg => groupAnswered_self (List.mem_range.1 hg))
      (fun _ _ hg _ hg' h => groupAnswered_keep (List.mem_range.1 hg) (List.mem_range.1 hg') h) s g (List.mem_range.2 hg)
  unfold State.envTimedOut
  exact List.foldlRecOn (motive := fun t => GroupAnswered t g) _ _ h fun _ hu _ _ => groupAnswered_backend hg hu

/-- Behind the timeout every answer is there. -/
theorem envAnswered_envTimedOut : s.envTimedOut.envAnswered = true := by
  rw [State.envAnswered, Bool.and_eq_true, List.all_eq_true, List.all_eq_true]
  refine ⟨fun g hg => ?_, fun k hk => ?_⟩
  · have h := groups_envTimedOut (s := s) (List.mem_range.1 hg)
    cases he : s.envTimedOut.groupEnabled g
    · rfl
    · simpa [he] using h he
  · have h := backends_envTimedOut (s := s) (List.mem_range.1 hk)
    cases hs : s.envTimedOut.backendStated k
    · rfl
    · simpa [hs] using h hs

end

/-! ### The limit of the environment check (R99, R366) -/

/-- The 10 s of the environment check have passed. -/
def State.envRipe (s : State) : State := s.ripe .envCheck (10 * 10 ^ 9)

section
variable {s : State} {k : Timer} {d : Nat}

theorem ripe_eq : ∃ z c, s.ripe k d = { s with time := z, since := c } := by
  unfold State.ripe
  split
  · exact ⟨_, _, rfl⟩
  · exact ⟨_, _, rfl⟩

theorem up_ripe {e : Timer × Nat} (h : s.since.find? (·.1 == k) = some e) : e.2 + d ≤ (s.ripe k d).up := by
  simp only [State.ripe, h]
  exact (up_upTo (s := s) (e.2 + d)).2

theorem up_envRipe {e : Timer × Nat} (h : s.since.find? (·.1 == .envCheck) = some e) : e.2 + 10 ^ 10 ≤ s.envRipe.up := by
  have hup := up_ripe (d := 10 * 10 ^ 9) h
  rw [State.envRipe]
  omega

end

/-! ### The clauses of the obligation -/

/-- Step 10 of R32 on a state that has every answer. -/
def State.envReady (s : State) : State :=
  s.setDev { s.dev with st := if s.dev.shed = 0 then .ready else .shedding, limitedCause := 0, envWait := false }

theorem served_envReady (s : State) : sameServed s s.envReady := sameServed_setDev _ _

theorem envTimeout_eq {s : State} (hw : s.dev.envWait = true) :
    s.envTimeout = s.envRipe.envTimedOut.envSettle := by
  rw [State.envTimeout, if_neg (by simp [hw])]
  rfl

theorem envSettle_of_answered {s : State} (hw : s.dev.envWait = true) (ha : s.envAnswered = true) (he : s.str.env ≠ [])
    (hst : s.dev.st = .boot ∨ s.dev.st = .limited) : s.envSettle = s.envReady.driverCheck := by
  refine if_pos ?_
  rcases hst with hst | hst <;> simp [hw, ha, he, hst]

theorem stream_loaded (s : State) (sa sb : Bool) (accel : BitVec 8) (hb : s.dev.st = .boot) (hf : s.dev.firmware = true)
    (hn : s.dev.stream = false) :
    let k := s.getF F.STR_BOOT_SLOT_SLOT
    let ok := fun k : Nat => s.slotValid k && s.slotCheck (s.slotImage k) (if k = 0 then sa else sb) == .ok
    ∃ t, exec (.streamLoad sa sb accel) s = .next t ∧
      if ok k || ok (1 - k) then t = (s.loadFull (s.slotImage (if ok k then k else 1 - k)) accel).strDone .ok ∧ t.dev.stream = true ∧
        t.getF F.STR_STATUS_RESULT = 0
      else t.dev = { s.dev with st := .limited, limitedCause := 1 } ∧ t.strPhase = 7 ∧ regsBut [R.STR_STATUS, R.DEV_STATE] s t ∧
        sameWork s t := by
  intro k ok
  have hok : ∀ j, ok j = decide (s.slotResult sa sb j = .ok) := slotResult_ok
  have he := streamLoad_eq (sa := sa) (sb := sb) (accel := accel) hb hf hn
  refine ⟨s.streamLoad sa sb accel, rfl, ?_⟩
  by_cases h0 : s.slotResult sa sb k = .ok
  · have hk : ok k = true := (hok k).trans (decide_eq_true h0)
    have ht : s.streamLoad sa sb accel = s.slotLoaded accel k := he.trans (if_pos h0)
    rw [if_pos (by rw [hk]; rfl), if_pos hk, ht]
    exact ⟨rfl, slotLoaded_runs k⟩
  · have hk : ok k = false := (hok k).trans (decide_eq_false h0)
    by_cases h1 : s.slotResult sa sb (1 - k) = .ok
    · have hk1 : ok (1 - k) = true := (hok _).trans (decide_eq_true h1)
      have ht : s.streamLoad sa sb accel = s.slotLoaded accel (1 - k) := he.trans ((if_neg h0).trans (if_pos h1))
      rw [if_pos (by rw [hk, hk1]; rfl), if_neg (by simp [hk]), ht]
      exact ⟨rfl, slotLoaded_runs (1 - k)⟩
    · have hk1 : ok (1 - k) = false := (hok _).trans (decide_eq_false h1)
      have ht : s.streamLoad sa sb accel = s.streamless _ := he.trans ((if_neg h0).trans (if_neg h1))
      rw [if_neg (by simp [hk, hk1]), ht]
      exact ⟨State.setDev_dev _ _, strPhase_streamless _, (streamless_writes _).regs, (streamless_writes _).frame.work⟩

theorem env_timedOut (s : State) (hw : s.dev.envWait = true) (hn : s.str.env ≠ []) (hst : s.dev.st = .boot ∨ s.dev.st = .limited) :
    ∃ u : State, exec .envCheckTimeout s = .next u.driverCheck ∧
      u.dev = { s.dev with st := if s.dev.shed = 0 then .ready else .shedding, limitedCause := 0, envWait := false } ∧
      (∀ e, s.since.find? (·.1 == .envCheck) = some e → e.2 + 10 ^ 10 ≤ u.up) ∧
      (∀ k < 16, s.backendStated k = true → s.getF (F.NVS_BE_STATE k) ≠ 2 → u.str.beOff.contains k = true) ∧ sameEngines s u ∧
      sameTenants s u := by
  obtain ⟨z, c, hr⟩ : ∃ z c, s.envRipe = { s with time := z, since := c } := ripe_eq
  have hf := envTimedOut_frame s.envRipe
  have hdev : s.envRipe.envTimedOut.dev = s.dev := by rw [hf.dev, hr]
  have henv : s.envRipe.envTimedOut.str.env ≠ [] := by
    rw [hf.env, hr]
    exact hn
  have he : s.envTimeout = s.envRipe.envTimedOut.envReady.driverCheck :=
    (envTimeout_eq hw).trans
      (envSettle_of_answered (by rw [hdev, hw]) envAnswered_envTimedOut henv (by rwa [hdev]))
  refine ⟨_, congrArg Host.Outcome.next he, ?_, fun e hs => ?_, fun k hk hb h2 => ?_, ?_⟩
  · rw [State.envReady, State.setDev_dev, hdev]
  · rw [State.envReady, State.up, State.setDev_time, hf.time]
    exact up_envRipe hs
  · rw [State.envReady, State.setDev_str]
    have ha := backends_envTimedOut (s := s.envRipe) hk
    rw [BackendAnswered, hf.backendStated, hf.backendState hk] at ha
    have hstated : s.envRipe.backendStated k = true := by
      rw [hr]
      exact hb
    have hdown : s.envRipe.getF (F.NVS_BE_STATE k) ≠ 2 := by
      rw [hr]
      exact h2
    exact (ha hstated).resolve_left hdown
  · have hs : sameServed s s.envRipe := by
      rw [hr]
      simp [sameServed, sameEngines, sameTenants]
    exact (hs.trans hf.served).trans (served_envReady _)

/-- Settles O19: the load by what the checks say of the two slots, and the end of the check by every answer being there. -/
theorem streamStartUp : Obligations.StreamStartUp := ⟨stream_loaded, env_timedOut⟩

end Sys2Proof.Machine
end

section

/-! ## O37: the steps of a flight

A step's start, its part and its completion each change the flight in its slot and little beside. What the parts leave alone is
said once for each operation that they share; the flight is followed through them. -/

namespace Sys2Proof.Machine

/-! ### The flight in a slot -/

section
variable {s t : State} {k : Nat} {f : Flight} {g : Flight → Flight}

@[simp] theorem flight_setFlight_same : (s.setFlight k f).flight k = some f := look_put_same _ _ _

theorem flight_of_flights (h : t.flights = s.flights) : t.flight k = s.flight k := congrArg (look · k) h

theorem updFlight_eq (h : s.flight k = some f) : s.updFlight k g = s.setFlight k (g f) := by
  simp only [State.updFlight, h]

theorem flight_updFlight (h : s.flight k = some f) : (s.updFlight k g).flight k = some (g f) := by
  rw [updFlight_eq h, flight_setFlight_same]

theorem updFlight_frame (s : State) (k : Nat) (g : Flight → Flight) : ∃ l, s.updFlight k g = { s with flights := l } := by
  unfold State.updFlight
  split
  · exact ⟨_, rfl⟩
  · exact ⟨_, rfl⟩

@[simp] theorem updFlight_mem : (s.updFlight k g).mem = s.mem := by
  obtain ⟨_, h⟩ := updFlight_frame s k g
  rw [h]

@[simp] theorem updFlight_rings : (s.updFlight k g).rings = s.rings := by
  obtain ⟨_, h⟩ := updFlight_frame s k g
  rw [h]

@[simp] theorem updFlight_time : (s.updFlight k g).time = s.time := by
  obtain ⟨_, h⟩ := updFlight_frame s k g
  rw [h]

end

section
variable {f g : Flight} {i j : Nat} {x : StepState}

@[simp] theorem stepSt_setStep_same : (f.setStep j x).stepSt j = x := lookD_put_same _ _ _ _

theorem stepSt_setStep_ne (h : i ≠ j) : (f.setStep j x).stepSt i = f.stepSt i := lookD_put_ne _ _ _ _ _ h.symm

theorem stepSt_of_steps (h : g.steps = f.steps) : g.stepSt j = f.stepSt j := congrArg (lookD · j StepState.waiting) h

end

/-! ### A step starts (R111, R114, R115) -/

section
variable {s u : State} {k j kind t : Nat} {f : Flight}

/-- Lateness is recorded in the flight, and in the slice's memory where it is logged. -/
theorem recordLate_flight (h : s.flight k = some f) :
    (s.recordLate k j).time = s.time ∧
      ∃ g, (s.recordLate k j).flight k = some g ∧ g.steps = f.steps ∧ g.image = f.image := by
  simp only [State.recordLate, h]
  split
  · exact ⟨rfl, f, h, rfl, rfl⟩
  · split
    · exact ⟨rfl, _, flight_setFlight_same, rfl, rfl⟩
    · exact ⟨rfl, _, flight_setFlight_same, rfl, rfl⟩

theorem unstall_flight (h : s.flight k = some f) :
    ∃ g, (s.unstall k).flight k = some g ∧ g.steps = f.steps ∧ g.image = f.image := by
  refine ⟨_, flight_updFlight h, ?_⟩
  split
  · exact ⟨rfl, rfl⟩
  · exact ⟨rfl, rfl⟩

theorem atLeast_now (s : State) (t : Nat) : (s.atLeast t).now = max s.now t := by
  simp only [State.atLeast, State.elapse, State.now]
  omega

/-- What a start of step j asks of its flight (R111). -/
def State.StepStarts (s : State) (f : Flight) (j kind : Nat) : Prop :=
  j < flSteps f.image ∧ (flStep f.image j).kind = kind ∧ f.stepSt j = .waiting ∧ (f.st = .running ∨ f.st = .stalled) ∧
    f.held = false ∧ f.inputsReady j = true ∧ s.stepPaused kind = false

/-- The state of a step that has started. -/
def State.stepStarted (s : State) (k j : Nat) (f : Flight) (t : Nat) : State :=
  ((((s.atLeast (max t (f.sched j))).recordLate k j).updFlight k fun f => f.setStep j (.running false)).unstall k)

theorem stepBegin_eq_some (h : s.flight k = some f) :
    s.stepBegin k j kind t = some u ↔ s.StepStarts f j kind ∧ s.stepStarted k j f t = u := by
  simp [State.stepBegin, h, State.StepStarts, State.stepStarted]

theorem stepBegin_ne_none (h : s.flight k = some f) : s.stepBegin k j kind t ≠ none ↔ s.StepStarts f j kind := by
  simp [Option.ne_none_iff_exists', stepBegin_eq_some h]

theorem stepStarted_flight (h : s.flight k = some f) :
    (s.stepStarted k j f t).now = max s.now (max t (f.sched j)) ∧
      ∃ g, (s.stepStarted k j f t).flight k = some g ∧ g.steps = put f.steps j (.running false) ∧ g.image = f.image := by
  obtain ⟨ht, g₁, h₁, hs₁, hi₁⟩ :=
    recordLate_flight (s := s.atLeast (max t (f.sched j))) (j := j) ((flight_of_flights rfl).trans h)
  obtain ⟨g₂, h₂, hs₂, hi₂⟩ := unstall_flight (flight_updFlight (g := fun f => f.setStep j (.running false)) h₁)
  refine ⟨?_, g₂, h₂, hs₂.trans (congrArg (put · j _) hs₁), hi₂.trans hi₁⟩
  rw [← atLeast_now]
  exact congrArg Time.ns ((updFlight_time.trans updFlight_time).trans ht)

/-- A step that has started is of the kind that was asked for. -/
theorem kind_of_stepBegin (h : s.stepBegin k j kind t = some u) (hf : u.flight k = some f) : (flStep f.image j).kind = kind := by
  cases hs : s.flight k with
  | none => simp [State.stepBegin, hs] at h
  | some f₀ =>
    obtain ⟨⟨-, hk, -⟩, rfl⟩ := (stepBegin_eq_some hs).1 h
    obtain ⟨-, g, hg, -, hi⟩ := stepStarted_flight (j := j) (t := t) hs
    cases hg.symm.trans hf
    rw [hi, hk]

/-- A step that starts runs, no earlier than its schedule, and no other step of its flight changes. -/
theorem stepBegin_started (hf : s.flight k = some f) (hu : s.stepBegin k j kind t = some u) :
    ∃ g : Flight, u.flight k = some g ∧ g.stepSt j = .running false ∧ g.image = f.image ∧
      (∀ i, i ≠ j → g.stepSt i = f.stepSt i) ∧ u.now = max s.now (max t (f.sched j)) := by
  obtain ⟨-, rfl⟩ := (stepBegin_eq_some hf).1 hu
  obtain ⟨hnow, g, hg, hs, hi⟩ := stepStarted_flight (j := j) (t := t) hf
  have hj (i : Nat) : g.stepSt i = (f.setStep j (.running false)).stepSt i := stepSt_of_steps hs
  exact ⟨g, hg, (hj j).trans stepSt_setStep_same, hi, fun i hi => (hj i).trans (stepSt_setStep_ne hi), hnow⟩

end

/-! ### The commands of steps -/

section
variable {s u : State} {k : Fin 64} {j t kind : Nat} {c : Instr}

theorem exec_step_none (hc : (c, kind) ∈ [(Instr.stepSend k j t, 1), (.stepRecv k j t, 2), (.stepReduce k j t, 3),
    (.stepConvert k j t, 4), (.stepProgram k j t, 5), (.stepCopy k j t, 6), (.stepLanding k j t, 7), (.stepSignalAccel k j t, 8)])
    (h : s.stepBegin k j kind t = none) : exec c s = .next s := by
  simp only [List.mem_cons, Prod.mk.injEq, List.not_mem_nil, or_false] at hc
  obtain ⟨rfl, rfl⟩ | ⟨rfl, rfl⟩ | ⟨rfl, rfl⟩ | ⟨rfl, rfl⟩ | ⟨rfl, rfl⟩ | ⟨rfl, rfl⟩ | ⟨rfl, rfl⟩ | ⟨rfl, rfl⟩ := hc
  · simp only [exec, execStepSend, h]
  · simp only [exec, execStepRecv, h]
  · simp only [exec, execStepReduce, h]
  · simp only [exec, execStepConvert, h]
  · simp only [exec, execStepProgram, h]
  · simp only [exec, execStepCopy, h]
  · simp only [exec, execStepLanding, h]
  · simp only [exec, execStepSignalAccel, h]

theorem exec_stepRecv (h : s.stepBegin k j 2 t = some u) : exec (.stepRecv k j t) s =
    .next (if (u.flight k).any fun f => f.badCount j then u.stepFault k stFormatInvalid else u) := by
  simp only [exec, execStepRecv, h]

theorem exec_stepSend (h : s.stepBegin k j 1 t = some u) : exec (.stepSend k j t) s = .next (u.runSend k j) := by
  simp only [exec, execStepSend, h]

theorem exec_stepCopy (h : s.stepBegin k j 6 t = some u) : exec (.stepCopy k j t) s = .next (u.runCopy k j) := by
  simp only [exec, execStepCopy, h]

theorem exec_stepLanding (h : s.stepBegin k j 7 t = some u) : exec (.stepLanding k j t) s = .next (u.runLanding k j) := by
  simp only [exec, execStepLanding, h]

theorem exec_stepSignalAccel (h : s.stepBegin k j 8 t = some u) : exec (.stepSignalAccel k j t) s = .next (u.runSignal k j) := by
  simp only [exec, execStepSignalAccel, h]

theorem exec_gallery_step (hc : (c, kind) ∈ [(Instr.stepReduce k j t, 3), (.stepConvert k j t, 4), (.stepProgram k j t, 5)])
    (h : s.stepBegin k j kind t = some u) : exec c s = .next (u.stepGal k j) := by
  simp only [List.mem_cons, Prod.mk.injEq, List.not_mem_nil, or_false] at hc
  obtain ⟨rfl, rfl⟩ | ⟨rfl, rfl⟩ | ⟨rfl, rfl⟩ := hc
  · simp only [exec, execStepReduce, h]
  · simp only [exec, execStepConvert, h]
  · simp only [exec, execStepProgram, h]

end


/-! ### SEND (R50, R106, R115) -/

/-- Units of the flight `f` in a slot have left: memory and rings are as they were, and of the flight only its connections
may differ. -/
structure UnitsLeft (k : Nat) (f : Flight) (s t : State) : Prop where
  mem : t.mem = s.mem
  rings : t.rings = s.rings
  flight : ∃ c, t.flight k = some { f with conns := c }

namespace UnitsLeft
variable {s t : State} {k : Nat} {f : Flight}

theorem foldl {α : Type} {p : State → α → State} {l : List α} (hp : ∀ t x, UnitsLeft k f s t → UnitsLeft k f s (p t x))
    (h : UnitsLeft k f s t) : UnitsLeft k f s (l.foldl p t) := by
  induction l generalizing t with
  | nil => exact h
  | cons x xs ih => exact ih (hp t x h)

theorem flightPkt {dest buf to0 seq off len : Nat} {bs : List Byte} (h : UnitsLeft k f s t) :
    UnitsLeft k f s (t.flightPkt k dest buf to0 seq off len bs) := by
  obtain ⟨hm, hr, c, hc⟩ := h
  simp only [State.flightPkt, hc]
  exact ⟨hm, hr, _, flight_setFlight_same⟩

end UnitsLeft

section
variable {s : State} {k j : Nat} {f : Flight}

theorem heat_frame (s : State) (k off len : Nat) : ∃ p, s.heat k off len = { s with plc := p } := by
  unfold State.heat
  generalize pagesIn off len = l
  induction l generalizing s with
  | nil => exact ⟨_, rfl⟩
  | cons x xs ih =>
    have hx : ∃ p, (s.updPage k x fun g => { g with heat := min 65535 (g.heat + blocksIn off len x) }) = { s with plc := p } := by
      unfold State.updPage
      split
      · exact ⟨_, rfl⟩
      · exact ⟨_, rfl⟩
    obtain ⟨p, hp⟩ := hx
    rw [List.foldl_cons, hp]
    exact ih _

theorem getBytes_frame (s : State) (sp : Space) (a n : Nat) : ∃ p, (s.getBytes sp a n).2 = { s with plc := p } := by
  cases sp with
  | tier h => exact heat_frame _ _ _ _
  | _ => exact ⟨_, rfl⟩

/-- A unit leaves packet by packet. -/
theorem sendUnit_left {dest buf to0 seq n : Nat} {src : Space × Nat × Nat} (h : s.flight k = some f) :
    UnitsLeft k f s (s.sendUnit k dest buf to0 seq src n) := by
  obtain ⟨p, hp⟩ := getBytes_frame s src.1 (src.2.1 + 65536 * n) (min 65536 (src.2.2 - 65536 * n))
  have hread : UnitsLeft k f s (s.getBytes src.1 (src.2.1 + 65536 * n) (min 65536 (src.2.2 - 65536 * n))).2 := by
    rw [hp]
    exact ⟨rfl, rfl, _, h⟩
  exact .foldl (fun _ _ h => h.flightPkt) hread

/-- The Coffer's judgment of a unit touches no flight, no ring and no byte of memory (R357). -/
theorem offer_frame (s : State) (e : Nat) (slice : Option Nat) (c : Nat) : (s.offer e slice c).2.mem = s.mem ∧
    (s.offer e slice c).2.rings = s.rings ∧ (s.offer e slice c).2.flights = s.flights := by
  have hd (s : State) : (s.deferUnit slice).mem = s.mem ∧ (s.deferUnit slice).rings = s.rings ∧
      (s.deferUnit slice).flights = s.flights := by
    cases slice <;> simp [State.deferUnit]
  unfold State.offer
  split
  · exact ⟨rfl, rfl, rfl⟩
  · extract_lets
    split
    · exact ⟨rfl, rfl, rfl⟩
    · exact hd _

/-- A unit that may leave is offered to the Coffer, which admits or defers it (R106, R115). -/
theorem sendOne_offered {left seq : Nat} {i o : FOpd} {e : Space × Nat × Nat} {l : List (Space × Nat × Nat)}
    (hf : s.flight k = some f) (hl : look f.txLeft j = some (left, seq)) (hi : (flStep f.image j).opds.find? FOpd.reads = some i)
    (ho : (flStep f.image j).opds.find? FOpd.writes = some o) (hs : s.opdSpans k f (flStep f.image j) i = e :: l)
    (hp : s.stepPaused 1 = false) (hd : s.shedAt 4 = false)
    (hx : s.txFits (s.flightQueue f (flStep f.image j).peer) (f.unitWire (flStep f.image j).peer (min 65536 e.2.2)) = true)
    (hr : s.stepReach k f j = .ok) :
    ∃ ok t g, s.sendOne k j = (ok, t) ∧ ok = (s.offer 1 (some f.slice) s.txCost).1 ∧ t.flight k = some g ∧
      sameBytes s t ∧ t.rings = s.rings ∧
      (ok = true → g.stepSt j = .running true ∧ look g.txLeft j = if left ≤ 1 then none else some (left - 1, seq)) ∧
      (ok = false → g.anyDeferred = true ∧ g.stepSt j = f.stepSt j ∧ g.txLeft = f.txLeft) := by
  obtain ⟨hm, hrings, hflights⟩ := offer_frame s 1 (some f.slice) s.txCost
  simp only [State.sendOne, hf, hl, hi, ho, hs, hp, hd, hx, hr]
  generalize s.offer 1 (some f.slice) s.txCost = v at hm hrings hflights ⊢
  obtain ⟨ok, v⟩ := v
  have hv : v.flight k = some f := (flight_of_flights hflights).trans hf
  cases ok with
  | false =>
    refine ⟨_, _, _, rfl, rfl, flight_updFlight hv, fun a => ?_, updFlight_rings.trans hrings, nofun, fun _ => ⟨rfl, rfl, rfl⟩⟩
    rw [updFlight_mem, hm]
  | true =>
    obtain ⟨hum, hur, c, hu⟩ := sendUnit_left (dest := (flStep f.image j).peer) (buf := o.buf)
      (to0 := if (flBuf f.image i.buf).kind = 1 then o.off * (flBuf f.image i.buf).slot else eltOff (flBuf f.image i.buf).fmt o.off)
      (seq := seq) (n := sendUnits e.2.2 - left) (src := e) hv
    refine ⟨_, _, _, rfl, rfl, flight_updFlight hu, fun a => ?_, updFlight_rings.trans (hur.trans hrings), fun _ => ⟨?_, ?_⟩, nofun⟩
    · rw [updFlight_mem, hum, hm]
    · exact lookD_put_same _ _ _ _
    · dsimp only
      split
      · exact look_drop_same _ _
      · exact look_put_same _ _ _

/-- SEND puts its message's units in order for its peer, where its count is allowed (R50, R106). -/
theorem runSend_eq {i : FOpd} (hf : s.flight k = some f) (hi : (flStep f.image j).opds.find? FOpd.reads = some i) :
    s.runSend k j = if f.badCount j then s.stepFault k stFormatInvalid else
      let n := sendUnits (((s.opdSpans k f (flStep f.image j) i).headD (.accel 0, 0, 0)).2.2)
      let c := f.conn (flStep f.image j).peer
      State.sendGo k j n (s.setFlight k
        { f with txLeft := put f.txLeft j (n, c.2), conns := put f.conns (flStep f.image j).peer (c.1, c.2 + 1) }) := by
  simp only [State.runSend, hf, hi]

end

/-! ### Steps of the Gallery (R106) -/

section
variable {s : State} {k j : Nat} {f : Flight} {c : GalCmd}

theorem mem_galPut (h : c ∈ s.gal.cmds) : c ∈ (s.galPut c).gal.cmds :=
  List.mem_map.2 ⟨c, h, by simp⟩

/-- A command with elements to hand out stays in the Gallery. -/
theorem galSettle_open (hn : c.next < c.count) (hf : c.fault = none) : s.galSettle c = s.galPut c := by
  rw [State.galSettle, if_neg]
  simp only [hf, Option.isSome_none, Bool.false_eq_true, false_or]
  omega

/-- The slot of the program that a PROGRAM step names (R91). -/
def State.stepSlot (s : State) (f : Flight) (j : Nat) : Option Nat :=
  let y := flStep f.image j
  if y.kind = 5 then s.findProg f.slice y.progId y.progVer else none

/-- The image in that slot; another step has none. -/
def State.stepImage (s : State) (f : Flight) (j : Nat) : List Byte :=
  match s.stepSlot f j with
  | some q => (s.progSlot q).image
  | none => []

/-- The status with which a Gallery step starts: that of its program's absence comes first. -/
def State.stepVerdict (s : State) (k : Nat) (f : Flight) (j : Nat) : Nat :=
  let y := flStep f.image j
  if y.kind = 5 ∧ (s.stepSlot f j).isNone then stProgAbsent else s.stepStatus f y (s.stepImage f j) (s.stepStrms k f y)

theorem stepGal_of_fault {st : Nat} (hf : s.flight k = some f) (h : s.stepVerdict k f j = st) (hst : st ≠ stOk) :
    s.stepGal k j = s.stepFault k st := by
  subst h
  simp only [State.stepGal, hf]
  exact if_pos hst

/-- A Gallery step whose checks pass joins the Gallery as a command. -/
theorem stepGal_of_ok (hf : s.flight k = some f) (h : s.stepVerdict k f j = stOk) :
    let y := flStep f.image j
    ∃ (v t : State) (x : GalCmd), s.stepGal k j = t ∧ t = v.galSettle x ∧
      v = { s with gal := { s.gal with cmds := s.gal.cmds ++ [x] } } ∧ x.step = some (k, j) ∧ x.kind = y.kind - 2 ∧ x.count = y.count ∧
      x.inCtrl = y.inCtrl ∧ x.outCtrl = y.outCtrl ∧ x.slot = (s.stepSlot f j).getD 15 ∧ x.image = s.stepImage f j ∧ x.slice = f.slice ∧
      x.start = f.sched j ∧ x.next = 0 ∧ x.chunks = [] ∧ x.fault = none ∧
      (0 < y.count → x ∈ t.gal.cmds ∧ sameBytes s t ∧ t.flights = s.flights) := by
  have hrun : s.stepGal k j = s.stepGal k j := rfl
  conv_rhs at hrun => simp only [State.stepGal, hf]
  refine ⟨_, _, _, hrun.trans (if_neg (not_not.2 h)), rfl, rfl, rfl, rfl, rfl, rfl, rfl, rfl, rfl, rfl, rfl, rfl, rfl, rfl, fun hc => ?_⟩
  rw [galSettle_open hc rfl]
  exact ⟨mem_galPut (List.mem_append_right _ List.mem_cons_self), fun _ => rfl, rfl⟩

end

/-! ### Bytes put into a space -/

/-- Registers, draws, memory and placement may differ, and nothing else. -/
def PageFrame (s t : State) : Prop := ∃ r d m p, t = { s with regs := r, draws := d, mem := m, plc := p }

namespace PageFrame
variable {s t u : State} {k p : Nat}

theorem refl (s : State) : PageFrame s s := ⟨_, _, _, _, rfl⟩

theorem trans (h : PageFrame s t) (g : PageFrame t u) : PageFrame s u := by
  obtain ⟨_, _, _, _, rfl⟩ := h
  obtain ⟨_, _, _, _, rfl⟩ := g
  exact ⟨_, _, _, _, rfl⟩

theorem flights (h : PageFrame s t) : t.flights = s.flights := by
  obtain ⟨_, _, _, _, rfl⟩ := h
  rfl

theorem mem (h : PageFrame s t) (m : Mem) : PageFrame s { t with mem := m } := h.trans ⟨_, _, _, _, rfl⟩

theorem ite {c : Prop} [Decidable c] (h : PageFrame s t) (g : PageFrame s u) : PageFrame s (if c then t else u) := by
  split <;> assumption

theorem foldl {α : Type} {f : State → α → State} (hf : ∀ s x, PageFrame s (f s x)) (l : List α) (s : State) :
    PageFrame s (l.foldl f s) := by
  induction l generalizing s with
  | nil => exact refl s
  | cons x xs ih => exact (hf s x).trans (ih _)

theorem event (f : Fld) : PageFrame s (s.event f) := ⟨_, _, _, _, rfl⟩

theorem updPage {g : TPage → TPage} : PageFrame s (s.updPage k p g) := by
  unfold State.updPage
  split
  · exact refl s
  · exact ⟨_, _, _, _, rfl⟩

theorem blankHome {c : Nat} : PageFrame s (s.blankHome k p c) := by
  unfold State.blankHome
  split
  · exact (refl s).mem _
  · exact refl s

theorem frameFor {c t : Nat} : PageFrame s (s.frameFor k p c t).2 := by
  unfold State.frameFor
  split
  · exact refl s
  · exact ⟨_, _, _, _, rfl⟩

theorem firstWrite : PageFrame s (s.firstWrite k p) := by
  unfold State.firstWrite
  split
  next => exact refl s
  next o _ =>
    refine .ite (refl s) ?_
    split
    next => exact refl s
    next t _ =>
      have hplaced (u : State) (c n : Nat) (g : TPage → TPage) {v : State} (hv : PageFrame u v) :
          PageFrame u (if n = 2 then (v.updPage k p g).blankHome k p c else v.updPage k p g) :=
        .ite ((hv.trans updPage).trans blankHome) (hv.trans updPage)
      exact (hplaced s 0 t _ frameFor).trans (.ite (hplaced _ 1 o.repTier _ frameFor) (refl _))

theorem tierTouch : PageFrame s (s.tierTouch k p) := by
  unfold State.tierTouch
  extract_lets u
  have hu : PageFrame s u := firstWrite
  split
  · exact hu
  · exact .ite ((hu.trans updPage).trans (event _)) (hu.trans updPage)

theorem writePage {off : Nat} {bs : List Byte} : PageFrame s (s.writePage k p off bs) := by
  unfold State.writePage
  split
  · exact refl s
  · refine .ite (refl s) ?_
    extract_lets u
    have hu : PageFrame s u := updPage.trans tierTouch
    split
    · exact hu
    · exact hu.mem _

theorem tierWrite {off : Nat} {bs : List Byte} : PageFrame s (s.tierWrite k off bs) := foldl (fun _ _ => writePage) _ s

theorem ofPlc (h : ∃ p, t = { s with plc := p }) : PageFrame s t := by
  obtain ⟨_, rfl⟩ := h
  exact ⟨_, _, _, _, rfl⟩

theorem getBytes {sp : Space} {a n : Nat} : PageFrame s (s.getBytes sp a n).2 := ofPlc (getBytes_frame _ _ _ _)

theorem putBytes {sp : Space} {a : Nat} {bs : List Byte} : PageFrame s (s.putBytes sp a bs) := by
  cases sp with
  | tier h => exact (ofPlc (heat_frame _ _ _ _)).trans tierWrite
  | _ => exact (refl s).mem _

end PageFrame

/-! ### COPY (R106, R173) -/

section
variable {s : State} {k j : Nat} {f : Flight} {i o : FOpd}

/-- The bytes of each span of a source go to the span of its destination. -/
def State.spansCopied (s : State) (l : List ((Space × Nat × Nat) × (Space × Nat × Nat))) : State :=
  l.foldl (fun v e =>
    let r := v.getBytes e.1.1 e.1.2.1 e.1.2.2
    r.2.putBytes e.2.1 e.2.2.1 r.1) s

theorem spansCopied_frame (s : State) (l : List ((Space × Nat × Nat) × (Space × Nat × Nat))) : PageFrame s (s.spansCopied l) :=
  .foldl (fun _ _ => PageFrame.getBytes.trans .putBytes) l s

/-- A COPY faults for its count or by its access, waits for pages of T4, or copies and passes its commit point. -/
theorem runCopy_spec (hf : s.flight k = some f) (hi : (flStep f.image j).opds.find? FOpd.reads = some i)
    (ho : (flStep f.image j).opds.find? FOpd.writes = some o) :
    let fits := (flBuf f.image i.buf).kind ≠ 0 ∨ (flBuf f.image i.buf).fmt.fits (flStep f.image j).count = true
    let v := s.spansCopied ((s.opdSpans k f (flStep f.image j) i).zip (s.opdSpans k f (flStep f.image j) o))
    (¬ fits → s.runCopy k j = s.stepFault k stFormatInvalid) ∧
    (fits → ∀ st, s.stepReach k f j = .fail st → s.runCopy k j = (s.poolFault st).stepFault k (streamFail st)) ∧
    (fits → s.stepReach k f j = .wait → s.runCopy k j = s.stepFetch k f j) ∧
    (fits → s.stepReach k f j = .ok → ∃ g, s.runCopy k j = v.updFlight k (fun f => f.setStep j (.running true)) ∧
      (s.runCopy k j).flight k = some g ∧ g.stepSt j = .running true) := by
  intro fits v
  have hfits : fits ↔ ¬ ((flBuf f.image i.buf).kind = 0 ∧ !(flBuf f.image i.buf).fmt.fits (flStep f.image j).count) := by
    simp [fits, or_iff_not_imp_left]
  simp only [hfits, State.runCopy, hf, hi, ho]
  refine ⟨fun h => if_pos (not_not.1 h), fun h st hr => ?_, fun h hr => ?_, fun h hr => ?_⟩
  · rw [if_neg h, hr]
  · rw [if_neg h, hr]
  · rw [if_neg h, hr]
    exact ⟨_, rfl, flight_updFlight ((flight_of_flights (spansCopied_frame s _).flights).trans hf), stepSt_setStep_same⟩

end

/-! ### LANDING (R113) -/

section
variable {s : State} {k j : Nat} {f : Flight}

theorem foldl_ctlAgain_frame (l : List Ctl) (s : State) : ∃ r p, l.foldl State.ctlAgain s = { s with regs := r, pp := p } := by
  induction l generalizing s with
  | nil => exact ⟨_, _, rfl⟩
  | cons c cs ih => exact ih (s.ctlAgain c)

/-- A control message goes to each of the devices, with the number that is next, and waits for its acknowledgement. -/
theorem broadcast_spec {dests fields : List Nat} {kind step : Nat} (hf : s.flight k = some f) :
    let t := s.broadcast k dests kind step fields
    t.flights = s.flights ∧ t.mem = s.mem ∧ t.rings = s.rings ∧ t.flCtlNext = s.flCtlNext + 1 ∧
      ∀ d ∈ dests, ∃ c ∈ t.flCtl, c.dest = d ∧ c.kind = kind ∧ c.id = f.id ∧ c.epoch = f.epoch ∧ c.num = s.flCtlNext ∧ c.fields = fields := by
  simp only [State.broadcast, hf]
  generalize hl : dests.map _ = l
  obtain ⟨_, _, hs⟩ := foldl_ctlAgain_frame l s
  rw [hs]
  refine ⟨rfl, rfl, rfl, rfl, fun d hd => ?_⟩
  subst hl
  exact ⟨_, List.mem_append_right _ (List.mem_map_of_mem hd), rfl, rfl, rfl, rfl, rfl, rfl⟩

/-- A landing's own members have arrived, and every other device that has a member is told (R113). -/
theorem runLanding_spec (hf : s.flight k = some f) :
    let own := (flMembers f.image (flStep f.image j).peer).filter fun r => (flRank f.image r).1 == flDev f.image
    let t := s.runLanding k j
    ∃ g, t.flight k = some g ∧ g.stepSt j = .running true ∧
      g.arrived = f.arrived ++ own.map (fun r => ((flStep f.image j).peer, r)) ∧ t.flCtlNext = s.flCtlNext + 1 ∧
      (∀ d ∈ f.peers, (∃ r ∈ flMembers f.image (flStep f.image j).peer, (flRank f.image r).1 = d) → ∃ c ∈ t.flCtl, c.dest = d ∧ c.kind = 2 ∧
        c.id = f.id ∧ c.epoch = f.epoch ∧ c.num = s.flCtlNext ∧ c.fields = (flStep f.image j).peer :: own) ∧ sameBytes s t ∧ t.rings = s.rings := by
  simp only [State.runLanding, hf]
  obtain ⟨hfl, hm, hr, hn, hc⟩ := broadcast_spec (flight_setFlight_same (s := s) (k := k) (f := _))
  refine ⟨_, (flight_of_flights hfl).trans flight_setFlight_same, lookD_put_same _ _ _ _, rfl, hn, fun d hd ⟨r, hr, he⟩ => hc d ?_, ?_, hr⟩
  · simp only [List.mem_filter, List.any_eq_true, beq_iff_eq]
    exact ⟨hd, r, hr, he⟩
  · exact fun a => congrArg (Mem.get · a) hm

end

/-! ### SIGNAL-ACCEL (R106) -/

section
variable {s : State} {k j : Nat} {f : Flight}

theorem signal_flights (s : State) (a : Nat) : (s.signal a).flights = s.flights := by
  unfold State.signal
  extract_lets
  split
  · rfl
  · rfl

theorem foldl_signal_flights (l : List Nat) (s : State) : (l.foldl State.signal s).flights = s.flights := by
  induction l generalizing s with
  | nil => rfl
  | cons a as ih => exact (ih _).trans (signal_flights s a)

theorem signal_mem (s : State) (a : Nat) : let p := (Space.accel a).at (s.accelCompletionOff a)
    (s.accelCompletion a = 1 → (s.signal a).mem = s.mem.write p (leBytes 8 (leNat (s.mem.read p 8) + 1))) ∧
    (s.accelCompletion a ≠ 1 → (s.signal a).mem = s.mem.write p (leBytes 8 (Config.freeWord s.draws).toNat)) := by
  refine ⟨fun h => ?_, fun h => ?_⟩
  · rw [State.signal, if_pos h]
  · rw [State.signal, if_neg h]
    rfl

/-- A SIGNAL-ACCEL step faults by its first failed access, or signals each of its positions. -/
theorem runSignal_spec (hf : s.flight k = some f) :
    let ps := (List.range 8).filter fun a => bitAt (flStep f.image j).signal a
    (∀ st, (ps.map fun a => s.accelAccess f.slice a (s.accelCompletionOff a) 8).find? (· != stOk) = some st →
      s.runSignal k j = s.stepFault k st) ∧
    ((∀ a ∈ ps, s.accelAccess f.slice a (s.accelCompletionOff a) 8 = stOk) → ∃ g,
      (s.runSignal k j).mem = (ps.foldl State.signal s).mem ∧ (s.runSignal k j).flight k = some g ∧ g.stepSt j = .running true) := by
  intro ps
  refine ⟨fun st hst => ?_, fun hall => ?_⟩
  · simp only [State.runSignal, hf]
    rw [hst]
  · have hnone : (ps.map fun a => s.accelAccess f.slice a (s.accelCompletionOff a) 8).find? (· != stOk) = none := by
      simpa using hall
    simp only [State.runSignal, hf]
    rw [hnone]
    exact ⟨_, updFlight_mem, flight_updFlight ((flight_of_flights (foldl_signal_flights ps s)).trans hf), stepSt_setStep_same⟩

end

/-! ### Completion (R116) -/

section
variable {s : State} {k j : Nat} {f : Flight}

theorem bump64_reg_lo {lo hi n : Nat} (h : lo ≠ hi) :
    (s.bump64 lo hi n).reg lo = (s.reg lo + 2 ^ 32 * s.reg hi + n) % 2 ^ 32 := by
  rw [State.bump64, reg_setReg_ne _ _ _ _ h.symm, reg_setReg_same]

theorem bump64_reg_hi {lo hi n : Nat} :
    (s.bump64 lo hi n).reg hi = (s.reg lo + 2 ^ 32 * s.reg hi + n) / 2 ^ 32 % 2 ^ 32 :=
  reg_setReg_same _ _ _

theorem stepCount_flight (hf : s.flight k = some f) : (s.stepCount k j).flight k = some (f.setStep j .complete) :=
  flight_updFlight hf

theorem stepCount_frame (s : State) (k j : Nat) :
    ∃ l, s.stepCount k j = { s.bump64 R.FLT_CNT_STEP_LO R.FLT_CNT_STEP_HI 1 with flights := l } := by
  obtain ⟨l, h⟩ := updFlight_frame s k fun f => f.setStep j .complete
  exact ⟨l, congrArg (State.bump64 · _ _ _) h⟩

/-- A step that completes is counted; what it makes ready, or a landing's hold, changes its flight alone. -/
theorem stepDone_eq (hf : s.flight k = some f) : ∃ u g, s.stepDone k j = u.flightLand k ∧ u.flight k = some g ∧
    g.stepSt j = .complete ∧ g.st = f.st ∧ ∃ l, u = { s.bump64 R.FLT_CNT_STEP_LO R.FLT_CNT_STEP_HI 1 with flights := l } := by
  obtain ⟨l, hl⟩ := stepCount_frame s k j
  simp only [State.stepDone, hf, State.blameNew]
  rw [updFlight_eq (stepCount_flight hf), hl]
  split
  · rw [updFlight_eq flight_setFlight_same]
    exact ⟨_, _, rfl, flight_setFlight_same, stepSt_setStep_same, rfl, _, rfl⟩
  · exact ⟨_, _, rfl, flight_setFlight_same, stepSt_setStep_same, rfl, _, rfl⟩

/-- A running flight of which every step is complete lands, and its run's completion is written (R116, R117). -/
theorem flightLand_landed (hf : s.flight k = some f) (hd : f.allDone = true) (hst : f.st = .running ∨ f.st = .stalled) :
    ∃ x st, s.flightLand k = s.flightEnd k x st (flDev f.image) ∧ x.st = .landed := by
  have hc : ((f.st == .running || f.st == .stalled) && f.allDone) = true := by simpa [hd] using hst
  simp only [State.flightLand, hf, hc]
  exact ⟨_, _, rfl, rfl⟩

theorem flightLand_open (hf : s.flight k = some f) (hd : f.allDone = false) : s.flightLand k = s := by
  simp [State.flightLand, hf, hd]

/-- A step that is done completes and counts, and the last one lands its flight. -/
theorem stepDone_spec (hf : s.flight k = some f) :
    let n := s.reg R.FLT_CNT_STEP_LO + 2 ^ 32 * s.reg R.FLT_CNT_STEP_HI + 1
    ∃ u g, s.stepDone k j = u.flightLand k ∧ u.flight k = some g ∧ g.stepSt j = .complete ∧ g.st = f.st ∧
      u.reg R.FLT_CNT_STEP_LO = n % 2 ^ 32 ∧ u.reg R.FLT_CNT_STEP_HI = n / 2 ^ 32 % 2 ^ 32 ∧ sameBytes s u ∧ u.ops = s.ops ∧
      (g.allDone = true → g.st = .running ∨ g.st = .stalled → ∃ x st, u.flightLand k = u.flightEnd k x st (flDev g.image) ∧ x.st = .landed) ∧
      (g.allDone = false → u.flightLand k = u) := by
  obtain ⟨u, g, hu, hg, hj, hst, l, hl⟩ := stepDone_eq (j := j) hf
  have hreg (a : Nat) : u.reg a = (s.bump64 R.FLT_CNT_STEP_LO R.FLT_CNT_STEP_HI 1).reg a := by
    rw [hl]
    rfl
  refine ⟨u, g, hu, hg, hj, hst, (hreg _).trans (bump64_reg_lo (by decide)), (hreg _).trans bump64_reg_hi, fun a => ?_, ?_,
    flightLand_landed hg, flightLand_open hg⟩
  · rw [hl]
    rfl
  · rw [hl]
    rfl

end

section
variable {s : State} {k j : Nat} {f : Flight}

/-- The step is under way in a run that has not ended. -/
def Flight.underWay (f : Flight) (j : Nat) : Prop := f.active = true ∧ (f.stepSt j = .running true ∨ f.stepSt j = .running false)

theorem underWay_iff : f.underWay j ↔ ¬ (!f.active ∨ !(f.stepSt j == .running true || f.stepSt j == .running false)) := by
  simp [Flight.underWay, or_iff_not_imp_left]

theorem stepComplete_idle (hf : s.flight k = some f) (h : ¬ f.underWay j) : s.stepComplete k j = s := by
  simp only [State.stepComplete, hf]
  exact if_pos (not_not.1 (mt underWay_iff.2 h))

/-- A step of which nothing is left completes (Table 05-6). -/
theorem stepComplete_done (hf : s.flight k = some f) (h : f.underWay j)
    (hd : ((flStep f.image j).kind = 1 ∧ look f.txLeft j = none) ∨ ((flStep f.image j).kind = 2 ∧ f.recvDone j = true) ∨
      ((flStep f.image j).kind = 6 ∧ f.stepSt j = .running true) ∨ ((flStep f.image j).kind = 7 ∧ f.landDone j = true) ∨
      8 ≤ (flStep f.image j).kind) : s.stepComplete k j = s.stepDone k j := by
  simp only [State.stepComplete, hf]
  rw [if_neg (underWay_iff.1 h)]
  obtain ⟨hk, hl⟩ | ⟨hk, hr⟩ | ⟨hk, hs⟩ | ⟨hk, hl⟩ | hk := hd
  · simp [hk, hl]
  · simp [hk, hr]
  · simp [hk, hs, hf, h.1]
  · simp [hk, hl]
  · repeat rw [if_neg (by omega)]

/-- A RECV waits for its data, and a landing for its members. -/
theorem stepComplete_waits (hf : s.flight k = some f) (h : f.underWay j)
    (hd : ((flStep f.image j).kind = 2 ∧ f.recvDone j = false) ∨ ((flStep f.image j).kind = 7 ∧ f.landDone j = false)) :
    s.stepComplete k j = s := by
  simp only [State.stepComplete, hf]
  rw [if_neg (underWay_iff.1 h)]
  obtain ⟨hk, hr⟩ | ⟨hk, hl⟩ := hd
  · simp [hk, hr]
  · simp [hk, hl]

/-- Units of a SEND that are left go on. -/
theorem stepComplete_send {e : Nat × Nat} (hf : s.flight k = some f) (h : f.underWay j) (hk : (flStep f.image j).kind = 1)
    (he : look f.txLeft j = some e) : s.stepComplete k j = State.sendGo k j e.1 s := by
  simp only [State.stepComplete, hf]
  rw [if_neg (underWay_iff.1 h), if_pos hk, he]

/-- A COPY that waited for its pages is tried again, and is done where it has copied. -/
theorem stepComplete_copy (hf : s.flight k = some f) (h : f.underWay j) (hk : (flStep f.image j).kind = 6)
    (hs : f.stepSt j = .running false) : s.stepComplete k j =
      if ((s.runCopy k j).flight k).any (fun g => g.stepSt j == .running true && g.active) then (s.runCopy k j).stepDone k j
      else s.runCopy k j := by
  simp only [State.stepComplete, hf]
  rw [if_neg (underWay_iff.1 h)]
  simp only [hk, hs]
  rfl

/-- A Gallery step waits for its end, and ends the run or completes by what the Gallery reports. -/
theorem stepComplete_gallery (hf : s.flight k = some f) (h : f.underWay j) (h3 : 3 ≤ (flStep f.image j).kind)
    (h5 : (flStep f.image j).kind ≤ 5) :
    let v : State := { s with gal := { s.gal with ended := s.gal.ended.filter fun e => !(e.slot == k && e.step == j) } }
    ((s.gal.ended.find? fun e => e.slot == k && e.step == j) = none → s.stepComplete k j = s) ∧
    (∀ e, (s.gal.ended.find? fun e => e.slot == k && e.step == j) = some e →
      (e.bad = true → s.stepComplete k j = (v.setFlight k ((f.absorb e).setStep j .stopped)).stepFault k e.status) ∧
      (e.bad = false → s.stepComplete k j = (v.setFlight k (f.absorb e)).stepDone k j)) := by
  simp only [State.stepComplete, hf]
  rw [if_neg (underWay_iff.1 h), if_neg (by omega), if_neg (by omega), if_pos h5]
  refine ⟨fun he => by rw [he], fun e he => ?_⟩
  rw [he]
  exact ⟨fun hb => if_pos hb, fun hb => if_neg (by simp [hb])⟩

end

/-- Settles O37: each clause by the lemma on the step's start, its part or its completion. -/
theorem flightSteps : Obligations.FlightSteps := by
  unfold Obligations.FlightSteps
  refine ⟨fun s k j kind t f hf => ⟨stepBegin_ne_none hf, fun u hu => stepBegin_started hf hu⟩,
    fun s k j t kind c hc h => exec_step_none hc h, ?recv, ?send,
    fun s k j left seq f i o e l hf hl hi ho hs hp hd hx hr => sendOne_offered hf hl hi ho hs hp hd hx hr,
    ?gallery, ?copy, ?landing, ?signal, signal_mem, ?complete⟩
  case recv =>
    intro s u k j t f hu hf
    rw [exec_stepRecv hu, hf, Option.any_some]
    exact ⟨fun hb => by rw [hb]; rfl, fun hb => by rw [hb]; rfl⟩
  case send =>
    intro s u k j t f i hu hf hi n c
    rw [exec_stepSend hu, runSend_eq hf hi]
    exact ⟨fun hb => by rw [if_pos hb], fun hb => by rw [if_neg (by simp [hb])]⟩
  case gallery =>
    intro s u k j t kind c f hc hu hf y slot img st
    rw [exec_gallery_step hc hu]
    obtain rfl := kind_of_stepBegin hu hf
    have habsent (h5 : y.kind = 5) (hs : slot = none) : u.stepVerdict k f j = stProgAbsent :=
      if_pos ⟨h5, Option.isNone_iff_eq_none.2 hs⟩
    have hpresent (h : y.kind = 5 → slot ≠ none) : u.stepVerdict k f j = st :=
      if_neg fun ⟨h5, hs⟩ => h h5 (Option.isNone_iff_eq_none.1 hs)
    refine ⟨fun h5 hs => ?_, fun hs hst => ?_, fun hs hst => ?_⟩
    · rw [stepGal_of_fault hf (habsent h5 hs) (by decide)]
    · rw [stepGal_of_fault hf (hpresent hs) hst]
    · obtain ⟨v, t', x, hrun, hx⟩ := stepGal_of_ok hf ((hpresent hs).trans hst)
      exact ⟨v, t', x, congrArg _ hrun, hx⟩
  case copy =>
    intro s u k j t f i o hu hf hi ho fits
    obtain ⟨hbad, hfail, hwait, hok⟩ := runCopy_spec hf hi ho
    rw [exec_stepCopy hu]
    refine ⟨fun h => by rw [hbad h], fun h st hst => by rw [hfail h st hst], fun h hr => by rw [hwait h hr], fun h hr => ?_⟩
    obtain ⟨g, hrun, hg⟩ := hok h hr
    exact ⟨_, _, g, rfl, rfl, hrun, hg⟩
  case landing =>
    intro s u k j t f hu hf own
    obtain ⟨g, hg⟩ := runLanding_spec (j := j) hf
    exact ⟨_, g, exec_stepLanding hu, hg⟩
  case signal =>
    intro s u k j t f hu hf ps
    obtain ⟨hfault, hok⟩ := runSignal_spec (j := j) hf
    rw [exec_stepSignalAccel hu]
    refine ⟨fun st hst => by rw [hfault st hst], fun hall => ?_⟩
    obtain ⟨g, hg⟩ := hok hall
    exact ⟨_, g, rfl, hg⟩
  case complete =>
    intro s k j f hf x on
    have hexec : exec (.stepComplete k j) s = .next (s.stepComplete k j) := rfl
    rw [hexec]
    refine ⟨fun h => by rw [stepComplete_idle hf h], fun h hd => by rw [stepComplete_done hf h hd],
      fun h hd => by rw [stepComplete_waits hf h hd], fun h hk e he => by rw [stepComplete_send hf h hk he],
      fun h hk hs => by rw [stepComplete_copy hf h hk hs], fun h h3 h5 => ?_, stepDone_spec hf⟩
    obtain ⟨hnone, hsome⟩ := stepComplete_gallery hf h h3 h5
    exact ⟨fun he => by rw [hnone he], fun e he => ⟨fun hb => by rw [(hsome e he).1 hb], fun hb => by rw [(hsome e he).2 hb]⟩⟩

end Sys2Proof.Machine
end

section

/-! ## O31: a fetch -/

namespace Sys2Proof.Machine

/-! ### A link wakes (R291) -/

section
variable {s : State} {p half a : Nat} {f : Fld}

theorem linkLpmF_ok : (linkLpmF p half).ok = true := by
  unfold linkLpmF
  split <;> rfl

theorem linkLpmF_reg : (linkLpmF p half).reg = R.HST_LINK p := by
  unfold linkLpmF
  split <;> rfl

theorem wakeLink_regsBut : regsBut [R.HST_LINK p] s (s.wakeLink p half) := by
  intro a ha
  have hne : (linkLpmF p half).reg ≠ a := by
    rw [linkLpmF_reg]
    rintro rfl
    exact ha List.mem_cons_self
  unfold State.wakeLink
  split
  · exact reg_setF_ne _ _ _ _ hne
  · rfl

/-- Of its register the power state alone changes. -/
theorem getF_wakeLink (hf : f.ok = true) (h : (linkLpmF p half).apart f = true) : (s.wakeLink p half).getF f = s.getF f := by
  unfold State.wakeLink
  split
  · exact getF_setF_apart _ _ _ _ linkLpmF_ok hf h
  · rfl

end

/-! ### What a fetch asks for, and what it leaves (R80, R308, R313) -/

section
variable {s u : State} {q kind tag : Nat} {d : Desc} {r : Ring} {o : Op}

/-- What a fetch asks of its ring (R80, R308, R313, R322). -/
structure FetchReady (s : State) (q kind : Nat) (r : Ring) : Prop where
  kind_eq : r.kind = kind
  bound : r.st = 1
  ahead : r.pi ≠ r.fi
  owner : r.isPf0 = false → (s.slice r.owner).takesWork = true
  core : ∀ v, kindService kind = some v → s.coreServes v q = true
  dma : s.canDma (s.ownerFn r.owner) = true
  h0 : s.hallPaused 0 = false
  h1 : s.hallPaused 1 = false

/-- The operation that a fetch makes of a descriptor. -/
def State.fetchedOp (s : State) (q kind tag : Nat) (d : Desc) (r : Ring) : Op :=
  ⟨s.opNext, q, r.owner, kindSrc kind, tag, d, s.sendCq q r, opIntr kind d, false, false, none⟩

/-- The state behind it. -/
def State.fetched (s : State) (q : Nat) (r : Ring) (o : Op) : State :=
  { (s.wakeLink (s.ownerFn r.owner).port (s.ownerFn r.owner).half).setRing q { r with fi := (r.fi + 1) % 65536 } with
    ops := s.ops ++ [o], opNext := s.opNext + 1 }

theorem fetchReady_iff : FetchReady s q kind r ↔ r.kind = kind ∧ r.st = 1 ∧ r.pi ≠ r.fi ∧
    (r.isPf0 = false → (s.slice r.owner).takesWork = true) ∧ (∀ v, kindService kind = some v → s.coreServes v q = true) ∧
    s.canDma (s.ownerFn r.owner) = true ∧ s.hallPaused 0 = false ∧ s.hallPaused 1 = false :=
  ⟨fun ⟨a, b, c, e, f, g, h, i⟩ => ⟨a, b, c, e, f, g, h, i⟩, fun ⟨a, b, c, e, f, g, h, i⟩ => ⟨a, b, c, e, f, g, h, i⟩⟩

theorem fetch_of_ring (hr : s.ring q = some r) : s.fetch q kind tag d = some (o, u) ↔
    FetchReady s q kind r ∧ s.fetchedOp q kind tag d r = o ∧ s.fetched q r (s.fetchedOp q kind tag d r) = u := by
  rw [fetchReady_iff]
  unfold State.fetch
  simp only [hr]
  cases hk : kindService kind <;> simp [State.fetched, State.fetchedOp, and_assoc, or_iff_not_imp_left]

/-- A fetch was ready, and left the state that a fetch leaves. -/
theorem fetch_eq_some : s.fetch q kind tag d = some (o, u) ↔
    ∃ r, s.ring q = some r ∧ FetchReady s q kind r ∧ s.fetchedOp q kind tag d r = o ∧ s.fetched q r o = u := by
  cases hr : s.ring q with
  | none => simp [State.fetch, hr]
  | some r =>
    rw [fetch_of_ring hr]
    constructor
    · rintro ⟨h, rfl, hu⟩
      exact ⟨r, rfl, h, rfl, hu⟩
    · rintro ⟨_, ⟨⟩, h, rfl, hu⟩
      exact ⟨h, rfl, hu⟩

theorem fetched_regs : regsBut [R.HST_LINK (s.ownerFn r.owner).port] s (s.fetched q r o) := wakeLink_regsBut

theorem fetched_ring : (s.fetched q r o).ring q = some { r with fi := (r.fi + 1) % 65536 } := look_put_same _ _ _

theorem fetched_ring_ne {k : Nat} (h : k ≠ q) : (s.fetched q r o).ring k = s.ring k := by
  refine (look_put_ne _ _ _ _ h.symm).trans ?_
  rw [State.wakeLink_rings, State.ring]

theorem fetched_frame : sameBytes s (s.fetched q r o) ∧ sameEngines s (s.fetched q r o) ∧ sameDevice s (s.fetched q r o) ∧
    (s.fetched q r o).slices = s.slices ∧ (s.fetched q r o).cqWait = s.cqWait ∧ (s.fetched q r o).clasps = s.clasps := by
  simp [State.fetched, sameBytes, sameEngines, sameDevice]

end

/-- Settles O31: a fetch is its readiness and the state that it leaves, read field by field. -/
theorem fetchTakesNextDescriptor : Obligations.FetchTakesNextDescriptor := by
  unfold Obligations.FetchTakesNextDescriptor
  constructor
  · intro s q kind tag d r hr hk hst hne hdma hown hcore h0 h1
    exact ⟨_, _, fetch_eq_some.2 ⟨r, hr, ⟨hk, hst, hne, hown, hcore, hdma, h0, h1⟩, rfl, rfl⟩⟩
  · intro s u q kind tag d o h
    obtain ⟨r, hr, hready, rfl, rfl⟩ := fetch_eq_some.1 h
    obtain ⟨hk, hst, hne, hown, -, hdma, h0, h1⟩ := hready
    obtain ⟨hbytes, hengines, hdevice, hslices, hcq, hclasps⟩ := fetched_frame (s := s) (q := q) (r := r) (o := s.fetchedOp q kind tag d r)
    exact ⟨r, hr, hk, hst, hne, hdma, hown, h0, h1, fetched_ring, rfl, rfl, rfl, rfl, rfl, rfl, rfl, rfl, rfl, fun _ => fetched_ring_ne,
      fetched_regs, hbytes, hengines, hdevice, hslices, hcq, hclasps⟩

end Sys2Proof.Machine
end

section

/-! ## O34: programs are loaded and unloaded

A command of the Gallery is fetched and dispatched in one way, whatever it does: what follows of its dispatch comes first. -/

namespace Sys2Proof.Machine

/-! ### What a fetch leaves of the right to issue requests (R291, R294) -/

section
variable {s u : State} {q kind tag p half : Nat} {d : Desc} {r : Ring} {o : Op} {f : Func}

theorem linkState_apart (p' : Nat) : (linkLpmF p half).apart (F.HST_LINK_H0_STATE p') = true ∧
    (linkLpmF p half).apart (F.HST_LINK_H1_STATE p') = true := by
  unfold linkLpmF
  split <;> simp [Fld.apart, F.HST_LINK_H0_LPM, F.HST_LINK_H1_LPM, F.HST_LINK_H0_STATE, F.HST_LINK_H1_STATE]

theorem linkUp_wakeLink (p' h' : Nat) : (s.wakeLink p half).linkUp p' h' = s.linkUp p' h' := by
  obtain ⟨h0, h1⟩ := linkState_apart (p := p) (half := half) p'
  unfold State.linkUp
  split
  · rw [getF_wakeLink rfl h0]
  · rw [getF_wakeLink rfl h1]

/-- The registers that show a function lie apart from the links'. -/
theorem hstFunc_ne_link (hp : p < 4) (a : Nat) : R.HST_FUNC a ≠ R.HST_LINK p := by
  simp only [R.HST_FUNC, R.HST_LINK]
  omega

theorem Func.bmeF_reg (f : Func) : ∃ a, f.bmeF.reg = R.HST_FUNC a := by
  cases f with
  | pf0 p => exact ⟨_, rfl⟩
  | pf1 p h => unfold Func.bmeF; simp only; split <;> exact ⟨_, rfl⟩

theorem Func.flrF_reg (f : Func) : ∃ a, f.flrF.reg = R.HST_FUNC a := by
  cases f with
  | pf0 p => exact ⟨_, rfl⟩
  | pf1 p h => unfold Func.flrF; simp only; split <;> exact ⟨_, rfl⟩

theorem Func.port_lt (f : Func) : f.port < 4 := by
  cases f with
  | pf0 p => exact p.isLt
  | pf1 p h => exact p.isLt

theorem canDma_wakeLink (hp : p < 4) : (s.wakeLink p half).canDma f = s.canDma f := by
  have hreg {g : Fld} (hg : ∃ a, g.reg = R.HST_FUNC a) : (s.wakeLink p half).getF g = s.getF g := by
    obtain ⟨a, ha⟩ := hg
    refine wakeLink_regsBut.getF ?_
    rw [ha, List.mem_singleton]
    exact hstFunc_ne_link hp a
  rw [State.canDma, State.canDma, linkUp_wakeLink, hreg f.bmeF_reg, hreg f.flrF_reg, State.fn, State.fn, State.wakeLink_fns]

theorem ownerFn_fetched (i : Nat) : (s.fetched q r o).ownerFn i = s.ownerFn i := by
  have hs : (s.fetched q r o).slice i = s.slice i := by
    obtain ⟨-, -, -, hs, -⟩ := fetched_frame (s := s) (q := q) (r := r) (o := o)
    have hn : (s.fetched q r o).nonceBase = s.nonceBase := State.wakeLink_nonceBase _ _ _
    rw [State.slice, State.slice, hs, hn]
  rw [State.ownerFn, hs, State.ownerFn]

/-- The owner of a fetched operation may still issue requests. -/
theorem canDma_of_fetch (h : s.fetch q kind tag d = some (o, u)) : u.canDma (u.ownerFn o.owner) = true := by
  obtain ⟨r, -, hready, rfl, rfl⟩ := fetch_eq_some.1 h
  have hdma := canDma_wakeLink (s := s) (half := (s.ownerFn r.owner).half) (f := s.ownerFn r.owner) (s.ownerFn r.owner).port_lt
  change (s.fetched q r (s.fetchedOp q kind tag d r)).canDma ((s.fetched q r (s.fetchedOp q kind tag d r)).ownerFn r.owner) = true
  rw [ownerFn_fetched]
  exact hdma.trans hready.dma

end

/-! ### A command is fetched and dispatched (R73, R92, R94, R392) -/

section
variable {s u : State} {q : BitVec 16} {d : Desc} {c : Instr} {o : Op} {op : Nat}

theorem exec_gallery (hc : (c, op) ∈ [(Instr.reduce q d, 1), (.convert q d, 2), (.program q d, 3), (.loadProgram q d, 4),
    (.unloadProgram q d, 5)]) : exec c s = .next (s.galFetch op q.toNat d) := by
  simp only [List.mem_cons, Prod.mk.injEq, List.not_mem_nil, or_false] at hc
  obtain ⟨rfl, rfl⟩ | ⟨rfl, rfl⟩ | ⟨rfl, rfl⟩ | ⟨rfl, rfl⟩ | ⟨rfl, rfl⟩ := hc <;> rfl

theorem desc_of_fetch {ring kind tag : Nat} (h : s.fetch ring kind tag d = some (o, u)) : o.desc = d := by
  obtain ⟨r, -, -, rfl, -⟩ := fetch_eq_some.1 h
  rfl

/-- A command that FENCE does not hold is dispatched as it is fetched. -/
theorem galFetch_dispatched {ring : Nat} (h : s.fetch ring 0x05 (Desc.tag d) d = some (o, u)) (hready : s.galReady ring = true)
    (hop : galOpcode d = op) (hwait : Desc.field d 4 1 ≠ 0x0F) (hfence : Desc.bits d 41 41 = 0 ∨ u.galFront o = true) :
    s.galFetch op ring d = (u.galDispatch o).galKick := by
  have hgo : ¬(Desc.bits d 41 41 = 1 ∧ (!u.galFront o) = true) := by
    rcases hfence with h | h <;> simp [h]
  simp only [State.galFetch, hop, true_or, hwait, hready, ne_eq, not_false_eq_true, and_self, if_true, h, hgo, if_false]

/-- Opcodes above REDUCE read no group's header. -/
theorem headWaits_of_ne (h : galOpcode o.desc ≠ 1) : u.headWaits o = false := by
  rw [State.headWaits, State.headSpans, if_pos h, List.any_nil]

theorem galEarly_of_ok (hst : galDescStatus o.desc = stOk) (hw : u.galWeight o.owner ≠ 0) (hop : 3 < galOpcode o.desc) :
    u.galEarly o = stOk := by
  simp [State.galEarly, hst, hw, Nat.not_le.2 hop, hop.ne']

theorem galDispatch_load (hop : galOpcode o.desc = 4) (hst : galDescStatus o.desc = stOk) (hw : u.galWeight o.owner ≠ 0)
    (hd : u.canDma (u.ownerFn o.owner) = true) : u.galDispatch o = u.loadProgram o := by
  have he := galEarly_of_ok hst hw (by omega)
  have hh := headWaits_of_ne (u := u) (o := o) (by omega)
  simp [State.galDispatch, he, hh, hd, hop]

theorem galDispatch_unload (hop : galOpcode o.desc = 5) (hst : galDescStatus o.desc = stOk) (hw : u.galWeight o.owner ≠ 0) :
    u.galDispatch o = u.unloadProgram o := by
  have he := galEarly_of_ok hst hw (by omega)
  have hh := headWaits_of_ne (u := u) (o := o) (by omega)
  simp [State.galDispatch, he, hh, hop]

end

/-! ### Program slots -/

section
variable {s : State} {k j i id : Nat} {x : ProgSlot}

theorem progSlot_setProg_same : (s.setProg k x).progSlot k = x := lookD_put_same _ _ _ _

theorem progSlot_setProg_ne (h : j ≠ k) : (s.setProg k x).progSlot j = s.progSlot j := lookD_put_ne _ _ _ _ _ h.symm

/-- The program that a slice names without a version is CURRENT (R91). -/
theorem current_of_findProg (h : s.findProg i id 0 = some k) : (s.progSlot k).st = 2 := by
  have hk := List.find?_some h
  simp only [if_true, Bool.and_eq_true, beq_iff_eq] at hk
  exact hk.2

end

/-! ### LOAD_PROGRAM and UNLOAD_PROGRAM (R90, R91) -/

section
variable {s : State} {o : Op} {k i : Nat}

/-- The image that a LOAD_PROGRAM reads; one of a length that no image has is read as far as its header. -/
def State.loadImage (s : State) (o : Op) : List Byte :=
  s.mem.read ((s.slice o.owner).space.at (galTable o.desc))
    (if galCount o.desc < 64 ∨ 2112 < galCount o.desc then 64 else galCount o.desc)

/-- The slot of the program that the image would replace. -/
def State.loadOld (s : State) (o : Op) : Option Nat := s.findProg o.owner (FHead.of (s.loadImage o)).id 0

/-- The image is not newer than that program. -/
def State.loadStale (s : State) (o : Op) : Bool :=
  ((s.loadOld o).map fun k => (FHead.of (s.progSlot k).image).ver).any (fun v => (FHead.of (s.loadImage o)).ver ≤ v)

/-- The image in its slot, where it has been LOADING. -/
def State.imageCurrent (s : State) (o : Op) (k : Nat) : State :=
  (s.drawWord.2.setProg k ⟨1, o.owner, s.loadImage o⟩).setProg k ⟨2, o.owner, s.loadImage o⟩

/-- The image in its slot, and the program before it RETIRING. -/
def State.imageLoaded (s : State) (o : Op) (k : Nat) : State :=
  match s.loadOld o with
  | some j => (s.imageCurrent o k).setProg j { (s.imageCurrent o k).progSlot j with st := 3 }
  | none => s.imageCurrent o k

/-- The free slot that the device draws. -/
def State.drawnSlot (s : State) : Option Nat := pickFree 0 8 8 s.drawWord.1 fun k => (s.progSlot k).st == 0

/-- The end of a LOAD_PROGRAM whose image is in its slot. -/
def State.loadEnded (s : State) (o : Op) (k : Nat) : State :=
  (((s.imageLoaded o k).commitOp o.id).galEndOp o.id stOk (galWords 0 0 0 0 0 0 (FHead.of (s.loadImage o)).ver)).progSweep

theorem loadProgram_faulty (h : imageFault (s.loadImage o) (galCount o.desc) = some (k, i)) :
    s.loadProgram o = s.galRefuse o stProgInvalid i k := by
  unfold State.loadImage at h
  simp only [State.loadProgram, h]

theorem loadProgram_stale (h : imageFault (s.loadImage o) (galCount o.desc) = none) (hs : s.loadStale o = true) :
    s.loadProgram o = s.galRefuse o stProgInvalid 0 3 := by
  unfold State.loadStale State.loadOld at hs
  unfold State.loadImage at h hs
  simp only [State.loadProgram, h, hs, if_true]

theorem loadProgram_full (h : imageFault (s.loadImage o) (galCount o.desc) = none) (hs : s.loadStale o = false)
    (hk : s.drawnSlot = none) : s.loadProgram o = s.galRefuse o stStoreFull 0 0 := by
  unfold State.loadStale State.loadOld at hs
  unfold State.loadImage at h hs
  unfold State.drawnSlot at hk
  simp only [State.loadProgram, h, hs, hk, Bool.false_eq_true, if_false]

theorem loadProgram_taken (h : imageFault (s.loadImage o) (galCount o.desc) = none) (hs : s.loadStale o = false)
    (hk : s.drawnSlot = some k) : s.loadProgram o = s.loadEnded o k := by
  unfold State.loadStale State.loadOld at hs
  unfold State.loadImage at h hs
  unfold State.drawnSlot at hk
  simp only [State.loadProgram, h, hs, hk, Bool.false_eq_true, if_false]
  rfl

theorem progSlot_imageLoaded {j : Nat} (hk : (s.progSlot k).st = 0) : (s.imageLoaded o k).progSlot k = ⟨2, o.owner, s.loadImage o⟩ ∧
    (s.loadOld o = some j → (s.imageLoaded o k).progSlot j = { s.progSlot j with st := 3 }) ∧
    (j ≠ k → s.loadOld o ≠ some j → (s.imageLoaded o k).progSlot j = s.progSlot j) := by
  have hne {j : Nat} (h : j ≠ k) : (s.imageCurrent o k).progSlot j = s.progSlot j :=
    (progSlot_setProg_ne h).trans (progSlot_setProg_ne h)
  unfold State.imageLoaded
  cases ho : s.loadOld o with
  | none => exact ⟨progSlot_setProg_same, nofun, fun h _ => hne h⟩
  | some i =>
    have hi : i ≠ k := by
      rintro rfl
      exact absurd ((current_of_findProg ho).symm.trans hk) (by decide)
    refine ⟨(progSlot_setProg_ne hi.symm).trans progSlot_setProg_same, ?_, fun h hj => ?_⟩
    · rintro ⟨⟩
      rw [← hne hi]
      exact progSlot_setProg_same
    · have hji : j ≠ i := fun e => hj (e ▸ rfl)
      exact (progSlot_setProg_ne hji).trans (hne h)

theorem imageLoaded_frame : sameBytes s (s.imageLoaded o k) ∧ (s.imageLoaded o k).ops = s.ops := by
  unfold State.imageLoaded
  split <;> exact ⟨fun _ => rfl, rfl⟩

theorem unloadProgram_absent (h : s.findProg o.owner (Desc.field o.desc 6 2) 0 = none) :
    s.unloadProgram o = s.galRefuse o stProgAbsent 0 0 := by
  simp only [State.unloadProgram, h]

theorem unloadProgram_found (h : s.findProg o.owner (Desc.field o.desc 6 2) 0 = some k) :
    s.unloadProgram o = (((s.setProg k { s.progSlot k with st := 3 }).galEndOp o.id stOk (0, 0)).progSweep) := by
  simp only [State.unloadProgram, h]

end

/-- Settles O34: LOAD_PROGRAM by the check that decides it, and UNLOAD_PROGRAM by whether the program is there. -/
theorem galleryPrograms : Obligations.GalleryPrograms := by
  unfold Obligations.GalleryPrograms
  intro s u q d o hfetch hwait hready hfence hst hw img old stale
  obtain rfl := desc_of_fetch hfetch
  have hdma := canDma_of_fetch hfetch
  have hstale : stale = u.loadStale o := rfl
  have hold : old = u.loadOld o := rfl
  have himg : img = u.loadImage o := rfl
  clear_value stale old img
  subst hstale hold himg
  constructor
  · intro hop
    have hexec : exec (.loadProgram q o.desc) s = .next (u.loadProgram o).galKick := by
      rw [exec_gallery (q := q) (d := o.desc) (op := 4) (by simp), galFetch_dispatched hfetch hready hop hwait hfence,
        galDispatch_load hop hst hw hdma]
    refine ⟨fun k i h => ?_, fun h hs => ?_, fun h hs hfull => ?_, fun h hs hfree => ?_⟩
    · rw [hexec, loadProgram_faulty h]
    · rw [hexec, loadProgram_stale h hs]
    · rw [hexec, loadProgram_full h hs (pickFree_none (by decide) fun k _ hk => beq_false_of_ne (hfull k (by omega)))]
    · obtain ⟨j, hj, hj0⟩ := hfree
      obtain ⟨k, hk⟩ : ∃ k, u.drawnSlot = some k := pickFree_round (Nat.zero_le j) (by omega) (beq_iff_eq.2 hj0)
      obtain ⟨hk0, -, hk8⟩ := pickFree_spec hk (by decide)
      have hk0 : (u.progSlot k).st = 0 := beq_iff_eq.1 hk0
      obtain ⟨hbytes, hops⟩ := imageLoaded_frame (s := u) (o := o) (k := k)
      rw [hexec, loadProgram_taken h hs hk]
      exact ⟨k, u.imageLoaded o k, _, by omega, hk0, rfl, rfl, (progSlot_imageLoaded (j := k) hk0).1,
        fun j => (progSlot_imageLoaded hk0).2.1, fun j => (progSlot_imageLoaded hk0).2.2, hbytes, hops⟩
  · intro hop
    have hexec : exec (.unloadProgram q o.desc) s = .next (u.unloadProgram o).galKick := by
      rw [exec_gallery (q := q) (d := o.desc) (op := 5) (by simp), galFetch_dispatched hfetch hready hop hwait hfence,
        galDispatch_unload hop hst hw]
    refine ⟨fun h => by rw [hexec, unloadProgram_absent h], fun k h => ?_⟩
    exact ⟨u.setProg k { u.progSlot k with st := 3 }, _, hexec, by rw [unloadProgram_found h], progSlot_setProg_same,
      fun j => progSlot_setProg_ne, fun _ => rfl, rfl⟩

end Sys2Proof.Machine
end

section

/-! ## O35: chunks -/

namespace Sys2Proof.Machine

/-! ### What a cluster shows (Table 04-15) -/

section
variable {s : State} {f : Fld} {l : List (Fld × Nat)}

theorem getF_setFs_apart (hf : f.ok = true) (h : ∀ e ∈ l, e.1.ok = true ∧ e.1.apart f = true) : (s.setFs l).getF f = s.getF f := by
  induction l generalizing s with
  | nil => rfl
  | cons e l ih =>
    obtain ⟨hok, ha⟩ := h e List.mem_cons_self
    exact (ih fun x hx => h x (List.mem_cons_of_mem _ hx)).trans (getF_setF_apart _ _ _ _ hok hf ha)

theorem setFs_frame : RegisterFrame s (s.setFs l) := 
  .foldl (f := fun u (e : Fld × Nat) => u.setF e.1 e.2) (fun u e => .setF u e.1 e.2) l s

/-- A cluster shows its chunk: what it does, for whom and for what. -/
def State.clusterShown (s : State) (cl busy slice flight slot : Nat) : State :=
  s.setFs [(F.GAL_CLUSTER_BUSY cl, busy), (F.GAL_CLUSTER_SLICE cl, slice), (F.GAL_CLUSTER_FLIGHT cl, flight), (F.GAL_CLUSTER_SLOT cl, slot)]

variable {cl busy slice flight slot : Nat}

theorem busy_clusterShown : (s.clusterShown cl busy slice flight slot).getF (F.GAL_CLUSTER_BUSY cl) = busy % 2 := by
  refine (getF_setFs_apart (s := s.setF (F.GAL_CLUSTER_BUSY cl) busy) rfl ?_).trans (getF_setF_same _ _ _ rfl)
  simp [Fld.ok, Fld.apart, F.GAL_CLUSTER_BUSY, F.GAL_CLUSTER_SLICE, F.GAL_CLUSTER_FLIGHT, F.GAL_CLUSTER_SLOT]

theorem slice_clusterShown : (s.clusterShown cl busy slice flight slot).getF (F.GAL_CLUSTER_SLICE cl) = slice % 256 := by
  refine (getF_setFs_apart (s := (s.setF (F.GAL_CLUSTER_BUSY cl) busy).setF (F.GAL_CLUSTER_SLICE cl) slice) rfl ?_).trans
    (getF_setF_same _ _ _ rfl)
  simp [Fld.ok, Fld.apart, F.GAL_CLUSTER_SLICE, F.GAL_CLUSTER_FLIGHT, F.GAL_CLUSTER_SLOT]

theorem clusterShown_regs : regsBut [R.GAL_CLUSTER cl] s (s.clusterShown cl busy slice flight slot) := by
  intro a ha
  have hne : R.GAL_CLUSTER cl ≠ a := fun e => ha (e ▸ List.mem_cons_self)
  exact reg_foldl (fun u e he => reg_setF_ne _ _ _ _ (by simp at he; rcases he with rfl | rfl | rfl | rfl <;> exact hne)) s

end

/-! ### A chunk is taken (R92, R95, R98) -/

section
variable {s : State} {c : GalCmd} {cs : List GalCmd} {cl : Nat}

/-- A unit that the Coffer admits is charged, and nothing else changes. -/
theorem offer_admitted {e n : Nat} {slice : Option Nat} (h : (s.offer e slice n).1 = true) :
    ∃ p, (s.offer e slice n).2 = { s with pwr := p } := by
  unfold State.offer at h ⊢
  split at h
  · cases h
  next hr =>
    rw [if_neg hr]
    extract_lets at h ⊢
    split at h
    next hok => rw [if_pos hok]; exact ⟨_, rfl⟩
    next => cases h

/-- The state in which a cluster takes up a command: registers that wait have applied where it has not run it before (R98). -/
def State.takenUp (s : State) (c : GalCmd) (cl : Nat) : State := if bitAt c.clusters cl then s else s.galApply

/-- The elements of a command's next chunk. -/
def GalCmd.nextLen (c : GalCmd) : Nat := min c.chunkLen (c.count - c.next)

/-- The Coffer's judgment of that chunk. -/
def State.chunkOffer (s : State) (c : GalCmd) : Bool × State := s.offer 0 (some c.slice) (s.chunkCost c c.nextLen)

/-- A chunk that is refused is deferred, and counted once in an epoch (R95). -/
def State.chunkDeferred (w : State) (c : GalCmd) : State :=
  let v := (w.chunkOffer c).2
  (if c.counted = some (w.epochNo, c.next) then v else v.bump F.GAL_CNT_DEFER_COUNT).galPut
    { c with deferred := true, counted := some (w.epochNo, c.next) }

/-- The turn of a slice that has been given a chunk: a slice of weight W keeps it for W chunks (R92). -/
def State.turned (s : State) (c : GalCmd) : State :=
  if c.step.isSome then s
  else if s.gal.turn = c.slice ∧ 0 < s.gal.turnLeft then { s with gal := { s.gal with turnLeft := s.gal.turnLeft - 1 } }
  else { s with gal := { s.gal with turn := c.slice, turnLeft := max 1 (s.galWeight c.slice) - 1 } }

/-- What a cluster does with the first command in its order (R92, R95, R98). -/
theorem takeFrom_cons {w : State} (hw : s.takenUp c cl = w) : State.takeFrom cl (c :: cs) s =
    if w.mayRun c cl then
      (if (w.chunkOffer c).1 then ((w.chunkOffer c).2.turned c).handOut c cl else State.takeFrom cl cs (w.chunkDeferred c))
    else State.takeFrom cl cs w := by
  subst hw
  have h : State.takeFrom cl (c :: cs) s = if !(s.takenUp c cl).mayRun c cl then State.takeFrom cl cs (s.takenUp c cl) else
      (if ((s.takenUp c cl).chunkOffer c).1 then (((s.takenUp c cl).chunkOffer c).2.turned c).handOut c cl
        else State.takeFrom cl cs ((s.takenUp c cl).chunkDeferred c)) := rfl
  rw [h]
  cases (s.takenUp c cl).mayRun c cl <;> rfl

theorem turned_frame : ∃ n m, s.turned c = { s with gal := { s.gal with turn := n, turnLeft := m } } := by
  unfold State.turned
  split
  · exact ⟨_, _, rfl⟩
  · split
    · exact ⟨_, _, rfl⟩
    · exact ⟨_, _, rfl⟩

/-- Neither the Coffer's admission nor the turn reaches memory, operations or commands. -/
theorem turned_offer (h : (s.chunkOffer c).1 = true) : ((s.chunkOffer c).2.turned c).mem = s.mem ∧
    ((s.chunkOffer c).2.turned c).ops = s.ops ∧ ((s.chunkOffer c).2.turned c).gal.cmds = s.gal.cmds := by
  obtain ⟨p, hp⟩ := offer_admitted h
  obtain ⟨n, m, ht⟩ := turned_frame (s := (s.chunkOffer c).2) (c := c)
  rw [ht, State.chunkOffer, hp]
  exact ⟨rfl, rfl, rfl⟩

/-- The command with its next chunk on a cluster. -/
def GalCmd.given (c : GalCmd) (cl : Nat) : GalCmd :=
  { c with chunks := c.chunks ++ [(cl, c.next, c.nextLen)], next := c.next + c.nextLen,
           clusters := if bitAt c.clusters cl then c.clusters else c.clusters + 2 ^ cl }

theorem galPut_mem : (s.galPut c).mem = s.mem := rfl

theorem galPut_ops : (s.galPut c).ops = s.ops := rfl

theorem getF_galPut (f : Fld) : (s.galPut c).getF f = s.getF f := rfl

theorem handOut_eq : s.handOut c cl =
    (s.clusterShown cl 1 c.slice (b2n c.step.isSome) (if c.kind = 3 then c.slot else 15)).galPut (c.given cl) := rfl

/-- A chunk handed out is on its cluster, which shows it, and its command counts it. -/
theorem handOut_spec : (s.handOut c cl).getF (F.GAL_CLUSTER_BUSY cl) = 1 ∧
    (s.handOut c cl).getF (F.GAL_CLUSTER_SLICE cl) = c.slice % 256 ∧ (s.handOut c cl).mem = s.mem ∧ (s.handOut c cl).ops = s.ops ∧
    (s.handOut c cl).gal.cmds = s.gal.cmds.map fun x => if x.op == c.op && x.step == c.step then c.given cl else x := by
  rw [handOut_eq]
  refine ⟨?_, ?_, ?_, ?_, ?_⟩
  · rw [getF_galPut, busy_clusterShown]
  · rw [getF_galPut, slice_clusterShown]
  · rw [galPut_mem, State.clusterShown, State.setFs_mem]
  · rw [galPut_ops, State.clusterShown, State.setFs_ops]
  · exact congrArg (fun g : Gal => g.cmds.map _) (State.setFs_gal _ _)

/-- A free cluster in service takes from its order (R92). -/
theorem chunkTake_free (hb : s.gal.cmds.any (fun x => x.chunks.any (·.1 == cl)) = false) (ho : s.clusterOn cl = true)
    (hf : s.dev.st ≠ .fatal) : s.chunkTake cl = State.takeFrom cl (s.serveOrder cl) s := by
  rw [State.chunkTake, if_neg (by simp [hb, ho, hf])]

/-- Another cluster, or one with nothing in its order, takes none. -/
theorem chunkTake_none (h : s.gal.cmds.any (fun x => x.chunks.any (·.1 == cl)) = true ∨ s.clusterOn cl = false ∨ s.dev.st = .fatal ∨
    s.serveOrder cl = []) : s.chunkTake cl = s := by
  unfold State.chunkTake
  split
  · rfl
  next hn =>
    simp only [not_or, Bool.not_eq_true, Bool.not_eq_false'] at hn
    obtain ⟨hb, ho, hf⟩ := hn
    rcases h with h | h | h | h
    · rw [hb] at h; cases h
    · rw [ho] at h; cases h
    · exact absurd h hf
    · rw [h, State.takeFrom]

end

/-! ### A chunk ends (R82, R96) -/

section
variable {s : State} {c : GalCmd} {cl a n st : Nat}

theorem clusterIdle_eq : s.clusterIdle cl = s.clusterShown cl 0 0 0 15 := rfl

theorem clusterIdle_spec : (s.clusterIdle cl).getF (F.GAL_CLUSTER_BUSY cl) = 0 ∧ regsBut [R.GAL_CLUSTER cl] s (s.clusterIdle cl) ∧
    sameWork s (s.clusterIdle cl) := by
  rw [clusterIdle_eq]
  exact ⟨busy_clusterShown, clusterShown_regs, setFs_frame.work⟩

theorem chunkDone_none (h : s.chunkOn cl = none) : s.chunkDone cl = s := by
  simp only [State.chunkDone, h]

theorem chunkFault_none (h : s.chunkOn cl = none) : s.chunkFault cl = s := by
  simp only [State.chunkFault, h]

/-- A command without the chunk of a cluster. -/
def GalCmd.without (c : GalCmd) (cl : Nat) : GalCmd := { c with chunks := c.chunks.filter (·.1 != cl) }

/-- A command that keeps the status of its first fault. -/
def GalCmd.stopped (c : GalCmd) (st : Nat) : GalCmd := { c with fault := some (c.fault.getD st) }

theorem galStop_eq : s.galStop c st = s.galSettle (c.stopped st) := by
  unfold State.galStop GalCmd.stopped
  cases c.fault <;> rfl

theorem chunkDone_wait (h : s.chunkOn cl = some (c, a, n)) (hr : s.chunkReach c a n = .wait) :
    s.chunkDone cl = (s.chunkFetch c a n).beginOnce (.op c.op) := by
  simp only [State.chunkDone, h, hr]

theorem chunkDone_fail (h : s.chunkOn cl = some (c, a, n)) (hr : s.chunkReach c a n = .fail st) :
    s.chunkDone cl = ((s.clusterIdle cl).poolFault st).galSettle ((c.without cl).stopped (streamFail st)) := by
  simp only [State.chunkDone, h, hr, galStop_eq]
  rfl

theorem chunkDone_ok (h : s.chunkOn cl = some (c, a, n)) (hr : s.chunkReach c a n = .ok) :
    s.chunkDone cl = (((s.clusterIdle cl).runChunk c a n).1.galSettle (((s.clusterIdle cl).runChunk c a n).2.without cl)).noCluster := by
  simp only [State.chunkDone, h, hr]
  rfl

theorem chunkFault_eq (h : s.chunkOn cl = some (c, a, n)) :
    s.chunkFault cl = (s.clusterIdle cl).galSettle ((c.without cl).stopped stStreamFault) := by
  simp only [State.chunkFault, h, galStop_eq]
  rfl

/-- A stopped command completes with its last chunk, and waits for it else (R82). -/
theorem galSettle_stopped : s.galSettle (c.stopped st) = if c.chunks = [] then s.galComplete (c.stopped st) else s.galPut (c.stopped st) := by
  have hfault : (c.stopped st).fault.isSome = true := rfl
  have hrows : (c.stopped st).rowsDone = false := by simp [GalCmd.rowsDone, GalCmd.stopped]
  have hchunks : (c.stopped st).chunks = c.chunks := rfl
  rw [State.galSettle]
  by_cases h : c.chunks = [] <;> simp only [hfault, hrows, hchunks, h, List.isEmpty_iff, Bool.false_eq_true, true_or, and_true, false_and,
    if_true, if_false]

theorem ranges_runChunk : (s.runChunk c a n).2.ranges = c.ranges ++ [(a, n)] := rfl

end

/-! ### A cancel (R96) -/

section
variable {s : State} {i tag : Nat}

theorem CancelResult.code_lt (r : CancelResult) : r.code < 256 := by cases r <;> decide

/-- A cancel answers what it finds. -/
theorem galCancelTag_result : (s.galCancelTag i tag).1 = (s.cancelFind i [0x06] tag).1 := by
  unfold State.galCancelTag
  split
  next h => rw [h]; split <;> rfl
  next h => rw [h]

/-- One that finds no operation to end changes nothing. -/
theorem galCancelTag_none (h : (s.cancelFind i [0x06] tag).2 = none) : (s.galCancelTag i tag).2 = s := by
  unfold State.galCancelTag
  split
  next e => rw [e] at h; cases h
  next => rfl

end

theorem exec_galCancel {s w : State} {m : Master} {i : BitVec 16} (h : s.writeAt m R.GAL_CANCEL_CTRL = some w) :
    let v := w.setF F.GAL_CANCEL_CTRL_SLICE i.toNat
    let p := v.galCancelTag i.toNat (v.reg R.GAL_CANCEL_TAG)
    exec (.galCancel m i) s = .next (p.2.eventV F.GAL_CANCEL_RESULT_RESULT p.1.code) := by
  intro v p
  have htag : v.reg R.GAL_CANCEL_TAG = w.reg R.GAL_CANCEL_TAG := reg_setF_ne _ _ _ _ (by decide)
  have hexec : exec (.galCancel m i) s = _ := congrArg Host.Outcome.next (openWrite_taken s w m _ _ _ h)
  rw [hexec]
  simp only [p, htag]
  rfl

/-- Settles O35: a chunk's taking by the first command in the order, its end by what its streams meet, and the cancel by
what it finds. -/
theorem galleryChunks : Obligations.GalleryChunks := by
  unfold Obligations.GalleryChunks
  refine ⟨?take, ?idle, ?ends, ?cancel⟩
  case take =>
    rintro s u cl rfl busy
    have hexec : exec (.chunkTake cl) s = .next ((s.galKick.noCluster).chunkTake cl) := rfl
    refine ⟨fun h => by rw [hexec, chunkTake_none h], fun hb ho hf c cs hcs => ?_⟩
    intro w n r
    rw [hexec, chunkTake_free hb ho hf, hcs, takeFrom_cons (w := w) rfl]
    refine ⟨fun h => by rw [if_neg (by simp [h])], fun h hr => ?_, fun h hr => ?_⟩
    · have hr' : (w.chunkOffer c).1 = false := hr
      rw [if_pos h, if_neg (by simp [hr'])]
      rfl
    · have hr' : (w.chunkOffer c).1 = true := hr
      obtain ⟨hmem, hops, hcmds⟩ := turned_offer hr'
      obtain ⟨hbusy, hslice, hm, ho, hc⟩ := handOut_spec (s := (w.chunkOffer c).2.turned c) (c := c) (cl := cl)
      rw [if_pos h, if_pos hr']
      exact ⟨_, rfl, hbusy, hslice, fun a => by rw [hm, hmem], ho.trans hops, hc.trans (congrArg (List.map _) hcmds)⟩
  case idle =>
    intro s cl h c hc
    simp only [List.mem_cons, List.not_mem_nil, or_false] at hc
    obtain rfl | rfl := hc
    · exact congrArg (fun t : State => Host.Outcome.next t.galKick.flightAbsorb) (chunkDone_none h)
    · exact congrArg (fun t : State => Host.Outcome.next t.galKick.flightAbsorb) (chunkFault_none h)
  case ends =>
    intro s cl c a n h rest u
    have hdone : exec (.chunkDone cl) s = .next ((s.chunkDone cl).galKick.flightAbsorb) := rfl
    have hfault : exec (.galStreamFault cl) s = .next ((s.chunkFault cl).galKick.flightAbsorb) := rfl
    obtain ⟨hbusy, hregs, hwork⟩ := clusterIdle_spec (s := s) (cl := cl)
    refine ⟨hbusy, hregs, hwork, fun hr => by rw [hdone, chunkDone_wait h hr], fun st hr => by rw [hdone, chunkDone_fail h hr]; rfl,
      fun hr => ⟨ranges_runChunk, by rw [hdone, chunkDone_ok h hr]; rfl⟩, fun hn => ?_, fun hn => ?_⟩
    · have hc : (c.without cl).stopped stStreamFault = { c with chunks := [], fault := some (c.fault.getD stStreamFault) } := by
        rw [← hn]
        rfl
      rw [hfault, chunkFault_eq h, galSettle_stopped, if_pos (show (c.without cl).chunks = [] from hn), hc]
    · rw [hfault, chunkFault_eq h, galSettle_stopped, if_neg (show (c.without cl).chunks ≠ [] from hn)]
      rfl
  case cancel =>
    intro s w m i h v
    have hcode (u : State) (r : CancelResult) : (u.eventV F.GAL_CANCEL_RESULT_RESULT r.code).getF F.GAL_CANCEL_RESULT_RESULT = r.code :=
      (getF_eventV_same _ _ _ rfl (by decide)).trans (Nat.mod_eq_of_lt r.code_lt)
    exact ⟨_, _, _, exec_galCancel h, rfl, hcode _ _, fun a ha => reg_eventV_ne _ _ _ _ fun e => ha (e ▸ List.mem_cons_self),
      (RegisterFrame.eventV _ _ _).work, galCancelTag_result, galCancelTag_none⟩

end Sys2Proof.Machine
end

section

/-! ## O33: a dispatch that waits may mark another operation

A REDUCE that waits for a page of T4 fetches it, and a fetch that the Coffer refuses marks the placement commands that wait on the
page's object as deferred (R183): the operations do not stay as they were. That no other state would do in their stead is shown by
what the Gallery cannot undo: records posted, operations and steps ended, commands taken, time limits begun. -/

namespace Sys2Proof.Machine

/-! ### What goes on without a mark -/

/-- Some record has been posted, or some operation has ended. -/
def State.Posted (s : State) : Prop := s.recent ≠ [] ∨ ∃ o ∈ s.ops, o.done ≠ none

/-- No operation is marked as deferred. -/
def State.Unmarked (s : State) : Prop := ∀ o ∈ s.ops, o.deferred = false

/-- A time limit runs. -/
def State.limitRuns (s : State) (k : Timer) : Bool := s.since.any (·.1 == k)

/-- The Gallery's commands, steps and waiting dispatches are as they were, no operation is new, and what has been posted or begun is
still so. -/
structure Onward (s t : State) : Prop where
  cmds : t.gal.cmds = s.gal.cmds
  ended : t.gal.ended = s.gal.ended
  heads : t.gal.heads = s.gal.heads
  timers : ∀ k, s.limitRuns k = true → t.limitRuns k = true
  posted : s.Posted → t.Posted
  ops : ∀ o ∈ t.ops, ∃ p ∈ s.ops, p.id = o.id

/-- As `Onward`, and no operation is newly marked. -/
structure Calm (s t : State) : Prop extends Onward s t where
  marks : s.Unmarked → t.Unmarked

section
variable {s t u : State}

theorem Onward.trans (h : Onward s t) (k : Onward t u) : Onward s u where
  cmds := k.cmds.trans h.cmds
  ended := k.ended.trans h.ended
  heads := k.heads.trans h.heads
  timers a ha := k.timers a (h.timers a ha)
  posted hp := k.posted (h.posted hp)
  ops o ho := by
    obtain ⟨p, hp, hi⟩ := k.ops o ho
    obtain ⟨r, hr, hj⟩ := h.ops p hp
    exact ⟨r, hr, hj.trans hi⟩

theorem Onward.op_none {id : Nat} (h : Onward s t) (hn : s.op id = none) : t.op id = none := by
  simp only [State.op, List.find?_eq_none] at hn ⊢
  intro o ho
  obtain ⟨p, hp, hi⟩ := h.ops o ho
  rw [← hi]
  exact hn p hp

theorem Calm.trans (h : Calm s t) (k : Calm t u) : Calm s u := ⟨h.toOnward.trans k.toOnward, fun hs => k.marks (h.marks hs)⟩

/-- States with the same operations, commands, records and time limits. -/
theorem Calm.of_eq (hc : t.gal.cmds = s.gal.cmds) (he : t.gal.ended = s.gal.ended) (hh : t.gal.heads = s.gal.heads)
    (hs : t.since = s.since) (hr : t.recent = s.recent) (ho : t.ops = s.ops) : Calm s t where
  cmds := hc
  ended := he
  heads := hh
  timers k hk := by rwa [State.limitRuns, hs]
  posted h := by rwa [State.Posted, hr, ho]
  ops o h := ⟨o, ho ▸ h, rfl⟩
  marks h := by rwa [State.Unmarked, ho]

theorem Calm.refl (s : State) : Calm s s := .of_eq rfl rfl rfl rfl rfl rfl

theorem Calm.ite {c : Prop} [Decidable c] (h : Calm s t) (k : Calm s u) : Calm s (if c then t else u) := by
  split <;> assumption

theorem Calm.foldl {α : Type} {f : State → α → State} (hf : ∀ s x, Calm s (f s x)) (l : List α) (s : State) : Calm s (l.foldl f s) := by
  induction l generalizing s with
  | nil => exact .refl s
  | cons x xs ih => exact (hf s x).trans (ih _)

theorem Onward.foldl {α : Type} {f : State → α → State} (hf : ∀ s x, Onward s (f s x)) (l : List α) (s : State) :
    Onward s (l.foldl f s) := by
  induction l generalizing s with
  | nil => exact (Calm.refl s).toOnward
  | cons x xs ih => exact (hf s x).trans (ih _)

theorem Calm.event (f : Fld) : Calm s (s.event f) := .of_eq rfl rfl rfl rfl rfl rfl

theorem Calm.bump (f : Fld) : Calm s (s.bump f) := .of_eq rfl rfl rfl rfl rfl rfl

theorem Calm.ofPage (h : PageFrame s t) : Calm s t := by
  obtain ⟨_, _, _, _, rfl⟩ := h
  exact .of_eq rfl rfl rfl rfl rfl rfl

theorem Calm.begin (k : Timer) : Calm s (s.begin k) where
  cmds := rfl
  ended := rfl
  heads := rfl
  timers j hj := by
    by_cases e : k = j
    · simp [State.limitRuns, State.begin, State.countFrom, e]
    · rw [State.limitRuns, List.any_eq_true] at hj
      obtain ⟨x, hx, hxj⟩ := hj
      have hk : x.1 ≠ k := fun h => e (h.symm.trans (beq_iff_eq.1 hxj))
      simp only [State.limitRuns, State.begin, State.countFrom, List.any_cons, Bool.or_eq_true, List.any_eq_true, List.mem_filter]
      exact .inr ⟨x, ⟨hx, by simpa using hk⟩, hxj⟩
  posted h := h
  ops o h := ⟨o, h, rfl⟩
  marks h := h

theorem Calm.beginOnce (k : Timer) : Calm s (s.beginOnce k) := .ite (.refl s) (.begin k)

theorem limitRuns_beginOnce (k : Timer) : (s.beginOnce k).limitRuns k = true := by
  unfold State.beginOnce
  split
  next h => exact h
  next => simp [State.limitRuns, State.begin, State.countFrom]

theorem Calm.commitOp (id : Nat) : Calm s (s.commitOp id) where
  cmds := rfl
  ended := rfl
  heads := rfl
  timers _ h := h
  posted h := by
    rcases h with h | ⟨o, ho, hd⟩
    · exact .inl h
    · refine .inr ⟨_, List.mem_map_of_mem ho, ?_⟩
      split <;> exact hd
  ops o h := by
    obtain ⟨p, hp, rfl⟩ := List.mem_map.1 h
    refine ⟨p, hp, ?_⟩
    split <;> rfl
  marks h o ho := by
    obtain ⟨p, hp, rfl⟩ := List.mem_map.1 ho
    split <;> exact h p hp

end

/-! ### Records (R80, R307, R309) -/

section
variable {s : State} {q id : Nat} {x : Rec} {o : Op}

theorem writeRec_since {r : Ring} : (s.writeRec q r x).since = s.since := by
  rcases writeRec_cases s q r x with h | ⟨_, _, h⟩ | ⟨_, _, h⟩ <;> simp [h, State.recStored]

theorem drainList_kept (l : List Rec) (s : State) : (State.drainList q l s).recent = s.recent ∧ (State.drainList q l s).since = s.since := by
  induction l generalizing s with
  | nil => exact ⟨rfl, rfl⟩
  | cons x xs ih =>
    unfold State.drainList
    split
    · exact ⟨rfl, rfl⟩
    · split
      · exact ih _
      · split
        · exact ih s
        · split
          · obtain ⟨hr, hs⟩ := ih (s.writeRec q ‹_› x)
            exact ⟨hr.trans writeRec_recent, hs.trans writeRec_since⟩
          · exact ⟨rfl, rfl⟩

/-- A record that is handed over has been posted. -/
theorem posted_postRaw : (s.postRaw q x).Posted := by
  have h : (State.drainCqRaw (s.enqueued q x) q).recent ≠ [] := by
    rw [State.drainCqRaw, (drainList_kept _ _).1]
    exact List.cons_ne_nil _ _
  unfold State.postRaw
  extract_lets t
  split
  · exact .inl h
  · exact .inl h

theorem calm_postRaw : Calm s (s.postRaw q x) := by
  have hf := postRaw_frame (s := s) (q := q) (x := x)
  have hg : (s.postRaw q x).gal = s.gal := hf.engines.1
  refine ⟨⟨by rw [hg], by rw [hg], by rw [hg], fun k hk => ?_, fun _ => posted_postRaw, fun o h => ⟨o, hf.ops ▸ h, rfl⟩⟩,
    fun h => by rwa [State.Unmarked, hf.ops]⟩
  have hd : (State.drainCqRaw (s.enqueued q x) q).limitRuns k = true := by
    rw [State.limitRuns, State.drainCqRaw, (drainList_kept _ _).2]
    exact hk
  unfold State.postRaw
  extract_lets t
  split
  · exact (Calm.begin _).timers k hd
  · exact hd

/-- An operation leaves the list as its record goes out. -/
theorem calm_dropOp_postRaw : Calm s ((s.dropOp id).postRaw q x) := by
  have hd : ∀ o ∈ (s.dropOp id).ops, o ∈ s.ops := fun o h => List.mem_of_mem_filter h
  have hp := calm_postRaw (s := s.dropOp id) (q := q) (x := x)
  refine ⟨⟨hp.cmds, hp.ended, hp.heads, hp.timers, fun _ => posted_postRaw, fun o h => ?_⟩, fun h => hp.marks fun o ho => h o (hd o ho)⟩
  obtain ⟨p, hp, hi⟩ := hp.ops o h
  exact ⟨p, hd p hp, hi⟩

theorem calm_retire (ring n : Nat) (s : State) : Calm s (State.retire ring n s) := by
  induction n generalizing s with
  | zero => exact .refl s
  | succ n ih =>
    unfold State.retire
    split
    · exact .refl s
    · split
      · exact .refl s
      · exact calm_dropOp_postRaw.trans (ih _)

theorem op_mem (h : s.op id = some o) : o ∈ s.ops ∧ o.id = id := by
  refine ⟨List.mem_of_find?_eq_some h, ?_⟩
  have := List.find?_some h
  exact beq_iff_eq.1 this

/-- An operation ends where it stands in the list. -/
theorem posted_setOp_done (h : s.op id = some o) : (s.setOp { o with done := some x, committed := true }).Posted :=
  .inr ⟨_, List.mem_map_of_mem (op_mem h).1, by simp⟩

theorem calm_setOp_done (h : s.op id = some o) : Calm s (s.setOp { o with done := some x, committed := true }) := by
  refine ⟨⟨rfl, rfl, rfl, fun _ h => h, fun _ => posted_setOp_done h, fun p hp => ?_⟩, fun hs p hp => ?_⟩
  · obtain ⟨y, hy, rfl⟩ := List.mem_map.1 hp
    refine ⟨y, hy, ?_⟩
    split
    next e => exact beq_iff_eq.1 e
    next => rfl
  · obtain ⟨y, hy, rfl⟩ := List.mem_map.1 hp
    split
    · exact hs o (op_mem h).1
    · exact hs y hy

theorem calm_finishRaw : Calm s (s.finishRaw id x) := by
  unfold State.finishRaw
  split
  · exact .refl s
  next h => exact (calm_setOp_done h).trans (calm_retire _ _ _)

theorem posted_finishRaw (h : s.op id = some o) : (s.finishRaw id x).Posted := by
  simp only [State.finishRaw, h]
  exact (calm_retire _ _ _).posted (posted_setOp_done h)

theorem calm_finishNowRaw : Calm s (s.finishNowRaw id x) := by
  unfold State.finishNowRaw
  split
  · exact .refl s
  · exact calm_dropOp_postRaw

theorem calm_waitRecord {c : Clasp} {st : Nat} : Calm s (s.waitRecord c st) := by
  unfold State.waitRecord
  extract_lets t
  have ht : Calm s t := .of_eq rfl rfl rfl rfl rfl rfl
  split
  next r o _ _ =>
    extract_lets v y
    have hv : Calm t v := (Calm.of_eq rfl rfl rfl rfl rfl rfl : Calm t (t.setRing c.ring _)).trans
      ((Calm.bump F.SLC_CNT_CLASP_WAIT).trans (.ite (.bump _) (.refl _)))
    exact (ht.trans hv).trans (.ite calm_finishNowRaw calm_finishRaw)
  · exact ht

theorem calm_claspSettle (n : Nat) (s : State) : Calm s (State.claspSettle n s) := by
  induction n generalizing s with
  | zero => exact .refl s
  | succ n ih =>
    unfold State.claspSettle
    split
    · exact .refl s
    · exact calm_waitRecord.trans (ih _)

theorem calm_finish {st res eng : Nat} : Calm s (s.finish id st res eng) := by
  unfold State.finish
  split
  · exact .refl s
  · exact calm_finishRaw.trans (calm_claspSettle _ _)

theorem posted_finish {st res eng : Nat} (h : s.op id = some o) : (s.finish id st res eng).Posted := by
  simp only [State.finish, h]
  exact (calm_claspSettle _ _).posted (posted_finishRaw h)

end

/-! ### How commands end (R79, R80, R82, R91) -/

section
variable {s : State} {o : Op} {c : GalCmd} {id st k : Nat} {w : Nat × Nat}

theorem calm_galEndOp : Calm s (s.galEndOp id st w) := by
  unfold State.galEndOp
  split
  · exact .refl s
  · extract_lets t
    have ht : Calm s t := .ite ((Calm.event _).trans (.bump _)) (.refl s)
    exact (ht.trans (.bump _)).trans calm_finish

/-- An operation that is there ends. -/
theorem posted_galEndOp (h : s.op id ≠ none) : (s.galEndOp id st w).Posted := by
  obtain ⟨o, ho⟩ := Option.ne_none_iff_exists'.1 h
  unfold State.galEndOp
  rw [if_neg (by simp [ho])]
  extract_lets t
  have ht : t.op id = some o := by
    unfold t
    split <;> exact ho
  exact posted_finish (o := o) ht

theorem calm_setProg {x : ProgSlot} : Calm s (s.setProg k x) := .of_eq rfl rfl rfl rfl rfl rfl

theorem calm_progSweep : Calm s s.progSweep := .foldl (fun s _ => .ite calm_setProg (.refl s)) _ s

theorem calm_imageLoaded : Calm s (s.imageLoaded o k) := by
  have h : Calm s (s.imageCurrent o k) := .of_eq rfl rfl rfl rfl rfl rfl
  unfold State.imageLoaded
  split
  · exact h.trans calm_setProg
  · exact h

theorem op_commitOp {i : Nat} (h : s.op id ≠ none) : (s.commitOp i).op id ≠ none := by
  obtain ⟨o, ho⟩ := Option.ne_none_iff_exists'.1 h
  obtain ⟨hm, hi⟩ := op_mem ho
  refine Option.isSome_iff_ne_none.1 (List.find?_isSome.2 ⟨_, List.mem_map_of_mem hm, ?_⟩)
  split <;> simp [hi]

/-- The operation ends, if it is there, and nothing is newly marked. -/
structure OpEnds (id : Nat) (s t : State) : Prop where
  calm : Calm s t
  posted : s.op id ≠ none → t.Posted

theorem opEnds_galEndOp : OpEnds id s (s.galEndOp id st w) := ⟨calm_galEndOp, posted_galEndOp⟩

theorem OpEnds.progSweep {t : State} (h : OpEnds id s t) : OpEnds id s t.progSweep :=
  ⟨h.calm.trans calm_progSweep, fun ho => calm_progSweep.posted (h.posted ho)⟩

theorem opEnds_loadProgram : OpEnds o.id s (s.loadProgram o) := by
  cases hf : imageFault (s.loadImage o) (galCount o.desc) with
  | some e => rw [loadProgram_faulty hf]; exact opEnds_galEndOp
  | none =>
    cases hs : s.loadStale o with
    | true => rw [loadProgram_stale hf hs]; exact opEnds_galEndOp
    | false =>
      cases hk : s.drawnSlot with
      | none => rw [loadProgram_full hf hs hk]; exact opEnds_galEndOp
      | some k =>
        rw [loadProgram_taken hf hs hk]
        have hv : Calm s ((s.imageLoaded o k).commitOp o.id) := calm_imageLoaded.trans (.commitOp _)
        have hop (h : s.op o.id ≠ none) : ((s.imageLoaded o k).commitOp o.id).op o.id ≠ none :=
          op_commitOp (by rwa [State.op, imageLoaded_frame.2])
        exact OpEnds.progSweep ⟨hv.trans calm_galEndOp, fun h => posted_galEndOp (hop h)⟩

theorem opEnds_unloadProgram : OpEnds o.id s (s.unloadProgram o) := by
  cases hk : s.findProg o.owner (Desc.field o.desc 6 2) 0 with
  | none => rw [unloadProgram_absent hk]; exact opEnds_galEndOp
  | some k =>
    rw [unloadProgram_found hk]
    exact OpEnds.progSweep ⟨calm_setProg.trans calm_galEndOp, fun h => posted_galEndOp h⟩

end
end Sys2Proof.Machine
end

section
namespace Sys2Proof.Machine

/-! ### What a command writes as it ends (R75, R76, R82, R88) -/

namespace PageFrame
variable {s : State} {k p : Nat} {c : GalCmd}

theorem takeIn {n : Nat} : PageFrame s (s.takeIn k p n) := by
  unfold State.takeIn
  split
  · exact (refl s).mem _
  · exact refl s

theorem heat {off len : Nat} : PageFrame s (s.heat k off len) := ofPlc (heat_frame _ _ _ _)

theorem spanBegin {write : Bool} {whole : List (Space × Nat × Nat)} {x : Space × Nat × Nat} : PageFrame s (s.spanBegin write whole x) := by
  unfold State.spanBegin
  split
  next h _ =>
    refine .ite (heat.trans (foldl (fun _ _ => takeIn) _ _)) (heat.trans (foldl (fun u p => ?_) _ _))
    extract_lets all v
    have hv : PageFrame u v := updPage
    split
    · exact .ite hv (hv.trans (tierTouch.trans takeIn))
    · exact hv
  · exact refl s

theorem spanEnd {x : Space × Nat × Nat} : PageFrame s (s.spanEnd x) := by
  unfold State.spanEnd
  split
  · split
    · exact refl s
    · exact (refl s).mem _
  · exact refl s

theorem freeSpan {x : Space × Nat × Nat} : PageFrame s (s.freeSpan x) :=
  .ite (refl s) (PageFrame.trans ⟨_, _, _, _, rfl⟩ spanEnd)

theorem freeDest {a n : Nat} : PageFrame s (s.freeDest c a n) := foldl (fun _ _ => freeSpan) _ s

theorem emptyGroup : PageFrame s (s.emptyGroup c) := by
  unfold State.emptyGroup
  split
  · exact .ite putBytes (refl s)
  · exact refl s

theorem poolFault {st : Nat} : PageFrame s (s.poolFault st) := .ite (event _) (refl s)

theorem programEnd : PageFrame s (s.programEnd c).1 := by
  unfold State.programEnd
  extract_lets _ _ r _ _ _ _ s₁ s₂ s₃
  have h₁ : PageFrame s s₁ := (refl s).mem _
  have h₂ : PageFrame s₁ s₂ := by
    unfold s₂
    split
    · have hstored {v : State} (h : PageFrame s₁ v) (m : Mem) (n : Nat) : PageFrame s₁ { v with mem := m, draws := n } :=
        h.trans ⟨_, _, _, _, rfl⟩
      exact (hstored (foldl (fun _ _ => spanBegin) _ s₁) _ _).trans (foldl (fun _ _ => spanEnd) _ _)
    · exact refl s₁
  have h₃ : PageFrame s₂ s₃ := by
    unfold s₃
    split
    · exact putBytes
    · exact refl s₂
  exact h₁.trans (h₂.trans h₃)

end PageFrame

section
variable {s : State} {c : GalCmd}

/-- A step's end noted for its flight. -/
def State.stepNoted (s : State) (e : StepEnd) : State :=
  { s with gal := { s.gal with ended := s.gal.ended ++ [e] } }.bump F.GAL_CNT_CMD_COUNT

/-- A command completes as its operation ends, and a step as its end is noted. -/
inductive Completed (c : GalCmd) (s : State) : State → Prop
  | op {v : State} {st : Nat} {w : Nat × Nat} (hc : c.step = none) (h : Calm (s.galRemove c) v) :
    Completed c s (v.galEndOp c.op st w).progSweep
  | step {v : State} {e : StepEnd} (hc : c.step ≠ none) (h : Calm (s.galRemove c) v) : Completed c s (v.stepNoted e).progSweep

theorem completed_galComplete : Completed c s (s.galComplete c) := by
  unfold State.galComplete
  extract_lets s₁
  split
  next s₂ c₂ e₂ =>
    obtain ⟨h₂, hs₂, ho₂⟩ : PageFrame s₁ s₂ ∧ c₂.step = c.step ∧ c₂.op = c.op := by
      split at e₂ <;> cases e₂
      · exact ⟨.poolFault, rfl, rfl⟩
      · exact ⟨.refl _, rfl, rfl⟩
    split
    next s₃ c₃ e₃ =>
      obtain ⟨h₃, hs₃, ho₃⟩ : PageFrame s₂ s₃ ∧ c₃.step = c₂.step ∧ c₃.op = c₂.op := by
        split at e₃ <;> cases e₃
        · exact ⟨.programEnd, rfl, rfl⟩
        · exact ⟨.refl _, rfl, rfl⟩
      extract_lets -underBinder c₄ s₅ s₆ s₇
      obtain ⟨hs₄, ho₄⟩ : c₄.step = c₃.step ∧ c₄.op = c₃.op := by
        unfold c₄
        split <;> exact ⟨rfl, rfl⟩
      have h₆ : Calm s₁ s₆ :=
        .ofPage ((h₂.trans h₃).trans ((PageFrame.ite .emptyGroup (.refl _)).trans (.ite .freeDest (.refl _))))
      have hs : c₄.step = c.step := hs₄.trans (hs₃.trans hs₂)
      have ho : c₄.op = c.op := ho₄.trans (ho₃.trans ho₂)
      unfold s₇
      split
      next e => exact .step (by rw [← hs, e]; exact Option.some_ne_none _) (h₆.trans (.ite ((Calm.event _).trans (.bump _)) (.refl _)))
      next e => rw [ho]; exact .op (hs ▸ e) h₆

end
end Sys2Proof.Machine
end

section
namespace Sys2Proof.Machine

/-! ### Demand fetches (R173) -/

section
variable {s t : State} {k p : Nat}

/-- Fields that a fetch leaves: a refusal marks operations, and that alone of them (R183). -/
theorem onward_of_mapped {f : Op → Op} (hg : t.gal = s.gal) (hs : t.since = s.since) (hr : t.recent = s.recent) (ho : t.ops = s.ops.map f)
    (hid : ∀ o, (f o).id = o.id) (hd : ∀ o, (f o).done = o.done) : Onward s t where
  cmds := by rw [hg]
  ended := by rw [hg]
  heads := by rw [hg]
  timers k hk := by rwa [State.limitRuns, hs]
  posted h := by
    rcases h with h | ⟨o, hm, hn⟩
    · exact .inl (hr ▸ h)
    · exact .inr ⟨f o, ho ▸ List.mem_map_of_mem hm, (hd o) ▸ hn⟩
  ops o h := by
    rw [ho] at h
    obtain ⟨p, hp, rfl⟩ := List.mem_map.1 h
    exact ⟨p, hp, (hid p).symm⟩

theorem onward_markDeferred (ks : List Nat) : Onward s (s.markDeferred ks) :=
  onward_of_mapped rfl rfl rfl rfl (fun o => by split <;> rfl) (fun o => by split <;> rfl)

theorem calm_deferUnit (i : Option Nat) : Calm s (s.deferUnit i) := by
  unfold State.deferUnit
  cases i <;> exact .of_eq rfl rfl rfl rfl rfl rfl

theorem calm_fetchLater (b : Bool) : Calm s (s.fetchLater k p b) := .of_eq rfl rfl rfl rfl rfl rfl

theorem calm_moved {i : Option Nat} {c : Nat} {m : Move} : Calm s ((s.charge i c).addMove m) := .of_eq rfl rfl rfl rfl rfl rfl

theorem onward_startFetch : Onward s (s.startFetch k p) := by
  unfold State.startFetch
  have hlater (u : State) (b : Bool) : Onward u (u.fetchLater k p b) := (calm_fetchLater b).toOnward
  split
  · exact (Calm.refl s).toOnward
  · split
    · split
      · exact (Calm.refl s).toOnward
      · split
        · exact hlater _ _
        · split
          · exact hlater _ _
          next o _ _ _ t _ =>
            extract_lets c
            split
            · split
              next f v e =>
                have hv : Calm s v := by
                  have h := PageFrame.frameFor (s := s) (k := k) (p := p) (c := 0) (t := t)
                  rw [e] at h
                  exact .ofPage h
                split
                · exact (hv.trans (calm_moved.trans (.ofPage ⟨_, _, _, _, rfl⟩))).toOnward
                · exact hv.toOnward.trans (hlater _ _)
            · exact (((Calm.bump _).trans (calm_deferUnit _)).toOnward.trans (onward_markDeferred _)).trans (hlater _ _)
    · exact (Calm.ofPage ⟨_, _, _, _, rfl⟩).toOnward

theorem onward_spansFetch {write : Bool} {l : List (Space × Nat × Nat)} : Onward s (s.spansFetch write l) := by
  refine .foldl (fun u x => ?_) l s
  split
  · unfold State.fetchPages
    extract_lets v
    have hv : Calm u v := .ite (.foldl (fun _ _ => .ofPage .firstWrite) _ _) (.refl u)
    exact hv.toOnward.trans (.foldl (fun _ _ => onward_startFetch) _ _)
  · exact (Calm.refl u).toOnward

end

/-! ### What shows that a command has been there -/

/-- A command of an operation, or of a step, is with the Gallery or has been: it is among its commands, something has ended, or its
operation is gone. -/
def State.Served (s : State) (op : Nat) (step : Option (Nat × Nat)) : Prop :=
  s.Posted ∨ s.gal.ended ≠ [] ∨ (∃ c ∈ s.gal.cmds, c.op = op ∧ c.step = step) ∨ (step = none ∧ s.op op = none)

/-- A command has been served for which a time limit runs. -/
def State.Traced (s : State) : Prop := ∃ op step, s.Served op step ∧ s.limitRuns (.op op) = true

/-- What has been served is still seen to be, limits still run, and the dispatches that wait are as they were. -/
structure Goes (s t : State) : Prop where
  served : ∀ op step, s.Served op step → t.Served op step
  timers : ∀ k, s.limitRuns k = true → t.limitRuns k = true
  heads : t.gal.heads = s.gal.heads

/-- No operation is marked, or a command has left its trace. -/
def State.Clear (s : State) : Prop := s.Unmarked ∨ s.Traced

section
variable {s t u : State} {c : GalCmd} {op : Nat} {step : Option (Nat × Nat)}

theorem Onward.served (h : Onward s t) : s.Served op step → t.Served op step := by
  rintro (hp | he | ⟨c, hc, hk⟩ | ⟨hs, hn⟩)
  · exact .inl (h.posted hp)
  · exact .inr (.inl (by rwa [h.ended]))
  · exact .inr (.inr (.inl ⟨c, by rwa [h.cmds], hk⟩))
  · exact .inr (.inr (.inr ⟨hs, h.op_none hn⟩))

theorem Onward.goes (h : Onward s t) : Goes s t := ⟨fun _ _ => h.served, h.timers, h.heads⟩

theorem Goes.trans (h : Goes s t) (k : Goes t u) : Goes s u :=
  ⟨fun a b hs => k.served a b (h.served a b hs), fun a ha => k.timers a (h.timers a ha), k.heads.trans h.heads⟩

theorem Goes.traced (h : Goes s t) : s.Traced → t.Traced
  | ⟨op, step, hs, ht⟩ => ⟨op, step, h.served op step hs, h.timers _ ht⟩

theorem Goes.clear (h : Goes s t) (hm : s.Unmarked → t.Unmarked) (hs : s.Clear) : t.Clear := hs.imp hm h.traced

theorem Calm.clear (h : Calm s t) (hs : s.Clear) : t.Clear := h.toOnward.goes.clear h.marks hs

theorem goes_galPut : Goes s (s.galPut c) where
  served op step h := by
    rcases h with h | h | ⟨x, hx, hk⟩ | h
    · exact .inl h
    · exact .inr (.inl h)
    · refine .inr (.inr (.inl ⟨_, List.mem_map_of_mem hx, ?_⟩))
      split
      next e =>
        simp only [Bool.and_eq_true, beq_iff_eq] at e
        rwa [← e.1, ← e.2]
      next => exact hk
    · exact .inr (.inr (.inr h))
  timers _ h := h
  heads := rfl

/-- A command that completes leaves the others, and something that has ended. -/
theorem served_completed (h : Completed c s t) (hs : s.Served op step) : t.Served op step := by
  have hkept (hne : ¬(op = c.op ∧ step = c.step)) : (s.galRemove c).Served op step := by
    rcases hs with hs | hs | ⟨x, hx, rfl, rfl⟩ | hs
    · exact .inl hs
    · exact .inr (.inl hs)
    · exact .inr (.inr (.inl ⟨x, List.mem_filter.2 ⟨hx, by simpa [imp_iff_not_or] using fun a b => hne ⟨a, b⟩⟩, rfl, rfl⟩))
    · exact .inr (.inr (.inr hs))
  cases h with
  | @op v st w hc hv =>
    have hend := calm_galEndOp (s := v) (id := c.op) (st := st) (w := w)
    have ht := (hend.trans calm_progSweep).toOnward
    by_cases he : op = c.op ∧ step = c.step
    · obtain ⟨rfl, rfl⟩ := he
      by_cases hn : v.op c.op = none
      · exact ht.served (.inr (.inr (.inr ⟨hc, hn⟩)))
      · exact calm_progSweep.toOnward.served (.inl (posted_galEndOp hn))
    · exact ht.served (hv.toOnward.served (hkept he))
  | step hc hv => exact calm_progSweep.toOnward.served (.inr (.inl (by simp [State.stepNoted])))

theorem kept_completed (h : Completed c s t) :
    (∀ k, s.limitRuns k = true → t.limitRuns k = true) ∧ t.gal.heads = s.gal.heads ∧ (s.Unmarked → t.Unmarked) := by
  cases h with
  | @op v st w hc hv =>
    have h := hv.trans ((calm_galEndOp (id := c.op) (st := st) (w := w)).trans calm_progSweep)
    exact ⟨h.timers, h.heads, h.marks⟩
  | @step v e hc hv =>
    have h : Calm (v.stepNoted e) (v.stepNoted e).progSweep := calm_progSweep
    exact ⟨fun k hk => h.timers k (hv.timers k hk), h.heads.trans hv.heads, fun hs => h.marks (hv.marks hs)⟩

theorem goes_galComplete : Goes s (s.galComplete c) :=
  ⟨fun _ _ => served_completed completed_galComplete, (kept_completed completed_galComplete).1, (kept_completed completed_galComplete).2.1⟩

/-- A command that does not wait is not marked, nor is another operation. -/
theorem goes_galSettle : Goes s (s.galSettle c) := by
  unfold State.galSettle
  split
  · split
    · exact goes_galPut.trans (onward_spansFetch.goes.trans (Calm.beginOnce _).toOnward.goes)
    · exact goes_galComplete
  · exact goes_galPut

theorem unmarked_galPut (h : s.Unmarked) : (s.galPut c).Unmarked := h

/-- One that waits for its last pages has its time limit. -/
theorem clear_galSettle (hc : s.Served c.op c.step) (h : s.Clear) : (s.galSettle c).Clear := by
  have hserved : (s.galSettle c).Served c.op c.step := goes_galSettle.served _ _ hc
  unfold State.galSettle at hserved ⊢
  split at hserved
  next h₁ =>
    rw [if_pos h₁]
    split at hserved
    next h₂ =>
      rw [if_pos h₂]
      exact .inr ⟨_, _, hserved, limitRuns_beginOnce _⟩
    next h₂ =>
      rw [if_neg h₂]
      exact goes_galComplete.clear (kept_completed completed_galComplete).2.2 h
  next h₁ =>
    rw [if_neg h₁]
    exact goes_galPut.clear unmarked_galPut h

/-- The last writes of commands whose chunks are done, one after the other. -/
theorem galLast_goes : Goes s s.galLast ∧ (s.Clear → s.galLast.Clear) := by
  have hl (l : List GalCmd) (u : State) (hserved : ∀ c ∈ l, u.Served c.op c.step) :
      Goes u (l.foldl State.galSettle u) ∧ (u.Clear → (l.foldl State.galSettle u).Clear) := by
    induction l generalizing u with
    | nil => exact ⟨(Calm.refl u).toOnward.goes, id⟩
    | cons c cs ih =>
      obtain ⟨hg, hc⟩ := ih (u.galSettle c) fun x hx => goes_galSettle.served _ _ (hserved x (List.mem_cons_of_mem _ hx))
      exact ⟨goes_galSettle.trans hg, fun h => hc (clear_galSettle (hserved c List.mem_cons_self) h)⟩
  exact hl _ s fun c hc => .inr (.inr (.inl ⟨c, List.mem_of_mem_filter hc, rfl, rfl⟩))

end

/-! ### A dispatch (R392) -/

section
variable {s t : State} {o : Op} {id : Nat}

/-- A dispatch that waits: its fetch has begun, and it stands among the dispatches that wait. -/
def WaitsOn (id : Nat) (s t : State) : Prop :=
  t.gal.heads = s.gal.heads ++ [id] ∧ ∀ op step, s.Served op step → t.Served op step

/-- A dispatch that does not: its operation ends, or is a command of the Gallery. -/
structure Dispatched (id : Nat) (s t : State) : Prop extends Goes s t where
  clear : s.Clear → t.Clear
  present : s.op id ≠ none → t.Served id none

theorem OpEnds.dispatched (h : OpEnds id s t) : Dispatched id s t :=
  ⟨h.calm.toOnward.goes, h.calm.clear, fun ho => .inl (h.posted ho)⟩

theorem Dispatched.ite {u : State} {c : Prop} [Decidable c] (h : Dispatched id s t) (k : Dispatched id s u) :
    Dispatched id s (if c then t else u) := by
  split <;> assumption

theorem dispatched_galStart {k : Nat} {img : List Byte} {l : List Strm} : Dispatched o.id s (s.galStart o k img l) := by
  unfold State.galStart
  extract_lets d addends sp scalars c
  generalize hv : ({ s with gal := { s.gal with cmds := s.gal.cmds ++ [c] } } : State) = v
  have hg : Goes s v := by
    subst hv
    refine ⟨fun op step h => ?_, fun _ h => h, rfl⟩
    rcases h with h | h | ⟨x, hx, hk⟩ | h
    · exact .inl h
    · exact .inr (.inl h)
    · exact .inr (.inr (.inl ⟨x, List.mem_append_left _ hx, hk⟩))
    · exact .inr (.inr (.inr h))
  have hc : v.Served o.id none := by
    subst hv
    exact .inr (.inr (.inl ⟨c, List.mem_append_right _ List.mem_cons_self, rfl, rfl⟩))
  have hm (h : s.Unmarked) : v.Unmarked := by
    subst hv
    exact h
  exact ⟨hg.trans goes_galSettle, fun h => clear_galSettle hc (hg.clear hm h), fun _ => goes_galSettle.served _ _ hc⟩

theorem galDispatch_cases : Dispatched o.id s (s.galDispatch o) ∨ (s.headWaits o = true ∧ WaitsOn o.id s (s.galDispatch o)) := by
  have hrefuse {st detail kind ver : Nat} : Dispatched o.id s (s.galRefuse o st detail kind ver) := opEnds_galEndOp.dispatched
  unfold State.galDispatch
  extract_lets
  split
  · exact .inl hrefuse
  split
  · exact .inl hrefuse
  split
  · exact .inl hrefuse
  split
  next hw =>
    have h : Onward s ((s.spansFetch false (s.headSpans o)).begin (.op o.id)) := onward_spansFetch.trans (Calm.begin _).toOnward
    exact .inr ⟨hw, by rw [← h.heads], fun _ _ hs => h.served hs⟩
  · refine .inl ?_
    split
    · exact opEnds_loadProgram.dispatched
    split
    · exact opEnds_unloadProgram.dispatched
    refine hrefuse.ite ?_
    split
    · exact hrefuse
    · exact hrefuse
    · exact dispatched_galStart

end
end Sys2Proof.Machine
end

section
namespace Sys2Proof.Machine

/-! ### What a round of the Gallery leaves -/

section
variable {s : State} {o : Op} {g : Gal} {x : TObj} {write : Bool}

theorem pagesReach_gal (ps : List Nat) : ({ s with gal := g }).pagesReach x write ps = s.pagesReach x write ps := by
  induction ps with
  | nil => rfl
  | cons p ps ih =>
    have hp : ({ s with gal := g }).pageReach x write p = s.pageReach x write p := rfl
    unfold State.pagesReach
    rw [hp, ih]

theorem spanReach_gal (i : Nat) (sp : Space) (a n : Nat) : ({ s with gal := g }).spanReach i write sp a n = s.spanReach i write sp a n := by
  have hobj (k : Nat) : ({ s with gal := g }).obj k = s.obj k := rfl
  have hcheck (h : Nat) : ({ s with gal := g }).tierCheck i h a n = s.tierCheck i h a n := rfl
  have hrange (k : Nat) (y : TObj) (ps : List Nat) : ({ s with gal := g }).rangeReach k y write ps = s.rangeReach k y write ps := by
    unfold State.rangeReach
    rw [pagesReach_gal]
    rfl
  cases sp with
  | tier h => simp only [State.spanReach, hobj, hcheck, hrange]
  | _ => rfl

/-- Whether a dispatch waits depends on nothing of the Gallery's own. -/
theorem headWaits_gal : ({ s with gal := g }).headWaits o = s.headWaits o := by
  unfold State.headWaits
  simp only [spanReach_gal]
  rfl

end

/-- What a round that begins with one dispatch waiting and no operation marked keeps true: the dispatch has been served, or it waits
still and nothing is marked without a trace, or another waits behind it. -/
def State.Round (s : State) (id : Nat) : Prop := s.Served id none ∨ (s.Clear ∧ s.gal.heads = [id]) ∨ 2 ≤ s.gal.heads.length

section
variable {s t w : State} {id i : Nat}

theorem round_headKick (hc : s.Clear) (hh : s.gal.heads = [id]) : (s.headKick id).Round id := by
  unfold State.headKick
  split
  next hn => exact .inl (.inr (.inr (.inr ⟨rfl, hn⟩)))
  next o ho =>
    obtain ⟨-, rfl⟩ := op_mem ho
    split
    · exact .inr (.inl ⟨hc, hh⟩)
    next hw =>
      rcases galDispatch_cases (s := { s with gal := { s.gal with heads := s.gal.heads.filter (· != o.id) } }) (o := o) with h | ⟨h, -⟩
      · exact .inl (h.present (by rw [State.op]; rw [State.op] at ho; simp [ho]))
      · rw [headWaits_gal] at h
        exact absurd h hw

theorem Dispatched.round (h : Dispatched i s t) (hs : s.Round id) : t.Round id := by
  rcases hs with hs | ⟨hc, hh⟩ | hl
  · exact .inl (h.served _ _ hs)
  · exact .inr (.inl ⟨h.clear hc, h.heads.trans hh⟩)
  · exact .inr (.inr (by rwa [h.heads]))

theorem WaitsOn.round (h : WaitsOn i s t) (hs : s.Round id) : t.Round id := by
  obtain ⟨hh, hserved⟩ := h
  rcases hs with hs | ⟨-, hs⟩ | hl
  · exact .inl (hserved _ _ hs)
  · exact .inr (.inr (by simp [hh, hs]))
  · exact .inr (.inr (by rw [hh, List.length_append]; omega))

theorem round_fenceGo (hs : s.Round id) : (s.fenceGo i).Round id := by
  unfold State.fenceGo
  split
  · exact hs
  next o _ =>
    split
    · have hheld : ({ s with gal := { s.gal with held := s.gal.held.filter (· != i) } } : State).Round id := hs
      rcases galDispatch_cases (s := { s with gal := { s.gal with held := s.gal.held.filter (· != i) } }) (o := o) with h | ⟨-, h⟩
      · exact h.round hheld
      · exact h.round hheld
    · exact hs

theorem round_galKick (hm : w.Unmarked) (hh : w.gal.heads = [id]) : (w.galKick).Round id := by
  obtain ⟨hg, hc⟩ := galLast_goes (s := w)
  have hlast : w.galLast.gal.heads = [id] := hg.heads.trans hh
  have hhead : (w.galLast.gal.heads.foldl State.headKick w.galLast).Round id := by
    rw [hlast]
    exact round_headKick (hc (.inl hm)) hlast
  unfold State.galKick
  extract_lets u v
  exact List.foldlRecOn (motive := fun u : State => u.Round id) v.gal.held State.fenceGo hhead fun u hu i _ => round_fenceGo hu

/-- A state in which one dispatch waits, the Gallery has nothing else, no record is posted, and an operation is marked: no round that
begins unmarked ends in it. -/
structure OneWaits (t : State) (id : Nat) : Prop where
  cmds : t.gal.cmds = []
  ended : t.gal.ended = []
  heads : t.gal.heads = [id]
  recent : t.recent = []
  done : ∀ o ∈ t.ops, o.done = none
  there : t.op id ≠ none
  timers : ∀ e ∈ t.since, e.1 = .op id
  marked : ¬ t.Unmarked

theorem OneWaits.not_served {step : Option (Nat × Nat)} (h : OneWaits t id) : ¬ t.Served id step := by
  rintro ((hr | ⟨o, ho, hd⟩) | he | ⟨c, hc, -⟩ | ⟨-, hn⟩)
  · exact hr h.recent
  · exact hd (h.done o ho)
  · exact he h.ended
  · rw [h.cmds] at hc
    cases hc
  · exact h.there hn

theorem OneWaits.not_round (h : OneWaits t id) : ¬ t.Round id := by
  rintro (hs | ⟨hm | ⟨op, step, hs, ht⟩, -⟩ | hl)
  · exact h.not_served hs
  · exact h.marked hm
  · obtain ⟨e, he, hop⟩ := List.any_eq_true.1 ht
    have hid : op = id := by
      have := (beq_iff_eq.1 hop).symm.trans (h.timers e he)
      exact Timer.op.inj this
    subst hid
    exact h.not_served hs
  · simp [h.heads] at hl

end

/-! ### A REDUCE that waits, and a placement command that its fetch marks -/

/-- A REDUCE of one element, whose table of two streams stands at address 0 of its slice's memory. -/
def waitDesc : Desc := BitVec.ofNat 512 (2 ^ 32 + 2 * 2 ^ 112 + 2 ^ 128)

/-- An object of one page, which lies in T4. -/
def coldObj : TObj := ⟨2, 0, 1, 0, 0, 0, false, 0, 1, 0, false, [(0, ⟨some (4, 0), none, 0, none, false, 0, 0, .intact, .intact⟩)]⟩

/-- A placement command that waits and names that object. -/
def waitingOp : Op := ⟨7, 9, 0, 8, 0, BitVec.ofNat 512 (258 * 2 ^ 96), 0, false, false, false, none⟩

/-- Slice 0 has a Gallery ring with one entry and a weight, its memory names a group in the object, and the Coffer has nothing left. -/
def coldState : State :=
  { State.reset.setFs [(F.HST_LINK_H0_STATE 0, 2), (F.HST_FUNC_PF1_BME 0, 1), (F.GAL_WEIGHT_W0 0, 1), (F.GAL_CLUSTER_EN_EN, 1),
      (F.GAL_FLIGHT_RESERVE_CLUSTERS, 0), (F.NVS_BE_STATE 0, 2)] with
    slices := [(0, { Slice.free 1 with state := .active })]
    rings := [(1, ⟨BitVec.ofNat 256 (5 * 2 ^ 16), 1, 0, 0, 1, 0⟩)]
    ops := [waitingOp]
    opNext := 8
    mem := Mem.write [] ((Space.host 0 0).at 0) [16, 0, 0, 0, 2, 1]
    pwr := { State.reset.pwr with devCharge := 1, allowance := 0 }
    plc := { State.reset.plc with objs := [(1, coldObj)], pools := [(0, ⟨4, 0, 0, 0, 1, 0⟩)], waits := [(7, .fence)] } }

/-- What a fetched REDUCE of that state meets: it passes the checks ahead of its headers, and waits for one. -/
def coldMeets (o : Op) (u : State) : Bool :=
  u.galWeight o.owner != 0 && ((List.range 16).any fun k => u.clusterOn k && u.galReserve ≤ k) && u.headWaits o && u.gal.heads.isEmpty &&
    u.ops.all (!·.deferred) && o.id == 8

theorem coldState_meets : ((coldState.fetch 1 0x05 (Desc.tag waitDesc) waitDesc).any fun e => coldMeets e.1 e.2) = true := by decide +kernel

/-- The facts of `OneWaits` that a run of the model decides. -/
def oneWaits (t : State) : Bool :=
  t.gal.cmds.isEmpty && t.gal.ended.isEmpty && t.gal.heads == [8] && t.recent.isEmpty && t.ops.all (·.done.isNone) && (t.op 8).isSome &&
    t.since.all (·.1 == .op 8) && t.ops.any (·.deferred)

theorem OneWaits.of_oneWaits {t : State} (h : oneWaits t = true) : OneWaits t 8 := by
  simp only [oneWaits, Bool.and_eq_true, List.isEmpty_iff, beq_iff_eq, List.all_eq_true, Option.isNone_iff_eq_none, List.any_eq_true] at h
  obtain ⟨⟨⟨⟨⟨⟨⟨hcmds, hended⟩, hheads⟩, hrecent⟩, hdone⟩, hthere⟩, htimers⟩, o, ho, hmarked⟩ := h
  exact ⟨hcmds, hended, hheads, hrecent, hdone, fun hn => by simp [hn] at hthere, htimers, fun hu => by simp [hu o ho] at hmarked⟩

/-- The instruction leaves the REDUCE waiting, and the placement command marked as deferred. -/
theorem coldState_exec : (match exec (.reduce 1 waitDesc) coldState with | .next t => oneWaits t | _ => false) = true := by decide +kernel

theorem waitDesc_checked : Desc.field waitDesc 4 1 ≠ 0x0F ∧ galOpcode waitDesc = 1 ∧ Desc.bits waitDesc 41 41 = 0 ∧ Desc.field waitDesc 40 2 = 0 ∧
    galDescStatus waitDesc = stOk ∧ coldState.galReady 1 = true := by decide +kernel

/-- Refutes O33: a REDUCE that waits for the page of a group header has the page fetched in the same round, and a fetch that the Coffer refuses
marks the placement command whose object it serves as deferred (R183), so no state with the operations of `u` becomes the result. -/
theorem not_galleryDispatch : ¬ Obligations.GalleryDispatch := by
  unfold Obligations.GalleryDispatch
  intro h
  obtain ⟨hkind, hop, hfence, hmask, hstatus, hready⟩ := waitDesc_checked
  obtain ⟨⟨o, u⟩, hfetch, hmeets⟩ := (Option.any_eq_true _ _).1 coldState_meets
  simp only [coldMeets, Bool.and_eq_true, bne_iff_ne, List.isEmpty_iff, List.all_eq_true, Bool.not_eq_true', beq_iff_eq] at hmeets
  obtain ⟨⟨⟨⟨⟨hweight, hcluster⟩, hwaits⟩, hheads⟩, hmarks⟩, hid⟩ := hmeets
  have hchecks := (h coldState 1 waitDesc (.reduce 1 waitDesc) 1 List.mem_cons_self (.inl hop) hkind).2 o u hfetch hready
  obtain ⟨-, -, -, -, -, hgood⟩ := hchecks.2 (.inl hfence)
  have hwait := (hgood hstatus hweight (by simpa [hmask] using hcluster) (by decide) (fun h => absurd h (by decide))).1
  obtain ⟨w, t, hexec, rfl, hw, hops, -⟩ := hwait rfl hwaits
  have hrun := coldState_exec
  rw [hexec] at hrun
  have hone : OneWaits w.galKick 8 := .of_oneWaits hrun
  have hunmarked : w.Unmarked := by rwa [State.Unmarked, hops]
  exact hone.not_round (round_galKick hunmarked (by simp [hw, hheads, hid]))

end Sys2Proof.Machine
end

section

/-! ## O7: reads that latch -/

namespace Sys2Proof.Machine

/-! ### Latches (R261) -/

section
variable {s w : State} {m : Master} {a b k v : Nat}

theorem latchKey_ne (h : a ≠ b) : latchKey m a ≠ latchKey m b := by
  unfold latchKey
  omega

theorem look_latch_same : look (s.latch m a v).latches (latchKey m a) = some (BitVec.ofNat 32 v) := look_put_same _ _ _

theorem look_latch_ne (h : k ≠ latchKey m a) : look (s.latch m a v).latches k = look s.latches k := look_put_ne _ _ _ _ h.symm

/-- The time of FLT_NEWEL_LO's read is latched in one moment (R126). -/
theorem newelRead_reached (h : s.reach m R.FLT_NEWEL_LO = (some a, w)) :
    s.newelRead m = (w.latch m R.FLT_NEWEL_HI (w.now / 2 ^ 32)).latch m R.FLT_NEWEL_FRAC w.fracReg := by
  simp only [State.newelRead, h]

/-- A register whose fields refuse no master latches its _HI half, where it is a counter's _LO half. -/
theorem counterRead_reached {off : BitVec 26} {r : RegRow} (h : s.reach m off.toNat = (some a, w)) (hr : rowOf a = some r)
    (hp : r.hasAcc .prw = false) (hs : r.hasAcc .srw = false) (hlo : counterLos.contains a = true) :
    s.counterRead m off = w.latch m (a + 4) (w.reg (a + 4)) := by
  simp only [State.counterRead, h, hr, hp, hs, hlo, Bool.false_and, Bool.false_eq_true, if_false, if_true]

end

/-- Settles O7: each read is one latch after another, of which the keys of other masters and registers are apart. -/
theorem readsLatchHighHalves : Obligations.ReadsLatchHighHalves := by
  unfold Obligations.ReadsLatchHighHalves
  refine ⟨fun s w m a h => ?_, fun s w m off a r h hr hp hs hlo => ?_⟩
  · have hne : latchKey m R.FLT_NEWEL_HI ≠ latchKey m R.FLT_NEWEL_FRAC := latchKey_ne (by decide)
    refine ⟨_, congrArg Host.Outcome.next (newelRead_reached h), ?_, look_latch_same, fun k hhi hfrac => ?_, rfl⟩
    · rw [look_latch_ne hne, look_latch_same]
    · rw [look_latch_ne hfrac, look_latch_ne hhi]
  · exact ⟨_, congrArg Host.Outcome.next (counterRead_reached h hr hp hs hlo), look_latch_same, fun k hk => look_latch_ne hk, rfl⟩

end Sys2Proof.Machine
end

section

/-! ## O12: Newel time -/

namespace Sys2Proof.Machine

/-! ### What keeping time leaves alone -/

/-- Registers, draws, time, running limits, the stewards' logs, the module's pins and what has been sent may differ, and nothing
else. -/
def NewelFrame (s t : State) : Prop :=
  ∃ r d z c w m o, t = { s with regs := r, draws := d, time := z, since := c, stw := w, mio := m, outbox := o }

namespace NewelFrame
variable {s t u : State}

theorem refl (s : State) : NewelFrame s s := ⟨_, _, _, _, _, _, _, rfl⟩

theorem trans (h : NewelFrame s t) (k : NewelFrame t u) : NewelFrame s u := by
  obtain ⟨_, _, _, _, _, _, _, rfl⟩ := h
  obtain ⟨_, _, _, _, _, _, _, rfl⟩ := k
  exact ⟨_, _, _, _, _, _, _, rfl⟩

theorem ite {c : Prop} [Decidable c] (h : NewelFrame s t) (k : NewelFrame s u) : NewelFrame s (if c then t else u) := by
  split <;> assumption

theorem work (h : NewelFrame s t) : sameWork s t := by
  obtain ⟨_, _, _, _, _, _, _, rfl⟩ := h
  simp [sameWork, sameBytes, sameEngines, sameTenants]

theorem time (s : State) (z : Time) : NewelFrame s { s with time := z } := ⟨_, _, _, _, _, _, _, rfl⟩

theorem ripe (s : State) (k : Timer) (d : Nat) : NewelFrame s (s.ripe k d) := by
  obtain ⟨_, _, h⟩ := ripe_eq (s := s) (k := k) (d := d)
  rw [h]
  exact ⟨_, _, _, _, _, _, _, rfl⟩

theorem ppsOut (s : State) (high : Bool) : NewelFrame s (s.ppsOut high) := .ite (.refl s) ⟨_, _, _, _, _, _, _, rfl⟩

end NewelFrame

section
variable {s : State} {k : Timer} {d : Nat} {high : Bool}

/-- A limit that has passed lets time pass and leaves the time state. -/
theorem ripe_time : (s.ripe k d).time.st = s.time.st ∧ s.up ≤ (s.ripe k d).up := by
  unfold State.ripe
  split
  · exact ⟨rfl, Nat.le_add_right _ _⟩
  · exact ⟨rfl, le_rfl⟩

theorem ppsOut_regs : (s.ppsOut high).regs = s.regs := by
  unfold State.ppsOut
  split <;> rfl

theorem ppsOut_time : (s.ppsOut high).time = s.time := by
  unfold State.ppsOut
  split <;> rfl

end

/-! ### The time state (R101) -/

/-- The time state once it has changed and shows. -/
def State.timeShown (s : State) (st : TimeState) : State :=
  ({ s with time := { s.time with st := st, run := if st = TimeState.unlocked then 0 else s.time.run } }.eventV F.FLT_PTP_STATUS_STATE st.code).event
    F.FLT_STATUS_PTP_EVENT

/-- The limit of HOLDOVER counts from its entry. -/
def State.timeBegun (s : State) (st : TimeState) : State :=
  if st = .holdover then (s.timeShown st).begin .holdover else s.timeShown st

section
variable {s : State} {st : TimeState} {a : Nat}

theorem timeBegun_eq : ∃ c, s.timeBegun st = { s.timeShown st with since := c } := by
  unfold State.timeBegun
  split
  · exact ⟨_, rfl⟩
  · exact ⟨_, rfl⟩

theorem setTime_same (h : s.time.st = st) : s.setTime st = s := if_pos h

/-- A change shows; behind it HOLDOVER's limit begins, or the pulse ends. -/
theorem setTime_changed (h : s.time.st ≠ st) : NewelFrame s (s.setTime st) ∧ (s.setTime st).regs = (s.timeShown st).regs ∧
    (s.setTime st).time = (s.timeShown st).time := by
  obtain ⟨c, hc⟩ := timeBegun_eq (s := s) (st := st)
  have hmoved : NewelFrame s (s.timeBegun st) ∧ (s.timeBegun st).regs = (s.timeShown st).regs ∧
      (s.timeBegun st).time = (s.timeShown st).time := by
    rw [hc]
    exact ⟨⟨_, _, _, _, _, _, _, rfl⟩, rfl, rfl⟩
  have he : s.setTime st = if st = .locked ∨ st = .holdover then s.timeBegun st else (s.timeBegun st).ppsOut false := if_neg h
  obtain ⟨hf, hr, ht⟩ := hmoved
  rw [he]
  split
  · exact ⟨hf, hr, ht⟩
  · exact ⟨hf.trans (.ppsOut _ _), ppsOut_regs.trans hr, ppsOut_time.trans ht⟩

theorem setTime_frame : NewelFrame s (s.setTime st) := by
  by_cases h : s.time.st = st
  · rw [setTime_same h]
    exact .refl s
  · exact (setTime_changed h).1

theorem setTime_time : (s.setTime st).time =
    if s.time.st = st then s.time else { s.time with st := st, run := if st = .unlocked then 0 else s.time.run } := by
  split
  next h => rw [setTime_same h]
  next h => exact (setTime_changed h).2.2

theorem setTime_st : (s.setTime st).time.st = st := by
  rw [setTime_time]
  split
  next h => exact h
  next => rfl

theorem setTime_stamps : (s.setTime st).time.stamps = s.time.stamps := by
  rw [setTime_time]
  split <;> rfl

/-- An entry to UNLOCKED alone ends the run. -/
theorem setTime_run : (s.setTime st).time.run = if s.time.st ≠ st ∧ st = .unlocked then 0 else s.time.run := by
  rw [setTime_time]
  by_cases h : s.time.st = st
  · simp [h]
  · simp [h]

theorem TimeState.code_lt (st : TimeState) : st.code < 4 := by cases st <;> decide

/-- A change is shown by its code (Table 05-17). -/
theorem setTime_shown (h : s.time.st ≠ st) : (s.setTime st).getF F.FLT_PTP_STATUS_STATE = st.code := by
  rw [getF_of_regs _ _ _ (setTime_changed h).2.1, State.timeShown, getF_event_reg_ne (by decide), getF_eventV_same _ _ _ rfl (by decide)]
  exact Nat.mod_eq_of_lt st.code_lt

theorem setTime_reg (h : a ≠ R.FLT_PTP_STATUS) (h' : a ≠ R.FLT_STATUS) : (s.setTime st).reg a = s.reg a := by
  by_cases he : s.time.st = st
  · rw [setTime_same he]
  · rw [reg_of_regs _ _ _ (setTime_changed he).2.1, State.timeShown, State.event, reg_eventV_ne _ _ _ _ h'.symm,
      reg_eventV_ne _ _ _ _ h.symm]
    rfl

end

/-! ### A measurement (R101) -/

/-- The time state behind a measurement and its run count. -/
def TimeState.after (st : TimeState) (good : Bool) (run : Nat) : TimeState :=
  match st, good with
  | .acquiring, true => if 16 ≤ run then .locked else .acquiring
  | .unlocked, true => if 16 ≤ run then .locked else .unlocked
  | .holdover, true => .locked
  | .locked, false => .unlocked
  | .holdover, false => .unlocked
  | st, _ => st

/-- The state of a measured offset, before the time state moves. -/
def State.measured (s : State) (off : Int) (good : Bool) : State :=
  let u := (s.setReg R.FLT_PTP_OFFSET (ofSigned 32 off)).begin .sync
  { u with time := { u.time with heard := true, run := if good then u.time.run + 1 else 0 } }

section
variable {s : State} {off : Int} {good : Bool}

/-- A measurement is taken, and the time state moves as R101 tabulates. -/
theorem syncOffset_eq (hg : decide (off.natAbs ≤ s.getF F.FLT_CONFIG_LOCK_NS) = good) :
    s.syncOffset off = (s.measured off good).setTime (s.time.st.after good (s.measured off good).time.run) := by
  subst hg
  unfold State.syncOffset
  extract_lets good s₁ z u
  change _ = u.setTime (u.time.st.after good u.time.run)
  clear_value u good
  cases h : u.time.st with
  | acquiring =>
    cases good with
    | true =>
      simp only [TimeState.after]
      split
      · rfl
      · rw [setTime_same h]
    | false => exact (setTime_same h).symm
  | locked =>
    cases good with
    | true => exact (setTime_same h).symm
    | false => rfl
  | holdover => cases good <;> rfl
  | unlocked =>
    cases good with
    | true =>
      simp only [TimeState.after]
      split
      · rfl
      · rw [setTime_same h]
    | false => exact (setTime_same h).symm

theorem measured_frame : NewelFrame s (s.measured off good) := ⟨_, _, _, _, _, _, _, rfl⟩

theorem ofSigned_lt (n : Nat) (x : Int) : ofSigned n x < 2 ^ n := by
  have hpos : (0 : Int) < ((2 ^ n : Nat) : Int) := by exact_mod_cast Nat.two_pow_pos n
  have hlt := Int.emod_lt_of_pos x hpos
  have hnn := Int.emod_nonneg x hpos.ne'
  unfold ofSigned
  omega

theorem measured_offset : (s.measured off good).reg R.FLT_PTP_OFFSET = ofSigned 32 off :=
  (reg_setReg_same s _ _).trans (Nat.mod_eq_of_lt (ofSigned_lt 32 off))

/-- A good measurement never leads to UNLOCKED from another state. -/
theorem after_good_ne_unlocked {st : TimeState} {run : Nat} (h : st.after true run = .unlocked) : st = .unlocked := by
  cases st <;> simp only [TimeState.after] at h ⊢
  · split at h <;> cases h
  all_goals cases h

/-- What one measurement does to the run count and the time state. -/
theorem syncOffset_spec (s : State) (off : Int) :
    let good := off.natAbs ≤ s.getF F.FLT_CONFIG_LOCK_NS
    let u := s.syncOffset off
    u.reg R.FLT_PTP_OFFSET = ofSigned 32 off ∧ u.time.stamps = s.time.stamps ∧
      (good → (s.time.st = .holdover ∨ (s.time.st = .acquiring ∨ s.time.st = .unlocked) ∧ 16 ≤ s.time.run + 1) → u.time.st = .locked) ∧
      (good → u.time.run = s.time.run + 1) ∧
      (¬good → (s.time.st = .locked ∨ s.time.st = .holdover) → u.time.st = .unlocked) ∧ (¬good → u.time.run = 0) ∧ NewelFrame s u := by
  intro good u
  have hu {b : Bool} (h : decide good = b) := syncOffset_eq (s := s) (off := off) h
  have hany := hu rfl
  have hgood (h : good) : u = (s.measured off true).setTime (s.time.st.after true (s.time.run + 1)) := hu (decide_eq_true h)
  have hbad (h : ¬good) : u = (s.measured off false).setTime (s.time.st.after false 0) := hu (decide_eq_false h)
  refine ⟨?_, ?_, fun h hst => ?_, fun h => ?_, fun h hst => ?_, fun h => ?_, ?_⟩
  · exact (congrArg (State.reg · _) hany).trans ((setTime_reg (by decide) (by decide)).trans measured_offset)
  · exact (congrArg (·.time.stamps) hany).trans setTime_stamps
  · rw [hgood h, setTime_st]
    obtain hs | ⟨hs | hs, h16⟩ := hst
    · rw [hs]
      rfl
    · rw [hs]
      exact if_pos h16
    · rw [hs]
      exact if_pos h16
  · rw [hgood h, setTime_run, if_neg]
    · rfl
    · rintro ⟨hne, hun⟩
      exact hne ((after_good_ne_unlocked hun).trans hun.symm)
  · rw [hbad h, setTime_st]
    obtain hs | hs := hst
    · rw [hs]
      rfl
    · rw [hs]
      rfl
  · rw [hbad h, setTime_run]
    exact ite_self 0
  · rw [show u = _ from hany]
    exact measured_frame.trans setTime_frame

end

/-! ### Steps (R102) -/

section
variable {s : State} {d : Int}

/-- A STEP that R102 allows moves Newel time, and nothing else. -/
theorem newelBy_allowed (hd : 0 ≤ d ∨ s.flights.any (fun e => e.2.active) = false) (hlo : 0 ≤ (s.time.ns : Int) + d)
    (hhi : (s.time.ns : Int) + d < 2 ^ 64) : s.newelBy d = { s with time := { s.time with ns := ((s.time.ns : Int) + d).toNat } } := by
  refine if_neg ?_
  rintro (⟨hneg, ha⟩ | h | h)
  · rcases hd with h | h
    · omega
    · rw [h] at ha
      cases ha
  · omega
  · omega

end

/-! ### 1PPS (R100, R377) -/

section
variable {s : State} {x m : Nat}

theorem roundUp_mod (hm : 0 < m) : roundUp x m % m = 0 ∧ x ≤ roundUp x m := by
  refine ⟨Nat.mul_mod_left _ _, ?_⟩
  have := Nat.div_add_mod (x + m - 1) m
  have := Nat.mod_lt (x + m - 1) hm
  unfold roundUp
  rw [Nat.mul_comm]
  omega

/-- The nearest whole second. -/
theorem toSecond_aligned : ((s.now : Int) + s.toSecond) % 10 ^ 9 = 0 ∧ 0 ≤ (s.now : Int) + s.toSecond ∧
    (s.now : Int) + s.toSecond ≤ s.now + 10 ^ 9 := by
  unfold State.toSecond
  extract_lets r
  have hr : r = s.now % 10 ^ 9 := rfl
  rw [Int.ofNat_eq_natCast]
  split <;> omega

end

section
variable {s : State} {high : Bool}

/-- A pulse of the grandmaster's input is timestamped. -/
def State.ppsTaken (s : State) : State := { s with time := { s.time with ppsAt := some s.now, ppsWarned := false } }

theorem exec_ppsInEdge {low high : Nat} (ha : s.answers 9 = true) (hm : s.ppsMode = 1) (hl : 100 ≤ low) (hh : 100 ≤ high) :
    exec (.ppsInEdge low high) s = .next (
      if s.ptpRole ≠ 1 ∨ s.now % 10 ^ 9 = 0 then s.ppsTaken
      else if s.toSecond < 0 ∧ s.flights.any (fun e => e.2.active) then
        s.ppsTaken.drawWord.2.setReg R.FLT_NEWEL_ADJ (s.ppsTaken.drawWord.1 % 2 ^ 32)
      else s.ppsTaken.newelBy s.toSecond) :=
  congrArg Host.Outcome.next (if_pos ⟨ha, hm, hl, hh⟩)

/-- PPS_OUT moves to the level asked for, which is what goes out. -/
theorem ppsOut_moved (h : s.mio.ppsOut ≠ high) :
    s.ppsOut high = { s with mio := { s.mio with ppsOut := high }, outbox := .pin 2 (b2n high) :: s.outbox } := if_neg h

end

/-! ### The clauses of the obligation -/

section
variable {s w : State} {m : Master}

theorem newelTime_step (hw : s.writeAt m R.FLT_NEWEL_CTRL = some w) (hp : w.privileged m = true) (ho : w.newelOwned m = false)
    (hd : 0 ≤ w.stepNs ∨ w.flights.any (fun e => e.2.active) = false) (hlo : 0 ≤ (w.time.ns : Int) + w.stepNs)
    (hhi : (w.time.ns : Int) + w.stepNs < 2 ^ 64) :
    ∃ t, exec (.newelStep m) s = .next t ∧ (t.time.ns : Int) = w.time.ns + w.stepNs ∧ t = { w with time := t.time } ∧
      t.time = { w.time with ns := t.time.ns } := by
  have hexec : exec (.newelStep m) s = .next (w.newelBy w.stepNs) :=
    congrArg Host.Outcome.next ((guardWrite_taken s w m _ _ _ hw hp).trans (if_neg (by simp [ho])))
  rw [newelBy_allowed hd hlo hhi] at hexec
  exact ⟨_, hexec, Int.toNat_of_nonneg hlo, rfl, rfl⟩

theorem newelTime_rate {data : Word} (hw : s.writeAt m R.FLT_NEWEL_ADJ = some w) (hp : w.privileged m = true)
    (ho : w.newelOwned m = false) :
    ∃ t, exec (.newelAdjWrite m data) s = .next t ∧ t.reg R.FLT_NEWEL_ADJ = data.toNat ∧ regsBut [R.FLT_NEWEL_ADJ] w t ∧ sameWork w t ∧
      sameDevice w t := by
  have hexec : exec (.newelAdjWrite m data) s = .next (w.setReg R.FLT_NEWEL_ADJ data.toNat) :=
    congrArg Host.Outcome.next ((guardWrite_taken s w m _ _ _ hw hp).trans (if_neg (by simp [ho])))
  have hf := RegisterFrame.setReg w R.FLT_NEWEL_ADJ data.toNat
  exact ⟨_, hexec, (reg_setReg_same _ _ _).trans (Nat.mod_eq_of_lt data.isLt),
    fun a ha => reg_setReg_ne _ _ _ _ fun e => ha (e ▸ List.mem_cons_self), hf.work, hf.device⟩

theorem newelTime_sync (off : Int) (ha : s.answers 9 = true) (hr : 2 ≤ s.ptpRole) :
    exec (.ptpSyncReceived off) s = .next ((s.ptpStamp s.ptpPort false).syncOffset off).delayReq := by
  have h1 : ¬(!s.answers 9) = true := by simp [ha]
  exact congrArg Host.Outcome.next ((if_neg h1).trans (if_neg (Nat.not_lt.2 hr)))

theorem newelTime_unmeasured (off : Int) (ha : s.answers 9 = true) (hr : s.ptpRole < 2) :
    exec (.ptpSyncReceived off) s = .next (s.ptpStamp s.ptpPort false) := by
  have h1 : ¬(!s.answers 9) = true := by simp [ha]
  exact congrArg Host.Outcome.next ((if_neg h1).trans (if_pos hr))

theorem newelTime_silence (ha : s.answers 9 = true) (hr : 2 ≤ s.ptpRole) (hst : s.time.st = .locked) :
    ∃ t, exec .syncSilenceExpiry s = .next t ∧ t.time.st = .holdover ∧ t.getF F.FLT_PTP_STATUS_STATE = 2 ∧ sameWork s t := by
  have hne : (s.ripe .sync (10 ^ 9)).time.st ≠ .holdover := by
    rw [ripe_time.1, hst]
    decide
  exact ⟨_, congrArg Host.Outcome.next (if_pos ⟨ha, hr, hst⟩), setTime_st, setTime_shown hne,
    ((NewelFrame.ripe _ _ _).trans setTime_frame).work⟩

theorem newelTime_holdover (ha : s.answers 9 = true) (hst : s.time.st = .holdover) :
    ∃ t, exec .holdoverExpiry s = .next t ∧ t.time.st = .unlocked ∧ t.time.run = 0 ∧ t.getF F.FLT_PTP_STATUS_STATE = 3 ∧
      sameWork s t := by
  have hne : (s.ripe .holdover (10 ^ 6 * s.getF F.FLT_CONFIG_HOLDOVER_MS + 1)).time.st ≠ .unlocked := by
    rw [ripe_time.1, hst]
    decide
  exact ⟨_, congrArg Host.Outcome.next (if_pos ⟨ha, hst⟩), setTime_st, setTime_run.trans (if_pos ⟨hne, rfl⟩), setTime_shown hne,
    ((NewelFrame.ripe _ _ _).trans setTime_frame).work⟩

theorem newelTime_unheard (ha : s.answers 9 = true) (hr : s.ptpRole = 2) (hh : s.time.heard = false) (ho : s.str.ptpOff = false) :
    ∃ u : State, exec .ptpStartTimeout s = .next (u.envRaise 4 0 1 0) ∧ u.str = { s.str with ptpOff := true } ∧ s.up ≤ u.up ∧
      u = { s with str := u.str, time := u.time, since := u.since } := by
  obtain ⟨z, c, hz⟩ := ripe_eq (s := s) (k := .ptpStart) (d := 10 ^ 9 * s.ptpStartS)
  have hup := (ripe_time (s := s) (k := .ptpStart) (d := 10 ^ 9 * s.ptpStartS)).2
  refine ⟨_, congrArg Host.Outcome.next (if_pos ⟨ha, hr, by simp [hh], by simp [ho]⟩), ?_, hup, ?_⟩
  · rw [hz]
  · rw [hz]

theorem newelTime_pulse {low high : Nat} (ha : s.answers 9 = true) (hm : s.ppsMode = 1) (hl : 100 ≤ low) (hh : 100 ≤ high) :
    let u := { s with time := { s.time with ppsAt := some s.now, ppsWarned := false } }
    (s.ptpRole ≠ 1 ∨ s.now % 10 ^ 9 = 0 → exec (.ppsInEdge low high) s = .next u) ∧
    (s.ptpRole = 1 → s.now % 10 ^ 9 ≠ 0 → (5 * 10 ^ 8 ≤ s.now % 10 ^ 9 ∨ s.flights.any (fun e => e.2.active) = false) → s.now + 10 ^ 9 < 2 ^ 64 →
      ∃ t, exec (.ppsInEdge low high) s = .next t ∧ t.now % 10 ^ 9 = 0 ∧ (t.now : Int) = s.now + s.toSecond ∧ t = { u with time := t.time }) ∧
    (s.ptpRole = 1 → 0 < s.now % 10 ^ 9 → s.now % 10 ^ 9 < 5 * 10 ^ 8 → s.flights.any (fun e => e.2.active) = true →
      ∃ t, exec (.ppsInEdge low high) s = .next t ∧ t.time = u.time ∧ regsBut [R.FLT_NEWEL_ADJ] s t ∧ sameWork s t) := by
  intro u
  rw [exec_ppsInEdge ha hm hl hh]
  have hback : 5 * 10 ^ 8 ≤ s.now % 10 ^ 9 → 0 ≤ s.toSecond := fun h => by
    rw [State.toSecond, if_neg (Nat.not_lt.2 h)]
    exact Int.natCast_nonneg _
  refine ⟨fun h => by rw [if_pos h]; rfl, fun hr hn hd hb => ?_, fun hr hpos hlt hact => ?_⟩
  · have hallowed : 0 ≤ s.toSecond ∨ s.ppsTaken.flights.any (fun e => e.2.active) = false := hd.imp_left hback
    obtain ⟨hmod, hlo, hhi⟩ := toSecond_aligned (s := s)
    have hstep := newelBy_allowed (s := s.ppsTaken) hallowed hlo (by
      have : (s.ppsTaken.time.ns : Int) = s.now := rfl
      omega)
    rw [if_neg (not_or.2 ⟨not_not.2 hr, hn⟩), if_neg, hstep]
    · refine ⟨_, rfl, ?_, Int.toNat_of_nonneg hlo, rfl⟩
      have ht : (((s.ppsTaken.time.ns : Int) + s.toSecond).toNat : Int) = s.now + s.toSecond := Int.toNat_of_nonneg hlo
      change ((s.ppsTaken.time.ns : Int) + s.toSecond).toNat % 10 ^ 9 = 0
      omega
    · rintro ⟨hneg, hact⟩
      rcases hd with h | h
      · have := hback h
        omega
      · rw [h] at hact
        cases hact
  · have hneg : s.toSecond < 0 := by
      rw [State.toSecond, if_pos hlt]
      omega
    rw [if_neg (by omega), if_pos ⟨hneg, hact⟩]
    have hf : NewelFrame s (s.ppsTaken.drawWord.2.setReg R.FLT_NEWEL_ADJ (s.ppsTaken.drawWord.1 % 2 ^ 32)) := ⟨_, _, _, _, _, _, _, rfl⟩
    exact ⟨_, rfl, rfl, fun a h => reg_setReg_ne _ _ _ _ fun e => h (e ▸ List.mem_cons_self), hf.work⟩

theorem newelTime_absent (ha : s.answers 9 = true) (hm : s.ppsMode = 1) :
    ∃ t, exec .ppsInAbsent s = .next t ∧ t.time = { s.time with ppsWarned := true } ∧ sameWork s t := by
  refine ⟨_, congrArg Host.Outcome.next (if_pos ⟨ha, hm⟩), rfl, NewelFrame.work ?_⟩
  exact ⟨_, _, _, _, _, _, _, rfl⟩

theorem newelTime_output {high : Bool} (ha : s.answers 9 = true) (hm : s.ppsMode = 2) (hst : s.timeState = .locked ∨ s.timeState = .holdover)
    (hne : s.mio.ppsOut ≠ high) :
    ∃ t, exec (.ppsOutEdge high) s = .next t ∧ t.mio.ppsOut = high ∧ t.outbox = .pin 2 (b2n high) :: s.outbox ∧ s.now ≤ t.now ∧
      (high = true → t.now % 10 ^ 9 = 0) ∧ (high = false → 10 ^ 8 ≤ t.now % 10 ^ 9) ∧ sameWork s t := by
  have hexec : exec (.ppsOutEdge high) s = _ := congrArg Host.Outcome.next (if_pos ⟨ha, hm, hst, hne⟩)
  generalize hg : (if high then roundUp s.now (10 ^ 9) else s.now / 10 ^ 9 * 10 ^ 9 + 10 ^ 8) = g at hexec
  have hmoved : (s.atLeast g).mio.ppsOut ≠ high := hne
  have hnow : (s.atLeast g).now = max s.now g := atLeast_now s g
  rw [ppsOut_moved hmoved] at hexec
  refine ⟨_, hexec, rfl, rfl, hnow ▸ le_max_left _ _, fun h => ?_, fun h => ?_, ?_⟩
  · obtain ⟨hmod, hle⟩ := roundUp_mod (x := s.now) (m := 10 ^ 9) (by decide)
    subst h
    change (s.atLeast g).now % 10 ^ 9 = 0
    rw [hnow, ← hg, if_pos rfl, max_eq_right hle, hmod]
  · subst h
    change 10 ^ 8 ≤ (s.atLeast g).now % 10 ^ 9
    rw [hnow, ← hg, if_neg Bool.false_ne_true]
    omega
  · exact NewelFrame.work ⟨_, _, _, _, _, _, _, rfl⟩

end

/-- Settles O12: steps and rates by the guard of their register, measurements and limits by the move of the time state, and the
pulses by the second that they mark. -/
theorem newelTime : Obligations.NewelTime := by
  unfold Obligations.NewelTime
  refine ⟨fun s w m hw hp ho hd hlo hhi => newelTime_step hw hp ho hd hlo hhi, fun s w m data hw hp ho => newelTime_rate hw hp ho, ?sync,
    fun s off ha hr => newelTime_unmeasured off ha hr, fun s ha hr hst => newelTime_silence ha hr hst,
    fun s ha hst => newelTime_holdover ha hst, fun s ha hr hh ho => newelTime_unheard ha hr hh ho,
    fun s low high ha hm hl hh => newelTime_pulse ha hm hl hh, fun s ha hm => newelTime_absent ha hm,
    fun s high ha hm hst hne => newelTime_output ha hm hst hne⟩
  case sync =>
    intro s off ha hr _ _ good
    obtain ⟨hoff, hstamps, hlock, hrun, hlost, hzero, hf⟩ := syncOffset_spec (s.ptpStamp s.ptpPort false) off
    refine ⟨_, newelTime_sync off ha hr, hoff, ?_, hlock, hrun, hlost, hzero, ((NewelFrame.time s _).trans hf).work⟩
    rw [hstamps]
    exact look_put_same _ _ _

end Sys2Proof.Machine
end

section

/-! ## O36: flights are loaded, armed, unloaded and cancelled -/

namespace Sys2Proof.Machine

/-! ### A flight command is fetched (R118) -/

section
variable {s u : State} {q : BitVec 16} {d : Desc} {c : Instr} {o : Op} {op ring : Nat} {act : Op → State → State}

theorem exec_flight (hc : (c, op) ∈ [(Instr.load q d, 1), (.arm q d, 2), (.unload q d, 3)]) :
    ∃ act, exec c s = .next (s.fltFetch op q.toNat d act) := by
  simp only [List.mem_cons, Prod.mk.injEq, List.not_mem_nil, or_false] at hc
  obtain ⟨rfl, rfl⟩ | ⟨rfl, rfl⟩ | ⟨rfl, rfl⟩ := hc
  · exact ⟨fun o s => s.loadFlight o, rfl⟩
  · exact ⟨fun o s => s.armFlight o, rfl⟩
  · exact ⟨fun o s => s.unloadFlight o, rfl⟩

theorem fltFetch_none (h : s.fetch ring 0x06 (Desc.tag d) d = none) : s.fltFetch op ring d act = s := by
  simp only [State.fltFetch, h]
  exact ite_self s

/-- A fetched descriptor that breaks Table 05-7 is refused; any other is acted on. -/
theorem fltFetch_fetched (hx : Desc.bits d 35 32 = op ∨ Desc.bits d 35 32 = 0 ∨ 3 < Desc.bits d 35 32) (hw : Desc.field d 4 1 ≠ 0x0F)
    (h : s.fetch ring 0x06 (Desc.tag d) d = some (o, u)) :
    s.fltFetch op ring d act = if fltDescOk d then act o u else u.fltRefuse o stCmdInvalid 0 0 0xFFFF := by
  simp only [State.fltFetch, h]
  exact if_pos ⟨hx, hw⟩

end

/-! ### The flights in other slots -/

section
variable {s : State} {k j : Nat} {f : Flight}

theorem flight_setFlight_ne (h : j ≠ k) : (s.setFlight k f).flight j = s.flight j := look_put_ne _ _ _ _ h.symm

theorem flight_updFlight_ne {g : Flight → Flight} (h : j ≠ k) : (s.updFlight k g).flight j = s.flight j := by
  unfold State.updFlight
  split
  · exact flight_setFlight_ne h
  · rfl

end

/-! ### LOAD (R104, R108) -/

section
variable {s : State} {o : Op} {k j : Nat} {f : Flight}

/-- The image that a LOAD reads; of one of a length that no image has, as many bytes as tell so. -/
def State.flightImage (s : State) (o : Op) : List Byte :=
  s.mem.read ((s.slice o.owner).space.at (Desc.field o.desc 8 8)) (min (Desc.field o.desc 16 4) (2 ^ 24 + 1))

/-- What the checks of R108 say of it. -/
def State.imageVerdict (s : State) (o : Op) : Nat × Nat := s.imageStatus o.owner (s.flightImage o) (Desc.field o.desc 6 2)

/-- The flight that it makes. -/
def State.flightLoaded (s : State) (o : Op) : Flight := Flight.fresh o.owner (flId (s.flightImage o)) (s.flightImage o)

/-- T0 and T1 have room for its buffers. -/
def State.buffersFit (s : State) (o : Op) : Prop :=
  s.reserveStatus o.owner 0 ((s.flightLoaded o).tierPages 0) = stOk ∧ s.reserveStatus o.owner 1 ((s.flightLoaded o).tierPages 1) = stOk

/-- The free slot that the device draws. -/
def State.freeFlightSlot (s : State) : Option Nat := pickFree 0 64 64 s.drawWord.1 fun k => (s.flight k).isNone

theorem freeFlightSlot_none (h : ∀ k < 64, s.flight k ≠ none) : s.freeFlightSlot = none :=
  pickFree_none (by decide) fun k _ hk => by simpa [Option.isSome_iff_ne_none] using h k (by omega)

theorem freeFlightSlot_some (h : ∃ k < 64, s.flight k = none) : ∃ k < 64, s.flight k = none ∧ s.freeFlightSlot = some k := by
  obtain ⟨j, hj, hn⟩ := h
  obtain ⟨k, hk⟩ := pickFree_round (start := s.drawWord.1) (ok := fun k => (s.flight k).isNone) (Nat.zero_le j)
    (by omega : j < 0 + 64) (by simp [hn])
  obtain ⟨hfree, -, hlt⟩ := pickFree_spec hk (by decide)
  exact ⟨k, by omega, Option.isNone_iff_eq_none.1 hfree, hk⟩

theorem loadFlight_invalid (h : (s.imageVerdict o).1 ≠ stOk) :
    s.loadFlight o = s.fltRefuse o (s.imageVerdict o).1 0 (flDev (s.flightImage o)) (s.imageVerdict o).2 := if_pos h

theorem loadFlight_inUse (h : (s.imageVerdict o).1 = stOk) (hf : s.flightOf (flId (s.flightImage o)) ≠ none) :
    s.loadFlight o = s.fltRefuse o stFlightIdInUse 0 (flDev (s.flightImage o)) 0xFFFF :=
  (if_neg (not_not.2 h)).trans (if_pos (Option.isSome_iff_ne_none.2 hf))

/-- What a LOAD does behind its checks, with the slot that it has found. -/
def State.loadInto (s : State) (o : Op) : Option Nat → State
  | none => s.fltRefuse o stFlightSlotsFull 0 (flDev (s.flightImage o)) 0xFFFF
  | some k =>
    if s.reserveStatus o.owner 0 ((s.flightLoaded o).tierPages 0) ≠ stOk ∨ s.reserveStatus o.owner 1 ((s.flightLoaded o).tierPages 1) ≠ stOk then
      s.fltRefuse o stNoBufferSpace 0 (flDev (s.flightImage o)) 0xFFFF
    else ((s.drawWord.2.commitOp o.id).placeFlight k (s.flightLoaded o)).fltRefuse o stOk k (flDev (s.flightImage o)) 0xFFFF

theorem loadFlight_checked (h : (s.imageVerdict o).1 = stOk) (hf : s.flightOf (flId (s.flightImage o)) = none) :
    s.loadFlight o = s.loadInto o s.freeFlightSlot :=
  (if_neg (not_not.2 h)).trans (if_neg (Option.isSome_iff_ne_none.not.2 (not_not.2 hf)))

theorem loadInto_noRoom (h : ¬ s.buffersFit o) :
    s.loadInto o (some k) = s.fltRefuse o stNoBufferSpace 0 (flDev (s.flightImage o)) 0xFFFF := if_pos (not_and_or.1 h)

theorem loadInto_placed (h : s.buffersFit o) : s.loadInto o (some k) =
    ((s.drawWord.2.commitOp o.id).placeFlight k (s.flightLoaded o)).fltRefuse o stOk k (flDev (s.flightImage o)) 0xFFFF :=
  if_neg (not_or.2 ⟨not_not.2 h.1, not_not.2 h.2⟩)

/-- One more frame is the flight's. -/
theorem addFrame_eq (h : s.flight k = some f) :
    ∃ l d, s.addFrame k = { s with draws := d, flights := put s.flights k { f with frames := l } } := by
  simp only [State.addFrame, h, State.findFrame, State.drawWord]
  rw [updFlight_eq (show State.flight { s with draws := s.draws + 1 } k = some f from h)]
  exact ⟨_, _, rfl⟩

/-- Frames change the flight of their slot alone. -/
theorem foldl_addFrame (l : List Nat) {s : State} {m : List Nat} (h : s.flight k = some { f with frames := m }) :
    ∃ e d n, l.foldl (fun s _ => s.addFrame k) s = { s with draws := d, flights := e } ∧ look e k = some { f with frames := n } ∧
      ∀ j, j ≠ k → look e j = s.flight j := by
  induction l generalizing s m with
  | nil => exact ⟨_, _, _, rfl, h, fun _ _ => rfl⟩
  | cons x xs ih =>
    obtain ⟨n, d, hn⟩ := addFrame_eq h
    obtain ⟨e, d', n', hrun, hk, hj⟩ := ih (s := s.addFrame k) (m := n) (by rw [hn]; exact look_put_same _ _ _)
    refine ⟨e, d', n', ?_, hk, fun j hne => (hj j hne).trans ?_⟩
    · rw [List.foldl_cons, hrun, hn]
    · rw [hn]
      exact look_put_ne _ _ _ _ hne.symm

/-- A flight takes its slot with its frames; no other slot, ring or slice changes (R104). -/
theorem placeFlight_spec (s : State) (k : Nat) (f : Flight) : (∃ l, (s.placeFlight k f).flight k = some { f with frames := l }) ∧
    (∀ j, j ≠ k → (s.placeFlight k f).flight j = s.flight j) ∧ (s.placeFlight k f).rings = s.rings ∧
    (s.placeFlight k f).slices = s.slices := by
  obtain ⟨e, d, n, hrun, hk, hj⟩ := foldl_addFrame (f := f) (m := f.frames) (List.range (f.tierPages 1))
    (flight_setFlight_same (s := s.freeBuffers k) (k := k) (f := f))
  have hp : s.placeFlight k f = _ := hrun
  rw [hp]
  exact ⟨⟨n, hk⟩, fun j hne => (hj j hne).trans (flight_setFlight_ne hne), rfl, rfl⟩

end

/-! ### ARM (R101, R109) -/

section
variable {s : State} {o : Op} {k : Nat} {f : Flight}

/-- The entries of an ARM's bind table. -/
def State.bindTable (s : State) (o : Op) : List (List Byte) :=
  if Desc.field o.desc 8 8 = 0 then [] else
    (List.range (Desc.field o.desc 16 4)).map fun j => s.mem.read ((s.slice o.owner).space.at (Desc.field o.desc 8 8 + 16 * j)) 16

theorem armFlight_absent (h : s.flightOf (Desc.field o.desc 6 2) = none) : s.armFlight o = s.fltRefuse o stFlightState 0 0 0xFFFF := by
  simp only [State.armFlight, h]

/-- The checks of an ARM in their order. -/
theorem armFlight_found (h : s.flightOf (Desc.field o.desc 6 2) = some (k, f)) : s.armFlight o =
    if f.slice ≠ o.owner then s.fltRefuse o stFlightState 0 0 0xFFFF
    else if 16 ≤ (s.flights.filter fun e => e.2.active).length ∧ !f.active then s.fltRefuse o stFlightSlotsFull 0 (flDev f.image) 0xFFFF
    else if f.active then s.fltRefuse o stFlightState 0 (flDev f.image) 0xFFFF
    else if f.ending.isSome then { s with fltWait := s.fltWait ++ [o.id] }
    else if s.str.ptpOff ∨ (flPositions f.image).any s.str.accelOff.contains then s.fltRefuse o stEnvMismatch 0 (flDev f.image) 0xFFFF
    else if s.timeState ≠ .locked ∧ s.timeState ≠ .holdover then s.fltRefuse o stTimeUnlocked 0 (flDev f.image) 0xFFFF
    else if !((s.bindTable o).all (bindOkAt f.image)) then s.fltRefuse o stCmdInvalid 0 (flDev f.image) 0xFFFF
    else if s.bindsStatus o.owner f.image (s.bindTable o) ≠ stOk then
      s.fltRefuse o (s.bindsStatus o.owner f.image (s.bindTable o)) 0 (flDev f.image) 0xFFFF
    else s.startRun k f o (s.bindTable o) := by
  simp only [State.armFlight, h]
  rfl

/-- A run starts ARMED, with its epoch, and changes no other flight. -/
theorem startRun_spec (l : List (List Byte)) : ∃ g, (s.startRun k f o l).flight k = some g ∧ g.st = .armed ∧
    g.epoch = Desc.field o.desc 20 8 ∧ g.armOp = o.id ∧ g.steps = [] ∧ g.held = false ∧ g.slice = f.slice ∧ g.image = f.image ∧
    g.lateLog = Desc.field o.desc 28 8 ∧ (∀ j, j ≠ k → (s.startRun k f o l).flight j = s.flight j) ∧
    s.startRun k f o l = { s with flights := (s.startRun k f o l).flights } :=
  ⟨_, flight_setFlight_same, rfl, rfl, rfl, rfl, rfl, rfl, rfl, rfl, fun _ => flight_setFlight_ne, rfl⟩

end

/-! ### UNLOAD (R110) -/

/-- Flights and operations are as they were. -/
def SameRuns (s t : State) : Prop := t.flights = s.flights ∧ t.ops = s.ops

namespace SameRuns
variable {s t u : State}

theorem refl (s : State) : SameRuns s s := ⟨rfl, rfl⟩

theorem trans (h : SameRuns s t) (k : SameRuns t u) : SameRuns s u := ⟨k.1.trans h.1, k.2.trans h.2⟩

theorem ite {c : Prop} [Decidable c] (h : SameRuns s t) (k : SameRuns s u) : SameRuns s (if c then t else u) := by
  split <;> assumption

theorem foldl {α : Type} {f : State → α → State} (hf : ∀ s x, SameRuns s (f s x)) (l : List α) (s : State) : SameRuns s (l.foldl f s) := by
  induction l generalizing s with
  | nil => exact refl s
  | cons x xs ih => exact (hf s x).trans (ih _)

theorem report (s : State) (c b i st l : Nat) : SameRuns s (s.report c b i st l) := ⟨State.report_flights _ _ _ _ _ _, State.report_ops _ _ _ _ _ _⟩

theorem setPlc (s : State) (p : Plc) : SameRuns s { s with plc := p } := ⟨rfl, rfl⟩

theorem setProg (s : State) (k : Nat) (x : ProgSlot) : SameRuns s (s.setProg k x) := ⟨rfl, rfl⟩

theorem event (s : State) (f : Fld) : SameRuns s (s.event f) := ⟨rfl, rfl⟩

theorem progSweep (s : State) : SameRuns s s.progSweep := foldl (fun s _ => .ite (.setProg _ _ _) (.refl s)) _ s

/-- A frame that is retired, or a full list that keeps it, is placement's alone. -/
theorem retire' (s : State) (f i : Nat) : SameRuns s (s.retire' f i) := by
  unfold State.retire'
  refine (setPlc s _).trans (.ite (.refl _) (.ite (.ite (.refl _) ((setPlc _ _).trans (.report _ _ _ _ _ _))) ?_))
  exact (setPlc _ _).trans (.ite (.event _ _) (.refl _))

theorem freed (s : State) (i : Nat) (l : List (Nat × Nat)) : SameRuns s (s.freed i l) :=
  foldl (fun s _ => .ite (.retire' _ _ _) (.refl s)) l s

end SameRuns

section
variable {s : State} {o : Op} {k : Nat} {f : Flight}

/-- What an UNLOAD does behind the Gallery's commands and the flight's slot leaves flights and operations alone. -/
theorem unload_runs (s : State) (k : Nat) : SameRuns { s with flights := drop s.flights k } (s.unload k) := by
  obtain ⟨g, i, l, h⟩ : ∃ g i l, s.unload k =
      ((({ s with gal := g, flights := drop s.flights k } : State).freeBuffers k).progSweep).freed i l := ⟨_, _, _, rfl⟩
  rw [h]
  exact SameRuns.trans (t := ({ s with gal := g, flights := drop s.flights k } : State).freeBuffers k) ⟨rfl, rfl⟩
    ((SameRuns.progSweep _).trans (.freed _ _ _))

/-- An unloaded flight's slot is empty, and no other flight and no operation changes. -/
theorem unload_spec (s : State) (k : Nat) : (s.unload k).flight k = none ∧ (∀ j, j ≠ k → (s.unload k).flight j = s.flight j) ∧
    (s.unload k).ops = s.ops := by
  obtain ⟨hflights, hops⟩ := unload_runs s k
  have hlook (j : Nat) : (s.unload k).flight j = look (drop s.flights k) j := congrArg (look · j) hflights
  exact ⟨(hlook k).trans (look_drop_same _ _), fun j hj => (hlook j).trans (look_drop_ne _ _ _ hj.symm), hops⟩

theorem unloadFlight_absent (h : s.flightOf (Desc.field o.desc 6 2) = none) :
    s.unloadFlight o = s.fltRefuse o stFlightState 0 0 0xFFFF := by
  simp only [State.unloadFlight, h]

theorem unloadFlight_found (h : s.flightOf (Desc.field o.desc 6 2) = some (k, f)) : s.unloadFlight o =
    if f.slice ≠ o.owner ∨ f.active then s.fltRefuse o stFlightState 0 (flDev f.image) 0xFFFF
    else if f.ending.isSome then { s with fltWait := s.fltWait ++ [o.id] }
    else (s.unload k).fltRefuse o stOk 0 (flDev f.image) 0xFFFF := by
  simp only [State.unloadFlight, h]

end

/-! ### The epoch and cancels (R116, R119) -/

section
variable {s w : State} {k : Nat} {f : Flight}

theorem epochReached_eq (h : s.flight k = some f) : s.epochReached k =
    if f.st = .armed then (s.atLeast f.epoch).setFlight k { f with st := .running, epochUp := (s.atLeast f.epoch).up } else s := by
  simp only [State.epochReached, h]

theorem exec_fltCancel {m : Master} {i : BitVec 16} (h : s.writeAt m R.FLT_CANCEL_CTRL = some w) :
    let v := w.setF F.FLT_CANCEL_CTRL_SLICE i.toNat
    let p := v.fltCancelTag i.toNat (v.reg R.FLT_CANCEL_TAG)
    exec (.fltCancel m i) s = .next (p.2.eventV F.FLT_CANCEL_RESULT_RESULT p.1.code) := by
  intro v p
  have htag : v.reg R.FLT_CANCEL_TAG = w.reg R.FLT_CANCEL_TAG := reg_setF_ne _ _ _ _ (by decide)
  have hexec : exec (.fltCancel m i) s = _ := congrArg Host.Outcome.next (openWrite_taken s w m _ _ _ h)
  rw [hexec]
  simp only [p, htag]
  rfl

end

/-! ### The clauses of the obligation -/

section
variable {s u : State} {q : BitVec 16} {d : Desc} {o : Op}

theorem exec_load (hop : Desc.bits d 35 32 = 1) (h : s.fetch q.toNat 0x06 (Desc.tag d) d = some (o, u)) (hw : Desc.field d 4 1 ≠ 0x0F)
    (hd : fltDescOk d = true) : exec (.load q d) s = .next (u.loadFlight o) :=
  congrArg Host.Outcome.next ((fltFetch_fetched (.inl hop) hw h).trans (if_pos hd))

theorem exec_arm (hop : Desc.bits d 35 32 = 2) (h : s.fetch q.toNat 0x06 (Desc.tag d) d = some (o, u)) (hw : Desc.field d 4 1 ≠ 0x0F)
    (hd : fltDescOk d = true) : exec (.arm q d) s = .next (u.armFlight o) :=
  congrArg Host.Outcome.next ((fltFetch_fetched (.inl hop) hw h).trans (if_pos hd))

theorem exec_unload (hop : Desc.bits d 35 32 = 3) (h : s.fetch q.toNat 0x06 (Desc.tag d) d = some (o, u)) (hw : Desc.field d 4 1 ≠ 0x0F)
    (hd : fltDescOk d = true) : exec (.unload q d) s = .next (u.unloadFlight o) :=
  congrArg Host.Outcome.next ((fltFetch_fetched (.inl hop) hw h).trans (if_pos hd))

end

section
variable {u : State} {o : Op}

/-- A LOAD refuses by the first check that fails, or takes a free slot. -/
theorem loadFlight_spec (u : State) (o : Op) :
    let b := u.flightImage o
    let st := (u.imageVerdict o).1
    (st ≠ stOk → u.loadFlight o = u.fltRefuse o st 0 (flDev b) (u.imageVerdict o).2) ∧
    (st = stOk → u.flightOf (flId b) ≠ none → u.loadFlight o = u.fltRefuse o stFlightIdInUse 0 (flDev b) 0xFFFF) ∧
    (st = stOk → u.flightOf (flId b) = none → (∀ k < 64, u.flight k ≠ none) → u.loadFlight o =
      u.fltRefuse o stFlightSlotsFull 0 (flDev b) 0xFFFF) ∧
    (st = stOk → u.flightOf (flId b) = none → (∃ k < 64, u.flight k = none) → ¬ u.buffersFit o → u.loadFlight o =
      u.fltRefuse o stNoBufferSpace 0 (flDev b) 0xFFFF) ∧
    (st = stOk → u.flightOf (flId b) = none → (∃ k < 64, u.flight k = none) → u.buffersFit o → ∃ (k : Nat) (v : State) (l : List Nat),
      k < 64 ∧ u.flight k = none ∧ u.loadFlight o = v.fltRefuse o stOk k (flDev b) 0xFFFF ∧
      v.flight k = some { u.flightLoaded o with frames := l } ∧ (∀ j, j ≠ k → v.flight j = u.flight j) ∧ v.rings = u.rings ∧
      v.slices = u.slices) := by
  refine ⟨loadFlight_invalid, loadFlight_inUse, fun hst hid hfull => ?_, fun hst hid hfree hroom => ?_, fun hst hid hfree hroom => ?_⟩
  · rw [loadFlight_checked hst hid, freeFlightSlot_none hfull]
    rfl
  · obtain ⟨k, -, -, hk⟩ := freeFlightSlot_some hfree
    rw [loadFlight_checked hst hid, hk, loadInto_noRoom hroom]
  · obtain ⟨k, hlt, hnone, hk⟩ := freeFlightSlot_some hfree
    obtain ⟨⟨l, hl⟩, hj, hrings, hslices⟩ := placeFlight_spec (u.drawWord.2.commitOp o.id) k (u.flightLoaded o)
    rw [loadFlight_checked hst hid, hk, loadInto_placed hroom]
    exact ⟨k, _, l, hlt, hnone, rfl, hl, hj, hrings, hslices⟩

variable {k : Nat} {f : Flight}

/-- An ARM of a flight that its slice has loaded refuses by the first check that fails, waits for the run before, or starts a run. -/
theorem armFlight_spec (h : u.flightOf (Desc.field o.desc 6 2) = some (k, f)) :
    let n := (u.flights.filter fun e => e.2.active).length
    let l := u.bindTable o
    let dev := flDev f.image
    let off := u.str.ptpOff = true ∨ (flPositions f.image).any u.str.accelOff.contains = true
    let timed := u.timeState = .locked ∨ u.timeState = .holdover
    (f.slice ≠ o.owner → u.armFlight o = u.fltRefuse o stFlightState 0 0 0xFFFF) ∧
    (f.slice = o.owner → f.active = true → u.armFlight o = u.fltRefuse o stFlightState 0 dev 0xFFFF) ∧
    (f.slice = o.owner → f.active = false → 16 ≤ n → u.armFlight o = u.fltRefuse o stFlightSlotsFull 0 dev 0xFFFF) ∧
    (f.slice = o.owner → f.active = false → n < 16 → f.ending ≠ none → u.armFlight o = { u with fltWait := u.fltWait ++ [o.id] }) ∧
    (f.slice = o.owner → f.active = false → n < 16 → f.ending = none →
      (off → u.armFlight o = u.fltRefuse o stEnvMismatch 0 dev 0xFFFF) ∧
      (¬ off → ¬ timed → u.armFlight o = u.fltRefuse o stTimeUnlocked 0 dev 0xFFFF) ∧
      (¬ off → timed → l.all (bindOkAt f.image) = false → u.armFlight o = u.fltRefuse o stCmdInvalid 0 dev 0xFFFF) ∧
      (¬ off → timed → l.all (bindOkAt f.image) = true → u.bindsStatus o.owner f.image l ≠ stOk →
        u.armFlight o = u.fltRefuse o (u.bindsStatus o.owner f.image l) 0 dev 0xFFFF) ∧
      (¬ off → timed → l.all (bindOkAt f.image) = true → u.bindsStatus o.owner f.image l = stOk → u.armFlight o = u.startRun k f o l)) := by
  intro n l dev off timed
  rw [armFlight_found h]
  refine ⟨fun hs => if_pos hs, fun hs ha => ?_, fun hs ha hn => ?_, fun hs ha hn he => ?_, fun hs ha hn he => ?_⟩
  · rw [if_neg (not_not.2 hs), if_neg (by simp [ha]), if_pos ha]
  · rw [if_neg (not_not.2 hs), if_pos ⟨hn, by simp [ha]⟩]
  · rw [if_neg (not_not.2 hs), if_neg (fun h => Nat.not_lt.2 h.1 hn), if_neg (by simp [ha]), if_pos (Option.isSome_iff_ne_none.2 he)]
  · rw [if_neg (not_not.2 hs), if_neg (fun h => Nat.not_lt.2 h.1 hn), if_neg (by simp [ha]), if_neg (by simp [he])]
    have htime (ht : timed) : ¬(u.timeState ≠ .locked ∧ u.timeState ≠ .holdover) := not_and_or.2 (ht.imp not_not.2 not_not.2)
    refine ⟨fun ho => if_pos ho, fun ho ht => ?_, fun ho ht hl => ?_, fun ho ht hl hb => ?_, fun ho ht hl hb => ?_⟩
    · rw [if_neg ho, if_pos (not_or.1 ht)]
    · rw [if_neg ho, if_neg (htime ht), if_pos (show (!l.all (bindOkAt f.image)) = true by rw [hl]; rfl)]
    · rw [if_neg ho, if_neg (htime ht), if_neg (show ¬(!l.all (bindOkAt f.image)) = true by rw [hl]; decide), if_pos hb]
    · rw [if_neg ho, if_neg (htime ht), if_neg (show ¬(!l.all (bindOkAt f.image)) = true by rw [hl]; decide), if_neg (not_not.2 hb)]

/-- An UNLOAD of a flight that is there is refused, waits for the run before, or empties its slot. -/
theorem unloadFlight_spec (h : u.flightOf (Desc.field o.desc 6 2) = some (k, f)) :
    (f.slice ≠ o.owner ∨ f.active = true → u.unloadFlight o = u.fltRefuse o stFlightState 0 (flDev f.image) 0xFFFF) ∧
    (f.slice = o.owner → f.active = false → f.ending ≠ none → u.unloadFlight o = { u with fltWait := u.fltWait ++ [o.id] }) ∧
    (f.slice = o.owner → f.active = false → f.ending = none →
      u.unloadFlight o = (u.unload k).fltRefuse o stOk 0 (flDev f.image) 0xFFFF) := by
  rw [unloadFlight_found h]
  have hgo (hs : f.slice = o.owner) (ha : f.active = false) : ¬(f.slice ≠ o.owner ∨ f.active = true) := by simp [hs, ha]
  refine ⟨fun hr => if_pos hr, fun hs ha he => ?_, fun hs ha he => ?_⟩
  · rw [if_neg (hgo hs ha), if_pos (Option.isSome_iff_ne_none.2 he)]
  · rw [if_neg (hgo hs ha), if_neg (by simp [he])]

end

/-- Settles O36: each command by its fetch and then by the first of its checks that fails, the epoch by the flight's state, and a
cancel by what it answers. -/
theorem flightCommands : Obligations.FlightCommands := by
  unfold Obligations.FlightCommands
  refine ⟨?fetch, ?commands, ?epoch, ?cancel⟩
  case fetch =>
    intro s q d c op hc hx hw
    obtain ⟨act, hexec⟩ := exec_flight (s := s) hc
    rw [hexec]
    refine ⟨fun h => by rw [fltFetch_none h], fun o u h hd => ?_⟩
    rw [fltFetch_fetched hx hw h, if_neg (by simp [hd])]
  case commands =>
    intro s u q d o h hw hd
    obtain rfl := desc_of_fetch h
    refine ⟨fun hop => ?_, fun hop => ?_, fun hop => ?_⟩
    · rw [exec_load hop h hw hd]
      intro b st room
      obtain ⟨hinvalid, hinUse, hfull, hnoRoom, hplaced⟩ := loadFlight_spec u o
      refine ⟨fun hst => congrArg _ (hinvalid hst), fun hst hid => congrArg _ (hinUse hst hid),
        fun hst hid hf => congrArg _ (hfull hst hid hf), fun hst hid hf hr => congrArg _ (hnoRoom hst hid hf hr), fun hst hid hf hr => ?_⟩
      obtain ⟨k, v, l, hlt, hnone, hrun, hv⟩ := hplaced hst hid hf hr
      exact ⟨k, v, _, l, hlt, hnone, congrArg _ hrun, rfl, hv⟩
    · rw [exec_arm hop h hw hd]
      refine ⟨fun hf => congrArg _ (armFlight_absent hf), fun k f hf => ?_⟩
      intro n l dev off timed
      obtain ⟨hother, hactive, hfull, hwait, hchecks⟩ := armFlight_spec hf
      refine ⟨fun hs => congrArg _ (hother hs), fun hs ha => congrArg _ (hactive hs ha), fun hs ha hn => congrArg _ (hfull hs ha hn),
        fun hs ha hn he => congrArg _ (hwait hs ha hn he), fun hs ha hn he => ?_⟩
      obtain ⟨henv, htime, hbad, hstatus, hrun⟩ := hchecks hs ha hn he
      refine ⟨fun ho => congrArg _ (henv ho), fun ho ht => congrArg _ (htime ho ht), fun ho ht hl => congrArg _ (hbad ho ht hl),
        fun ho ht hl hb => congrArg _ (hstatus ho ht hl hb), fun ho ht hl hb => ?_⟩
      obtain ⟨g, hg⟩ := startRun_spec (s := u) (k := k) (f := f) (o := o) l
      exact ⟨_, g, congrArg _ (hrun ho ht hl hb), hg⟩
    · rw [exec_unload hop h hw hd]
      refine ⟨fun hf => congrArg _ (unloadFlight_absent hf), fun k f hf => ?_⟩
      obtain ⟨hrefused, hwait, hdone⟩ := unloadFlight_spec hf
      refine ⟨fun hr => congrArg _ (hrefused hr), fun hs ha he => congrArg _ (hwait hs ha he), fun hs ha he => ?_⟩
      exact ⟨_, _, congrArg _ (hdone hs ha he), rfl, unload_spec u k⟩
  case epoch =>
    intro s k f hf
    have hexec : exec (.flightEpochReached k) s = .next (s.epochReached k) := rfl
    rw [hexec, epochReached_eq hf]
    exact ⟨fun h => by rw [if_pos h], fun h => by rw [if_neg h]⟩
  case cancel =>
    intro s w m i h v
    have hcode (u : State) (r : CancelResult) : (u.eventV F.FLT_CANCEL_RESULT_RESULT r.code).getF F.FLT_CANCEL_RESULT_RESULT = r.code :=
      (getF_eventV_same _ _ _ rfl (by decide)).trans (Nat.mod_eq_of_lt r.code_lt)
    exact ⟨_, _, _, exec_fltCancel h, rfl, hcode _ _, fun a ha => reg_eventV_ne _ _ _ _ fun e => ha (e ▸ List.mem_cons_self),
      (RegisterFrame.eventV _ _ _).work⟩

end Sys2Proof.Machine
end

section

/-! ## O38: lateness, peers, aborts and reports -/

namespace Sys2Proof.Machine

/-! ### What a control message leaves alone (R113, R121, R122) -/

/-- Registers, draws and the packet path may differ, and nothing else. -/
def CtlFrame (s t : State) : Prop := ∃ r d p, t = { s with regs := r, draws := d, pp := p }

namespace CtlFrame
variable {s t u : State}

theorem refl (s : State) : CtlFrame s s := ⟨_, _, _, rfl⟩

theorem trans (h : CtlFrame s t) (k : CtlFrame t u) : CtlFrame s u := by
  obtain ⟨_, _, _, rfl⟩ := h
  obtain ⟨_, _, _, rfl⟩ := k
  exact ⟨_, _, _, rfl⟩

theorem foldl {α : Type} {f : State → α → State} (hf : ∀ s x, CtlFrame s (f s x)) (l : List α) (s : State) : CtlFrame s (l.foldl f s) := by
  induction l generalizing s with
  | nil => exact refl s
  | cons x xs ih => exact (hf s x).trans (ih _)

theorem flights (h : CtlFrame s t) : t.flights = s.flights := by
  obtain ⟨_, _, _, rfl⟩ := h
  rfl

theorem flCtl (h : CtlFrame s t) : t.flCtl = s.flCtl := by
  obtain ⟨_, _, _, rfl⟩ := h
  rfl

theorem bytes (h : CtlFrame s t) : sameBytes s t := by
  obtain ⟨_, _, _, rfl⟩ := h
  exact fun _ => rfl

theorem tenants (h : CtlFrame s t) : sameTenants s t := by
  obtain ⟨_, _, _, rfl⟩ := h
  simp [sameTenants]

theorem rteRx (s : State) : CtlFrame s s.rteRx := ⟨_, _, _, rfl⟩

theorem bump (s : State) (f : Fld) : CtlFrame s (s.bump f) := ⟨_, _, _, rfl⟩

theorem ctlOut (s : State) (port slice len dest kind : Nat) (fields : List Nat) : CtlFrame s (s.ctlOut port slice len dest kind fields) :=
  ⟨_, _, _, rfl⟩

theorem sendCtl (s : State) (f : Flight) (dest kind : Nat) (fields : List Nat) : CtlFrame s (s.sendCtl f dest kind fields) :=
  .ctlOut _ _ _ _ _ _ _

theorem ackCtl (s : State) (id epoch src num : Nat) : CtlFrame s (s.ackCtl id epoch src num) := by
  unfold State.ackCtl
  split
  · exact .ctlOut _ _ _ _ _ _ _
  · exact ⟨_, _, _, rfl⟩

end CtlFrame

section
variable {s : State} {a lo hi n : Nat}

theorem reg_bump64_ne (hlo : lo ≠ a) (hhi : hi ≠ a) : (s.bump64 lo hi n).reg a = s.reg a := by
  rw [State.bump64, reg_setReg_ne _ _ _ _ hhi, reg_setReg_ne _ _ _ _ hlo]

/-- A control message counts as sent, and no other register changes. -/
theorem ctlOut_regsBut (s : State) (port slice len dest kind : Nat) (fields : List Nat) :
    regsBut [R.RTE_CNT_TX_LO, R.RTE_CNT_TX_HI] s (s.ctlOut port slice len dest kind fields) := fun a ha => by
  simp only [List.mem_cons, List.not_mem_nil, or_false, not_or] at ha
  exact reg_bump64_ne (Ne.symm ha.1) (Ne.symm ha.2)

theorem ackCtl_regsBut (s : State) (id epoch src num : Nat) :
    regsBut [R.RTE_CNT_TX_LO, R.RTE_CNT_TX_HI] s (s.ackCtl id epoch src num) := by
  unfold State.ackCtl
  split
  · exact ctlOut_regsBut _ _ _ _ _ _ _
  · exact ctlOut_regsBut s.drawWord.2 _ _ _ _ _ _

theorem rteRx_regsBut (s : State) : regsBut [R.RTE_CNT_RX_LO, R.RTE_CNT_RX_HI] s s.rteRx := fun a ha => by
  simp only [List.mem_cons, List.not_mem_nil, or_false, not_or] at ha
  exact reg_bump64_ne (Ne.symm ha.1) (Ne.symm ha.2)

end

/-! ### Progress (R121) -/

section
variable {s : State} {k d : Nat} {f : Flight}

theorem progress_eq (h : s.flight k = some f) : s.progress k d =
    { s.setFlight k { f with progress := put f.progress d s.up } with
      flCtl := s.flCtl.map fun c => if c.id = f.id ∧ c.dest = d then { c with since := s.up } else c } := by
  simp only [State.progress, h]

/-- Progress is noted in the flight and in its messages to the device, and nowhere else. -/
theorem progress_spec (h : s.flight k = some f) : (s.progress k d).flight k = some { f with progress := put f.progress d s.up } ∧
    (∀ j, j ≠ k → (s.progress k d).flight j = s.flight j) ∧
    s.progress k d = { s with flights := (s.progress k d).flights, flCtl := (s.progress k d).flCtl } := by
  rw [progress_eq h]
  exact ⟨flight_setFlight_same, fun j hj => look_put_ne _ _ _ _ hj.symm, rfl⟩

end

/-! ### Time limits of steps and peers (R115, R121) -/

section
variable {s : State} {k : Fin 64} {j d : Nat} {f : Flight}

theorem up_upTo_eq_max (s : State) (t : Nat) : (s.upTo t).up = max s.up t := by
  simp only [State.upTo, State.elapse, State.up]
  omega

theorem exec_late_none (h : s.waitingStep k j = none) : ∀ c ∈ [Instr.lateLimitExpiry k j, .lateAbortExpiry k j], exec c s = .next s := by
  intro c hc
  simp only [List.mem_cons, List.not_mem_nil, or_false] at hc
  obtain rfl | rfl := hc
  · simp only [exec, execLateLimitExpiry, h]
  · simp only [exec, execLateAbortExpiry, h]

theorem exec_lateLimit (h : s.waitingStep k j = some f) : exec (.lateLimitExpiry k j) s = .next (
    if f.st = .running then ((s.atLeast (f.sched j + flLateLimit f.image + 1)).setFlight k { f with st := .stalled }).event F.FLT_STATUS_STALL
    else s) := by
  simp only [exec, execLateLimitExpiry, h]

theorem exec_lateAbort (h : s.waitingStep k j = some f) : exec (.lateAbortExpiry k j) s =
    .next ((s.atLeast (f.sched j + flLateAbort f.image + 1)).abortFlight k .lateAbort stLateAbort) := by
  simp only [exec, execLateAbortExpiry, h]

theorem exec_keepaliveTimer (h : s.flight k = some f) : exec (.keepaliveTimer k) s = .next (
    if f.active then f.peers.foldl (fun v d => v.sendCtl f d 3 [flMapCrc f.image, b2n f.held]) s else s) := by
  simp only [exec, execKeepaliveTimer, h]

theorem exec_peerTimeout (h : s.flight k = some f) : exec (.peerTimeout k d) s = .next (
    if f.active ∧ f.st ≠ .armed ∧ f.peers.contains d ∧ !(flRanksOf f.image d).isEmpty then
      (s.upTo (max f.epochUp (lookD f.progress d 0) + flPeerTimeout f.image)).abortFlight k .peerLost stPeerLost
    else s) := by
  simp only [exec, execPeerTimeout, h]

end

/-! ### Keepalives, reports and acknowledgements (R113, R121) -/

section
variable {s : State} {id : BitVec 16} {epoch : DWord} {src num set k : Nat} {ranks : List Nat} {crc : Word} {f : Flight}

theorem exec_keepaliveReceived (h : s.flightOf id.toNat = some (k, f)) : exec (.keepaliveReceived id src crc) s = .next (
    if !f.active then s.rteRx
    else if crc.toNat ≠ flMapCrc f.image then s.rteRx.abortFlight k .peerMismatch stPeerMismatch
    else s.rteRx.progress k src) := by
  simp only [exec, execKeepaliveReceived, show s.rteRx.flightOf id.toNat = some (k, f) from h]

theorem exec_keepaliveReceived_none (h : s.flightOf id.toNat = none) : exec (.keepaliveReceived id src crc) s = .next s.rteRx := by
  simp only [exec, execKeepaliveReceived, show s.rteRx.flightOf id.toNat = none from h]

theorem exec_report_run (h : s.flightRun id.toNat epoch.toNat = some (k, f)) : exec (.arrivalReportReceived id epoch src num set ranks) s = .next (
    let v := s.rteRx.ackCtl id.toNat epoch.toNat src num
    if f.seen.contains (src, num) then v.progress k src
    else (v.setFlight k { f with seen := (src, num) :: f.seen, arrived := f.arrived ++ ranks.map fun r => (set, r) }).progress k src) := by
  simp only [exec, execArrivalReportReceived, show s.rteRx.flightRun id.toNat epoch.toNat = some (k, f) from h]

theorem exec_report_past (h : s.flightRun id.toNat epoch.toNat = none) (hf : s.flightOf id.toNat = some (k, f)) :
    exec (.arrivalReportReceived id epoch src num set ranks) s = .next (
      if f.st ≠ .loaded ∧ epoch.toNat ≤ f.epoch then (s.rteRx.ackCtl id.toNat epoch.toNat src num).progress k src else s.rteRx) := by
  simp only [exec, execArrivalReportReceived, show s.rteRx.flightRun id.toNat epoch.toNat = none from h,
    show s.rteRx.flightOf id.toNat = some (k, f) from hf]

theorem exec_report_none (h : s.flightRun id.toNat epoch.toNat = none) (hf : s.flightOf id.toNat = none) :
    exec (.arrivalReportReceived id epoch src num set ranks) s = .next s.rteRx := by
  simp only [exec, execArrivalReportReceived, show s.rteRx.flightRun id.toNat epoch.toNat = none from h,
    show s.rteRx.flightOf id.toNat = none from hf]

/-- The state once the messages that an acknowledgement names no longer wait. -/
def State.acknowledged (s : State) (id src num : Nat) : State :=
  { s.rteRx with flCtl := s.flCtl.filter fun c => !(c.id == id && c.dest == src && c.num == num) }

theorem exec_ack_some (h : s.flightOf id.toNat = some (k, f)) :
    exec (.controlAckReceived id src num) s = .next ((s.acknowledged id.toNat src num).progress k src) := by
  have hv : (s.acknowledged id.toNat src num).flightOf id.toNat = some (k, f) := h
  unfold State.acknowledged at hv ⊢
  simp only [exec, execControlAckReceived, hv]

theorem exec_ack_none (h : s.flightOf id.toNat = none) :
    exec (.controlAckReceived id src num) s = .next (s.acknowledged id.toNat src num) := by
  have hv : (s.acknowledged id.toNat src num).flightOf id.toNat = none := h
  unfold State.acknowledged at hv ⊢
  simp only [exec, execControlAckReceived, hv]

end

/-! ### Abort broadcasts (R122) -/

section
variable {s v : State} {id epoch src num origin k : Nat} {r : AbortReason} {f : Flight}

/-- An abort broadcast is counted and acknowledged, and none of its run goes to its sender any more. -/
def State.abortHeard (s : State) (id epoch src num : Nat) : State :=
  let u := ((s.rteRx).bump F.FLT_CNT_ABORT_RX_COUNT).ackCtl id epoch src num
  { u with flCtl := u.flCtl.filter fun c => !(c.id == id && c.epoch == epoch && c.dest == src && c.kind == 1) }

/-- The run that it names. -/
def State.abortedRun (s : State) (id epoch : Nat) : Option (Nat × Flight) :=
  s.flights.find? fun e => e.2.id == id && e.2.epoch == epoch && e.2.st != .loaded

/-- The broadcast goes on to every peer where it has not yet, and the run has steps left. -/
def State.abortRelayed (v : State) (src num : Nat) (r : AbortReason) (origin k : Nat) (f : Flight) : State :=
  if f.relayed ∨ f.allDone then v.progress k src
  else f.peers.foldl (fun s d => s.sendCtl f d 1 [num, r.code, origin]) ((v.progress k src).updFlight k fun f => { f with relayed := true })

/-- What it does to that run. -/
def State.abortTaken (v : State) (src num : Nat) (r : AbortReason) (origin : Nat) : Option (Nat × Flight) → State
  | none => v
  | some (k, f) => (v.abortRelayed src num r origin k f).endFlight k r r.peerStatus origin true

theorem abortReceived_eq : s.abortReceived id epoch src num r origin =
    (s.abortHeard id epoch src num).abortTaken src num r origin ((s.abortHeard id epoch src num).abortedRun id epoch) := rfl

theorem abortHeard_spec (s : State) (id epoch src num : Nat) :
    let u := ((s.rteRx).bump F.FLT_CNT_ABORT_RX_COUNT).ackCtl id epoch src num
    let v := s.abortHeard id epoch src num
    v.flights = s.flights ∧ sameBytes s v ∧ v.getF F.FLT_CNT_ABORT_RX_COUNT = (s.getF F.FLT_CNT_ABORT_RX_COUNT + 1) % 2 ^ 32 ∧
      v.flCtl = (u.flCtl.filter fun c => !(c.id == id && c.epoch == epoch && c.dest == src && c.kind == 1)) ∧ v.pp = u.pp := by
  intro u v
  have hu : CtlFrame s u := ((CtlFrame.rteRx s).trans (.bump _ _)).trans (.ackCtl _ _ _ _ _)
  refine ⟨hu.flights, hu.bytes, ?_, rfl, rfl⟩
  have hv : v.getF F.FLT_CNT_ABORT_RX_COUNT = u.getF F.FLT_CNT_ABORT_RX_COUNT := rfl
  rw [hv, (ackCtl_regsBut _ _ _ _ _).getF (by decide), getF_bump_same _ _ rfl, (rteRx_regsBut s).getF (by decide)]
  rfl

/-- A relay notes so in the run, and changes neither its state nor its steps. -/
theorem abortRelayed_spec (h : v.flight k = some f) : ∃ g, (v.abortRelayed src num r origin k f).flight k = some g ∧ g.st = f.st ∧
    g.steps = f.steps ∧ (f.relayed = true ∨ f.allDone = true → v.abortRelayed src num r origin k f = v.progress k src) ∧
    (f.relayed = false → f.allDone = false → g.relayed = true ∧ v.abortRelayed src num r origin k f =
      f.peers.foldl (fun y d => y.sendCtl f d 1 [num, r.code, origin]) ((v.progress k src).updFlight k fun f => { f with relayed := true })) := by
  obtain ⟨hp, -⟩ := progress_spec (d := src) h
  by_cases hdone : f.relayed = true ∨ f.allDone = true
  · have he : v.abortRelayed src num r origin k f = v.progress k src := if_pos hdone
    refine ⟨{ f with progress := put f.progress src v.up }, he ▸ hp, rfl, rfl, fun _ => he, fun hr ha => ?_⟩
    simp [hr, ha] at hdone
  · have he : v.abortRelayed src num r origin k f = _ := if_neg hdone
    have hsent := CtlFrame.foldl (fun y d => .sendCtl y f d 1 [num, r.code, origin]) f.peers
      ((v.progress k src).updFlight k fun f => { f with relayed := true })
    refine ⟨{ f with progress := put f.progress src v.up, relayed := true }, ?_, rfl, rfl, fun h => absurd h hdone, fun _ _ => ⟨rfl, he⟩⟩
    rw [he]
    exact (flight_of_flights hsent.flights).trans (flight_updFlight (g := fun f => { f with relayed := true }) hp)

end

/-! ### Messages that go out again (R113, R122) -/

section
variable {s : State} {k : Nat}

/-- An arrival report is repeated for as long as it waits. -/
theorem repeatCtl_report : s.repeatCtl k 2 = (s.flCtl.filter fun c => c.slot == k && c.kind == 2).foldl State.ctlAgain s := by
  have hall : (s.flCtl.filter fun c => c.slot != k || c.kind != 2 || c.alive s.up) = s.flCtl := by
    refine List.filter_eq_self.2 fun c _ => ?_
    by_cases h : c.kind = 2
    · simp [Ctl.alive, h]
    · simp [h]
  unfold State.repeatCtl
  rw [hall]

/-- An abort broadcast is repeated while its device has made progress within its limit. -/
theorem repeatCtl_abort :
    let v := { s with flCtl := s.flCtl.filter fun c => c.slot != k || c.kind != 1 || decide (s.up ≤ c.since + c.timeout) }
    s.repeatCtl k 1 = (v.flCtl.filter fun c => c.slot == k && c.kind == 1).foldl State.ctlAgain v := by
  have hkept : (s.flCtl.filter fun c => c.slot != k || c.kind != 1 || c.alive s.up) =
      s.flCtl.filter fun c => c.slot != k || c.kind != 1 || decide (s.up ≤ c.since + c.timeout) := by
    refine List.filter_congr fun c _ => ?_
    by_cases h : c.kind = 1
    · simp [Ctl.alive, h]
    · have hk : (c.kind != 1) = true := bne_iff_ne.2 h
      simp [hk]
  unfold State.repeatCtl
  rw [hkept]

end

/-- Settles O38: each limit and each message by what its command does with the flight or the run that it names. -/
theorem flightControl : Obligations.FlightControl := by
  unfold Obligations.FlightControl
  refine ⟨?late, fun s k d f hf => progress_spec hf, ?keepalive, ?heard, ?silent, ?abort, ?again, ?report, ?ack⟩
  case late =>
    refine fun s k j => ⟨exec_late_none, fun f hf => ⟨fun hst => ?_, fun hst => ?_, _, _, exec_lateAbort hf, rfl, atLeast_now _ _, rfl⟩⟩
    · rw [exec_lateLimit hf, if_pos hst]
      exact ⟨_, rfl, flight_setFlight_same, getF_eventV_same _ _ _ rfl (by decide), atLeast_now _ _,
        fun a ha => reg_eventV_ne _ _ _ _ fun e => ha (e ▸ List.mem_cons_self), fun _ => rfl, rfl, rfl, rfl, rfl, rfl, rfl⟩
    · rw [exec_lateLimit hf, if_neg hst]
  case keepalive =>
    intro s k f hf
    rw [exec_keepaliveTimer hf]
    refine ⟨fun ha => ?_, fun ha => by rw [if_neg (by simp [ha])]⟩
    have hsent := CtlFrame.foldl (fun v d => .sendCtl v f d 3 [flMapCrc f.image, b2n f.held]) f.peers s
    rw [if_pos ha]
    exact ⟨_, rfl, rfl, hsent.flights, hsent.flCtl, hsent.bytes, hsent.tenants⟩
  case heard =>
    refine fun s id d crc => ⟨fun k f hf ha => ?_, fun hidle => ?_⟩
    · rw [exec_keepaliveReceived hf, if_neg (by simp [ha])]
      exact ⟨fun hc => by rw [if_pos hc], fun hc => by rw [if_neg (not_not.2 hc)]⟩
    · cases hf : s.flightOf id.toNat with
      | none => exact exec_keepaliveReceived_none hf
      | some e => rw [exec_keepaliveReceived (k := e.1) (f := e.2) hf, if_pos (by simp [hidle e.1 e.2 hf])]
  case silent =>
    intro s k d f hf counts
    have hcounts : counts ↔ f.active ∧ f.st ≠ .armed ∧ f.peers.contains d ∧ !(flRanksOf f.image d).isEmpty := by simp [counts]
    rw [exec_peerTimeout hf]
    refine ⟨fun h => ?_, fun h => by rw [if_neg (mt hcounts.2 h)]⟩
    rw [if_pos (hcounts.1 h)]
    exact ⟨_, _, rfl, rfl, up_upTo_eq_max _ _, rfl⟩
  case abort =>
    intro s id origin epoch src num r
    obtain ⟨hflights, hbytes, hcount, hctl, hpp⟩ := abortHeard_spec s id.toNat epoch.toNat src num
    have hexec : exec (.abortBroadcastReceived id epoch src num r origin) s = _ := congrArg Host.Outcome.next abortReceived_eq
    refine ⟨s.abortHeard id.toNat epoch.toNat src num, _, hexec, hflights, hbytes, hcount, hctl, hpp, fun h => ?_, fun k f h hf => ?_⟩
    · rw [State.abortedRun, h]
      rfl
    · rw [State.abortedRun, h]
      obtain ⟨g, hg⟩ := abortRelayed_spec (src := src) (num := num) (r := r) (origin := origin.toNat) hf
      exact ⟨_, g, rfl, hg⟩
  case again =>
    exact fun s k => ⟨congrArg Host.Outcome.next repeatCtl_report, _, _, congrArg Host.Outcome.next repeatCtl_abort, rfl, rfl⟩
  case report =>
    intro s id epoch src num set ranks v
    have hv : CtlFrame s v := (CtlFrame.rteRx s).trans (.ackCtl _ _ _ _ _)
    refine ⟨hv.flights, hv.bytes, fun k f h => ?_, fun h k f hf => ?_, fun hf h => exec_report_none h hf⟩
    · rw [exec_report_run h]
      exact ⟨fun hs => congrArg _ (if_pos hs), fun hs => congrArg _ (if_neg (Bool.eq_false_iff.1 hs))⟩
    · rw [exec_report_past h hf]
      exact ⟨fun hl he => by rw [if_pos ⟨hl, he⟩], fun hn => by rw [if_neg fun h => hn.elim h.1 (Nat.not_lt.2 h.2)]⟩
  case ack =>
    exact fun s id src num => ⟨fun k f hf => exec_ack_some hf, exec_ack_none⟩

end Sys2Proof.Machine
end

section

/-! ## O39: flight data and doorbells -/

namespace Sys2Proof.Machine

/-! ### Flight data (R107, R112, R173) -/

section
variable {s : State} {id src buf off epoch k : Nat} {bs : List Byte} {edge : Bool} {f : Flight} {sp : Space} {a : Nat}

theorem putBytes_plain (h : ∀ h, sp ≠ .tier h) : s.putBytes sp a bs = { s with mem := s.mem.write (sp.at a) bs } := by
  cases sp with
  | tier t => exact absurd rfl (h t)
  | _ => rfl

theorem flightWrite_stray (h : s.flightRun id epoch = none) : s.flightWrite id src buf off epoch bs edge = s.bump F.FLT_CNT_DROP_COUNT := by
  simp only [State.flightWrite, h]

/-- The range lies in a buffer of the flight. -/
def Flight.holds (f : Flight) (buf off n : Nat) : Prop := buf < flBufs f.image ∧ off + n ≤ (flBuf f.image buf).bytes

theorem not_holds : ¬ f.holds buf off bs.length ↔ flBufs f.image ≤ buf ∨ (flBuf f.image buf).bytes < off + bs.length := by
  simp only [Flight.holds, not_and_or, Nat.not_lt, Nat.not_le]

theorem flightWrite_outside (h : s.flightRun id epoch = some (k, f)) (ho : ¬ f.holds buf off bs.length) :
    s.flightWrite id src buf off epoch bs edge = s.bump F.FLT_CNT_DROP_COUNT := by
  simp only [State.flightWrite, h]
  exact if_pos (not_holds.1 ho)

/-- How the bytes of flight data can be reached. -/
def State.dataReach (s : State) (k : Nat) (f : Flight) (buf off n : Nat) : TierRes :=
  s.spanReach f.slice true (s.flBase k f buf).1 ((s.flBase k f buf).2 + off) n

theorem flightWrite_failed {st : Nat} (h : s.flightRun id epoch = some (k, f)) (hi : f.holds buf off bs.length)
    (hr : s.dataReach k f buf off bs.length = .fail st) :
    s.flightWrite id src buf off epoch bs edge = (s.poolFault st).bump F.FLT_CNT_DROP_COUNT := by
  unfold State.dataReach at hr
  simp only [State.flightWrite, h, if_neg (mt not_holds.2 (not_not.2 hi)), hr]

theorem flightWrite_fetched {t : Nat} (h : s.flightRun id epoch = some (k, f)) (hi : f.holds buf off bs.length)
    (ht : (s.flBase k f buf).1 = .tier t) (hr : s.dataReach k f buf off bs.length = .wait) :
    s.flightWrite id src buf off epoch bs edge =
      (s.bump F.PLC_CNT_FETCH_DROP_COUNT).fetchPages (t / 256) true (pagesIn ((s.flBase k f buf).2 + off) bs.length) := by
  unfold State.dataReach at hr
  rw [ht] at hr
  simp only [State.flightWrite, h, if_neg (mt not_holds.2 (not_not.2 hi)), ht, hr]

/-- Data placed in a flight: not visible, but for what stands in front of the edge of its device (R107). -/
def Flight.noted (f : Flight) (src buf off n : Nat) (edge : Bool) : Flight :=
  let l := f.placed ++ [(src, buf, off, n, false)]
  { f with placed := if edge then l.map fun e => if e.1 = src then (e.1, e.2.1, e.2.2.1, e.2.2.2.1, true) else e else l }

theorem flightWrite_placed (h : s.flightRun id epoch = some (k, f)) (hi : f.holds buf off bs.length)
    (hr : s.dataReach k f buf off bs.length = .ok) : s.flightWrite id src buf off epoch bs edge =
      ((s.putBytes (s.flBase k f buf).1 ((s.flBase k f buf).2 + off) bs).progress k src).updFlight k
        fun f => f.noted src buf off bs.length edge := by
  unfold State.dataReach at hr
  simp only [State.flightWrite, h, if_neg (mt not_holds.2 (not_not.2 hi)), hr]
  rfl

theorem progress_frame (s : State) (k d : Nat) : ∃ l c, s.progress k d = { s with flights := l, flCtl := c } := by
  unfold State.progress
  split
  · exact ⟨_, _, rfl⟩
  · exact ⟨_, _, rfl⟩

/-- Data placed outside the tiers writes its bytes, and its flight notes it. -/
theorem noted_plain (h : ∀ h, sp ≠ .tier h) (g : Flight → Flight) :
    let t := ((s.putBytes sp a bs).progress k src).updFlight k g
    t.mem = s.mem.write (sp.at a) bs ∧ t.rings = s.rings ∧ t.regs = s.regs := by
  obtain ⟨_, _, hp⟩ := progress_frame (s.putBytes sp a bs) k src
  obtain ⟨_, hu⟩ := updFlight_frame ((s.putBytes sp a bs).progress k src) k g
  intro t
  have ht : t = _ := hu
  rw [ht, hp, putBytes_plain h]
  exact ⟨rfl, rfl, rfl⟩

end

/-! ### Doorbells (R111, R306) -/

section
variable {s : State} {p h i : Nat} {c : Instr} {act : State → State}

theorem wakeLink_frame (s : State) (p h : Nat) : ∃ r, s.wakeLink p h = { s with regs := r } := by
  unfold State.wakeLink
  split
  · exact ⟨_, rfl⟩
  · exact ⟨_, rfl⟩

theorem hallPaused_wakeLink {l : Nat} (hl : l < 12) : (s.wakeLink p h).hallPaused l = s.hallPaused l :=
  hallPaused_of_reg (wakeLink_regsBut _ (by rw [List.mem_singleton]; exact hall_ne_link hl p))

/-- A page that does not answer ignores the write; one behind a pause holds it. -/
theorem pageWrite_eq : s.pageWrite p h i c act = if s.pageAnswers p h i then
    (if s.hallPaused 0 = true ∨ s.hallPaused 1 = true then { s.wakeLink p h with held := s.held ++ [c] } else act (s.wakeLink p h)) else s := by
  have hpaused {l : Nat} (hl : l < 12) := hallPaused_wakeLink (s := s) (p := p) (h := h) hl
  simp only [State.pageWrite, hpaused (show 0 < 12 by decide), hpaused (show 1 < 12 by decide), State.wakeLink_held]
  cases s.pageAnswers p h i <;> rfl

end

section
variable {s : State} {k a n : Nat} {f : Flight}

/-- A doorbell counts in its flight, and changes neither its steps nor its state. -/
theorem countDoorbell_spec (hf : s.flight k = some f) : ∃ g, (s.countDoorbell k a n).flight k = some g ∧ lookD g.doorbells a 0 = n ∧
    (∀ b, b ≠ a → lookD g.doorbells b 0 = lookD f.doorbells b 0) ∧ g.steps = f.steps ∧ g.st = f.st ∧
    (∀ j, j ≠ k → (s.countDoorbell k a n).flight j = s.flight j) ∧ s.countDoorbell k a n = { s with flights := (s.countDoorbell k a n).flights } := by
  simp only [State.countDoorbell, hf, State.blameNew]
  rw [updFlight_eq flight_setFlight_same]
  exact ⟨_, flight_setFlight_same, lookD_put_same _ _ _ _, fun b hb => lookD_put_ne _ _ _ _ _ hb.symm, rfl, rfl,
    fun j hj => (flight_setFlight_ne hj).trans (flight_setFlight_ne hj), rfl⟩

end

section
variable {s : State} {p : Fin 4} {h : Fin 2} {i : Fin 256} {a : Fin 8} {n : DWord}

theorem exec_flightDoorbell : exec (.flightDoorbell p h i a) s = .next (if s.pageAnswers p h i then
    (if s.hallPaused 0 = true ∨ s.hallPaused 1 = true then { s.wakeLink p h with held := s.held ++ [.flightDoorbell p h i a] }
    else if !bitAt (s.slice i).accelGrant a then (s.wakeLink p h).dbReject i
    else if s.accelDoorbell a ≠ 0 then s.wakeLink p h
    else (s.flights.filter fun e => e.2.slice == i.val && e.2.active).foldl (fun u e =>
      u.countDoorbell e.1 a (lookD e.2.doorbells a 0 + 1)) (s.wakeLink p h)) else s) := by
  refine congrArg Host.Outcome.next (pageWrite_eq.trans ?_)
  obtain ⟨r, hr⟩ := wakeLink_frame s p h
  rw [hr]
  rfl

theorem exec_accelCounterRise : exec (.accelCounterRise a n) s = .next (if !s.accelPresent a ∨ s.accelDoorbell a ≠ 1 then s else
    (s.flights.filter fun e => e.2.active && (look e.2.counters a).isSome).foldl (fun u e =>
      u.countDoorbell e.1 a ((n.toNat + 2 ^ 64 - lookD e.2.counters a 0) % 2 ^ 64))
      { s with mem := s.mem.write ((Space.accel a).at (s.accelCounterOff a)) (leBytes 8 n.toNat) }) := rfl

end

/-- Settles O39: data by its run, its buffer and how its bytes are reached, and doorbells by what they find. -/
theorem flightDataAndDoorbells : Obligations.FlightDataAndDoorbells := by
  unfold Obligations.FlightDataAndDoorbells
  refine ⟨?data, ?doorbell, fun s k a n f hf => countDoorbell_spec hf, ?counter⟩
  case data =>
    intro s id src buf off epoch bs edge v c
    have hexec : exec c s = .next (v.flightWrite id.toNat src buf.toNat off.toNat epoch.toNat bs edge) := rfl
    rw [hexec]
    refine ⟨fun h => congrArg _ (flightWrite_stray h), fun k f h => ?_⟩
    intro y p reach inside
    have hv : v.flightRun id.toNat epoch.toNat = some (k, f) := h
    refine ⟨fun ho => congrArg _ (flightWrite_outside hv ho), fun hi st hr => congrArg _ (flightWrite_failed hv hi hr),
      fun hi t ht hr => congrArg _ (flightWrite_fetched hv hi ht hr), fun hi hr => ?_⟩
    refine ⟨_, _, congrArg _ (flightWrite_placed hv hi hr), rfl, fun hp => noted_plain hp _, updFlight_mem, fun g hg => ?_⟩
    exact flight_updFlight hg
  case doorbell =>
    intro s p h i a
    rw [exec_flightDoorbell]
    refine ⟨fun hn => by rw [if_neg (by simp [hn])], fun hn hp => by rw [if_pos hn, if_pos hp], fun hn h0 h1 => ?_⟩
    intro v
    rw [if_pos hn, if_neg (by simp [h0, h1])]
    refine ⟨fun hg => by rw [if_pos (by simp [hg])], fun hg hd => ?_, fun hg hd => ?_⟩
    · rw [if_neg (by simp [hg]), if_pos hd]
    · rw [if_neg (by simp [hg]), if_neg (not_not.2 hd)]
  case counter =>
    intro s a n
    rw [exec_accelCounterRise]
    refine ⟨fun h => by rw [if_pos (by simpa using h)], fun hp hd => by rw [if_neg (by simp [hp, hd])]⟩

end Sys2Proof.Machine
end

section

/-! ## O46: a packet of a port that no register shows

A port's miss buffer shows its occupancy at `R.RTE_MISS` of its number. The device has ports 0 to 15, but `Pkt.port` is any number and the
statement speaks of every state: the register of port 118 is the counter of dropped packets, so that the buffer's occupancy overwrites
what had been counted. -/

namespace Sys2Proof.Machine

/-- The miss buffer of port 118 is shown where dropped packets are counted. -/
theorem miss_118 : R.RTE_MISS 118 = R.RTE_CNT_MISS_DROP := rfl

/-- A WRITE that arrived on port 118 for QP 5. -/
def strayPkt : Pkt :=
  { port := 118, sprayed := true, qpn := 5, op := .write, psn := 0, path := 0, ce := false, icrcOk := true, vaddr := 0, key := 0, msgOffset := 0,
    msgLen := 0, fence := false, first := true, last := true, solicited := false, imm := 0, argA := 0, argB := 0, placed := [], nak := none,
    payload := [] }

/-- A QP whose context is being fetched. -/
def fetchingQp : Qp := { Qp.fresh 0 1 with st := 3, resident := false, fetching := true }

/-- One packet has been dropped so far, and that WRITE waits for the context of its QP. -/
def strayState : State :=
  { State.reset.setF F.RTE_CNT_MISS_DROP_COUNT 1 with
    rte := { qps := [(5, fetchingQp)], keys := [], tags := [], miss := [(strayPkt, .context)], useClock := 0 } }

/-- The fault drops a second packet, and the counter shows one. -/
theorem strayState_contextFault : (strayState.contextFault 5).getF F.RTE_CNT_MISS_DROP_COUNT = 1 := by decide +kernel

theorem strayState_dropped : (strayState.getF F.RTE_CNT_MISS_DROP_COUNT +
    (strayState.rte.miss.filter fun e => e.1.qpn == (5 : BitVec 24).toNat).length) % 2 ^ 32 = 2 := by decide +kernel

/-- Refutes O46: a context fetch fails (R146) while a packet of port 118 waits for it. Its register is the counter of dropped packets, and
showing the buffer empty clears the counter before the packet is counted. -/
theorem not_rdmaTimersAndFetches : ¬ Obligations.RdmaTimersAndFetches := by
  unfold Obligations.RdmaTimersAndFetches
  rintro ⟨hqp, -⟩
  obtain ⟨-, -, -, -, -, -, -, -, -, -, -, -, hfault, -⟩ := hqp strayState 5 fetchingQp rfl
  obtain ⟨t, g, hexec, -, -, -, -, -, -, hcount⟩ := hfault rfl
  have ht : strayState.contextFault 5 = t := Host.Outcome.next.inj hexec
  rw [← ht, strayState_contextFault, strayState_dropped] at hcount
  exact absurd hcount (by decide)

end Sys2Proof.Machine
end

section

/-! ## The RTE: QPs, records, and the end of work

The layer under O45, O47 and O48: one rule for each operation of the RTE's state, and what completions, sends and misses leave alone. -/

namespace Sys2Proof.Machine

/-! ### QPs (R152) -/

section
variable {s t : State} {n i : Nat} {q g : Qp} {f : Qp → Qp}

theorem qp_of_rte (h : t.rte = s.rte) : t.qp i = s.qp i := by rw [State.qp, State.qp, h]

@[simp] theorem qp_setQp_same : (s.setQp n q).qp n = some q := look_put_same _ _ _

theorem qp_setQp_ne (h : i ≠ n) : (s.setQp n q).qp i = s.qp i := look_put_ne _ _ _ _ h.symm

theorem updQp_eq (h : s.qp n = some q) : s.updQp n f = s.setQp n (f q) := by rw [State.updQp, h]

theorem touchQp_eq (h : s.qp n = some q) : s.touchQp n =
    { s.setQp n { q with lastUse := s.rte.useClock + 1 } with
      rte := { (s.setQp n { q with lastUse := s.rte.useClock + 1 }).rte with useClock := s.rte.useClock + 1 } } := by
  rw [State.touchQp, updQp_eq h]

theorem qp_touchQp_same (h : s.qp n = some q) : (s.touchQp n).qp n = some { q with lastUse := s.rte.useClock + 1 } := by
  rw [touchQp_eq h]
  exact qp_setQp_same

theorem qp_touchQp_ne (h : i ≠ n) : (s.touchQp n).qp i = s.qp i := by
  cases hq : s.qp n with
  | none => simp only [State.touchQp, State.updQp, hq]; rfl
  | some q =>
    rw [touchQp_eq hq]
    exact qp_setQp_ne h

theorem touchQp_frame (s : State) (n : Nat) : ∃ r, s.touchQp n = { s with rte := r } := by
  unfold State.touchQp State.updQp
  split
  · exact ⟨_, rfl⟩
  · exact ⟨_, rfl⟩

theorem updQp_frame (s : State) (n : Nat) (f : Qp → Qp) : ∃ r, s.updQp n f = { s with rte := { s.rte with qps := r } } := by
  unfold State.updQp
  split
  · exact ⟨_, rfl⟩
  · exact ⟨_, rfl⟩

end

/-! ### Registers, time limits and pending writes -/

namespace RegisterFrame
variable {s t : State} {n i : Nat}

theorem rte (h : RegisterFrame s t) : t.rte = s.rte := by
  obtain ⟨_, _, _, rfl⟩ := h
  rfl

theorem qp (h : RegisterFrame s t) : t.qp i = s.qp i := qp_of_rte h.rte

theorem bytes (h : RegisterFrame s t) : sameBytes s t := h.work.1

theorem tenants (h : RegisterFrame s t) : sameTenants s t := h.work.2.2

theorem begin (s : State) (k : Timer) : RegisterFrame s (s.begin k) := ⟨_, _, _, rfl⟩

theorem setFs (s : State) (l : List (Fld × Nat)) : RegisterFrame s (s.setFs l) := foldl (fun _ _ => setF _ _ _) l s

theorem cacheShow (s : State) : RegisterFrame s s.cacheShow := setFs _ _

theorem missShow (s : State) (p : Nat) : RegisterFrame s (s.missShow p) := setFs _ _

end RegisterFrame

theorem sameTenants.trans {s t u : State} (h : sameTenants s t) (k : sameTenants t u) : sameTenants s u := by
  simp only [sameTenants] at h k ⊢
  simp only [h, k, and_self]

theorem sameBytes.trans {s t u : State} (h : sameBytes s t) (k : sameBytes t u) : sameBytes s u := fun a => (k a).trans (h a)

theorem sameBytes_of_mem {s t : State} (h : t.mem = s.mem) : sameBytes s t := fun _ => by rw [h]

/-! ### Completion records (R9, R80, R155, R156, R309) -/

/-- Registers that records and the WAITs which they release write: power states of links, records lost, and WAITs completed. -/
def RecordReg (a : Nat) : Prop := (∃ f : Func, a = R.HST_LINK f.port) ∨ a = R.ERR_CNT_LOST ∨ a = R.SLC_CNT_CLASP_WAIT

/-- Operations end and their records go out: the engines are as they were, no WAIT is new, and no register changes but those of records. -/
structure RecordFrame (s t : State) : Prop where
  engines : sameEngines s t
  clasps : ∀ c ∈ t.clasps, c ∈ s.clasps
  regs : ∀ a, ¬ RecordReg a → t.reg a = s.reg a

namespace RecordFrame
variable {s t u : State} {q id st n : Nat} {x : Rec} {c : Clasp}

theorem refl (s : State) : RecordFrame s s := ⟨by simp [sameEngines], fun _ h => h, fun _ _ => rfl⟩

theorem trans (h : RecordFrame s t) (k : RecordFrame t u) : RecordFrame s u where
  engines := by
    have h₁ := h.engines
    have h₂ := k.engines
    simp only [sameEngines] at h₁ h₂ ⊢
    simp only [h₁, h₂, and_self]
  clasps c hc := h.clasps c (k.clasps c hc)
  regs a ha := (k.regs a ha).trans (h.regs a ha)

theorem rte (h : RecordFrame s t) : t.rte = s.rte := by
  obtain ⟨-, -, -, -, hr, -⟩ := h.engines
  exact hr

theorem qp {i : Nat} (h : RecordFrame s t) : t.qp i = s.qp i := qp_of_rte h.rte

theorem getF {f : Fld} (h : RecordFrame s t) (hf : ¬ RecordReg f.reg) : t.getF f = s.getF f := getF_of_reg (h.regs _ hf)

theorem ite {c : Prop} [Decidable c] (h : RecordFrame s t) (k : RecordFrame s u) : RecordFrame s (if c then t else u) := by
  split <;> assumption

theorem foldl {α : Type} {f : State → α → State} (hf : ∀ s x, RecordFrame s (f s x)) (l : List α) (s : State) :
    RecordFrame s (l.foldl f s) := by
  induction l generalizing s with
  | nil => exact refl s
  | cons x xs ih => exact (hf s x).trans (ih _)

theorem bump {f : Fld} (h : RecordReg f.reg) : RecordFrame s (s.bump f) where
  engines := by simp [sameEngines]
  clasps _ h := h
  regs a ha := reg_bump_ne _ _ _ fun e => ha (e ▸ h)

theorem setRing (r : Ring) : RecordFrame s (s.setRing q r) := ⟨by simp [sameEngines], fun _ h => h, fun _ _ => rfl⟩

theorem setOp (o : Op) : RecordFrame s (s.setOp o) := ⟨by simp [sameEngines], fun _ h => h, fun _ _ => rfl⟩

theorem dropOp : RecordFrame s (s.dropOp id) := ⟨by simp [sameEngines], fun _ h => h, fun _ _ => rfl⟩

/-- Operations that enter the list. -/
theorem addOps (l : List Op) (n : Nat) : RecordFrame s { s with ops := l, opNext := n } :=
  ⟨by simp [sameEngines], fun _ h => h, fun _ _ => rfl⟩

/-- WAITs that leave. -/
theorem dropClasps (p : Clasp → Bool) : RecordFrame s { s with clasps := s.clasps.filter p } :=
  ⟨by simp [sameEngines], fun _ h => List.mem_of_mem_filter h, fun _ _ => rfl⟩

end RecordFrame

section
variable {s : State} {q id st a : Nat} {x : Rec} {c : Clasp}

theorem writeRec_reg {r : Ring} (ha : ¬ RecordReg a) : (s.writeRec q r x).reg a = s.reg a := by
  have hs : (s.recStored q r x).reg a = s.reg a := wakeLink_regsBut a fun h => ha (.inl ⟨s.ownerFn r.owner, List.mem_singleton.1 h⟩)
  rcases writeRec_cases s q r x with h | ⟨_, _, h⟩ | ⟨_, _, h⟩
  · rw [h, hs]
  · rw [h, reg_of_regs _ _ _ (State.pf0Event_regs _ _ _), hs]
  · rw [h]; exact hs

theorem drainList_reg (ha : ¬ RecordReg a) (l : List Rec) (s : State) : (State.drainList q l s).reg a = s.reg a := by
  induction l generalizing s with
  | nil => rfl
  | cons x xs ih =>
    unfold State.drainList
    split
    · rfl
    · split
      · exact (ih _).trans ((RecordFrame.bump (.inr (.inl rfl))).regs a ha)
      · split
        · exact ih s
        · split
          · exact (ih _).trans (writeRec_reg ha)
          · rfl

theorem postRaw_record : RecordFrame s (s.postRaw q x) where
  engines := postRaw_frame.engines
  clasps c hc := postRaw_frame.clasps ▸ hc
  regs a ha := by
    have hd : (State.drainCqRaw (s.enqueued q x) q).reg a = s.reg a := drainList_reg ha _ _
    unfold State.postRaw
    extract_lets t
    split
    · exact hd
    · exact hd

theorem retire_record (ring n : Nat) (s : State) : RecordFrame s (State.retire ring n s) := by
  induction n generalizing s with
  | zero => exact .refl s
  | succ n ih =>
    unfold State.retire
    split
    · exact .refl s
    · split
      · exact .refl s
      · exact (RecordFrame.dropOp.trans postRaw_record).trans (ih _)

theorem finishRaw_record : RecordFrame s (s.finishRaw id x) := by
  unfold State.finishRaw
  split
  · exact .refl s
  · exact (RecordFrame.setOp _).trans (retire_record _ _ _)

theorem finishNowRaw_record : RecordFrame s (s.finishNowRaw id x) := by
  unfold State.finishNowRaw
  split
  · exact .refl s
  · exact RecordFrame.dropOp.trans postRaw_record

/-- A WAIT leaves its ring, which goes on, and is counted by its status; a ring or an operation that is gone leaves nothing to count. -/
def State.waitOver (s : State) (c : Clasp) (st : Nat) : State :=
  match s.ring c.ring, s.op c.op with
  | some r, some _ =>
    ({ s with clasps := s.clasps.filter (·.op != c.op) }.setRing c.ring { r with st := if r.st = 3 then 1 else r.st }).waitCount st
  | _, _ => { s with clasps := s.clasps.filter (·.op != c.op) }

theorem waitOver_some {r : Ring} {o : Op} (hr : s.ring c.ring = some r) (ho : s.op c.op = some o) : s.waitOver c st =
    ({ s with clasps := s.clasps.filter (·.op != c.op) }.setRing c.ring { r with st := if r.st = 3 then 1 else r.st }).waitCount st := by
  simp only [State.waitOver, hr, ho]

theorem waitOver_none (h : s.ring c.ring = none ∨ s.op c.op = none) :
    s.waitOver c st = { s with clasps := s.clasps.filter (·.op != c.op) } := by
  unfold State.waitOver
  split
  next hr ho => simp [hr, ho] at h
  next => rfl

/-- Behind the count its record goes out. -/
theorem waitRecord_record : RecordFrame (s.waitOver c st) (s.waitRecord c st) := by
  unfold State.waitRecord
  extract_lets t
  split
  next r o hr ho =>
    rw [waitOver_some (s := s) hr ho]
    exact .ite finishNowRaw_record finishRaw_record
  next hn =>
    have h : s.ring c.ring = none ∨ s.op c.op = none := by
      by_contra h
      obtain ⟨hr, ho⟩ := not_or.1 h
      obtain ⟨r, hr⟩ := Option.ne_none_iff_exists'.1 hr
      obtain ⟨o, ho⟩ := Option.ne_none_iff_exists'.1 ho
      exact hn r o hr ho
    rw [waitOver_none h]
    exact .refl _

theorem waitOver_clasps : (s.waitOver c st).clasps = s.clasps.filter (·.op != c.op) := by
  unfold State.waitOver State.waitCount
  split
  · extract_lets u
    split
    · rfl
    · rfl
  · rfl

/-- A WAIT that has not timed out counts in one register. -/
theorem waitOver_record (h : st ≠ 0x67) : RecordFrame s (s.waitOver c st) := by
  have ht : RecordFrame s { s with clasps := s.clasps.filter (·.op != c.op) } := .dropClasps _
  unfold State.waitOver State.waitCount
  split
  · rw [if_neg h]
    exact (ht.trans (.setRing _)).trans (.bump (.inr (.inr rfl)))
  · exact ht

theorem waitRecord_kept (h : st ≠ 0x67) : RecordFrame s (s.waitRecord c st) := (waitOver_record h).trans waitRecord_record

theorem claspSettle_record (n : Nat) (s : State) : RecordFrame s (State.claspSettle n s) := by
  induction n generalizing s with
  | zero => exact .refl s
  | succ n ih =>
    unfold State.claspSettle
    split
    · exact .refl s
    · exact (waitRecord_kept (by decide)).trans (ih _)

theorem finish_record {res eng : Nat} : RecordFrame s (s.finish id st res eng) := by
  unfold State.finish
  split
  · exact .refl s
  · exact finishRaw_record.trans (claspSettle_record _ _)

theorem cancelBehind_record : RecordFrame s (s.cancelBehind q) := by
  unfold State.cancelBehind
  split
  · exact .refl s
  · extract_lets _ t _ u
    have hu : RecordFrame s u := (RecordFrame.setRing _).trans (.addOps _ _)
    refine hu.trans (.ite (.foldl (fun v _ => ?_) _ _) (retire_record _ _ _))
    split
    · split
      · exact finishNowRaw_record
      · exact .refl v
    · exact .refl v

end

/-! ### The end of work requests (R148, R150, R153) -/

section
variable {s : State} {id st n r : Nat} {w : Nat × Nat} {q : Qp}

theorem rteEnd_record : RecordFrame s (s.rteEnd id st w) := by
  unfold State.rteEnd
  split
  · exact .refl s
  · exact finish_record

theorem rteFail_record : RecordFrame s (s.rteFail id st) := by
  unfold State.rteFail
  split
  · exact .refl s
  · exact rteEnd_record

theorem sqdEnd_record : RecordFrame s (s.sqdEnd id n st) := by
  unfold State.sqdEnd
  split
  · exact finish_record
  · exact .refl s

theorem flushQueued_record : RecordFrame s (s.flushQueued r) := by
  unfold State.flushQueued
  split
  · exact .refl s
  · exact (RecordFrame.setRing _).trans (.foldl (fun _ _ => (RecordFrame.addOps _ _).trans rteFail_record) _ _)

theorem flushRing_record : RecordFrame s (s.flushRing r) :=
  (RecordFrame.foldl (fun _ _ => waitRecord_kept (by decide)) _ s).trans
    ((RecordFrame.foldl (fun _ _ => rteFail_record) _ _).trans flushQueued_record)

/-- A QP in ERROR (R153). -/
def Qp.errored (q : Qp) : Qp :=
  { q with st := 5, work := [], queue := [], unacked := [], recvs := [], claims := [], sqdOps := [], waitRnr := false, unreported := 0 }

/-- A QP enters ERROR behind the records of its work, and that is shown (R153). -/
theorem qpError_eq {cause : Option (Nat × Nat)} (hq : s.qp n = some q) (h : q.st ≠ 5) :
    ∃ u, RecordFrame s u ∧ s.qpError n cause = (u.setQp n q.errored).event F.RTE_STATUS_QP_ERROR := by
  simp only [State.qpError, hq, if_neg h]
  refine ⟨_, ?_, rfl⟩
  refine RecordFrame.trans ?_ ((flushRing_record.trans flushRing_record).trans (.foldl (fun _ _ => sqdEnd_record) _ _))
  split
  · exact rteFail_record
  · exact .refl s

/-- What shows of the move to ERROR. -/
theorem qpError_spec {cause : Option (Nat × Nat)} (hq : s.qp n = some q) (h : q.st ≠ 5) :
    (s.qpError n cause).qp n = some q.errored ∧ (s.qpError n cause).getF F.RTE_STATUS_QP_ERROR = 1 ∧
    ∀ a, ¬ RecordReg a → a ≠ R.RTE_STATUS → (s.qpError n cause).reg a = s.reg a := by
  obtain ⟨u, hu, he⟩ := qpError_eq (cause := cause) hq h
  rw [he]
  exact ⟨qp_setQp_same, getF_eventV_same _ _ _ rfl (by decide), fun a ha hn => (reg_eventV_ne _ _ _ _ hn.symm).trans (hu.regs a ha)⟩

end

end Sys2Proof.Machine
end

section

/-! ## O48: control commands -/

namespace Sys2Proof.Machine

/-! ### Fences and packets of a QP that is gone (R128, R135) -/

section
variable {s : State} {n : Nat} {p : Pkt}

/-- Where no packet of a QP waits for a fence, none goes on. -/
theorem fenceKick_of_none (h : ∀ e ∈ s.rte.miss, e.1.qpn = n → e.2 ≠ .fence) : s.fenceKick n = s := by
  have ho : s.rte.miss.any (s.fenceOpen n) = false := by
    rw [List.any_eq_false]
    intro e he
    by_cases hn : e.1.qpn = n
    · simp [State.fenceOpen, h e he hn]
    · simp [State.fenceOpen, hn]
  unfold State.fenceKick
  cases s.rte.miss.length with
  | zero => rfl
  | succ k => rw [State.fenceLoop, ho]; rfl

theorem pktGo_gone (h : s.qp p.qpn = none) : s.pktGo p = s.rxDrop := by
  simp only [State.pktGo, h]

/-- Packets of QPs that are gone are dropped and counted as they leave. -/
theorem missLeave_gone {out stay : List (Pkt × MissWhy)} (h : ∀ e ∈ out, s.qp e.1.qpn = none) :
    RegisterFrame { s with rte := { s.rte with miss := stay } } (s.missLeave out stay) := by
  unfold State.missLeave
  extract_lets _ t u
  have hu : RegisterFrame t u := .foldl (fun _ _ => .missShow _ _) _ _
  have hgone : ∀ e ∈ out, u.qp e.1.qpn = none := fun e he => hu.qp.trans (h e he)
  clear_value u
  clear h
  refine hu.trans ?_
  clear hu
  induction out generalizing u with
  | nil => exact .refl u
  | cons e l ih =>
    rw [List.foldl_cons, pktGo_gone (hgone e List.mem_cons_self)]
    have hd : RegisterFrame u u.rxDrop := .bump _ _
    exact hd.trans (ih _ fun x hx => hd.qp.trans (hgone x (List.mem_cons_of_mem _ hx)))

theorem foldl_fenceKick_of_none {l : List Nat} (h : ∀ e ∈ s.rte.miss, e.1.qpn ∉ l) : l.foldl State.fenceKick s = s := by
  induction l with
  | nil => rfl
  | cons k l ih =>
    rw [List.foldl_cons, fenceKick_of_none fun e he hk => absurd (hk ▸ List.mem_cons_self) (h e he)]
    exact ih fun e he => fun hm => h e he (List.mem_cons_of_mem _ hm)

theorem missTake_register (h : s.qp n = none) : RegisterFrame { s with rte := { s.rte with miss := s.rte.miss.filter fun e => !(e.1.qpn == n) } }
    (s.missTake fun e => e.1.qpn == n) := by
  have hout : ∀ e ∈ s.rte.miss.filter (fun e => e.1.qpn == n), e.1.qpn = n := fun e he => beq_iff_eq.1 (List.mem_filter.1 he).2
  have hl := missLeave_gone (s := s) (stay := s.rte.miss.filter fun e => !(e.1.qpn == n)) fun e he => (hout e he).symm ▸ h
  unfold State.missTake State.missGo
  rwa [foldl_fenceKick_of_none]
  intro e he hm
  rw [hl.rte] at he
  obtain ⟨x, hx, hxe⟩ := List.mem_map.1 (List.mem_dedup.1 hm)
  have hn : e.1.qpn = n := hxe ▸ hout x hx
  simp [hn] at he

/-- The packets that wait for a QP that is gone leave, and nothing else changes but registers. -/
theorem missTake_gone (h : s.qp n = none) : let t := s.missTake fun e => e.1.qpn == n
    t.rte.qps = s.rte.qps ∧ sameBytes s t ∧ sameTenants s t := by
  obtain ⟨_, _, _, ht⟩ := missTake_register h
  intro t
  have ht : t = _ := ht
  rw [ht]
  simp [sameBytes, sameTenants]

end

end Sys2Proof.Machine
end

section

namespace Sys2Proof.Machine

/-! ### A control command is fetched (R147) -/

section
variable {s u : State} {ring : BitVec 16} {d : Desc} {o : Op} {c : Instr} {opc : Nat} {act : Op → State → State}

/-- A command of a control ring as Table 06-8 numbers it. -/
inductive ControlCommand (ring : BitVec 16) (d : Desc) : Instr → Nat → (Op → State → State) → Prop
  | createQp : ControlCommand ring d (.createQp ring d) 0x10 State.createQp
  | modifyQp : ControlCommand ring d (.modifyQp ring d) 0x11 State.modifyQp
  | queryQp : ControlCommand ring d (.queryQp ring d) 0x12 State.queryQp
  | destroyQp : ControlCommand ring d (.destroyQp ring d) 0x13 State.destroyQp
  | regMr : ControlCommand ring d (.regMr ring d) 0x14 State.regMr
  | deregMr : ControlCommand ring d (.deregMr ring d) 0x15 State.deregMr

theorem ControlCommand.of_mem (h : (c, opc) ∈ [(Instr.createQp ring d, 0x10), (.modifyQp ring d, 0x11), (.queryQp ring d, 0x12),
    (.destroyQp ring d, 0x13), (.regMr ring d, 0x14), (.deregMr ring d, 0x15)]) : ∃ act, ControlCommand ring d c opc act := by
  simp only [List.mem_cons, Prod.mk.injEq, List.not_mem_nil, or_false] at h
  obtain ⟨rfl, rfl⟩ | ⟨rfl, rfl⟩ | ⟨rfl, rfl⟩ | ⟨rfl, rfl⟩ | ⟨rfl, rfl⟩ | ⟨rfl, rfl⟩ := h
  exacts [⟨_, .createQp⟩, ⟨_, .modifyQp⟩, ⟨_, .queryQp⟩, ⟨_, .destroyQp⟩, ⟨_, .regMr⟩, ⟨_, .deregMr⟩]

theorem ControlCommand.exec_eq (h : ControlCommand ring d c opc act) : exec c s = .next (s.ctlFetch opc ring.toNat d act) := by
  cases h <;> rfl

theorem ControlCommand.opcode (h : ControlCommand ring d c opc act) : 0x10 ≤ opc ∧ opc ≤ 0x15 := by
  cases h <;> decide

/-- An opcode that no command of the ring has, and that is no WAIT. -/
def ctlForeign (d : Desc) : Prop := wqeOpcode d ≠ 15 ∧ (wqeOpcode d < 0x10 ∨ 0x15 < wqeOpcode d)

theorem ctlFetch_idle (h : s.hallPaused 5 = true ∨ s.fetch ring.toNat 4 (Desc.field d 0 4) d = none) :
    s.ctlFetch opc ring.toNat d act = s := by
  unfold State.ctlFetch
  extract_lets x
  split
  · rfl
  next hn =>
    rcases h with h | h
    · exact absurd (.inr h) hn
    · rw [h]

/-- Behind its fetch a command is refused as invalid, or passes its commit point and acts (R147). -/
theorem ctlFetch_some (h : wqeOpcode d = opc ∨ ctlForeign d) (h5 : s.hallPaused 5 = false)
    (hf : s.fetch ring.toNat 4 (Desc.field d 0 4) d = some (o, u)) :
    s.ctlFetch opc ring.toNat d act = if wqeOpcode d ≠ opc ∨ Desc.only d (ctlFields d) = false then
      u.rteEnd o.id stWqeInvalid (rteWords 0 0 (wqeOpcode d) 0 0 0) else act o (u.commitOp o.id) := by
  have hgo : ¬ ((!decide (wqeOpcode d = opc ∨ (wqeOpcode d ≠ 15 ∧ (wqeOpcode d < 0x10 ∨ 0x15 < wqeOpcode d)))) = true ∨
      s.hallPaused 5 = true) := by
    simp only [h5, Bool.not_eq_true', decide_eq_false_iff_not, Bool.false_eq_true, or_false, not_not]
    exact h
  unfold State.ctlFetch
  extract_lets x
  rw [if_neg hgo, hf]
  simp only [Bool.not_eq_true', x]

theorem exec_control (hc : ControlCommand ring d c opc act) (hop : wqeOpcode d = opc) (h5 : s.hallPaused 5 = false)
    (hf : s.fetch ring.toNat 4 (Desc.field d 0 4) d = some (o, u)) (ho : Desc.only d (ctlFields d) = true) :
    exec c s = .next (act o (u.commitOp o.id)) := by
  rw [hc.exec_eq, ctlFetch_some (.inl hop) h5 hf, if_neg (by simp [hop, ho])]

end

/-! ### CREATE_QP (R145, R152) -/

section
variable {s : State} {o : Op} {n i : Nat} {q : Qp}

/-- Room for a context is there, or another QP's context makes it (R145). -/
theorem makeRoom_some {u : State} (h : s.makeRoom = some u) : ∃ r, u = { s with rte := { s.rte with qps := r } } ∧
    ∀ i, u.qp i = s.qp i ∨ ∃ x, s.qp i = some x ∧ u.qp i = some { x with resident := false } := by
  unfold State.makeRoom at h
  extract_lets res at h
  split at h
  · cases h
    exact ⟨_, rfl, fun _ => .inl rfl⟩
  · obtain ⟨k, -, rfl⟩ := Option.map_eq_some_iff.1 h
    obtain ⟨r, hr⟩ := updQp_frame s k fun q => { q with resident := false }
    refine ⟨r, hr, fun i => ?_⟩
    cases hk : s.qp k with
    | none => exact .inl (by simp only [State.updQp, hk])
    | some x =>
      rw [updQp_eq hk]
      by_cases hi : i = k
      · exact .inr ⟨x, hi ▸ hk, hi ▸ qp_setQp_same⟩
      · exact .inl (qp_setQp_ne hi)

theorem fieldAt_leBytes_zero {m : Nat} (h : m < 256) : fieldAt (leBytes 128 m) 0 1 = m := by
  simp [fieldAt, cut, leBytes, leNat, Nat.mod_eq_of_lt h]

/-- Of the QPs that there were, one at most gives up its context, and the new one is in RESET. -/
structure QpMade (s w : State) (j slice mode : Nat) : Prop where
  made : ∃ g, w.qp j = some g ∧ g.st = 0 ∧ g.slice = slice ∧ g.attr = leBytes 128 mode
  others : ∀ i, i ≠ j → w.qp i = s.qp i ∨ ∃ x, s.qp i = some x ∧ w.qp i = some { x with resident := false }
  bytes : sameBytes s w
  tenants : sameTenants s w

/-- A new QP with its context in the cache where there is room, and else with it in memory. -/
def State.qpMade (s : State) (j slice mode : Nat) : State :=
  match s.makeRoom with
  | none => (s.setQp j { Qp.fresh slice mode with resident := false }).cacheShow
  | some u => ((u.setQp j (Qp.fresh slice mode)).touchQp j).cacheShow

theorem qpMade_spec (s : State) (j slice mode : Nat) : QpMade s (s.qpMade j slice mode) j slice mode := by
  unfold State.qpMade
  split
  next =>
    have hc := RegisterFrame.cacheShow (s.setQp j { Qp.fresh slice mode with resident := false })
    exact ⟨⟨_, hc.qp.trans qp_setQp_same, rfl, rfl, rfl⟩, fun i hi => .inl (hc.qp.trans (qp_setQp_ne hi)), hc.bytes, hc.tenants⟩
  next u hu =>
    obtain ⟨r, rfl, hothers⟩ := makeRoom_some hu
    have hc := RegisterFrame.cacheShow ((State.setQp { s with rte := { s.rte with qps := r } } j (Qp.fresh slice mode)).touchQp j)
    obtain ⟨r', hr'⟩ := touchQp_frame (State.setQp { s with rte := { s.rte with qps := r } } j (Qp.fresh slice mode)) j
    refine ⟨⟨_, hc.qp.trans (qp_touchQp_same qp_setQp_same), rfl, rfl, rfl⟩, fun i hi => ?_, ?_, ?_⟩
    · rw [hc.qp, qp_touchQp_ne hi, qp_setQp_ne hi]
      exact hothers i
    · exact sameBytes.trans (sameBytes_of_mem (by rw [hr']; rfl)) hc.bytes
    · exact sameTenants.trans (by rw [hr']; simp [sameTenants, State.setQp]) hc.tenants

theorem createQp_badMode (hm : 1 < fieldAt (s.attrBlock o) 0 1) : s.createQp o = s.ctlEnd o stWqeInvalid 0 0 := if_pos hm

theorem createQp_noQuota (hm : fieldAt (s.attrBlock o) 0 1 ≤ 1) (hq : (s.slice o.owner).qpQuota ≤ s.qpsUsed o.owner) :
    s.createQp o = s.ctlEnd o stRteQuota 0 0 := (if_neg (Nat.not_lt.2 hm)).trans (if_pos hq)

/-- A QPN that is not in use is found while there is one (log entry 33). -/
theorem createQp_made (hm : fieldAt (s.attrBlock o) 0 1 ≤ 1) (hq : s.qpsUsed o.owner < (s.slice o.owner).qpQuota)
    (hl : s.rte.qps.length < 2 ^ 20 - 2) : ∃ (w : State) (j : Nat), s.createQp o = w.ctlEnd o stOk j 0 ∧ 2 ≤ j ∧ j < 2 ^ 20 ∧ s.qp j = none ∧
      QpMade s w j o.owner (fieldAt (s.attrBlock o) 0 1) := by
  obtain ⟨j, hj⟩ := pickFree_some s.rte.qps 2 (2 ^ 20 - 2) (s.rte.qps.length + 1) (Config.freeWord s.draws).toNat
    (fun n => (s.qp n).isNone) (Nat.lt_succ_self _) hl fun j _ _ hn => by rw [show s.qp j = none from hn]; rfl
  obtain ⟨hfree, hlo, hhi⟩ := pickFree_spec hj (by decide)
  have hspec := qpMade_spec { s with draws := s.draws + 1 } j o.owner (fieldAt (s.attrBlock o) 0 1)
  refine ⟨_, j, ?_, hlo, hhi, Option.isNone_iff_eq_none.1 hfree, ⟨hspec.made, hspec.others, hspec.bytes, hspec.tenants⟩⟩
  unfold State.createQp
  extract_lets mode
  rw [if_neg (Nat.not_lt.2 hm), if_neg (Nat.not_le.2 hq)]
  change (match pickFree 2 (2 ^ 20 - 2) (s.rte.qps.length + 1) (Config.freeWord s.draws).toNat (fun n => (s.qp n).isNone) with
    | none => _ | some n => _) = _
  rw [hj]
  unfold State.qpMade
  cases State.makeRoom { s with draws := s.draws + 1 } <;> rfl

end
end Sys2Proof.Machine
end

section

namespace Sys2Proof.Machine

/-! ### MODIFY_QP (Table 06-12) -/

section
variable {s : State} {o : Op} {q : Qp}

/-- The state that a MODIFY asks for. -/
def State.modifyTarget (s : State) (o : Op) : Nat := fieldAt (s.attrBlock o) 1 1

/-- A QP of another slice, or none, is no QP of the command's. -/
theorem modifyQp_absent (h : s.qp (Desc.field o.desc 56 4) = none) : s.modifyQp o = s.ctlEnd o stQpState (Desc.field o.desc 56 4) 0 := by
  simp only [State.modifyQp, h]

theorem modifyQp_foreign (hq : s.qp (Desc.field o.desc 56 4) = some q) (ho : q.slice ≠ o.owner) :
    s.modifyQp o = s.ctlEnd o stQpState (Desc.field o.desc 56 4) 0 := by
  simp only [State.modifyQp, hq]
  exact if_pos ho

section
variable (hq : s.qp (Desc.field o.desc 56 4) = some q) (ho : q.slice = o.owner)
include hq ho

theorem modifyQp_noState (ht : 5 < s.modifyTarget o) : s.modifyQp o = s.ctlEnd o stWqeInvalid (Desc.field o.desc 56 4) q.st := by
  simp only [State.modifyQp, hq, ho, ne_eq, not_true_eq_false, if_false]
  exact if_pos ht

theorem modifyQp_toReset (ht : s.modifyTarget o = 0) : s.modifyQp o =
    (if q.st = 0 then s else s.qpReset (Desc.field o.desc 56 4) q).ctlEnd o stOk (Desc.field o.desc 56 4) 0 := by
  unfold State.modifyTarget at ht
  simp only [State.modifyQp, hq, ho, ht, ne_eq, not_true_eq_false, if_false, Nat.not_lt_zero]

end

/-- A QP in INIT: MODIFY has taken its port, paths and rings (Table 06-11). -/
def Qp.toInit (q : Qp) (b : List Byte) : Qp := { q with st := 1, attr := attrTake (attrTake q.attr b 2 2) b 8 8 }

/-- A QP in RTR: V stands at RQ_PSN, and every path at line rate (R140, Table 06-11). -/
def State.qpToRtr (s : State) (q : Qp) (b : List Byte) : Qp :=
  let a := attrTake (attrTake (attrTake (attrTake (attrTake q.attr b 4 4) b 16 48) b 67 4) b 74 1) b 76 1
  { q with st := 2, attr := a, v := fieldAt a 68 3, paths := s.freshPaths { q with attr := a }, rto := s.firstRto a }

/-- A QP in RTS from RTR: it sends from SQ_PSN on (Table 06-11; log entry 78). -/
def State.qpToRts (s : State) (q : Qp) (b : List Byte) : Qp :=
  let a := attrTake (attrTake (attrTake (attrTake q.attr b 64 3) b 71 3) b 75 1) b 80 4
  { q with st := 3, attr := a, nextPsn := fieldAt a 64 3, edge := fieldAt a 64 3, paths := s.freshPaths { q with attr := a }, rto := s.firstRto a }

/-- A QP in RTS again from SQD (Table 06-11). -/
def State.qpResumed (s : State) (q : Qp) (b : List Byte) : Qp :=
  let a := attrTake (attrTake q.attr b 71 3) b 80 4
  { q with st := 3, attr := a, rto := s.firstRto a }

/-- A QP in SQD, where the MODIFY waits for the work requests that have started. -/
def Qp.toSqd (q : Qp) (id : Nat) : Qp := { q with st := 4, sqdOps := q.sqdOps ++ [(id, q.work.map (·.op))] }

section
variable (hq : s.qp (Desc.field o.desc 56 4) = some q) (ho : q.slice = o.owner)
include hq ho

theorem modifyQp_toInit (hs : q.st = 0) (ht : s.modifyTarget o = 1) : s.modifyQp o =
    if s.initOk o.owner (qpSprayed q) (s.attrBlock o) = false then s.ctlEnd o stWqeInvalid (Desc.field o.desc 56 4) 0
    else if bitAt (s.slice o.owner).netGrant (fieldAt (s.attrBlock o) 2 1) = false then s.ctlEnd o stRights (Desc.field o.desc 56 4) 0
    else (s.setQp (Desc.field o.desc 56 4) (q.toInit (s.attrBlock o))).ctlEnd o stOk (Desc.field o.desc 56 4) 1 := by
  unfold State.modifyTarget at ht
  unfold State.modifyQp
  simp only [hq]
  rw [if_neg (not_not.2 ho), if_neg (by rw [ht]; decide)]
  simp only [hs, ht, Bool.not_eq_true']
  rfl

theorem modifyQp_toRtr (hs : q.st = 1) (ht : s.modifyTarget o = 2) : s.modifyQp o =
    if rtrOk (qpSprayed q) (s.attrBlock o) = false then s.ctlEnd o stWqeInvalid (Desc.field o.desc 56 4) 1
    else (s.setQp (Desc.field o.desc 56 4) (s.qpToRtr q (s.attrBlock o))).ctlEnd o stOk (Desc.field o.desc 56 4) 2 := by
  unfold State.modifyTarget at ht
  unfold State.modifyQp
  simp only [hq]
  rw [if_neg (not_not.2 ho), if_neg (by rw [ht]; decide)]
  simp only [hs, ht, Bool.not_eq_true']
  rfl

theorem modifyQp_toRts (hs : q.st = 2) (ht : s.modifyTarget o = 3) : s.modifyQp o =
    if retryOk (s.attrBlock o) = true ∧ 1 ≤ fieldAt (s.attrBlock o) 75 1 ∧ fieldAt (s.attrBlock o) 75 1 ≤ 16 then
      (s.setQp (Desc.field o.desc 56 4) (s.qpToRts q (s.attrBlock o))).ctlEnd o stOk (Desc.field o.desc 56 4) 3
    else s.ctlEnd o stWqeInvalid (Desc.field o.desc 56 4) 2 := by
  unfold State.modifyTarget at ht
  unfold State.modifyQp
  simp only [hq]
  rw [if_neg (not_not.2 ho), if_neg (by rw [ht]; decide)]
  simp only [hs, ht, Bool.not_eq_true']
  have hfits : (retryOk (s.attrBlock o) = false ∨ fieldAt (s.attrBlock o) 75 1 = 0 ∨ 16 < fieldAt (s.attrBlock o) 75 1) ↔
      ¬ (retryOk (s.attrBlock o) = true ∧ 1 ≤ fieldAt (s.attrBlock o) 75 1 ∧ fieldAt (s.attrBlock o) 75 1 ≤ 16) := by
    cases retryOk (s.attrBlock o)
    · simp
    · simp only [Bool.true_eq_false, false_or, true_and]
      omega
  simp only [hfits, ite_not]
  rfl

theorem modifyQp_toSqd (hs : q.st = 3) (ht : s.modifyTarget o = 4) : s.modifyQp o =
    (s.setQp (Desc.field o.desc 56 4) (q.toSqd o.id)).sqdSettle (Desc.field o.desc 56 4) := by
  unfold State.modifyTarget at ht
  unfold State.modifyQp
  simp only [hq]
  rw [if_neg (not_not.2 ho), if_neg (by rw [ht]; decide)]
  simp only [hs, ht]
  rfl

theorem modifyQp_resumed (hs : q.st = 4) (ht : s.modifyTarget o = 3) : s.modifyQp o =
    if retryOk (s.attrBlock o) = false then s.ctlEnd o stWqeInvalid (Desc.field o.desc 56 4) 4
    else ((s.setQp (Desc.field o.desc 56 4) (s.qpResumed q (s.attrBlock o))).ctlEnd o stOk (Desc.field o.desc 56 4) 3).pump
      (Desc.field o.desc 56 4) := by
  unfold State.modifyTarget at ht
  unfold State.modifyQp
  simp only [hq]
  rw [if_neg (not_not.2 ho), if_neg (by rw [ht]; decide)]
  simp only [hs, ht, Bool.not_eq_true']
  rfl

theorem modifyQp_toError (hs : 1 ≤ q.st ∧ q.st ≤ 4) (ht : s.modifyTarget o = 5) : s.modifyQp o =
    (s.qpError (Desc.field o.desc 56 4) none).ctlEnd o stOk (Desc.field o.desc 56 4) 5 := by
  unfold State.modifyTarget at ht
  have hcases : q.st = 1 ∨ q.st = 2 ∨ q.st = 3 ∨ q.st = 4 := by omega
  rcases hcases with hs | hs | hs | hs <;>
    simp only [State.modifyQp, hq, ho, ht, hs, ne_eq, not_true_eq_false, if_false, Nat.lt_irrefl]

/-- The moves of Table 06-12, but for those to RESET. -/
def qpMoves : List (Nat × Nat) := [(0, 1), (1, 2), (2, 3), (3, 4), (4, 3), (1, 5), (2, 5), (3, 5), (4, 5)]

/-- Any other move is refused (Table 06-12). -/
theorem modifyQp_refused (ht : s.modifyTarget o ≤ 5) (h0 : s.modifyTarget o ≠ 0) (hs : q.st ≤ 5) (hm : (q.st, s.modifyTarget o) ∉ qpMoves) :
    s.modifyQp o = s.ctlEnd o stQpState (Desc.field o.desc 56 4) q.st := by
  have hmove {a b : Nat} (ha : q.st = a) (hb : s.modifyTarget o = b) (h : (a, b) ∈ qpMoves) : False := hm (by rwa [ha, hb])
  unfold State.modifyQp
  simp only [hq]
  rw [if_neg (not_not.2 ho), if_neg (show ¬ 5 < fieldAt (s.attrBlock o) 1 1 from Nat.not_lt.2 ht)]
  split
  next ht => exact absurd ht h0
  next hs ht => exact (hmove hs ht (by decide)).elim
  next hs ht => exact (hmove hs ht (by decide)).elim
  next hs ht => exact (hmove hs ht (by decide)).elim
  next hs ht => exact (hmove hs ht (by decide)).elim
  next hs ht => exact (hmove hs ht (by decide)).elim
  next hs _ => rw [hs]
  next hs _ => rw [hs]
  next ht n0 n5 =>
    have h0 : q.st ≠ 0 := n0
    have h5 : q.st ≠ 5 := n5
    have hcases : q.st = 1 ∨ q.st = 2 ∨ q.st = 3 ∨ q.st = 4 := by omega
    rcases hcases with hs | hs | hs | hs <;> exact (hmove hs ht (by decide)).elim
  next => rfl

end

/-- A QP that leaves for RESET stands there with its slice. -/
theorem qpReset_qp (n : Nat) : ∃ g, (s.qpReset n q).qp n = some g ∧ g.st = 0 ∧ g.slice = q.slice := by
  unfold State.qpReset
  extract_lets u v
  exact ⟨_, (RegisterFrame.cacheShow _).qp.trans qp_setQp_same, rfl, rfl⟩

end

/-! ### QUERY_QP and DESTROY_QP (R128, R152, R153) -/

section
variable {s : State} {o : Op} {q : Qp}

theorem queryQp_absent (h : s.qp (Desc.field o.desc 56 4) = none) : s.queryQp o = s.ctlEnd o stQpState (Desc.field o.desc 56 4) 0 := by
  simp only [State.queryQp, h]

theorem queryQp_foreign (hq : s.qp (Desc.field o.desc 56 4) = some q) (ho : q.slice ≠ o.owner) :
    s.queryQp o = s.ctlEnd o stQpState (Desc.field o.desc 56 4) 0 := by
  simp only [State.queryQp, hq]
  exact if_pos ho

theorem queryQp_own (hq : s.qp (Desc.field o.desc 56 4) = some q) (ho : q.slice = o.owner) : s.queryQp o =
    ({ s with mem := s.mem.write ((s.slice o.owner).space.at (Desc.field o.desc 40 8)) (q.attr.set 1 (BitVec.ofNat 8 q.st)) }).ctlEnd o stOk
      (Desc.field o.desc 56 4) q.st := by
  simp only [State.queryQp, hq]
  exact if_neg (not_not.2 ho)

theorem destroyQp_absent (h : s.qp (Desc.field o.desc 56 4) = none) : s.destroyQp o = s.ctlEnd o stQpState (Desc.field o.desc 56 4) 0 := by
  simp only [State.destroyQp, h]

theorem destroyQp_refused (hq : s.qp (Desc.field o.desc 56 4) = some q) (h : q.slice ≠ o.owner ∨ (q.st ≠ 0 ∧ q.st ≠ 5)) :
    s.destroyQp o = s.ctlEnd o stQpState (Desc.field o.desc 56 4) 0 := by
  simp only [State.destroyQp, hq]
  exact if_pos (by simpa using h)

/-- The QP goes, and with it the packets that wait for it: nothing else changes but registers. -/
theorem destroyQp_gone (hq : s.qp (Desc.field o.desc 56 4) = some q) (ho : q.slice = o.owner) (hs : q.st = 0 ∨ q.st = 5) :
    ∃ w : State, s.destroyQp o = w.ctlEnd o stOk (Desc.field o.desc 56 4) 0 ∧ w.qp (Desc.field o.desc 56 4) = none ∧
      (∀ i, i ≠ Desc.field o.desc 56 4 → w.qp i = s.qp i) ∧ sameBytes s w ∧ sameTenants s w := by
  generalize hn : Desc.field o.desc 56 4 = n at hq
  have hc := RegisterFrame.cacheShow { s with rte := { s.rte with qps := drop s.rte.qps n } }
  have hgone : (State.cacheShow { s with rte := { s.rte with qps := drop s.rte.qps n } }).qp n = none := hc.qp.trans (look_drop_same _ _)
  obtain ⟨hqps, hbytes, htenants⟩ := missTake_gone hgone
  have hqp (i : Nat) : (State.missTake (State.cacheShow { s with rte := { s.rte with qps := drop s.rte.qps n } })
      fun e => e.1.qpn == n).qp i = look (drop s.rte.qps n) i := by
    rw [State.qp, hqps, hc.rte]
  refine ⟨_, ?_, (hqp n).trans (look_drop_same _ _), fun i hi => (hqp i).trans (look_drop_ne _ _ _ hi.symm), hc.bytes.trans hbytes,
    hc.tenants.trans htenants⟩
  simp only [State.destroyQp, hn, hq]
  exact if_neg (by simp [ho, hs])

end

/-! ### REG_MR and DEREG_MR (R141, R144) -/

section
variable {s : State} {o : Op} {k : Key}

/-- Rights of a region that go together with no space, or ask for remote writes without local ones (R141). -/
def regionBad (d : Desc) : Prop :=
  Desc.bits d 425 424 = 3 ∨ ((bitAt (Desc.bits d 420 416) 3 ∨ bitAt (Desc.bits d 420 416) 4) ∧ !bitAt (Desc.bits d 420 416) 1)

/-- The status of the region that a REG_MR names. -/
def State.regionOf (s : State) (o : Op) : Nat :=
  s.regionStatus o.owner (Desc.bits o.desc 425 424) (Desc.bits o.desc 415 384) (Desc.bits o.desc 434 432) (Desc.field o.desc 24 8)
    (Desc.field o.desc 40 8)

theorem regMr_bad (h : regionBad o.desc) : s.regMr o = s.ctlEnd o stWqeInvalid 0 0 := if_pos h

theorem regMr_refused (h : ¬ regionBad o.desc) (hs : s.regionOf o ≠ stOk) : s.regMr o = s.ctlEnd o (s.regionOf o) 0 0 :=
  (if_neg h).trans (if_pos hs)

theorem regMr_noQuota (h : ¬ regionBad o.desc) (hs : s.regionOf o = stOk) (hq : (s.slice o.owner).keyQuota ≤ s.keysUsed o.owner) :
    s.regMr o = s.ctlEnd o stRteQuota 0 0 := (if_neg h).trans ((if_neg (not_not.2 hs)).trans (if_pos hq))

/-- The new key of a region at an index: its tag is the one behind the last of the index. -/
def State.newKey (s : State) (o : Op) (j : Nat) : Key :=
  ⟨(lookD s.rte.tags j 0 + 1) % 256, 1, o.owner, Desc.bits o.desc 425 424, Desc.bits o.desc 415 384, Desc.bits o.desc 434 432,
    Desc.field o.desc 24 8, Desc.field o.desc 40 8, Desc.bits o.desc 420 416, false, false, none⟩

/-- An index that is not in use is found while there is one (log entry 33), and its key enters the table. -/
theorem regMr_made (h : ¬ regionBad o.desc) (hs : s.regionOf o = stOk) (hq : s.keysUsed o.owner < (s.slice o.owner).keyQuota)
    (hl : s.rte.keys.length < 2 ^ 24 - 1) : ∃ j, 1 ≤ j ∧ j < 2 ^ 24 ∧ look s.rte.keys j = none ∧ s.regMr o =
      State.rteEnd { s with draws := s.draws + 1, rte := { s.rte with
          keys := put s.rte.keys j (s.newKey o j), tags := put s.rte.tags j ((lookD s.rte.tags j 0 + 1) % 256) } }
        o.id stOk (rteWords 0 (256 * j + (s.newKey o j).tag) 0x14 0 0 0) := by
  obtain ⟨j, hj⟩ := pickFree_some s.rte.keys 1 (2 ^ 24 - 1) (s.rte.keys.length + 1) (Config.freeWord s.draws).toNat
    (fun n => (look s.rte.keys n).isNone) (Nat.lt_succ_self _) hl fun j _ _ hn => by rw [hn]; rfl
  obtain ⟨hfree, hlo, hhi⟩ := pickFree_spec hj (by decide)
  refine ⟨j, hlo, hhi, Option.isNone_iff_eq_none.1 hfree, (if_neg h).trans ((if_neg (not_not.2 hs)).trans ((if_neg (Nat.not_le.2 hq)).trans ?_))⟩
  change (match pickFree 1 (2 ^ 24 - 1) (s.rte.keys.length + 1) (Config.freeWord s.draws).toNat (fun n => (look s.rte.keys n).isNone) with
    | none => _ | some n => _) = _
  rw [hj]
  rfl

/-- The key entry that a DEREG_MR names. -/
def keyIndex (o : Op) : Nat := Desc.field o.desc 12 4 / 256

theorem deregMr_absent (h : look s.rte.keys (keyIndex o) = none) : s.deregMr o = s.ctlEnd o stKeyInvalid 0 0 := by
  unfold keyIndex at h
  simp only [State.deregMr, h]

theorem deregMr_foreign (h : look s.rte.keys (keyIndex o) = some k) (hk : k.tag ≠ Desc.field o.desc 12 4 % 256 ∨ k.slice ≠ o.owner) :
    s.deregMr o = s.ctlEnd o stKeyInvalid 0 0 := by
  unfold keyIndex at h
  simp only [State.deregMr, h]
  exact if_pos hk

theorem deregMr_own (h : look s.rte.keys (keyIndex o) = some k) (ht : k.tag = Desc.field o.desc 12 4 % 256) (ho : k.slice = o.owner) :
    s.deregMr o = if k.st = 2 then s.ctlEnd o stKeyRevoked 0 0
      else { s with rte := { s.rte with keys := put s.rte.keys (keyIndex o) { k with st := 2, deregOp := some o.id } } } := by
  unfold keyIndex at h
  simp only [State.deregMr, h]
  exact if_neg (by simp [ht, ho])

end
end Sys2Proof.Machine
end

section

namespace Sys2Proof.Machine

section
variable {s : State} {q : Qp} {b : List Byte}

theorem freshPaths_congr {g : Qp} (h : g.attr = q.attr) : s.freshPaths g = s.freshPaths q := by simp only [State.freshPaths, Qp.port, h]

theorem qpToRtr_spec : (s.qpToRtr q b).st = 2 ∧ (s.qpToRtr q b).v = fieldAt (s.qpToRtr q b).attr 68 3 ∧
    (s.qpToRtr q b).paths = s.freshPaths (s.qpToRtr q b) := by
  unfold State.qpToRtr
  extract_lets a
  clear_value a
  exact ⟨rfl, rfl, freshPaths_congr rfl⟩

theorem qpToRts_spec : (s.qpToRts q b).st = 3 ∧ (s.qpToRts q b).nextPsn = fieldAt (s.qpToRts q b).attr 64 3 ∧
    (s.qpToRts q b).edge = (s.qpToRts q b).nextPsn ∧ (s.qpToRts q b).paths = s.freshPaths (s.qpToRts q b) ∧
    (s.qpToRts q b).rto = s.firstRto (s.qpToRts q b).attr := by
  unfold State.qpToRts
  extract_lets a
  clear_value a
  exact ⟨rfl, rfl, rfl, freshPaths_congr rfl, rfl⟩

theorem qpResumed_spec : (s.qpResumed q b).st = 3 ∧ (s.qpResumed q b).rto = s.firstRto (s.qpResumed q b).attr ∧
    (s.qpResumed q b).work = q.work := by
  unfold State.qpResumed
  extract_lets a
  clear_value a
  exact ⟨rfl, rfl, rfl⟩

end

/-- Settles O48: each command behind its fetch by the first of its checks that fails, and MODIFY by the move that it asks for. -/
theorem rdmaControlCommands : Obligations.RdmaControlCommands := by
  unfold Obligations.RdmaControlCommands
  constructor
  · intro s ring d c opc hmem foreign hop
    obtain ⟨act, hc⟩ := ControlCommand.of_mem hmem
    rw [hc.exec_eq]
    refine ⟨fun h => congrArg _ (ctlFetch_idle h), fun o u h5 hf hbad => congrArg _ ?_⟩
    rw [ctlFetch_some hop h5 hf]
    refine if_pos (hbad.imp_left fun h e => ?_)
    have := hc.opcode
    obtain ⟨-, h | h⟩ := h <;> omega
  · intro s u ring d o hf h5 v n b honly
    obtain rfl : o.desc = d := desc_of_fetch hf
    have hexec {c : Instr} {opc : Nat} {act : Op → State → State} (hc : ControlCommand ring o.desc c opc act) (hop : wqeOpcode o.desc = opc) :
        exec c s = .next (act o v) := exec_control hc hop h5 hf honly
    refine ⟨?create, ?absent, ?own, ?reg, ?dereg⟩
    case create =>
      intro hop
      rw [hexec .createQp hop]
      refine ⟨fun hm => congrArg _ (createQp_badMode hm), fun hm hq => congrArg _ (createQp_noQuota hm hq), fun hm hq hl => ?_⟩
      obtain ⟨w, j, he, hlo, hhi, hfree, ⟨g, hg, hst, hslice, hattr⟩, hothers, hbytes, htenants⟩ := createQp_made hm hq hl
      refine ⟨w, _, j, g, congrArg _ he, rfl, hlo, hhi, hfree, hg, hst, hslice, ?_, hothers, hbytes, htenants⟩
      rw [hattr]
      exact fieldAt_leBytes_zero (Nat.lt_of_le_of_lt hm (by decide))
    case absent =>
      intro c opc hmem hop
      simp only [List.mem_cons, Prod.mk.injEq, List.not_mem_nil, or_false] at hmem
      obtain ⟨rfl, rfl⟩ | ⟨rfl, rfl⟩ | ⟨rfl, rfl⟩ := hmem
      · rw [hexec .modifyQp hop]
        exact ⟨fun h => congrArg _ (modifyQp_absent h), fun q hq ho => congrArg _ (modifyQp_foreign hq ho)⟩
      · rw [hexec .queryQp hop]
        exact ⟨fun h => congrArg _ (queryQp_absent h), fun q hq ho => congrArg _ (queryQp_foreign hq ho)⟩
      · rw [hexec .destroyQp hop]
        exact ⟨fun h => congrArg _ (destroyQp_absent h), fun q hq ho => congrArg _ (destroyQp_refused hq (.inl ho))⟩
    case own =>
      intro q hq ho
      refine ⟨fun hop => ?modify, fun hop => ?query, fun hop => ?destroy⟩
      case modify =>
        rw [hexec .modifyQp hop]
        refine ⟨fun ht => congrArg _ (modifyQp_noState hq ho ht), fun ht h0 hs hm => congrArg _ (modifyQp_refused hq ho ht h0 hs hm),
          ?reset, ?initBad, ?initRights, ?initOk, ?rtr, ?rts, ?sqd, ?resumed, ?error⟩
        case reset =>
          intro ht
          rw [modifyQp_toReset hq ho ht]
          split
          next hs => exact ⟨_, _, q, rfl, rfl, hq, hs, rfl⟩
          next hs =>
            obtain ⟨g, hg, hst, hslice⟩ := qpReset_qp (s := v) (q := q) n
            exact ⟨_, _, g, rfl, rfl, hg, hst, hslice⟩
        case initBad =>
          intro hs ht hi
          rw [modifyQp_toInit hq ho hs ht, if_pos hi]
        case initRights =>
          intro hs ht hi hg
          rw [modifyQp_toInit hq ho hs ht, if_neg (ne_false_of_eq_true hi), if_pos hg]
        case initOk =>
          intro hs ht hi hg
          rw [modifyQp_toInit hq ho hs ht, if_neg (ne_false_of_eq_true hi), if_neg (ne_false_of_eq_true hg)]
          rfl
        case rtr =>
          intro hs ht
          have he := modifyQp_toRtr hq ho hs ht
          refine ⟨fun hr => congrArg _ (he.trans (if_pos hr)), fun hr => ?_⟩
          obtain ⟨hst, hv, hpaths⟩ := qpToRtr_spec (s := v) (q := q) (b := b)
          exact ⟨v.setQp n (v.qpToRtr q b), _, _, congrArg _ (he.trans (if_neg (ne_false_of_eq_true hr))), rfl, qp_setQp_same, hst, hv, hpaths, rfl⟩
        case rts =>
          intro hs ht fits
          have he := modifyQp_toRts hq ho hs ht
          refine ⟨fun hf => congrArg _ (he.trans (if_neg hf)), fun hf => ?_⟩
          obtain ⟨hst, hnext, hedge, hpaths, hrto⟩ := qpToRts_spec (s := v) (q := q) (b := b)
          exact ⟨v.setQp n (v.qpToRts q b), _, _, congrArg _ (he.trans (if_pos hf)), rfl, hst, hnext, hedge, hpaths, hrto, rfl⟩
        case sqd =>
          intro hs ht
          exact ⟨q.toSqd o.id, congrArg _ (modifyQp_toSqd hq ho hs ht), rfl, rfl, rfl⟩
        case resumed =>
          intro hs ht
          have he := modifyQp_resumed hq ho hs ht
          exact ⟨fun hr => congrArg _ (he.trans (if_pos hr)), fun hr =>
            ⟨v.qpResumed q b, congrArg _ (he.trans <| if_neg (ne_false_of_eq_true hr)), qpResumed_spec⟩⟩
        case error =>
          intro hlo hhi ht
          obtain ⟨hg, hshown, -⟩ := qpError_spec (cause := none) hq (by omega)
          exact ⟨_, _, _, congrArg _ (modifyQp_toError hq ho ⟨hlo, hhi⟩ ht), rfl, hg, rfl, hshown⟩
      case query =>
        rw [hexec .queryQp hop]
        exact ⟨_, _, congrArg _ (queryQp_own hq ho), rfl, rfl, rfl⟩
      case destroy =>
        rw [hexec .destroyQp hop]
        refine ⟨fun h0 h5 => congrArg _ (destroyQp_refused hq (.inr ⟨h0, h5⟩)), fun hs => ?_⟩
        obtain ⟨w, he, hgone, hothers, hbytes, htenants⟩ := destroyQp_gone hq ho hs
        exact ⟨w, _, congrArg _ he, rfl, hgone, hothers, hbytes, htenants⟩
    case reg =>
      intro hop rights space bad st
      rw [hexec .regMr hop]
      refine ⟨fun h => congrArg _ (regMr_bad h), fun h hs => congrArg _ (regMr_refused h hs), fun h hs hq => congrArg _ (regMr_noQuota h hs hq),
        fun h hs hq hl => ?_⟩
      obtain ⟨j, hlo, hhi, hfree, he⟩ := regMr_made h hs hq hl
      exact ⟨_, _, j, v.newKey o j, congrArg _ he, rfl, hlo, hhi, hfree, look_put_same _ _ _, rfl, rfl, rfl, rfl, rfl, rfl,
        fun i hi => look_put_ne _ _ _ _ hi.symm, fun _ => rfl, by simp [sameTenants]⟩
    case dereg =>
      intro hop key
      rw [hexec .deregMr hop]
      refine ⟨fun h => congrArg _ (deregMr_absent h), fun k hk => ⟨fun h => congrArg _ (deregMr_foreign hk h), fun ht hs h2 => ?_,
        fun ht hs h2 => ?_⟩⟩
      · rw [deregMr_own hk ht hs, if_pos h2]
      · rw [deregMr_own hk ht hs, if_neg h2]
        exact ⟨_, rfl, rfl, look_put_same _ _ _, fun i hi => look_put_ne _ _ _ _ hi.symm⟩

end Sys2Proof.Machine
end

section

/-! ## O45 and O47: what the RTE sends -/

namespace Sys2Proof.Machine

/-! ### The Coffer's units and the network (R115, R203) -/

section
variable {s : State} {n : Nat} {q : Qp}

theorem deferUnit_rte (slice : Option Nat) : (s.deferUnit slice).rte = s.rte := by
  cases slice <;> rfl

theorem offer_rte (e : Nat) (slice : Option Nat) (c : Nat) : (s.offer e slice c).2.rte = s.rte := by
  unfold State.offer
  split
  · rfl
  · extract_lets
    split
    · rfl
    · exact deferUnit_rte _

/-- A packet takes of its QP's credit alone. -/
theorem txCredit_spec {bytes : Nat} (hq : s.qp n = some q) : (s.txCredit n bytes).2.mem = s.mem ∧ (s.txCredit n bytes).2.rings = s.rings ∧
    ∃ c, (s.txCredit n bytes).2.qp n = some { q with credit := c } := by
  obtain ⟨hmem, hrings, -⟩ := offer_frame s 1 (some q.slice) s.txCost
  have hqp := (qp_of_rte (i := n) (offer_rte (s := s) 1 (some q.slice) s.txCost)).trans hq
  simp only [State.txCredit, hq]
  split
  · exact ⟨rfl, rfl, _, qp_setQp_same⟩
  · split
    · exact ⟨hmem, hrings, _, qp_setQp_same⟩
    · exact ⟨hmem, hrings, q.credit, hqp⟩

/-- A packet that is handed to transmission counts, and nothing else changes but the packet path. -/
theorem rteSend_ctl (s : State) (q : Qp) (code path psn : Nat) (body : List Byte) : CtlFrame s (s.rteSend q code path psn body) := ⟨_, _, _, rfl⟩

end

/-! ### QPs that send (R131, R137, R138) -/

/-- What sending leaves of a QP: packets that are new to its unacknowledged ones have a transmission number of their own. -/
structure QpSent (q g : Qp) : Prop where
  st : g.st = q.st
  edge : g.edge = q.edge
  rnrTries : g.rnrTries = q.rnrTries
  waitRnr : g.waitRnr = q.waitRnr
  order : q.order ≤ g.order
  unacked : ∀ x ∈ g.unacked, x ∈ q.unacked ∨ q.order ≤ x.order

/-- Every work request of a QP stands in the other. -/
def WorkKept (q g : Qp) : Prop := ∀ w ∈ q.work, ∃ v ∈ g.work, v.op = w.op ∧ v.opcode = w.opcode ∧ v.len = w.len

theorem QpSent.refl (q : Qp) : QpSent q q := ⟨rfl, rfl, rfl, rfl, Nat.le_refl _, fun _ h => .inl h⟩

theorem QpSent.trans {q g r : Qp} (h : QpSent q g) (k : QpSent g r) : QpSent q r where
  st := k.st.trans h.st
  edge := k.edge.trans h.edge
  rnrTries := k.rnrTries.trans h.rnrTries
  waitRnr := k.waitRnr.trans h.waitRnr
  order := h.order.trans k.order
  unacked x hx := (k.unacked x hx).elim (h.unacked x) fun hx => .inr (h.order.trans hx)

theorem WorkKept.of_eq {q g : Qp} (h : g.work = q.work) : WorkKept q g := fun w hw => ⟨w, h ▸ hw, rfl, rfl, rfl⟩

theorem WorkKept.trans {q g r : Qp} (h : WorkKept q g) (k : WorkKept g r) : WorkKept q r := fun w hw => by
  obtain ⟨v, hv, hop, hopc, hlen⟩ := h w hw
  obtain ⟨x, hx, kop, kopc, klen⟩ := k v hv
  exact ⟨x, hx, kop.trans hop, kopc.trans hopc, klen.trans hlen⟩

/-- The first packet of a work request marks it as sent, and nothing else of it. -/
theorem advanced_work (q : Qp) (p : SentPkt) : WorkKept q (q.advanced p) := fun w hw => by
  refine ⟨_, List.mem_map_of_mem hw, ?_⟩
  split <;> exact ⟨rfl, rfl, rfl⟩

/-- A QP sends: memory and the rings are as they were, and of the QP what `QpSent` says. -/
structure Transmits (n : Nat) (s t : State) : Prop where
  mem : t.mem = s.mem
  rings : t.rings = s.rings
  qp : ∀ q, s.qp n = some q → ∃ g, t.qp n = some g ∧ QpSent q g ∧ WorkKept q g

namespace Transmits
variable {n : Nat} {s t u : State}

theorem refl (s : State) : Transmits n s s := ⟨rfl, rfl, fun q h => ⟨q, h, .refl q, .of_eq rfl⟩⟩

theorem trans (h : Transmits n s t) (k : Transmits n t u) : Transmits n s u where
  mem := k.mem.trans h.mem
  rings := k.rings.trans h.rings
  qp q hq := by
    obtain ⟨g, hg, hsent, hwork⟩ := h.qp q hq
    obtain ⟨r, hr, ksent, kwork⟩ := k.qp g hg
    exact ⟨r, hr, hsent.trans ksent, hwork.trans kwork⟩

theorem ofRte (hm : t.mem = s.mem) (hr : t.rings = s.rings) (h : t.rte = s.rte) : Transmits n s t :=
  ⟨hm, hr, fun q hq => ⟨q, (qp_of_rte h).trans hq, .refl q, .of_eq rfl⟩⟩

theorem ofCtl (h : CtlFrame s t) : Transmits n s t := by
  obtain ⟨_, _, _, rfl⟩ := h
  exact ofRte rfl rfl rfl

theorem foldl {α : Type} {f : State → α → State} (hf : ∀ s x, Transmits n s (f s x)) (l : List α) (s : State) : Transmits n s (l.foldl f s) := by
  induction l generalizing s with
  | nil => exact refl s
  | cons x xs ih => exact (hf s x).trans (ih _)

theorem setQp {q g : Qp} (hq : s.qp n = some q) (h : QpSent q g) (hw : WorkKept q g) : Transmits n s (s.setQp n g) where
  mem := rfl
  rings := rfl
  qp r hr := by
    cases hq.symm.trans hr
    exact ⟨g, qp_setQp_same, h, hw⟩

theorem txCredit {q : Qp} {bytes : Nat} (hq : s.qp n = some q) : Transmits n s (s.txCredit n bytes).2 := by
  obtain ⟨hmem, hrings, c, hc⟩ := txCredit_spec (bytes := bytes) hq
  refine ⟨hmem, hrings, fun r hr => ?_⟩
  cases hq.symm.trans hr
  exact ⟨_, hc, ⟨rfl, rfl, rfl, rfl, Nat.le_refl _, fun _ h => .inl h⟩, .of_eq rfl⟩

theorem deferOp (id : Nat) : Transmits n s (s.deferOp id) := ofRte rfl rfl rfl

theorem commitOp (id : Nat) : Transmits n s (s.commitOp id) := ofRte rfl rfl rfl

theorem bump (f : Fld) : Transmits n s (s.bump f) := ofRte rfl rfl rfl

theorem rteSend (q : Qp) (code path psn : Nat) (body : List Byte) : Transmits n s (s.rteSend q code path psn body) := .ofCtl (rteSend_ctl ..)

theorem rtePump (k : Nat) : ∀ s : State, Transmits n s (State.rtePump n k s) := by
  induction k with
  | zero => exact refl
  | succ k ih =>
    intro s
    unfold State.rtePump
    split
    next => exact refl s
    next q hq =>
      split
      next => exact refl s
      next p rest _ =>
        split
        next => exact refl s
        next =>
          have hc := txCredit (bytes := p.payload.length) hq
          generalize s.txCredit n p.payload.length = r at hc ⊢
          obtain ⟨ok, t⟩ := r
          dsimp -zeta only at hc ⊢
          split
          next =>
            split
            · exact hc
            · exact hc.trans (deferOp _)
          next =>
            split
            next => exact hc
            next g hg =>
              extract_lets c numbered x loaded r v
              have hr : Transmits n t (t.setQp n r) := setQp hg ⟨rfl, rfl, rfl, rfl, Nat.le_succ _, fun y hy =>
                (List.mem_append.1 hy).imp id fun h => by rw [List.mem_singleton.1 h]⟩ (advanced_work (g.load c t.up x.psn x.bytes) x)
              exact hc.trans (hr.trans ((commitOp x.work).trans ((rteSend ..).trans (ih v))))

theorem pump (s : State) : Transmits n s (s.pump n) := by
  unfold State.pump
  split
  · exact rtePump _ _
  · exact refl s

theorem resend (s : State) (psn : Nat) : Transmits n s (s.resend n psn) := by
  unfold State.resend
  split
  next => exact refl s
  next q hq =>
    split
    next => exact refl s
    next p _ =>
      split
      next => exact refl s
      next =>
        have hc := txCredit (bytes := p.payload.length) hq
        generalize s.txCredit n p.payload.length = r at hc ⊢
        obtain ⟨ok, t⟩ := r
        dsimp -zeta only at hc ⊢
        split
        next => exact hc
        next =>
          split
          next => exact hc
          next g hg =>
            extract_lets c x loaded r
            have hr : Transmits n t (t.setQp n r) := by
              refine setQp hg ⟨rfl, rfl, rfl, rfl, Nat.le_succ _, fun y hy => ?_⟩ (.of_eq rfl)
              obtain ⟨z, hz, rfl⟩ := List.mem_map.1 hy
              split
              · exact .inr (Nat.le_refl _)
              · exact .inl hz
            exact hc.trans (hr.trans ((bump _).trans (rteSend ..)))

theorem goBack (s : State) (psn : Nat) : Transmits n s (s.goBack n psn) := by
  unfold State.goBack
  split
  · exact refl s
  · exact foldl (fun s _ => resend s _) _ s

end Transmits

end Sys2Proof.Machine
end

section

/-! ## O47: work requests, Clasp waits and cancels -/

namespace Sys2Proof.Machine

/-! ### A send ring's next work request (R145, R147, R150, R153) -/

section
variable {s : State} {ring opc n : Nat} {d : Desc} {q : Qp}

theorem exec_sendFetch {c : Instr} {r : BitVec 16} (h : (c, opc) ∈ [(Instr.send r d, 1), (.sendImm r d, 2), (.write r d, 3), (.writeImm r d, 4),
    (.read r d, 5), (.fetchAdd r d, 6), (.cmpSwap r d, 7)]) : exec c s = .next (s.sendFetch opc r.toNat d) := by
  simp only [List.mem_cons, Prod.mk.injEq, List.not_mem_nil, or_false] at h
  obtain ⟨rfl, rfl⟩ | ⟨rfl, rfl⟩ | ⟨rfl, rfl⟩ | ⟨rfl, rfl⟩ | ⟨rfl, rfl⟩ | ⟨rfl, rfl⟩ | ⟨rfl, rfl⟩ := h <;> rfl

theorem sendFetch_idle (h : s.hallPaused 5 = true ∨ s.sqOf ring = none) : s.sendFetch opc ring d = s := by
  unfold State.sendFetch
  extract_lets x
  split
  next => rfl
  next hn =>
    obtain h | h := h
    · exact absurd (.inr h) hn
    · rw [h]

section
variable (hop : wqeOpcode d = opc ∨ wqeOpcode d = 0 ∨ (7 < wqeOpcode d ∧ wqeOpcode d ≠ 15)) (h5 : s.hallPaused 5 = false)
  (hq : s.sqOf ring = some (n, q))
include hop h5 hq

/-- A ring of a QP serves its next work request behind three checks. -/
theorem sendFetch_eq : s.sendFetch opc ring d =
    if q.resident = false then s.fetchCtx n
    else if s.sendReady q d = false then s
    else (s.fetch ring 1 (Desc.field d 0 4) d).elim s fun e =>
      if q.st = 5 then e.2.rteFail e.1.id stFlushed
      else if wqeOpcode d ≠ opc ∨ wqeOk d = false then e.2.rteFail e.1.id stWqeInvalid
      else e.2.wqeStart e.1 := by
  unfold State.sendFetch
  extract_lets x
  rw [if_neg (by simp [x, hop, h5]), hq]
  simp only [Bool.not_eq_true']
  cases s.fetch ring 1 (Desc.field d 0 4) d <;> rfl

theorem sendFetch_absent (hr : q.resident = false) : s.sendFetch opc ring d = s.fetchCtx n := (sendFetch_eq hop h5 hq).trans (if_pos hr)

theorem sendFetch_waits (hr : q.resident = true) (h : s.sendReady q d = false ∨ s.fetch ring 1 (Desc.field d 0 4) d = none) :
    s.sendFetch opc ring d = s := by
  rw [sendFetch_eq hop h5 hq, if_neg (ne_false_of_eq_true hr)]
  split
  next => rfl
  next hn => rw [h.resolve_left hn]; rfl

theorem sendFetch_some {o : Op} {u : State} (hr : q.resident = true) (hs : s.sendReady q d = true)
    (hf : s.fetch ring 1 (Desc.field d 0 4) d = some (o, u)) : s.sendFetch opc ring d =
    if q.st = 5 then u.rteFail o.id stFlushed
    else if wqeOpcode d ≠ opc ∨ wqeOk d = false then u.rteFail o.id stWqeInvalid
    else u.wqeStart o := by
  rw [sendFetch_eq hop h5 hq, if_neg (ne_false_of_eq_true hr), if_neg (ne_false_of_eq_true hs), hf]
  rfl

end
end

/-! ### A receive ring's next work request (R145, R147, R150, R153) -/

section
variable {s : State} {ring n : Nat} {d : Desc} {q : Qp}

theorem recvFetch_idle (h : s.hallPaused 5 = true ∨ s.rqOf ring = none) : s.recvFetch ring d = s := by
  unfold State.recvFetch
  split
  next => rfl
  next hn => rw [h.resolve_left hn]

section
variable (hq : s.rqOf ring = some (n, q)) (h5 : s.hallPaused 5 = false)
include hq h5

theorem recvFetch_eq : s.recvFetch ring d =
    if q.resident = false then s.fetchCtx n
    else (s.fetch ring 2 (Desc.field d 0 4) d).elim s fun e =>
      if q.st = 5 then e.2.rteFail e.1.id stFlushed
      else if wqeOpcode d ≠ 8 ∨ wqeOk d = false then e.2.rteFail e.1.id stWqeInvalid
      else e.2.updQp n fun q => { q with recvs := q.recvs ++ [e.1.id] } := by
  unfold State.recvFetch
  rw [if_neg (ne_true_of_eq_false h5), hq]
  simp only [Bool.not_eq_true']
  cases s.fetch ring 2 (Desc.field d 0 4) d <;> rfl

theorem recvFetch_absent (hr : q.resident = false) : s.recvFetch ring d = s.fetchCtx n := (recvFetch_eq hq h5).trans (if_pos hr)

theorem recvFetch_waits (hr : q.resident = true) (hf : s.fetch ring 2 (Desc.field d 0 4) d = none) : s.recvFetch ring d = s := by
  rw [recvFetch_eq hq h5, if_neg (ne_false_of_eq_true hr), hf]
  rfl

theorem recvFetch_some {o : Op} {u : State} (hr : q.resident = true) (hf : s.fetch ring 2 (Desc.field d 0 4) d = some (o, u)) :
    s.recvFetch ring d =
    if q.st = 5 then u.rteFail o.id stFlushed
    else if wqeOpcode d ≠ 8 ∨ wqeOk d = false then u.rteFail o.id stWqeInvalid
    else u.updQp n fun q => { q with recvs := q.recvs ++ [o.id] } := by
  rw [recvFetch_eq hq h5, if_neg (ne_false_of_eq_true hr), hf]
  rfl

end

/-- A fetch takes a descriptor off its ring and leaves the RTE alone. -/
theorem fetch_rte {kind tag : Nat} {o : Op} {u : State} (h : s.fetch ring kind tag d = some (o, u)) : u.rte = s.rte := by
  obtain ⟨r, -, -, -, rfl⟩ := fetch_eq_some.1 h
  exact s.wakeLink_rte _ _

end

/-! ### A send work request starts (R142, R143, R150, R173) -/

theorem PageFrame.rte {s t : State} (h : PageFrame s t) : t.rte = s.rte := by
  obtain ⟨_, _, _, _, rfl⟩ := h
  rfl

section
variable {s : State} {k p : Nat}

theorem fetchLater_rte (s : State) (k p : Nat) (b : Bool) : (s.fetchLater k p b).rte = s.rte := rfl
theorem moved_rte (v : State) (i : Option Nat) (c : Nat) (m : Move) (l : List (Nat × Nat × Bool)) :
    ({ (v.charge i c).addMove m with plc := { ((v.charge i c).addMove m).plc with fetches := l } } : State).rte = v.rte := rfl

theorem startFetch_rte : (s.startFetch k p).rte = s.rte := by
  unfold State.startFetch
  split
  · rfl
  · split
    · split
      · rfl
      · split
        · exact fetchLater_rte ..
        · split
          · exact fetchLater_rte ..
          next t _ =>
            extract_lets c
            clear_value c
            split
            · have hf : (s.frameFor k p 0 t).2.rte = s.rte := PageFrame.frameFor.rte
              generalize s.frameFor k p 0 t = r at hf ⊢
              obtain ⟨f, v⟩ := r
              cases f with
              | none => exact (fetchLater_rte v k p false).trans hf
              | some f => exact (moved_rte v _ c _ _).trans hf
            · exact (fetchLater_rte ..).trans (deferUnit_rte _)
    · rfl

theorem foldl_startFetch_rte (ps : List Nat) : (ps.foldl (fun s p => s.startFetch k p) s).rte = s.rte := by
  induction ps generalizing s with
  | nil => rfl
  | cons p ps ih => exact ih.trans startFetch_rte

end

/-- An operation no longer waits for the placement engine. -/
def State.unwaited (s : State) (id : Nat) : State := { s with plc := { s.plc with waits := s.plc.waits.filter (·.1 != id) } }

section
variable {s : State} {id : Nat}

theorem pagesReach_unwaited (o : TObj) (write : Bool) (ps : List Nat) : (s.unwaited id).pagesReach o write ps = s.pagesReach o write ps := by
  induction ps with
  | nil => rfl
  | cons p ps ih =>
    unfold State.pagesReach
    rw [ih]
    rfl

/-- Where pages lie does not depend on what waits for them. -/
theorem rteReach_unwaited (i : Nat) (write : Bool) (x : Space × Nat) (n : Nat) :
    (s.unwaited id).rteReach i write x n = s.rteReach i write x n := by
  unfold State.rteReach State.rangeReach
  simp only [pagesReach_unwaited]
  rfl

end

/-- A work request reads memory as it starts: it carries data, and is a SEND or a WRITE. -/
def wqeReads (d : Desc) : Prop := Desc.field d 8 4 ≠ 0 ∧ wqeOpcode d ≤ 4

theorem wqeReads_iff {d : Desc} : wqeReads d ↔ ¬ (Desc.field d 8 4 = 0 ∨ 4 < wqeOpcode d) := by rw [not_or, Nat.not_lt, wqeReads]

/-- The status of a work request's local key (R142). -/
def State.wqeStatus (s : State) (q : Qp) (d : Desc) : Nat :=
  s.keyCheck q.slice (Desc.field d 12 4) (if wqeOpcode d ≤ 4 then .localRead else .localWrite) (Desc.field d 16 8) (Desc.field d 8 4) false

/-- What its read meets (R173). -/
def State.wqeReach (s : State) (q : Qp) (d : Desc) : TierRes :=
  s.rteReach q.slice false (s.keyAt (Desc.field d 12 4) (Desc.field d 16 8)) (Desc.field d 8 4)

section
variable {u : State} {o : Op} {n : Nat} {q : Qp}

/-- The data that a work request reads. -/
def State.wqeData (s : State) (d : Desc) : List Byte × State :=
  if Desc.field d 8 4 = 0 ∨ 4 < wqeOpcode d then ([], s)
  else s.getBytes (s.keyAt (Desc.field d 12 4) (Desc.field d 16 8)).1 (s.keyAt (Desc.field d 12 4) (Desc.field d 16 8)).2 (Desc.field d 8 4)

theorem wqeData_frame (s : State) (d : Desc) : ∃ p, (s.wqeData d).2 = { s with plc := p } := by
  unfold State.wqeData
  split
  · exact ⟨_, rfl⟩
  · exact getBytes_frame ..

/-- The pages of its read are fetched. -/
def State.pagesAwaited (s : State) (d : Desc) : State :=
  match (s.keyAt (Desc.field d 12 4) (Desc.field d 16 8)).1 with
  | .tier h => s.fetchPages (h / 256) false (pagesIn (s.keyAt (Desc.field d 12 4) (Desc.field d 16 8)).2 (Desc.field d 8 4))
  | _ => s

theorem pagesAwaited_rte (s : State) (d : Desc) : (s.pagesAwaited d).rte = s.rte := by
  unfold State.pagesAwaited
  split
  · exact foldl_startFetch_rte _
  · rfl

/-- A work request in its QP, with the packets that it makes of its data. -/
def SendWork.of (o : Op) (ps : List SentPkt) : SendWork :=
  ⟨o.id, wqeOpcode o.desc, false, 0, if wqeOpcode o.desc ≤ 4 then ps.length else (ps.headD (mkPkt .unknown 0 1 0 true [] [])).span,
    Desc.field o.desc 8 4, 0, false, none⟩

/-- The work request's data is read, and it joins its QP. -/
def State.wqeGo (s : State) (o : Op) (n : Nat) (q : Qp) : State :=
  let r := s.wqeData o.desc
  let ps := q.wqePkts o r.1
  ((r.2.updQp n fun q => { q with work := q.work ++ [.of o ps] }).touchQp n).enqueue n ps

theorem findSome_work_none (hw : ∀ w ∈ q.work, w.op ≠ o.id) :
    (q.work.findSome? fun w => if w.op = o.id ∧ !w.respDone then w.result.map fun v => (w, v) else none) = none :=
  List.findSome?_eq_none_iff.2 fun w hm => if_neg fun h => hw w hm h.1

section
variable (hs : u.sqOf o.ring = some (n, q)) (hw : ∀ w ∈ q.work, w.op ≠ o.id)
include hs hw

theorem wqeStart_refused (hst : u.wqeStatus q o.desc ≠ stOk) :
    u.wqeStart o = (u.unwaited o.id).qpError n (some (o.id, u.wqeStatus q o.desc)) := by
  unfold State.wqeStart
  extract_lets p v
  rw [show v.sqOf o.ring = some (n, q) from hs]
  simp only [findSome_work_none hw]
  exact if_pos hst

theorem wqeStart_unreachable {e : Nat} (hst : u.wqeStatus q o.desc = stOk) (hr : wqeReads o.desc) (he : u.wqeReach q o.desc = .fail e) :
    u.wqeStart o = ((u.unwaited o.id).poolFault e).qpError n (some (o.id, e)) := by
  unfold State.wqeStart
  extract_lets p v
  rw [show v.sqOf o.ring = some (n, q) from hs]
  simp only [findSome_work_none hw]
  have hreach : v.rteReach q.slice false (v.keyAt (Desc.field o.desc 12 4) (Desc.field o.desc 16 8)) (Desc.field o.desc 8 4) = .fail e :=
    (rteReach_unwaited ..).trans he
  rw [if_neg (show ¬ v.keyCheck _ _ _ _ _ _ ≠ stOk from not_not.2 hst), if_neg (wqeReads_iff.1 hr), hreach]
  rfl

/-- It waits with the placement engine for its pages, and its QP stays as it is (R173). -/
theorem wqeStart_waits (hst : u.wqeStatus q o.desc = stOk) (hr : wqeReads o.desc) (he : u.wqeReach q o.desc = .wait) :
    u.wqeStart o = { ((u.unwaited o.id).pagesAwaited o.desc).begin (.op o.id) with
      plc := { ((u.unwaited o.id).pagesAwaited o.desc).plc with waits := ((u.unwaited o.id).pagesAwaited o.desc).plc.waits ++ [(o.id, .fetch)] } } := by
  unfold State.wqeStart
  extract_lets p v
  rw [show v.sqOf o.ring = some (n, q) from hs]
  simp only [findSome_work_none hw]
  have hreach : v.rteReach q.slice false (v.keyAt (Desc.field o.desc 12 4) (Desc.field o.desc 16 8)) (Desc.field o.desc 8 4) = .wait :=
    (rteReach_unwaited ..).trans he
  rw [if_neg (show ¬ v.keyCheck _ _ _ _ _ _ ≠ stOk from not_not.2 hst), if_neg (wqeReads_iff.1 hr), hreach]
  rfl

/-- It joins the QP's work, and its packets queue behind it. -/
theorem wqeStart_goes (hst : u.wqeStatus q o.desc = stOk) (hr : ¬ wqeReads o.desc ∨ u.wqeReach q o.desc = .ok) :
    u.wqeStart o = (u.unwaited o.id).wqeGo o n q := by
  unfold State.wqeStart
  extract_lets p v
  rw [show v.sqOf o.ring = some (n, q) from hs]
  simp only [findSome_work_none hw]
  have hreach : (if Desc.field o.desc 8 4 = 0 ∨ 4 < wqeOpcode o.desc then TierRes.ok
      else v.rteReach q.slice false (v.keyAt (Desc.field o.desc 12 4) (Desc.field o.desc 16 8)) (Desc.field o.desc 8 4)) = .ok := by
    split
    next => rfl
    next hn => exact (rteReach_unwaited ..).trans (hr.resolve_left (not_not.2 (wqeReads_iff.2 hn)))
  rw [if_neg (show ¬ v.keyCheck _ _ _ _ _ _ ≠ stOk from not_not.2 hst), hreach]
  rfl

end
end

end Sys2Proof.Machine
end

section

namespace Sys2Proof.Machine

section
variable {v : State} {o : Op} {n : Nat} {q : Qp}

/-- The work request stands in its QP, which may have sent some of its packets; memory and the rings are as they were. -/
theorem wqeGo_spec (hq : v.qp n = some q) : ∃ g w, (v.wqeGo o n q).qp n = some g ∧ w ∈ g.work ∧ w.op = o.id ∧ w.opcode = wqeOpcode o.desc ∧
    w.len = Desc.field o.desc 8 4 ∧ g.st = q.st ∧ (v.wqeGo o n q).mem = v.mem ∧ (v.wqeGo o n q).rings = v.rings := by
  unfold State.wqeGo State.enqueue
  extract_lets r ps
  obtain ⟨p, hp⟩ := wqeData_frame v o.desc
  have hr : r.2.qp n = some q := by rw [show r.2 = _ from hp]; exact hq
  rw [updQp_eq hr]
  have ht : ((r.2.setQp n { q with work := q.work ++ [.of o ps] }).touchQp n).qp n = some _ := qp_touchQp_same qp_setQp_same
  rw [updQp_eq ht]
  obtain ⟨r₁, h₁⟩ := touchQp_frame (r.2.setQp n { q with work := q.work ++ [.of o ps] }) n
  obtain ⟨hmem, hrings, hqp⟩ := Transmits.pump (n := n) (State.setQp ((r.2.setQp n { q with work := q.work ++ [.of o ps] }).touchQp n) n
    { q with work := q.work ++ [.of o ps], lastUse := r.2.rte.useClock + 1, queue := q.queue ++ ps })
  obtain ⟨g, hg, hsent, hwork⟩ := hqp _ qp_setQp_same
  obtain ⟨w, hw, hop, hopc, hlen⟩ := hwork (.of o ps) (List.mem_append_right _ List.mem_cons_self)
  refine ⟨g, w, hg, hw, hop, hopc, hlen, hsent.st, hmem.trans ?_, hrings.trans ?_⟩
  · rw [h₁, show r.2 = _ from hp]; rfl
  · rw [h₁, show r.2 = _ from hp]; rfl

end

/-! ### A WAIT (R154 to R156) -/

theorem not_recordReg {a : Nat} (h : 0x40020 ≤ a) (h₁ : a ≠ R.ERR_CNT_LOST) (h₂ : a ≠ R.SLC_CNT_CLASP_WAIT) : ¬ RecordReg a := by
  rintro (⟨f, rfl⟩ | rfl | rfl)
  · have := f.port_lt
    unfold R.HST_LINK at h
    omega
  · exact h₁ rfl
  · exact h₂ rfl

section
variable {s : State} {c : Clasp} {st k : Nat}

/-- A WAIT that ends leaves behind its count what records leave. -/
theorem waitEnd_record : RecordFrame (s.waitOver c st) (s.waitEnd c st) := by
  unfold State.waitEnd
  exact waitRecord_record.trans ((RecordFrame.ite (.refl _) cancelBehind_record).trans (claspSettle_record _ _))

theorem waitOf_op (h : s.waitOf k = some c) : c.op = k := by
  simpa using List.find?_some h

theorem waitOf_waitEnd : (s.waitEnd c st).waitOf c.op = none := by
  refine List.find?_eq_none.2 fun x hx => ?_
  have hm := waitEnd_record.clasps x hx
  rw [waitOver_clasps, List.mem_filter] at hm
  simpa using hm.2

/-- A WAIT that times out is counted (R156). -/
theorem waitEnd_timeout {r : Ring} {o : Op} (hr : s.ring c.ring = some r) (ho : s.op c.op = some o) :
    (s.waitEnd c stClaspTimeout).getF F.SLC_CNT_CLASP_TIMEOUT = (s.getF F.SLC_CNT_CLASP_TIMEOUT + 1) % 2 ^ 32 := by
  rw [waitEnd_record.getF (not_recordReg (by decide) (by decide) (by decide)), waitOver_some hr ho]
  unfold State.waitCount
  extract_lets v
  have hv : v.getF F.SLC_CNT_CLASP_TIMEOUT = s.getF F.SLC_CNT_CLASP_TIMEOUT := getF_of_reg (reg_bump_ne _ _ _ (by decide))
  rw [if_pos (show stClaspTimeout = 0x67 from rfl), getF_bump_same _ _ rfl, hv]
  rfl

theorem claspSettle_idle (h : s.waitReady = none) (n : Nat) : State.claspSettle n s = s := by
  cases n with
  | zero => rfl
  | succ n => simp only [State.claspSettle, h]

theorem claspSettle_succ (h : s.waitReady = some c) (n : Nat) : State.claspSettle (n + 1) s = State.claspSettle n (s.waitRecord c stOk) := by
  simp only [State.claspSettle, h]

theorem hostFault_spec (s : State) (slice status addr : Nat) : (s.hostFault slice status addr).getF F.HST_STATUS_ACCESS_FAULT = 1 ∧
    (s.hostFault slice status addr).clasps = s.clasps := by
  unfold State.hostFault
  refine ⟨?_, State.report_clasps ..⟩
  rw [report_getF _ _ _ _ _ _ _ (by decide)]
  exact getF_eventV_same _ _ _ rfl (by decide)

/-- A read of a position's counter that fails ends the WAIT, and is reported (R155). -/
theorem claspPoll_failed (hc : s.waitOf k = some c) (h : s.hallPaused 1 = false) (hs : c.source ≠ 0) {ok : Bool}
    (hok : ok = false ∨ s.accelUp c.target = false) : exec (.claspPoll k ok) s =
      .next ((s.waitEnd c stClaspFault).hostFault c.slice stClaspFault (s.accelBase c.target + s.accelCounterOff c.target)) := by
  change execClaspPoll k ok s = _
  simp only [execClaspPoll, hc]
  rw [if_neg (by simp [hs, h]), if_pos (by simpa using hok)]

/-- One that succeeds ends the WAIT where the counter has reached its threshold. -/
theorem claspPoll_read (hc : s.waitOf k = some c) (h : s.hallPaused 1 = false) (hs : c.source ≠ 0) (hup : s.accelUp c.target = true) :
    exec (.claspPoll k true) s = .next (if c.threshold ≤ s.accelCounter c.target then s.waitEnd c stOk else s) := by
  change execClaspPoll k true s = _
  simp only [execClaspPoll, hc]
  rw [if_neg (by simp [hs, h]), if_neg (by simp [hup])]

theorem claspPoll_ring (hc : s.waitOf k = some c) (hs : c.source = 0) (ok : Bool) : exec (.claspPoll k ok) s = .next s := by
  change execClaspPoll k ok s = _
  simp only [execClaspPoll, hc]
  rw [if_pos (.inl hs)]

theorem claspPoll_idle (h : s.waitOf k = none ∨ s.hallPaused 1 = true) (ok : Bool) : exec (.claspPoll k ok) s = .next s := by
  change execClaspPoll k ok s = _
  unfold execClaspPoll
  split
  next => rfl
  next c hc => rw [if_pos (.inr (h.resolve_left (by simp [hc])))]

theorem claspTimeout_idle (h : s.waitOf k = none ∨ s.hallPaused 1 = true) : exec (.claspTimeout k) s = .next s := by
  change execClaspTimeout k s = _
  unfold execClaspTimeout
  split
  next => rfl
  next c hc =>
    extract_lets ms
    rw [if_pos (h.resolve_left (by simp [hc]))]

theorem claspTimeout_some (hc : s.waitOf k = some c) (h : s.hallPaused 1 = false) : exec (.claspTimeout k) s =
    .next ((s.ripe (.op k) (10 ^ 6 * if ((s.op k).elim 0 fun o => Desc.field o.desc 10 2) = 0 then 10000
      else (s.op k).elim 0 fun o => Desc.field o.desc 10 2)).waitEnd c stClaspTimeout) := by
  change execClaspTimeout k s = _
  simp only [execClaspTimeout, hc]
  rw [if_neg (ne_true_of_eq_false h)]

end

/-- The WAIT of a descriptor. -/
def claspOf (o : Op) (ring : Nat) (d : Desc) : Clasp :=
  ⟨o.id, ring, o.owner, Desc.field d 6 1, if Desc.field d 6 1 = 0 then Desc.field d 8 2 else Desc.field d 7 1, Desc.field d 16 8⟩

/-- A WAIT holds its ring from now on (R154). -/
def State.heldBy (s : State) (x : Clasp) : State :=
  let v := { s with clasps := s.clasps ++ [x] }.begin (.op x.op)
  match v.ring x.ring with
  | some r => v.setRing x.ring { r with st := 3 }
  | none => v

section
variable {s u : State} {ring : Nat} {d : Desc} {r : Ring} {o : Op} {x : Clasp}

theorem heldBy_eq (hr : s.ring x.ring = some r) :
    s.heldBy x = ({ s with clasps := s.clasps ++ [x] }.begin (.op x.op)).setRing x.ring { r with st := 3 } := by
  unfold State.heldBy
  extract_lets v
  rw [show v.ring x.ring = some r from hr]

theorem ring_heldBy (hr : s.ring x.ring = some r) : (s.heldBy x).ring x.ring = some { r with st := 3 } := by
  rw [heldBy_eq hr]
  exact look_put_same _ _ _

theorem heldBy_frame (hr : s.ring x.ring = some r) : (s.heldBy x).clasps = s.clasps ++ [x] ∧ (s.heldBy x).ops = s.ops ∧
    sameBytes s (s.heldBy x) ∧ sameEngines s (s.heldBy x) := by
  rw [heldBy_eq hr]
  exact ⟨rfl, rfl, fun _ => rfl, rfl, rfl, rfl, rfl, rfl, rfl, rfl, rfl, rfl⟩

/-- What a WAIT may name does not depend on the WAITs of rings (R155). -/
theorem waitRights_heldBy (hr : s.ring x.ring = some r) (owner : Nat) : (s.heldBy x).waitRights owner d = s.waitRights owner d := by
  have hring (q k : Nat) : (s.heldBy x).ringIs owner q k = s.ringIs owner q k := by
    unfold State.ringIs
    by_cases hq : q = x.ring
    · simp only [hq, ring_heldBy hr, hr]
      rfl
    · have hne : (s.heldBy x).ring q = s.ring q := by
        rw [heldBy_eq hr]
        exact look_put_ne _ _ _ _ (Ne.symm hq)
      rw [hne]
  unfold State.waitRights
  rw [hring, heldBy_eq hr]
  rfl

/-- A send ring may hold a WAIT only with its QP's context at hand (R145). -/
theorem waitRing_resident (hw : s.waitRing ring = true) :
    ¬ ((s.ring ring).any (·.kind == 1) = true ∧ (s.sqOf ring).any (fun e => !e.2.resident) = true) := by
  rintro ⟨hk, hq⟩
  rw [Option.any_eq_true] at hk hq
  obtain ⟨r, hr, hk⟩ := hk
  obtain ⟨⟨n, q⟩, hq, hn⟩ := hq
  have hk : r.kind = 1 := by simpa using hk
  have hn : q.resident = false := by simpa using hn
  simp [State.waitRing, hr, hq, hk, hn] at hw

theorem ring_of_fetch {kind tag : Nat} (hf : s.fetch ring kind tag d = some (o, u)) (hr : s.ring ring = some r) :
    u.ring ring = some { r with fi := (r.fi + 1) % 65536 } := by
  obtain ⟨r', hr', -, -, rfl⟩ := fetch_eq_some.1 hf
  cases hr.symm.trans hr'
  exact fetched_ring

theorem claspWait_absent {n : Nat} {q : Qp} (hr : s.ring ring = some r) (hk : r.kind = 1) (hq : s.sqOf ring = some (n, q))
    (h : q.resident = false) : s.claspWait ring d = s.fetchCtx n := by
  unfold State.claspWait
  rw [if_pos (by simp [hr, hk, hq, h]), hq]
  rfl

theorem claspWait_idle (hw : s.waitRing ring = false)
    (h : ∀ r n q, s.ring ring = some r → r.kind = 1 → s.sqOf ring = some (n, q) → q.resident = true) : s.claspWait ring d = s := by
  unfold State.claspWait
  rw [if_neg ?_, if_pos (.inr (by simp [hw]))]
  rintro ⟨hk, hq⟩
  rw [Option.any_eq_true] at hk hq
  obtain ⟨r, hr, hk⟩ := hk
  obtain ⟨⟨n, q⟩, hq, hn⟩ := hq
  simp [h r n q hr (by simpa using hk) hq] at hn

section
variable (hw : s.waitRing ring = true) (hd : Desc.field d 4 1 = 0x0F) (hr : s.ring ring = some r)
  (h5 : r.kind = 1 ∨ r.kind = 4 → s.hallPaused 5 = false) (hf : s.fetch ring r.kind (Desc.field d 0 4) d = some (o, u))
include hw hd hr h5 hf

theorem claspWait_some : s.claspWait ring d =
    if r.kind = 1 ∧ (u.sqOf ring).any (fun e => e.2.st == 5) = true then u.rteFail o.id stFlushed
    else
      let v := u.heldBy (claspOf o ring d)
      if waitOk d = false then v.waitEnd (claspOf o ring d) (kindInvalid r.kind)
      else if u.waitRights o.owner d = false then v.waitEnd (claspOf o ring d) stRights
      else State.claspSettle v.clasps.length v := by
  have hu : u.ring ring = some { r with fi := (r.fi + 1) % 65536 } := ring_of_fetch hf hr
  unfold State.claspWait
  rw [if_neg (waitRing_resident hw), if_neg (by simp [hd, hw]), hr]
  simp only [hf]
  rw [if_neg (fun h => ne_true_of_eq_false (h5 h.1) h.2)]
  split
  next => rfl
  next =>
    rw [← waitRights_heldBy (x := claspOf o ring d) hu o.owner]
    simp only [Bool.not_eq_true']
    rfl

end
end

/-! ### Cancels (R157) -/

theorem exec_rteCancel {s w : State} {m : Master} {i : BitVec 16} (h : s.writeAt m R.RTE_CANCEL_CTRL = some w) :
    let v := w.setF F.RTE_CANCEL_CTRL_SLICE i.toNat
    let p := v.rteCancelTag i.toNat (v.reg R.RTE_CANCEL_TAG)
    exec (.rteCancel m i) s = .next (p.2.eventV F.RTE_CANCEL_RESULT_RESULT p.1.code) := by
  intro v p
  have htag : v.reg R.RTE_CANCEL_TAG = w.reg R.RTE_CANCEL_TAG := reg_setF_ne _ _ _ _ (by decide)
  have hexec : exec (.rteCancel m i) s = _ := congrArg Host.Outcome.next (openWrite_taken s w m _ _ _ h)
  rw [hexec]
  simp only [p, htag]
  rfl

/-- A cancel that finds nothing to cancel changes nothing. -/
theorem rteCancelTag_kept {s : State} {i tag : Nat} (h : (s.rteCancelTag i tag).1 ≠ .cancelled) : (s.rteCancelTag i tag).2 = s := by
  unfold State.rteCancelTag at h ⊢
  split at h
  · split at h <;> exact absurd rfl h
  · rfl

end Sys2Proof.Machine
end

section

namespace Sys2Proof.Machine

/-- Settles O47: a fetch by its checks, a start by its key and its pages, a cancel by what it finds, and a WAIT by how it ends. -/
theorem rdmaWorkRequests : Obligations.RdmaWorkRequests := by
  unfold Obligations.RdmaWorkRequests
  refine ⟨?send, ?start, ?recv, ?cancel, ?wait, ?noWait, ?settle, ?ends⟩
  case send =>
    intro s ring d c opc hmem hop
    rw [exec_sendFetch hmem]
    refine ⟨fun h => congrArg _ (sendFetch_idle h), fun n q h5 hq => ⟨fun hr => congrArg _ (sendFetch_absent hop h5 hq hr),
      fun hr h => congrArg _ (sendFetch_waits hop h5 hq hr h), fun o u hr hs hf => ?_⟩⟩
    have he := sendFetch_some hop h5 hq hr hs hf
    exact ⟨fun h => congrArg _ (he.trans (if_pos h)), fun h hbad => congrArg _ (he.trans ((if_neg h).trans (if_pos hbad))),
      fun h ho hok => congrArg _ (he.trans ((if_neg h).trans (if_neg (by simp [ho, hok]))))⟩
  case start =>
    intro u o n q hs hq hw opc len key off st reach reads
    have hv : (u.unwaited o.id).qp n = some q := hq
    have hreads : reads ↔ wqeReads o.desc := Iff.rfl
    refine ⟨fun h5 h => ?_, fun hst hr hwait => ?_, fun hst h => ?_⟩
    · by_cases hst : st = stOk
      · obtain ⟨hr, e, he⟩ := h.resolve_left (not_not.2 hst)
        rw [wqeStart_unreachable hs hw hst hr he]
        obtain ⟨hg, hshown, -⟩ := qpError_spec (cause := some (o.id, e)) ((qp_of_rte PageFrame.poolFault.rte).trans hv) h5
        exact ⟨_, hg, rfl, hshown⟩
      · rw [wqeStart_refused hs hw hst]
        obtain ⟨hg, hshown, -⟩ := qpError_spec (cause := some (o.id, st)) hv h5
        exact ⟨_, hg, rfl, hshown⟩
    · rw [wqeStart_waits hs hw hst hr hwait]
      exact ⟨List.mem_append_right _ List.mem_cons_self, (qp_of_rte (pagesAwaited_rte ..)).trans hv⟩
    · rw [wqeStart_goes hs hw hst h]
      obtain ⟨g, w, hg, hm, hop, hopc, hlen, hgst, hmem, hrings⟩ := wqeGo_spec (o := o) hv
      exact ⟨g, w, hg, hm, hop, hopc, hlen, hgst, sameBytes_of_mem hmem, hrings⟩
  case recv =>
    intro s ring d
    have hexec : exec (.recv ring d) s = .next (s.recvFetch ring.toNat d) := rfl
    rw [hexec]
    refine ⟨fun h => congrArg _ (recvFetch_idle h), fun n q hq h5 => ⟨fun hr => congrArg _ (recvFetch_absent hq h5 hr),
      fun hr h => congrArg _ (recvFetch_waits hq h5 hr h), fun o u hr hf => ?_⟩⟩
    have he := recvFetch_some hq h5 hr hf
    refine ⟨fun h => congrArg _ (he.trans (if_pos h)), fun h hbad => congrArg _ (he.trans ((if_neg h).trans (if_pos hbad))),
      fun h ho hok hsn => ?_⟩
    have hu : u.qp n = some q := (qp_of_rte (fetch_rte hf)).trans hsn
    rw [he, if_neg h, if_neg (by simp [ho, hok]), updQp_eq hu]
    exact ⟨_, rfl, rfl, qp_setQp_same, fun j hj => qp_setQp_ne hj⟩
  case cancel =>
    intro s w m i h v
    have hcode (u : State) (r : CancelResult) : (u.eventV F.RTE_CANCEL_RESULT_RESULT r.code).getF F.RTE_CANCEL_RESULT_RESULT = r.code :=
      (getF_eventV_same _ _ _ rfl (by decide)).trans (Nat.mod_eq_of_lt r.code_lt)
    exact ⟨_, _, _, exec_rteCancel h, rfl, hcode _ _, fun a ha => reg_eventV_ne _ _ _ _ fun e => ha (e ▸ List.mem_cons_self),
      (RegisterFrame.eventV _ _ _).work, rteCancelTag_kept⟩
  case wait =>
    intro s ring d r o u hd hw hr h5 hf flushed src x
    have hexec : exec (.claspWait ring d) s = .next (s.claspWait ring.toNat d) := rfl
    rw [hexec]
    have he := claspWait_some hw hd hr h5 hf
    have hflushed : flushed = true ↔ r.kind = 1 ∧ (u.sqOf ring.toNat).any (fun e => e.2.st == 5) = true := by simp [flushed]
    refine ⟨fun h => congrArg _ (he.trans (if_pos (hflushed.1 h))), fun h => ?_⟩
    have he := he.trans (if_neg fun hn => ne_true_of_eq_false h (hflushed.2 hn))
    have hu : u.ring (claspOf o ring.toNat d).ring = some { r with fi := (r.fi + 1) % 65536 } := ring_of_fetch hf hr
    obtain ⟨hclasps, hops, hbytes, hengines⟩ := heldBy_frame hu
    refine ⟨u.heldBy (claspOf o ring.toNat d), hclasps, ring_heldBy hu, hops, hbytes, hengines, fun hok => ?_, fun hok hn => ?_,
      fun hok hn => ?_⟩
    · exact congrArg _ (he.trans (if_pos hok))
    · exact congrArg _ (he.trans ((if_neg (ne_false_of_eq_true hok)).trans (if_pos hn)))
    · exact congrArg _ (he.trans ((if_neg (ne_false_of_eq_true hok)).trans (if_neg (ne_false_of_eq_true hn))))
  case noWait =>
    intro s ring d hw
    exact ⟨fun r n q hr hk hq h => congrArg _ (claspWait_absent hr hk hq h), fun h => congrArg _ (claspWait_idle hw h)⟩
  case settle => exact fun v n => ⟨fun h => claspSettle_idle h n, fun c hc => claspSettle_succ hc n⟩
  case ends =>
    intro s k
    refine ⟨fun h => ⟨claspTimeout_idle h, claspPoll_idle h⟩, fun c hc h1 => ?_⟩
    obtain rfl := waitOf_op hc
    refine ⟨claspPoll_ring hc, fun hs hup hlt => ?_, fun hs hup hle => ?_, fun ok hs hok => ?_, ?_⟩
    · rw [claspPoll_read hc h1 hs hup, if_neg (Nat.not_le.2 hlt)]
    · rw [claspPoll_read hc h1 hs hup, if_pos hle]
    · obtain ⟨hshown, hclasps⟩ := hostFault_spec (s.waitEnd c stClaspFault) c.slice stClaspFault (s.accelBase c.target + s.accelCounterOff c.target)
      refine ⟨_, claspPoll_failed hc h1 hs hok, hshown, ?_, rfl⟩
      rw [State.waitOf, hclasps]
      exact waitOf_waitEnd
    · intro ms
      refine ⟨_, _, claspTimeout_some hc h1, rfl, rfl, waitOf_waitEnd, fun r o hr ho => ?_⟩
      obtain ⟨z, y, hz⟩ := ripe_eq (s := s) (k := .op c.op) (d := 10 ^ 6 * if ms = 0 then 10000 else ms)
      have hring : (s.ripe (.op c.op) (10 ^ 6 * if ms = 0 then 10000 else ms)).ring c.ring = some r := by rw [hz]; exact hr
      have hop : (s.ripe (.op c.op) (10 ^ 6 * if ms = 0 then 10000 else ms)).op c.op = some o := by rw [hz]; exact ho
      refine (waitEnd_timeout hring hop).trans ?_
      rw [hz]
      rfl

end Sys2Proof.Machine
end

section

/-! ## O45: packets at the RTE -/

namespace Sys2Proof.Machine

/-! ### Arrival (R128, R146) -/

section
variable {s : State} {p : Pkt} {q : Qp}

/-- An instruction that brings a packet of its own kind. -/
def Arrives (c : Instr) (p : Pkt) : Prop :=
  (c = .packetReceive p ∧ p.op ≠ .ack ∧ p.op ≠ .nak ∧ p.op ≠ .cnp) ∨ (c = .sackReceived p ∧ p.op = .ack) ∨
    (c = .nakReceived p ∧ p.op = .nak) ∨ (c = .cnpReceived p ∧ p.op = .cnp)

theorem Arrives.exec_eq {c : Instr} (h : Arrives c p) : exec c s = .next (s.pktArrive p) := by
  obtain ⟨rfl, ha, hn, hc⟩ | ⟨rfl, h⟩ | ⟨rfl, h⟩ | ⟨rfl, h⟩ := h
  · exact congrArg _ (if_neg (by simp [ha, hn, hc]))
  · exact congrArg _ (if_pos h)
  · exact congrArg _ (if_pos h)
  · exact congrArg _ (if_pos h)

theorem pktArrive_unanswered (h : s.answers 10 = false) : s.pktArrive p = s := if_pos (by simp [h])

theorem pktArrive_paused (h : s.answers 10 = true) (hp : s.hallPaused 0 = true ∨ s.hallPaused 5 = true) :
    s.pktArrive p = s.ingressPut (.pkt p) p.port (s.frameLen p) := (if_neg (by simp [h])).trans (if_pos hp)

/-- The state in which a packet is judged: what waited for a packet boundary has applied, and the packet counts. -/
def State.pktCounted (s : State) : State := ((s.bufferedApply 10 0).bufferedApply 10 1).rteRx

/-- The packet's QP takes it (R128). -/
def State.pktTaken (s : State) (p : Pkt) (q : Qp) : Prop :=
  (qpSprayed q = p.sprayed ∨ p.op = .cnp) ∧ 2 ≤ q.st ∧ (s.slice q.slice).state ≠ .faulted ∧ (s.slice q.slice).state ≠ .resetting

/-- A packet that a QP takes: a CNP goes back for one marked CE, and its context is used (R139, R145). -/
def State.pktUse (s : State) (p : Pkt) : State := (if p.ce then s.cnpBack p.qpn p.path else s).touchQp p.qpn

theorem pktTaken_iff : s.pktTaken p q ↔ ¬ ((qpSprayed q ≠ p.sprayed ∧ p.op ≠ .cnp) ∨ q.st < 2 ∨ (s.slice q.slice).state = .faulted ∨
    (s.slice q.slice).state = .resetting) := by
  unfold State.pktTaken
  simp only [not_or, not_and_or, not_not, Nat.not_lt, ne_eq]

theorem rteRx_reg (s : State) : let cnt := s.reg R.RTE_CNT_RX_LO + 2 ^ 32 * s.reg R.RTE_CNT_RX_HI + 1
    s.rteRx.reg R.RTE_CNT_RX_LO = cnt % 2 ^ 32 ∧ s.rteRx.reg R.RTE_CNT_RX_HI = cnt / 2 ^ 32 % 2 ^ 32 :=
  ⟨(reg_setReg_ne _ _ _ _ (by decide)).trans (reg_setReg_same _ _ _), reg_setReg_same _ _ _⟩

section
variable (ha : s.answers 10 = true) (h0 : s.hallPaused 0 = false) (h5 : s.hallPaused 5 = false)
include ha h0 h5

theorem pktArrive_eq : s.pktArrive p =
    (if s.pktCounted.shedAt 4 then s.pktCounted
      else if !p.icrcOk ∨ p.op = .unknown then s.pktCounted.rxDrop
      else match s.pktCounted.qp p.qpn with
        | none => s.pktCounted.rxDrop
        | some q =>
          if (qpSprayed q ≠ p.sprayed ∧ p.op ≠ .cnp) ∨ q.st < 2 ∨ (s.pktCounted.slice q.slice).state = .faulted ∨
            (s.pktCounted.slice q.slice).state = .resetting then s.pktCounted.rxDrop
          else if !q.resident then ((s.pktCounted.pktUse p).fetchCtx p.qpn).missPut p .context else (s.pktCounted.pktUse p).pktGo p).fenceKick
      p.qpn := by
  unfold State.pktArrive
  rw [if_neg (by simp [ha]), if_neg (by simp [h0, h5])]
  rfl

theorem pktArrive_shed (h : s.pktCounted.shedAt 4 = true) : s.pktArrive p = s.pktCounted.fenceKick p.qpn := by
  rw [pktArrive_eq ha h0 h5, if_pos h]

theorem pktArrive_dropped (h : s.pktCounted.shedAt 4 = false)
    (hd : p.icrcOk = false ∨ p.op = .unknown ∨ ∀ q, s.pktCounted.qp p.qpn = some q → ¬ s.pktCounted.pktTaken p q) :
    s.pktArrive p = s.pktCounted.rxDrop.fenceKick p.qpn := by
  rw [pktArrive_eq ha h0 h5, if_neg (ne_true_of_eq_false h)]
  split
  next => rfl
  next hn =>
    simp only [Bool.not_eq_true', not_or] at hn
    split
    next => rfl
    next q hq =>
      have hnot := (hd.resolve_left hn.1).resolve_left hn.2 q hq
      rw [if_pos (not_not.1 (mt pktTaken_iff.2 hnot))]

/-- A packet that a QP takes waits while its context is fetched, and goes on with it. -/
theorem pktArrive_taken (h : s.pktCounted.shedAt 4 = false) (hi : p.icrcOk = true) (hop : p.op ≠ .unknown)
    (hq : s.pktCounted.qp p.qpn = some q) (ht : s.pktCounted.pktTaken p q) : s.pktArrive p =
    (if q.resident = false then ((s.pktCounted.pktUse p).fetchCtx p.qpn).missPut p .context else (s.pktCounted.pktUse p).pktGo p).fenceKick p.qpn := by
  rw [pktArrive_eq ha h0 h5, if_neg (ne_true_of_eq_false h), if_neg (by simp [hi, hop])]
  simp only [hq, Bool.not_eq_true']
  rw [if_neg (pktTaken_iff.1 ht)]

end
end

/-! ### Miss buffers and fetches (R135, R145, R146) -/

section
variable {s : State} {p : Pkt} {y : MissWhy} {n path : Nat} {q : Qp}

/-- A packet joins the miss buffer of its port while that has room. -/
theorem missPut_room (h : s.missUsed p.port + s.frameLen p ≤ 4 * 2 ^ 20) : ∃ t, RegisterFrame s t ∧
    RegisterFrame { t with rte := { t.rte with miss := t.rte.miss ++ [(p, y)] } } (s.missPut p y) := by
  unfold State.missPut
  rw [if_neg (Nat.not_lt.2 h)]
  extract_lets t u
  refine ⟨t, ?_, .missShow _ _⟩
  unfold t
  split
  · exact .refl s
  · exact .begin _ _

theorem missPut_full (h : 4 * 2 ^ 20 < s.missUsed p.port + s.frameLen p) : RegisterFrame s (s.missPut p y) := by
  unfold State.missPut
  rw [if_pos h]
  split
  · exact .bump _ _
  · exact (RegisterFrame.bump _ _).trans (.event _ _)

theorem fetchCtx_qp (hq : s.qp n = some q) : (s.fetchCtx n).qp n = some { q with fetching := q.fetching || !q.resident } := by
  simp only [State.fetchCtx, hq]
  split
  next h =>
    have : (q.fetching || !q.resident) = q.fetching := by
      cases hf : q.fetching <;> simp_all
    rw [this]
    exact hq
  next h =>
    have : (q.fetching || !q.resident) = true := by simp_all
    rw [this, ((RegisterFrame.cacheShow _).trans (.begin _ _)).qp]
    exact qp_setQp_same

/-! ### CNPs (R139, R140) -/

/-- A CNP went back on a path less than its interval ago. -/
def State.cnpRecent (s : State) (q : Qp) (k : Nat) : Bool := (look q.cnpSent k).any fun t => s.up < t + s.getF (F.RTE_CC_LIMITS_CNP_INTERVAL_NS q.cc)

/-- The path of a CNP: RoCEv2 has the single one. -/
def Qp.cnpPath (q : Qp) (path : Nat) : Nat := if qpSprayed q then path else 0

theorem cnpBack_recent (hq : s.qp n = some q) (h : s.cnpRecent q (q.cnpPath path) = true) : s.cnpBack n path = s := by
  simp only [State.cnpBack, hq]
  exact if_pos h

theorem rteSend_regsBut (s : State) (q : Qp) (code path psn : Nat) (body : List Byte) :
    regsBut [R.RTE_CNT_TX_LO, R.RTE_CNT_TX_HI] s (s.rteSend q code path psn body) := fun a ha => by
  simp only [List.mem_cons, List.not_mem_nil, or_false, not_or] at ha
  exact reg_bump64_ne (Ne.symm ha.1) (Ne.symm ha.2)

theorem CtlFrame.rte {s t : State} (h : CtlFrame s t) : t.rte = s.rte := by
  obtain ⟨_, _, _, rfl⟩ := h
  rfl

theorem cnpBack_eq (hq : s.qp n = some q) (h : s.cnpRecent q (q.cnpPath path) = false) : s.cnpBack n path =
    ((s.setQp n { q with cnpSent := put q.cnpSent (q.cnpPath path) s.up }).bump F.RTE_CNT_CNP_TX_COUNT).rteSend q 0x81 (q.cnpPath path) 0
      (BitVec.ofNat 8 (q.cnpPath path) :: List.replicate 15 0) := by
  simp only [State.cnpBack, hq]
  exact if_neg (ne_true_of_eq_false h)

theorem cnpBack_sent (hq : s.qp n = some q) (h : s.cnpRecent q (q.cnpPath path) = false) :
    (s.cnpBack n path).getF F.RTE_CNT_CNP_TX_COUNT = (s.getF F.RTE_CNT_CNP_TX_COUNT + 1) % 2 ^ 32 ∧
      (s.cnpBack n path).qp n = some { q with cnpSent := put q.cnpSent (q.cnpPath path) s.up } ∧ sameBytes s (s.cnpBack n path) := by
  rw [cnpBack_eq hq h]
  refine ⟨?_, ?_, ?_⟩
  · rw [getF_of_reg (rteSend_regsBut _ _ _ _ _ _ _ (by decide)), getF_bump_same _ _ rfl]
    rfl
  · rw [qp_of_rte (rteSend_ctl ..).rte]
    exact qp_setQp_same
  · exact fun _ => rfl

/-- The rate of a path behind a CNP (R140). -/
def State.cnpRate (s : State) (q : Qp) (x : Path) : Path :=
  { x with rate := max (s.getF (F.RTE_CC_LIMITS_MIN_RATE q.cc) * 100) (x.rate * (256 - s.getF (F.RTE_CC_DEC_FACTOR q.cc)) / 256) }

theorem updPath_getElem {k i : Nat} {f : Path → Path} {x : Path} (h : q.paths[i]? = some x) :
    (q.updPath k f).paths[i]? = some (if i = k then f x else x) := by
  simp [Qp.updPath, h]

theorem cnpIn_eq (hq : s.qp n = some q) : s.cnpIn n path =
    ((s.bump F.RTE_CNT_CNP_RX_COUNT).begin (.recovery n path)).setQp n (q.updPath (q.cnpPath path) (s.cnpRate q)) := by
  unfold State.cnpIn
  exact updQp_eq (q := q) hq

end

end Sys2Proof.Machine
end

section

namespace Sys2Proof.Machine

/-! ### What a packet is to its QP -/

section
variable {s : State} {p : Pkt} {q : Qp} {k : NakKind}

theorem pktGo_ack (hq : s.qp p.qpn = some q) (h : p.op = .ack) :
    s.pktGo p = if q.st < 2 ∨ q.st = 5 then s else s.sackIn p.qpn p.argA p.placed := by
  simp only [State.pktGo, hq, h]

theorem pktGo_nak (hq : s.qp p.qpn = some q) (h : p.op = .nak) (hk : p.nak = some k) : s.pktGo p = s.nakIn p.qpn p.psn k := by
  simp only [State.pktGo, hq, h, hk]

theorem pktGo_cnp (hq : s.qp p.qpn = some q) (h : p.op = .cnp) : s.pktGo p = s.cnpIn p.qpn p.path := by
  simp only [State.pktGo, hq, h]

theorem pktGo_write (hq : s.qp p.qpn = some q) (h : p.op = .write) : s.pktGo p = s.pktMain p := by
  simp only [State.pktGo, hq, h]
  exact if_neg (by simp [PktOp.isReq])

end

/-! ### Work that the edges allow to end (R133, R148) -/

section
variable {s : State} {n : Nat} {q : Qp}

theorem sqdSettle_qp (hq : s.qp n = some q) : ∃ g, (s.sqdSettle n).qp n = some g ∧ QpSent q g := by
  simp only [State.sqdSettle, hq]
  refine ⟨_, (RecordFrame.foldl (fun _ _ => sqdEnd_record) _ _).qp.trans qp_setQp_same, ?_⟩
  exact ⟨rfl, rfl, rfl, rfl, Nat.le_refl _, fun _ h => .inl h⟩

theorem workSettle_qp (hq : s.qp n = some q) : ∃ g, (s.workSettle n).qp n = some g ∧ QpSent q g := by
  simp only [State.workSettle, hq]
  obtain ⟨g, hg, hsent⟩ := sqdSettle_qp ((RecordFrame.foldl (fun _ _ => rteEnd_record) _ _).qp.trans (qp_setQp_same (s := s) (n := n)))
  exact ⟨g, hg, hsent.st, hsent.edge, hsent.rnrTries, hsent.waitRnr, hsent.order, hsent.unacked⟩

end

theorem Transmits.ite {s t u : State} {n : Nat} {c : Prop} [Decidable c] (h : Transmits n s t) (k : Transmits n s u) :
    Transmits n s (if c then t else u) := by
  split <;> assumption

/-! ### Reports of the receiver (R137, R138) -/

/-- The edge of a sender behind a report: none lies in the past. -/
def Qp.edgeAt (q : Qp) (edge : Nat) : Nat := if psnSub edge q.edge < 2 ^ 23 then edge % 2 ^ 24 else q.edge

theorem edgeAt_self {q : Qp} (h : q.edge < 2 ^ 24) : q.edgeAt q.edge = q.edge := by
  unfold Qp.edgeAt
  split
  · exact Nat.mod_eq_of_lt h
  · rfl

/-- Paths of a QP that change leave all else. -/
theorem foldl_updPath {α : Type} (path : α → Nat) (f : α → Path → Path) (l : List α) (q : Qp) :
    ∃ ps, l.foldl (fun (q : Qp) x => q.updPath (path x) (f x)) q = { q with paths := ps } := by
  induction l generalizing q with
  | nil => exact ⟨_, rfl⟩
  | cons x xs ih =>
    obtain ⟨ps, h⟩ := ih (q.updPath (path x) (f x))
    exact ⟨ps, h⟩

/-- A QP that has taken a report: its edge, and no packet below it. -/
structure QpReported (q : Qp) (e : Nat) (g : Qp) : Prop where
  st : g.st = q.st
  edge : g.edge = e
  waitRnr : g.waitRnr = q.waitRnr
  rnrTries : e = q.edge → g.rnrTries = q.rnrTries
  unacked : ∀ x ∈ g.unacked, psnBelow x.psn e = false ∨ q.order ≤ x.order

theorem QpReported.sent {q g r : Qp} {e : Nat} (h : QpReported q e g) (ho : q.order ≤ g.order) (k : QpSent g r) : QpReported q e r where
  st := k.st.trans h.st
  edge := k.edge.trans h.edge
  waitRnr := k.waitRnr.trans h.waitRnr
  rnrTries he := k.rnrTries.trans (h.rnrTries he)
  unacked x hx := (k.unacked x hx).elim (h.unacked x) fun hx => .inr (ho.trans hx)

section
variable {s : State} {n edge : Nat} {placed : List Nat} {q : Qp}

theorem sackIn_qp (hq : s.qp n = some q) : ∃ g, (s.sackIn n edge placed).qp n = some g ∧ QpReported q (q.edgeAt edge) g := by
  unfold State.sackIn
  simp -zeta only [hq]
  extract_lets e seen fresh q₁ q₂ known left holes t u
  obtain ⟨a, b, h₁⟩ : ∃ a b, q₁ = { q with srtt := a, rto := b } := by
    unfold q₁
    split
    · exact ⟨_, _, rfl⟩
    · exact ⟨_, _, rfl⟩
  obtain ⟨ps, h₂⟩ := foldl_updPath (fun p : SentPkt => p.path) (fun p x =>
      { x with timeouts := 0, suspect := x.suspect && x.probePsn != some p.psn, probePsn := if x.probePsn = some p.psn then none else x.probePsn })
    fresh q₁
  have hq₂ : q₂ = { q with srtt := a, rto := b, paths := ps } := h₂.trans (by rw [h₁])
  have hleft : ∀ x ∈ left, psnBelow x.psn e = false := fun x hx => by
    obtain ⟨y, hy, rfl⟩ := List.mem_map.1 hx
    simpa using (List.mem_filter.1 hy).2
  have ht : t.qp n = some _ := qp_touchQp_same qp_setQp_same
  have hu : Transmits n t u := .ite (.foldl (fun _ _ => .resend _ _) _ _) (.refl _)
  obtain ⟨g₁, hg₁, hsent₁, -⟩ := hu.qp _ ht
  obtain ⟨g₂, hg₂, hsent₂⟩ := workSettle_qp hg₁
  obtain ⟨g₃, hg₃, hsent₃, -⟩ := (Transmits.pump (n := n) (u.workSettle n)).qp _ hg₂
  refine ⟨g₃, hg₃, QpReported.sent ?_ ?_ ((hsent₁.trans hsent₂).trans hsent₃)⟩
  · refine ⟨?_, rfl, ?_, fun he => ?_, fun x hx => .inl ?_⟩
    · rw [hq₂]
    · rw [hq₂]
    · rw [hq₂]
      exact if_pos he
    · exact hleft x hx
  · rw [hq₂]

end

/-! ### NAKs (R138, R143, R150) -/

/-- A NAK that ends its QP: all but a sequence error, and RNR once its retries are used up. -/
def Qp.nakFatal (q : Qp) : NakKind → Prop
  | .sequence => False
  | .rnr _ => q.rnrRetry ≤ q.rnrTries
  | _ => True

section
variable {s : State} {n psn : Nat} {q : Qp} {k : NakKind}

theorem nakIn_fatal (hq : s.qp n = some q) (h2 : 2 ≤ q.st) (h5 : q.st < 5) (hk : q.nakFatal k) :
    ∃ cause, s.nakIn n psn k = s.qpError n cause := by
  simp only [State.nakIn, hq]
  rw [if_neg (by omega)]
  cases k with
  | sequence => exact hk.elim
  | rnr c => exact ⟨_, if_pos hk⟩
  | _ => exact ⟨_, rfl⟩

/-- RNR waits the peer's timer, and counts as a retry: the sender's own edge is no news. -/
theorem nakIn_rnr {c : Nat} (hq : s.qp n = some q) (h2 : 2 ≤ q.st) (h5 : q.st < 5) (he : q.edge < 2 ^ 24) (hr : q.rnrTries < q.rnrRetry)
    (hs : qpSprayed q = true) : ∃ g, (s.nakIn n psn (.rnr c)).qp n = some g ∧ g.waitRnr = true ∧ g.rnrTries = q.rnrTries + 1 ∧ g.st = q.st := by
  obtain ⟨g, hg, hrep⟩ := sackIn_qp (edge := q.edge) (placed := []) hq
  rw [edgeAt_self he] at hrep
  refine ⟨{ g with rnrTries := g.rnrTries + 1, waitRnr := true }, ?_, rfl, congrArg (· + 1) (hrep.rnrTries rfl), hrep.st⟩
  simp only [State.nakIn, hq]
  rw [if_neg (by omega), if_neg (Nat.not_le.2 hr), if_pos hs, updQp_eq hg]
  exact qp_setQp_same

end

end Sys2Proof.Machine
end

section

namespace Sys2Proof.Machine

/-! ### Reports to the sender (R137) -/

/-- A QP reports: it is `g` now, memory and tenants are as they were, and registers but for the packets sent. -/
structure Reports (n : Nat) (g : Qp) (s t : State) : Prop where
  qp : t.qp n = some g
  mem : t.mem = s.mem
  tenants : sameTenants s t
  regs : regsBut [R.RTE_CNT_TX_LO, R.RTE_CNT_TX_HI] s t

section
variable {s t u : State} {n path : Nat} {q g r : Qp}

theorem Reports.trans (h : Reports n g s t) (k : Reports n r t u) : Reports n r s u where
  qp := k.qp
  mem := k.mem.trans h.mem
  tenants := h.tenants.trans k.tenants
  regs a ha := (k.regs a ha).trans (h.regs a ha)

theorem Reports.refl (hq : s.qp n = some q) : Reports n q s s := ⟨hq, rfl, by simp [sameTenants], fun _ _ => rfl⟩

theorem Reports.bytes (h : Reports n g s t) : sameBytes s t := sameBytes_of_mem h.mem

theorem reports_setQp (s : State) (n : Nat) (q : Qp) : Reports n q s (s.setQp n q) :=
  ⟨qp_setQp_same, rfl, ⟨rfl, rfl, rfl, rfl, rfl, rfl⟩, fun _ _ => rfl⟩

theorem reports_rteSend {code psn : Nat} {body : List Byte} (hq : s.qp n = some q) : Reports n q s (s.rteSend g code path psn body) where
  qp := (qp_of_rte (rteSend_ctl ..).rte).trans hq
  mem := rfl
  tenants := (rteSend_ctl ..).tenants
  regs := rteSend_regsBut _ _ _ _ _ _

theorem sendSack_reports (hq : s.qp n = some q) : Reports n { q with unreported := 0 } s (s.sendSack n path) := by
  simp only [State.sendSack, hq]
  split
  · exact (reports_setQp _ _ _).trans (reports_rteSend qp_setQp_same)
  · exact (reports_setQp _ _ _).trans (reports_rteSend qp_setQp_same)

theorem sendNak_reports {psn : Nat} {k : NakKind} (hq : s.qp n = some q) : Reports n q s (s.sendNak n psn k) := by
  simp only [State.sendNak, hq]
  split
  · exact reports_rteSend hq
  · exact reports_rteSend hq

/-- A QP behind the SACK that is due (R137). -/
def State.afterSack (s : State) (q : Qp) : Qp := { q with unreported := if s.getF F.RTE_SACK_PACKETS ≤ q.unreported then 0 else q.unreported }

theorem sackDue_reports (hq : s.qp n = some q) : Reports n (s.afterSack q) s (s.sackDue n) := by
  unfold State.afterSack
  simp only [State.sackDue, hq]
  split
  · exact sendSack_reports hq
  · exact .refl hq

/-- A QP that has counted a packet for the next SACK. -/
def Qp.counted (q : Qp) (path : Nat) : Qp := { q with unreported := q.unreported + 1, lastPath := path }

theorem reportOne_reports (hq : s.qp n = some q) : Reports n (q.counted path) s (s.reportOne n path) := by
  unfold State.reportOne
  extract_lets t
  have ht : RegisterFrame s t := by
    unfold t
    split
    · exact .begin _ _
    · exact .refl s
  have hregs : t.regs = s.regs := by
    unfold t
    split
    · rfl
    · rfl
  have hmem : t.mem = s.mem := by
    obtain ⟨_, _, _, h⟩ := ht
    rw [h]
  rw [updQp_eq (ht.qp.trans hq)]
  refine Reports.trans ⟨ht.qp.trans hq, hmem, ht.tenants, fun a _ => ?_⟩ (reports_setQp t n _)
  exact reg_of_regs _ _ _ hregs

theorem reportPlaced_reports (hq : s.qp n = some q) : ∃ t, Reports n (q.counted path) s t ∧ Reports n (t.afterSack (q.counted path)) t (s.reportPlaced n path) :=
  ⟨_, reportOne_reports hq, sackDue_reports (reportOne_reports hq).qp⟩

end

/-! ### Placement (R132 to R134) -/

section
variable {s : State} {n : Nat} {q : Qp} {p : Pkt} {sp : Space} {a : Nat} {bs : List Byte}

/-- A QP that has marked a packet as placed. -/
def Qp.placed (q : Qp) (p : Pkt) (links : List Nat) : Qp :=
  { q with
    arrived := q.arrived ++ [⟨p, links, none⟩]
    pushLinks := (q.pushLinks ++ links).dedup
    roce := if p.first then (p.vaddr, p.key, p.payload.length, p.msgLen)
      else (q.roce.1, q.roce.2.1, q.roce.2.2.1 + p.payload.length, q.roce.2.2.2) }

/-- V advances over what is placed, and the SACK that is due goes out. -/
def State.placedGo (s : State) (n : Nat) : State :=
  match s.qp n with
  | some q => (State.advance n (q.arrived.length + 1) s).sackDue n
  | none => s

theorem placedGo_eq (hq : s.qp n = some q) : s.placedGo n = (State.advance n (q.arrived.length + 1) s).sackDue n := by
  simp only [State.placedGo, hq]

/-- A payload outside the placement engine's objects is written, and its packet counts for the next SACK; then V may advance. -/
theorem placeAt_plain (hq : s.qp n = some q) (h : ∀ h, sp ≠ .tier h) : ∃ t,
    Reports n ((q.placed p (s.spaceLink sp).toList).counted p.path) { s with mem := s.mem.write (sp.at a) bs } t ∧
    s.placeAt n p (some (sp, a)) bs none = (State.advance n (q.arrived.length + 2) t).sackDue n := by
  have hm : ({ s with mem := s.mem.write (sp.at a) bs } : State).qp n = some q := hq
  have hr := (reports_setQp { s with mem := s.mem.write (sp.at a) bs } n (q.placed p (s.spaceLink sp).toList)).trans
    (reportOne_reports (path := p.path) qp_setQp_same)
  refine ⟨_, hr, ?_⟩
  unfold State.placeAt
  simp only [putBytes_plain h]
  rw [updQp_eq hm]
  have hlen : ((q.placed p (s.spaceLink sp).toList).counted p.path).arrived.length = q.arrived.length + 1 := List.length_append
  refine (placedGo_eq hr.qp).trans ?_
  rw [hlen]

theorem advance_idle (hq : s.qp n = some q) (h : q.arrived.find? (fun x => x.pkt.psn == q.v) = none) (k : Nat) : State.advance n k s = s := by
  cases k with
  | zero => rfl
  | succ k => simp only [State.advance, hq, h]

/-- A QP whose V has passed a packet. -/
def Qp.passed (q : Qp) (p : Pkt) : Qp :=
  { q with
    v := psnAdd q.v (q.psnsOf p)
    arrived := q.arrived.filter (fun y => y.pkt.psn != p.psn)
    msn := q.msn + b2n (p.last && p.op.isReq) }

/-- The last packet of a message draws a SACK, behind which nothing is to report. -/
def Qp.settled (q : Qp) (p : Pkt) : Qp := { q with unreported := if p.last then 0 else q.unreported }

/-- V passes a WRITE's packet that no zero-length read holds; the last packet of its message draws a SACK. -/
theorem advance_write {x : InPkt} (hq : s.qp n = some q) (hx : q.arrived.find? (fun x => x.pkt.psn == q.v) = some x) (hp : q.pushing = [])
    (hop : x.pkt.op = .write) (ho : x.pkt.last = false ∨ q.pushOthers x.pkt x.links (s.slice q.slice).link = []) (k : Nat) :
    ∃ t, Reports n ((q.passed x.pkt).settled x.pkt) s t ∧ State.advance n (k + 1) s = State.advance n k t := by
  have hnoReq : ¬ (x.pkt.op = .readReq ∨ x.pkt.atomic = true) := by simp [Pkt.atomic, hop]
  have hdeliver {t : State} {g : Qp} (hg : t.qp n = some g) : t.deliver n x = t := by simp only [State.deliver, hg, hop]
  have hothers : ¬ (x.pkt.last = true ∧ (!(q.pushOthers x.pkt x.links (s.slice q.slice).link).isEmpty) = true) := by
    obtain h | h := ho <;> simp [h]
  simp only [State.advance, hq, hx, hp]
  rw [if_neg (by simp), if_neg hothers, if_neg hnoReq, updQp_eq hq]
  by_cases hl : x.pkt.last = true
  · rw [if_pos hl, hdeliver qp_setQp_same]
    refine ⟨_, ?_, rfl⟩
    rw [Qp.settled, if_pos hl]
    exact (reports_setQp s n (q.passed x.pkt)).trans (sendSack_reports (q := q.passed x.pkt) qp_setQp_same)
  · rw [if_neg hl]
    refine ⟨_, ?_, rfl⟩
    rw [Qp.settled, if_neg hl]
    exact reports_setQp s n (q.passed x.pkt)

end

end Sys2Proof.Machine
end

section

namespace Sys2Proof.Machine

/-! ### A WRITE's packet (R128, R132, R135, R142, R143) -/

/-- A packet keeps all that its header says when its address is resolved (R127). -/
theorem resolve_spec (q : Qp) (p : Pkt) : (q.resolve p).op = p.op ∧ (q.resolve p).psn = p.psn ∧ (q.resolve p).path = p.path ∧
    (q.resolve p).fence = p.fence ∧ (q.resolve p).last = p.last := by
  unfold Qp.resolve
  split
  · exact ⟨rfl, rfl, rfl, rfl, rfl⟩
  · extract_lets send
    split
    · split <;> exact ⟨rfl, rfl, rfl, rfl, rfl⟩
    · exact ⟨rfl, rfl, rfl, rfl, rfl⟩

/-- A PSN that V has passed, or that has arrived (R132). -/
abbrev Qp.known (q : Qp) (psn : Nat) : Prop := 2 ^ 23 ≤ psnSub psn q.v ∨ q.arrived.any (fun y => y.pkt.psn == psn) = true

/-- A slice that freezes or stands still takes no message that has not begun (Table 06-15). -/
abbrev State.pktHeld (s : State) (q : Qp) (x : Pkt) : Prop :=
  ((s.slice q.slice).freezing = true ∨ (s.slice q.slice).state ≠ .active) ∧ q.begun x = false

/-- A WRITE's packet that passed every check is placed, or waits behind a fence. -/
def State.pktPlace (s : State) (n : Nat) (q : Qp) (x : Pkt) : State :=
  let others := if x.fence then
    q.pushOthers { x with op := .write } (0x100 :: (s.spaceLink (s.keyAt x.key x.vaddr).1).toList) 0 else []
  if others.isEmpty then s.place n x else (s.pushStart n others).missPut x .fence

section
variable {s : State} {p : Pkt} {q : Qp}

/-- What the checks of a WRITE's packet come to, in their order. -/
theorem pktMain_write {x : Pkt} (hq : s.qp p.qpn = some q) (hx : q.resolve p = x) (hop : x.op = .write) : s.pktMain p =
    if q.st = 5 then q.nak.elim s fun k => (s.bump F.RTE_CNT_NAK_COUNT).sendNak p.qpn x.psn k
    else if q.known x.psn then s.reportPlaced p.qpn x.path
    else if 1024 ≤ psnSub x.psn q.v then s.rxDrop
    else if s.pktHeld q x then s.sendNak p.qpn x.psn (.rnr (fieldAt q.attr 74 1))
    else if qpSprayed q = false ∧ psnSub x.psn q.v ≠ 0 then s.rxDrop.sendNak p.qpn q.v .sequence
    else if s.keyCached x.key = false then (s.fetchKey (x.key / 256)).missPut x (.key (x.key / 256))
    else if x.fence = true ∧ (psnBelow q.v (q.firstPsn x) = true ∨ q.pushing ≠ []) then s.missPut x .fence
    else s.pktPlace p.qpn q x := by
  have hkept : q.kept.find? (fun e => x.atomic && e.1 == x.psn) = none := List.find?_eq_none.2 fun e _ => by simp [Pkt.atomic, hop]
  have hrnr : s.rnrBack p.qpn x.psn = s.sendNak p.qpn x.psn (.rnr (fieldAt q.attr 74 1)) := by simp only [State.rnrBack, hq]
  simp only [State.pktMain, hq, hx, hkept, hop, PktOp.isReq, PktOp.right, hrnr, Option.isSome_some, reduceCtorEq, true_and, and_true, false_and,
    and_false, if_true, if_false, Bool.not_eq_true', List.isEmpty_eq_false_iff]
  split
  · cases q.nak <;> rfl
  · rfl

/-- A WRITE without a fence is placed by its key. -/
theorem pktPlace_unfenced {n : Nat} {x : Pkt} (hq : s.qp n = some q) (hop : x.op = .write) (hf : x.fence = false) :
    s.pktPlace n q x = s.placeKey n q x .remoteWrite none := by
  have hplace : s.place n x = s.placeKey n q x .remoteWrite none := by
    simp only [State.place, hq, hop, PktOp.right]
    exact if_neg (by simp)
  unfold State.pktPlace
  rw [if_neg (ne_true_of_eq_false hf)]
  exact hplace

section
variable {x : Pkt} {n : Nat} (hop : x.op = .write)
include hop

/-- A WRITE's packet whose key fails its check. -/
theorem placeKey_refused (hst : s.keyCheck q.slice x.key .remoteWrite x.vaddr x.payload.length false ≠ stOk) :
    s.placeKey n q x .remoteWrite none = s.respFail n x.psn (s.keyCheck q.slice x.key .remoteWrite x.vaddr x.payload.length false) := by
  have hspan : x.span = x.payload.length := by simp only [Pkt.span, hop]
  have hatomic : x.atomic = false := by simp [Pkt.atomic, hop]
  unfold State.placeKey
  rw [hspan, hatomic, if_pos hst, if_pos (by rw [hop]; rfl)]

/-- One whose bytes can be reached. -/
theorem placeKey_reached (hst : s.keyCheck q.slice x.key .remoteWrite x.vaddr x.payload.length false = stOk) (hp : x.payload ≠ [])
    (hr : s.rteReach q.slice true (s.keyAt x.key x.vaddr) x.payload.length = .ok) :
    s.placeKey n q x .remoteWrite none = s.placeAt n x (some (s.keyAt x.key x.vaddr)) x.payload none := by
  have hspan : x.span = x.payload.length := by simp only [Pkt.span, hop]
  have hatomic : x.atomic = false := by simp [Pkt.atomic, hop]
  have hwrite : (x.op != .readReq) = true := by rw [hop]; rfl
  unfold State.placeKey
  rw [hspan, hatomic, hwrite, if_neg (not_not.2 hst), if_neg (by simpa using hp)]
  simp only [hr]
  rw [if_neg (by simp [hop]), if_neg (by simp [hop])]

end

/-- A failed responder check: the QP answers with NAKs from now on, and has not moved (R143). -/
theorem respFail_spec {n psn st : Nat} (hq : s.qp n = some q) (h5 : q.st ≠ 5) : ∃ g, (s.respFail n psn st).qp n = some g ∧ g.st = 5 ∧ g.v = q.v ∧
    g.nak = some (nakFor q st) ∧ (s.respFail n psn st).getF F.RTE_CNT_NAK_COUNT = (s.getF F.RTE_CNT_NAK_COUNT + 1) % 2 ^ 32 := by
  simp only [State.respFail, hq]
  rw [updQp_eq hq]
  obtain ⟨hg, -, hregs⟩ := qpError_spec (cause := none) (qp_setQp_same (s := s) (n := n) (q := { q with nak := some (nakFor q st) })) h5
  obtain ⟨hqp, -, -, hsent⟩ := sendNak_reports (psn := psn) (k := nakFor q st)
    ((qp_of_rte rfl : State.qp (State.bump _ F.RTE_CNT_NAK_COUNT) n = _).trans hg)
  refine ⟨_, hqp, rfl, rfl, rfl, ?_⟩
  have hnak : _ = s.reg F.RTE_CNT_NAK_COUNT.reg := hregs F.RTE_CNT_NAK_COUNT.reg (not_recordReg (by decide) (by decide) (by decide)) (by decide)
  rw [getF_of_reg (hsent _ (by decide)), getF_bump_same _ _ rfl, getF_of_reg hnak]
  rfl

end

end Sys2Proof.Machine
end

section

namespace Sys2Proof.Machine

section
variable {s : State} {n : Nat} {q : Qp} {p : Pkt} {sp : Space} {a : Nat} {bs : List Byte}

/-- A payload above V is placed, and V stays (R132). -/
theorem placeAt_above (hq : s.qp n = some q) (h : ∀ h, sp ≠ .tier h) (hv : q.arrived.any (fun y => y.pkt.psn == q.v) = false) (hp : p.psn ≠ q.v) :
    ∃ g y, (s.placeAt n p (some (sp, a)) bs none).qp n = some g ∧ g.v = q.v ∧ g.arrived = q.arrived ++ [y] ∧ y.pkt = p ∧
      (s.placeAt n p (some (sp, a)) bs none).mem = s.mem.write (sp.at a) bs := by
  obtain ⟨t, ht, he⟩ := placeAt_plain (p := p) (a := a) (bs := bs) hq h
  have hfind : ((q.placed p (s.spaceLink sp).toList).counted p.path).arrived.find? (fun x => x.pkt.psn == q.v) = none := by
    refine List.find?_eq_none.2 fun y hy => ?_
    rcases List.mem_append.1 hy with hy | hy
    · exact List.any_eq_false.1 hv y hy
    · rw [List.mem_singleton.1 hy]
      simpa using hp
  rw [he, advance_idle ht.qp hfind]
  have hr := ht.trans (sackDue_reports ht.qp)
  exact ⟨_, ⟨p, (s.spaceLink sp).toList, none⟩, hr.qp, rfl, rfl, rfl, hr.mem⟩

/-- A message's links hold none of its own WRITEs (R134). -/
theorem pushOthers_own {links : List Nat} (hop : p.op = .write) (hl : q.pushLinks = links.dedup) (home : Nat) : q.pushOthers p links home = [] := by
  unfold Qp.pushOthers
  rw [hl, List.filter_eq_nil_iff]
  intro l hm
  simp [hop, PktOp.completes, List.mem_dedup.1 hm]

/-- A payload at V is placed, and V passes it (R132, R133, R137). -/
theorem placeAt_next (hq : s.qp n = some q) (h : ∀ h, sp ≠ .tier h) (hop : p.op = .write) (hp : p.psn = q.v) (ha : q.arrived = [])
    (hpush : q.pushing = []) (hl : p.last = false ∨ q.pushLinks = []) :
    ∃ g, (s.placeAt n p (some (sp, a)) bs none).qp n = some g ∧ g.v = psnAdd q.v 1 ∧ g.arrived = [] ∧ g.st = q.st ∧
      (s.placeAt n p (some (sp, a)) bs none).mem = s.mem.write (sp.at a) bs ∧
      (p.last = false → g.unreported = if s.getF F.RTE_SACK_PACKETS ≤ q.unreported + 1 then 0 else q.unreported + 1) := by
  obtain ⟨t, ht, he⟩ := placeAt_plain (p := p) (a := a) (bs := bs) hq h
  generalize hg : (q.placed p (s.spaceLink sp).toList).counted p.path = g at ht
  have harr : g.arrived = [⟨p, (s.spaceLink sp).toList, none⟩] := by
    rw [← hg]
    exact (congrArg (· ++ _) ha)
  have hgv : g.v = q.v := by rw [← hg]; rfl
  have hfind : g.arrived.find? (fun x => x.pkt.psn == g.v) = some ⟨p, (s.spaceLink sp).toList, none⟩ := by simp [harr, hgv, hp]
  have hothers : p.last = false ∨ g.pushOthers p (s.spaceLink sp).toList (t.slice g.slice).link = [] := by
    refine hl.imp_right fun hl => pushOthers_own hop ?_ _
    rw [← hg]
    show (q.pushLinks ++ _).dedup = _
    rw [hl, List.nil_append]
  obtain ⟨u, hu, hadv⟩ := advance_write ht.qp hfind (by rw [← hg]; exact hpush) hop hothers 1
  have hleft : ((g.passed p).settled p).arrived = [] := by
    show g.arrived.filter _ = []
    simp [harr]
  rw [he, ha, show ([] : List InPkt).length + 2 = 1 + 1 from rfl, hadv, advance_idle hu.qp (by rw [hleft]; rfl)]
  have hs := sackDue_reports hu.qp
  have hr := (ht.trans hu).trans hs
  refine ⟨_, hr.qp, ?_, hleft, ?_, hr.mem, fun hlast => ?_⟩
  · show psnAdd g.v (g.psnsOf p) = _
    rw [hgv, Qp.psnsOf, if_neg (by simp [hop])]
  · show g.st = q.st
    rw [← hg]
    rfl
  · have hpackets : u.getF F.RTE_SACK_PACKETS = s.getF F.RTE_SACK_PACKETS := getF_of_reg ((ht.trans hu).regs _ (by decide))
    have hun : ((g.passed p).settled p).unreported = q.unreported + 1 := by
      rw [Qp.settled, hlast, ← hg]
      rfl
    rw [State.afterSack, hun, hpackets]

end

/-- Settles O45: an arrival by its checks, and a packet by what it is to its QP. -/
theorem rdmaPackets : Obligations.RdmaPackets := by
  unfold Obligations.RdmaPackets
  refine ⟨?arrival, fun v n h => fenceKick_of_none h, ?miss, ?fetch, ?go⟩
  case arrival =>
    intro s p c hc
    rw [Arrives.exec_eq hc]
    refine ⟨fun h => congrArg _ (pktArrive_unanswered h), fun h hp => congrArg _ (pktArrive_paused h hp), fun ha h0 h5 => ?_⟩
    intro b v cnt taken
    obtain ⟨hlo, hhi⟩ := rteRx_reg b
    refine ⟨hlo, hhi, fun h => congrArg _ (pktArrive_shed ha h0 h5 h), fun h hd => congrArg _ (pktArrive_dropped ha h0 h5 h hd),
      fun q h hi hop hq ht => ?_⟩
    have he := pktArrive_taken ha h0 h5 h hi hop hq ht
    exact ⟨fun hr => congrArg _ (he.trans (congrArg (State.fenceKick · p.qpn) (if_pos hr))),
      fun hr => congrArg _ (he.trans (congrArg (State.fenceKick · p.qpn) (if_neg (ne_false_of_eq_true hr))))⟩
  case miss =>
    intro v p y
    refine ⟨fun h => ?_, fun h => (missPut_full h).rte⟩
    obtain ⟨t, ht, hp⟩ := missPut_room (y := y) h
    rw [hp.rte, ht.rte]
    exact ⟨rfl, rfl, ht.bytes.trans hp.bytes, ht.tenants.trans hp.tenants⟩
  case fetch =>
    intro v n path q hq
    exact ⟨fetchCtx_qp hq, fun h => cnpBack_recent hq h, fun h => cnpBack_sent hq h⟩
  case go =>
    intro v p q hq
    refine ⟨?ackIdle, ?ack, ?nak, ?rnr, ?cnp, ?error, ?write⟩
    case ackIdle =>
      intro h hst
      rw [pktGo_ack hq h, if_pos hst]
    case ack =>
      intro h h2 h5
      rw [pktGo_ack hq h, if_neg (by omega)]
      obtain ⟨g, hg, hrep⟩ := sackIn_qp (edge := p.argA) (placed := p.placed) hq
      refine ⟨g, hg, hrep.st, hrep.edge, fun x hx => ?_⟩
      rw [hrep.edge]
      exact hrep.unacked x hx
    case nak =>
      intro h h2 h5 hk
      obtain ⟨k, hk, hf⟩ : ∃ k, p.nak = some k ∧ q.nakFatal k := by
        obtain ⟨k, hk⟩ | hk | hk | ⟨hr, k, hk⟩ := hk
        · exact ⟨_, hk, trivial⟩
        · exact ⟨_, hk, trivial⟩
        · exact ⟨_, hk, trivial⟩
        · exact ⟨_, hk, hr⟩
      obtain ⟨cause, he⟩ := nakIn_fatal (psn := p.psn) hq h2 h5 hf
      obtain ⟨hg, hshown, -⟩ := qpError_spec (cause := cause) hq (by omega)
      rw [pktGo_nak hq h hk, he]
      exact ⟨_, hg, rfl, rfl, rfl, rfl, hshown⟩
    case rnr =>
      intro h h2 h5 he hr hs k hk
      rw [pktGo_nak hq h hk]
      exact nakIn_rnr hq h2 h5 he hr hs
    case cnp =>
      intro h
      rw [pktGo_cnp hq h, cnpIn_eq hq]
      exact ⟨_, qp_setQp_same, getF_bump_same _ _ rfl, fun _ => rfl, ⟨rfl, rfl, rfl, rfl, rfl, rfl⟩, fun i x hx => updPath_getElem hx⟩
    case error =>
      intro h h5
      obtain ⟨hop, hpsn, -⟩ := resolve_spec q p
      rw [pktGo_write hq h, pktMain_write hq rfl (hop.trans h), if_pos h5, hpsn]
      exact ⟨fun k hk => by rw [hk]; rfl, fun hk => by rw [hk]; rfl⟩
    case write =>
      intro h h5 _ x d again held
      obtain ⟨hxop, hpsn, hpath, hfence, hlast⟩ := resolve_spec q p
      have hop : x.op = .write := hxop.trans h
      have he := pktMain_write hq (x := x) rfl hop
      rw [if_neg h5, hpsn, hpath] at he
      rw [pktGo_write hq h]
      refine ⟨fun ha => ?again, fun ha hd => ?beyond, fun ha hd hh => ?held, fun ha hd hh hs h0 => ?order, fun ha hd hh hs => ?placed⟩
      case again =>
        rw [he, if_pos ha]
        obtain ⟨t, ht, hr⟩ := reportPlaced_reports (path := p.path) hq
        exact ⟨_, hr.qp, rfl, rfl, (ht.trans hr).bytes, (ht.trans hr).tenants⟩
      case beyond => rw [he, if_neg ha, if_pos hd]; rfl
      case held => rw [he, if_neg ha, if_neg (Nat.not_le.2 hd), if_pos hh]
      case order => rw [he, if_neg ha, if_neg (Nat.not_le.2 hd), if_neg hh, if_pos ⟨hs, h0⟩]; rfl
      case placed =>
        have hinOrder : ¬ (qpSprayed q = false ∧ psnSub p.psn q.v ≠ 0) := fun hn =>
          hs.elim (fun hs => ne_true_of_eq_false hn.1 hs) fun h0 => hn.2 h0
        rw [if_neg ha, if_neg (Nat.not_le.2 hd), if_neg hh, if_neg hinOrder] at he
        rw [he]
        refine ⟨fun hk => if_pos hk, fun hk hf hv => ?fenced, fun hk hf => ?unfenced⟩
        case fenced => rw [if_neg (ne_false_of_eq_true hk), if_pos ⟨hfence.trans hf, hv⟩]
        case unfenced =>
          intro st a
          have hxf : x.fence = false := hfence.trans hf
          rw [if_neg (ne_false_of_eq_true hk), if_neg (fun hn => ne_true_of_eq_false hxf hn.1), pktPlace_unfenced hq hop hxf]
          refine ⟨fun hst => ?_, fun hst hp hr => ?_⟩
          · rw [placeKey_refused hop hst]
            exact respFail_spec hq h5
          · rw [placeKey_reached hop hst hp hr]
            refine ⟨rfl, fun htier hv => ⟨fun hne => ?_, fun heq harr hpush hl => ?_⟩⟩
            · exact placeAt_above hq htier hv (fun hn => hne (hpsn.symm.trans hn))
            · rw [← hlast] at hl ⊢
              exact placeAt_next hq htier hop (hpsn.trans heq) harr hpush hl

end Sys2Proof.Machine
end

section

/-! ## O49: a first write in T2 without a pool

A first write to a page whose tier is T2 blanks the host memory that is to hold the page (`State.blankHome`, R163). Where the slice has no pool
of T2, the page gets no frame there and stands under its object's handle, so that its own bytes are blanked. The statement says of a PUT to an
object outside T2, by a slice without such a pool, that every byte outside the range stays. -/

namespace Sys2Proof.Machine

/-! ### A command that ends where no ring is bound -/

section
variable {s : State} {q : Nat} {x : Rec}

/-- No ring is bound, and memory is the one given. -/
def State.Ringless (m : Mem) (s : State) : Prop := s.rings = [] ∧ s.mem = m

namespace State.Ringless
variable {m : Mem}

theorem ring (h : s.Ringless m) : s.ring q = none := by rw [State.ring, h.1]; rfl

theorem waitReady (h : s.Ringless m) : s.waitReady = none := by
  unfold State.waitReady
  split
  · rfl
  · refine List.find?_eq_none.2 fun c _ => ?_
    simp [h.ring]

theorem claspSettle (h : s.Ringless m) (n : Nat) : (State.claspSettle n s).Ringless m := by
  cases n with
  | zero => exact h
  | succ n => rw [State.claspSettle, h.waitReady]; exact h

theorem drainList (h : s.Ringless m) (l : List Rec) : (State.drainList q l s).Ringless m := by
  cases l with
  | nil => exact h
  | cons x xs => rw [State.drainList, h.ring]; exact h

theorem postRaw (h : s.Ringless m) : (s.postRaw q x).Ringless m := by
  have hd : (State.drainCqRaw { s with cqWait := put s.cqWait q (s.waiting q ++ [x]), recent := (x.slice, x.source, x.tag) :: s.recent } q).Ringless m :=
    drainList (s := { s with cqWait := put s.cqWait q (s.waiting q ++ [x]), recent := (x.slice, x.source, x.tag) :: s.recent }) h _
  unfold State.postRaw
  extract_lets t
  split
  · exact hd
  · exact hd

theorem retire (n : Nat) (h : s.Ringless m) : (State.retire q n s).Ringless m := by
  induction n generalizing s with
  | zero => exact h
  | succ n ih =>
    unfold State.retire
    split
    · exact h
    · split
      next => exact h
      next o _ _ _ _ => exact ih (postRaw (s := s.dropOp o.id) h)

theorem finish {id st res eng : Nat} (h : s.Ringless m) : (s.finish id st res eng).Ringless m := by
  unfold State.finish
  split
  · exact h
  · refine claspSettle ?_ _
    unfold State.finishRaw
    split
    next => exact h
    next o _ => exact retire (s := s.setOp { o with done := some _, committed := true }) _ h

theorem plcEnd {o : Op} {st value eng : Nat} (h : s.Ringless m) : (s.plcEnd o st value eng).Ringless m := by
  unfold State.plcEnd
  refine finish ?_
  split
  · exact h
  · exact h

end State.Ringless

end

/-! ### The write -/

/-- An object of one page that belongs in T2 and has not been written. -/
def poollessObj : TObj := ⟨2, 0, 1, 0, 2, 2, false, 2, 1, 0, false, []⟩

/-- Slice 0 has that object and no pool; the second byte of its page is 7. -/
def poollessState : State :=
  { State.reset with plc := { State.reset.plc with objs := [(1, poollessObj)] }, mem := [((Space.tier 258).at 1, 7)] }

/-- A PUT of one byte at offset 0 of the object. -/
def putOne : Op := ⟨1, 1, 0, 8, 0, BitVec.ofNat 512 (5 * 2 ^ 32 + 258 * 2 ^ 96 + 2 ^ 192), 0, false, false, false, none⟩

/-- The PUT names the object, its range is at hand, and it writes one byte at offset 0. -/
theorem putOne_reaches : poollessState.tierObj 0 (plcHandle putOne.desc) = some (1, poollessObj) ∧
    poollessState.tierCheck 0 (plcHandle putOne.desc) (plcOffset putOne.desc) (plcLength putOne.desc) = stOk ∧
    poollessState.rangeReach 1 poollessObj true (pagesIn (plcOffset putOne.desc) (plcLength putOne.desc)) = .ok ∧
    plcHandle putOne.desc = 258 ∧ plcOffset putOne.desc = 0 ∧ plcLength putOne.desc = 1 := by decide +kernel

/-- The second byte of the page is blank after the PUT. -/
theorem putOne_blanks : (poollessState.plcPut putOne).mem.get ((Space.tier 258).at 1) = 0 := by decide +kernel

/-- Refutes O49: a PUT of one byte to a page of T2 that no pool holds blanks the byte behind it (R163). -/
theorem not_placementCommands : ¬ Obligations.PlacementCommands := by
  unfold Obligations.PlacementCommands
  rintro ⟨-, h, -⟩
  obtain ⟨hobj, hst, hreach, hhandle, hoff, hlen⟩ := putOne_reaches
  obtain ⟨-, -, hall, -⟩ := h poollessState putOne
  obtain ⟨-, -, -, -, -, -, -, hput, -⟩ := hall 1 poollessObj hobj
  obtain ⟨-, -, hok⟩ := hput hst
  obtain ⟨v, hv, hrings, -, hframe⟩ := hok hreach (by rw [hoff, hlen]; decide)
  obtain ⟨hkept, -⟩ := hframe rfl (fun e he => absurd he List.not_mem_nil)
  have hbyte := hkept ((Space.tier 258).at 1) (.inr (by rw [hhandle, hoff, hlen]; decide)) (.inr (.inr (by decide)))
  have hend : (poollessState.plcPut putOne).mem = v.mem := by
    rw [hv]
    exact (State.Ringless.plcEnd (m := v.mem) ⟨hrings, rfl⟩).2
  rw [← hend, putOne_blanks] at hbyte
  exact absurd hbyte (by decide)

end Sys2Proof.Machine
end

section

/-! ## Placement: objects, registers, reports and the bytes of a page

The layer under O50 and O51: what a page's change does to its object, what an error event shows and leaves alone, and where the bytes of
one page stand. -/

namespace Sys2Proof.Machine

/-! ### Objects and pages (R162) -/

section
variable {s t : State} {k j p : Nat} {x : TObj} {g : TPage} {f : TPage → TPage}

@[simp] theorem obj_setObj_same : (s.setObj k x).obj k = some x := look_put_same _ _ _

theorem obj_setObj_ne (h : j ≠ k) : (s.setObj k x).obj j = s.obj j := look_put_ne _ _ _ _ h.symm

theorem obj_of_objs (h : t.plc.objs = s.plc.objs) : t.obj k = s.obj k := congrArg (look · k) h

/-- An object with one of its pages replaced. -/
def TObj.withPage (x : TObj) (p : Nat) (g : TPage) : TObj := { x with page := put x.page p g }

@[simp] theorem at_withPage_same : (x.withPage p g).at p = g := lookD_put_same _ _ _ _

theorem at_withPage_ne (h : j ≠ p) : (x.withPage p g).at j = x.at j := lookD_put_ne _ _ _ _ _ h.symm

theorem updPage_eq (h : s.obj k = some x) : s.updPage k p f = s.setObj k (x.withPage p (f (x.at p))) := by
  rw [State.updPage, h]
  rfl

/-- Where a copy stands depends on the pools and the slices alone. -/
theorem home_congr {c : Nat} (hp : t.plc.pools = s.plc.pools) (hs : t.slices = s.slices) (hn : t.nonceBase = s.nonceBase) :
    t.home x k p c g = s.home x k p c g := by
  simp only [State.home, State.slice, hp, hs, hn]

end

/-! ### Registers that one operation writes -/

section
variable {s : State} {f g : Fld} {v : Nat} {l : List Nat}

/-- The state of placement is no register and no byte of memory. -/
theorem setPlc_frame (s : State) (p : Plc) : let t : State := { s with plc := p }
    (∀ a, t.reg a = s.reg a) ∧ (∀ f, t.getF f = s.getF f) ∧ sameBytes s t ∧ sameTenants s t :=
  ⟨fun _ => rfl, fun _ => rfl, fun _ => rfl, ⟨rfl, rfl, rfl, rfl, rfl, rfl⟩⟩

theorem RegisterFrame.plc {t : State} (h : RegisterFrame s t) : t.plc = s.plc := by
  obtain ⟨_, _, _, rfl⟩ := h
  rfl

theorem regsBut.mono {t : State} {r : List Nat} (h : regsBut l s t) (hl : l ⊆ r) : regsBut r s t := fun a ha => h a fun hn => ha (hl hn)

theorem regsBut_setF (h : f.reg ∈ l) : regsBut l s (s.setF f v) := fun _ ha => reg_setF_ne _ _ _ _ fun e => ha (e ▸ h)

theorem regsBut_eventV (h : f.reg ∈ l) : regsBut l s (s.eventV f v) := fun _ ha => reg_eventV_ne _ _ _ _ fun e => ha (e ▸ h)

theorem regsBut_bump (h : f.reg ∈ l) : regsBut l s (s.bump f) := fun _ ha => reg_bump_ne _ _ _ fun e => ha (e ▸ h)

end

/-! ### Error events (R273, R380) -/

section
variable {s : State} {e : ErrRec} {f : Fld} {k code block slice st loc : Nat}

theorem errCnt_ne (hk : k < 4) {a : Nat} (h : a < R.ERR_CNT 0 ∨ R.ERR_CNT 4 ≤ a) : R.ERR_CNT k ≠ a := by
  simp only [R.ERR_CNT] at h ⊢
  omega

theorem codeClass_lt (c : Nat) : codeClass c < 4 := Nat.mod_lt _ (by decide)

theorem classF_reg (c : Nat) : (classF c).reg = R.ERR_STATUS := by
  unfold classF
  split <;> rfl

theorem classF_ok (c : Nat) : (classF c).ok = true := by
  unfold classF
  split <;> rfl

/-- A class bit is one of the four lowest of ERR_STATUS. -/
theorem classF_bit (c : Nat) : (classF c).hi = (classF c).lo ∧ (classF c).hi < 4 := by
  unfold classF
  split <;> decide

/-- The bits of an error event ahead of its record: it is counted, and shown by its class. -/
def State.errShown (s : State) (code : Nat) : State := (s.bump (F.ERR_CNT_COUNT (codeClass code))).event (classF (codeClass code))

theorem report_eq (s : State) (code block slice st loc : Nat) : ∃ w, s.report code block slice st loc =
    ((({ s with stw := w } : State).errShown code).errRecord (codeClass code) block slice code st loc false).aer (codeClass code) := by
  unfold State.report
  dsimp only
  split
  · exact ⟨_, rfl⟩
  · exact ⟨_, rfl⟩

theorem errShown_count : (s.errShown code).getF (F.ERR_CNT_COUNT (codeClass code)) = (s.getF (F.ERR_CNT_COUNT (codeClass code)) + 1) % 2 ^ 32 := by
  refine (getF_event_reg_ne ?_).trans (getF_bump_same _ _ rfl)
  rw [classF_reg]
  exact (errCnt_ne (codeClass_lt _) (.inl (by decide))).symm

theorem errShown_class : (s.errShown code).getF (classF (codeClass code)) = 1 := by
  obtain ⟨hbit, hlt⟩ := classF_bit (codeClass code)
  refine (getF_eventV_same _ _ _ (classF_ok _) (by omega)).trans ?_
  rw [hbit, Nat.add_sub_cancel_left]
  rfl

theorem errShown_regs : regsBut [R.ERR_CNT (codeClass code), R.ERR_STATUS] s (s.errShown code) :=
  (regsBut_bump (by simp [F.ERR_CNT_COUNT])).trans (regsBut_eventV (by simp [classF_reg]))

/-- A lost record touches its counter and RING_OVERFLOW. -/
theorem errLost_getF (hok : f.ok = true) (hc : f.reg ≠ R.ERR_CNT_LOST) (ha : F.ERR_STATUS_RING_OVERFLOW.apart f = true)
    (hs : f.hi < 24 ∨ f.reg ≠ R.ERR_STATUS) : s.errLost.getF f = s.getF f :=
  (getF_eventV_apart _ _ _ _ rfl hok ha hs).trans (getF_bump_reg_ne hc.symm)

theorem errPut_getF (hok : f.ok = true) (hp : f.reg ≠ R.ERR_RING_PROD) (hc : f.reg ≠ R.ERR_CNT_LOST)
    (ha : F.ERR_STATUS_RING_OVERFLOW.apart f = true) (hs : f.hi < 24 ∨ f.reg ≠ R.ERR_STATUS) : (s.errPut e).getF f = s.getF f := by
  unfold State.errPut
  split
  · rfl
  · extract_lets prod n
    split
    · exact errLost_getF hok hc ha hs
    · split
      · exact errLost_getF (s := { s with errFail := s.errFail - 1 }) hok hc ha hs
      · exact (getF_of_regs _ _ _ (State.pf0Event_regs _ _ _)).trans (getF_setReg_ne _ _ _ _ hp.symm)

theorem errRecord_getF {c : Nat} (hok : f.ok = true) (hp : f.reg ≠ R.ERR_RING_PROD) (hc : f.reg ≠ R.ERR_CNT_LOST)
    (ha : F.ERR_STATUS_RING_OVERFLOW.apart f = true) (hs : f.hi < 24 ∨ f.reg ≠ R.ERR_STATUS) :
    (s.errRecord c block slice code st loc false).getF f = s.getF f := by
  unfold State.errRecord
  extract_lets e
  split
  · rfl
  · exact errPut_getF hok hp hc ha hs

theorem aer_getF {c : Nat} : (s.aer c).getF f = s.getF f := getF_of_regs _ _ _ (State.aer_regs _ _)

theorem overflow_apart_class (c : Nat) : F.ERR_STATUS_RING_OVERFLOW.apart (classF c) = true := by
  unfold classF
  split <;> rfl

theorem report_count : (s.report code block slice st loc).getF (F.ERR_CNT_COUNT (codeClass code)) =
    (s.getF (F.ERR_CNT_COUNT (codeClass code)) + 1) % 2 ^ 32 := by
  obtain ⟨w, hw⟩ := report_eq s code block slice st loc
  have hk := codeClass_lt code
  rw [hw, aer_getF, errRecord_getF rfl (errCnt_ne hk (.inl (by decide))) (errCnt_ne hk (.inr (by decide)))
    (Fld.apart_of_reg_ne (errCnt_ne hk (.inl (by decide))).symm) (.inr (errCnt_ne hk (.inl (by decide))))]
  exact errShown_count (s := { s with stw := w })

theorem report_class : (s.report code block slice st loc).getF (classF (codeClass code)) = 1 := by
  obtain ⟨w, hw⟩ := report_eq s code block slice st loc
  obtain ⟨-, hlt⟩ := classF_bit (codeClass code)
  rw [hw, aer_getF, errRecord_getF (classF_ok _) (by rw [classF_reg]; decide) (by rw [classF_reg]; decide) (overflow_apart_class _) (.inl (by omega))]
  exact errShown_class

/-- The record waits for the end of a pause of H0 (Table 02-8). -/
theorem errRecord_paused {c : Nat} {b : Bool} (h : s.hallPaused 0 = true) : s.errRecord c block slice code st loc b =
    { s with errHold := s.errHold ++ [⟨s.now, c, block, slice, code, st, loc, b⟩] } := if_pos h

theorem errRecord_running {c : Nat} {b : Bool} (h : s.hallPaused 0 = false) : s.errRecord c block slice code st loc b =
    s.errPut ⟨s.now, c, block, slice, code, st, loc, b⟩ := if_neg (ne_true_of_eq_false h)

/-- The ring takes records of a class. -/
def State.errTakes (s : State) (c : Nat) : Bool := s.errRingOn && bitAt (s.getF F.ERR_RING_CTRL_CLASS_MASK) c

/-- A record can be written into the ring. -/
def State.errWrites (s : State) : Bool :=
  decide ((s.reg R.ERR_RING_PROD + 2 ^ 32 - s.reg R.ERR_RING_CONS) % 2 ^ 32 < s.getF F.ERR_RING_SIZE_ENTRIES) && s.canDma (.pf0 s.errPort) &&
    s.errFail == 0

/-- The bytes of a record, at PROD. -/
def State.errMem (s : State) (e : ErrRec) : Mem :=
  s.mem.write ((Space.pf0 s.errPort).at (s.reg R.ERR_RING_BASE_LO + 2 ^ 32 * s.reg R.ERR_RING_BASE_HI +
      32 * (s.reg R.ERR_RING_PROD % s.getF F.ERR_RING_SIZE_ENTRIES)))
    (errBytes e.newel e.cls e.block e.slice e.code (shownStatus e.status) e.loc (s.reg R.ERR_RING_PROD) e.inj)

theorem errPut_idle (h : s.errTakes e.cls = false) : s.errPut e = s :=
  if_pos (by rw [← Bool.not_and, show (s.errRingOn && bitAt (s.getF F.ERR_RING_CTRL_CLASS_MASK) e.cls) = false from h]; rfl)

theorem errPut_taken (h : s.errTakes e.cls = true) : ¬ (!s.errRingOn || !bitAt (s.getF F.ERR_RING_CTRL_CLASS_MASK) e.cls) = true := by
  simpa [State.errTakes] using h

theorem errPut_lost (h : s.errTakes e.cls = true) (hw : s.errWrites = false) : ∃ n, s.errPut e = ({ s with errFail := n } : State).errLost := by
  unfold State.errPut
  rw [if_neg (errPut_taken h)]
  extract_lets prod n
  split
  next => exact ⟨s.errFail, rfl⟩
  next hopen =>
    refine ⟨s.errFail - 1, if_pos (Nat.pos_of_ne_zero fun hfail => ?_)⟩
    rw [Bool.or_eq_true, decide_eq_true_eq, not_or, Nat.not_le, Bool.not_eq_true', Bool.not_eq_false] at hopen
    rw [State.errWrites, decide_eq_true hopen.1, hopen.2, hfail] at hw
    cases hw

theorem errPut_written (h : s.errTakes e.cls = true) (hw : s.errWrites = true) :
    (s.errPut e).reg R.ERR_RING_PROD = (s.reg R.ERR_RING_PROD + 1) % 2 ^ 32 ∧ (s.errPut e).mem = s.errMem e := by
  rw [State.errWrites, Bool.and_eq_true, Bool.and_eq_true, decide_eq_true_eq, beq_iff_eq] at hw
  obtain ⟨⟨hroom, hdma⟩, hfail⟩ := hw
  unfold State.errPut
  rw [if_neg (errPut_taken h)]
  extract_lets prod n base bytes
  rw [if_neg (by rw [hdma, decide_eq_false (Nat.not_le.2 hroom)]; decide), if_neg (by omega)]
  exact ⟨(reg_of_regs _ _ _ (State.pf0Event_regs _ _ _)).trans (reg_setReg_same _ _ _), State.pf0Event_mem _ _ _⟩

/-- A function of PF0 issues requests as before where the registers of HST read as before (R294). -/
theorem canDma_pf0_congr {t : State} (p : Fin 4) (h : ∀ a, a / 65536 = 4 → t.reg a = s.reg a) (hf : t.fns = s.fns) :
    t.canDma (.pf0 p) = s.canDma (.pf0 p) := by
  have hblock : ∀ p : Fin 4, (F.HST_LINK_H0_STATE p).reg / 65536 = 4 ∧ (F.HST_FUNC_PF0_BME p).reg / 65536 = 4 ∧
      (F.HST_FUNC_PF0_FLR p).reg / 65536 = 4 := by decide
  obtain ⟨hlink, hbme, hflr⟩ := hblock p
  have hup : t.linkUp p 0 = s.linkUp p 0 := congrArg (· == 2) (getF_of_reg (h _ hlink))
  have hfn : t.fn (.pf0 p) = s.fn (.pf0 p) := by rw [State.fn, State.fn, hf]
  simp only [State.canDma, Func.port, Func.half, Func.bmeF, Func.flrF, hup, hfn, getF_of_reg (h _ hbme), getF_of_reg (h _ hflr)]

/-- What decides where a record goes reads the same in a state that has only counted and shown its event. -/
theorem errShown_reads (w : Stw) : let v := ({ s with stw := w } : State).errShown code
    v.hallPaused 0 = s.hallPaused 0 ∧ (∀ c, v.errTakes c = s.errTakes c) ∧ v.errWrites = s.errWrites ∧ v.reg R.ERR_RING_PROD = s.reg R.ERR_RING_PROD ∧
    (∀ e, v.errMem e = s.errMem e) ∧ v.getF F.ERR_CNT_LOST_COUNT = s.getF F.ERR_CNT_LOST_COUNT := by
  intro v
  have hregs : regsBut [R.ERR_CNT (codeClass code), R.ERR_STATUS] s v := errShown_regs (s := { s with stw := w })
  have hread (a : Nat) (ha : a < R.ERR_CNT 0 ∨ R.ERR_CNT 4 ≤ a) (hs : a ≠ R.ERR_STATUS) : v.reg a = s.reg a :=
    hregs a (by simp [(errCnt_ne (codeClass_lt code) ha).symm, hs])
  have hfield (f : Fld) (ha : f.reg < R.ERR_CNT 0 ∨ R.ERR_CNT 4 ≤ f.reg) (hs : f.reg ≠ R.ERR_STATUS) : v.getF f = s.getF f :=
    getF_of_reg (hread _ ha hs)
  have hsize := hfield F.ERR_RING_SIZE_ENTRIES (.inl (by decide)) (by decide)
  have hprod := hread R.ERR_RING_PROD (.inl (by decide)) (by decide)
  have hport : v.errPort = s.errPort := by
    simp only [State.errPort, hfield F.ERR_RING_CTRL_PORT (.inl (by decide)) (by decide)]
  have hdma : v.canDma (.pf0 v.errPort) = s.canDma (.pf0 s.errPort) := by
    rw [hport]
    refine canDma_pf0_congr _ (fun a ha => hread a (.inl ?_) ?_) rfl
    · simp only [R.ERR_CNT]
      omega
    · rintro rfl
      exact absurd ha (by decide)
  have hmem : v.mem = s.mem := rfl
  have hfail : v.errFail = s.errFail := rfl
  refine ⟨?_, fun c => ?_, ?_, hprod, fun e => ?_, hfield _ (.inr (by decide)) (by decide)⟩
  · rw [State.hallPaused, State.hallPaused, hfield _ (.inl (by decide)) (by decide)]
  · simp only [State.errTakes, State.errRingOn, hsize, hfield F.ERR_RING_CTRL_EN (.inl (by decide)) (by decide),
      hfield F.ERR_RING_CTRL_CLASS_MASK (.inl (by decide)) (by decide)]
  · simp only [State.errWrites, hprod, hsize, hdma, hfail, hread R.ERR_RING_CONS (.inl (by decide)) (by decide)]
  · simp only [State.errMem, hport, hprod, hsize, hmem, hread R.ERR_RING_BASE_LO (.inl (by decide)) (by decide),
      hread R.ERR_RING_BASE_HI (.inl (by decide)) (by decide)]

/-- An error event is counted and shown, and its record goes where the error ring lets it (R273, R380). -/
theorem report_shown {cls : Nat} (hc : codeClass code = cls) :
    errorShown s (s.report code block slice st loc) cls block slice code st loc false := by
  subst hc
  obtain ⟨hengines, htenants⟩ := sameServed_report s code block slice st loc
  obtain ⟨w, hw⟩ := report_eq s code block slice st loc
  obtain ⟨hpause, htakes, hwrites, hprod, hmem, hlost⟩ := errShown_reads (s := s) (code := code) w
  have hbytes : (({ s with stw := w } : State).errShown code).mem = s.mem := rfl
  have hhold : (({ s with stw := w } : State).errShown code).errHold = s.errHold := rfl
  have hnow : (({ s with stw := w } : State).errShown code).now = s.now := rfl
  refine ⟨report_count, report_class, State.report_dev _ _ _ _ _ _, hengines, htenants, fun h => ?paused,
    fun h => ⟨?hold, fun hi => ?idle, fun ht hn => ?lost, fun ht hy => ?written⟩⟩
  all_goals
    rw [hw]
    generalize (({ s with stw := w } : State).errShown code) = v at *
  case paused =>
    rw [errRecord_paused (hpause.trans h)]
    exact ⟨fun a => by rw [State.aer_mem]; exact congrArg (Mem.get · a) hbytes, by rw [State.aer_errHold, hhold, hnow]⟩
  case hold =>
    rw [errRecord_running (hpause.trans h), State.aer_errHold, State.errPut_errHold, hhold]
  case idle =>
    rw [errRecord_running (hpause.trans h), errPut_idle (e := ⟨v.now, codeClass code, block, slice, code, st, loc, false⟩) ((htakes _).trans hi)]
    exact ⟨fun a => by rw [State.aer_mem, hbytes], (aer_reg _ _ _).trans hprod⟩
  case lost =>
    obtain ⟨n, hput⟩ := errPut_lost (e := ⟨v.now, codeClass code, block, slice, code, st, loc, false⟩) ((htakes _).trans ht) (hwrites.trans hn)
    rw [errRecord_running (hpause.trans h), hput, aer_getF, aer_getF]
    refine ⟨fun a => by rw [State.aer_mem, State.errLost_mem]; exact congrArg (Mem.get · a) hbytes, ?_, ?_⟩
    · rw [← hlost]
      exact (getF_event_reg_ne (by decide)).trans (getF_bump_same _ _ rfl)
    · exact getF_eventV_same _ _ _ rfl (by decide)
  case written =>
    obtain ⟨hreg, hput⟩ := errPut_written (e := ⟨v.now, codeClass code, block, slice, code, st, loc, false⟩) ((htakes _).trans ht) (hwrites.trans hy)
    rw [errRecord_running (hpause.trans h), aer_reg, hreg, hprod, State.aer_mem, hput, hmem, hnow]
    exact ⟨rfl, rfl⟩

end

/-! ### The bytes of one page (R160, R163) -/

section
variable {s : State} {x : TObj} {k c off n : Nat}

theorem pageLen_pos : 0 < pageLen := by decide

/-- A range that does not leave its first page touches that page alone. -/
theorem pagesIn_within (hn : 0 < n) (h : off % pageLen + n ≤ pageLen) : pagesIn off n = [off / pageLen] := by
  have hlast : (off + n - 1) / pageLen = off / pageLen := by
    refine Nat.div_eq_of_lt_le ?_ ?_
    · have := Nat.div_mul_le_self off pageLen
      omega
    · have := Nat.div_add_mod off pageLen
      rw [Nat.mul_comm] at this
      rw [Nat.add_mul]
      omega
  rw [pagesIn, if_neg (by omega), hlast, Nat.add_sub_cancel_left]
  rfl

theorem objBytes_within (h : off % pageLen + n ≤ pageLen) :
    s.objBytes x k c off n = s.mem.read (s.home x k (off / pageLen) c (x.at (off / pageLen)) + off % pageLen) n := by
  rcases Nat.eq_zero_or_pos n with rfl | hn
  · rfl
  · have hlow := Nat.div_mul_le_self off pageLen
    have hhigh : off + n ≤ (off / pageLen + 1) * pageLen := by
      have := Nat.div_add_mod off pageLen
      rw [Nat.mul_comm] at this
      rw [Nat.add_mul]
      omega
    simp only [State.objBytes, pagesIn_within hn h, List.flatMap_cons, List.flatMap_nil, List.append_nil, Nat.max_eq_left hlow,
      Nat.min_eq_left hhigh, Nat.add_sub_cancel_left]

end

end Sys2Proof.Machine
end

section

/-! ## O51: the aperture and evacuations -/

namespace Sys2Proof.Machine

/-! ### Accesses of the aperture (R172 to R174, R178, R180) -/

section
variable {s : State} {b : BarWait} {m : ApMap} {x : TObj}

/-- The device takes accesses of the aperture. -/
def State.barLive (s : State) : Prop := s.dev.st = .ready ∨ s.dev.st = .shedding

/-- An access that crosses the end of its page, or that the page's mapping does not allow. -/
def BarWait.refused (b : BarWait) (m : ApMap) : Prop :=
  pageLen < b.off % pageLen + b.bytes ∨ (b.data = none ∧ m.read = false) ∨ (b.data ≠ none ∧ m.write = false)

/-- Offset in its object of an access through a mapping. -/
def BarWait.at (b : BarWait) (m : ApMap) : Nat := m.page * pageLen + b.off % pageLen

/-- What a mapped access does, by what it meets. -/
def State.barMeets (s : State) (b : BarWait) (m : ApMap) : TierRes → State
  | .ok =>
    (match b.data with
     | none => (s.heat m.obj (b.at m) b.len).send (.readData b.port b.off (s.tierRead m.obj (b.at m) b.len))
     | some l => (s.tierWrite m.obj (b.at m) l).heat m.obj (b.at m) l.length)
  | .fail st => if st = stPageLost then s.barZero b else s.barFault b
  | .wait => ({ s with plc := { s.plc with bars := s.plc.bars ++ [b] } }.begin (.op b.id)).fetchPages m.obj b.data.isSome [m.page]

theorem bar4_notLive (h : ¬ s.barLive) : s.bar4 b = s.barZero b := if_pos (not_or.1 h)

theorem bar4_live (h : s.barLive) : ¬ (s.dev.st ≠ .ready ∧ s.dev.st ≠ .shedding) := fun hn => h.elim hn.1 hn.2

theorem bar4_unmapped (h : s.barLive) (hm : s.plc.maps.find? (fun m => m.port == b.port && m.ap == b.off / pageLen) = none) :
    s.bar4 b = s.barMiss b := by
  rw [State.bar4, if_neg (bar4_live h), hm]

theorem refused_iff : b.refused m ↔
    (b.off % pageLen + b.bytes > pageLen ∨ (b.data.isNone ∧ !m.read) ∨ (b.data.isSome ∧ !m.write)) := by
  cases hd : b.data <;> simp [BarWait.refused, hd]

theorem bar4_refused (h : s.barLive) (hm : s.plc.maps.find? (fun m => m.port == b.port && m.ap == b.off / pageLen) = some m)
    (hr : s.obj m.obj = none ∨ b.refused m) : s.bar4 b = s.barMiss b := by
  rw [State.bar4, if_neg (bar4_live h), hm]
  dsimp only
  cases hx : s.obj m.obj with
  | none => rfl
  | some x => exact if_pos (refused_iff.1 (hr.resolve_left (by simp [hx])))

theorem bar4_mapped (h : s.barLive) (hm : s.plc.maps.find? (fun m => m.port == b.port && m.ap == b.off / pageLen) = some m)
    (hx : s.obj m.obj = some x) (hr : ¬ b.refused m) :
    s.bar4 b = if x.discord then s.barZero b else s.barMeets b m (s.rangeReach m.obj x b.data.isSome [m.page]) := by
  rw [State.bar4, if_neg (bar4_live h), hm]
  simp only [hx]
  rw [if_neg (fun hn => hr (refused_iff.2 hn))]
  rfl

/-- A read finds the bytes of its page (R160). -/
theorem tierRead_mapped (hx : s.obj m.obj = some x) (hr : ¬ b.refused m) (hd : b.data = none) :
    s.tierRead m.obj (b.at m) b.len = s.mem.read (s.home x m.obj m.page 0 (x.at m.page) + b.at m % pageLen) b.len := by
  have hpage : b.at m / pageLen = m.page := by
    rw [BarWait.at, Nat.add_comm, Nat.add_mul_div_right _ _ pageLen_pos, Nat.div_eq_of_lt (Nat.mod_lt _ pageLen_pos), Nat.zero_add]
  have hin : b.at m % pageLen = b.off % pageLen := by
    rw [BarWait.at, Nat.add_comm, Nat.add_mul_mod_self_right, Nat.mod_mod]
  have hfit : b.at m % pageLen + b.len ≤ pageLen := by
    rw [hin]
    refine Nat.le_of_not_lt fun hn => hr (.inl ?_)
    rwa [BarWait.bytes, hd]
  rw [State.tierRead, hx]
  exact (objBytes_within hfit).trans (by rw [hpage])

theorem barRead_spec (hx : s.obj m.obj = some x) (hr : ¬ b.refused m) (hd : b.data = none) : let t := s.barMeets b m .ok
    sameBytes s t ∧ t.regs = s.regs ∧ sameTenants s t ∧ t.outbox =
      .readData b.port b.off (s.mem.read (s.home x m.obj m.page 0 (x.at m.page) + b.at m % pageLen) b.len) :: s.outbox := by
  intro t
  obtain ⟨p, hp⟩ := heat_frame s m.obj (b.at m) b.len
  have ht : t = ({ s with plc := p } : State).send (.readData b.port b.off (s.tierRead m.obj (b.at m) b.len)) := by
    rw [← hp]
    simp only [t, State.barMeets, hd]
  rw [ht, tierRead_mapped hx hr hd]
  exact ⟨fun _ => rfl, rfl, ⟨rfl, rfl, rfl, rfl, rfl, rfl⟩, rfl⟩

theorem barZero_read (h : b.data = none) : s.barZero b = s.send (.readData b.port b.off (List.replicate b.len 0#8)) := by
  rw [State.barZero, h]

theorem barZero_write (h : b.data ≠ none) : s.barZero b = s := by
  obtain ⟨l, hl⟩ := Option.ne_none_iff_exists'.1 h
  rw [State.barZero, hl]

theorem barFault_read (h : b.data = none) : s.barFault b = (s.event F.PLC_STATUS_POOL_FAULT).barZero b := by
  rw [State.barFault, h]
  rfl

theorem barFault_write (h : b.data ≠ none) : s.barFault b = (s.event F.PLC_STATUS_POOL_FAULT).bump F.PLC_CNT_APERTURE_MISS_COUNT := by
  obtain ⟨l, hl⟩ := Option.ne_none_iff_exists'.1 h
  have hmiss : s.barFault b = (s.event F.PLC_STATUS_POOL_FAULT).barMiss b := by
    rw [State.barFault, hl]
    rfl
  exact hmiss.trans (barZero_write h)

end

/-! ### Channels and evacuations (R181) -/

section
variable {s w : State} {m : Master} {c : Fin 128} {r : Bool} {f : Fld} {v n : Nat}

theorem hbmPc_ne {a i : Nat} (h : a < R.HBM_PC 0) : R.HBM_PC i ≠ a := by
  simp only [R.HBM_PC] at h ⊢
  omega

theorem hbmPc_notMem {l : List Nat} {i : Nat} (h : ∀ a ∈ l, a < R.HBM_PC 0) : R.HBM_PC i ∉ l := fun hm => hbmPc_ne (h _ hm) rfl

theorem hbmPc_block (c : Fin 128) : R.HBM_PC c / 65536 = 25 := by
  have := c.isLt
  simp only [R.HBM_PC]
  omega

theorem regsBut_setFs {l : List Nat} {e : List (Fld × Nat)} (h : ∀ x ∈ e, x.1.reg ∈ l) : regsBut l s (s.setFs e) := by
  induction e generalizing s with
  | nil => exact .refl l s
  | cons x e ih => exact (regsBut_setF (h x List.mem_cons_self)).trans (ih fun y hy => h y (List.mem_cons_of_mem _ hy))

/-- The command register names a channel. -/
def State.evacNamed (s : State) (c n : Nat) : State := s.setFs [(F.PLC_EVAC_PC, c), (F.PLC_EVAC_RETRAIN, n)]

theorem evacNamed_regs : regsBut [R.PLC_EVAC] s (s.evacNamed v n) := regsBut_setFs (by simp [F.PLC_EVAC_PC, F.PLC_EVAC_RETRAIN])

theorem evacNamed_frame : RegisterFrame s (s.evacNamed v n) := .setFs _ _

theorem evacNamed_pc : (s.evacNamed c n).getF F.PLC_EVAC_PC = c :=
  (getF_setF_apart _ _ _ _ rfl rfl rfl).trans ((getF_setF_same _ _ _ rfl).trans (Nat.mod_eq_of_lt c.isLt))

theorem evacNamed_retrain (hn : n < 2) : (s.evacNamed v n).getF F.PLC_EVAC_RETRAIN = n :=
  (getF_setF_same _ _ _ rfl).trans (Nat.mod_eq_of_lt hn)

theorem b2n_lt (b : Bool) : b2n b < 2 := by cases b <;> decide

/-- A channel goes out of the pool, and the evacuation's status names it. -/
def State.channelLeaves (s : State) (c : Nat) : State :=
  s.setFs [(F.HBM_PC_STATE c, 1), (F.PLC_EVAC_STATUS_PC, c), (F.PLC_EVAC_STATUS_OUT, 0)]

theorem channelLeaves_regs : regsBut [R.PLC_EVAC_STATUS, R.HBM_PC v] s (s.channelLeaves v) :=
  regsBut_setFs (by simp [F.PLC_EVAC_STATUS_PC, F.PLC_EVAC_STATUS_OUT, F.HBM_PC_STATE])

theorem channelLeaves_frame : RegisterFrame s (s.channelLeaves v) := .setFs _ _

theorem channelLeaves_state : (s.channelLeaves v).getF (F.HBM_PC_STATE v) = 1 :=
  have hne : R.PLC_EVAC_STATUS ≠ R.HBM_PC v := (hbmPc_ne (by decide)).symm
  (getF_setF_reg_ne hne).trans ((getF_setF_reg_ne hne).trans (getF_setF_same _ _ _ rfl))

theorem channelLeaves_pc : (s.channelLeaves c).getF F.PLC_EVAC_STATUS_PC = c :=
  (getF_setF_apart _ _ _ _ rfl rfl rfl).trans ((getF_setF_same _ _ _ rfl).trans (Nat.mod_eq_of_lt c.isLt))

theorem channelLeaves_out : (s.channelLeaves v).getF F.PLC_EVAC_STATUS_OUT = 0 := getF_setF_same _ _ _ rfl

/-- A channel returns to the pool; the status forgets it where it names it. -/
def State.channelReleased (s : State) (c : Nat) (shown : Prop) [Decidable shown] : State :=
  if shown then (s.setF (F.HBM_PC_STATE c) 0).setF F.PLC_EVAC_STATUS_OUT 0 else s.setF (F.HBM_PC_STATE c) 0

section
variable {shown : Prop} [Decidable shown]

theorem channelReleased_frame : RegisterFrame s (s.channelReleased v shown) := .ite ((RegisterFrame.setF _ _ _).trans (.setF _ _ _)) (.setF _ _ _)

theorem channelReleased_regs : regsBut [R.PLC_EVAC_STATUS, R.HBM_PC v] s (s.channelReleased v shown) := by
  have hstate : regsBut [R.PLC_EVAC_STATUS, R.HBM_PC v] s (s.setF (F.HBM_PC_STATE v) 0) := regsBut_setF (by simp [F.HBM_PC_STATE])
  unfold State.channelReleased
  split
  · exact hstate.trans (regsBut_setF (by simp [F.PLC_EVAC_STATUS_OUT]))
  · exact hstate

theorem channelReleased_getF (hf : f.reg = R.HBM_PC v) : (s.channelReleased v shown).getF f = (s.setF (F.HBM_PC_STATE v) 0).getF f := by
  unfold State.channelReleased
  split
  · exact getF_setF_reg_ne (by rw [hf]; exact (hbmPc_ne (by decide)).symm)
  · rfl

theorem channelReleased_out (h : shown) : (s.channelReleased v shown).getF F.PLC_EVAC_STATUS_OUT = 0 := by
  rw [State.channelReleased, if_pos h]
  exact getF_setF_same _ _ _ rfl

end

theorem evac_notMem : R.PLC_EVAC ∉ [R.PLC_EVAC_STATUS, R.HBM_PC v] := by
  simpa using ⟨(by decide : R.PLC_EVAC ≠ R.PLC_EVAC_STATUS), (hbmPc_ne (by decide)).symm⟩

theorem exec_evac_busy (h : taken s w m R.PLC_EVAC) (he : w.plc.evac ≠ none) :
    exec (.evac m c r) s = .next ((w.evacNamed c (b2n r)).eventV F.PLC_EVAC_STATUS_RESULT 3) :=
  congrArg Host.Outcome.next ((guardWrite_taken _ _ _ _ _ _ h.1 h.2).trans (if_pos (Option.isSome_iff_ne_none.2 (by rwa [State.setFs_plc]))))

/-- An evacuation begins. -/
def State.evacBegun (s : State) (c : Nat) (r : Bool) : State :=
  { (s.evacNamed c (b2n r)).channelLeaves c with plc := { s.plc with evac := some (c, r) } }

theorem evacBegun_getF : (s.evacBegun v r).getF f = ((s.evacNamed v (b2n r)).channelLeaves v).getF f :=
  (setPlc_frame _ _).2.1 f

theorem evacBegun_named (hf : f.reg = R.PLC_EVAC) : (s.evacBegun v r).getF f = (s.evacNamed v (b2n r)).getF f :=
  evacBegun_getF.trans (channelLeaves_regs.getF (hf ▸ evac_notMem))

theorem evacBegun_regs : regsBut [R.PLC_EVAC, R.PLC_EVAC_STATUS, R.HBM_PC v] s (s.evacBegun v r) := fun a ha =>
  ((setPlc_frame _ _).1 a).trans (((evacNamed_regs.mono (by simp)).trans (channelLeaves_regs.mono (by simp))) a ha)

theorem evacBegun_bytes : sameBytes s (s.evacBegun v r) :=
  sameBytes.trans (evacNamed_frame.trans channelLeaves_frame).bytes (setPlc_frame _ _).2.2.1

theorem exec_evac_begins (h : taken s w m R.PLC_EVAC) (he : w.plc.evac = none) : exec (.evac m c r) s = .next (w.evacBegun c r) := by
  refine congrArg Host.Outcome.next ((guardWrite_taken _ _ _ _ _ _ h.1 h.2).trans ((if_neg ?_).trans ?_))
  · rw [State.setFs_plc, he]
    decide
  · rfl

theorem exec_evacRelease (h : taken s w m R.PLC_EVAC) : exec (.evacRelease m c) s = .next (
    if w.getF (F.HBM_PC_STATE c) ≠ 2 then w.evacNamed c 0
    else (w.evacNamed c 0).channelReleased c (w.getF F.PLC_EVAC_STATUS_PC = c)) := by
  have hstate : (w.evacNamed c 0).getF (F.HBM_PC_STATE c) = w.getF (F.HBM_PC_STATE c) :=
    evacNamed_regs.getF (hbmPc_notMem (by decide))
  have hpc : ((w.evacNamed c 0).setF (F.HBM_PC_STATE c) 0).getF F.PLC_EVAC_STATUS_PC = w.getF F.PLC_EVAC_STATUS_PC :=
    (getF_setF_reg_ne (hbmPc_ne (by decide))).trans (evacNamed_regs.getF (by decide))
  have hexec : exec (.evacRelease m c) s = _ := congrArg Host.Outcome.next (guardWrite_taken _ _ _ _ _ _ h.1 h.2)
  rw [hexec, ← hstate, ← hpc]
  rfl

/-! ### An evacuation ends (R181, Table 07-13) -/

theorem evacEnd_regs : regsBut [R.PLC_EVAC_STATUS, R.PLC_STATUS] s (s.evacEnd v n) :=
  ((regsBut_eventV (by simp [F.PLC_EVAC_STATUS_RESULT])).trans (regsBut_setF (by simp [F.PLC_EVAC_STATUS_PC]))).trans
    (regsBut_eventV (by simp [F.PLC_STATUS_EVAC_DONE]))

theorem evacEnd_frame : RegisterFrame s (s.evacEnd v n) := ((RegisterFrame.eventV _ _ _).trans (.setF _ _ _)).trans (.event _ _)

theorem evacEnd_result (hn : n < 256) : (s.evacEnd v n).getF F.PLC_EVAC_STATUS_RESULT = n :=
  (getF_event_reg_ne (by decide)).trans ((getF_setF_apart _ _ _ _ rfl rfl rfl).trans
    ((getF_eventV_same _ _ _ rfl (by decide)).trans (Nat.mod_eq_of_lt hn)))

theorem evacEnd_pc : (s.evacEnd c n).getF F.PLC_EVAC_STATUS_PC = c :=
  (getF_event_reg_ne (by decide)).trans ((getF_setF_same _ _ _ rfl).trans (Nat.mod_eq_of_lt c.isLt))

theorem evacEnd_done : (s.evacEnd v n).getF F.PLC_STATUS_EVAC_DONE = 1 := getF_eventV_same _ _ _ rfl (by decide)

/-- No evacuation runs. -/
def State.evacOff (s : State) : State := { s with plc := { s.plc with evac := none } }

/-- The channel has been emptied, and is in a state. -/
def State.channelEmpty (s : State) (c v : Nat) : State := ((s.evacOff.evacEnd c 0).setF F.PLC_EVAC_STATUS_OUT 1).setF (F.HBM_PC_STATE c) v

/-- A page on the channel has found no frame. -/
def State.channelStuck (s : State) (c : Nat) : State := (s.evacOff.setF (F.HBM_PC_STATE c) 0).evacEnd c 1

theorem exec_evacDone (h : s.plc.evac = some (c.val, r)) : exec .evacDone s = .next (
    if !s.pcHolds c then s.channelEmpty c (if r then 3 else 2) else if s.evacStuck then s.channelStuck c else s) := by
  have hexec : exec .evacDone s = execEvacDone s := rfl
  rw [hexec, execEvacDone, h]
  rfl

theorem channelEmpty_spec (hv : v < 4) : let t := s.channelEmpty c v
    t.plc = { s.plc with evac := none } ∧ t.getF (F.HBM_PC_STATE c) = v ∧ t.getF F.PLC_EVAC_STATUS_RESULT = 0 ∧
    t.getF F.PLC_EVAC_STATUS_PC = c ∧ t.getF F.PLC_EVAC_STATUS_OUT = 1 ∧ t.getF F.PLC_STATUS_EVAC_DONE = 1 ∧
    regsBut [R.PLC_EVAC_STATUS, R.PLC_STATUS, R.HBM_PC c] s t ∧ sameBytes s t ∧ sameTenants s t := by
  intro t
  have hframe : RegisterFrame s.evacOff t := (evacEnd_frame.trans (.setF _ _ _)).trans (.setF _ _ _)
  have hregs : regsBut [R.PLC_EVAC_STATUS, R.PLC_STATUS, R.HBM_PC c] s.evacOff t :=
    ((evacEnd_regs.mono (by simp)).trans (regsBut_setF (by simp [F.PLC_EVAC_STATUS_OUT]))).trans (regsBut_setF (by simp [F.HBM_PC_STATE]))
  have hout (f : Fld) (hf : f.ok = true) (hr : f.reg < R.HBM_PC 0) (ha : F.PLC_EVAC_STATUS_OUT.apart f = true) :
      t.getF f = (s.evacOff.evacEnd c 0).getF f :=
    (getF_setF_reg_ne (hbmPc_ne hr)).trans (getF_setF_apart _ _ _ _ rfl hf ha)
  exact ⟨hframe.plc, (getF_setF_same _ _ _ rfl).trans (Nat.mod_eq_of_lt hv),
    (hout _ rfl (by decide) rfl).trans (evacEnd_result (by decide)), (hout _ rfl (by decide) rfl).trans evacEnd_pc,
    (getF_setF_reg_ne (hbmPc_ne (by decide))).trans (getF_setF_same _ _ _ rfl), (hout _ rfl (by decide) rfl).trans evacEnd_done,
    hregs, hframe.bytes, hframe.tenants⟩

theorem channelStuck_spec : let t := s.channelStuck c
    t.plc = { s.plc with evac := none } ∧ t.getF (F.HBM_PC_STATE c) = 0 ∧ t.getF F.PLC_EVAC_STATUS_RESULT = 1 ∧
    t.getF F.PLC_EVAC_STATUS_PC = c ∧ t.getF F.PLC_STATUS_EVAC_DONE = 1 ∧
    regsBut [R.PLC_EVAC_STATUS, R.PLC_STATUS, R.HBM_PC c] s t ∧ sameBytes s t ∧ sameTenants s t := by
  intro t
  have hframe : RegisterFrame s.evacOff t := (RegisterFrame.setF _ _ _).trans evacEnd_frame
  have hstate : t.getF (F.HBM_PC_STATE c) = (s.evacOff.setF (F.HBM_PC_STATE c) 0).getF (F.HBM_PC_STATE c) :=
    evacEnd_regs.getF (hbmPc_notMem (by decide))
  exact ⟨hframe.plc, hstate.trans (getF_setF_same _ _ _ rfl), evacEnd_result (by decide), evacEnd_pc, evacEnd_done,
    (regsBut_setF (s := s.evacOff) (by simp [F.HBM_PC_STATE])).trans (evacEnd_regs.mono (by simp)), hframe.bytes, hframe.tenants⟩

/-! ### A channel retrains (R181, R382) -/

/-- The channel is out of service, and shows whether its retraining failed. -/
def State.channelJudged (s : State) (c n : Nat) : State := s.setFs [(F.HBM_PC_STATE c, 2), (F.HBM_PC_FAILED c, n)]

theorem channelJudged_state : (s.channelJudged v n).getF (F.HBM_PC_STATE v) = 2 :=
  (getF_setF_apart _ _ _ _ rfl rfl (by simp [Fld.apart, F.HBM_PC_STATE, F.HBM_PC_FAILED])).trans (getF_setF_same _ _ _ rfl)

theorem channelJudged_failed (hn : n < 2) : (s.channelJudged v n).getF (F.HBM_PC_FAILED v) = n :=
  (getF_setF_same _ _ _ rfl).trans (Nat.mod_eq_of_lt hn)

theorem channelJudged_regs : regsBut [R.HBM_PC v] s (s.channelJudged v n) := regsBut_setFs (by simp [F.HBM_PC_STATE, F.HBM_PC_FAILED])

/-- A channel whose retraining has failed stays out of service. -/
def State.channelFailed (s : State) (c : Nat) : State :=
  ((s.channelJudged c 1).event F.HBM_STATUS_PC_FAIL).evacEnd c 2

theorem exec_pcRetrainDone (h : s.getF (F.HBM_PC_STATE c) = 3) (ok : Bool) : exec (.pcRetrainDone c ok) s = .next (
    if ok then s.channelJudged c 0 else (s.channelFailed c).report 0x207 blkPlc 0xFFFF 0 c) :=
  congrArg Host.Outcome.next (if_neg (not_not.2 h))

theorem channelFailed_frame : RegisterFrame s (s.channelFailed v) := ((RegisterFrame.setFs _ _).trans (.event _ _)).trans evacEnd_frame

theorem channelFailed_reads (hf : f.reg ∉ [R.PLC_EVAC_STATUS, R.PLC_STATUS, R.HBM_STATUS]) :
    (s.channelFailed v).getF f = (s.channelJudged v 1).getF f :=
  (evacEnd_regs.getF (by simp_all)).trans (getF_event_reg_ne (by simp_all [F.HBM_STATUS_PC_FAIL, eq_comm]))

end

/-! ### The clauses of the obligation -/

/-- Settles O51: a host access of the aperture by what it meets, and an evacuation from its start to the channel's retraining. -/
theorem apertureAndEvacuation : Obligations.ApertureAndEvacuation := by
  unfold Obligations.ApertureAndEvacuation
  refine ⟨?links, ?access, ?answers, ?commands, ?idle, ?ends, ?retrains⟩
  case links =>
    intro s p off data len
    refine ⟨fun h0 h1 => ?_, fun h => ?_⟩
    · exact congrArg Host.Outcome.next (if_neg (by simp [h0, h1]))
    · exact congrArg Host.Outcome.next (if_pos (by simpa using h))
  case access =>
    intro s b live map
    refine ⟨bar4_notLive, bar4_unmapped, fun m h hm => ?_⟩
    intro a bad
    refine ⟨bar4_refused h hm, fun x hx hr => ?_⟩
    intro reach
    have hmeets (hd : x.discord = false) {r : TierRes} (hreach : reach = r) : s.bar4 b = s.barMeets b m r := by
      rw [bar4_mapped h hm hx hr, if_neg (ne_true_of_eq_false hd), ← hreach]
    refine ⟨fun hd => ?_, fun hd he => ?_, fun st hd he hne => ?_, fun hd he => hmeets hd he, fun hd he hn => ?_, fun l hd he hl => ?_⟩
    · rw [bar4_mapped h hm hx hr, if_pos hd]
    · rw [hmeets hd he, State.barMeets, if_pos rfl]
    · rw [hmeets hd he, State.barMeets, if_neg hne]
    · exact ⟨_, hmeets hd he, barRead_spec hx hr hn⟩
    · rw [hmeets hd he, State.barMeets, hl]
      rfl
  case answers => exact fun s b => ⟨barZero_write, barZero_read, rfl, barFault_write, barFault_read⟩
  case commands =>
    intro s w m c r h
    refine ⟨fun he => ?busy, fun he => ?begins, fun hs => ?kept, fun hs => ?released⟩
    case busy =>
      have hframe : RegisterFrame w ((w.evacNamed c (b2n r)).eventV F.PLC_EVAC_STATUS_RESULT 3) := evacNamed_frame.trans (.eventV _ _ _)
      exact ⟨_, exec_evac_busy h he, getF_eventV_same _ _ _ rfl (by decide), hframe.plc, hframe.bytes,
        (evacNamed_regs.mono (by simp)).trans (regsBut_eventV (by simp [F.PLC_EVAC_STATUS_RESULT]))⟩
    case begins =>
      exact ⟨_, exec_evac_begins h he, rfl, evacBegun_getF.trans channelLeaves_state, evacBegun_getF.trans channelLeaves_pc,
        evacBegun_getF.trans channelLeaves_out, (evacBegun_named rfl).trans evacNamed_pc, (evacBegun_named rfl).trans (evacNamed_retrain (b2n_lt r)),
        evacBegun_regs, evacBegun_bytes⟩
    case kept =>
      exact ⟨_, (exec_evacRelease h).trans (congrArg _ (if_pos hs)), evacNamed_pc, evacNamed_retrain (by decide), evacNamed_regs,
        evacNamed_frame.work⟩
    case released =>
      have hfailed : (F.HBM_PC_STATE c).apart (F.HBM_PC_FAILED c) = true := by simp [Fld.apart, F.HBM_PC_STATE, F.HBM_PC_FAILED]
      exact ⟨_, (exec_evacRelease h).trans (congrArg _ (if_neg (not_not.2 hs))), (channelReleased_getF rfl).trans (getF_setF_same _ _ _ rfl),
        ((channelReleased_getF rfl).trans (getF_setF_apart _ _ _ _ rfl rfl hfailed)).trans (evacNamed_regs.getF (hbmPc_notMem (by decide))),
        (evacNamed_regs.mono (by simp)).trans (channelReleased_regs.mono (by simp)), (evacNamed_frame.trans channelReleased_frame).work,
        channelReleased_out⟩
  case idle =>
    intro s h
    have hexec : exec .evacDone s = execEvacDone s := rfl
    rw [hexec, execEvacDone, h]
  case ends =>
    intro s c r h
    refine ⟨fun he => ?_, fun he hs => ?_, fun he hs => ?_⟩
    · refine ⟨_, (exec_evacDone h).trans (congrArg _ (if_pos (by rw [he]; rfl))), channelEmpty_spec (by split <;> decide)⟩
    · refine ⟨_, (exec_evacDone h).trans (congrArg _ ((if_neg (by rw [he]; decide)).trans (if_pos hs))), channelStuck_spec⟩
    · exact (exec_evacDone h).trans (congrArg _ ((if_neg (by rw [he]; decide)).trans (if_neg (ne_true_of_eq_false hs))))
  case retrains =>
    intro s c
    refine ⟨fun h ok => congrArg Host.Outcome.next (if_pos h), fun h => ⟨?back, ?failed⟩⟩
    case back =>
      exact ⟨_, (exec_pcRetrainDone h true).trans (congrArg _ (if_pos rfl)), channelJudged_state,
        channelJudged_failed (by decide), channelJudged_regs, (RegisterFrame.setFs _ _).work,
        (RegisterFrame.setFs _ _).device⟩
    case failed =>
      have hreport (f : Fld) (hf : f.reg / 65536 ≠ 7) : ((s.channelFailed c).report 0x207 blkPlc 0xFFFF 0 c).getF f = (s.channelFailed c).getF f :=
        report_getF _ _ _ _ _ _ _ hf
      have hchannel (f : Fld) (hf : f.reg = R.HBM_PC c) :
          ((s.channelFailed c).report 0x207 blkPlc 0xFFFF 0 c).getF f = (s.channelJudged c 1).getF f :=
        (hreport f (by rw [hf, hbmPc_block]; decide)).trans (channelFailed_reads (hf ▸ hbmPc_notMem (by decide)))
      exact ⟨_, _, (exec_pcRetrainDone h false).trans (congrArg _ (if_neg (by decide))), channelFailed_frame.work, report_shown rfl,
        (hchannel _ rfl).trans channelJudged_state, (hchannel _ rfl).trans (channelJudged_failed (by decide)),
        (hreport _ (by decide)).trans ((evacEnd_regs.getF (by decide)).trans (getF_eventV_same _ _ _ rfl (by decide))),
        (hreport _ (by decide)).trans (evacEnd_result (by decide)), (hreport _ (by decide)).trans evacEnd_pc,
        (hreport _ (by decide)).trans evacEnd_done⟩

end Sys2Proof.Machine
end

section

/-! ## O50: the placement engine's own events -/

namespace Sys2Proof.Machine

/-! ### Commands that wait (R173, R175, R183) -/

section
variable {s w : State} {k : Nat} {o : Op}

theorem settling_some (h : s.op k = some o) (hw : s.plc.waits.contains (k, .settle) = true) : s.settling k = some o := (if_pos hw).trans h

theorem settling_none (h : s.op k = none ∨ s.plc.waits.contains (k, .settle) = false) : s.settling k = none := by
  unfold State.settling
  split
  next hw => exact h.resolve_right (ne_false_of_eq_true hw)
  next => rfl

theorem exec_settleDone (h : s.settling k = some o) :
    exec (.settleDone k) s = .next (if s.settled o.desc then (s.plcEnd o stOk 0 0).plcKick else s) := by
  have hexec : exec (.settleDone k) s = execSettleDone k s := rfl
  rw [hexec, execSettleDone, h]

theorem exec_settleTimeout (h : s.settling k = some o) :
    exec (.settleTimeout k) s = .next ((s.ripe (.op k) (10 ^ 6 * settleMs o.desc)).plcEnd o stSettleTimeout 0 0).plcKick := by
  have hexec : exec (.settleTimeout k) s = execSettleTimeout k s := rfl
  rw [hexec, execSettleTimeout, h]

theorem exec_settle_idle (h : s.settling k = none) {c : Instr} (hc : c ∈ [Instr.settleDone k, .settleTimeout k]) : exec c s = .next s := by
  have hdone : exec (.settleDone k) s = execSettleDone k s := rfl
  have htimeout : exec (.settleTimeout k) s = execSettleTimeout k s := rfl
  simp only [List.mem_cons, List.not_mem_nil, or_false] at hc
  obtain rfl | rfl := hc
  · rw [hdone, execSettleDone, h]
  · rw [htimeout, execSettleTimeout, h]

/-- The limit of a demand fetch ends what waits for the page. -/
def State.fetchTimedOut (v : State) (k : Nat) (o : Op) : State :=
  if o.src = 0x05 then (v.poolFault stPoolFault).qpError (v.wqeQpn o) (some (k, stPoolFault))
  else (if plcOpcode o.desc = 6 then v.mapFail o stPoolFault else v.plcEnd o stPoolFault 0 0).plcKick

theorem exec_fetchWaitTimeout (h : s.op k = some o) (hw : s.plc.waits.contains (k, .fetch) = true) :
    exec (.fetchWaitTimeout k) s = .next ((s.ripe (.op k) s.fetchWaitNs).fetchTimedOut k o) := by
  have hexec : exec (.fetchWaitTimeout k) s = execFetchWaitTimeout k s := rfl
  rw [hexec, execFetchWaitTimeout, if_pos hw, h]
  rfl

theorem exec_fetchWaitTimeout_bar {b : BarWait} (hw : s.plc.waits.contains (k, .fetch) = false) (hb : s.plc.bars.find? (·.id == k) = some b) :
    exec (.fetchWaitTimeout k) s =
      let v := s.ripe (.op k) s.fetchWaitNs
      .next (({ v with plc := { v.plc with bars := v.plc.bars.filter (·.id != k) } } : State).barFault b) := by
  have hexec : exec (.fetchWaitTimeout k) s = execFetchWaitTimeout k s := rfl
  rw [hexec, execFetchWaitTimeout, if_neg (ne_true_of_eq_false hw), hb]

theorem exec_fetchWaitTimeout_other (hw : s.plc.waits.contains (k, .fetch) = false) (hb : s.plc.bars.find? (·.id == k) = none) :
    exec (.fetchWaitTimeout k) s = .next (((s.headTimeout k).galWaitTimeout k).flightWaitTimeout k) := by
  have hexec : exec (.fetchWaitTimeout k) s = execFetchWaitTimeout k s := rfl
  rw [hexec, execFetchWaitTimeout, if_neg (ne_true_of_eq_false hw), hb]

end

/-! ### Demand fetches (R168, R173) -/

section
variable {s v : State} {k p u t f : Nat} {x : TObj}

/-- The first tier above T4 that has room for a page, as the object's hints allow (R163). -/
def State.fetchTier (s : State) (k : Nat) (x : TObj) : Option Nat :=
  ((List.range 4).filter (fun t => x.ceil ≤ t && t ≤ s.floorOf k x)).find? (s.hasRoom k x)

/-- The ledgers have room for a fetch into a tier: those of its slice and the device's (R168). -/
def State.fetchFits (s : State) (x : TObj) (t : Nat) : Prop :=
  s.sliceRoom x.slice (s.moveCost 4 t * 10 ^ 6) = true ∧ s.pwr.devCharge + s.moveCost 4 t * 10 ^ 6 ≤ s.pwr.allowance

/-- A page of T4 that no fetch moves and none has been refused for. -/
structure Fetchable (s : State) (k p u : Nat) (x : TObj) : Prop where
  obj : s.obj k = some x
  loc : (x.at p).loc = some (4, u)
  still : s.moving k p = false
  fresh : s.plc.fetches.contains (k, p, true) = false

theorem startFetch_held (h : Fetchable s k p u x) (hh : s.shedAt 4 = true ∨ s.hallPaused 8 = true) : s.startFetch k p = s.fetchLater k p false := by
  simp only [State.startFetch, h.obj, h.loc]
  rw [if_neg (by rw [h.still, h.fresh]; decide), if_pos (by simpa using hh)]

theorem startFetch_stuck (h : Fetchable s k p u x) (hr : s.fetchTier k x = none) : s.startFetch k p = s.fetchLater k p false := by
  by_cases hh : s.shedAt 4 = true ∨ s.hallPaused 8 = true
  · exact startFetch_held h hh
  · have hr' : ((List.range 4).filter (fun t => x.ceil ≤ t && t ≤ s.floorOf k x)).find? (s.hasRoom k x) = none := hr
    simp only [State.startFetch, h.obj, h.loc, hr']
    rw [if_neg (by rw [h.still, h.fresh]; decide), if_neg (by simpa using hh)]

/-- Nothing holds a fetch, and a tier has room for its page. -/
structure Fetching (s : State) (k p u t : Nat) (x : TObj) : Prop extends Fetchable s k p u x where
  shed : s.shedAt 4 = false
  runs : s.hallPaused 8 = false
  room : s.fetchTier k x = some t

theorem startFetch_deferred (h : Fetching s k p u t x) (hf : ¬ s.fetchFits x t) :
    s.startFetch k p = (((s.bump F.PLC_CNT_DEFER_COUNT).deferUnit (some x.slice)).markDeferred [k]).fetchLater k p true := by
  have hr : ((List.range 4).filter (fun t => x.ceil ≤ t && t ≤ s.floorOf k x)).find? (s.hasRoom k x) = some t := h.room
  simp only [State.startFetch, h.obj, h.loc, hr]
  rw [if_neg (by rw [h.still, h.fresh]; decide), if_neg (by rw [h.shed, h.runs]; decide), if_neg (by simpa [State.fetchFits] using hf)]

/-- A fetch is charged to its slice and moves its page. -/
def State.fetchBegun (v : State) (i c : Nat) (m : Move) : State :=
  let w := (v.charge (some i) c).addMove m
  { w with plc := { w.plc with fetches := w.plc.fetches.filter fun e => e.1 != m.obj || e.2.1 != m.page } }

theorem startFetch_begins (h : Fetching s k p u t x) (hf : s.fetchFits x t) (hv : s.frameFor k p 0 t = (some f, v)) :
    s.startFetch k p = v.fetchBegun x.slice (s.moveCost 4 t * 10 ^ 6) ⟨k, p, 0, 5, some (4, u), (t, f), false⟩ := by
  have hr : ((List.range 4).filter (fun t => x.ceil ≤ t && t ≤ s.floorOf k x)).find? (s.hasRoom k x) = some t := h.room
  simp only [State.startFetch, h.obj, h.loc, hr]
  rw [if_neg (by rw [h.still, h.fresh]; decide), if_neg (by rw [h.shed, h.runs]; decide), if_pos (by simpa [State.fetchFits] using hf), hv]
  rfl

/-- Choosing a frame draws, and does nothing else. -/
theorem frameFor_frame (s : State) (k p c t : Nat) : ∃ d, (s.frameFor k p c t).2 = { s with draws := d } := by
  unfold State.frameFor
  split
  · exact ⟨_, rfl⟩
  · exact ⟨_, rfl⟩

theorem frameFor_draws {c : Nat} {r : Option Nat} (hv : s.frameFor k p c t = (r, v)) : ∃ d, v = { s with draws := d } := by
  obtain ⟨d, hd⟩ := frameFor_frame s k p c t
  exact ⟨d, (congrArg Prod.snd hv).symm.trans hd⟩

theorem fetchBegun_spec (hv : s.frameFor k p 0 t = (some f, v)) (i c : Nat) (src : Option (Nat × Nat)) :
    let m : Move := ⟨k, p, 0, 5, src, (t, f), false⟩
    let w := v.fetchBegun i c m
    w.plc.moves = s.plc.moves ++ [m] ∧ w.plc.objs = s.plc.objs ∧
    w.plc.fetches = s.plc.fetches.filter (fun e => e.1 != k || e.2.1 != p) ∧ sameBytes s w ∧ w.rings = s.rings := by
  obtain ⟨d, rfl⟩ := frameFor_draws hv
  exact ⟨rfl, rfl, rfl, fun _ => rfl, rfl⟩

end

/-! ### A cancel (R96, R183) -/

section
variable {s w : State} {i tag : Nat} {o : Op} {c : Clasp} {m : Master}

/-- A cancel answers what it finds. -/
theorem plcCancelTag_result : (s.plcCancelTag i tag).1 = (s.cancelFind i [0x08] tag).1 := by
  unfold State.plcCancelTag
  split
  next h => rw [h]; split <;> rfl
  next h => rw [h]

theorem plcCancelTag_kept (h : (s.cancelFind i [0x08] tag).1 ≠ .cancelled) : (s.plcCancelTag i tag).2 = s := by
  unfold State.plcCancelTag
  split
  next e => rw [e] at h; exact absurd rfl h
  next => rfl

theorem plcCancelTag_command (h : s.cancelFind i [0x08] tag = (.cancelled, some o)) (hw : s.waitOf o.id = none) :
    (s.plcCancelTag i tag).2 = (s.plcEnd o stCancelled 0 0).plcKick := by
  simp only [State.plcCancelTag, h, hw]

theorem plcCancelTag_wait (h : s.cancelFind i [0x08] tag = (.cancelled, some o)) (hw : s.waitOf o.id = some c) :
    (s.plcCancelTag i tag).2 = (s.waitEnd c stCancelled).plcKick := by
  simp only [State.plcCancelTag, h, hw]

theorem exec_plcCancel {i : BitVec 16} (h : s.writeAt m R.PLC_CANCEL_CTRL = some w) :
    let v := w.setF F.PLC_CANCEL_CTRL_SLICE i.toNat
    let p := v.plcCancelTag i.toNat (v.reg R.PLC_CANCEL_TAG)
    exec (.plcCancel m i) s = .next (p.2.eventV F.PLC_CANCEL_RESULT_RESULT p.1.code) := by
  intro v p
  have htag : v.reg R.PLC_CANCEL_TAG = w.reg R.PLC_CANCEL_TAG := reg_setF_ne _ _ _ _ (by decide)
  have hexec : exec (.plcCancel m i) s = _ := congrArg Host.Outcome.next (openWrite_taken s w m _ _ _ h)
  rw [hexec]
  simp only [p, htag]
  rfl

end

/-! ### A heat decay boundary (R166, R167, R186) -/

section
variable {s : State} {k : Nat}

/-- A table of which every value has changed alike. -/
theorem look_mapValues {α β : Type} (f : α → β) (l : List (Nat × α)) (k : Nat) : look (l.map fun e => (e.1, f e.2)) k = (look l k).map f := by
  induction l with
  | nil => rfl
  | cons e l ih =>
    simp only [List.map_cons, look, ih]
    split
    · rfl
    · rfl

/-- The waiting curve comes into force. -/
def State.curveApplied (s : State) : State :=
  match look s.str.tabs (4 + 256) with
  | some b => { s with str := { s.str with tabs := drop (put s.str.tabs 4 b) (4 + 256) } }
  | none => s

/-- What waits for a boundary has applied. -/
def State.decayReady (s : State) : State :=
  ([F.PLC_APPLY_STATUS_DECAY, F.PLC_APPLY_STATUS_RETIRE, F.PLC_APPLY_STATUS_SCRUB, F.PLC_APPLY_STATUS_FETCH_WAIT].foldl State.applyGroup
    ((s.ripe .decay (16 * 10 ^ 6)).begin .decay)).curveApplied

/-- An object of which every page has cooled. -/
def TObj.cooled (x : TObj) (sh : Nat) : TObj := { x with page := x.page.map fun g => (g.1, { g.2 with heat := decayed sh g.2.heat }) }

/-- Every page has cooled. -/
def State.cooled (s : State) : State :=
  { s with plc := { s.plc with objs := s.plc.objs.map fun e => (e.1, e.2.cooled s.decayShift) } }

/-- The candidates of the pages as they stand. -/
def State.recandidated (s : State) : State := { s with plc := { s.plc with cands := s.candidates } }

theorem decayBoundary_eq (s : State) : s.decayBoundary = s.decayReady.cooled.recandidated := by
  have hready : s.decayReady = (List.foldl State.applyGroup ((s.ripe .decay (16 * 10 ^ 6)).begin .decay)
    [F.PLC_APPLY_STATUS_DECAY, F.PLC_APPLY_STATUS_RETIRE, F.PLC_APPLY_STATUS_SCRUB, F.PLC_APPLY_STATUS_FETCH_WAIT]).curveApplied := rfl
  rw [hready, State.decayBoundary]
  generalize List.foldl State.applyGroup _ _ = v
  rw [State.curveApplied]
  cases look v.str.tabs (4 + 256) with
  | none => rfl
  | some b => rfl

theorem curveApplied_frame (s : State) : StreamFrame s s.curveApplied := by
  unfold State.curveApplied
  split
  · exact ⟨_, _, _, _, _, _, _, _, _, rfl⟩
  · exact .refl s

theorem ripe_frame (s : State) (k : Timer) (d : Nat) : StreamFrame s (s.ripe k d) := by
  obtain ⟨_, _, h⟩ := ripe_eq (s := s) (k := k) (d := d)
  rw [h]
  exact ⟨_, _, _, _, _, _, _, _, _, rfl⟩

theorem decayReady_frame (s : State) : StreamFrame s s.decayReady :=
  ((ripe_frame s _ _).trans (.ofRegisters ((RegisterFrame.begin _ _).trans (.foldl .applyGroup _ _)))).trans (curveApplied_frame _)

theorem obj_cooled {x : TObj} (h : s.obj k = some x) : s.cooled.obj k = some (x.cooled s.decayShift) :=
  (look_mapValues (fun x : TObj => x.cooled s.decayShift) s.plc.objs k).trans (congrArg _ h)

theorem look_cooled {x : TObj} {p sh : Nat} {g : TPage} (h : look x.page p = some g) :
    look (x.cooled sh).page p = some { g with heat := decayed sh g.heat } := by
  have hmap := look_mapValues (fun g => ({ g with heat := decayed sh g.heat } : TPage)) x.page p
  rw [h] at hmap
  exact hmap

/-- The cooled objects and the candidates that they give are no byte, no tenant and no register. -/
theorem recandidated_spec (s : State) : let t : State := s.cooled.recandidated
    sameBytes s t ∧ sameTenants s t ∧ t.decayShift = s.decayShift ∧ (∀ k, t.obj k = s.cooled.obj k) ∧ t.plc.cands = t.candidates :=
  ⟨fun _ => rfl, ⟨rfl, rfl, rfl, rfl, rfl, rfl⟩, rfl, fun _ => rfl, rfl⟩

end
end Sys2Proof.Machine
end

section

/-! ## O50: moves -/

namespace Sys2Proof.Machine

/-! ### The next move starts (R168) -/

section
variable {s : State}

theorem moveStart_held (h : s.shedAt 2 = true ∨ s.reg R.PLC_ENERGY = 0 ∨ s.hallPaused 8 = true ∨ s.pwr.refused.any (·.1 == 4) = true) :
    s.moveStart = s := if_pos h

section
variable (h2 : s.shedAt 2 = false) (he : s.reg R.PLC_ENERGY ≠ 0) (h8 : s.hallPaused 8 = false) (hr : s.pwr.refused.any (·.1 == 4) = false)
include h2 he h8 hr

theorem moveStart_open : ¬ (s.shedAt 2 = true ∨ s.reg R.PLC_ENERGY = 0 ∨ s.hallPaused 8 = true ∨ s.pwr.refused.any (·.1 == 4) = true) := by
  rw [h2, h8, hr]
  simpa using he

theorem moveStart_pages (hb : s.bufferLeaving = none) : s.moveStart = State.startFrom s.moveQueue s := by
  rw [State.moveStart, if_neg (moveStart_open h2 he h8 hr), hb]

theorem moveStart_buffer {b : Nat × Nat × Nat} (hb : s.bufferLeaving = some b) :
    s.moveStart = (s.bufferMove b.1 b.2.1 b.2.2).getD (State.startFrom s.moveQueue s) := by
  rw [State.moveStart, if_neg (moveStart_open h2 he h8 hr), hb]

end

/-- What is picked kind by kind, in the order of a list of kinds, and followed by later kinds, stands in that order. -/
theorem pairwise_kinds (l : List Cand) {ks : List Nat} (hk : ks.Pairwise (· < ·)) : (ks.flatMap fun n => l.filter (·.kind == n)).Pairwise
    fun a b => a.kind ≤ b.kind := by
  rw [List.pairwise_flatMap]
  refine ⟨fun n _ => ?_, hk.imp fun hlt a ha b hb => ?_⟩
  · refine List.Pairwise.imp_of_mem (fun ha hb _ => ?_) (List.pairwise_of_forall fun _ _ => trivial)
    exact ((beq_iff_eq.1 (List.mem_filter.1 ha).2).trans (beq_iff_eq.1 (List.mem_filter.1 hb).2).symm).le
  · rw [beq_iff_eq.1 (List.mem_filter.1 ha).2, beq_iff_eq.1 (List.mem_filter.1 hb).2]
    exact hlt.le

theorem moveQueue_ordered (s : State) : s.moveQueue.Pairwise fun a b => a.kind ≤ b.kind := by
  unfold State.moveQueue
  extract_lets live first fourth
  have hfourth : ∀ c ∈ fourth, c.kind = 4 := fun c hc => by
    obtain ⟨e, -, he⟩ := List.mem_filterMap.1 hc
    split at he
    · cases he
      rfl
    · cases he
  have hfirst : ∀ c ∈ [1, 2, 3].flatMap (fun n => first.filter (·.kind == n)), c.kind ≤ 3 := fun c hc => by
    obtain ⟨n, hn, hc⟩ := List.mem_flatMap.1 hc
    have hkind := beq_iff_eq.1 (List.mem_filter.1 hc).2
    simp only [List.mem_cons, List.not_mem_nil, or_false] at hn
    omega
  refine List.pairwise_append.2 ⟨pairwise_kinds first (by decide), ?_, fun a ha b hb => ?_⟩
  · exact List.Pairwise.imp_of_mem (fun ha hb _ => ((hfourth _ ha).trans (hfourth _ hb).symm).le) (List.pairwise_of_forall fun _ _ => trivial)
  · have := hfirst a ha
    have := hfourth b hb
    omega

end

/-! ### The first of a queue that finds a destination (R168, R177) -/

/-- Where the copy that a candidate moves lies. -/
def Cand.src (c : Cand) (x : TObj) : Option (Nat × Nat) := if c.copy = 0 then (x.at c.page).loc else (x.at c.page).rep

/-- The tier that its move reads: a repair reads the other copy. -/
def Cand.readTier (c : Cand) (x : TObj) : Nat :=
  ((if c.kind = 3 then (if c.copy = 0 then (x.at c.page).rep else (x.at c.page).loc) else c.src x).map (·.1)).getD (c.tiers.headD 0)

/-- The rewriting of a copy that can still be read. -/
def Cand.stays (c : Cand) (x : TObj) : Prop :=
  c.kind = 3 ∧ (if c.copy = 0 then (x.at c.page).c0 else (x.at c.page).c1) = .stale ∧ (c.src x).isSome = true

/-- A move of the curve to a higher tier. -/
def Cand.promotes (c : Cand) (x : TObj) : Prop := c.kind = 4 ∧ c.tiers.any (fun t => (c.src x).any fun u => t < u.1) = true

/-- The tier that takes its page. -/
def State.moveTier (s : State) (c : Cand) (x : TObj) : Option Nat :=
  c.tiers.find? fun t => (c.kind == 1 || c.kind == 3 || some t != (c.src x).map (·.1)) && s.takesMove c x (c.src x) t

/-- The demotion that makes room for a promotion: its own quota must allow it. -/
def State.demoteFor (s : State) (c : Cand) (cs : List Cand) (x : TObj) : Option State :=
  if s.inQuota x (c.tiers.headD 0) then s.demote x.slice (c.tiers.headD 0) (bucketOf (x.at c.page).heat) (c.obj :: cs.map (·.obj)) else none

/-- A promotion of the curve is dropped. -/
def State.dropCand (s : State) (c : Cand) : State :=
  { s with plc := { s.plc with cands := s.plc.cands.filter (· != (c.obj, c.page, c.tiers.headD 0)) } }

/-- A candidate that does not stay in its place starts, makes room, or leaves the turn to those behind it. -/
def State.tryMove (s : State) (c : Cand) (cs : List Cand) (x : TObj) : State :=
  match s.moveTier c x with
  | none =>
    if c.kind = 4 ∧ c.tiers.any (fun t => (c.src x).any fun u => t < u.1) = true then
      match s.demoteFor c cs x with
      | some v => v
      | none => State.startFrom cs (s.dropCand c)
    else State.startFrom cs s
  | some t =>
    let (f, v) := s.frameFor c.obj c.page c.copy t
    match f with
    | some f => v.beginMove x.slice (c.readTier x) (c.obj :: cs.map (·.obj)) ⟨c.obj, c.page, c.copy, c.kind, c.src x, (t, f), false⟩
    | none => State.startFrom cs v

section
variable {s v : State} {c : Cand} {cs : List Cand} {x : TObj} {t f : Nat}

theorem startFrom_absent (h : s.obj c.obj = none) : State.startFrom (c :: cs) s = State.startFrom cs s := by
  rw [State.startFrom, h]

section
variable (h : s.obj c.obj = some x)
include h

theorem startFrom_stays {l : Nat × Nat} (hs : c.stays x) (hl : c.src x = some l) :
    State.startFrom (c :: cs) s = s.beginMove x.slice (c.readTier x) (c.obj :: cs.map (·.obj)) ⟨c.obj, c.page, c.copy, 3, none, l, false⟩ := by
  have hget : (c.src x).getD (0, 0) = l := congrArg (Option.getD · (0, 0)) hl
  rw [State.startFrom, h, ← hget]
  exact if_pos hs

theorem startFrom_tries (hs : ¬ c.stays x) : State.startFrom (c :: cs) s = s.tryMove c cs x := by
  rw [State.startFrom, h]
  exact (if_neg hs).trans rfl

end

theorem tryMove_moves (hd : s.moveTier c x = some t) (hf : s.frameFor c.obj c.page c.copy t = (some f, v)) : s.tryMove c cs x =
    v.beginMove x.slice (c.readTier x) (c.obj :: cs.map (·.obj)) ⟨c.obj, c.page, c.copy, c.kind, c.src x, (t, f), false⟩ := by
  simp only [State.tryMove, hd, hf]

theorem tryMove_frameless (hd : s.moveTier c x = some t) (hf : s.frameFor c.obj c.page c.copy t = (none, v)) :
    s.tryMove c cs x = State.startFrom cs v := by
  simp only [State.tryMove, hd, hf]

section
variable (hd : s.moveTier c x = none)
include hd

theorem tryMove_stuck (hp : ¬ c.promotes x) : s.tryMove c cs x = State.startFrom cs s := by
  rw [State.tryMove, hd]
  exact if_neg hp

theorem tryMove_drops (hp : c.promotes x) (hv : s.demoteFor c cs x = none) : s.tryMove c cs x = State.startFrom cs (s.dropCand c) := by
  rw [State.tryMove, hd, hv]
  exact if_pos hp

theorem tryMove_demotes (hp : c.promotes x) (hv : s.demoteFor c cs x = some v) : s.tryMove c cs x = v := by
  rw [State.tryMove, hd, hv]
  exact if_pos hp

end

theorem demoteFor_none (h : s.inQuota x (c.tiers.headD 0) = false ∨
    s.demote x.slice (c.tiers.headD 0) (bucketOf (x.at c.page).heat) (c.obj :: cs.map (·.obj)) = none) : s.demoteFor c cs x = none := by
  unfold State.demoteFor
  split
  next hq => exact h.resolve_left (ne_false_of_eq_true hq)
  next => rfl

theorem demoteFor_quota (h : s.inQuota x (c.tiers.headD 0) = true) :
    s.demoteFor c cs x = s.demote x.slice (c.tiers.headD 0) (bucketOf (x.at c.page).heat) (c.obj :: cs.map (·.obj)) := if_pos h

end

/-! ### A move starts, or the Coffer refuses it (R168) -/

section
variable {s : State} {payer a : Nat} {behind : List Nat} {m : Move}

theorem offer_plc (e : Nat) (slice : Option Nat) (c : Nat) : (s.offer e slice c).2.plc = s.plc := by
  have hd (t : State) : (t.deferUnit slice).plc = t.plc := by cases slice <;> rfl
  unfold State.offer
  split
  · rfl
  · extract_lets
    split
    · rfl
    · exact hd _

theorem beginMove_admitted (h : (s.offer 4 (some payer) (s.moveCost a m.dst.1 * 10 ^ 6)).1 = true) :
    ∃ p, s.beginMove payer a behind m = ({ s with pwr := p } : State).addMove m := by
  obtain ⟨p, hp⟩ := offer_admitted h
  exact ⟨p, (if_pos h).trans (congrArg (State.addMove · m) hp)⟩

theorem beginMove_refused (h : (s.offer 4 (some payer) (s.moveCost a m.dst.1 * 10 ^ 6)).1 = false) : s.beginMove payer a behind m =
    ((s.offer 4 (some payer) (s.moveCost a m.dst.1 * 10 ^ 6)).2.bump F.PLC_CNT_DEFER_COUNT).markDeferred behind := if_neg (ne_true_of_eq_false h)

end

/-! ### The last block is copied (R167, R169, R177) -/

section
variable {s : State} {k p j : Nat} {x : TObj} {m : Move}

/-- The move of a page that copies it. -/
def State.copying (s : State) (k p : Nat) : Option Move := s.plc.moves.find? fun y => y.obj == k && y.page == p && !y.draining

/-- The move of a page whose source drains. -/
def State.draining (s : State) (k p : Nat) : Option Move := s.plc.moves.find? fun y => y.obj == k && y.page == p && y.draining

/-- Moves once one has copied its page: it drains its source, or is over where it has none. -/
def movesCopied (l : List Move) (m : Move) : List Move :=
  l.filterMap fun y => if y = m then (if m.src.isSome then some { m with draining := true } else none) else some y

/-- A copied page no longer moves, is no candidate, and counts. -/
def State.copied (s : State) (k p : Nat) (m : Move) : State :=
  ({ s with plc := { s.plc with moves := movesCopied s.plc.moves m, cands := s.plc.cands.filter fun c => c.1 != k || c.2.1 != p } } : State).bump64
    R.PLC_CNT_MOVE_LO R.PLC_CNT_MOVE_HI 1

/-- The move ends the repair of a copy (R177). -/
def Move.repairs (m : Move) (g : TPage) : Prop := m.kind = 3 ∧ (if m.copy = 0 then g.c0 else g.c1) ≠ .intact

/-- Memory once a move has brought its bytes: the repair of copy 1 takes those of copy 0. -/
def State.movedMem (s : State) (x : TObj) (k p : Nat) (m : Move) : Mem :=
  let g := x.at p
  let src := if m.copy ≠ 0 ∧ m.kind = 3 then s.home x k p 0 g else s.home x k p m.copy g
  s.mem.carry src (s.home x k p m.copy (g.movedTo m s.up)) pageLen

/-- The page map names a copy's new place, and its bytes stand there. -/
def State.switched (s : State) (x : TObj) (k p : Nat) (m : Move) : State :=
  ({ s with mem := s.movedMem x k p m } : State).updPage k p fun _ => (x.at p).movedTo m s.up

theorem movedTo_first (g : TPage) (up : Nat) (h : m.copy = 0) : let y := g.movedTo m up
    y.loc = some m.dst ∧ y.rep = g.rep ∧ (m.kind = 4 → y.moved = some up) ∧ (m.kind = 3 → y.c0 = .intact ∧ y.gen0 = g.gen1) := by
  simp only [TPage.movedTo, if_pos h]
  exact ⟨trivial, trivial, fun h => if_pos h, fun h => ⟨if_pos h, if_pos h⟩⟩

theorem movedTo_second (g : TPage) (up : Nat) (h : m.copy ≠ 0) : let y := g.movedTo m up
    y.rep = some m.dst ∧ y.loc = g.loc ∧ (m.kind = 3 → y.c1 = .intact ∧ y.gen1 = g.gen0) := by
  simp only [TPage.movedTo, if_neg h]
  exact ⟨trivial, trivial, fun h => ⟨if_pos h, if_pos h⟩⟩

theorem mem_movesCopied {l : List Move} (hm : m ∈ l) (hs : m.src ≠ none) : { m with draining := true } ∈ movesCopied l m :=
  List.mem_filterMap.2 ⟨m, hm, (if_pos rfl).trans (if_pos (Option.isSome_iff_ne_none.2 hs))⟩

section
variable (hm : s.copying k p = some m) (hx : s.obj k = some x)
include hm hx

theorem copyDone_eq : s.copyDone k p =
    (if m.kind = 3 ∧ (if m.copy = 0 then (x.at p).c0 else (x.at p).c1) ≠ .intact then (s.copied k p m).repaired x k p
      else s.copied k p m).switched x k p m := by
  rw [State.copying] at hm
  rw [State.copyDone, hm, hx]
  rfl

theorem copyDone_repair (hr : m.repairs (x.at p)) : s.copyDone k p = ((s.copied k p m).repaired x k p).switched x k p m :=
  (copyDone_eq hm hx).trans (congrArg (State.switched · x k p m) (if_pos hr))

theorem copyDone_move (hr : ¬ m.repairs (x.at p)) : s.copyDone k p = (s.copied k p m).switched x k p m :=
  (copyDone_eq hm hx).trans (congrArg (State.switched · x k p m) (if_neg hr))

end

theorem copyDone_none (hm : s.copying k p = none) : s.copyDone k p = s := by
  rw [State.copying] at hm
  rw [State.copyDone, hm]

theorem moveFail_none (hm : s.copying k p = none) : s.moveFail k p = s := by
  rw [State.copying] at hm
  rw [State.moveFail, hm]

theorem drainDone_none (hm : s.draining k p = none) : s.drainDone k p = s := by
  rw [State.draining] at hm
  rw [State.drainDone, hm]

theorem switched_eq (hx : s.obj k = some x) : s.switched x k p m =
    ({ s with mem := s.movedMem x k p m } : State).setObj k (x.withPage p ((x.at p).movedTo m s.up)) :=
  updPage_eq (s := { s with mem := s.movedMem x k p m }) hx

theorem switched_obj (hx : s.obj k = some x) : (s.switched x k p m).obj k = some (x.withPage p ((x.at p).movedTo m s.up)) := by
  rw [switched_eq hx, obj_setObj_same]

theorem switched_frame (hx : s.obj k = some x) : (∀ j, j ≠ k → (s.switched x k p m).obj j = s.obj j) ∧
    (s.switched x k p m).plc.moves = s.plc.moves ∧ (s.switched x k p m).regs = s.regs ∧ (s.switched x k p m).rings = s.rings := by
  rw [switched_eq hx]
  exact ⟨fun j hj => obj_setObj_ne hj, rfl, rfl, rfl⟩

/-- What the switch reads of a state: its clock and where copies stand. -/
theorem switched_mem {u : State} (hx : u.obj k = some x) (hm : u.mem = s.mem) (hp : u.plc.pools = s.plc.pools) (hs : u.slices = s.slices)
    (hn : u.nonceBase = s.nonceBase) (hu : u.up = s.up) : (u.switched x k p m).mem = s.movedMem x k p m := by
  have hmem : u.movedMem x k p m = s.movedMem x k p m := by simp only [State.movedMem, home_congr hp hs hn, hm, hu]
  rw [switched_eq hx]
  exact hmem

theorem repaired_count : (s.repaired x k p).getF F.PLC_CNT_REPAIR_COUNT = (s.getF F.PLC_CNT_REPAIR_COUNT + 1) % 2 ^ 32 :=
  (report_getF _ _ _ _ _ _ _ (by decide)).trans (getF_bump_same _ _ rfl)

theorem copied_count : (s.copied k p m).getF F.PLC_CNT_REPAIR_COUNT = s.getF F.PLC_CNT_REPAIR_COUNT :=
  getF_of_reg (reg_bump64_ne (by decide) (by decide))

end
end Sys2Proof.Machine
end

section

/-! ## O50: frames retired, and the comparison of the copies of a page -/

namespace Sys2Proof.Machine

/-! ### A source drains, or a move is abandoned (R169, R170) -/

section
variable {s : State} {k p f i : Nat} {m : Move}

/-- A move is over. -/
def State.unmoved (s : State) (m : Move) : State := { s with plc := { s.plc with moves := s.plc.moves.filter (· != m) } }

theorem freed_single (u : Nat × Nat) : s.freed i [u] = if u.1 == 1 && s.plc.retiring.contains u.2 then s.retire' u.2 i else s := rfl

theorem drainDone_eq (hm : s.draining k p = some m) :
    s.drainDone k p = (s.unmoved m).freed ((s.obj k).elim 0xFFFF TObj.slice) m.src.toList := by
  rw [State.draining] at hm
  rw [State.drainDone, hm]
  rfl

theorem drainDone_free (hm : s.draining k p = some m) (hr : ∀ f, m.src = some (1, f) → s.plc.retiring.contains f = false) :
    s.drainDone k p = s.unmoved m := by
  rw [drainDone_eq hm]
  cases hsrc : m.src with
  | none => rfl
  | some u =>
    obtain ⟨t, f⟩ := u
    refine (freed_single (t, f)).trans (if_neg ?_)
    rw [Bool.and_eq_true, beq_iff_eq]
    rintro ⟨rfl, hf⟩
    rw [State.unmoved, hr f hsrc] at hf
    cases hf

theorem drainDone_retires (hm : s.draining k p = some m) (hsrc : m.src = some (1, f)) (hr : s.plc.retiring.contains f = true) :
    s.drainDone k p = (s.unmoved m).retire' f ((s.obj k).elim 0xFFFF TObj.slice) := by
  rw [drainDone_eq hm, hsrc]
  exact (freed_single (1, f)).trans (if_pos (by simpa [State.unmoved] using hr))

/-- A move counts as abandoned. -/
def State.moveFailed (s : State) (m : Move) : State := (s.unmoved m).bump F.PLC_CNT_MOVE_FAIL_COUNT

theorem moveFail_eq (hm : s.copying k p = some m) : s.moveFail k p =
    if 2 ≤ m.dst.1 ∨ m.src.any (fun u => 2 ≤ u.1) = true then (s.moveFailed m).event F.PLC_STATUS_POOL_FAULT else s.moveFailed m := by
  rw [State.copying] at hm
  rw [State.moveFail, hm]
  rfl

theorem moveFailed_count : (s.moveFailed m).getF F.PLC_CNT_MOVE_FAIL_COUNT = (s.getF F.PLC_CNT_MOVE_FAIL_COUNT + 1) % 2 ^ 32 :=
  getF_bump_same _ _ rfl

theorem moveFail_frame (hm : s.copying k p = some m) : RegisterFrame (s.unmoved m) (s.moveFail k p) := by
  rw [moveFail_eq hm]
  exact .ite ((RegisterFrame.bump _ _).trans (.event _ _)) (.bump _ _)

theorem moveFail_count (hm : s.copying k p = some m) :
    (s.moveFail k p).getF F.PLC_CNT_MOVE_FAIL_COUNT = (s.getF F.PLC_CNT_MOVE_FAIL_COUNT + 1) % 2 ^ 32 := by
  rw [moveFail_eq hm]
  split
  · exact (getF_event_reg_ne (by decide)).trans moveFailed_count
  · exact moveFailed_count

theorem moveFail_poolFault (hm : s.copying k p = some m) (hp : 2 ≤ m.dst.1 ∨ m.src.any (fun u => 2 ≤ u.1) = true) :
    (s.moveFail k p).getF F.PLC_STATUS_POOL_FAULT = 1 := by
  rw [moveFail_eq hm, if_pos hp]
  exact getF_eventV_same _ _ _ rfl (by decide)

end

/-! ### Frames enter the retired-frame list (R179) -/

/-- Objects, moves and tenants are as they were, and records wait where H0 is paused alone. -/
structure FaultFrame (s t : State) : Prop where
  objs : t.plc.objs = s.plc.objs
  moves : t.plc.moves = s.plc.moves
  tenants : sameTenants s t
  halls : t.hallPaused 0 = s.hallPaused 0
  hold : t.errHold = s.errHold ∨ s.hallPaused 0 = true

namespace FaultFrame
variable {s t u : State}

theorem trans (h : FaultFrame s t) (g : FaultFrame t u) : FaultFrame s u where
  objs := g.objs.trans h.objs
  moves := g.moves.trans h.moves
  tenants := h.tenants.trans g.tenants
  halls := g.halls.trans h.halls
  hold := h.hold.elim (fun e => g.hold.imp (·.trans e) h.halls.symm.trans) .inr

theorem refl (s : State) : FaultFrame s s := ⟨rfl, rfl, ⟨rfl, rfl, rfl, rfl, rfl, rfl⟩, rfl, .inl rfl⟩

theorem report (s : State) (c b i st l : Nat) : FaultFrame s (s.report c b i st l) where
  objs := congrArg Plc.objs (State.report_plc ..)
  moves := congrArg Plc.moves (State.report_plc ..)
  tenants := (sameServed_report s c b i st l).2
  halls := hallPaused_of_reg (report_reg _ _ _ _ _ _ _ (by decide))
  hold := by
    obtain ⟨-, -, -, -, -, -, hrun⟩ := report_shown (s := s) (block := b) (slice := i) (st := st) (loc := l) (code := c) rfl
    exact (Bool.eq_false_or_eq_true (s.hallPaused 0)).symm.imp (fun h => (hrun h).1) id

/-- Lists of frames are no more than that. -/
theorem lists (s : State) (a b c : List Nat) : FaultFrame s { s with plc := { s.plc with retiring := a, retired := b, kept := c } } :=
  ⟨rfl, rfl, ⟨rfl, rfl, rfl, rfl, rfl, rfl⟩, rfl, .inl rfl⟩

theorem event (s : State) {f : Fld} (h : f.reg ≠ R.STR_HALL 0) : FaultFrame s (s.event f) :=
  ⟨rfl, rfl, ⟨rfl, rfl, rfl, rfl, rfl, rfl⟩, hallPaused_of_reg (reg_eventV_ne _ _ _ _ h), .inl rfl⟩

end FaultFrame

section
variable {s : State} {f i : Nat}

/-- A frame no longer waits for its retirement. -/
def State.unretiring (s : State) (f : Nat) : State := { s with plc := { s.plc with retiring := s.plc.retiring.filter (· != f) } }

/-- A full list keeps a frame in service. -/
def State.keep (s : State) (f : Nat) : State := { s with plc := { s.plc with kept := s.plc.kept ++ [f] } }

/-- A frame enters the list. -/
def State.retireFrame (s : State) (f : Nat) : State := { s with plc := { s.plc with retired := s.plc.retired ++ [f] } }

theorem retire'_listed (h : s.plc.retired.contains f = true) : s.retire' f i = s.unretiring f := if_pos h

section
variable (h : s.plc.retired.contains f = false)
include h

theorem retire'_kept (hl : 4096 ≤ s.plc.retired.length) (hk : s.plc.kept.contains f = true) : s.retire' f i = s.unretiring f :=
  (if_neg (ne_true_of_eq_false h)).trans ((if_pos hl).trans (if_pos hk))

theorem retire'_full (hl : 4096 ≤ s.plc.retired.length) (hk : s.plc.kept.contains f = false) :
    s.retire' f i = ((s.unretiring f).keep f).report 0x206 blkPlc i 0 f :=
  (if_neg (ne_true_of_eq_false h)).trans ((if_pos hl).trans (if_neg (ne_true_of_eq_false hk)))

theorem retire'_room (hl : s.plc.retired.length < 4096) : s.retire' f i =
    if (s.plc.retired ++ [f]).length = 3687 then ((s.unretiring f).retireFrame f).event F.PLC_STATUS_RETIRE_WARN
    else (s.unretiring f).retireFrame f :=
  (if_neg (ne_true_of_eq_false h)).trans (if_neg (Nat.not_le.2 hl))

end

theorem retire'_frame (s : State) (f i : Nat) : FaultFrame s (s.retire' f i) := by
  have hout : FaultFrame s (s.unretiring f) := .lists s _ _ _
  cases h : s.plc.retired.contains f with
  | true => rwa [retire'_listed h]
  | false =>
    rcases Nat.lt_or_ge s.plc.retired.length 4096 with hl | hl
    · have hin : FaultFrame s ((s.unretiring f).retireFrame f) := hout.trans (.lists _ _ _ _)
      rw [retire'_room h hl]
      split
      · exact hin.trans (.event _ (by decide))
      · exact hin
    · cases hk : s.plc.kept.contains f with
      | true => rwa [retire'_kept h hl hk]
      | false =>
        rw [retire'_full h hl hk]
        exact (hout.trans (.lists (s.unretiring f) _ _ _)).trans (.report _ _ _ _ _ _)

theorem retire'_retiring (s : State) (f i : Nat) : (s.retire' f i).plc.retiring = s.plc.retiring.filter (· != f) := by
  cases h : s.plc.retired.contains f with
  | true => rw [retire'_listed h]; rfl
  | false =>
    rcases Nat.lt_or_ge s.plc.retired.length 4096 with hl | hl
    · rw [retire'_room h hl]
      split <;> rfl
    · cases hk : s.plc.kept.contains f with
      | true => rw [retire'_kept h hl hk]; rfl
      | false => rw [retire'_full h hl hk, State.report_plc]; rfl

theorem retire'_enters (h : s.plc.retired.contains f = false) (hl : s.plc.retired.length < 4096) :
    (s.retire' f i).plc.retired = s.plc.retired ++ [f] ∧ sameBytes s (s.retire' f i) ∧
    (s.plc.retired.length = 3686 → (s.retire' f i).getF F.PLC_STATUS_RETIRE_WARN = 1) := by
  have hlen : (s.plc.retired ++ [f]).length = s.plc.retired.length + 1 := by simp
  rw [retire'_room h hl, hlen]
  split
  · exact ⟨rfl, fun _ => rfl, fun _ => getF_eventV_same _ _ _ rfl (by decide)⟩
  · exact ⟨rfl, fun _ => rfl, fun _ => by omega⟩

theorem retire'_stays (h : s.plc.retired.contains f = false) (hl : 4096 ≤ s.plc.retired.length) :
    (s.retire' f i).plc.retired = s.plc.retired ∧ (s.retire' f i).plc.kept.contains f = true ∧
    (s.plc.kept.contains f = false → (s.retire' f i).getF (F.ERR_CNT_COUNT 2) = (s.getF (F.ERR_CNT_COUNT 2) + 1) % 2 ^ 32) := by
  cases hk : s.plc.kept.contains f with
  | true =>
    rw [retire'_kept h hl hk]
    exact ⟨rfl, hk, nofun⟩
  | false =>
    rw [retire'_full h hl hk, State.report_plc]
    exact ⟨rfl, by simp [State.keep], fun _ => report_count (s := (s.unretiring f).keep f) (code := 0x206)⟩

theorem retireLoc_frame (s : State) (l : Option (Nat × Nat)) (i : Nat) : FaultFrame s (s.retireLoc l i) := by
  unfold State.retireLoc
  split
  · exact retire'_frame s _ i
  · exact .refl s

end

/-! ### The copies of a page compared (R176 to R178) -/

section
variable {s : State} {k p c : Nat} {x : TObj} {st : CopySt}

/-- The bytes of copy 1 stand where copy 0 waits for its repair. -/
def State.standIn (s : State) (x : TObj) (k p : Nat) : State :=
  { s with mem := s.mem.carry (s.home x k p 1 (x.at p)) ((Space.tier (x.handle k)).at (p * pageLen)) pageLen }

theorem markCopy_first (hx : s.obj k = some x) :
    s.markCopy x k p 0 st = (s.standIn x k p).setObj k (x.withPage p { x.at p with c0 := st }) :=
  updPage_eq (s := s.standIn x k p) (f := fun g => { g with c0 := st }) hx

theorem markCopy_second (hx : s.obj k = some x) (h : c ≠ 0) : s.markCopy x k p c st = s.setObj k (x.withPage p { x.at p with c1 := st }) :=
  (if_neg h).trans (updPage_eq (f := fun g => { g with c1 := st }) hx)

theorem copyFailed_eq (hx : s.obj k = some x) :
    s.copyFailed k p c = (s.markCopy x k p c .failed).retireLoc (if c = 0 then (x.at p).loc else (x.at p).rep) x.slice := by
  rw [State.copyFailed, hx]

/-- The page map no longer places a page that is lost (R180). -/
def TPage.losing (g : TPage) : TPage := { g with loc := none, rep := none, lost := true, c0 := .intact, c1 := .intact }

/-- A page that is lost leaves the page map and its moves. -/
def State.unplaced (s : State) (k p : Nat) (x : TObj) : State :=
  let u := s.setObj k (x.withPage p (x.at p).losing)
  { u with plc := { u.plc with moves := u.plc.moves.filter fun m => m.obj != k || m.page != p } }

/-- Its frames are retired, and its bytes blank. -/
def State.pageGone (s : State) (k p : Nat) (x : TObj) : State :=
  let u := ((s.unplaced k p x).retireLoc (x.at p).loc x.slice).retireLoc (x.at p).rep x.slice
  { u with mem := (u.mem.clear ((Space.tier (x.handle k)).at (p * pageLen)) pageLen).clear ((Space.tierCopy (x.handle k)).at (p * pageLen)) pageLen }

theorem losePage_eq (hx : s.obj k = some x) : s.losePage k p =
    ((s.pageGone k p x).event F.PLC_STATUS_PAGE_LOST).report 0x103 blkPlc x.slice stPageLost (x.handle k * 2 ^ 32 + p) := by
  rw [State.losePage, hx]
  dsimp only
  rw [updPage_eq hx]
  rfl

/-- What has become of the frames does not bear on the objects. -/
theorem pageGone_frame (s : State) (k p : Nat) (x : TObj) : FaultFrame (s.unplaced k p x) (s.pageGone k p x) :=
  (retireLoc_frame _ _ _).trans ((retireLoc_frame _ _ _).trans ⟨rfl, rfl, ⟨rfl, rfl, rfl, rfl, rfl, rfl⟩, rfl, .inl rfl⟩)

theorem losePage_frame (hx : s.obj k = some x) : FaultFrame (s.unplaced k p x) (s.losePage k p) := by
  rw [losePage_eq hx]
  exact (pageGone_frame s k p x).trans ((FaultFrame.event _ (by decide)).trans (.report _ _ _ _ _ _))

theorem losePage_shown (hx : s.obj k = some x) : (s.losePage k p).getF F.PLC_STATUS_PAGE_LOST = 1 := by
  rw [losePage_eq hx, report_getF _ _ _ _ _ _ _ (by decide)]
  exact getF_eventV_same _ _ _ rfl (by decide)

end
end Sys2Proof.Machine
end

section

/-! ## O50: what a comparison finds, and the statement -/

namespace Sys2Proof.Machine

/-! ### What a comparison finds (R176 to R178) -/

/-- The copies of a page differ and neither is newer: the object is quarantined (R178). -/
def State.discordant (s : State) (k : Nat) (x : TObj) : State :=
  (((s.setObj k { x with discord := true }).event F.PLC_STATUS_DISCORD).bump F.PLC_CNT_DISCORD_COUNT).report 0x104 blkPlc x.slice stDiscord
    (x.handle k)

/-- A page whose copies are of one age. -/
def TPage.evened (g : TPage) : TPage := { g with gen0 := max g.gen0 g.gen1, gen1 := max g.gen0 g.gen1 }

/-- A copy of a page was read without an uncorrectable error. -/
def TPage.good (g : TPage) (c : Nat) (ok : Bool) : Prop := ok = true ∧ g.readable c = true

section
variable {s : State} {k p : Nat} {x : TObj} {ok0 ok1 : Bool}

theorem good_and {g : TPage} {c : Nat} {ok : Bool} (h : g.good c ok) : (ok && g.readable c) = true := Bool.and_eq_true_iff.2 h

theorem bad_and {g : TPage} {c : Nat} {ok : Bool} (h : ¬ g.good c ok) : (ok && g.readable c) = false :=
  Bool.eq_false_iff.2 fun e => h (Bool.and_eq_true_iff.1 e)

section
variable (hx : s.obj k = some x)
include hx

theorem compareCopies_lost (h0 : ¬ (x.at p).good 0 ok0) (h1 : ¬ (x.at p).good 1 ok1) : s.compareCopies k p ok0 ok1 = s.losePage k p := by
  simp only [State.compareCopies, hx, bad_and h0, bad_and h1]
  rfl

theorem compareCopies_bad0 (h0 : ¬ (x.at p).good 0 ok0) (h1 : (x.at p).good 1 ok1) :
    s.compareCopies k p ok0 ok1 = if (x.at p).readable 0 then s.copyFailed k p 0 else s := by
  simp only [State.compareCopies, hx, bad_and h0, good_and h1]
  rfl

theorem compareCopies_bad1 (h0 : (x.at p).good 0 ok0) (h1 : ¬ (x.at p).good 1 ok1) :
    s.compareCopies k p ok0 ok1 = if (x.at p).readable 1 then s.copyFailed k p 1 else s := by
  simp only [State.compareCopies, hx, good_and h0, bad_and h1]
  rfl

section
variable (h0 : (x.at p).good 0 ok0) (h1 : (x.at p).good 1 ok1)
include h0 h1

theorem compareCopies_good : s.compareCopies k p ok0 ok1 =
    if (x.at p).c0 ≠ .intact ∨ (x.at p).c1 ≠ .intact then s
    else if s.copiesEqual x k p then s.updPage k p TPage.evened
    else if (x.at p).gen0 = (x.at p).gen1 then s.discordant k x
    else s.markCopy x k p (if (x.at p).gen1 < (x.at p).gen0 then 1 else 0) .stale := by
  simp only [State.compareCopies, hx, good_and h0, good_and h1]
  rfl

section
variable (hc0 : (x.at p).c0 = .intact) (hc1 : (x.at p).c1 = .intact)
include hc0 hc1

theorem compareCopies_equal (he : s.copiesEqual x k p = true) :
    s.compareCopies k p ok0 ok1 = s.setObj k (x.withPage p (x.at p).evened) := by
  rw [compareCopies_good hx h0 h1, if_neg (by simp [hc0, hc1]), if_pos he]
  exact updPage_eq hx

theorem compareCopies_discord (he : s.copiesEqual x k p = false) (hg : (x.at p).gen0 = (x.at p).gen1) :
    s.compareCopies k p ok0 ok1 = s.discordant k x := by
  rw [compareCopies_good hx h0 h1, if_neg (by simp [hc0, hc1]), if_neg (ne_true_of_eq_false he), if_pos hg]

theorem compareCopies_stale (he : s.copiesEqual x k p = false) (hg : (x.at p).gen0 ≠ (x.at p).gen1) :
    s.compareCopies k p ok0 ok1 = s.markCopy x k p (if (x.at p).gen1 < (x.at p).gen0 then 1 else 0) .stale := by
  rw [compareCopies_good hx h0 h1, if_neg (by simp [hc0, hc1]), if_neg (ne_true_of_eq_false he), if_neg hg]

end
end
end

theorem discordant_spec (s : State) (k : Nat) (x : TObj) : let t := s.discordant k x
    t.obj k = some { x with discord := true } ∧ t.getF F.PLC_STATUS_DISCORD = 1 ∧
    t.getF F.PLC_CNT_DISCORD_COUNT = (s.getF F.PLC_CNT_DISCORD_COUNT + 1) % 2 ^ 32 ∧
    t.getF (F.ERR_CNT_COUNT 1) = (s.getF (F.ERR_CNT_COUNT 1) + 1) % 2 ^ 32 ∧ sameTenants s t := by
  intro t
  have hobj : t.obj k = (s.setObj k { x with discord := true }).obj k := obj_of_objs (congrArg Plc.objs (State.report_plc ..))
  refine ⟨hobj.trans obj_setObj_same, ?status, ?count, ?errors, ?tenants⟩
  case status =>
    exact (report_getF _ _ _ _ _ _ _ (by decide)).trans ((getF_bump_reg_ne (by decide)).trans (getF_eventV_same _ _ _ rfl (by decide)))
  case count =>
    refine (report_getF _ _ _ _ _ _ _ (by decide)).trans ((getF_bump_same _ _ rfl).trans ?_)
    rw [getF_event_reg_ne (by decide)]
    rfl
  case errors =>
    refine (report_count (code := 0x104)).trans ?_
    rw [getF_bump_reg_ne (by decide), getF_event_reg_ne (by decide)]
    rfl
  case tenants =>
    have hset : sameTenants s (s.setObj k { x with discord := true }) := (setPlc_frame s _).2.2.2
    exact (hset.trans ((RegisterFrame.event _ _).trans (.bump _ _)).work.2.2).trans (sameServed_report _ _ _ _ _ _).2

end

/-! ### The comparison asked for (R176) -/

section
variable {s : State} {h : Word} {k p : Nat} {x : TObj} {ok0 ok1 : Bool} {rot : List (Bool × BitVec 21 × Byte)}

/-- A page of which no copies are to be compared now. -/
def State.uncompared (s : State) (x : TObj) (tag p : Nat) (ok0 ok1 : Bool) : Prop :=
  x.tag ≠ tag ∨ x.copies ≠ 2 ∨ (x.at p).loc = none ∨ (x.at p).rep = none ∨ s.hallPaused 8 = true ∨
    (ok0 = true ∧ ok1 = true ∧ s.getF F.PLC_SCRUB_PERIOD_H = 0)

/-- The bytes of a page's copies that a medium has changed. -/
def State.rotted (s : State) (x : TObj) (k p : Nat) (rot : List (Bool × BitVec 21 × Byte)) : State :=
  { s with mem := rot.foldl (fun (m : Mem) e => m.set (s.home x k p (b2n e.1) (x.at p) + e.2.1.toNat) e.2.2) s.mem }

theorem exec_replicaCompare_absent (hx : s.obj (h.toNat / 256) = none) : exec (.replicaCompare h p ok0 ok1 rot) s = .next s := by
  have hexec : exec (.replicaCompare h p ok0 ok1 rot) s = execReplicaCompare h p ok0 ok1 rot s := rfl
  rw [hexec, execReplicaCompare, hx]

theorem uncompared_iff : s.uncompared x (h.toNat % 256) p ok0 ok1 ↔ (x.tag ≠ h.toNat % 256 ∨ x.copies ≠ 2 ∨ (x.at p).loc.isNone ∨
    (x.at p).rep.isNone ∨ s.hallPaused 8 ∨ ok0 ∧ ok1 ∧ s.getF F.PLC_SCRUB_PERIOD_H = 0) := by
  simp only [State.uncompared, Option.isNone_iff_eq_none]

theorem exec_replicaCompare_idle (hx : s.obj (h.toNat / 256) = some x) (hi : s.uncompared x (h.toNat % 256) p ok0 ok1) :
    exec (.replicaCompare h p ok0 ok1 rot) s = .next s := by
  have hexec : exec (.replicaCompare h p ok0 ok1 rot) s = execReplicaCompare h p ok0 ok1 rot s := rfl
  rw [hexec, execReplicaCompare, hx]
  exact congrArg _ (if_pos (uncompared_iff.1 hi))

theorem exec_replicaCompare (hx : s.obj (h.toNat / 256) = some x) (hi : ¬ s.uncompared x (h.toNat % 256) p ok0 ok1) :
    exec (.replicaCompare h p ok0 ok1 rot) s = .next ((s.rotted x (h.toNat / 256) p rot).compareCopies (h.toNat / 256) p ok0 ok1) := by
  have hexec : exec (.replicaCompare h p ok0 ok1 rot) s = execReplicaCompare h p ok0 ok1 rot s := rfl
  rw [hexec, execReplicaCompare, hx]
  exact congrArg _ (if_neg (mt uncompared_iff.2 hi))

end
end Sys2Proof.Machine
end

section

/-! ## O50: the statement, part by part -/

namespace Sys2Proof.Machine

section
variable {s : State} {k p : Nat} {x : TObj} {m : Move}

/-- A copied page: its object names the new place, and no other page or object changes. -/
theorem copyDone_object (hm : s.copying k p = some m) (hx : s.obj k = some x) :
    (s.copyDone k p).obj k = some (x.withPage p ((x.at p).movedTo m s.up)) ∧ (∀ j, j ≠ k → (s.copyDone k p).obj j = s.obj j) ∧
    (s.copyDone k p).plc.moves = movesCopied s.plc.moves m ∧ (s.copyDone k p).rings = s.rings := by
  by_cases hr : m.repairs (x.at p)
  · have hplc : ((s.copied k p m).repaired x k p).plc = (s.copied k p m).plc := State.report_plc ..
    have hup : ((s.copied k p m).repaired x k p).up = s.up := congrArg Time.up (State.report_time ..)
    have hobj (j : Nat) : ((s.copied k p m).repaired x k p).obj j = s.obj j := (obj_of_objs (congrArg Plc.objs hplc)).trans rfl
    obtain ⟨hne, hmoves, -, hrings⟩ := switched_frame (p := p) (m := m) ((hobj k).trans hx)
    rw [copyDone_repair hm hx hr, switched_obj ((hobj k).trans hx), hup]
    exact ⟨rfl, fun j hj => (hne j hj).trans (hobj j), hmoves.trans (congrArg Plc.moves hplc), hrings.trans (State.report_rings ..)⟩
  · obtain ⟨hne, hmoves, -, hrings⟩ := switched_frame (s := s.copied k p m) (p := p) (m := m) hx
    rw [copyDone_move hm hx hr, switched_obj (s := s.copied k p m) hx]
    exact ⟨rfl, hne, hmoves, hrings⟩

theorem copyDone_counts (hm : s.copying k p = some m) (hx : s.obj k = some x) (hr : ¬ m.repairs (x.at p)) :
    let n := s.reg R.PLC_CNT_MOVE_LO + 2 ^ 32 * s.reg R.PLC_CNT_MOVE_HI + 1
    (s.copyDone k p).reg R.PLC_CNT_MOVE_LO = n % 2 ^ 32 ∧ (s.copyDone k p).reg R.PLC_CNT_MOVE_HI = n / 2 ^ 32 % 2 ^ 32 ∧
    (s.copyDone k p).mem = s.movedMem x k p m := by
  obtain ⟨-, -, hregs, -⟩ := switched_frame (s := s.copied k p m) (p := p) (m := m) hx
  rw [copyDone_move hm hx hr]
  exact ⟨(reg_of_regs _ _ _ hregs).trans (bump64_reg_lo (by decide)), (reg_of_regs _ _ _ hregs).trans bump64_reg_hi,
    switched_mem (s := s) hx rfl rfl rfl rfl rfl⟩

theorem copyDone_repairs (hm : s.copying k p = some m) (hx : s.obj k = some x) (hr : m.repairs (x.at p)) :
    (s.copyDone k p).getF F.PLC_CNT_REPAIR_COUNT = (s.getF F.PLC_CNT_REPAIR_COUNT + 1) % 2 ^ 32 := by
  have hobj : ((s.copied k p m).repaired x k p).obj k = some x := (obj_of_objs (congrArg Plc.objs (State.report_plc ..))).trans hx
  obtain ⟨-, -, hregs, -⟩ := switched_frame (p := p) (m := m) hobj
  rw [copyDone_repair hm hx hr, getF_of_regs _ _ _ hregs, repaired_count, copied_count]

end

/-- Settles O50, clause by clause: what waits ends or times out, moves start and end, and copies are compared. -/
theorem placementEvents : Obligations.PlacementEvents := by
  unfold Obligations.PlacementEvents
  refine ⟨?waits, fun s k h c hc => exec_settle_idle (settling_none h) hc,
    fun s k hw => ⟨fun b hb => exec_fetchWaitTimeout_bar hw hb, fun hb => exec_fetchWaitTimeout_other hw hb⟩,
    fun s o st => rfl, ?fetch, ?cancel, fun s h => ?held, fun s h8 h11 => ?boundary, ?decay,
    fun s h => congrArg Host.Outcome.next (moveStart_held h), ?starts,
    moveQueue_ordered, fun s => rfl, fun s c cs h => startFrom_absent h, ?queue, ?begins, fun s h p => ⟨rfl, rfl, rfl⟩,
    fun s k p hm => ⟨copyDone_none hm, moveFail_none hm⟩, fun s k p hm => drainDone_none hm, ?copied,
    fun s k p m hm => ⟨fun hr => drainDone_free hm hr, fun f hsrc hr => drainDone_retires hm hsrc hr⟩, ?retired, ?fails, ?asked, ?compared,
    ?marked, fun s x k p c hx => copyFailed_eq hx, ?lost⟩
  case waits =>
    intro s k o ho
    refine ⟨fun hw => ⟨fun hs => ?_, fun hs => ?_, exec_settleTimeout (settling_some ho hw)⟩, fun hw => ?_⟩
    · exact (exec_settleDone (settling_some ho hw)).trans (congrArg _ (if_pos hs))
    · exact (exec_settleDone (settling_some ho hw)).trans (congrArg _ (if_neg (ne_true_of_eq_false hs)))
    · intro v
      have hexec := exec_fetchWaitTimeout ho hw
      refine ⟨fun h5 => ?_, fun h5 h6 => ?_, fun h5 h6 => ?_⟩
      · exact hexec.trans (congrArg _ (if_pos h5))
      · exact hexec.trans (congrArg _ ((if_neg h5).trans (congrArg State.plcKick (if_pos h6))))
      · exact hexec.trans (congrArg _ ((if_neg h5).trans (congrArg State.plcKick (if_neg h6))))
  case fetch =>
    intro s k p u x hx hl hm hf room
    have hpage : Fetchable s k p u x := ⟨hx, hl, hm, hf⟩
    refine ⟨fun h => ?_, fun t h4 h8 hr => ?_⟩
    · obtain h | h | h := h
      · exact startFetch_held hpage (.inl h)
      · exact startFetch_held hpage (.inr h)
      · exact startFetch_stuck hpage h
    · have hopen : Fetching s k p u t x := { hpage with shed := h4, runs := h8, room := hr }
      exact ⟨fun h => startFetch_deferred hopen h, fun f v h hv => ⟨_, startFetch_begins hopen h hv, fetchBegun_spec hv _ _ _⟩⟩
  case cancel =>
    intro s w m i hw v tag
    refine ⟨_, _, _, exec_plcCancel hw, rfl, ?_, regsBut_eventV (by decide), (RegisterFrame.eventV _ _ _).work, plcCancelTag_result,
      fun h => plcCancelTag_kept fun e => h (plcCancelTag_result.trans e),
      fun o ho => ⟨plcCancelTag_command ho, fun c => plcCancelTag_wait ho⟩⟩
    exact (getF_eventV_same _ _ _ rfl (by decide)).trans (Nat.mod_eq_of_lt (CancelResult.code_lt _))
  case held => exact congrArg Host.Outcome.next (if_pos (by simpa using h))
  case boundary => exact congrArg Host.Outcome.next (if_neg (by simp [h8, h11]))
  case decay =>
    intro s t
    have ht : t = s.decayReady.cooled.recandidated := decayBoundary_eq s
    clear_value t
    subst ht
    obtain ⟨hbytes, htenants, hshift, hobj, hcands⟩ := recandidated_spec s.decayReady
    obtain ⟨hwbytes, hwengines, hwtenants⟩ := (decayReady_frame s).work
    obtain ⟨-, -, -, -, -, hplc, -⟩ := hwengines
    refine ⟨hcands, hwbytes.trans hbytes, hwtenants.trans htenants, fun k x hx => ⟨x.cooled s.decayReady.decayShift, ?_, rfl, fun p g hg => ?_⟩⟩
    · exact (hobj k).trans (obj_cooled ((obj_of_objs (congrArg Plc.objs hplc)).trans hx))
    · rw [hshift]
      exact look_cooled hg
  case starts =>
    intro s h2 he h8 hr
    exact ⟨fun hb => congrArg Host.Outcome.next (moveStart_pages h2 he h8 hr hb),
      fun b hb => congrArg Host.Outcome.next (moveStart_buffer h2 he h8 hr hb)⟩
  case queue =>
    intro s c cs x hx g src reads a behind stays dst
    refine ⟨fun l hs hl => startFrom_stays hx hs hl, fun t f v hs hd hf => (startFrom_tries hx hs).trans (tryMove_moves hd hf),
      fun t v hs hd hf => (startFrom_tries hx hs).trans (tryMove_frameless hd hf), fun hs hd => ?_⟩
    intro t promotion dropped
    refine ⟨fun hp => ?_, fun hp hv => ?_, fun v hp hq hv => ?_⟩
    · exact (startFrom_tries hx hs).trans (tryMove_stuck hd hp)
    · exact (startFrom_tries hx hs).trans (tryMove_drops hd hp (demoteFor_none hv))
    · exact (startFrom_tries hx hs).trans (tryMove_demotes hd hp ((demoteFor_quota hq).trans hv))
  case begins =>
    intro s payer a behind m r t
    refine ⟨fun hok => ?_, fun hno => ?_⟩
    · obtain ⟨w, hw⟩ := beginMove_admitted (behind := behind) hok
      have ht : t = ({ s with pwr := w } : State).addMove m := hw
      rw [ht]
      exact ⟨rfl, rfl, fun _ => rfl, rfl⟩
    · have ht : t = (r.2.bump F.PLC_CNT_DEFER_COUNT).markDeferred behind := beginMove_refused hno
      refine ⟨?_, ?_, ht⟩
      · rw [ht]
        exact offer_plc _ _ _
      · rw [ht]
        exact sameBytes_of_mem (offer_frame s 4 (some payer) _).1
  case copied =>
    intro s k p x m hx hm n g repair t
    obtain ⟨hobj, hothers, hmoves, hrings⟩ := copyDone_object hm hx
    refine ⟨x.withPage p (g.movedTo m s.up), hobj, rfl, fun j => at_withPage_ne, hothers, fun h => ?_, fun h => ?_, fun hsrc => ?_, fun hr => ?_,
      copyDone_repairs hm hx, hrings⟩
    · rw [at_withPage_same]
      exact movedTo_first g s.up h
    · rw [at_withPage_same]
      exact movedTo_second g s.up h
    · rw [hmoves]
      exact mem_movesCopied (List.mem_of_find?_eq_some hm) hsrc
    · rw [at_withPage_same]
      exact copyDone_counts hm hx hr
  case retired =>
    intro s f i t
    have hframe := retire'_frame s f i
    refine ⟨retire'_retiring s f i, hframe.objs, hframe.moves, fun h => ?_, retire'_enters, retire'_stays⟩
    have ht : t = s.unretiring f := retire'_listed h
    rw [ht]
    rfl
  case fails =>
    intro s k p m hm t
    have hframe := moveFail_frame hm
    obtain ⟨hbytes, -, htenants⟩ := hframe.work
    exact ⟨hframe.plc, hbytes, htenants, moveFail_count hm, moveFail_poolFault hm⟩
  case asked =>
    intro s h p ok0 ok1 rot c k
    refine ⟨exec_replicaCompare_absent, fun x hx => ?_⟩
    intro idle
    refine ⟨exec_replicaCompare_idle hx, fun hi => ⟨s.rotted x k p rot, rfl, ?_, exec_replicaCompare hx hi⟩⟩
    rintro rfl
    rfl
  case compared =>
    intro s k p x ok0 ok1 hx g good0 good1 t
    refine ⟨compareCopies_lost hx, fun h0 h1 hr => (compareCopies_bad0 hx h0 h1).trans (if_pos hr),
      fun h0 h1 hr => (compareCopies_bad0 hx h0 h1).trans (if_neg (ne_true_of_eq_false hr)),
      fun h0 h1 hr => (compareCopies_bad1 hx h0 h1).trans (if_pos hr),
      fun h0 h1 hr => (compareCopies_bad1 hx h0 h1).trans (if_neg (ne_true_of_eq_false hr)),
      fun h0 h1 hc => (compareCopies_good hx h0 h1).trans (if_pos hc),
      fun h0 h1 hc0 hc1 => ⟨fun he => ?_, fun he hg => ?_, fun he hg => ?_, fun he hg => ?_⟩⟩
    · have ht : t = s.setObj k (x.withPage p g.evened) := compareCopies_equal hx h0 h1 hc0 hc1 he
      rw [ht]
      exact ⟨_, rfl, obj_setObj_same, rfl, at_withPage_same, fun j => at_withPage_ne⟩
    · have ht : t = s.discordant k x := compareCopies_discord hx h0 h1 hc0 hc1 he hg
      rw [ht]
      exact discordant_spec s k x
    · exact (compareCopies_stale hx h0 h1 hc0 hc1 he hg.ne').trans (by rw [if_pos hg])
    · exact (compareCopies_stale hx h0 h1 hc0 hc1 he hg.ne).trans (by rw [if_neg hg.not_gt])
  case marked =>
    intro s x k p c st hx hc
    by_cases h : c = 0
    · subst h
      rw [markCopy_first hx]
      exact ⟨_, obj_setObj_same, at_withPage_same, fun j => at_withPage_ne, rfl⟩
    · rw [markCopy_second hx h, if_neg h, if_neg h]
      exact ⟨_, obj_setObj_same, at_withPage_same, fun j => at_withPage_ne, rfl⟩
  case lost =>
    intro s k p x hx t
    have hframe := losePage_frame (p := p) hx
    have hobj : t.obj k = some (x.withPage p (x.at p).losing) := (obj_of_objs hframe.objs).trans obj_setObj_same
    exact ⟨_, hobj, at_withPage_same, fun j => at_withPage_ne, hframe.moves, losePage_shown hx, hframe.tenants, hframe.hold⟩

end Sys2Proof.Machine
end
